-- ==== Sys2Proof/Word.lean ====
section
/-! DEFINITION. The words of the machine (R11) and the finite tables in which sparse state is held. -/

namespace Sys2Proof

/-- A 64-bit scalar word (R41). -/
abbrev Word := BitVec 64

/-- A byte of memory. -/
abbrev Byte := BitVec 8

/-- A 32-bit parcel of code (R76). -/
abbrev Parcel := BitVec 32

/-- A sparse table: keys with values, in rising key order. A key that is not listed has the default the reader names. -/
abbrev Tbl (α : Type) := List (Nat × α)

/-- The value of a key, or the default. -/
def Tbl.get {α : Type} (d : α) : Tbl α → Nat → α
  | [], _ => d
  | (k, v) :: t, i => if i = k then v else Tbl.get d t i

/-- The table with one key's value replaced, or put in its place. -/
def Tbl.set {α : Type} : Tbl α → Nat → α → Tbl α
  | [], i, v => [(i, v)]
  | (k, w) :: t, i, v =>
    if i = k then (k, v) :: t else if i < k then (i, v) :: (k, w) :: t else (k, w) :: Tbl.set t i v

/-- The table without one key. -/
def Tbl.erase {α : Type} (t : Tbl α) (i : Nat) : Tbl α := t.filter (fun c => c.1 ≠ i)

/-- The keys that are listed. -/
def Tbl.keys {α : Type} (t : Tbl α) : List Nat := t.map (·.1)

/-- A block that latches snapshots (R370, R383). -/
inductive SnapBlock where
  | core (cid : Nat)
  | dieAgent (die : Nat)
  | launchAgent (die : Nat)
  | power (die : Nat)
  | link (die i : Nat)
  | engine (clid e : Nat)
  | sequencer (clid : Nat)
deriving DecidableEq, Repr, Inhabited

end Sys2Proof
end

