-- ==== Sys2Proof/Syntax.lean ====
section
/-! DEFINITION. The instructions and events of the machine: one constructor per row of the opcode table.
An instruction row carries the fields of its parcels (R76, R78, R79); an event row names the unit that acts and the choice
that the manual leaves to it. -/

namespace Sys2Proof

/-- The fields of a C-form instruction, all in parcel 0 (R76, R80). -/
structure CForm where
  /-- register field d -/
  d : BitVec 6
  /-- register field a -/
  a : BitVec 6
  /-- register field b, or the offset of `ld` and `st` -/
  b : BitVec 6
deriving DecidableEq, Repr, Inhabited

/-- The fields of a W-form instruction (R76, R78). -/
structure WForm where
  d : BitVec 6
  a : BitVec 6
  b : BitVec 6
  /-- guard predicate in [2:0], negate in [3] -/
  guard : BitVec 4
  /-- order class -/
  ord : BitVec 2
  hint : BitVec 2
  c : BitVec 6
  /-- parcel 1 [31:14]: imm18, or the entry's sub-fields -/
  sub : BitVec 18
deriving DecidableEq, Repr, Inhabited

/-- The fields of an X-form instruction: a W form whose immediate is the literal of parcel 2 (R79). -/
structure XForm where
  d : BitVec 6
  a : BitVec 6
  b : BitVec 6
  guard : BitVec 4
  ord : BitVec 2
  hint : BitVec 2
  c : BitVec 6
  lit : BitVec 32
deriving DecidableEq, Repr, Inhabited

/-- The pacing of a graph: depth, dependence list and watch list (R70, R254). -/
structure Pace where
  depth : Nat
  dep : List (Int × Int)
  watch : List (Int × Int)
deriving DecidableEq, Repr, Inhabited

/-- A codeblock of a graph image: the addresses of its eight entries and its eight slot templates (R68, R169). An entry
that the source does not declare holds the address of the trailing zero parcel (R387). -/
structure CodeBlock where
  graph : Nat
  entries : List Nat
  templates : List (BitVec 32)
deriving DecidableEq, Repr, Inhabited

/-- A lease of a graph: tiles first to first + count - 1 of a tensor (R70, R311). -/
structure Lease where
  tid : Nat
  first : Nat
  count : Nat
  rw : Bool
deriving DecidableEq, Repr, Inhabited

/-- An initialised data section at its linked offset (R72, R206). Level 0 core, 1 cluster, 2 die. -/
structure Section where
  level : Nat
  off : Nat
  bytes : List Byte
deriving DecidableEq, Repr, Inhabited

/-- A graph of an image (R284). The code range is that of R387, end exclusive. -/
structure Graph where
  root : Nat
  codeLo : Nat
  codeHi : Nat
  /-- nesting limit (R70) -/
  depth : Nat
  /-- none: stop; some cb: handler, cb -/
  policy : Option Nat
  pace : Option Pace
  tensors : List Nat
  leases : List Lease
  sections : List Section
  splices : List Nat
deriving DecidableEq, Repr, Inhabited

/-- A splice: sending die, receiving die, depth in entries (R70, R319). -/
structure Splice where
  src : Nat
  dst : Nat
  depth : Nat
deriving DecidableEq, Repr, Inhabited

/-- A graph image, the output of `ramlink` (R284): the code from code-store address 0 up, and what its graphs declare. -/
structure Image where
  frames : Nat
  code : List Parcel
  blocks : List CodeBlock
  graphs : List Graph
  /-- tensor descriptors of eight words by tensor id (R305) -/
  descs : List (Nat × List Word)
  splices : List Splice
deriving DecidableEq, Repr, Inhabited

/-- The rows of the opcode table, in its order. -/
inductive Instr where
  /-- MODULE_RESET (R376). -/
  | moduleReset
  /-- IMAGE_LOAD (R284). -/
  | imageLoad (p : Nat) (img : Image)
  /-- ILLEGAL_PATTERN (R88). -/
  | illegalPattern (code : BitVec 8)
  /-- DISPATCH (R181). -/
  | dispatch (cid ctx : Nat)
  /-- SIGNAL_ARRIVAL (R175). -/
  | signalArrival (cid f slot : Nat) (pkts : List Nat)
  /-- ALLOCATION_REQUEST (R193). -/
  | allocationRequest (pkt : Nat) (same : List Nat)
  /-- ARMING_REQUEST (R195). -/
  | armingRequest (pkt : Nat) (same : List Nat)
  /-- FREE_REQUEST (R194). -/
  | freeRequest (pkt : Nat)
  /-- STF_REQUEST (R199). -/
  | stfRequest (pkt : Nat)
  /-- LDF_REQUEST (R199). -/
  | ldfRequest (pkt : Nat)
  /-- REPLY_ARRIVAL (R219). -/
  | replyArrival (pkt : Nat) (same : List Nat)
  /-- SPILLED_REQUEST_APPLY (R183). -/
  | spilledRequestApply (pkt : Nat)
  /-- FILL (R185). -/
  | fill (cid : Nat)
  /-- WRITE_BACK_START (R186). -/
  | writeBackStart (cid f : Nat)
  /-- WRITE_BACK_COMPLETE (R186). -/
  | writeBackComplete (cid f : Nat)
  /-- MATRIX_COMMAND_START (R154). -/
  | matrixCommandStart (cid m : Nat)
  /-- MATRIX_COMMAND_FINISH (R154). -/
  | matrixCommandFinish (cid m : Nat)
  /-- MDRAIN_ROW (R164). -/
  | mdrainRow (cid m : Nat)
  /-- MROT_TILE_LANDS (R162). -/
  | mrotTileLands (pkt : Nat)
  /-- LANDING_MOVE (R162). -/
  | landingMove (cid latch : Nat)
  /-- PORT_WORD_ARRIVAL (R46). -/
  | portWordArrival (cid dir : Nat)
  /-- LDRM_REQUEST (R224). -/
  | ldrmRequest (pkt : Nat)
  /-- STRM_REQUEST (R224). -/
  | strmRequest (pkt : Nat)
  /-- ATOMIC_REQUEST (R226). -/
  | atomicRequest (pkt : Nat)
  /-- RING_REQUEST (R202). -/
  | ringRequest (pkt : Nat)
  /-- FENCE_RELEASE (R229). -/
  | fenceRelease (pkt : Nat)
  /-- RELEASE_SIGNAL_SEND (R196). -/
  | releaseSignalSend (pkt : Nat)
  /-- WALK_START (R233). -/
  | walkStart (clid w : Nat)
  /-- WALK_TRANSLATION (R309). -/
  | walkTranslation (w tile choice : Nat)
  /-- WALK_MOVE (R234). -/
  | walkMove (w : Nat) (moves : List Nat)
  /-- DIMENSION_END_SIGNAL (R236). -/
  | dimensionEndSignal (w level run : Nat) (target : Nat)
  /-- FINAL_SIGNAL (R236). -/
  | finalSignal (w : Nat)
  /-- TWCAN_COMPLETE (R239). -/
  | twcanComplete (pkt : Nat)
  /-- STEPD_DONE (R263). -/
  | stepdDone (cid fid : Nat)
  /-- STEP_ADVANCE (R257). -/
  | stepAdvance (cid : Nat)
  /-- STEP_NOTICE (R256). -/
  | stepNotice (pkt : Nat)
  /-- LDST_REQUEST (R264). -/
  | ldstRequest (pkt : Nat)
  /-- STEPQ_REQUEST (R265). -/
  | stepqRequest (pkt : Nat)
  /-- STEP_REQUEST_RESEND (R266). -/
  | stepRequestResend (pkt : Nat)
  /-- SQTAB_SERVE (R268). -/
  | sqtabServe (pkt : Nat)
  /-- SQINIT_SERVE (R269). -/
  | sqinitServe (pkt : Nat)
  /-- SQSTEP_SERVE (R270). -/
  | sqstepServe (pkt : Nat)
  /-- SQSTAGE_SERVE (R270). -/
  | sqstageServe (pkt : Nat)
  /-- SQRD_SERVE (R277). -/
  | sqrdServe (pkt : Nat)
  /-- STAGE_FORMED (R271). -/
  | stageFormed (clid r : Nat)
  /-- STEP_DECISION (R272). -/
  | stepDecision (clid r : Nat)
  /-- LAUNCH_REQUEST (R292). -/
  | launchRequest (pkt : Nat)
  /-- INSTANCE_START (R287). -/
  | instanceStart (handle : Nat)
  /-- LAUNCH_MULTICAST (R291). -/
  | launchMulticast (die handle : Nat)
  /-- INSTANCE_END (R288). -/
  | instanceEnd (handle : Nat)
  /-- CREDIT_LEND (R292). -/
  | creditLend (die p : Nat)
  /-- GQUERY_REQUEST (R298). -/
  | gqueryRequest (pkt : Nat)
  /-- GCAN_REQUEST (R299). -/
  | gcanRequest (pkt : Nat)
  /-- SUBQ_BASE (R301). -/
  | subqBase (p : Nat) (v : Word)
  /-- SUBQ_LOG (R301). -/
  | subqLog (p : Nat) (v : Word)
  /-- SUBQ_TAIL (R301). -/
  | subqTail (p : Nat) (v : Word)
  /-- SUBMISSION_ENTRY_READ (R302). -/
  | submissionEntryRead (p : Nat)
  /-- FORECAST (R303). -/
  | forecast (die : Nat)
  /-- TELEMETRY_UPDATE (R382). -/
  | telemetryUpdate (die : Nat)
  /-- PLACEMENT_ENTRY_WRITE (R289). -/
  | placementEntryWrite (p cb : Nat) (w0 w1 : Word)
  /-- SPILL_FRAMES (R184). -/
  | spillFrames (p : Nat) (v : Word)
  /-- SPILL_BASE (R184). -/
  | spillBase (p d : Nat) (v : Word)
  /-- MIG_GO (R313). -/
  | migGo (p : Nat) (v : Word)
  /-- MIGRATION_COMPLETE (R314). -/
  | migrationComplete (p : Nat)
  /-- COMMIT (R339). -/
  | commit (v : Word)
  /-- DRAIN_MESSAGE (R339). -/
  | drainMessage (die : Nat)
  /-- CLEARING_COMPLETE (R6). -/
  | clearingComplete (p : Nat)
  /-- PREEMPT (R349). -/
  | preempt (p : Nat)
  /-- RESUME (R349). -/
  | resume (p : Nat)
  /-- CORE_SAVE (R350). -/
  | coreSave (cid : Nat)
  /-- SAVED_PACKET_APPLY (R352). -/
  | savedPacketApply (pkt : Nat)
  /-- CORE_RESTORE (R353). -/
  | coreRestore (cid : Nat)
  /-- ORD_ARM (R335). -/
  | ordArm (p d i : Nat) (v : Word)
  /-- ORD_ADDR (R335). -/
  | ordAddr (p d i : Nat) (v : Word)
  /-- ORD_N (R335). -/
  | ordN (p d i : Nat) (v : Word)
  /-- ORDERED_REDUCTION_REQUEST (R336). -/
  | orderedReductionRequest (pkt : Nat)
  /-- FA_BASE (R360). -/
  | faBase (p : Nat) (v : Word)
  /-- FA_LOG (R360). -/
  | faLog (p : Nat) (v : Word)
  /-- FAULT_RECORD_WRITE (R362). -/
  | faultRecordWrite (n : Nat)
  /-- SNAP_TRIG (R370). -/
  | snapTrig (v : Word)
  /-- SNAPSHOT_TRIGGER_ARRIVAL (R370). -/
  | snapshotTriggerArrival (trig : Nat) (block : SnapBlock)
  /-- SNAP_COMPLETE (R373). -/
  | snapComplete (trig : Nat)
  /-- MG_CMD_LOAD (R379). -/
  | mgCmdLoad
  /-- MG_CMD_ACTIVATE (R379). -/
  | mgCmdActivate
  /-- MG_CMD_FLOOR (R379). -/
  | mgCmdFloor
  /-- MG_CMD_QUOTE (R380). -/
  | mgCmdQuote
  /-- FREIT_COMMAND_DONE (R379). -/
  | freitCommandDone
  /-- PORT_ENTRY_WRITE (R354). -/
  | portEntryWrite (port word : Nat) (v : Word)
  /-- OPTICAL_LINK_STATE (R354): whether the link is trained, and whether the peer's entry is bound back. -/
  | opticalLinkState (port : Nat) (up : Bool × Bool)
  /-- PEER_REPLICA_WRITE (R355): the bytes, and the offsets of the poisoned words among them. -/
  | peerReplicaWrite (port addr : Nat) (bytes : List Byte × List Nat)
  /-- REPLICA_WRITE_APPLY (R312). -/
  | replicaWriteApply (pkt : Nat)
  /-- HOST_WRITE (R348). -/
  | hostWrite (bar off n : Nat) (v : Word)
  /-- HOST_READ (R348). -/
  | hostRead (bar off n : Nat)
  /-- CELL_GATE (R367). -/
  | cellGate (cell : Nat)
  /-- CELL_WAKE (R367). -/
  | cellWake (cell : Nat)
  /-- QUIESCENCE (R369). -/
  | quiescence (p : Nat)
  /-- THERMAL_TRIP (R345). -/
  | thermalTrip (die : Nat)
  /-- CORE_RESET (R368). -/
  | coreReset (cid : Nat)
  /-- PACKET_REFUSED (R368). -/
  | packetRefused (pkt : Nat)
  /-- UNCORRECTABLE_ERROR (R366). -/
  | uncorrectableError (cid f : Nat) (ownerRead : Bool)
  /-- ROUTER_HOP (R325). -/
  | routerHop (pkt : Nat)
  /-- LINK_FLIT_SEND (R327). -/
  | linkFlitSend (x y port : Nat)
  /-- CROSSBAR_GRANT (R331). -/
  | crossbarGrant (die out : Nat)
  /-- HBM_REQUEST_START (R344). -/
  | hbmRequestStart (die ch : Nat)
  /-- SPLICE_EGRESS_ENTER (R320). -/
  | spliceEgressEnter (pkt : Nat)
  /-- SPLICE_INGRESS_DELIVER (R320). -/
  | spliceIngressDeliver (p splice : Nat)
  /-- MERGED_ATOMIC_APPLY (R334). -/
  | mergedAtomicApply (pkt : Nat)
  /-- MERGED_REPLY_SPLIT (R334). -/
  | mergedReplySplit (pkt : Nat)
  /-- REGISTER_WRITE (R9). -/
  | registerWrite (off : Nat) (v : Word)
  /-- ADD_C (R93). -/
  | addC (f : CForm)
  /-- ADD (R93). -/
  | add (f : WForm)
  /-- SUB_C (R93). -/
  | subC (f : CForm)
  /-- SUB (R93). -/
  | sub (f : WForm)
  /-- MUL (R93). -/
  | mul (f : WForm)
  /-- MULH (R93). -/
  | mulh (f : WForm)
  /-- MULHU (R93). -/
  | mulhu (f : WForm)
  /-- DIV (R94). -/
  | div (f : WForm)
  /-- DIVU (R94). -/
  | divu (f : WForm)
  /-- REM (R94). -/
  | rem (f : WForm)
  /-- REMU (R94). -/
  | remu (f : WForm)
  /-- AND_C (R93). -/
  | andC (f : CForm)
  /-- AND (R93). -/
  | and (f : WForm)
  /-- OR_C (R93). -/
  | orC (f : CForm)
  /-- OR (R93). -/
  | or (f : WForm)
  /-- XOR_C (R93). -/
  | xorC (f : CForm)
  /-- XOR (R93). -/
  | xor (f : WForm)
  /-- ANDN (R93). -/
  | andn (f : WForm)
  /-- SHL_C (R93). -/
  | shlC (f : CForm)
  /-- SHL (R93). -/
  | shl (f : WForm)
  /-- SHR_C (R93). -/
  | shrC (f : CForm)
  /-- SHR (R93). -/
  | shr (f : WForm)
  /-- SAR_C (R93). -/
  | sarC (f : CForm)
  /-- SAR (R93). -/
  | sar (f : WForm)
  /-- ROL (R93). -/
  | rol (f : WForm)
  /-- MIN (R93). -/
  | min (f : WForm)
  /-- MAX (R93). -/
  | max (f : WForm)
  /-- MINU (R93). -/
  | minu (f : WForm)
  /-- MAXU (R93). -/
  | maxu (f : WForm)
  /-- ADDI (R96). -/
  | addi (f : WForm)
  /-- ADDI_X (R96). -/
  | addiX (f : XForm)
  /-- ANDI (R96). -/
  | andi (f : WForm)
  /-- ANDI_X (R96). -/
  | andiX (f : XForm)
  /-- ORI (R96). -/
  | ori (f : WForm)
  /-- ORI_X (R96). -/
  | oriX (f : XForm)
  /-- XORI (R96). -/
  | xori (f : WForm)
  /-- XORI_X (R96). -/
  | xoriX (f : XForm)
  /-- SHLI (R96). -/
  | shli (f : WForm)
  /-- SHLI_X (R96). -/
  | shliX (f : XForm)
  /-- SHRI (R96). -/
  | shri (f : WForm)
  /-- SHRI_X (R96). -/
  | shriX (f : XForm)
  /-- SARI (R96). -/
  | sari (f : WForm)
  /-- SARI_X (R96). -/
  | sariX (f : XForm)
  /-- MULI (R96). -/
  | muli (f : WForm)
  /-- MULI_X (R96). -/
  | muliX (f : XForm)
  /-- CLZ (R98). -/
  | clz (f : WForm)
  /-- CTZ (R98). -/
  | ctz (f : WForm)
  /-- POPC (R98). -/
  | popc (f : WForm)
  /-- BREV (R98). -/
  | brev (f : WForm)
  /-- BEXT (R98). -/
  | bext (f : WForm)
  /-- BINS (R99). -/
  | bins (f : WForm)
  /-- SEXT (R98). -/
  | sext (f : WForm)
  /-- ZEXT (R98). -/
  | zext (f : WForm)
  /-- CMP (R101). -/
  | cmp (f : WForm)
  /-- CMPI (R101). -/
  | cmpi (f : WForm)
  /-- CMPI_X (R101). -/
  | cmpiX (f : XForm)
  /-- PAND (R102). -/
  | pand (f : WForm)
  /-- POR (R102). -/
  | por (f : WForm)
  /-- PXOR (R102). -/
  | pxor (f : WForm)
  /-- PNOT (R102). -/
  | pnot (f : WForm)
  /-- PSET (R102). -/
  | pset (f : WForm)
  /-- PGET (R102). -/
  | pget (f : WForm)
  /-- SEL (R103). -/
  | sel (f : WForm)
  /-- LEA (R104). -/
  | lea (f : WForm)
  /-- LEA_X (R104). -/
  | leaX (f : XForm)
  /-- NOP_C (R105). -/
  | nopC (f : CForm)
  /-- NOP (R105). -/
  | nop (f : WForm)
  /-- HINT (R105). -/
  | hint (f : WForm)
  /-- HINT_X (R105). -/
  | hintX (f : XForm)
  /-- RDCYC (R106). -/
  | rdcyc (f : WForm)
  /-- RDCNT (R107). -/
  | rdcnt (f : WForm)
  /-- BR (R110). -/
  | br (f : WForm)
  /-- BR_X (R110). -/
  | brX (f : XForm)
  /-- BRX (R110). -/
  | brx (f : WForm)
  /-- CALL (R110). -/
  | call (f : WForm)
  /-- CALL_X (R110). -/
  | callX (f : XForm)
  /-- RET (R110). -/
  | ret (f : WForm)
  /-- END_C (R112). -/
  | endC (f : CForm)
  /-- END (R112). -/
  | endW (f : WForm)
  /-- FADD (R116). -/
  | fadd (f : WForm)
  /-- FSUB (R116). -/
  | fsub (f : WForm)
  /-- FMUL (R116). -/
  | fmul (f : WForm)
  /-- FFMA (R116). -/
  | ffma (f : WForm)
  /-- FDIV (R116). -/
  | fdiv (f : WForm)
  /-- FSQRT (R116). -/
  | fsqrt (f : WForm)
  /-- FMIN (R116). -/
  | fmin (f : WForm)
  /-- FMAX (R116). -/
  | fmax (f : WForm)
  /-- FABS (R116). -/
  | fabs (f : WForm)
  /-- FNEG (R116). -/
  | fneg (f : WForm)
  /-- FCMP (R118). -/
  | fcmp (f : WForm)
  /-- FCLASS (R117). -/
  | fclass (f : WForm)
  /-- TADD (R120). -/
  | tadd (f : WForm)
  /-- TSUB (R120). -/
  | tsub (f : WForm)
  /-- TMUL (R120). -/
  | tmul (f : WForm)
  /-- TFMA (R120). -/
  | tfma (f : WForm)
  /-- TDIV (R120). -/
  | tdiv (f : WForm)
  /-- TSQRT (R120). -/
  | tsqrt (f : WForm)
  /-- TMIN (R120). -/
  | tmin (f : WForm)
  /-- TMAX (R120). -/
  | tmax (f : WForm)
  /-- TABS (R120). -/
  | tabs (f : WForm)
  /-- TNEG (R120). -/
  | tneg (f : WForm)
  /-- TCMP (R120). -/
  | tcmp (f : WForm)
  /-- SPZ (R122). -/
  | spz (f : WForm)
  /-- SPFMA (R122). -/
  | spfma (f : WForm)
  /-- SPFMS (R122). -/
  | spfms (f : WForm)
  /-- SPADD (R122). -/
  | spadd (f : WForm)
  /-- SPSUB (R122). -/
  | spsub (f : WForm)
  /-- SPRND (R122). -/
  | sprnd (f : WForm)
  /-- SPLD (R123). -/
  | spld (f : WForm)
  /-- SPLD_X (R123). -/
  | spldX (f : XForm)
  /-- SPST (R123). -/
  | spst (f : WForm)
  /-- SPST_X (R123). -/
  | spstX (f : XForm)
  /-- CVT (R126). -/
  | cvt (f : WForm)
  /-- LCLAIM (R127). -/
  | lclaim (f : WForm)
  /-- LREL (R127). -/
  | lrel (f : WForm)
  /-- LCOUNT (R127). -/
  | lcount (f : WForm)
  /-- VADD (R132). -/
  | vadd (f : WForm)
  /-- VSUB (R132). -/
  | vsub (f : WForm)
  /-- VMUL (R132). -/
  | vmul (f : WForm)
  /-- VMULH (R132). -/
  | vmulh (f : WForm)
  /-- VMAD (R132). -/
  | vmad (f : WForm)
  /-- VMIN (R132). -/
  | vmin (f : WForm)
  /-- VMAX (R132). -/
  | vmax (f : WForm)
  /-- VABS (R132). -/
  | vabs (f : WForm)
  /-- VAND (R132). -/
  | vand (f : WForm)
  /-- VOR (R132). -/
  | vor (f : WForm)
  /-- VXOR (R132). -/
  | vxor (f : WForm)
  /-- VSHL (R132). -/
  | vshl (f : WForm)
  /-- VSHR (R132). -/
  | vshr (f : WForm)
  /-- VSAR (R132). -/
  | vsar (f : WForm)
  /-- VRSHR (R132). -/
  | vrshr (f : WForm)
  /-- VSAT (R132). -/
  | vsat (f : WForm)
  /-- VCLAMP (R132). -/
  | vclamp (f : WForm)
  /-- VDOT4 (R132). -/
  | vdot4 (f : WForm)
  /-- VDOT2 (R132). -/
  | vdot2 (f : WForm)
  /-- VFADD (R133). -/
  | vfadd (f : WForm)
  /-- VFSUB (R133). -/
  | vfsub (f : WForm)
  /-- VFMUL (R133). -/
  | vfmul (f : WForm)
  /-- VFFMA (R133). -/
  | vffma (f : WForm)
  /-- VFMIN (R133). -/
  | vfmin (f : WForm)
  /-- VFMAX (R133). -/
  | vfmax (f : WForm)
  /-- VFABS (R133). -/
  | vfabs (f : WForm)
  /-- VFNEG (R133). -/
  | vfneg (f : WForm)
  /-- VEXP2 (R134). -/
  | vexp2 (f : WForm)
  /-- VLOG2 (R134). -/
  | vlog2 (f : WForm)
  /-- VRCP (R134). -/
  | vrcp (f : WForm)
  /-- VRSQRT (R134). -/
  | vrsqrt (f : WForm)
  /-- VSQRT (R133). -/
  | vsqrt (f : WForm)
  /-- VDIV (R133). -/
  | vdiv (f : WForm)
  /-- VTADD (R135). -/
  | vtadd (f : WForm)
  /-- VTSUB (R135). -/
  | vtsub (f : WForm)
  /-- VTMUL (R135). -/
  | vtmul (f : WForm)
  /-- VTFMA (R135). -/
  | vtfma (f : WForm)
  /-- VTMIN (R135). -/
  | vtmin (f : WForm)
  /-- VTMAX (R135). -/
  | vtmax (f : WForm)
  /-- VSPZ (R135). -/
  | vspz (f : WForm)
  /-- VSPFMA (R135). -/
  | vspfma (f : WForm)
  /-- VSPRND (R135). -/
  | vsprnd (f : WForm)
  /-- VCMP (R136). -/
  | vcmp (f : WForm)
  /-- VFCMP (R136). -/
  | vfcmp (f : WForm)
  /-- VTCMP (R136). -/
  | vtcmp (f : WForm)
  /-- VSEL (R137). -/
  | vsel (f : WForm)
  /-- KAND (R138). -/
  | kand (f : WForm)
  /-- KOR (R138). -/
  | kor (f : WForm)
  /-- KXOR (R138). -/
  | kxor (f : WForm)
  /-- KNOT (R138). -/
  | knot (f : WForm)
  /-- KSET (R138). -/
  | kset (f : WForm)
  /-- KGET (R138). -/
  | kget (f : WForm)
  /-- VCVT (R139). -/
  | vcvt (f : WForm)
  /-- VPACK (R140). -/
  | vpack (f : WForm)
  /-- VUNPACK (R140). -/
  | vunpack (f : WForm)
  /-- VBCAST (R141). -/
  | vbcast (f : WForm)
  /-- VEXT (R141). -/
  | vext (f : WForm)
  /-- VPERM (R141). -/
  | vperm (f : WForm)
  /-- VSLIDE (R141). -/
  | vslide (f : WForm)
  /-- VRED (R142). -/
  | vred (f : WForm)
  /-- VSCAN (R143). -/
  | vscan (f : WForm)
  /-- VLD (R145). -/
  | vld (f : WForm)
  /-- VLD_X (R145). -/
  | vldX (f : XForm)
  /-- VST (R145). -/
  | vst (f : WForm)
  /-- VST_X (R145). -/
  | vstX (f : XForm)
  /-- VLDS (R145). -/
  | vlds (f : WForm)
  /-- VLDS_X (R145). -/
  | vldsX (f : XForm)
  /-- VSTS (R145). -/
  | vsts (f : WForm)
  /-- VSTS_X (R145). -/
  | vstsX (f : XForm)
  /-- VLDX (R145). -/
  | vldx (f : WForm)
  /-- VLDX_X (R145). -/
  | vldxX (f : XForm)
  /-- VSTX (R145). -/
  | vstx (f : WForm)
  /-- VSTX_X (R145). -/
  | vstxX (f : XForm)
  /-- MFMT (R158). -/
  | mfmt (f : WForm)
  /-- MSCL (R159). -/
  | mscl (f : WForm)
  /-- MSCL_X (R159). -/
  | msclX (f : XForm)
  /-- MLB (R160). -/
  | mlb (f : WForm)
  /-- MLB_X (R160). -/
  | mlbX (f : XForm)
  /-- MMA (R161). -/
  | mma (f : WForm)
  /-- MMA_X (R161). -/
  | mmaX (f : XForm)
  /-- MROT (R162). -/
  | mrot (f : WForm)
  /-- MZERO (R163). -/
  | mzero (f : WForm)
  /-- MDRAIN (R164). -/
  | mdrain (f : WForm)
  /-- MROW (R166). -/
  | mrow (f : WForm)
  /-- FALLOC (R193). -/
  | falloc (f : WForm)
  /-- FFREE (R194). -/
  | ffree (f : WForm)
  /-- SARM (R195). -/
  | sarm (f : WForm)
  /-- SIG (R196). -/
  | sig (f : WForm)
  /-- SIG_X (R196). -/
  | sigX (f : XForm)
  /-- SIGV (R196). -/
  | sigv (f : WForm)
  /-- SIGB (R196). -/
  | sigb (f : WForm)
  /-- FIRE (R197). -/
  | fire (f : WForm)
  /-- SGET (R198). -/
  | sget (f : WForm)
  /-- LDF (R199). -/
  | ldf (f : WForm)
  /-- STF (R199). -/
  | stf (f : WForm)
  /-- RINIT (R202). -/
  | rinit (f : WForm)
  /-- RACQ (R202). -/
  | racq (f : WForm)
  /-- RCOM (R202). -/
  | rcom (f : WForm)
  /-- RPEEK (R202). -/
  | rpeek (f : WForm)
  /-- RREL (R202). -/
  | rrel (f : WForm)
  /-- LD_C (R222). -/
  | ldC (f : CForm)
  /-- LD (R222). -/
  | ld (f : WForm)
  /-- LD_X (R222). -/
  | ldX (f : XForm)
  /-- ST_C (R222). -/
  | stC (f : CForm)
  /-- ST (R222). -/
  | st (f : WForm)
  /-- ST_X (R222). -/
  | stX (f : XForm)
  /-- LDRM (R224). -/
  | ldrm (f : WForm)
  /-- STRM (R224). -/
  | strm (f : WForm)
  /-- AADD (R226). -/
  | aadd (f : WForm)
  /-- AMIN (R226). -/
  | amin (f : WForm)
  /-- AMAX (R226). -/
  | amax (f : WForm)
  /-- AMINU (R226). -/
  | aminu (f : WForm)
  /-- AMAXU (R226). -/
  | amaxu (f : WForm)
  /-- AAND (R226). -/
  | aand (f : WForm)
  /-- AOR (R226). -/
  | aor (f : WForm)
  /-- AXOR (R226). -/
  | axor (f : WForm)
  /-- ASWP (R226). -/
  | aswp (f : WForm)
  /-- ACAS (R226). -/
  | acas (f : WForm)
  /-- AFADD (R226). -/
  | afadd (f : WForm)
  /-- ASPADD (R226). -/
  | aspadd (f : WForm)
  /-- FENCE (R229). -/
  | fence (f : WForm)
  /-- TWLD (R234). -/
  | twld (f : WForm)
  /-- TWST (R234). -/
  | twst (f : WForm)
  /-- TWMC (R234). -/
  | twmc (f : WForm)
  /-- TWG (R234). -/
  | twg (f : WForm)
  /-- TWS (R234). -/
  | tws (f : WForm)
  /-- TWQ (R237). -/
  | twq (f : WForm)
  /-- TWCAN (R239). -/
  | twcan (f : WForm)
  /-- STEPD (R263). -/
  | stepd (f : WForm)
  /-- LDST (R264). -/
  | ldst (f : WForm)
  /-- STEPQ (R265). -/
  | stepq (f : WForm)
  /-- SQTAB (R277). -/
  | sqtab (f : WForm)
  /-- SQINIT (R277). -/
  | sqinit (f : WForm)
  /-- SQSTAGE (R277). -/
  | sqstage (f : WForm)
  /-- SQSTEP (R277). -/
  | sqstep (f : WForm)
  /-- SQRD (R277). -/
  | sqrd (f : WForm)
  /-- GLAUNCH (R297). -/
  | glaunch (f : WForm)
  /-- GQUERY (R298). -/
  | gquery (f : WForm)
  /-- GCAN (R299). -/
  | gcan (f : WForm)
  /-- SYSR (R372). -/
  | sysr (f : WForm)
  /-- SYSW (R372). -/
  | sysw (f : WForm)
  /-- TRAP (R373). -/
  | trap (f : WForm)
  /-- TRAP_X (R373). -/
  | trapX (f : XForm)
  /-- BRK (R374). -/
  | brk (f : WForm)
  /-- SNAP (R373). -/
  | snap (f : WForm)
  /-- CLOCK_PINNED (R345). -/
  | clockPinned (die : Nat)
  /-- SOFT_ERROR (R365). -/
  | softError (key : Nat) (bits : Nat)
  /-- FILL_COMPLETE (R185). -/
  | fillComplete (cid : Nat)
deriving DecidableEq, Repr, Inhabited

end Sys2Proof
end

