-- ==== Sys2Proof/Config.lean ====
section
/-! DEFINITION. The counts of the module (R1) and the free values: what the manual leaves open is a constant without a body, so
that nothing can be proved of the value it takes. -/

namespace Sys2Proof

/-- What acts next: a context issues one instruction, or an agent, the fabric or the host performs one event. -/
inductive Sel where
  | issue (cid ctx : Nat)
  | event (e : Instr)
deriving DecidableEq, Repr, Inhabited

namespace Config

/-- Dies of the module (R1). -/
abbrev dies : Nat := 16
/-- Active cores of a die (R1). -/
abbrev coresPerDie : Nat := 25600
/-- Clusters of a die (R1). -/
abbrev clustersPerDie : Nat := 100
/-- Active cores of the module (R1). -/
abbrev cores : Nat := 409600
/-- Clusters of the module (R1). -/
abbrev clusters : Nat := 1600

/-- DESIGN CHOICE (log entry 5): which agent moves next is left open; free choice number n. -/
opaque freeChoice : Nat → Sel
/-- DESIGN CHOICE (log entry 9): the cycles that pass beside the one in which an instruction issues, a flit is sent, an output
grants or a channel starts; free amount number n. -/
opaque freeWait : Nat → Nat
/-- DESIGN CHOICE (log entry 9): whether the other context of a core is held by an interlock or a taken-branch refill, or waits at a
port, in the cycle of an issue, so that it has no instruction ready (R38); free answer number n. -/
opaque otherHeld : Nat → Bool
/-- DESIGN CHOICE (log entry 13): whether context k mod 2 of the core with index k / 2 of a cell issues its lclaim in the cycle in which
another core of the cell issues one (R128); free answer number n. -/
opaque alsoClaims : Nat → Nat → Bool
/-- DESIGN CHOICE (log entry 9): whether the copy of a migration aborts (R314); free answer number n. -/
opaque copyAborts : Nat → Bool
/-- DESIGN CHOICE (log entry 8): the packets that the input buffer of a virtual channel holds (R325), less one. -/
opaque freeSlots : Nat → Nat
/-- DESIGN CHOICE (log entry 8): whether a merge buffer combines the alike requests that wait for a splice now (R333). -/
opaque mergeNow : Nat → Bool
/-- DESIGN CHOICE (log entry 8): the cycles of data beats of an HBM4 request (R344). -/
opaque freeBeats : Nat → Nat
/-- DESIGN CHOICE (log entry 8): whether a matrix command reads a source word that changes while it runs as it stood at the start
(R156, R167). -/
opaque readOld : Nat → Bool
/-- DESIGN CHOICE (log entry 7): which of the values that R246 permits a read of the aligned word at a key returns: 0 for the newest, n for
the one that stood n writes before it; free answer of a number and a key. -/
opaque oldPick : Nat → Nat → Nat
/-- DESIGN CHOICE (log entry 8): the modulus of the vendor root key, which Freit holds (R375). -/
opaque vendorModulus : Nat
/-- DESIGN CHOICE (log entry 8): the public exponent of the vendor root key (R375). -/
opaque vendorExponent : Nat
/-- DESIGN CHOICE (log entry 8): the modulus of the identity key, which never leaves Freit (R380). -/
opaque identityModulus : Nat
/-- DESIGN CHOICE (log entry 8): the private exponent of the identity key (R380). -/
opaque identityExponent : Nat
/-- DESIGN CHOICE (log entry 8): the module's serial number (R380). -/
opaque serial : Nat → BitVec 64
/-- DESIGN CHOICE (log entry 8): the certificate chain of the identity key (R380). -/
opaque certificate : Nat → List Byte
/-- DESIGN CHOICE (log entry 8): a telemetry reading of power, supply, clock and temperature (R382); reading number n. -/
opaque telemetry : Nat → BitVec 48
/-- DESIGN CHOICE (log entry 60): where in its device memory a partition's array of tensor descriptors stands (R305); free answer
number n. -/
opaque descBase : Nat → Nat
/-- DESIGN CHOICE (log entry 40): a byte that a save leaves in a save area, whose layout belongs to the die agents (R349, R351). -/
opaque saveByte : Nat → Byte

end Config

end Sys2Proof
end

