-- ==== Sys2Proof/Machine/State.lean ====
section
/-! DEFINITION. The state of the module as plain data: everything that the manual gives a core, a cell, a cluster, a die, a
partition and the module, the packets and commands in flight, and the one byte list of memory. -/

namespace Sys2Proof

/-- A spool: a 160-bit two's-complement integer and a sticky NaR flag (R30). -/
structure Spool where
  s : BitVec 160
  nar : Bool
deriving DecidableEq, Repr, Inhabited

/-- S = 0 with the flag clear (R41). -/
def Spool.zero : Spool := { s := 0, nar := false }

/-- One lane of a vector register: 32 bits and the empty tag (R41). -/
structure Lane where
  val : BitVec 32
  tag : Bool
deriving DecidableEq, Repr, Inhabited

/-- A lane at dispatch (R41). -/
def Lane.zero : Lane := { val := 0, tag := false }

/-- A firing context of a core (R37, R41). -/
structure Ctx where
  busy : Bool
  /-- code address of the next instruction -/
  pc : Word
  /-- code address of the instruction that issues (the model's own: the address of parcel 0, R361) -/
  ipc : Word
  /-- number of the firing (the model's own: it tells the accesses of one firing apart, R241) -/
  fid : Nat
  /-- FREF of the frame that fired; a spilled FREF where a resident copy fired (R186) -/
  fref : Nat
  /-- local frame index at fb (R44) -/
  frame : Nat
  /-- slot that fired (R44) -/
  slot : Nat
  /-- instructions issued (R39) -/
  issued : Nat
  s : Tbl Word
  p : BitVec 8
  /-- lane i of vN at key 32 N + i -/
  v : Tbl Lane
  k : Tbl (BitVec 32)
  y : Tbl Spool
  /-- lane i of wN at key 32 N + i -/
  w : Tbl Spool
  /-- lane grant g (R48) -/
  grant : Nat
  /-- fences issued: sequence number and scope (R229) -/
  fences : List (Nat × Nat)
  /-- instance of the frame (key), its depth and limit (R293, R372) -/
  inst : Nat
  depth : Nat
  limit : Nat
deriving DecidableEq, Repr, Inhabited

/-- A free context with the values of R41. -/
def Ctx.init : Ctx :=
  { busy := false, pc := 0, ipc := 0, fid := 0, fref := 0, frame := 0, slot := 0, issued := 0, s := [], p := 0, v := [], k := []
    y := [], w := [], grant := 0, fences := [], inst := 0, depth := 0, limit := 0 }

/-- An entry of a ready queue or a fill list: level, frame name FREF[12:0] and slot (R179, R185). -/
structure Ready where
  level : Nat
  f : Nat
  slot : Nat
deriving DecidableEq, Repr, Inhabited

/-- The instance that owns an allocated frame, with its depth and limit (R293). -/
structure Own where
  inst : Nat
  depth : Nat
  limit : Nat
deriving DecidableEq, Repr, Inhabited

/-- A command of the matrix node (R154). Modes: 0 INT, 1 SPOOL, 2 FP32 (R150). -/
inductive MOp where
  | mma (tile addr latch fa fb : Nat)
  | mlb (latch addr : Nat)
  | mrot (latch : Nat)
  | mdrain (tile addr fmt rm row0 n : Nat) (row clr : Bool) (mode : Nat)
  | mscl (target addr : Nat)
  | mzero (tile mode : Nat)
  | mclear (tile mode : Nat)
deriving DecidableEq, Repr, Inhabited

/-- Where a command or a request came from: issuing frame, core, firing, code address, instance and partition. -/
structure Issuer where
  fref : Nat
  cid : Nat
  fid : Nat
  pc : Nat
  inst : Nat
  part : Nat
  /-- context that issued (R202) -/
  ctx : Nat := 0
deriving DecidableEq, Repr, Inhabited

/-- What a command does when its work is done: the operand word of the issuing frame that receives its result (0 for none),
the slot it signals (none for s0, R389) and the count of that signal in a byte-mode slot (R219). -/
structure Ret where
  ow : Nat
  slot : Option Nat
  bytes : Nat
deriving DecidableEq, Repr, Inhabited

/-- A matrix command in the queue (R154, R155). -/
structure MCmd where
  op : MOp
  /-- sequence number (issue order) -/
  seq : Nat
  /-- asynchronous command number, 0 for none -/
  cmd : Nat
  from_ : Issuer
  ret : Ret
  fences : List (Nat × Nat)
  started : Bool
  /-- rows drained -/
  rows : Nat
  /-- mrot: the tile is in the receiving landing buffer (R162) -/
  landed : Bool
  /-- the source bytes at the start, and the poisoned words among them by index (R167) -/
  src : List Byte
  pois : List Nat
deriving DecidableEq, Repr, Inhabited

/-- A tile in a landing buffer, with the signal its mrot asks for (R162). -/
structure Landing where
  bytes : List Byte
  scales : List Byte
  cmd : Nat
  from_ : Issuer
  ret : Ret
deriving DecidableEq, Repr, Inhabited

/-- A latched snapshot (R370, R372, R383). -/
structure Snap where
  seq : BitVec 16
  valid : Bool
  cyc : Nat
  occ : Nat
  ctxs : Nat
  mq : Nat
  stp : BitVec 32
deriving DecidableEq, Repr, Inhabited

/-- A snapshot before any trigger (R372). -/
def Snap.init : Snap := { seq := 0, valid := false, cyc := 0, occ := 0, ctxs := 0, mq := 0, stp := 0 }

/-- A core (R1, R4). -/
structure Core where
  ctx0 : Ctx
  ctx1 : Ctx
  /-- the context that issued most recently (R38) -/
  last : Nat
  /-- cycle counter (R106) -/
  cyc : Nat
  /-- bank-conflict counter (R107, R207) -/
  conflicts : Nat
  /-- neighbour ports by direction: 0 N, 1 E, 2 S, 3 W (R46) -/
  inq : Tbl (List Word)
  outq : Tbl (List Word)
  ready : List Ready
  starve : Nat
  /-- queued marks: 8 f + slot (R180) -/
  marks : List Nat
  /-- owners of frames by name f (R293) -/
  owners : Tbl Own
  fill : List Ready
  /-- a fill in progress: local frame and entry (R185) -/
  filling : Option (Nat × Ready)
  /-- local frames whose write-back is in progress (R186) -/
  wback : List Nat
  /-- local frames of freed copies that entries of the copied frame still hold: local frame and spilled name (R194) -/
  late : List (Nat × Nat)
  stp : Word
  done : Bool
  /-- known (stp, done) of other cores by cid (R256) -/
  known : Tbl (Word × Bool)
  /-- held ldst and stepq requests: sequence numbers of packets (R266) -/
  heldq : List Nat
  /-- stepd instructions that wait for what their firing issued before them: firing and sequence number (R263) -/
  stepds : List (Nat × Nat)
  pace : Option Pace
  /-- a paced instance has started while a firing ran: its pacing record, or none where it has ended since, takes effect with the step state
  of R254 once both contexts are free (R45, log entry 74) -/
  nextPace : Option (Option Pace)
  /-- accumulator tiles: entry (i, j) of tile t at 256 t + 16 i + j (R148) -/
  tiles : Tbl Spool
  /-- tile descriptors: A format + 16 B format (R148) -/
  desc : Tbl Nat
  /-- B latches 0 and 1 and their scale buffers; a byte beyond a list is 0, a scale code beyond a list 0x7F (R148) -/
  latch : Tbl (List Byte)
  bscale : Tbl (List Byte)
  ascale : List Byte
  landing : Tbl (Option Landing)
  mq : List MCmd
  eccCe : BitVec 32
  eccUe : BitVec 32
  snap : Snap
  /-- reset or mapped out (R368, R378) -/
  dead : Bool
  /-- the hardware at this position, the core itself or a spare, has failed (R378) -/
  bad : Bool
  /-- saved (R350, R351) -/
  saved : Bool
deriving DecidableEq, Repr, Inhabited

/-- A core after reset and after the clearing of R6. -/
def Core.init : Core :=
  { ctx0 := Ctx.init, ctx1 := Ctx.init, last := 1, cyc := 0, conflicts := 0, inq := [], outq := [], ready := [], starve := 0
    marks := [], owners := [], fill := [], filling := none, wback := [], late := [], stp := 0, done := false, known := [], heldq := [], stepds := []
    pace := none, nextPace := none, tiles := [], desc := [], latch := [], bscale := [], ascale := [], landing := [], mq := [], eccCe := 0, eccUe := 0
    snap := Snap.init, dead := false, bad := false, saved := false }

/-- A cell: the rotation pointer of its lane pool (R128) and power gating (R367). -/
structure Cell where
  ptr : Nat
  gated : Bool
  /-- claims served in a cycle whose lclaim has yet to issue (R128; the model's own): core index times 2 plus context, number of the
  firing, lanes granted -/
  claims : List (Nat × Nat × Nat)
deriving DecidableEq, Repr, Inhabited

/-- A cell after reset. -/
def Cell.init : Cell := { ptr := 0, gated := false, claims := [] }

/-- A solver tableau (R268). -/
structure Tableau where
  s : Nat
  q : Nat
  safety : BitVec 32
  fmin : BitVec 32
  fmax : BitVec 32
  c : List (BitVec 32)
  b : List (BitVec 32)
  bh : List (BitVec 32)
  a : List (BitVec 32)
deriving DecidableEq, Repr, Inhabited

/-- A sample record (R269, R270). State: 0 idle, 1 held, 2 stage, 3 judging, 4 done, 5 failed (R277). -/
structure Sample where
  st : Nat
  stage : Nat
  /-- the stage is still to be formed (R271) -/
  forming : Bool
  t : BitVec 32
  tend : BitVec 32
  h : BitVec 32
  atol : BitVec 32
  rtol : BitVec 32
  n : Nat
  nh : Nat
  hold : Bool
  ya : Nat
  wa : Nat
  za : Nat
  ka : List Nat
  hist : List Nat
  srefs : List Nat
  last : Bool
  err : BitVec 32
  nacc : Nat
  nrej : Nat
  ts : BitVec 32
  /-- who issued the sqstep or sqstage that began the work (R275) -/
  from_ : Issuer
deriving DecidableEq, Repr, Inhabited

/-- A record after the clearing of R6 (R267). -/
def Sample.init : Sample :=
  { st := 0, stage := 0, forming := false, t := 0, tend := 0, h := 0, atol := 0, rtol := 0, n := 0, nh := 0, hold := false, ya := 0
    wa := 0, za := 0, ka := [], hist := [], srefs := [], last := false, err := 0, nacc := 0, nrej := 0, ts := 0
    from_ := { fref := 0, cid := 0, fid := 0, pc := 0, inst := 0, part := 0 } }

/-- A cluster (R1). -/
structure Cluster where
  /-- launch credits (R292) and whether it is in need -/
  credit : Nat
  need : Bool
  /-- next launch sequence number (R286) -/
  seqno : BitVec 32
  tab : Option Tableau
  recs : Tbl Sample
  /-- the cluster queue of tile walks: sequence numbers in order (R233) -/
  walkq : List Nat
  /-- snapshots of the four engines and of the sequencer, at 4 (R383) -/
  snaps : Tbl Snap
  /-- spare cores of the cluster that have failed (R378) -/
  bad : List Nat
deriving DecidableEq, Repr, Inhabited

/-- A cluster after reset. -/
def Cluster.init : Cluster :=
  { credit := 0, need := true, seqno := 0, tab := none, recs := [], walkq := [], snaps := [], bad := [] }

/-- An entry of an ordered-reduction unit (R335, R336): got lists the collected requests. -/
structure Ord where
  addr : Word
  n : Nat
  armed : Bool
  got : List Nat
deriving DecidableEq, Repr, Inhabited

/-- An entry after reset. -/
def Ord.init : Ord := { addr := 0, n := 0, armed := false, got := [] }

/-- A request of a walk to an HBM4 channel (R309, R344). -/
structure HbmReq where
  ch : Nat
  quarter : Nat
  walk : Nat
  tile : Nat
deriving DecidableEq, Repr, Inhabited

/-- A splice in a partition's splice table (R319): held counts the entries now held, order lists the packets between egress and
ingress in the order they entered (R320). -/
structure SpliceSt where
  src : Nat
  dst : Nat
  depth : Nat
  held : Nat
  order : List Nat
deriving DecidableEq, Repr, Inhabited

/-- A page entry in a walker's cache: the tile of a tensor that it translates, its device-memory address and the word read (R309). -/
structure Cached where
  part : Nat
  tid : Nat
  tile : Nat
  addr : Nat
  word : Word
deriving DecidableEq, Repr, Inhabited

/-- A die's shared units (R1). -/
structure Die where
  ord : Tbl Ord
  /-- least-recently-granted order of each crossbar output; an output not listed has the ascending order (R331) -/
  xbar : Tbl (List Nat)
  xcyc : Tbl Nat
  hbmq : List HbmReq
  hcyc : Tbl Nat
  pinned : Bool
  trip : Bool
  tele : BitVec 50
  forecast : Nat
  /-- errors of the die's storage corrected and not corrected (R365) -/
  eccCe : BitVec 32
  eccUe : BitVec 32
  /-- drain message sent for the retiring generation (R339) -/
  drained : Bool
  /-- snapshots: die agent 0, launch agent 1, power controller 2, link controller i at 8 + i (R383) -/
  snaps : Tbl Snap
  /-- page entries cached by the walkers, latest first: a pinned entry may stand in it in more than one version (R309, R310) -/
  cache : List Cached
deriving DecidableEq, Repr, Inhabited

/-- A die after reset. -/
def Die.init : Die :=
  { ord := [], xbar := [], xcyc := [], hbmq := [], hcyc := [], pinned := false, trip := false, tele := 0, forecast := 0
    eccCe := 0, eccUe := 0, drained := false, snaps := [], cache := [] }

/-- A migration (R313, R314). -/
structure Mig where
  tid : Nat
  tile : Nat
  dst : Nat
  page : Nat
  state : Nat
  cause : Nat
  npois : Nat
  /-- the running migration (R314): its tile, the device-memory addresses of its page entry, of the source page and of the destination
  page, and mig, which holds writes to the source page -/
  run : Nat
  entry : Nat
  src : Nat
  dest : Nat
  held : Bool
deriving DecidableEq, Repr, Inhabited

/-- A migration unit after reset. -/
def Mig.init : Mig := { tid := 0, tile := 0, dst := 0, page := 0, state := 0, cause := 0, npois := 0, run := 0, entry := 0, src := 0, dest := 0, held := false }

/-- A partition: its registers, its graph image and what the device keeps for it (R4). -/
structure Part where
  /-- PSTAT.state (R349) -/
  state : Nat
  refused : Bool
  cint : Bool
  subBase : Word
  subLog : Nat
  subTail : BitVec 32
  subHead : BitVec 32
  overflow : Bool
  badpk : Bool
  cfgerr : Bool
  faBase : Word
  faLog : Nat
  faBaseOk : Bool
  faLogOk : Bool
  faHead : BitVec 32
  faTail : BitVec 32
  faLost : BitVec 32
  trace : Bool
  gate : Bool
  spill : Nat
  spillErr : Bool
  /-- SPILL_BASE of each die, listed once accepted (R184) -/
  spillBase : Tbl Word
  saveBase : Tbl Word
  /-- the dies and the quarter it held when it was saved (R349) -/
  savedAs : List (Nat × Nat)
  /-- the region at creation of the part that is still being cleared (R6): cores, as die and quarter -/
  clearing : List (Nat × Nat)
  mig : Mig
  image : Option Image
  /-- placement entries: words 0 and 1 by codeblock (R289) -/
  place : Tbl (Word × Word)
  descs : Tbl (List Word)
  /-- device-memory address of the array of its tensor descriptors, which stand in descs (R305, R318) -/
  descBase : Option Nat
  /-- earlier words of pinned root and page entries that software has written over, by address (R310) -/
  olds : List (Nat × Word)
  splices : Tbl SpliceSt
  /-- next host launch sequence number (R286) -/
  hostSeq : BitVec 32
  quiesced : Bool
deriving DecidableEq, Repr, Inhabited

/-- A partition that does not exist, and the reset values of a created one. -/
def Part.init : Part :=
  { state := 0, refused := false, cint := false, subBase := 0, subLog := 0, subTail := 0, subHead := 0, overflow := false
    badpk := false, cfgerr := false, faBase := 0, faLog := 0, faBaseOk := false, faLogOk := false, faHead := 0, faTail := 0
    faLost := 0, trace := false, gate := true, spill := 0, spillErr := false, spillBase := [], saveBase := [], savedAs := []
    clearing := [], mig := Mig.init, image := none, place := [], descs := [], descBase := none, olds := [], splices := [], hostSeq := 0, quiesced := false }

/-- A launch and its instance (R285 to R288, R292 to R294). -/
structure Inst where
  part : Nat
  handle : Word
  graph : Nat
  key : Word
  args : List Word
  depth : Nat
  limit : Nat
  /-- completion slot reference, or none -/
  comp : Option Nat
  /-- 0 pending, 1 running, 2 ended (R298) -/
  state : Nat
  /-- 0 completed, 1 stopped, 2 cancelled (R298) -/
  reason : Nat
  /-- the request has reached the launch agent, and the agents the multicast has reached (R291, R292) -/
  arrived : Bool
  cast : List Nat
  /-- a cluster's credit was taken (R356) -/
  credit : Bool
  /-- die of the pool that holds it, and its quarter on a split die, 4 for none (R292) -/
  die : Nat
  quarter : Nat
  /-- being ended by a policy (1) or by gcan (2); 0 for not -/
  stopping : Nat
  /-- gcan requests that wait for its end: sequence numbers of packets (R299) -/
  waiters : List Nat
  /-- host launch: completion record address and tag (R302) -/
  record : Nat
  tag : Word
  host : Bool
  /-- when it ended (R294) -/
  ended : Nat
  /-- step number of its start; a running instance has taken a frame -/
  started : Bool
  /-- the writes of at most 8 bytes that its sections' copy still owes, by key (R72) -/
  copy : List (Nat × List Byte)
  /-- table entries of other dies that its launch agent has received, by device-memory address (R318) -/
  tabs : Tbl Word := []
deriving DecidableEq, Repr, Inhabited

/-- An asynchronous command that a frame has outstanding (R171, R191, R362). -/
structure Cmd where
  from_ : Issuer
  major : Nat
  minor : Nat
  /-- it has faulted, with this progress and these prefixes of a twmc, and its own record waits to be written (R362) -/
  failed : Option (Nat × List Nat)
deriving DecidableEq, Repr, Inhabited

/-- A fault whose record is not yet written (R361, R362). cmds lists the commands outstanding at the fault, each with its entry
once it is final; ext holds the prefixes of a twmc by its command. -/
structure FaultRec where
  kind : Nat
  code : BitVec 8
  part : Nat
  inst : Nat
  handle : Word
  /-- core and name of the faulting frame (R363); name 8192 for none -/
  cid : Nat
  f : Nat
  w2 : Word
  w3 : Word
  /-- words 4 to 7 of a kind without command entries -/
  rest : List Word
  cmds : List (Nat × Option Word)
  ext : List (Nat × List Nat)
  /-- codeblock that was running, for R363's test; none where no firing faulted -/
  cb : Option Nat
  /-- the command whose count falls when the record is written, 0 for none (R362) -/
  own : Nat
  /-- the policy applies (R363) -/
  acts : Bool
deriving DecidableEq, Repr, Inhabited

/-- A place that sends or receives packets. -/
inductive Loc where
  | core (cid : Nat)
  | cluster (clid : Nat)
  | dieSpad (die slice : Nat)
  | hbm (die ch : Nat)
  | agent (die : Nat)
  | launch (die : Nat)
  | hostPath (die : Nat)
  | seqr (clid : Nat)
  | ordUnit (die : Nat)
  | port (i : Nat)
deriving DecidableEq, Repr, Inhabited

/-- Where a packet is. -/
inductive Pos where
  /-- with its sender -/
  | sender
  /-- in an input buffer of the router at module coordinates (x, y): the side it came by (4: from the core) and its VC (R325) -/
  | router (x y inp vc : Nat)
  /-- assigned to an output port and VC; flits already sent (R327) -/
  | link (x y inp vc port ovc sent : Nat)
  /-- in a link controller of its die, before its splice (R190, R330) -/
  | egress
  /-- between the dies without a place in the torus (R328) -/
  | crossing
  /-- in the ingress buffer of its splice (R320) -/
  | ingress
  /-- at a crossbar input of the target's die (R330) -/
  | inbound
  /-- combined into the request with this number (R333) -/
  | merged (into : Nat)
  /-- collected by an ordered-reduction unit or held at a step unit -/
  | kept
  /-- returned to its sender's core by a full step unit (R266) -/
  | returned
  /-- at its target -/
  | ready
deriving DecidableEq, Repr, Inhabited

/-- One element of a walk on its way (R234): the number of its move, its value, and which of the aligned words that it was read from
are poisoned. -/
structure Elem where
  move : Nat
  val : Nat
  pois : List Bool
deriving DecidableEq, Repr, Inhabited

/-- What a packet asks for or brings. -/
inductive Body where
  /-- a signal: slot reference, value in count mode, value in byte mode, fire, source of R361 -/
  | signal (slot val bytes : Nat) (fire : Bool) (source : Nat)
  | alloc (cb parent : Nat)
  | arm (slot : Nat) (word : Word)
  | free
  | stf (u : Nat) (v : Word)
  | ldf (u : Nat)
  /-- the word for the issuing frame and its poison -/
  | reply (v : Word) (poison : Bool)
  | ldrm (z : Nat) (unsigned : Bool)
  | strm (z : Nat) (v : Word)
  /-- an atomic: minor, size, operand, comparand, the requests merged into it (R333) -/
  | atomic (op z : Nat) (b : BitVec 256) (d : Word) (parts : List Nat)
  /-- the old values for the parts of a merged atomic (R334) -/
  | oldValues (vs : List (Nat × Word))
  /-- a ring instruction: minor, n, sz, base (R202) -/
  | ring (op n sz : Nat) (base : Word)
  | ldst (z : Nat) (unsigned : Bool) (q : Nat) (es off : Nat)
  | stepq (q : Nat)
  | notice (src : Nat) (stp : Word) (done : Bool)
  | sqtab (addr : Nat)
  | sqinit (addr sample : Nat)
  | sqstage (sample i : Nat)
  | sqstep (sample : Nat)
  | sqrd (sample sel : Nat)
  | launch (key : Nat)
  | gquery (h : Word)
  | gcan (h : Word)
  | twcan (slot : Nat)
  /-- bytes of a walk write to a replicated page, at a device-memory address (R312); the walk that waits for it -/
  | replica (addr : Nat) (bytes : List Byte) (poison : Bool) (walk : Nat)
  /-- a group of a walk's moves between one tile and one scratchpad unit (R234, R320): stage 0 asks the source, 1 brings the elements to
  the engine, 2 writes them at the destination -/
  | moves (walk stage tile : Nat) (elems : List Elem)
  /-- a walker's read of a table entry that another die holds, and the entry (R308, R318) -/
  | tableRead (walk addr : Nat)
  | tableWord (walk addr : Nat) (v : Word)
  /-- a walk's request for a translated page on another die, for the queue of the page's channel (R318, R344) -/
  | pageAsk (walk tile : Nat)
  /-- the work of a migration on its way between die agents (R314, R318): its stage, the offset in the page, and up to 256 bytes with the
  offsets of the poisoned words among them -/
  | migrate (stage off : Nat) (bytes : List Byte) (poison : List Nat)
  /-- a latch on its way round the cell ring (R162) -/
  | tile (latch : Nat) (bytes scales : List Byte) (mcmd : Nat)
deriving DecidableEq, Repr, Inhabited

/-- A packet in flight. -/
structure Packet where
  body : Body
  src : Loc
  dst : Loc
  /-- target FREF of a frame request -/
  target : Nat
  ret : Ret
  from_ : Issuer
  cmd : Nat
  bulk : Bool
  /-- order class and membership of the outbound domain (R241) -/
  ord : Nat
  outb : Bool
  /-- bytes touched: memory key and length -/
  lo : Nat
  len : Nat
  /-- a release held for earlier accesses (R196): its scope, and for sigb the only bytes it passes -/
  rel : Bool
  scope : Nat
  relLo : Nat
  relLen : Nat
  sem : Nat
  /-- fences that hold it (R229) -/
  fences : List (Nat × Nat)
  gen : BitVec 4
  /-- splice entry it holds, 64 for none (R320) -/
  splice : Nat
  pos : Pos
deriving DecidableEq, Repr, Inhabited

/-- A level of a walk descriptor (R230). -/
structure Level where
  n : Nat
  stride : Int
  steps : List Int
  sig : Bool
  sref : Nat
deriving DecidableEq, Repr, Inhabited

/-- A translated tile of a walk: page address, replicated, HBM request started (R308, R312, R344). -/
structure Trans where
  tile : Nat
  page : Nat
  repl : Bool
  started : Bool
deriving DecidableEq, Repr, Inhabited

/-- A tile-walk command (R230 to R240). Kinds by minor: 0 twld, 1 twst, 2 twmc, 3 twg, 4 tws, 5 twq. -/
structure Walk where
  kind : Nat
  tid : Nat
  stid : Nat
  qfmt : Nat
  origin : List Nat
  levels : List Level
  base : Nat
  idx : List Nat
  width : Nat
  height : Nat
  ret : Ret
  from_ : Issuer
  cmd : Nat
  ord : Nat
  fences : List (Nat × Nat)
  gen : BitVec 4
  /-- engine that runs it, 4 for none -/
  engine : Nat
  trans : List Trans
  /-- numbers of the moves that have started, and of those performed, rising: target × elements + element -/
  going : List Nat
  moved : List Nat
  /-- blocks of a twq whose scale is written, by their first element (R237) -/
  scaled : List Nat
  /-- the aligned source words read, each with its poison: an engine reads each once (R147, R207) -/
  buf : Tbl (Word × Bool)
  /-- table entries that have come from other dies, by address (R318) -/
  tabs : Tbl Word
  /-- dimension-end signals that have left: level, run, target -/
  sent : List (Nat × Nat × Nat)
  /-- copies of its replicated writes still on their way (R250) -/
  copies : Nat
  /-- final signals of a twmc that have left -/
  finals : Nat
  /-- stopped by a twcan that waits for its copies (R239, R250) -/
  stop : Bool
deriving DecidableEq, Repr, Inhabited

/-- A snapshot trigger on its way (R370, R373). -/
structure Trig where
  seq : BitVec 16
  /-- partition whose blocks latch it, none for a host trigger -/
  part : Option Nat
  reached : List SnapBlock
  ret : Ret
  from_ : Issuer
  cmd : Nat
  /-- fences that hold it (R229) -/
  fences : List (Nat × Nat) := []
  /-- its place in root order, 0 before it has entered the root, where it takes its number (R370) -/
  root : Nat := 0
deriving DecidableEq, Repr, Inhabited

/-- A torus link (R324, R327): its cycle count and the packets queued for each VC. -/
structure Link where
  cyc : Nat
  q : Tbl (List Nat)
deriving DecidableEq, Repr, Inhabited

/-- A link after reset. -/
def Link.init : Link := { cyc := 0, q := [] }

/-- The module's own registers (R338, R354, R370, R376, R379, R383). -/
structure Module where
  gen : BitVec 4
  drain : Bool
  cbusy : Bool
  cbad : Bool
  /-- region table: shadow, current and retiring, by die (R341) -/
  regionSh : Tbl Word
  region : Tbl Word
  regionOld : Tbl Word
  /-- connection table: shadow, current and retiring, by die and side (R322) -/
  connSh : Tbl Word
  conn : Tbl Word
  connOld : Tbl Word
  /-- optical port entries: words 0 and 1 by port (R354) -/
  ports : Tbl (Word × Word)
  up : List Nat
  /-- ports whose peer has its entry bound back to this module and port (R354) -/
  back : List Nat
  snapSeq : BitVec 16
  snapSel : BitVec 16
  slot : Nat
  ok : Bool
  cause : Nat
  ver : BitVec 32
  floor : BitVec 32
  active : Nat
  mbox : Word
  /-- running command, 0 for none -/
  cmd : Nat
  busyErr : Bool
  res : Nat
  /-- the result that the running command will report -/
  resNext : Nat
  /-- repair map in force, and its section's bytes (R377, R380) -/
  repair : List (BitVec 32)
  repairRaw : List Byte
  /-- digest of the image booted (R375, R380) -/
  digest : List Byte
deriving DecidableEq, Repr, Inhabited

/-- The module's registers at reset: an image has been accepted, and what else the boot decides is 0 (DESIGN CHOICE, log entry 4);
the connection table as R322. -/
def Module.init : Module :=
  { gen := 0, drain := false, cbusy := false, cbad := false, regionSh := [], region := [], regionOld := [], connSh := [], conn := []
    connOld := [], ports := [], up := [], back := [], snapSeq := 0, snapSel := 0, slot := 0, ok := true, cause := 0, ver := 0, floor := 0
    active := 0, mbox := 0, cmd := 0, busyErr := false, res := 0, resNext := 0, repair := [], repairRaw := [], digest := [] }

namespace Machine

/-- What a write may be ordered before (R244): the accesses and commands of a firing, one access or command that fences held for it, what a
signal or a reply releases, what has reached a slot or waits with its entry, what an arming passes to the later signals of its firing, the
release sequence that a release heads, what a ring counter's step or a finished step passes on, a launch, a command that a fault record
lists (R363), the work of a sequencer on a sample record, and the host. -/
inductive Party where
  | firing (fid : Nat)
  | work (n : Nat)
  | cover (k : Nat)
  | slot (cid f k : Nat)
  | arming (cid f k fid n : Nat)
  | entry (cid f k : Nat)
  | head (k : Nat)
  | ring (key : Nat) (up : Bool) (n : Nat)
  | step (cid n : Nat)
  | inst (k : Nat)
  | cmd (id : Nat)
  | sample (clid r : Nat)
  | host
deriving DecidableEq, Repr, Inhabited

/-- A write that not every party need see yet (R246), at one aligned word: what stood there before it, and who made it: the firing and its
instance, the domain (0 pipeline, 1 outbound, 2 walk, 3 matrix), the number of the access or command, and which part of a command it was. lo
and len are the bytes of this word that it wrote, spool says that it wrote a whole spool word (R124), bound lists what it is ordered before. -/
structure Older where
  key : Nat
  val : Nat
  fid : Nat
  inst : Nat
  by_ : Nat
  num : Nat
  tag : Nat
  lo : Nat
  len : Nat
  spool : Bool
  bound : List Party
deriving DecidableEq, Repr, Inhabited

/-- A release that heads a release sequence on the bytes of a word (R227, R249): the core that made it, its scope, its number. -/
structure Head where
  key : Nat
  len : Nat
  cid : Nat
  scope : Nat
  num : Nat
deriving DecidableEq, Repr, Inhabited

/-- The whole machine. -/
structure State where
  /-- every byte of the scratchpads, HBM4, code stores and Freit's slots that is not 0, by rising key -/
  mem : List Host.Cell
  /-- poisoned aligned 8-byte words, by rising key of their first byte (R365) -/
  poison : List Nat
  /-- the writes that some party may read past, newest first (R246) -/
  older : List Older
  /-- the release sequences that no write has ended (R249) -/
  heads : List Head
  cores : Tbl Core
  cells : Tbl Cell
  clusters : Tbl Cluster
  dies : Tbl Die
  parts : Tbl Part
  insts : Tbl Inst
  cmds : Tbl Cmd
  net : Tbl Packet
  walks : Tbl Walk
  faults : List FaultRec
  trigs : Tbl Trig
  links : Tbl Link
  mgmt : Module
  /-- MSI-X vectors sent, latest first (R348) -/
  msi : List Nat
  /-- completion of the last host read: data and poison (R348) -/
  hostData : Word × Bool
  /-- the context that issues: core and context (the model's own) -/
  cur : Nat × Nat
  /-- next sequence number of packets, commands and firings (the model's own) -/
  seq : Nat
  /-- number of the next free choice (the model's own) -/
  tick : Nat
  /-- what acts next, before the free choices (the model's own) -/
  sched : List Sel
deriving DecidableEq, Repr, Inhabited

/-- Why the machine stops. No instruction and no event of the model raises one: a fault of the manual is a next state, in which
the firing has ended and its record waits to be written (R40, R361). Safe. -/
inductive Fault where
  /-- raised by nothing; safe -/
  | halted
deriving DecidableEq, Repr

/-- Why the model gives no meaning. -/
inductive Refusal where
  /-- raised by an arm of exec whose instruction has no meaning yet; safe -/
  | notModelled (mnemonic : String)
deriving DecidableEq, Repr

/-- What a step answers. -/
abbrev Out := Host.Outcome State Fault Refusal

/-- The machine right after reset: nothing listed in memory, every unit as R6 and its own rule leave it, nothing in flight. -/
def State.reset : State :=
  { mem := [], poison := [], older := [], heads := [], cores := [], cells := [], clusters := [], dies := [], parts := [], insts := [], cmds := [], net := []
    walks := [], faults := [], trigs := [], links := [], mgmt := Module.init, msi := [], hostData := (0, false), cur := (0, 0)
    seq := 1, tick := 0, sched := [] }

/-- The canonical form of a byte list: keys strictly rise and no byte is 0, which is what an unlisted byte reads as. -/
def memWf : List Host.Cell → Bool
  | [] => true
  | [c] => c.2 != 0
  | c :: d :: t => c.2 != 0 && decide (c.1 < d.1) && memWf (d :: t)

/-- Memory.wf: the memory is in its canonical form. -/
def Memory.wf (m : List Host.Cell) : Bool := memWf m

end Machine

end Sys2Proof
end

