-- ==== Sys2Proof/Machine/Num.lean ====
section
/-! DEFINITION. Number formats and rounding: exact values, the formats of R11 to R29, the spool (R30 to R35, R385), the IEEE
operations of R116 and the special functions of R134. -/

namespace Sys2Proof.Machine

/-! ### Exact values -/

/-- A value: NaN, NaR, an infinity, or a real of sign neg and magnitude m × 2^e, or strictly between m × 2^e and (m + 1) × 2^e
where st says so. -/
inductive XReal where
  | nan
  | nar
  | inf (neg : Bool)
  | num (neg : Bool) (m : Nat) (e : Int) (st : Bool)
deriving DecidableEq, Repr, Inhabited

namespace XReal

/-- A signed zero. -/
def zero (neg : Bool) : XReal := .num neg 0 0 false
/-- An integer. -/
def ofInt (i : Int) : XReal := .num (decide (i < 0)) i.natAbs 0 false
/-- NaN or NaR. -/
def isNan : XReal → Bool
  | .nan => true
  | .nar => true
  | _ => false
/-- The sign of a value. -/
def sign : XReal → Bool
  | .inf n => n
  | .num n .. => n
  | _ => false
/-- A value of zero. -/
def isZero : XReal → Bool
  | .num _ m _ st => m == 0 && !st
  | _ => false
/-- The negation; NaN and NaR stay. -/
def neg : XReal → XReal
  | .inf n => .inf (!n)
  | .num n m e st => .num (!n) m e st
  | x => x
/-- The magnitude. -/
def abs : XReal → XReal
  | .inf _ => .inf false
  | .num _ m e st => .num false m e st
  | x => x
/-- A real times a power of two. -/
def scale (k : Int) : XReal → XReal
  | .num n m e st => .num n m (e + k) st
  | x => x

/-- A signed integer times 2^e as a value; neg0 is the sign of an exact zero. -/
def ofScaled (i e : Int) (neg0 : Bool) : XReal := .num (if i = 0 then neg0 else decide (i < 0)) i.natAbs e false
/-- A real's signed magnitude in units of 2^g, for g at most its exponent. -/
def units (n : Bool) (m : Nat) (e g : Int) : Int := (if n then -1 else 1) * ((m * 2 ^ (e - g).toNat : Nat) : Int)

/-- The exact sum with the special values of IEEE addition; an exact zero of unlike signs is −0 under rdn alone (R116). -/
def add (a b : XReal) (rm : Nat) : XReal :=
  match a, b with
  | .num n m e _, .num k l f _ =>
    let g := min e f
    ofScaled (units n m e g + units k l f g) g (if n = k then n else rm == 2)
  | .inf n, .inf k => if n = k then .inf n else .nan
  | .inf n, .num .. => .inf n
  | .num .., .inf k => .inf k
  | _, _ => .nan
/-- The exact product with the special values of IEEE multiplication. -/
def mul (a b : XReal) : XReal :=
  match a, b with
  | .num n m e _, .num k l f _ => .num (n != k) (m * l) (e + f) false
  | .inf n, .num k l _ _ => if l = 0 then .nan else .inf (n != k)
  | .num n m _ _, .inf k => if m = 0 then .nan else .inf (n != k)
  | .inf n, .inf k => .inf (n != k)
  | _, _ => .nan
/-- The quotient, to 70 bits or more and a sticky part, with the special values of IEEE division. -/
def div (a b : XReal) : XReal :=
  match a, b with
  | .num n m e _, .num k l f _ =>
    if l = 0 then (if m = 0 then .nan else .inf (n != k))
    else if m = 0 then zero (n != k)
    else
      let s := 72 + Nat.log2 l
      .num (n != k) (m * 2 ^ s / l) (e - f - s) (m * 2 ^ s % l != 0)
  | .inf n, .num k .. => .inf (n != k)
  | .num n .., .inf k => zero (n != k)
  | _, _ => .nan

end XReal

/-- The largest r with r^d ≤ n, built from bit k - 1 down on what stands in r. -/
def rootFrom (n d : Nat) : Nat → Nat → Nat
  | 0, r => r
  | k + 1, r => if (r + 2 ^ k) ^ d ≤ n then rootFrom n d k (r + 2 ^ k) else rootFrom n d k r
/-- The d-th root of n, rounded down. -/
def nthRoot (n d : Nat) : Nat := rootFrom n d (Nat.log2 n / d + 1) 0

namespace XReal

/-- The square root, to 70 bits or more and a sticky part (IEEE squareRoot). -/
def sqrt (a : XReal) : XReal :=
  match a with
  | .num n m e _ =>
    if m = 0 then zero n
    else if n then .nan
    else
      let s : Nat := 144 + (if e % 2 = 0 then 0 else 1)
      let x := m * 2 ^ s
      let r := nthRoot x 2
      .num false r ((e - (s : Int)) / 2) (r * r != x)
  | .inf false => .inf false
  | _ => .nan
/-- 1 / √a (IEEE rSqrt). -/
def rsqrt (a : XReal) : XReal :=
  match a with
  | .num n m e _ =>
    if m = 0 then .inf n
    else if n then .nan
    else
      let (m1, e1) := if e % 2 = 0 then (m, e) else (2 * m, e - 1)
      let s := 80 + Nat.log2 m1
      let r := nthRoot (2 ^ (2 * s) / m1) 2
      .num false r (-(e1 / 2) - s) (r * r * m1 != 2 ^ (2 * s))
  | .inf false => zero false
  | _ => .nan

/-- The order of two values that are no NaN. -/
def cmp (a b : XReal) : Ordering :=
  match a, b with
  | .num n m e _, .num k l f _ => let g := min e f; compare (units n m e g) (units k l f g)
  | .inf n, .inf k => if n = k then .eq else if n then .lt else .gt
  | .inf n, _ => if n then .lt else .gt
  | _, .inf k => if k then .gt else .lt
  | _, _ => .eq
/-- a < b, both no NaN. -/
def lt (a b : XReal) : Bool := !a.isNan && !b.isNan && cmp a b == .lt
/-- a = b, both no NaN; −0 = +0. -/
def eq (a b : XReal) : Bool := !a.isNan && !b.isNan && cmp a b == .eq
/-- a ≤ b, both no NaN. -/
def le (a b : XReal) : Bool := lt a b || eq a b

end XReal

/-! ### Rounding (R16) -/

/-- A magnitude m × 2^e with its sticky part in units of 2^g, rounded under rm: 0 rne, 1 rtz, 2 rdn, 3 rup. -/
def quantise (neg : Bool) (m : Nat) (e : Int) (st : Bool) (g : Int) (rm : Nat) : Nat :=
  let sh := (g - e).toNat
  let q := m * 2 ^ (e - g).toNat / 2 ^ sh
  let r := m * 2 ^ (e - g).toNat % 2 ^ sh
  let inexact := r != 0 || st
  let above := decide (2 ^ sh < 2 * r) || (2 * r == 2 ^ sh && st && decide (0 < sh))
  let tie := 2 * r == 2 ^ sh && !st
  let up := match rm with
    | 0 => above || (tie && q % 2 == 1)
    | 1 => false
    | 2 => neg && inexact
    | _ => !neg && inexact
  if up then q + 1 else q

/-- The exponent of a real's leading bit, floor(log2 |x|). -/
def topExp (m : Nat) (e : Int) : Int := e + Nat.log2 m

/-- The code of a rounded magnitude in a binary format with f fraction bits and grid step 2^g0: consecutive codes for consecutive
magnitudes. -/
def gridCode (neg : Bool) (m : Nat) (e : Int) (st : Bool) (f : Nat) (g0 : Int) (rm : Nat) : Nat :=
  let g := max (topExp m e - f) g0
  (g - g0).toNat * 2 ^ f + quantise neg m e st g rm

/-- A value rounded to FP32 (f = 23) or BF16 (f = 7): the code without its sign below the width given (R15, R17, R28). -/
def roundIeee (f : Nat) (x : XReal) (rm : Nat) : Nat :=
  let infCode := 255 * 2 ^ f
  let put (n : Bool) (c : Nat) : Nat := (if n then 256 * 2 ^ f else 0) + c
  match x with
  | .nan => infCode + 2 ^ (f - 1)
  | .nar => infCode + 2 ^ (f - 1)
  | .inf n => put n infCode
  | .num n m e st =>
    let c := if m = 0 ∧ st = false then 0 else gridCode n m e st f (-126 - f) rm
    if infCode ≤ c then
      put n (match rm with
        | 0 => infCode
        | 1 => infCode - 1
        | 2 => if n then infCode else infCode - 1
        | _ => if n then infCode - 1 else infCode)
    else put n c

/-- round_fp32 (R17). -/
def roundFp32 (x : XReal) (rm : Nat) : BitVec 32 := BitVec.ofNat 32 (roundIeee 23 x rm)
/-- round_bf16 (R17). -/
def roundBf16 (x : XReal) (rm : Nat) : BitVec 16 := BitVec.ofNat 16 (roundIeee 7 x rm)
/-- decode_fp32 (R13, R17). -/
def decodeFp32 (p : BitVec 32) : XReal :=
  let v := p.toNat
  let n := decide (2 ^ 31 ≤ v)
  let ex : Nat := v / 2 ^ 23 % 256
  let fr : Nat := v % 2 ^ 23
  if ex = 255 then (if fr = 0 then .inf n else .nan)
  else if ex = 0 then .num n fr (-149) false
  else .num n (2 ^ 23 + fr) ((ex : Int) - 150) false
/-- decode_bf16 (R13, R17). -/
def decodeBf16 (p : BitVec 16) : XReal := decodeFp32 (p.setWidth 32 <<< 16)

/-! ### Microscaling formats (R18 to R21). Formats by their code of R114, 9 to 13. -/

/-- Exponent bits, fraction bits, bias, largest finite code and emax of an MX element format. -/
def mxParams (fmt : Nat) : Nat × Nat × Nat × Nat × Nat :=
  match fmt with
  | 9 => (4, 3, 7, 0x7E, 8)
  | 10 => (5, 2, 15, 0x7B, 15)
  | 11 => (3, 2, 3, 0x1F, 4)
  | 12 => (2, 3, 1, 0x1F, 2)
  | _ => (2, 1, 1, 0x7, 2)
/-- decode_mx: an element code under a scale c (R19). -/
def decodeMx (fmt code c : Nat) : XReal :=
  let (eb, fb, bias, _, _) := mxParams fmt
  let n := code / 2 ^ (eb + fb) % 2 == 1
  let ex : Nat := code / 2 ^ fb % 2 ^ eb
  let fr : Nat := code % 2 ^ fb
  if c = 255 then .nan
  else if fmt = 10 ∧ ex = 31 then (if fr = 0 then .inf n else .nan)
  else if fmt = 9 ∧ ex = 15 ∧ fr = 7 then .nan
  else
    let k := (c : Int) - 127 - bias - fb
    if ex = 0 then .num n fr (k + 1) false else .num n (2 ^ fb + fr) (k + ex) false
/-- round_mx (R20). -/
def roundMx (fmt : Nat) (x : XReal) : Nat :=
  let (eb, fb, bias, top, _) := mxParams fmt
  let put (n : Bool) (c : Nat) : Nat := (if n then 2 ^ (eb + fb) else 0) + c
  match x with
  | .inf n => put n top
  | .num n m e st => put n (if m = 0 ∧ st = false then 0 else min (gridCode n m e st fb (1 - (bias : Int) - fb) 0) top)
  | _ => if fmt ≤ 10 then 0x7F else 0
/-- mx_quantise: the scale and the codes of a block of FP32 words (R21). -/
def mxQuantise (fmt : Nat) (xs : List (BitVec 32)) : Nat × List Nat :=
  let vs := xs.map decodeFp32
  let amax := (xs.map (fun x => x.toNat % 2 ^ 31)).foldl max 0
  if vs.any (fun v => match v with | .num .. => false | _ => true) then (0xFF, xs.map (fun _ => 0))
  else if amax = 0 then (0, vs.map (roundMx fmt))
  else
    let top := match decodeFp32 (BitVec.ofNat 32 amax) with | .num _ m e _ => topExp m e | _ => 0
    let c := (min 254 (max 0 (top - ((mxParams fmt).2.2.2.2 : Int) + 127))).toNat
    (c, vs.map (fun v => roundMx fmt (v.scale (127 - (c : Int)))))

/-! ### Tapered formats (R22 to R25) -/

/-- The length of the run of bits equal to r from bit n - 1 downward. -/
def runLen (p : Nat) (r : Bool) : Nat → Nat
  | 0 => 0
  | n + 1 => if p.testBit n = r then runLen p r n + 1 else 0
/-- decode_tf (R23). -/
def decodeTf (n es p : Nat) : XReal :=
  if p = 0 then XReal.zero false
  else if p = 2 ^ (n - 1) then .nar
  else
    let s := p.testBit (n - 1)
    let a := if s then 2 ^ n - p else p
    let r := a.testBit (n - 2)
    let m := runLen a r (n - 1)
    let k : Int := if r then (m : Int) - 1 else -(m : Int)
    let rest := n - 2 - m
    let eb : Nat := min es rest
    let ex : Nat := a / 2 ^ (rest - eb) % 2 ^ eb * 2 ^ (es - eb)
    let f : Nat := rest - es
    .num s (2 ^ f + a % 2 ^ f) (k * (2 ^ es : Nat) + (ex : Int) - (f : Int)) false
/-- round_tf (R24): the code, to nearest with ties to the even bit string. -/
def roundTf (n es : Nat) (x : XReal) : Nat :=
  match x with
  | .num s m e st =>
    if m = 0 then 0
    else
      let l := Nat.log2 m
      let E := e + l
      let k := E / 2 ^ es
      let ex := (E % 2 ^ es).toNat
      let q := if (n : Int) - 2 ≤ k then 2 ^ (n - 1) - 1
        else if k ≤ 1 - (n : Int) then 1
        else
          let len := if 0 ≤ k then k.toNat + 2 else k.natAbs + 1
          let reg := if 0 ≤ k then (2 ^ (k.toNat + 1) - 1) * 2 else 1
          let all := (reg * 2 ^ es + ex) * 2 ^ l + (m - 2 ^ l)
          let t := len + es + l
          if t ≤ n - 1 then all * 2 ^ (n - 1 - t)
          else
            let sh := t - (n - 1)
            let q := all / 2 ^ sh
            let g := all.testBit (sh - 1)
            let sticky := all % 2 ^ (sh - 1) != 0 || st
            max 1 (min (if g && (sticky || q % 2 == 1) then q + 1 else q) (2 ^ (n - 1) - 1))
      if s then (2 ^ n - q) % 2 ^ n else q
  | _ => 2 ^ (n - 1)

/-- Width and exponent bits of a tapered format: 0 TF8, 1 TF16, 2 TF32 (R22). -/
def tfParams (t : Nat) : Nat × Nat := match t with | 0 => (8, 1) | 1 => (16, 1) | _ => (32, 2)
/-- decode_tf of a format. -/
def decTf (t p : Nat) : XReal := decodeTf (tfParams t).1 (tfParams t).2 (p % 2 ^ (tfParams t).1)
/-- round_tf of a format; IEEE specials give NaR (R27). -/
def encTf (t : Nat) (x : XReal) : Nat := roundTf (tfParams t).1 (tfParams t).2 x

/-! ### Integers (R12) -/

/-- sat_int: a value converted to w bits with saturation. -/
def satInt (w : Nat) (signed : Bool) (x : XReal) (rm : Nat) : Int :=
  let lo : Int := if signed then -(2 ^ (w - 1)) else 0
  let hi : Int := if signed then 2 ^ (w - 1) - 1 else 2 ^ w - 1
  match x with
  | .inf n => if n then lo else hi
  | .num n m e st => max lo (min hi (let q := quantise n m e st 0 rm; if n then -(q : Int) else q))
  | _ => 0

/-! ### The spool (R30 to R35, R385) -/

/-- A spool's S replaced by an exact sum: the flag is set where it leaves the range (R31). -/
def spoolPut (p : Spool) (u : Int) (nar : Bool) : Spool :=
  { s := BitVec.ofInt 160 u, nar := p.nar || nar || decide (u < -(2 ^ 159)) || decide (2 ^ 159 ≤ u) }
/-- spool_add (R31). -/
def spoolAdd (p : Spool) (x : XReal) : Spool :=
  match x with
  | .num n m e st =>
    let t := quantise n m e st (-64) 0
    spoolPut p (p.s.toInt + (if n then -(t : Int) else t)) false
  | _ => { p with nar := true }
/-- spool_merge (R385). -/
def spoolMerge (p q : Spool) (neg : Bool) : Spool := spoolPut p (p.s.toInt + (if neg then -q.s.toInt else q.s.toInt)) q.nar
/-- A spool's value (R30). -/
def spoolVal (p : Spool) : XReal := if p.nar then .nar else XReal.ofScaled p.s.toInt (-64) false
/-- A spool word read (R35). -/
def spoolOfBits (v : BitVec 256) : Spool := { s := v.setWidth 160, nar := v.getLsbD 160 }
/-- A spool word written (R35). -/
def bitsOfSpool (p : Spool) : BitVec 256 := p.s.setWidth 256 ||| (if p.nar then 1#256 <<< 160 else 0)

/-! ### The formats of R114 -/

/-- A source of a format code, from the low bits of a register (R113, R114). -/
def readFmt (code : Nat) (a : Word) : XReal :=
  let v := a.toNat
  match code with
  | 0 => XReal.ofInt (a.setWidth 8).toInt
  | 1 => XReal.ofInt (a.setWidth 16).toInt
  | 2 => XReal.ofInt (a.setWidth 32).toInt
  | 3 => XReal.ofInt a.toInt
  | 4 => decTf 0 v
  | 5 => decTf 1 v
  | 6 => decTf 2 v
  | 7 => decodeFp32 (a.setWidth 32)
  | 8 => decodeBf16 (a.setWidth 16)
  | 9 => decodeMx 9 (v % 2 ^ 8) 0x7F
  | 10 => decodeMx 10 (v % 2 ^ 8) 0x7F
  | 11 => decodeMx 11 (v % 2 ^ 6) 0x7F
  | 12 => decodeMx 12 (v % 2 ^ 6) 0x7F
  | _ => decodeMx 13 (v % 2 ^ 4) 0x7F
/-- A result of a format code placed in a register (R113, R114). An infinite value of an MX format saturates, and a NaN takes the one code
0x7F, as every result of the format does (R20): so cvt from E5M2 to E5M2 or from E4M3 to E4M3 of an Inf code or of another NaN code is not
the identity that R126 names (DESIGN CHOICE, log entry 64). -/
def writeFmt (code : Nat) (x : XReal) (rm : Nat) : Word :=
  match code with
  | 0 => BitVec.ofInt 64 (satInt 8 true x rm)
  | 1 => BitVec.ofInt 64 (satInt 16 true x rm)
  | 2 => BitVec.ofInt 64 (satInt 32 true x rm)
  | 3 => BitVec.ofInt 64 (satInt 64 true x rm)
  | 4 => (BitVec.ofNat 8 (encTf 0 x)).signExtend 64
  | 5 => (BitVec.ofNat 16 (encTf 1 x)).signExtend 64
  | 6 => (BitVec.ofNat 32 (encTf 2 x)).signExtend 64
  | 7 => (roundFp32 x rm).setWidth 64
  | 8 => (roundBf16 x rm).setWidth 64
  | c => BitVec.ofNat 64 (roundMx c x)

/-! ### FP32 operations (R116 to R118) -/

/-- The canonical NaN (R15). -/
def nan32 : BitVec 32 := 0x7FC00000
/-- IEEE addition. -/
def fpAdd (a b : BitVec 32) (rm : Nat) : BitVec 32 := roundFp32 (XReal.add (decodeFp32 a) (decodeFp32 b) rm) rm
/-- IEEE addition under rne, as the atomics use it (R226, R336). -/
def fp32Add (a b : BitVec 32) : BitVec 32 := fpAdd a b 0
/-- IEEE subtraction. -/
def fpSub (a b : BitVec 32) (rm : Nat) : BitVec 32 := roundFp32 (XReal.add (decodeFp32 a) (decodeFp32 b).neg rm) rm
/-- IEEE multiplication. -/
def fpMul (a b : BitVec 32) (rm : Nat) : BitVec 32 := roundFp32 (XReal.mul (decodeFp32 a) (decodeFp32 b)) rm
/-- IEEE fusedMultiplyAdd, one rounding. -/
def fpFma (a b c : BitVec 32) (rm : Nat) : BitVec 32 :=
  roundFp32 (XReal.add (XReal.mul (decodeFp32 a) (decodeFp32 b)) (decodeFp32 c) rm) rm
/-- IEEE division. -/
def fpDiv (a b : BitVec 32) (rm : Nat) : BitVec 32 := roundFp32 (XReal.div (decodeFp32 a) (decodeFp32 b)) rm
/-- IEEE squareRoot. -/
def fpSqrt (a : BitVec 32) (rm : Nat) : BitVec 32 := roundFp32 (decodeFp32 a).sqrt rm
/-- a comes before b in the order of minimumNumber: −0 below +0. -/
def fpBefore (a b : BitVec 32) : Bool :=
  XReal.lt (decodeFp32 a) (decodeFp32 b) || (XReal.eq (decodeFp32 a) (decodeFp32 b) && a.msb && !b.msb)
/-- IEEE minimumNumber. -/
def fpMin (a b : BitVec 32) : BitVec 32 :=
  match (decodeFp32 a).isNan, (decodeFp32 b).isNan with
  | true, true => nan32
  | true, false => b
  | false, true => a
  | false, false => if fpBefore b a then b else a
/-- IEEE maximumNumber. -/
def fpMax (a b : BitVec 32) : BitVec 32 :=
  match (decodeFp32 a).isNan, (decodeFp32 b).isNan with
  | true, true => nan32
  | true, false => b
  | false, true => a
  | false, false => if fpBefore a b then b else a
/-- fabs. -/
def fpAbs (a : BitVec 32) : BitVec 32 := if (decodeFp32 a).isNan then nan32 else a &&& 0x7FFFFFFF
/-- fneg. -/
def fpNeg (a : BitVec 32) : BitVec 32 := if (decodeFp32 a).isNan then nan32 else a ^^^ 0x80000000
/-- fclass (R117). -/
def fpClass (a : BitVec 32) : Word :=
  let n := a.msb
  let ex := a.toNat / 2 ^ 23 % 256
  let fr := a.toNat % 2 ^ 23
  let bit : Nat :=
    if ex = 255 then (if fr = 0 then (if n then 0 else 7) else if fr < 2 ^ 22 then 8 else 9)
    else if ex = 0 then (if fr = 0 then (if n then 3 else 4) else if n then 2 else 5)
    else if n then 1 else 6
  BitVec.ofNat 64 (2 ^ bit)

/-! ### Tapered operations (R26, R120) -/

/-- A rounded tapered operation: NaR where an operand is NaR, else the exact result rounded once. -/
def tfOp2 (t : Nat) (g : XReal → XReal → XReal) (a b : Nat) : Nat :=
  match decTf t a, decTf t b with
  | .nar, _ => encTf t .nar
  | _, .nar => encTf t .nar
  | x, y => encTf t (g x y)
/-- tfma: one rounding. -/
def tfFma (t a b c : Nat) : Nat :=
  match decTf t a, decTf t b, decTf t c with
  | .nar, _, _ => encTf t .nar
  | _, .nar, _ => encTf t .nar
  | _, _, .nar => encTf t .nar
  | x, y, z => encTf t (XReal.add (XReal.mul x y) z 0)
/-- A code as a signed integer of its width (R25). -/
def tfInt (t p : Nat) : Int := (BitVec.ofNat (tfParams t).1 p).toInt
/-- Two's-complement negation of a code in its width (R25). -/
def tfNeg (t p : Nat) : Nat := (2 ^ (tfParams t).1 - p % 2 ^ (tfParams t).1) % 2 ^ (tfParams t).1

/-! ### Special functions (R134). Fixed point with 192 fraction bits; the sums' errors stay below 2^−150 (log entry 30). -/

/-- ln 2 × 2^192, from the sum of 1 / (k 2^k) for k from 1. -/
def ln2Sum : Nat → Nat
  | 0 => 0
  | k + 1 => 2 ^ (256 - (k + 1)) / (k + 1) + ln2Sum k
/-- ln 2 in units of 2^−192. -/
def ln2 : Nat := ln2Sum 250 / 2 ^ 64
/-- exp(x) − (the terms before term k), for x in units of 2^−192: the term and the rest of the series. -/
def expTail (x : Nat) : Nat → Nat → Nat → Nat
  | 0, _, _ => 0
  | n + 1, k, t => t + expTail x n (k + 1) (t * x / 2 ^ 192 / (k + 1))
/-- 2^f for a fraction f in units of 2^−192. -/
def exp2Frac (f : Nat) : Nat := expTail (f * ln2 / 2 ^ 192) 60 0 (2 ^ 192)
/-- 2^a, correctly rounded once by the caller. An integer a gives an exact power; a very small a gives 1 with a sticky part on its side. -/
def XReal.exp2 : XReal → XReal
  | .num n m e _ =>
    if m = 0 then .num false 1 0 false
    else if 8 ≤ topExp m e then .num false 1 (if n then -400 else 400) true
    else if topExp m e < -64 then (if n then .num false (2 ^ 128 - 1) (-128) true else .num false (2 ^ 128) (-128) true)
    else
      let v := XReal.units n m e (min e 0)
      let u : Int := 2 ^ (-(min e 0)).toNat
      let i := v / u
      let f := ((v % u) * 2 ^ 192 / u).toNat
      if f = 0 then .num false 1 i false else .num false (exp2Frac f / 2 ^ 64) (i - 128) true
  | .inf n => if n then zero false else .inf false
  | _ => .nan

/-- 2 atanh z as a series in units of 2^−192: the sum of z^(2k+1) / (2k+1), doubled by the caller. -/
def atanhTail (z2 : Nat) : Nat → Nat → Nat → Nat
  | 0, _, _ => 0
  | n + 1, k, t => t / (2 * k + 1) + atanhTail z2 n (k + 1) (t * z2 / 2 ^ 192)
/-- log2 of a magnitude m between 2^l and 2^(l+1), less l, in units of 2^−192. -/
def log2Frac (m l : Nat) : Nat :=
  let z := (m - 2 ^ l) * 2 ^ 192 / (m + 2 ^ l)
  2 * atanhTail (z * z / 2 ^ 192) 64 0 z * 2 ^ 192 / ln2
/-- log2 a, correctly rounded once by the caller. -/
def XReal.log2 : XReal → XReal
  | .num n m e _ =>
    if m = 0 then .inf true
    else if n then .nan
    else
      let l := Nat.log2 m
      let i := e + l
      if m = 2 ^ l then XReal.ofScaled i 0 false
      else
        let v := i * 2 ^ 192 + log2Frac m l
        .num (decide (v < 0)) (v.natAbs / 2 ^ 32) (-160) true
  | .inf false => .inf false
  | _ => .nan

/-- safety × err^(−1/d), to 64 bits or more and a sticky part, for finite positive operands (R272). -/
def scaledRoot (safety err : XReal) (d : Nat) : XReal :=
  match safety, err with
  | .num _ ms es _, .num _ m e _ =>
    let k := es * d - e
    let s := (e.natAbs + es.natAbs * d + 100 * d + Nat.log2 m) / d + 1
    let top := ms ^ d * 2 ^ (k + s * d).toNat
    let r := nthRoot (top / m) d
    .num false r (-(s : Int)) (r ^ d * m != top)
  | _, _ => .nan

end Sys2Proof.Machine
end

