-- ==== Sys2Proof/Machine/Flags.lean ====
section
/-! DEFINITION. The conditions of the comparisons: a condition code and two operands give one truth value (R100, R118, R119,
R137). The machine has no other flags. -/

namespace Sys2Proof.Machine

/-- The conditions of `cmp` and `cmpi` (R100). -/
def intCond (code : Nat) (a y : Word) : Bool :=
  match code with
  | 0 => a == y
  | 1 => a != y
  | 2 => a.slt y
  | 3 => a.sle y
  | 4 => y.slt a
  | 5 => y.sle a
  | 6 => a.ult y
  | 7 => a.ule y
  | 8 => y.ult a
  | _ => y.ule a

/-- The conditions of `fcmp` (R118); −0 and +0 are equal. -/
def fpCond (code : Nat) (a b : XReal) : Bool :=
  match code with
  | 0 => XReal.eq a b
  | 1 => a.isNan || b.isNan || !(XReal.eq a b)
  | 2 => XReal.lt a b
  | 3 => XReal.le a b
  | 4 => XReal.lt b a
  | 5 => XReal.le b a
  | _ => a.isNan || b.isNan

/-- The conditions of `tcmp`, on codes read as signed integers (R120). -/
def tfCond (code : Nat) (a b : Int) : Bool :=
  match code with
  | 0 => decide (a = b)
  | 1 => decide (a ≠ b)
  | 2 => decide (a < b)
  | 3 => decide (a ≤ b)
  | 4 => decide (b < a)
  | _ => decide (b ≤ a)

end Sys2Proof.Machine
end

