-- ==== Sys2Proof/Machine/Fields.lean ====
section
/-! DEFINITION. The fields of an instruction as the entries of the instruction chapters name them, and the check of each
instruction's fields by R82, R84 and R85 and by its own entry. -/

namespace Sys2Proof

/-- What a register field may name (R85): `s` any scalar register, `sd` a scalar destination (s60 to s62 are illegal), `v` a
vector register, `p` a predicate or mask register, `q` a spool register or tile, `l` a latch, `zero` an unused field, `any` a
field whose check stands in the entry. -/
inductive FileKind where
  | s | sd | v | p | q | l | zero | any
deriving DecidableEq, Repr

/-- R85: the range of a register field. -/
def FileKind.ok : FileKind → BitVec 6 → Bool
  | .s, _ => true
  | .any, _ => true
  | .sd, r => !(r == 60 || r == 61 || r == 62)
  | .v, r => decide (r.toNat < 32)
  | .p, r => decide (r.toNat < 8)
  | .q, r => decide (r.toNat < 4)
  | .l, r => decide (r.toNat < 2)
  | .zero, r => r == 0

/-- The sub-field of n bits that starts at bit lo of parcel 1, lo at least 14 (R84). -/
def WForm.fld (f : WForm) (lo n : Nat) : Nat := (f.sub.toNat >>> (lo - 14)) % 2 ^ n

/-- imm18 sign-extended (R78, R84). -/
def WForm.imm (f : WForm) : Word := f.sub.signExtend 64

/-- The literal sign-extended (R79). -/
def XForm.imm (f : XForm) : Word := f.lit.signExtend 64

/-- The W form that the X form behaves as, apart from its immediate (R79). -/
def XForm.toW (f : XForm) : WForm :=
  { d := f.d, a := f.a, b := f.b, guard := f.guard, ord := f.ord, hint := f.hint, c := f.c, sub := 0 }

/-- The W form that a C form behaves as (R80): guard p0 not negated, class o0, hint h0, c and imm18 zero. -/
def CForm.toW (f : CForm) : WForm :=
  { d := f.d, a := f.a, b := f.b, guard := 0, ord := 0, hint := 0, c := 0, sub := 0 }

/-- `bext`, `bins`: pos (R98). -/
def WForm.pos (f : WForm) : Nat := f.fld 14 6
/-- `bext`, `bins`: len (R98). -/
def WForm.len (f : WForm) : Nat := f.fld 20 6 + 1
/-- format code at [17:14] (R121, R125, R157). -/
def WForm.fmt (f : WForm) : Nat := f.fld 14 4
/-- lane mask number (R130). -/
def WForm.km (f : WForm) : Nat := f.fld 14 3
/-- element width, tapered format or pack width code (R130, R140). -/
def WForm.ew (f : WForm) : Nat := f.fld 17 2
/-- element width in bits (R130). -/
def WForm.width (f : WForm) : Nat := 32 >>> f.ew
/-- unsigned reading (R130). -/
def WForm.uBit (f : WForm) : Bool := f.fld 19 1 == 1
/-- b names a scalar register (R130). -/
def WForm.bs (f : WForm) : Bool := f.fld 20 1 == 1
/-- empty policy (R49, R130). -/
def WForm.ep (f : WForm) : Nat := f.fld 21 2
/-- rounding mode of a vector instruction (R130). -/
def WForm.rm (f : WForm) : Nat := f.fld 23 2
/-- condition, operator or spool format of a vector instruction (R130). -/
def WForm.op (f : WForm) : Nat := f.fld 25 4
/-- file of the b field of a vector instruction (R130). -/
def WForm.bKind (f : WForm) : FileKind := if f.bs then .s else .v
/-- `vcvt` source format (R139). -/
def WForm.vsrc (f : WForm) : Nat := f.fld 19 4
/-- `vcvt` destination format (R139). -/
def WForm.vdst (f : WForm) : Nat := f.fld 25 4
/-- `vcvt` scale bit (R139). -/
def WForm.sc (f : WForm) : Bool := f.fld 29 1 == 1
/-- `vpack`, `vunpack`: element bits N (R140). -/
def WForm.packN (f : WForm) : Nat := 16 >>> f.ew
/-- `vpack`, `vunpack`: q (R140). -/
def WForm.q (f : WForm) : Nat := f.fld 19 3
/-- word operand (R188), also J - I of the index range of `twg` and `tws` (R231). -/
def WForm.ow (f : WForm) : Nat := f.fld 14 5
/-- `mdrain`: first row (R157). -/
def WForm.row0 (f : WForm) : Nat := f.fld 20 4
/-- `mdrain`: number of rows (R157). -/
def WForm.rows (f : WForm) : Nat := f.fld 24 4 + 1
/-- semantics of a signal in field c (R189): 0 rel, 1 rlx, 2 acq, 3 ar. -/
def WForm.sem (f : WForm) : Nat := f.c.toNat % 4
/-- scope of a signal in field c (R189): 0 core to 5 sys. -/
def WForm.scope (f : WForm) : Nat := f.c.toNat / 4 % 8

/-- The codes of R114 that are tapered. -/
def isTapered (c : Nat) : Bool := c == 4 || c == 5 || c == 6
/-- The codes of R114 that are MX elements. -/
def isMx (c : Nat) : Bool := decide (9 ≤ c ∧ c ≤ 13)
/-- The destination codes of R114 to which a rounding mode applies. -/
def takesRm (c : Nat) : Bool := decide (c ≤ 3) || c == 7 || c == 8
/-- The codes that `vcvt`, `vspfma`, `mdrain` and their like accept: 0 to 2 and 4 to 13 (R135, R139, R165). -/
def vFmt (c : Nat) : Bool := decide (c ≤ 13) && c != 3
/-- R189: scope 0 to 5 and bit 13 zero. -/
def semScopeOk (c : BitVec 6) : Bool := decide (c.toNat < 32 ∧ c.toNat / 4 ≤ 5)
/-- R372: the system registers that `sysr` reads. -/
def sysReadable (sel : Nat) : Bool := [0, 1, 2, 3, 0x10, 0x11, 0x12, 0x20, 0x21].contains sel
/-- R372: the system registers that `sysw` writes. -/
def sysWritable (sel : Nat) : Bool := sel == 0x20 || sel == 0x21

/-- The register fields of a W form lie in their files (R85). -/
def WForm.shape (f : WForm) (d a b c : FileKind) : Bool := d.ok f.d && a.ok f.a && b.ok f.b && c.ok f.c
/-- The register fields of an X form lie in their files (R85). -/
def XForm.shape (f : XForm) (d a b c : FileKind) : Bool := d.ok f.d && a.ok f.a && b.ok f.b && c.ok f.c
/-- The register fields of a C form lie in their files (R80, R85); the all-zero parcel is no instruction (R88). -/
def CForm.shape (f : CForm) (d a b : FileKind) : Bool := d.ok f.d && a.ok f.a && b.ok f.b

/-- The check of R88's last line for each instruction; an event has no encoding and nothing to check. DEDUCED (log entry 58): the edge
text of R124 calls a nonzero fmt on sprnd, spld and spst illegal, while R121 gives sprnd the formats 0 to 8 and R122 puts the immediate of
spld and spst over those bits; the check follows R121 and R122. -/
def fieldsOk : Instr → Bool
  | .moduleReset .. => true
  | .imageLoad .. => true
  | .illegalPattern .. => true
  | .dispatch .. => true
  | .signalArrival .. => true
  | .allocationRequest .. => true
  | .armingRequest .. => true
  | .freeRequest .. => true
  | .stfRequest .. => true
  | .ldfRequest .. => true
  | .replyArrival .. => true
  | .spilledRequestApply .. => true
  | .fill .. => true
  | .writeBackStart .. => true
  | .writeBackComplete .. => true
  | .matrixCommandStart .. => true
  | .matrixCommandFinish .. => true
  | .mdrainRow .. => true
  | .mrotTileLands .. => true
  | .landingMove .. => true
  | .portWordArrival .. => true
  | .ldrmRequest .. => true
  | .strmRequest .. => true
  | .atomicRequest .. => true
  | .ringRequest .. => true
  | .fenceRelease .. => true
  | .releaseSignalSend .. => true
  | .walkStart .. => true
  | .walkTranslation .. => true
  | .walkMove .. => true
  | .dimensionEndSignal .. => true
  | .finalSignal .. => true
  | .twcanComplete .. => true
  | .stepdDone .. => true
  | .stepAdvance .. => true
  | .stepNotice .. => true
  | .ldstRequest .. => true
  | .stepqRequest .. => true
  | .stepRequestResend .. => true
  | .sqtabServe .. => true
  | .sqinitServe .. => true
  | .sqstepServe .. => true
  | .sqstageServe .. => true
  | .sqrdServe .. => true
  | .stageFormed .. => true
  | .stepDecision .. => true
  | .launchRequest .. => true
  | .instanceStart .. => true
  | .launchMulticast .. => true
  | .instanceEnd .. => true
  | .creditLend .. => true
  | .gqueryRequest .. => true
  | .gcanRequest .. => true
  | .subqBase .. => true
  | .subqLog .. => true
  | .subqTail .. => true
  | .submissionEntryRead .. => true
  | .forecast .. => true
  | .telemetryUpdate .. => true
  | .placementEntryWrite .. => true
  | .spillFrames .. => true
  | .spillBase .. => true
  | .migGo .. => true
  | .migrationComplete .. => true
  | .commit .. => true
  | .drainMessage .. => true
  | .clearingComplete .. => true
  | .preempt .. => true
  | .resume .. => true
  | .coreSave .. => true
  | .savedPacketApply .. => true
  | .coreRestore .. => true
  | .ordArm .. => true
  | .ordAddr .. => true
  | .ordN .. => true
  | .orderedReductionRequest .. => true
  | .faBase .. => true
  | .faLog .. => true
  | .faultRecordWrite .. => true
  | .snapTrig .. => true
  | .snapshotTriggerArrival .. => true
  | .snapComplete .. => true
  | .mgCmdLoad .. => true
  | .mgCmdActivate .. => true
  | .mgCmdFloor .. => true
  | .mgCmdQuote .. => true
  | .freitCommandDone .. => true
  | .portEntryWrite .. => true
  | .opticalLinkState .. => true
  | .peerReplicaWrite .. => true
  | .replicaWriteApply .. => true
  | .hostWrite .. => true
  | .hostRead .. => true
  | .cellGate .. => true
  | .cellWake .. => true
  | .quiescence .. => true
  | .thermalTrip .. => true
  | .coreReset .. => true
  | .packetRefused .. => true
  | .uncorrectableError .. => true
  | .routerHop .. => true
  | .linkFlitSend .. => true
  | .crossbarGrant .. => true
  | .hbmRequestStart .. => true
  | .spliceEgressEnter .. => true
  | .spliceIngressDeliver .. => true
  | .mergedAtomicApply .. => true
  | .mergedReplySplit .. => true
  | .registerWrite .. => true
  | .addC f => f.shape .sd .s .s && !(f.d == 0 && f.a == 0 && f.b == 0)
  | .add f => f.shape .sd .s .s .zero && f.ord == 0 && decide (f.sub = 0)
  | .subC f => f.shape .sd .s .s
  | .sub f => f.shape .sd .s .s .zero && f.ord == 0 && decide (f.sub = 0)
  | .mul f => f.shape .sd .s .s .zero && f.ord == 0 && decide (f.sub = 0)
  | .mulh f => f.shape .sd .s .s .zero && f.ord == 0 && decide (f.sub = 0)
  | .mulhu f => f.shape .sd .s .s .zero && f.ord == 0 && decide (f.sub = 0)
  | .div f => f.shape .sd .s .s .zero && f.ord == 0 && decide (f.sub = 0)
  | .divu f => f.shape .sd .s .s .zero && f.ord == 0 && decide (f.sub = 0)
  | .rem f => f.shape .sd .s .s .zero && f.ord == 0 && decide (f.sub = 0)
  | .remu f => f.shape .sd .s .s .zero && f.ord == 0 && decide (f.sub = 0)
  | .andC f => f.shape .sd .s .s
  | .and f => f.shape .sd .s .s .zero && f.ord == 0 && decide (f.sub = 0)
  | .orC f => f.shape .sd .s .s
  | .or f => f.shape .sd .s .s .zero && f.ord == 0 && decide (f.sub = 0)
  | .xorC f => f.shape .sd .s .s
  | .xor f => f.shape .sd .s .s .zero && f.ord == 0 && decide (f.sub = 0)
  | .andn f => f.shape .sd .s .s .zero && f.ord == 0 && decide (f.sub = 0)
  | .shlC f => f.shape .sd .s .s
  | .shl f => f.shape .sd .s .s .zero && f.ord == 0 && decide (f.sub = 0)
  | .shrC f => f.shape .sd .s .s
  | .shr f => f.shape .sd .s .s .zero && f.ord == 0 && decide (f.sub = 0)
  | .sarC f => f.shape .sd .s .s
  | .sar f => f.shape .sd .s .s .zero && f.ord == 0 && decide (f.sub = 0)
  | .rol f => f.shape .sd .s .s .zero && f.ord == 0 && decide (f.sub = 0)
  | .min f => f.shape .sd .s .s .zero && f.ord == 0 && decide (f.sub = 0)
  | .max f => f.shape .sd .s .s .zero && f.ord == 0 && decide (f.sub = 0)
  | .minu f => f.shape .sd .s .s .zero && f.ord == 0 && decide (f.sub = 0)
  | .maxu f => f.shape .sd .s .s .zero && f.ord == 0 && decide (f.sub = 0)
  | .addi f => f.shape .sd .s .zero .zero && f.ord == 0
  | .addiX f => f.shape .sd .s .zero .zero && f.ord == 0
  | .andi f => f.shape .sd .s .zero .zero && f.ord == 0
  | .andiX f => f.shape .sd .s .zero .zero && f.ord == 0
  | .ori f => f.shape .sd .s .zero .zero && f.ord == 0
  | .oriX f => f.shape .sd .s .zero .zero && f.ord == 0
  | .xori f => f.shape .sd .s .zero .zero && f.ord == 0
  | .xoriX f => f.shape .sd .s .zero .zero && f.ord == 0
  | .shli f => f.shape .sd .s .zero .zero && f.ord == 0 && decide (f.sub.toNat ≤ 63)
  | .shliX f => f.shape .sd .s .zero .zero && f.ord == 0 && decide (f.lit.toNat ≤ 63)
  | .shri f => f.shape .sd .s .zero .zero && f.ord == 0 && decide (f.sub.toNat ≤ 63)
  | .shriX f => f.shape .sd .s .zero .zero && f.ord == 0 && decide (f.lit.toNat ≤ 63)
  | .sari f => f.shape .sd .s .zero .zero && f.ord == 0 && decide (f.sub.toNat ≤ 63)
  | .sariX f => f.shape .sd .s .zero .zero && f.ord == 0 && decide (f.lit.toNat ≤ 63)
  | .muli f => f.shape .sd .s .zero .zero && f.ord == 0
  | .muliX f => f.shape .sd .s .zero .zero && f.ord == 0
  | .clz f => f.shape .sd .s .zero .zero && f.ord == 0 && decide (f.sub = 0)
  | .ctz f => f.shape .sd .s .zero .zero && f.ord == 0 && decide (f.sub = 0)
  | .popc f => f.shape .sd .s .zero .zero && f.ord == 0 && decide (f.sub = 0)
  | .brev f => f.shape .sd .s .zero .zero && f.ord == 0 && decide (f.sub = 0)
  | .bext f => f.shape .sd .s .zero .zero && f.ord == 0 && decide (f.pos + f.len ≤ 64 ∧ f.fld 26 6 = 0)
  | .bins f => f.shape .sd .s .zero .zero && f.ord == 0 && decide (f.pos + f.len ≤ 64 ∧ f.fld 26 6 = 0)
  | .sext f => f.shape .sd .s .zero .zero && f.ord == 0 && decide (f.fld 20 12 = 0)
  | .zext f => f.shape .sd .s .zero .zero && f.ord == 0 && decide (f.fld 20 12 = 0)
  | .cmp f => f.shape .p .s .s .any && f.ord == 0 && decide (f.c.toNat ≤ 9 ∧ f.sub = 0)
  | .cmpi f => f.shape .p .s .zero .any && f.ord == 0 && decide (f.c.toNat ≤ 9)
  | .cmpiX f => f.shape .p .s .zero .any && f.ord == 0 && decide (f.c.toNat ≤ 9)
  | .pand f => f.shape .p .p .p .zero && f.ord == 0 && decide (f.sub = 0)
  | .por f => f.shape .p .p .p .zero && f.ord == 0 && decide (f.sub = 0)
  | .pxor f => f.shape .p .p .p .zero && f.ord == 0 && decide (f.sub = 0)
  | .pnot f => f.shape .p .p .zero .zero && f.ord == 0 && decide (f.sub = 0)
  | .pset f => f.shape .zero .s .zero .zero && f.ord == 0 && decide (f.sub = 0)
  | .pget f => f.shape .sd .zero .zero .zero && f.ord == 0 && decide (f.sub = 0)
  | .sel f => f.shape .sd .s .s .p && f.ord == 0 && decide (f.sub = 0)
  | .lea f => f.shape .sd .s .s .p && f.ord == 0
  | .leaX f => f.shape .sd .s .s .p && f.ord == 0
  | .nopC f => f.shape .zero .zero .zero
  | .nop f => f.shape .zero .zero .zero .zero && f.ord == 0 && decide (f.sub = 0)
  | .hint f => f.shape .zero .zero .zero .zero && f.ord == 0
  | .hintX f => f.shape .zero .zero .zero .zero && f.ord == 0
  | .rdcyc f => f.shape .sd .zero .zero .zero && f.ord == 0 && decide (f.sub = 0)
  | .rdcnt f => f.shape .sd .zero .zero .zero && f.ord == 0 && decide (f.fld 14 4 ≤ 2 ∧ (f.fld 18 1 = 1 → f.fld 14 4 = 0) ∧ f.fld 19 13 = 0)
  | .br f => f.shape .zero .zero .zero .zero && f.ord == 0
  | .brX f => f.shape .zero .zero .zero .zero && f.ord == 0
  | .brx f => f.shape .zero .s .zero .zero && f.ord == 0 && decide (f.sub = 0)
  | .call f => f.shape .zero .zero .zero .zero && f.ord == 0
  | .callX f => f.shape .zero .zero .zero .zero && f.ord == 0
  | .ret f => f.shape .zero .zero .zero .zero && f.ord == 0 && decide (f.sub = 0)
  | .endC f => f.shape .zero .zero .zero
  | .endW f => f.shape .zero .zero .zero .zero && f.ord == 0 && decide (f.sub = 0)
  | .fadd f => f.shape .sd .s .s .zero && f.ord == 0 && decide (f.fld 16 16 = 0)
  | .fsub f => f.shape .sd .s .s .zero && f.ord == 0 && decide (f.fld 16 16 = 0)
  | .fmul f => f.shape .sd .s .s .zero && f.ord == 0 && decide (f.fld 16 16 = 0)
  | .ffma f => f.shape .sd .s .s .s && f.ord == 0 && decide (f.fld 16 16 = 0)
  | .fdiv f => f.shape .sd .s .s .zero && f.ord == 0 && decide (f.fld 16 16 = 0)
  | .fsqrt f => f.shape .sd .s .zero .zero && f.ord == 0 && decide (f.fld 16 16 = 0)
  | .fmin f => f.shape .sd .s .s .zero && f.ord == 0 && decide (f.sub = 0)
  | .fmax f => f.shape .sd .s .s .zero && f.ord == 0 && decide (f.sub = 0)
  | .fabs f => f.shape .sd .s .zero .zero && f.ord == 0 && decide (f.sub = 0)
  | .fneg f => f.shape .sd .s .zero .zero && f.ord == 0 && decide (f.sub = 0)
  | .fcmp f => f.shape .p .s .s .any && f.ord == 0 && decide (f.c.toNat ≤ 6 ∧ f.sub = 0)
  | .fclass f => f.shape .sd .s .zero .zero && f.ord == 0 && decide (f.sub = 0)
  | .tadd f => f.shape .sd .s .s .zero && f.ord == 0 && decide (f.fld 14 2 ≤ 2 ∧ f.fld 16 16 = 0)
  | .tsub f => f.shape .sd .s .s .zero && f.ord == 0 && decide (f.fld 14 2 ≤ 2 ∧ f.fld 16 16 = 0)
  | .tmul f => f.shape .sd .s .s .zero && f.ord == 0 && decide (f.fld 14 2 ≤ 2 ∧ f.fld 16 16 = 0)
  | .tfma f => f.shape .sd .s .s .s && f.ord == 0 && decide (f.fld 14 2 ≤ 2 ∧ f.fld 16 16 = 0)
  | .tdiv f => f.shape .sd .s .s .zero && f.ord == 0 && decide (f.fld 14 2 ≤ 2 ∧ f.fld 16 16 = 0)
  | .tsqrt f => f.shape .sd .s .zero .zero && f.ord == 0 && decide (f.fld 14 2 ≤ 2 ∧ f.fld 16 16 = 0)
  | .tmin f => f.shape .sd .s .s .zero && f.ord == 0 && decide (f.fld 14 2 ≤ 2 ∧ f.fld 16 16 = 0)
  | .tmax f => f.shape .sd .s .s .zero && f.ord == 0 && decide (f.fld 14 2 ≤ 2 ∧ f.fld 16 16 = 0)
  | .tabs f => f.shape .sd .s .zero .zero && f.ord == 0 && decide (f.fld 14 2 ≤ 2 ∧ f.fld 16 16 = 0)
  | .tneg f => f.shape .sd .s .zero .zero && f.ord == 0 && decide (f.fld 14 2 ≤ 2 ∧ f.fld 16 16 = 0)
  | .tcmp f => f.shape .p .s .s .any && f.ord == 0 && decide (f.c.toNat ≤ 5 ∧ f.fld 14 2 ≤ 2 ∧ f.fld 16 16 = 0)
  | .spz f => f.shape .q .zero .zero .zero && f.ord == 0 && decide (f.sub = 0)
  | .spfma f => f.shape .q .s .s .zero && f.ord == 0 && decide (f.fmt ≤ 13 ∧ f.fld 18 14 = 0)
  | .spfms f => f.shape .q .s .s .zero && f.ord == 0 && decide (f.fmt ≤ 13 ∧ f.fld 18 14 = 0)
  | .spadd f => f.shape .q .any .zero .zero && f.ord == 0 && decide (f.fld 18 14 = 0 ∧ (f.fmt ≤ 13 ∨ (f.fmt = 15 ∧ FileKind.ok .q f.a = true)))
  | .spsub f => f.shape .q .any .zero .zero && f.ord == 0 && decide (f.fld 18 14 = 0 ∧ (f.fmt ≤ 13 ∨ (f.fmt = 15 ∧ FileKind.ok .q f.a = true)))
  | .sprnd f => f.shape .sd .q .zero .zero && f.ord == 0 && decide (f.fmt ≤ 8 ∧ (isTapered f.fmt = true → f.fld 18 2 = 0) ∧ f.fld 20 12 = 0)
  | .spld f => f.shape .q .s .zero .zero
  | .spldX f => f.shape .q .s .zero .zero
  | .spst f => f.shape .q .s .zero .zero
  | .spstX f => f.shape .q .s .zero .zero
  | .cvt f => f.shape .sd .s .zero .zero && f.ord == 0 && decide (f.fmt ≤ 13 ∧ f.fld 18 4 ≤ 13 ∧ (takesRm f.fmt = false → f.fld 22 2 = 0) ∧ f.fld 24 8 = 0)
  | .lclaim f => f.shape .sd .zero .zero .zero && f.ord == 0 && decide (f.fld 14 3 ≤ 4 ∧ f.fld 17 15 = 0)
  | .lrel f => f.shape .zero .zero .zero .zero && f.ord == 0 && decide (f.sub = 0)
  | .lcount f => f.shape .sd .zero .zero .zero && f.ord == 0 && decide (f.fld 15 17 = 0)
  | .vadd f => f.shape .v .v (f.bKind) .zero && f.ord == 0 && decide (f.ew ≤ 2 ∧ f.uBit = false ∧ f.ep = 0 ∧ f.rm = 0 ∧ f.op = 0 ∧ f.fld 29 3 = 0)
  | .vsub f => f.shape .v .v (f.bKind) .zero && f.ord == 0 && decide (f.ew ≤ 2 ∧ f.uBit = false ∧ f.ep = 0 ∧ f.rm = 0 ∧ f.op = 0 ∧ f.fld 29 3 = 0)
  | .vmul f => f.shape .v .v (f.bKind) .zero && f.ord == 0 && decide (f.ew ≤ 2 ∧ f.uBit = false ∧ f.ep = 0 ∧ f.rm = 0 ∧ f.op = 0 ∧ f.fld 29 3 = 0)
  | .vmulh f => f.shape .v .v (f.bKind) .zero && f.ord == 0 && decide (f.ew ≤ 2 ∧ f.ep = 0 ∧ f.rm = 0 ∧ f.op = 0 ∧ f.fld 29 3 = 0)
  | .vmad f => f.shape .v .v (f.bKind) .zero && f.ord == 0 && decide (f.ew ≤ 2 ∧ f.uBit = false ∧ f.ep = 0 ∧ f.rm = 0 ∧ f.op = 0 ∧ f.fld 29 3 = 0)
  | .vmin f => f.shape .v .v (f.bKind) .zero && f.ord == 0 && decide (f.ew ≤ 2 ∧ f.ep = 0 ∧ f.rm = 0 ∧ f.op = 0 ∧ f.fld 29 3 = 0)
  | .vmax f => f.shape .v .v (f.bKind) .zero && f.ord == 0 && decide (f.ew ≤ 2 ∧ f.ep = 0 ∧ f.rm = 0 ∧ f.op = 0 ∧ f.fld 29 3 = 0)
  | .vabs f => f.shape .v .v .zero .zero && f.ord == 0 && decide (f.ew ≤ 2 ∧ f.uBit = false ∧ f.bs = false ∧ f.ep = 0 ∧ f.rm = 0 ∧ f.op = 0 ∧ f.fld 29 3 = 0)
  | .vand f => f.shape .v .v (f.bKind) .zero && f.ord == 0 && decide (f.ew ≤ 2 ∧ f.uBit = false ∧ f.ep = 0 ∧ f.rm = 0 ∧ f.op = 0 ∧ f.fld 29 3 = 0)
  | .vor f => f.shape .v .v (f.bKind) .zero && f.ord == 0 && decide (f.ew ≤ 2 ∧ f.uBit = false ∧ f.ep = 0 ∧ f.rm = 0 ∧ f.op = 0 ∧ f.fld 29 3 = 0)
  | .vxor f => f.shape .v .v (f.bKind) .zero && f.ord == 0 && decide (f.ew ≤ 2 ∧ f.uBit = false ∧ f.ep = 0 ∧ f.rm = 0 ∧ f.op = 0 ∧ f.fld 29 3 = 0)
  | .vshl f => f.shape .v .v (f.bKind) .zero && f.ord == 0 && decide (f.ew ≤ 2 ∧ f.uBit = false ∧ f.ep = 0 ∧ f.rm = 0 ∧ f.op = 0 ∧ f.fld 29 3 = 0)
  | .vshr f => f.shape .v .v (f.bKind) .zero && f.ord == 0 && decide (f.ew ≤ 2 ∧ f.uBit = false ∧ f.ep = 0 ∧ f.rm = 0 ∧ f.op = 0 ∧ f.fld 29 3 = 0)
  | .vsar f => f.shape .v .v (f.bKind) .zero && f.ord == 0 && decide (f.ew ≤ 2 ∧ f.uBit = false ∧ f.ep = 0 ∧ f.rm = 0 ∧ f.op = 0 ∧ f.fld 29 3 = 0)
  | .vrshr f => f.shape .v .v (f.bKind) .zero && f.ord == 0 && decide (f.ew ≤ 2 ∧ f.ep = 0 ∧ f.rm = 0 ∧ f.op = 0 ∧ f.fld 29 3 = 0)
  | .vsat f => f.shape .v .v .zero .any && f.ord == 0 && decide (f.ew ≤ 2 ∧ f.bs = false ∧ f.ep = 0 ∧ f.rm = 0 ∧ f.op = 0 ∧ f.fld 29 3 = 0 ∧ 1 ≤ f.c.toNat ∧ f.c.toNat ≤ f.width)
  | .vclamp f => f.shape .v .v (f.bKind) .v && f.ord == 0 && decide (f.ew ≤ 2 ∧ f.ep = 0 ∧ f.rm = 0 ∧ f.op = 0 ∧ f.fld 29 3 = 0)
  | .vdot4 f => f.shape .v .v (f.bKind) .zero && f.ord == 0 && decide (f.ew = 0 ∧ f.ep = 0 ∧ f.rm = 0 ∧ f.op ≤ 1 ∧ f.fld 29 3 = 0)
  | .vdot2 f => f.shape .v .v (f.bKind) .zero && f.ord == 0 && decide (f.ew = 0 ∧ f.ep = 0 ∧ f.rm = 0 ∧ f.op ≤ 1 ∧ f.fld 29 3 = 0)
  | .vfadd f => f.shape .v .v (f.bKind) .zero && f.ord == 0 && decide (f.ew = 0 ∧ f.uBit = false ∧ f.ep = 0 ∧ f.op = 0 ∧ f.fld 29 3 = 0)
  | .vfsub f => f.shape .v .v (f.bKind) .zero && f.ord == 0 && decide (f.ew = 0 ∧ f.uBit = false ∧ f.ep = 0 ∧ f.op = 0 ∧ f.fld 29 3 = 0)
  | .vfmul f => f.shape .v .v (f.bKind) .zero && f.ord == 0 && decide (f.ew = 0 ∧ f.uBit = false ∧ f.ep = 0 ∧ f.op = 0 ∧ f.fld 29 3 = 0)
  | .vffma f => f.shape .v .v (f.bKind) .v && f.ord == 0 && decide (f.ew = 0 ∧ f.uBit = false ∧ f.ep = 0 ∧ f.op = 0 ∧ f.fld 29 3 = 0)
  | .vfmin f => f.shape .v .v (f.bKind) .zero && f.ord == 0 && decide (f.ew = 0 ∧ f.uBit = false ∧ f.ep = 0 ∧ f.rm = 0 ∧ f.op = 0 ∧ f.fld 29 3 = 0)
  | .vfmax f => f.shape .v .v (f.bKind) .zero && f.ord == 0 && decide (f.ew = 0 ∧ f.uBit = false ∧ f.ep = 0 ∧ f.rm = 0 ∧ f.op = 0 ∧ f.fld 29 3 = 0)
  | .vfabs f => f.shape .v .v .zero .zero && f.ord == 0 && decide (f.ew = 0 ∧ f.uBit = false ∧ f.bs = false ∧ f.ep = 0 ∧ f.rm = 0 ∧ f.op = 0 ∧ f.fld 29 3 = 0)
  | .vfneg f => f.shape .v .v .zero .zero && f.ord == 0 && decide (f.ew = 0 ∧ f.uBit = false ∧ f.bs = false ∧ f.ep = 0 ∧ f.rm = 0 ∧ f.op = 0 ∧ f.fld 29 3 = 0)
  | .vexp2 f => f.shape .v .v .zero .zero && f.ord == 0 && decide (f.ew = 0 ∧ f.uBit = false ∧ f.bs = false ∧ f.ep = 0 ∧ f.op = 0 ∧ f.fld 29 3 = 0)
  | .vlog2 f => f.shape .v .v .zero .zero && f.ord == 0 && decide (f.ew = 0 ∧ f.uBit = false ∧ f.bs = false ∧ f.ep = 0 ∧ f.op = 0 ∧ f.fld 29 3 = 0)
  | .vrcp f => f.shape .v .v .zero .zero && f.ord == 0 && decide (f.ew = 0 ∧ f.uBit = false ∧ f.bs = false ∧ f.ep = 0 ∧ f.op = 0 ∧ f.fld 29 3 = 0)
  | .vrsqrt f => f.shape .v .v .zero .zero && f.ord == 0 && decide (f.ew = 0 ∧ f.uBit = false ∧ f.bs = false ∧ f.ep = 0 ∧ f.op = 0 ∧ f.fld 29 3 = 0)
  | .vsqrt f => f.shape .v .v .zero .zero && f.ord == 0 && decide (f.ew = 0 ∧ f.uBit = false ∧ f.bs = false ∧ f.ep = 0 ∧ f.op = 0 ∧ f.fld 29 3 = 0)
  | .vdiv f => f.shape .v .v (f.bKind) .zero && f.ord == 0 && decide (f.ew = 0 ∧ f.uBit = false ∧ f.ep = 0 ∧ f.op = 0 ∧ f.fld 29 3 = 0)
  | .vtadd f => f.shape .v .v (f.bKind) .zero && f.ord == 0 && decide (f.ew ≤ 2 ∧ f.uBit = false ∧ f.ep = 0 ∧ f.rm = 0 ∧ f.op = 0 ∧ f.fld 29 3 = 0)
  | .vtsub f => f.shape .v .v (f.bKind) .zero && f.ord == 0 && decide (f.ew ≤ 2 ∧ f.uBit = false ∧ f.ep = 0 ∧ f.rm = 0 ∧ f.op = 0 ∧ f.fld 29 3 = 0)
  | .vtmul f => f.shape .v .v (f.bKind) .zero && f.ord == 0 && decide (f.ew ≤ 2 ∧ f.uBit = false ∧ f.ep = 0 ∧ f.rm = 0 ∧ f.op = 0 ∧ f.fld 29 3 = 0)
  | .vtfma f => f.shape .v .v (f.bKind) .v && f.ord == 0 && decide (f.ew ≤ 2 ∧ f.uBit = false ∧ f.ep = 0 ∧ f.rm = 0 ∧ f.op = 0 ∧ f.fld 29 3 = 0)
  | .vtmin f => f.shape .v .v (f.bKind) .zero && f.ord == 0 && decide (f.ew ≤ 2 ∧ f.uBit = false ∧ f.ep = 0 ∧ f.rm = 0 ∧ f.op = 0 ∧ f.fld 29 3 = 0)
  | .vtmax f => f.shape .v .v (f.bKind) .zero && f.ord == 0 && decide (f.ew ≤ 2 ∧ f.uBit = false ∧ f.ep = 0 ∧ f.rm = 0 ∧ f.op = 0 ∧ f.fld 29 3 = 0)
  | .vspz f => f.shape .q .zero .zero .zero && f.ord == 0 && decide (f.ew = 0 ∧ f.uBit = false ∧ f.bs = false ∧ f.ep = 0 ∧ f.rm = 0 ∧ f.op = 0 ∧ f.fld 29 3 = 0)
  | .vspfma f => f.shape .q .v (f.bKind) .zero && f.ord == 0 && decide (f.ew = 0 ∧ f.uBit = false ∧ f.ep = 0 ∧ f.rm = 0 ∧ f.op ≤ 13 ∧ f.op ≠ 3 ∧ f.fld 29 3 = 0)
  | .vsprnd f => f.shape .v .q .zero .zero && f.ord == 0 && decide (f.ew = 0 ∧ f.uBit = false ∧ f.bs = false ∧ f.ep = 0 ∧ f.op ≤ 8 ∧ f.op ≠ 3 ∧ (isTapered f.op = true → f.rm = 0) ∧ f.fld 29 3 = 0)
  | .vcmp f => f.shape .p .v (f.bKind) .zero && f.ord == 0 && decide (f.ew = 0 ∧ f.uBit = false ∧ f.ep = 0 ∧ f.rm = 0 ∧ f.op ≤ 9 ∧ f.fld 29 3 = 0)
  | .vfcmp f => f.shape .p .v (f.bKind) .zero && f.ord == 0 && decide (f.ew = 0 ∧ f.uBit = false ∧ f.ep = 0 ∧ f.rm = 0 ∧ f.op ≤ 6 ∧ f.fld 29 3 = 0)
  | .vtcmp f => f.shape .p .v (f.bKind) .zero && f.ord == 0 && decide (f.ew ≤ 2 ∧ f.uBit = false ∧ f.ep = 0 ∧ f.rm = 0 ∧ f.op ≤ 5 ∧ f.fld 29 3 = 0)
  | .vsel f => f.shape .v .v (f.bKind) .p && f.ord == 0 && decide (f.ew = 0 ∧ f.uBit = false ∧ f.ep = 0 ∧ f.rm = 0 ∧ f.op = 0 ∧ f.fld 29 3 = 0)
  | .kand f => f.shape .p .p .p .zero && f.ord == 0 && decide (f.sub = 0)
  | .kor f => f.shape .p .p .p .zero && f.ord == 0 && decide (f.sub = 0)
  | .kxor f => f.shape .p .p .p .zero && f.ord == 0 && decide (f.sub = 0)
  | .knot f => f.shape .p .p .zero .zero && f.ord == 0 && decide (f.sub = 0)
  | .kset f => f.shape .p .s .zero .zero && f.ord == 0 && decide (f.sub = 0)
  | .kget f => f.shape .sd .p .zero .zero && f.ord == 0 && decide (f.sub = 0)
  | .vcvt f => f.shape .v .v .zero .any && f.ord == 0 && decide (f.ew = 0 ∧ vFmt f.vsrc = true ∧ vFmt f.vdst = true ∧ (takesRm f.vdst = false → f.rm = 0) ∧ f.fld 30 2 = 0 ∧ (f.sc = false → f.c = 0) ∧ (f.sc = true → (isMx f.vsrc || isMx f.vdst) = true))
  | .vpack f => f.shape .v .v .zero .zero && f.ord == 0 && decide (f.ew ≤ 2 ∧ f.q < 32 / f.packN ∧ f.fld 22 10 = 0)
  | .vunpack f => f.shape .v .v .zero .zero && f.ord == 0 && decide (f.ew ≤ 2 ∧ f.q < 32 / f.packN ∧ f.fld 23 9 = 0)
  | .vbcast f => f.shape .v .s .zero .zero && f.ord == 0 && decide (f.ew = 0 ∧ f.uBit = false ∧ f.bs = false ∧ f.ep = 0 ∧ f.rm = 0 ∧ f.op = 0 ∧ f.fld 29 3 = 0)
  | .vext f => f.shape .sd .v .s .any && f.ord == 0 && decide (f.ew = 0 ∧ f.uBit = false ∧ f.bs = true ∧ (f.ep = 0 ∨ f.ep = 2) ∧ f.rm = 0 ∧ f.op = 0 ∧ f.fld 29 3 = 0 ∧ (f.ep = 2 ∨ f.c = 0))
  | .vperm f => f.shape .v .v .v .any && f.ord == 0 && decide (f.ew = 0 ∧ f.uBit = false ∧ f.bs = false ∧ f.ep ≤ 2 ∧ f.rm = 0 ∧ f.op = 0 ∧ f.fld 29 3 = 0 ∧ (f.ep = 2 ∨ f.c = 0))
  | .vslide f => f.shape .v .v .s .any && f.ord == 0 && decide (f.ew = 0 ∧ f.uBit = false ∧ f.bs = true ∧ f.ep ≤ 2 ∧ f.rm = 0 ∧ f.op = 0 ∧ f.fld 29 3 = 0 ∧ (f.ep = 2 ∨ f.c = 0))
  | .vred f => f.shape .any .any .zero .any && f.ord == 0 && decide (f.ew = 0 ∧ f.uBit = false ∧ f.bs = false ∧ (f.ep = 0 ∨ f.ep = 2) ∧ f.op ≤ 11 ∧ (f.op ≠ 8 → f.rm = 0) ∧ (f.op = 11 → f.ep = 0) ∧ f.fld 29 3 = 0 ∧ (f.ep = 2 ∨ f.c = 0) ∧ FileKind.ok (if f.op = 11 then .q else .sd) f.d = true ∧ FileKind.ok (if f.op = 11 then .q else .v) f.a = true)
  | .vscan f => f.shape .v .v .zero .any && f.ord == 0 && decide (f.ew = 0 ∧ f.uBit = false ∧ f.bs = false ∧ f.ep ≤ 2 ∧ f.op ≤ 10 ∧ (f.op ≠ 8 → f.rm = 0) ∧ f.fld 29 3 = 0 ∧ (f.ep = 2 ∨ f.c = 0))
  | .vld f => f.shape .v .s .zero .p
  | .vldX f => f.shape .v .s .zero .p
  | .vst f => f.shape .v .s .zero .p
  | .vstX f => f.shape .v .s .zero .p
  | .vlds f => f.shape .v .s .s .p
  | .vldsX f => f.shape .v .s .s .p
  | .vsts f => f.shape .v .s .s .p
  | .vstsX f => f.shape .v .s .s .p
  | .vldx f => f.shape .v .s .v .p
  | .vldxX f => f.shape .v .s .v .p
  | .vstx f => f.shape .v .s .v .p
  | .vstxX f => f.shape .v .s .v .p
  | .mfmt f => f.shape .q .zero .zero .zero && f.ord == 0 && decide (f.fmt ≤ 8 ∧ f.fld 18 4 ≤ 8 ∧ f.fld 22 10 = 0)
  | .mscl f => f.shape .zero .s .zero .any && f.ord == 0 && decide (f.c.toNat ≤ 2)
  | .msclX f => f.shape .zero .s .zero .any && f.ord == 0 && decide (f.c.toNat ≤ 2)
  | .mlb f => f.shape .l .s .zero .s
  | .mlbX f => f.shape .l .s .zero .s
  | .mma f => f.shape .q .s .l .s
  | .mmaX f => f.shape .q .s .l .s
  | .mrot f => f.shape .l .zero .zero .s && f.ord == 0 && decide (f.sub = 0)
  | .mzero f => f.shape .q .zero .zero .zero && f.ord == 0 && decide (f.sub = 0)
  | .mdrain f => f.shape .q .s .zero .s && decide ((vFmt f.fmt = true ∧ f.fmt ≤ 8 ∨ f.fmt = 15) ∧ ((isTapered f.fmt || f.fmt == 15) = true → f.fld 18 2 = 0) ∧ f.row0 + f.rows ≤ 16 ∧ f.fld 30 2 = 0)
  | .mrow f => f.shape .v .q .s .p && f.ord == 0 && decide (vFmt f.fmt = true ∧ f.fmt ≤ 8 ∧ (isTapered f.fmt = true → f.fld 18 2 = 0) ∧ f.fld 20 12 = 0)
  | .falloc f => f.shape .s .s .s .s && f.ord == 0 && decide (10 ≤ f.ow ∧ f.fld 19 2 ≤ 2 ∧ f.fld 21 11 = 0)
  | .ffree f => f.shape .zero .s .zero .zero && f.ord == 0 && decide (f.sub = 0)
  | .sarm f => f.shape .zero .s .s .any && f.ord == 0 && decide (semScopeOk f.c = true ∧ f.fld 18 14 = 0)
  | .sig f => f.shape .zero .s .zero .any && f.ord == 0 && decide (semScopeOk f.c = true ∧ f.sub.msb = false)
  | .sigX f => f.shape .zero .s .zero .any && f.ord == 0 && decide (f.lit.msb = false ∧ semScopeOk f.c = true)
  | .sigv f => f.shape .zero .s .s .any && f.ord == 0 && decide (semScopeOk f.c = true ∧ f.sub = 0)
  | .sigb f => f.shape .s .s .s .any && f.ord == 0 && decide (semScopeOk f.c = true ∧ f.sub = 0)
  | .fire f => f.shape .zero .s .zero .any && f.ord == 0 && decide (semScopeOk f.c = true ∧ f.sub = 0)
  | .sget f => f.shape .sd .s .zero .zero && f.ord == 0 && decide (f.sub = 0)
  | .ldf f => f.shape .zero .s .zero .s && decide (10 ≤ f.ow ∧ 10 ≤ f.fld 19 5 ∧ f.fld 24 8 = 0)
  | .stf f => f.shape .zero .s .s .zero && decide (10 ≤ f.ow ∧ f.fld 19 13 = 0)
  | .rinit f => f.shape .s .s .s .s && decide (10 ≤ f.ow ∧ f.fld 20 4 ≤ 13 ∧ f.fld 24 8 = 0)
  | .racq f => f.shape .zero .s .zero .s && decide (10 ≤ f.ow ∧ f.fld 20 12 = 0)
  | .rcom f => f.shape .zero .s .zero .s && decide (10 ≤ f.ow ∧ f.fld 20 12 = 0)
  | .rpeek f => f.shape .zero .s .zero .s && decide (10 ≤ f.ow ∧ f.fld 20 12 = 0)
  | .rrel f => f.shape .zero .s .zero .s && decide (10 ≤ f.ow ∧ f.fld 20 12 = 0)
  | .ldC f => f.shape .sd .s .any
  | .ld f => f.shape .sd .s .zero .any && decide (f.c.toNat < 8 ∧ f.c.toNat ≠ 4)
  | .ldX f => f.shape .sd .s .zero .any && decide (f.c.toNat < 8 ∧ f.c.toNat ≠ 4)
  | .stC f => f.shape .s .s .any
  | .st f => f.shape .s .s .zero .any && decide (f.c.toNat < 4)
  | .stX f => f.shape .s .s .zero .any && decide (f.c.toNat < 4)
  | .ldrm f => f.shape .zero .s .zero .s && decide (10 ≤ f.ow ∧ ¬ (f.fld 21 1 = 1 ∧ f.fld 19 2 = 0) ∧ f.fld 22 10 = 0)
  | .strm f => f.shape .zero .s .s .s && decide (f.ow = 0 ∧ f.fld 21 1 = 0 ∧ f.fld 22 2 ≤ 1 ∧ f.fld 24 3 ≤ 5 ∧ f.fld 27 5 = 0)
  | .aadd f => f.shape .zero .s .s .s && decide ((f.ow = 0 ∨ 10 ≤ f.ow) ∧ f.fld 19 2 ≤ 1 ∧ f.fld 23 3 ≤ 5 ∧ f.fld 26 6 = 0)
  | .amin f => f.shape .zero .s .s .s && decide ((f.ow = 0 ∨ 10 ≤ f.ow) ∧ f.fld 19 2 ≤ 1 ∧ f.fld 23 3 ≤ 5 ∧ f.fld 26 6 = 0)
  | .amax f => f.shape .zero .s .s .s && decide ((f.ow = 0 ∨ 10 ≤ f.ow) ∧ f.fld 19 2 ≤ 1 ∧ f.fld 23 3 ≤ 5 ∧ f.fld 26 6 = 0)
  | .aminu f => f.shape .zero .s .s .s && decide ((f.ow = 0 ∨ 10 ≤ f.ow) ∧ f.fld 19 2 ≤ 1 ∧ f.fld 23 3 ≤ 5 ∧ f.fld 26 6 = 0)
  | .amaxu f => f.shape .zero .s .s .s && decide ((f.ow = 0 ∨ 10 ≤ f.ow) ∧ f.fld 19 2 ≤ 1 ∧ f.fld 23 3 ≤ 5 ∧ f.fld 26 6 = 0)
  | .aand f => f.shape .zero .s .s .s && decide ((f.ow = 0 ∨ 10 ≤ f.ow) ∧ f.fld 19 2 ≤ 1 ∧ f.fld 23 3 ≤ 5 ∧ f.fld 26 6 = 0)
  | .aor f => f.shape .zero .s .s .s && decide ((f.ow = 0 ∨ 10 ≤ f.ow) ∧ f.fld 19 2 ≤ 1 ∧ f.fld 23 3 ≤ 5 ∧ f.fld 26 6 = 0)
  | .axor f => f.shape .zero .s .s .s && decide ((f.ow = 0 ∨ 10 ≤ f.ow) ∧ f.fld 19 2 ≤ 1 ∧ f.fld 23 3 ≤ 5 ∧ f.fld 26 6 = 0)
  | .aswp f => f.shape .zero .s .s .s && decide ((f.ow = 0 ∨ 10 ≤ f.ow) ∧ f.fld 19 2 ≤ 1 ∧ f.fld 23 3 ≤ 5 ∧ f.fld 26 6 = 0)
  | .acas f => f.shape .s .s .s .s && decide ((f.ow = 0 ∨ 10 ≤ f.ow) ∧ f.fld 19 2 ≤ 1 ∧ f.fld 23 3 ≤ 5 ∧ f.fld 26 6 = 0)
  | .afadd f => f.shape .zero .s .s .s && decide ((f.ow = 0 ∨ 10 ≤ f.ow) ∧ f.fld 19 2 = 1 ∧ f.fld 23 3 ≤ 5 ∧ f.fld 26 6 = 0)
  | .aspadd f => f.shape .zero .s .q .s && decide (f.ow = 0 ∧ f.fld 19 2 = 0 ∧ f.fld 23 3 ≤ 5 ∧ f.fld 26 6 = 0)
  | .fence f => f.shape .zero .zero .zero .zero && f.ord == 0 && decide (f.fld 14 3 ≤ 5 ∧ f.fld 17 15 = 0)
  | .twld f => f.shape .zero .s .s .s && decide (f.sub = 0)
  | .twst f => f.shape .zero .s .s .s && decide (f.sub = 0)
  | .twmc f => f.shape .s .s .s .s && decide (f.sub = 0)
  | .twg f => f.shape .any .s .s .s && decide (1 ≤ f.d.toNat ∧ f.d.toNat + f.ow ≤ 55 ∧ f.fld 19 13 = 0)
  | .tws f => f.shape .any .s .s .s && decide (1 ≤ f.d.toNat ∧ f.d.toNat + f.ow ≤ 55 ∧ f.fld 19 13 = 0)
  | .twq f => f.shape .zero .s .s .s && decide (f.sub = 0)
  | .twcan f => f.shape .zero .s .zero .s && f.ord == 0 && decide (10 ≤ f.ow ∧ f.fld 19 13 = 0)
  | .stepd f => f.shape .zero .zero .zero .zero && f.ord == 0 && decide (f.sub = 0)
  | .ldst f => f.shape .zero .s .s .s && decide (10 ≤ f.ow ∧ ¬ (f.fld 21 1 = 1 ∧ f.fld 19 2 = 0) ∧ f.fld 22 4 ≤ 13 ∧ f.fld 26 6 = 0)
  | .stepq f => f.shape .zero .s .s .s && f.ord == 0 && decide (10 ≤ f.ow ∧ f.fld 19 13 = 0)
  | .sqtab f => f.shape .zero .s .zero .s && f.ord == 0 && decide (f.sub = 0)
  | .sqinit f => f.shape .zero .s .s .s && f.ord == 0 && decide (f.sub = 0)
  | .sqstage f => f.shape .zero .zero .s .zero && f.ord == 0 && decide (f.fld 14 3 ≤ 6 ∧ f.fld 17 15 = 0)
  | .sqstep f => f.shape .zero .zero .s .zero && f.ord == 0 && decide (f.sub = 0)
  | .sqrd f => f.shape .zero .zero .s .s && f.ord == 0 && decide (10 ≤ f.ow ∧ f.fld 19 4 ≤ 8 ∧ f.fld 23 9 = 0)
  | .glaunch f => f.shape .sd .s .zero .s && f.ord == 0 && decide (f.fld 17 15 = 0)
  | .gquery f => f.shape .zero .s .zero .s && f.ord == 0 && decide (10 ≤ f.ow ∧ f.fld 19 13 = 0)
  | .gcan f => f.shape .zero .s .zero .s && f.ord == 0 && decide (10 ≤ f.ow ∧ f.fld 19 13 = 0)
  | .sysr f => f.shape .sd .zero .zero .zero && f.ord == 0 && decide (sysReadable (f.fld 14 12) = true ∧ f.fld 26 6 = 0)
  | .sysw f => f.shape .zero .s .zero .zero && f.ord == 0 && decide (sysWritable (f.fld 14 12) = true ∧ f.fld 26 6 = 0)
  | .trap f => f.shape .zero .zero .zero .zero && f.ord == 0 && decide (f.sub.msb = false)
  | .trapX f => f.shape .zero .zero .zero .zero && f.ord == 0 && decide (f.lit.msb = false)
  | .brk f => f.shape .zero .s .s .zero && f.ord == 0 && decide (f.sub = 0)
  | .snap f => f.shape .zero .zero .zero .s && f.ord == 0 && decide ((f.ow = 0 ∨ 10 ≤ f.ow) ∧ f.fld 19 13 = 0)
  | .clockPinned .. => true
  | .softError .. => true
  | .fillComplete .. => true

end Sys2Proof
end

