-- ==== Sys2Proof/WellFormed.lean ====
section
/-! DEFINITION. Well-formed instructions: the fields pass the check that decoding makes (R80, R84, R85, R88). -/

namespace Sys2Proof

/-- An instruction whose fields its entry accepts. -/
abbrev WellFormed (i : Instr) : Prop := fieldsOk i = true

end Sys2Proof
end

