-- ==== Sys2Proof/Decode.lean ====
section
/-! DEFINITION. From the bytes of the code store to instructions and back (R76 to R88): the opcode map of R86, the decode
procedure of R88, total on any bytes, and the encoder. -/

namespace Sys2Proof

/-- Why a bit pattern is not an instruction (R88): the code of the fault that ends the firing. -/
inductive DecodeError where
  /-- code 0x02: parcel 0 is zero -/
  | zero
  /-- code 0x01 -/
  | illegal
deriving DecidableEq, Repr

/-- The fault code of a decoding failure (R88, R359). -/
def DecodeError.code : DecodeError → BitVec 8
  | .zero => 0x02
  | .illegal => 0x01

/-- R86: the W-form instructions of a major, in the order of their minors. A reserved major (R87) has none. (This and what
calls it is marked noncomputable only because the runtime, not the kernel, limits the number of constructors with fields.) -/
noncomputable def wMinors : Nat → List (WForm → Instr)
  | 0x00 => [.add, .sub, .mul, .mulh, .mulhu, .div, .divu, .rem, .remu, .and, .or, .xor, .andn, .shl, .shr, .sar, .rol, .min,
     .max, .minu, .maxu]
  | 0x01 => [.addi, .andi, .ori, .xori, .shli, .shri, .sari, .muli]
  | 0x02 => [.clz, .ctz, .popc, .brev, .bext, .bins, .sext, .zext]
  | 0x03 => [.cmp, .cmpi]
  | 0x04 => [.pand, .por, .pxor, .pnot, .pset, .pget]
  | 0x05 => [.sel, .lea]
  | 0x06 => [.nop, .hint, .rdcyc, .rdcnt]
  | 0x07 => [.br, .brx, .call, .ret, .endW]
  | 0x10 => [.fadd, .fsub, .fmul, .ffma, .fdiv, .fsqrt, .fmin, .fmax, .fabs, .fneg, .fcmp, .fclass]
  | 0x11 => [.tadd, .tsub, .tmul, .tfma, .tdiv, .tsqrt, .tmin, .tmax, .tabs, .tneg, .tcmp]
  | 0x12 => [.spz, .spfma, .spfms, .spadd, .spsub, .sprnd, .spld, .spst]
  | 0x13 => [.cvt]
  | 0x18 => [.lclaim, .lrel, .lcount]
  | 0x19 => [.vadd, .vsub, .vmul, .vmulh, .vmad, .vmin, .vmax, .vabs, .vand, .vor, .vxor, .vshl, .vshr, .vsar, .vrshr, .vsat,
     .vclamp, .vdot4, .vdot2]
  | 0x1A => [.vfadd, .vfsub, .vfmul, .vffma, .vfmin, .vfmax, .vfabs, .vfneg, .vexp2, .vlog2, .vrcp, .vrsqrt, .vsqrt, .vdiv]
  | 0x1B => [.vtadd, .vtsub, .vtmul, .vtfma, .vtmin, .vtmax, .vspz, .vspfma, .vsprnd]
  | 0x1C => [.vcmp, .vfcmp, .vtcmp, .vsel, .kand, .kor, .kxor, .knot, .kset, .kget]
  | 0x1D => [.vcvt, .vpack, .vunpack]
  | 0x1E => [.vbcast, .vext, .vperm, .vslide, .vred, .vscan]
  | 0x1F => [.vld, .vst, .vlds, .vsts, .vldx, .vstx]
  | 0x28 => [.mfmt, .mscl, .mlb, .mma, .mrot, .mzero, .mdrain, .mrow]
  | 0x2C => [.falloc, .ffree, .sarm, .sig, .sigv, .sigb, .fire, .sget, .ldf, .stf]
  | 0x2D => [.rinit, .racq, .rcom, .rpeek, .rrel]
  | 0x30 => [.ld, .st]
  | 0x31 => [.ldrm, .strm]
  | 0x32 => [.aadd, .amin, .amax, .aminu, .amaxu, .aand, .aor, .axor, .aswp, .acas, .afadd, .aspadd]
  | 0x33 => [.fence]
  | 0x34 => [.twld, .twst, .twmc, .twg, .tws, .twq, .twcan]
  | 0x38 => [.stepd, .ldst, .stepq]
  | 0x39 => [.sqtab, .sqinit, .sqstage, .sqstep, .sqrd]
  | 0x3C => [.glaunch, .gquery, .gcan]
  | 0x3E => [.sysr, .sysw, .trap, .brk, .snap]
  | _ => []

/-- The X-form instruction at a major and minor: only instructions with an immediate have one (R79, R84). -/
noncomputable def xInstr : Nat → Nat → Option (XForm → Instr)
  | 0x01, 0 => some .addiX
  | 0x01, 1 => some .andiX
  | 0x01, 2 => some .oriX
  | 0x01, 3 => some .xoriX
  | 0x01, 4 => some .shliX
  | 0x01, 5 => some .shriX
  | 0x01, 6 => some .sariX
  | 0x01, 7 => some .muliX
  | 0x03, 1 => some .cmpiX
  | 0x05, 1 => some .leaX
  | 0x06, 1 => some .hintX
  | 0x07, 0 => some .brX
  | 0x07, 2 => some .callX
  | 0x12, 6 => some .spldX
  | 0x12, 7 => some .spstX
  | 0x1F, 0 => some .vldX
  | 0x1F, 1 => some .vstX
  | 0x1F, 2 => some .vldsX
  | 0x1F, 3 => some .vstsX
  | 0x1F, 4 => some .vldxX
  | 0x1F, 5 => some .vstxX
  | 0x28, 1 => some .msclX
  | 0x28, 2 => some .mlbX
  | 0x28, 3 => some .mmaX
  | 0x2C, 3 => some .sigX
  | 0x30, 0 => some .ldX
  | 0x30, 1 => some .stX
  | 0x3E, 2 => some .trapX
  | _, _ => none

/-- The C-form instruction at a major and minor (R80). -/
noncomputable def cInstr : Nat → Nat → Option (CForm → Instr)
  | 0x00, 0 => some .addC
  | 0x00, 1 => some .subC
  | 0x00, 9 => some .andC
  | 0x00, 10 => some .orC
  | 0x00, 11 => some .xorC
  | 0x00, 13 => some .shlC
  | 0x00, 14 => some .shrC
  | 0x00, 15 => some .sarC
  | 0x06, 0 => some .nopC
  | 0x07, 4 => some .endC
  | 0x30, 0 => some .ldC
  | 0x30, 1 => some .stC
  | _, _ => none

/-- R82: the instructions that take an order class, by major. -/
def takesOrder (major minor : Nat) : Bool :=
  match major with
  | 0x12 => minor == 6 || minor == 7
  | 0x1F => true
  | 0x28 => minor == 2 || minor == 3 || minor == 6
  | 0x2C => minor == 8 || minor == 9
  | 0x2D => true
  | 0x30 => true
  | 0x31 => true
  | 0x32 => true
  | 0x34 => decide (minor ≤ 5)
  | 0x38 => minor == 1
  | _ => false

/-- A major of R86. -/
noncomputable def assignedMajor (major : Nat) : Bool := !(wMinors major).isEmpty

/-- Field L of parcel 0 (R76). -/
def formOf (q0 : Parcel) : BitVec 2 := q0.extractLsb' 0 2
/-- The major opcode (R76). -/
def majorOf (q0 : Parcel) : Nat := (q0.extractLsb' 2 6).toNat
/-- The minor number (R76). -/
def minorOf (q0 : Parcel) : Nat := (q0.extractLsb' 26 6).toNat

/-- The fields of parcel 0 (R76). -/
def cFields (q0 : Parcel) : CForm :=
  { d := q0.extractLsb' 8 6, a := q0.extractLsb' 14 6, b := q0.extractLsb' 20 6 }

/-- The fields of parcels 0 and 1 (R76, R78). -/
def wFields (q0 q1 : Parcel) : WForm :=
  { d := q0.extractLsb' 8 6, a := q0.extractLsb' 14 6, b := q0.extractLsb' 20 6
    guard := q1.extractLsb' 0 4, ord := q1.extractLsb' 4 2, hint := q1.extractLsb' 6 2
    c := q1.extractLsb' 8 6, sub := q1.extractLsb' 14 18 }

/-- The fields of parcels 0, 1 and 2 (R76, R78, R79). -/
def xFields (q0 q1 q2 : Parcel) : XForm :=
  { d := q0.extractLsb' 8 6, a := q0.extractLsb' 14 6, b := q0.extractLsb' 20 6
    guard := q1.extractLsb' 0 4, ord := q1.extractLsb' 4 2, hint := q1.extractLsb' 6 2
    c := q1.extractLsb' 8 6, lit := q2 }

/-- The last line of R88: an instruction whose fields do not pass is illegal. -/
def checked (i : Instr) : Except DecodeError Instr := if fieldsOk i then .ok i else .error .illegal

/-- R88, without the issue limit, on the parcels at an address: the device uses only those that field L calls for (R77). -/
noncomputable def decodeParcels (q0 q1 q2 : Parcel) : Except DecodeError Instr :=
  if q0 = 0 then .error .zero
  else if formOf q0 = 3 then .error .illegal
  else match (wMinors (majorOf q0))[minorOf q0]? with
    | none => .error .illegal
    | some mk =>
      if formOf q0 = 0 then
        match cInstr (majorOf q0) (minorOf q0) with
        | none => .error .illegal
        | some mkC => checked (mkC (cFields q0))
      else if (wFields q0 q1).ord ≠ 0 ∧ takesOrder (majorOf q0) (minorOf q0) = false then .error .illegal
      else if formOf q0 = 2 then
        match xInstr (majorOf q0) (minorOf q0) with
        | none => .error .illegal
        | some mkX => if (wFields q0 q1).sub ≠ 0 then .error .illegal else checked (mkX (xFields q0 q1 q2))
      else checked (mk (wFields q0 q1))

/-- The little-endian parcel at the head of a byte list; a missing byte reads as 0 (R77). -/
def parcelOf : List Byte → Parcel
  | b0 :: b1 :: b2 :: b3 :: _ => b3 ++ b2 ++ b1 ++ b0
  | b0 :: b1 :: [b2] => (0 : Byte) ++ b2 ++ b1 ++ b0
  | b0 :: [b1] => (0 : BitVec 16) ++ b1 ++ b0
  | [b0] => (0 : BitVec 24) ++ b0
  | [] => 0

/-- The four bytes of a parcel, little-endian (R77). -/
def bytesOfParcel (q : Parcel) : List Byte :=
  [q.extractLsb' 0 8, q.extractLsb' 8 8, q.extractLsb' 16 8, q.extractLsb' 24 8]

/-- R88 on the bytes at an address, total on any bytes. -/
noncomputable def decode (bs : List Byte) : Except DecodeError Instr :=
  decodeParcels (parcelOf bs) (parcelOf (bs.drop 4)) (parcelOf (bs.drop 8))

/-- How an instruction is laid out in parcels; an event has no encoding. -/
inductive Enc where
  | c (major minor : Nat) (f : CForm)
  | w (major minor : Nat) (f : WForm)
  | x (major minor : Nat) (f : XForm)
  | event
deriving DecidableEq, Repr

/-- The form, the number in the opcode map (R86) and the fields of an instruction. -/
def encOf : Instr → Enc
  | .moduleReset .. => .event
  | .imageLoad .. => .event
  | .illegalPattern .. => .event
  | .dispatch .. => .event
  | .signalArrival .. => .event
  | .allocationRequest .. => .event
  | .armingRequest .. => .event
  | .freeRequest .. => .event
  | .stfRequest .. => .event
  | .ldfRequest .. => .event
  | .replyArrival .. => .event
  | .spilledRequestApply .. => .event
  | .fill .. => .event
  | .writeBackStart .. => .event
  | .writeBackComplete .. => .event
  | .matrixCommandStart .. => .event
  | .matrixCommandFinish .. => .event
  | .mdrainRow .. => .event
  | .mrotTileLands .. => .event
  | .landingMove .. => .event
  | .portWordArrival .. => .event
  | .ldrmRequest .. => .event
  | .strmRequest .. => .event
  | .atomicRequest .. => .event
  | .ringRequest .. => .event
  | .fenceRelease .. => .event
  | .releaseSignalSend .. => .event
  | .walkStart .. => .event
  | .walkTranslation .. => .event
  | .walkMove .. => .event
  | .dimensionEndSignal .. => .event
  | .finalSignal .. => .event
  | .twcanComplete .. => .event
  | .stepdDone .. => .event
  | .stepAdvance .. => .event
  | .stepNotice .. => .event
  | .ldstRequest .. => .event
  | .stepqRequest .. => .event
  | .stepRequestResend .. => .event
  | .sqtabServe .. => .event
  | .sqinitServe .. => .event
  | .sqstepServe .. => .event
  | .sqstageServe .. => .event
  | .sqrdServe .. => .event
  | .stageFormed .. => .event
  | .stepDecision .. => .event
  | .launchRequest .. => .event
  | .instanceStart .. => .event
  | .launchMulticast .. => .event
  | .instanceEnd .. => .event
  | .creditLend .. => .event
  | .gqueryRequest .. => .event
  | .gcanRequest .. => .event
  | .subqBase .. => .event
  | .subqLog .. => .event
  | .subqTail .. => .event
  | .submissionEntryRead .. => .event
  | .forecast .. => .event
  | .telemetryUpdate .. => .event
  | .placementEntryWrite .. => .event
  | .spillFrames .. => .event
  | .spillBase .. => .event
  | .migGo .. => .event
  | .migrationComplete .. => .event
  | .commit .. => .event
  | .drainMessage .. => .event
  | .clearingComplete .. => .event
  | .preempt .. => .event
  | .resume .. => .event
  | .coreSave .. => .event
  | .savedPacketApply .. => .event
  | .coreRestore .. => .event
  | .ordArm .. => .event
  | .ordAddr .. => .event
  | .ordN .. => .event
  | .orderedReductionRequest .. => .event
  | .faBase .. => .event
  | .faLog .. => .event
  | .faultRecordWrite .. => .event
  | .snapTrig .. => .event
  | .snapshotTriggerArrival .. => .event
  | .snapComplete .. => .event
  | .mgCmdLoad .. => .event
  | .mgCmdActivate .. => .event
  | .mgCmdFloor .. => .event
  | .mgCmdQuote .. => .event
  | .freitCommandDone .. => .event
  | .portEntryWrite .. => .event
  | .opticalLinkState .. => .event
  | .peerReplicaWrite .. => .event
  | .replicaWriteApply .. => .event
  | .hostWrite .. => .event
  | .hostRead .. => .event
  | .cellGate .. => .event
  | .cellWake .. => .event
  | .quiescence .. => .event
  | .thermalTrip .. => .event
  | .coreReset .. => .event
  | .packetRefused .. => .event
  | .uncorrectableError .. => .event
  | .routerHop .. => .event
  | .linkFlitSend .. => .event
  | .crossbarGrant .. => .event
  | .hbmRequestStart .. => .event
  | .spliceEgressEnter .. => .event
  | .spliceIngressDeliver .. => .event
  | .mergedAtomicApply .. => .event
  | .mergedReplySplit .. => .event
  | .registerWrite .. => .event
  | .addC f => .c 0x00 0 f
  | .add f => .w 0x00 0 f
  | .subC f => .c 0x00 1 f
  | .sub f => .w 0x00 1 f
  | .mul f => .w 0x00 2 f
  | .mulh f => .w 0x00 3 f
  | .mulhu f => .w 0x00 4 f
  | .div f => .w 0x00 5 f
  | .divu f => .w 0x00 6 f
  | .rem f => .w 0x00 7 f
  | .remu f => .w 0x00 8 f
  | .andC f => .c 0x00 9 f
  | .and f => .w 0x00 9 f
  | .orC f => .c 0x00 10 f
  | .or f => .w 0x00 10 f
  | .xorC f => .c 0x00 11 f
  | .xor f => .w 0x00 11 f
  | .andn f => .w 0x00 12 f
  | .shlC f => .c 0x00 13 f
  | .shl f => .w 0x00 13 f
  | .shrC f => .c 0x00 14 f
  | .shr f => .w 0x00 14 f
  | .sarC f => .c 0x00 15 f
  | .sar f => .w 0x00 15 f
  | .rol f => .w 0x00 16 f
  | .min f => .w 0x00 17 f
  | .max f => .w 0x00 18 f
  | .minu f => .w 0x00 19 f
  | .maxu f => .w 0x00 20 f
  | .addi f => .w 0x01 0 f
  | .addiX f => .x 0x01 0 f
  | .andi f => .w 0x01 1 f
  | .andiX f => .x 0x01 1 f
  | .ori f => .w 0x01 2 f
  | .oriX f => .x 0x01 2 f
  | .xori f => .w 0x01 3 f
  | .xoriX f => .x 0x01 3 f
  | .shli f => .w 0x01 4 f
  | .shliX f => .x 0x01 4 f
  | .shri f => .w 0x01 5 f
  | .shriX f => .x 0x01 5 f
  | .sari f => .w 0x01 6 f
  | .sariX f => .x 0x01 6 f
  | .muli f => .w 0x01 7 f
  | .muliX f => .x 0x01 7 f
  | .clz f => .w 0x02 0 f
  | .ctz f => .w 0x02 1 f
  | .popc f => .w 0x02 2 f
  | .brev f => .w 0x02 3 f
  | .bext f => .w 0x02 4 f
  | .bins f => .w 0x02 5 f
  | .sext f => .w 0x02 6 f
  | .zext f => .w 0x02 7 f
  | .cmp f => .w 0x03 0 f
  | .cmpi f => .w 0x03 1 f
  | .cmpiX f => .x 0x03 1 f
  | .pand f => .w 0x04 0 f
  | .por f => .w 0x04 1 f
  | .pxor f => .w 0x04 2 f
  | .pnot f => .w 0x04 3 f
  | .pset f => .w 0x04 4 f
  | .pget f => .w 0x04 5 f
  | .sel f => .w 0x05 0 f
  | .lea f => .w 0x05 1 f
  | .leaX f => .x 0x05 1 f
  | .nopC f => .c 0x06 0 f
  | .nop f => .w 0x06 0 f
  | .hint f => .w 0x06 1 f
  | .hintX f => .x 0x06 1 f
  | .rdcyc f => .w 0x06 2 f
  | .rdcnt f => .w 0x06 3 f
  | .br f => .w 0x07 0 f
  | .brX f => .x 0x07 0 f
  | .brx f => .w 0x07 1 f
  | .call f => .w 0x07 2 f
  | .callX f => .x 0x07 2 f
  | .ret f => .w 0x07 3 f
  | .endC f => .c 0x07 4 f
  | .endW f => .w 0x07 4 f
  | .fadd f => .w 0x10 0 f
  | .fsub f => .w 0x10 1 f
  | .fmul f => .w 0x10 2 f
  | .ffma f => .w 0x10 3 f
  | .fdiv f => .w 0x10 4 f
  | .fsqrt f => .w 0x10 5 f
  | .fmin f => .w 0x10 6 f
  | .fmax f => .w 0x10 7 f
  | .fabs f => .w 0x10 8 f
  | .fneg f => .w 0x10 9 f
  | .fcmp f => .w 0x10 10 f
  | .fclass f => .w 0x10 11 f
  | .tadd f => .w 0x11 0 f
  | .tsub f => .w 0x11 1 f
  | .tmul f => .w 0x11 2 f
  | .tfma f => .w 0x11 3 f
  | .tdiv f => .w 0x11 4 f
  | .tsqrt f => .w 0x11 5 f
  | .tmin f => .w 0x11 6 f
  | .tmax f => .w 0x11 7 f
  | .tabs f => .w 0x11 8 f
  | .tneg f => .w 0x11 9 f
  | .tcmp f => .w 0x11 10 f
  | .spz f => .w 0x12 0 f
  | .spfma f => .w 0x12 1 f
  | .spfms f => .w 0x12 2 f
  | .spadd f => .w 0x12 3 f
  | .spsub f => .w 0x12 4 f
  | .sprnd f => .w 0x12 5 f
  | .spld f => .w 0x12 6 f
  | .spldX f => .x 0x12 6 f
  | .spst f => .w 0x12 7 f
  | .spstX f => .x 0x12 7 f
  | .cvt f => .w 0x13 0 f
  | .lclaim f => .w 0x18 0 f
  | .lrel f => .w 0x18 1 f
  | .lcount f => .w 0x18 2 f
  | .vadd f => .w 0x19 0 f
  | .vsub f => .w 0x19 1 f
  | .vmul f => .w 0x19 2 f
  | .vmulh f => .w 0x19 3 f
  | .vmad f => .w 0x19 4 f
  | .vmin f => .w 0x19 5 f
  | .vmax f => .w 0x19 6 f
  | .vabs f => .w 0x19 7 f
  | .vand f => .w 0x19 8 f
  | .vor f => .w 0x19 9 f
  | .vxor f => .w 0x19 10 f
  | .vshl f => .w 0x19 11 f
  | .vshr f => .w 0x19 12 f
  | .vsar f => .w 0x19 13 f
  | .vrshr f => .w 0x19 14 f
  | .vsat f => .w 0x19 15 f
  | .vclamp f => .w 0x19 16 f
  | .vdot4 f => .w 0x19 17 f
  | .vdot2 f => .w 0x19 18 f
  | .vfadd f => .w 0x1A 0 f
  | .vfsub f => .w 0x1A 1 f
  | .vfmul f => .w 0x1A 2 f
  | .vffma f => .w 0x1A 3 f
  | .vfmin f => .w 0x1A 4 f
  | .vfmax f => .w 0x1A 5 f
  | .vfabs f => .w 0x1A 6 f
  | .vfneg f => .w 0x1A 7 f
  | .vexp2 f => .w 0x1A 8 f
  | .vlog2 f => .w 0x1A 9 f
  | .vrcp f => .w 0x1A 10 f
  | .vrsqrt f => .w 0x1A 11 f
  | .vsqrt f => .w 0x1A 12 f
  | .vdiv f => .w 0x1A 13 f
  | .vtadd f => .w 0x1B 0 f
  | .vtsub f => .w 0x1B 1 f
  | .vtmul f => .w 0x1B 2 f
  | .vtfma f => .w 0x1B 3 f
  | .vtmin f => .w 0x1B 4 f
  | .vtmax f => .w 0x1B 5 f
  | .vspz f => .w 0x1B 6 f
  | .vspfma f => .w 0x1B 7 f
  | .vsprnd f => .w 0x1B 8 f
  | .vcmp f => .w 0x1C 0 f
  | .vfcmp f => .w 0x1C 1 f
  | .vtcmp f => .w 0x1C 2 f
  | .vsel f => .w 0x1C 3 f
  | .kand f => .w 0x1C 4 f
  | .kor f => .w 0x1C 5 f
  | .kxor f => .w 0x1C 6 f
  | .knot f => .w 0x1C 7 f
  | .kset f => .w 0x1C 8 f
  | .kget f => .w 0x1C 9 f
  | .vcvt f => .w 0x1D 0 f
  | .vpack f => .w 0x1D 1 f
  | .vunpack f => .w 0x1D 2 f
  | .vbcast f => .w 0x1E 0 f
  | .vext f => .w 0x1E 1 f
  | .vperm f => .w 0x1E 2 f
  | .vslide f => .w 0x1E 3 f
  | .vred f => .w 0x1E 4 f
  | .vscan f => .w 0x1E 5 f
  | .vld f => .w 0x1F 0 f
  | .vldX f => .x 0x1F 0 f
  | .vst f => .w 0x1F 1 f
  | .vstX f => .x 0x1F 1 f
  | .vlds f => .w 0x1F 2 f
  | .vldsX f => .x 0x1F 2 f
  | .vsts f => .w 0x1F 3 f
  | .vstsX f => .x 0x1F 3 f
  | .vldx f => .w 0x1F 4 f
  | .vldxX f => .x 0x1F 4 f
  | .vstx f => .w 0x1F 5 f
  | .vstxX f => .x 0x1F 5 f
  | .mfmt f => .w 0x28 0 f
  | .mscl f => .w 0x28 1 f
  | .msclX f => .x 0x28 1 f
  | .mlb f => .w 0x28 2 f
  | .mlbX f => .x 0x28 2 f
  | .mma f => .w 0x28 3 f
  | .mmaX f => .x 0x28 3 f
  | .mrot f => .w 0x28 4 f
  | .mzero f => .w 0x28 5 f
  | .mdrain f => .w 0x28 6 f
  | .mrow f => .w 0x28 7 f
  | .falloc f => .w 0x2C 0 f
  | .ffree f => .w 0x2C 1 f
  | .sarm f => .w 0x2C 2 f
  | .sig f => .w 0x2C 3 f
  | .sigX f => .x 0x2C 3 f
  | .sigv f => .w 0x2C 4 f
  | .sigb f => .w 0x2C 5 f
  | .fire f => .w 0x2C 6 f
  | .sget f => .w 0x2C 7 f
  | .ldf f => .w 0x2C 8 f
  | .stf f => .w 0x2C 9 f
  | .rinit f => .w 0x2D 0 f
  | .racq f => .w 0x2D 1 f
  | .rcom f => .w 0x2D 2 f
  | .rpeek f => .w 0x2D 3 f
  | .rrel f => .w 0x2D 4 f
  | .ldC f => .c 0x30 0 f
  | .ld f => .w 0x30 0 f
  | .ldX f => .x 0x30 0 f
  | .stC f => .c 0x30 1 f
  | .st f => .w 0x30 1 f
  | .stX f => .x 0x30 1 f
  | .ldrm f => .w 0x31 0 f
  | .strm f => .w 0x31 1 f
  | .aadd f => .w 0x32 0 f
  | .amin f => .w 0x32 1 f
  | .amax f => .w 0x32 2 f
  | .aminu f => .w 0x32 3 f
  | .amaxu f => .w 0x32 4 f
  | .aand f => .w 0x32 5 f
  | .aor f => .w 0x32 6 f
  | .axor f => .w 0x32 7 f
  | .aswp f => .w 0x32 8 f
  | .acas f => .w 0x32 9 f
  | .afadd f => .w 0x32 10 f
  | .aspadd f => .w 0x32 11 f
  | .fence f => .w 0x33 0 f
  | .twld f => .w 0x34 0 f
  | .twst f => .w 0x34 1 f
  | .twmc f => .w 0x34 2 f
  | .twg f => .w 0x34 3 f
  | .tws f => .w 0x34 4 f
  | .twq f => .w 0x34 5 f
  | .twcan f => .w 0x34 6 f
  | .stepd f => .w 0x38 0 f
  | .ldst f => .w 0x38 1 f
  | .stepq f => .w 0x38 2 f
  | .sqtab f => .w 0x39 0 f
  | .sqinit f => .w 0x39 1 f
  | .sqstage f => .w 0x39 2 f
  | .sqstep f => .w 0x39 3 f
  | .sqrd f => .w 0x39 4 f
  | .glaunch f => .w 0x3C 0 f
  | .gquery f => .w 0x3C 1 f
  | .gcan f => .w 0x3C 2 f
  | .sysr f => .w 0x3E 0 f
  | .sysw f => .w 0x3E 1 f
  | .trap f => .w 0x3E 2 f
  | .trapX f => .x 0x3E 2 f
  | .brk f => .w 0x3E 3 f
  | .snap f => .w 0x3E 4 f
  | .clockPinned .. => .event
  | .softError .. => .event
  | .fillComplete .. => .event

/-- Parcel 0 (R76). -/
def parcel0 (form : BitVec 2) (major minor : Nat) (d a b : BitVec 6) : Parcel :=
  BitVec.ofNat 6 minor ++ b ++ a ++ d ++ BitVec.ofNat 6 major ++ form

/-- Parcel 1 (R78). -/
def parcel1 (guard : BitVec 4) (ord hint : BitVec 2) (c : BitVec 6) (sub : BitVec 18) : Parcel :=
  sub ++ c ++ hint ++ ord ++ guard

/-- The parcels of a laid-out instruction. -/
def Enc.parcels : Enc → List Parcel
  | .c m n f => [parcel0 0 m n f.d f.a f.b]
  | .w m n f => [parcel0 1 m n f.d f.a f.b, parcel1 f.guard f.ord f.hint f.c f.sub]
  | .x m n f => [parcel0 2 m n f.d f.a f.b, parcel1 f.guard f.ord f.hint f.c 0, f.lit]
  | .event => []

/-- The parcels of an instruction (R76 to R79). An event has none. -/
def encode (i : Instr) : List Parcel := (encOf i).parcels

/-- The bytes of an instruction as the code store holds them (R77). -/
def encodeBytes (i : Instr) : List Byte := (encode i).flatMap bytesOfParcel

/-- The length of an instruction in bytes (R77). -/
def Enc.length : Enc → Nat
  | .c .. => 4
  | .w .. => 8
  | .x .. => 12
  | .event => 0

/-- The length in bytes of the instruction that starts with a parcel (R77). -/
def lengthOf (q0 : Parcel) : Nat := 4 * ((formOf q0).toNat + 1)

/-- The instruction that the decoder reads from a word whose first parcel is the least significant 32 bits, each parcel in its
little-endian bytes; bits at and above nbits are 0. -/
noncomputable def decodeTableWord (nbits w : Nat) : Option Instr :=
  let v := w % 2 ^ nbits
  match decode (bytesOfParcel (BitVec.ofNat 32 v) ++ bytesOfParcel (BitVec.ofNat 32 (v >>> 32)) ++
    bytesOfParcel (BitVec.ofNat 32 (v >>> 64))) with
  | .ok i => some i
  | .error _ => none

end Sys2Proof
end

