-- ==== Sys2Proof/Machine/Ops.lean ====
section
/-! DEFINITION. The named operations over memory, registers, frames, packets and faults that the meanings share. A fault of
the manual is taken by takeFault; the handler of a policy is fired where the record is written (Machine/Faults.lean). -/

namespace Sys2Proof.Machine

/-! ### Coordinates (R210, R316) -/

/-- Die of a core number. -/
def dieOf (cid : Nat) : Nat := cid / 25600
/-- Core index within the die. -/
def coreIdx (cid : Nat) : Nat := cid % 25600
/-- Local x. -/
def localX (cid : Nat) : Nat := coreIdx cid % 160
/-- Local y. -/
def localY (cid : Nat) : Nat := coreIdx cid / 160
/-- The core at local (x, y) of a die. -/
def coreAt (die x y : Nat) : Nat := die * 25600 + y * 160 + x
/-- Cluster of a core within its die (R210). -/
def clusOf (cid : Nat) : Nat := localY cid / 16 * 10 + localX cid / 16
/-- Cluster number within the module. -/
def clidOf (cid : Nat) : Nat := dieOf cid * 100 + clusOf cid
/-- Cell of a core within its cluster (R210). -/
def cellIn (cid : Nat) : Nat := (localY cid % 16) * 2 + localX cid % 16 / 8
/-- Cell number within the module. -/
def cellOf (cid : Nat) : Nat := clidOf cid * 32 + cellIn cid
/-- Index of a core within its cell (R210). -/
def posOf (cid : Nat) : Nat := localX cid % 8
/-- The core with index n of the cell of a core. -/
def cellMate (cid n : Nat) : Nat := cid - posOf cid + n
/-- The eight cores of a cell. -/
def cellCores (cell : Nat) : List Nat :=
  let clid := cell / 32
  let c := cell % 32
  let die := clid / 100
  let k := clid % 100
  (List.range 8).map (fun n => coreAt die (k % 10 * 16 + c % 2 * 8 + n) (k / 10 * 16 + c / 2))
/-- Module coordinate X (R316). -/
def modX (cid : Nat) : Nat := 160 * (dieOf cid % 4) + localX cid
/-- Module coordinate Y (R316). -/
def modY (cid : Nat) : Nat := 160 * (dieOf cid / 4) + localY cid
/-- The core at module coordinates (R316). -/
def coreAtMod (X Y : Nat) : Nat := coreAt (Y / 160 * 4 + X / 160) (X % 160) (Y % 160)
/-- The core at an offset on the module torus; coordinates wrap at 640 (R255). -/
def atOffset (cid : Nat) (dx dy : Int) : Nat :=
  coreAtMod (((modX cid : Int) + dx).emod 640).toNat (((modY cid : Int) + dy).emod 640).toNat
/-- The torus neighbour: 0 north, 1 east, 2 south, 3 west (R46, R322). -/
def neighbour (cid dir : Nat) : Nat :=
  match dir with
  | 0 => atOffset cid 0 (-1)
  | 1 => atOffset cid 1 0
  | 2 => atOffset cid 0 1
  | _ => atOffset cid (-1) 0
/-- The opposite direction. -/
def opposite (dir : Nat) : Nat := (dir + 2) % 4

/-! ### Bit fields -/

/-- Bits [lo + n - 1 : lo] of a number. -/
def bits (v lo n : Nat) : Nat := (v >>> lo) % 2 ^ n
/-- v with bits [lo + n - 1 : lo] replaced. -/
def setBits (v lo n x : Nat) : Nat := v - bits v lo n * 2 ^ lo + x % 2 ^ n * 2 ^ lo

/-! ### Partitions in the region table (R340, R341) -/

/-- Quarter of a cluster of a die (chapter on partitions, R340). -/
def quarterOf (k : Nat) : Nat := 2 * (k / 10 / 5) + k % 10 / 5
/-- Field own q of a region entry. -/
def ownField (w : Word) (q : Nat) : Nat := bits w.toNat (8 + 8 * q) 8
/-- A die is split into quarters. -/
def isSplit (w : Word) : Bool := w.getLsbD 0
/-- The partition that a field own names. -/
def ownPart (o : Nat) : Option Nat := if o / 64 % 2 = 1 then some (o % 64) else none
/-- The partition that owns a quarter of a die in a region table. -/
def partAt (t : Tbl Word) (die q : Nat) : Option Nat :=
  let w := t.get 0 die
  ownPart (ownField w (if isSplit w then q else 0))
/-- Every quarter of a die that has a holder in one entry has it in another too. -/
def keepsHolders (a b : Word) : Bool :=
  (List.range 4).all (fun q =>
    match ownPart (ownField a (if isSplit a then q else 0)) with
    | none => true
    | some p => ownPart (ownField b (if isSplit b then q else 0)) == some p)
/-- The partition that owns a core. -/
def partOfCore (t : Tbl Word) (cid : Nat) : Option Nat := partAt t (dieOf cid) (quarterOf (clusOf cid))
/-- The dies of a partition in ascending order, each with its quarter, 4 for the whole die. -/
def partDies (t : Tbl Word) (p : Nat) : List (Nat × Nat) :=
  (List.range 16).flatMap (fun d =>
    let w := t.get 0 d
    if isSplit w then ((List.range 4).filter (fun q => ownPart (ownField w q) = some p)).map (fun q => (d, q))
    else if ownPart (ownField w 0) = some p then [(d, 4)] else [])
/-- A partition is reserved (R341). -/
def partRsv (t : Tbl Word) (p : Nat) : Bool :=
  (partDies t p).any (fun x => (ownField (t.get 0 x.1) (if x.2 = 4 then 0 else x.2)) / 128 == 1)
/-- Any reservation lives on a die (R343). -/
def dieRsv (t : Tbl Word) (die : Nat) : Bool :=
  (List.range 4).any (fun q => ownField (t.get 0 die) q / 128 == 1)
/-- Active cores of one share of a die. -/
def shareSize (q : Nat) : Nat := if q = 4 then 25600 else 6400
/-- The i-th core of a share in ascending core index. -/
def shareCore (d q i : Nat) : Nat :=
  if q = 4 then d * 25600 + i else coreAt d (80 * (q % 2) + i % 80) (80 * (q / 2) + i / 80)
/-- The place of a core within its share (R184). -/
def shareIdx (q cid : Nat) : Nat :=
  if q = 4 then coreIdx cid else (localY cid - 80 * (q / 2)) * 80 + (localX cid - 80 * (q % 2))
/-- list[i] of R290 over the shares of a partition. -/
def listCore : List (Nat × Nat) → Nat → Nat
  | [], _ => 0
  | (d, q) :: t, i => if i < shareSize q then shareCore d q i else listCore t (i - shareSize q)
/-- A core lies in one of the shares. -/
def inShares (sh : List (Nat × Nat)) (cid : Nat) : Bool :=
  sh.any (fun x => x.1 == dieOf cid && (x.2 == 4 || x.2 == quarterOf (clusOf cid)))

/-! ### Memory -/

/-- The key space of a level: 0 core, 1 cluster, 2 die, 3 HBM4, 4 code stores, 5 Freit's slots. -/
def space (n off : Nat) : Nat := n * 2 ^ 60 + off
/-- A byte of a core scratchpad (R204). -/
def coreKey (cid off : Nat) : Nat := space 0 (cid * 2 ^ 17 + off)
/-- A byte of a cluster scratchpad (R208). -/
def clusterKey (clid off : Nat) : Nat := space 1 (clid * 2 ^ 22 + off)
/-- A byte of a die scratchpad; a quarter's 64 MiB start at its quarter (R208). -/
def dieKey (die q off : Nat) : Nat := space 2 (die * 2 ^ 28 + q * 2 ^ 26 + off)
/-- A byte of device memory (R304). -/
def hbmKey (addr : Nat) : Nat := space 3 (addr % 2 ^ 40)
/-- A byte of a cluster's code store (R51). -/
def codeKey (clid off : Nat) : Nat := space 4 (clid * 2 ^ 19 + off)
/-- A byte of an image slot of Freit, whose storage is its own and lies above every other key (R376). -/
def freitKey (slot off : Nat) : Nat := 2 ^ 64 * (1 + slot) + off

/-- The byte at a key; an unlisted byte reads as 0. -/
def memRead : List Host.Cell → Nat → Byte
  | [], _ => 0
  | (k, v) :: t, i => if i = k then v else memRead t i
/-- The byte list with one byte written, in its canonical form. -/
def memWrite : List Host.Cell → Nat → Byte → List Host.Cell
  | [], i, b => if b = 0 then [] else [(i, b)]
  | (k, v) :: t, i, b =>
    if i = k then (if b = 0 then t else (k, b) :: t)
    else if i < k then (if b = 0 then (k, v) :: t else (i, b) :: (k, v) :: t)
    else (k, v) :: memWrite t i b
/-- The n bytes from a key, as a little-endian number (R8). -/
def memReadN (m : List Host.Cell) (k : Nat) : Nat → Nat
  | 0 => 0
  | n + 1 => (memRead m k).toNat + 256 * memReadN m (k + 1) n
/-- n bytes written from a key, little-endian (R8). -/
def memWriteN (m : List Host.Cell) (k : Nat) : Nat → Nat → List Host.Cell
  | 0, _ => m
  | n + 1, v => memWriteN (memWrite m k (BitVec.ofNat 8 v)) (k + 1) n (v / 256)
/-- Every byte of a key range set to 0. -/
def memClear (m : List Host.Cell) (lo len : Nat) : List Host.Cell := m.filter (fun c => !(decide (lo ≤ c.1) && decide (c.1 < lo + len)))

/-- Two byte ranges overlap. -/
def overlaps (lo1 len1 lo2 len2 : Nat) : Bool := decide (lo1 < lo2 + len2) && decide (lo2 < lo1 + len1)
/-- The aligned words that n bytes at a key lie in. -/
def wordsOf (k n : Nat) : List Nat := (List.range ((k + n + 7) / 8 - k / 8)).map (fun i => (k / 8 + i) * 8)

namespace State

/-- A byte. -/
def byte (s : State) (k : Nat) : Byte := memRead s.mem k
/-- n bytes, little-endian. -/
def readN (s : State) (k n : Nat) : Nat := memReadN s.mem k n
/-- A 64-bit word, little-endian. -/
def readW (s : State) (k : Nat) : Word := BitVec.ofNat 64 (s.readN k 8)
/-- A list of bytes. -/
def readBytes (s : State) (k n : Nat) : List Byte := (List.range n).map (fun i => s.byte (k + i))
/-- Some word that a range touches is poisoned (R365). -/
def poisoned (s : State) (k n : Nat) : Bool := s.poison.any (fun w => decide (w < k + n) && decide (k < w + 8))
/-- n bytes written. A whole aligned word that is written is no longer poisoned; a narrower write leaves poison (R365). Every party sees the
write, and it ends the release sequences of the bytes it overlaps, not of the other bytes of their words (DESIGN CHOICE, log entry 7); noted
and leads say otherwise of a write that they are told of. -/
def writeN (s : State) (k n v : Nat) : State :=
  { s with
    mem := memWriteN s.mem k n v
    poison := s.poison.filter (fun w => !(decide (k ≤ w) && decide (w + 8 ≤ k + n)))
    older := s.older.filter (fun e => !(overlaps e.key 8 k n))
    heads := s.heads.filter (fun h => !(overlaps h.key h.len k n)) }
/-- A 64-bit word written. -/
def writeW (s : State) (k : Nat) (v : Word) : State := s.writeN k 8 v.toNat
/-- The number that a byte list stands for, little-endian. -/
def natOfBytes : List Byte → Nat
  | [] => 0
  | b :: t => b.toNat + 256 * natOfBytes t
/-- A list of bytes written. -/
def writeBytes (s : State) (k : Nat) (bs : List Byte) : State := s.writeN k bs.length (natOfBytes bs)
/-- The aligned words that writes have covered whole, all of them clean, are no longer poisoned, however many writes it took (R365).
rs lists the bits written, as first bit (eight times the key) and count. -/
def clearWritten (s : State) (rs : List (Nat × Nat)) : State :=
  { s with
    poison := s.poison.filter (fun w =>
      !((List.range 64).all (fun i => rs.any (fun r => decide (r.1 ≤ 8 * w + i) && decide (8 * w + i < r.1 + r.2))))) }
/-- The aligned words that a range touches become poisoned (R220). -/
def addPoison (s : State) (k n : Nat) : State :=
  { s with poison := (wordsOf k n).foldl (fun l w => (l.filter (· < w)) ++ w :: l.filter (w < ·)) s.poison }

end State

/-! ### What a read may return (R243, R244, R246)

A write is performed at one place in one step. A party for which it is not ordered before its read may still get what stood there before;
Config.oldPick says whether it does. Once a party other than the writer's own pipeline has read a write, every party reads it or a later one
(R250; log entry 7). -/

/-- Who writes: the fields of an Older that do not depend on the place. -/
structure Writer where
  fid : Nat
  inst : Nat
  by_ : Nat
  num : Nat
  tag : Nat
deriving DecidableEq, Repr, Inhabited

/-- Who reads: the firing, the domain and the number of the access or command, 0 for a pipeline access; and who else it reads for. The
domains are those of an Older, and beside them 4 for an agent and 5 for the sequencer's read of an image. -/
structure Reader where
  fid : Nat
  by_ : Nat
  num : Nat
  also : Option Party := none
deriving DecidableEq, Repr, Inhabited

/-- A write is ordered before a read (R244): the reader's firing acquired it, or the party that it reads for; fences held the reader for it;
both are accesses of one core's pipeline (R147); the firing made it in the same domain, or in its pipeline before the matrix command or the
sequencer command that reads (R241, R276). -/
def binds (r : Reader) (e : Older) : Bool :=
  e.bound.contains (.firing r.fid) || e.bound.contains (.work r.num) || (match r.also with | some x => e.bound.contains x | none => false) ||
    (e.by_ == 0 && r.by_ == 0) ||
    (e.fid == r.fid && (e.by_ == r.by_ || (decide (r.by_ = 3 ∨ r.by_ = 5) && e.by_ == 0 && decide (e.num ≤ r.num))))

namespace State

/-- The writes to an aligned word that some party may read past, newest first. -/
def olderAt (s : State) (a : Nat) : List Older := s.older.filter (fun e => e.key == a)
/-- How many writes a read may pass. A spool word is atomic as a unit toward spool accesses (R124), so a spool read passes only writes of
that spool word. -/
def passable (s : State) (r : Reader) (k n a : Nat) : Nat :=
  let free := ((s.olderAt a).takeWhile (fun e => !(binds r e))).length
  if n = 32 then
    (wordsOf k n).foldl (fun m b => min m ((s.olderAt b).takeWhile (fun e => e.spool && !(binds r e))).length) free
  else free
/-- How many writes a read passes: a spool read chooses once. -/
def passed (s : State) (r : Reader) (k n a : Nat) : Nat :=
  match s.passable r k n a with
  | 0 => 0
  | m + 1 => Config.oldPick s.tick (if n = 32 then k else a) % (m + 2)
/-- An aligned word as a read sees it (R246). -/
def seenWord (s : State) (r : Reader) (k n a : Nat) : Nat :=
  match s.passed r k n a with
  | 0 => s.readN a 8
  | i + 1 => match (s.olderAt a)[i]? with | some e => e.val | none => s.readN a 8
/-- No earlier value is held of the words of a range. -/
def settled (s : State) (k n : Nat) : Bool := s.older.all (fun e => !(overlaps e.key 8 (k / 8 * 8) (k % 8 + n)))
/-- n bytes as a read sees them. -/
def seenBytes (s : State) (r : Reader) (k n : Nat) : List Byte :=
  if s.settled k n then s.readBytes k n
  else (List.range n).map (fun i => BitVec.ofNat 8 (s.seenWord r k n ((k + i) / 8 * 8) / 256 ^ ((k + i) % 8)))
/-- n bytes as a read sees them, little-endian. -/
def seenN (s : State) (r : Reader) (k n : Nat) : Nat := if s.settled k n then s.readN k n else natOfBytes (s.seenBytes r k n)
/-- A 64-bit word as a read sees it. -/
def seenW (s : State) (r : Reader) (k : Nat) : Word := BitVec.ofNat 64 (s.seenN r k 8)
/-- The writes to a word that some party may still read past after a read of it: none from the write that it returned on, unless that is one
of the reader's own pipeline, which the pipeline alone has seen (R250). -/
def leftAfter (s : State) (r : Reader) (k n a : Nat) : List Older :=
  let l := s.olderAt a
  let i := s.passed r k n a
  match l[i]? with
  | none => l
  | some e => if e.fid = r.fid ∧ e.by_ = 0 ∧ r.by_ = 0 then l else l.take i
/-- What a read of n bytes leaves, word by word. -/
def saw (s : State) (r : Reader) (k n : Nat) : State :=
  { s with older := (wordsOf k n).foldl (fun l a => s.leftAfter r k n a ++ l.filter (fun x => x.key != a)) s.older }
/-- Every party reads the newest values of a range from now on. -/
def publish (s : State) (k n : Nat) : State := { s with older := s.older.filter (fun e => !(overlaps e.key 8 k n)) }

/-- What stood in an aligned word before a write of the bytes from lo to hi in it. -/
def before (s : State) (w : Writer) (a lo hi : Nat) (spool : Bool) : Older :=
  { key := a, val := s.readN a 8, fid := w.fid, inst := w.inst, by_ := w.by_, num := w.num, tag := w.tag, lo := lo, len := hi - lo
    spool := spool, bound := [] }
/-- t is s after a write of n bytes at a key: what stood there may still be read (R246). -/
def noted (s : State) (w : Writer) (k n : Nat) (t : State) : State :=
  { t with older := (wordsOf k n).map (fun a => s.before w a (max k a) (min (k + n) (a + 8)) (decide (n = 32 ∧ k % 32 = 0))) ++ s.older }
/-- t is s after a vector store of 4-byte words at keys: each aligned 8-byte word is written by it once (R147). -/
def notedLanes (s : State) (w : Writer) (ks : List Nat) (t : State) : State :=
  { t with older := ((ks.map (fun k => k / 8 * 8)).eraseDups).map (fun a =>
      s.before w a (if ks.contains a then a else a + 4) (if ks.contains (a + 4) then a + 8 else a + 4) false) ++ s.older }
/-- n bytes written by an access or a command. -/
def storeN (s : State) (w : Writer) (k n v : Nat) : State := s.noted w k n (s.writeN k n v)

/-- The writes that a test picks are ordered before what a party stands for. -/
def bindTo (s : State) (x : Party) (q : Older → Bool) : State :=
  { s with older := s.older.map (fun e => if q e then { e with bound := x :: e.bound } else e) }
/-- What a party of a kind stood for is forgotten. -/
def unbind (s : State) (q : Party → Bool) : State := { s with older := s.older.map (fun e => { e with bound := e.bound.filter (fun x => !(q x)) }) }
/-- A party takes over what another stood for. -/
def hand (s : State) (x y : Party) : State :=
  { s with older := s.older.map (fun e => { e with bound := (e.bound.filter (· != y)).map (fun z => if z = x then y else z) }) }

/-! ### Units of the state -/

/-- A core. -/
def core (s : State) (cid : Nat) : Core := s.cores.get Core.init cid
/-- A core replaced. -/
def setCore (s : State) (cid : Nat) (c : Core) : State := { s with cores := s.cores.set cid c }
/-- A core changed. -/
def modCore (s : State) (cid : Nat) (g : Core → Core) : State := s.setCore cid (g (s.core cid))
/-- A cell. -/
def cell (s : State) (i : Nat) : Cell := s.cells.get Cell.init i
/-- A cell replaced. -/
def setCell (s : State) (i : Nat) (c : Cell) : State := { s with cells := s.cells.set i c }
/-- A cluster. -/
def cluster (s : State) (i : Nat) : Cluster := s.clusters.get Cluster.init i
/-- A cluster changed. -/
def modCluster (s : State) (i : Nat) (g : Cluster → Cluster) : State := { s with clusters := s.clusters.set i (g (s.cluster i)) }
/-- A die. -/
def die (s : State) (i : Nat) : Die := s.dies.get Die.init i
/-- A die changed. -/
def modDie (s : State) (i : Nat) (g : Die → Die) : State := { s with dies := s.dies.set i (g (s.die i)) }
/-- A partition. -/
def part (s : State) (p : Nat) : Part := s.parts.get Part.init p
/-- A partition changed. -/
def modPart (s : State) (p : Nat) (g : Part → Part) : State := { s with parts := s.parts.set p (g (s.part p)) }
/-- The module's registers changed. -/
def modMgmt (s : State) (g : Module → Module) : State := { s with mgmt := g s.mgmt }

/-- The region table by which dies and quarters are held now: while a commit drains, a die that loses a holder stays with the
holders of the retiring table, since a commit releases a die or a quarter only before DRAIN returns to 0 (R341). -/
def liveRegion (s : State) : Tbl Word :=
  if s.mgmt.drain then
    (List.range 16).map (fun d =>
      let a := s.mgmt.regionOld.get 0 d
      let b := s.mgmt.region.get 0 d
      (d, if keepsHolders a b then b else a))
  else s.mgmt.region
/-- The partition of a core, 64 for none. -/
def partOf (s : State) (cid : Nat) : Nat := (partOfCore s.liveRegion cid).getD 64
/-- The shares of a partition: those it holds now, or those of the current table for a partition that the draining commit has created
(R341). -/
def shares (s : State) (p : Nat) : List (Nat × Nat) :=
  if s.mgmt.drain && (partDies s.mgmt.regionOld p).isEmpty then partDies s.mgmt.region p else partDies s.liveRegion p
/-- The partition's lowest-numbered die (R286). -/
def firstDie (s : State) (p : Nat) : Nat := match s.shares p with | [] => 0 | x :: _ => x.1
/-- A core lies in a partition. -/
def coreIn (s : State) (p cid : Nat) : Bool := decide (cid < 409600) && inShares (s.shares p) cid
/-- The active cores of a partition, N of R290. -/
def partSize (s : State) (p : Nat) : Nat := ((s.shares p).map (fun x => shareSize x.2)).sum
/-- The cores of a partition in order (R290). -/
def partCores (s : State) (p : Nat) : List Nat := (List.range (s.partSize p)).map (listCore (s.shares p))

/-! ### The context that issues -/

/-- The core that issues. -/
def cid (s : State) : Nat := s.cur.1
/-- A context of a core. -/
def ctxOf (c : Core) (x : Nat) : Ctx := if x = 0 then c.ctx0 else c.ctx1
/-- A core with one context replaced. -/
def setCtxOf (c : Core) (x : Nat) (k : Ctx) : Core := if x = 0 then { c with ctx0 := k } else { c with ctx1 := k }
/-- The context that issues. -/
def ctx (s : State) : Ctx := ctxOf (s.core s.cur.1) s.cur.2
/-- The context that issues, replaced. -/
def setCtx (s : State) (k : Ctx) : State := s.modCore s.cur.1 (fun c => setCtxOf c s.cur.2 k)
/-- The context that issues, changed. -/
def modCtx (s : State) (g : Ctx → Ctx) : State := s.setCtx (g s.ctx)
/-- The core that issues, changed. -/
def modCur (s : State) (g : Core → Core) : State := s.modCore s.cur.1 g

/-! ### Frames (R169 to R174, R205) -/

/-- The frames of a partition's carve-out; 256 where no image is loaded (R69). -/
def frames (s : State) (p : Nat) : Nat := match (s.part p).image with | some i => i.frames | none => 256
/-- The carve-out base of a core (R205). -/
def carveBase (s : State) (cid : Nat) : Nat := 0x20000 - 256 * s.frames (s.partOf cid)
/-- The key of local frame i of a core (R170). -/
def localKey (s : State) (cid i : Nat) : Nat := coreKey cid (s.carveBase cid + 256 * i)
/-- A range of core-scratchpad offsets meets words 0 to 9 of a carve-out frame (R173). -/
def hitsSlots (s : State) (cid off len : Nat) : Bool :=
  let b := s.carveBase cid
  decide (0 < len) && decide (b < off + len) &&
    (let lo := if off < b then b else off
     decide ((lo - b) % 256 < 80) || decide ((lo - b) / 256 < (off + len - 1 - b) / 256))
/-- The spill frames of each core of a die: 0 until SPILL_BASE is accepted (R184). -/
def spillSize (s : State) (p d : Nat) : Nat := if ((s.part p).spillBase.keys).contains d then (s.part p).spill else 0
/-- The overflow pointer of a core: device-memory address of its spill region (R183, R184). -/
def overflowPtr (s : State) (cid : Nat) : Nat :=
  let p := s.partOf cid
  let q := match (s.shares p).find? (fun x => x.1 == dieOf cid) with | some x => x.2 | none => 4
  (((s.part p).spillBase.get 0 (dieOf cid)).toNat + 256 * (s.part p).spill * shareIdx q cid) % 2 ^ 40
/-- The key of the HBM image of spilled frame i of a core (R183). -/
def spillKey (s : State) (cid i : Nat) : Nat := hbmKey (s.overflowPtr cid + 256 * i)

end State

/-- Header fields (R171): codeblock. -/
def hdrCb (h : Word) : Nat := bits h.toNat 0 16
/-- The frame is allocated. -/
def hdrAlloc (h : Word) : Bool := h.getLsbD 16
/-- The frame is a resident copy. -/
def hdrCopy (h : Word) : Bool := h.getLsbD 17
/-- Outstanding asynchronous commands. -/
def hdrAsync (h : Word) : Nat := bits h.toNat 20 3
/-- The spilled index of the frame that a copy holds. -/
def hdrHome (h : Word) : Nat := bits h.toNat 32 12
/-- A header (R171). -/
def mkHdr (cb : Nat) (alloc copy : Bool) (async home : Nat) : Word :=
  BitVec.ofNat 64 (cb % 2 ^ 16 + (if alloc then 2 ^ 16 else 0) + (if copy then 2 ^ 17 else 0) + async % 8 * 2 ^ 20 + home % 4096 * 2 ^ 32)
/-- A header with another async count. -/
def setAsync (h : Word) (n : Nat) : Word := BitVec.ofNat 64 (setBits h.toNat 20 3 n)
/-- Slot word fields (R172): count. -/
def slCount (w : Word) : Nat := bits w.toNat 0 27
/-- Priority. -/
def slPrio (w : Word) : Nat := bits w.toNat 27 3
/-- Byte mode. -/
def slByte (w : Word) : Bool := w.getLsbD 30
/-- Armed. -/
def slArmed (w : Word) : Bool := w.getLsbD 31
/-- A slot word (R172). -/
def mkSlot (count prio : Nat) (byteMode armed : Bool) : Word :=
  BitVec.ofNat 64 (count % 2 ^ 27 + prio % 8 * 2 ^ 27 + (if byteMode then 2 ^ 30 else 0) + (if armed then 2 ^ 31 else 0))

/-- An FREF (R174): the core it names. -/
def frefCore (r : Nat) : Nat := bits r 28 4 * 25600 + bits r 13 15
/-- The name of the frame on its core: index, plus 4096 for a spilled frame. -/
def frefName (r : Nat) : Nat := bits r 0 13
/-- The FREF of frame f of a core. -/
def mkFref (cid f : Nat) : Nat := dieOf cid * 2 ^ 28 + coreIdx cid * 2 ^ 13 + f % 2 ^ 13
/-- A slot reference (R174): its FREF. -/
def srefFref (r : Nat) : Nat := bits r 0 32
/-- Its slot number. -/
def srefSlot (r : Nat) : Nat := bits r 32 3
/-- The slot reference of slot k of frame f of a core. -/
def mkSref (cid f k : Nat) : Nat := k * 2 ^ 32 + mkFref cid f

namespace State

/-- The local frame that is the resident copy of spilled frame i of a core: one that is allocated, runs a firing or awaits a
command, and is not being written back (R186). -/
def residentOf (s : State) (cid i : Nat) : Option Nat :=
  let c := s.core cid
  (List.range (s.frames (s.partOf cid))).find? (fun j =>
    let h := s.readW (s.localKey cid j)
    hdrCopy h && hdrHome h == i && !(c.wback.contains j) &&
      (hdrAlloc h || hdrAsync h != 0 || (c.ctx0.busy && c.ctx0.frame == j) || (c.ctx1.busy && c.ctx1.frame == j)))

/-- The key of a frame by name: local storage, the resident copy, or the HBM image (R183, R186). -/
def frameKey (s : State) (cid f : Nat) : Nat :=
  if f < 4096 then s.localKey cid f
  else match s.residentOf cid (f - 4096) with
    | some j => s.localKey cid j
    | none => s.spillKey cid (f - 4096)

/-- R174: an FREF is valid in a partition. -/
def frefOk (s : State) (p r : Nat) : Bool :=
  let cid := frefCore r
  let f := frefName r
  decide (bits r 13 15 < 25600) && s.coreIn p cid &&
    (if f < 4096 then decide (f < s.frames p) else decide (f - 4096 < s.spillSize p (dieOf cid)))
/-- R174: a 64-bit word is a valid slot reference. -/
def srefOk (s : State) (p r : Nat) : Bool := decide (r < 2 ^ 35) && s.frefOk p (srefFref r)
/-- R188: a 64-bit word is a valid FREF operand. -/
def frefOpOk (s : State) (p : Nat) (r : Word) : Bool := decide (r.toNat < 2 ^ 32) && s.frefOk p r.toNat

/-- The lowest-numbered splice of a partition from one die to another (R190, R320); none where none is declared. -/
def spliceFrom (s : State) (p src dst : Nat) : Option Nat :=
  (((s.part p).splices).find? (fun x => x.2.src == src && x.2.dst == dst)).map (·.1)
/-- R190 step 2, R217 step 3: the splices to the target die, and back where asked, are declared. -/
def splicesOk (s : State) (p src dst : Nat) (back : Bool) : Bool :=
  src == dst || ((s.spliceFrom p src dst).isSome && (!back || (s.spliceFrom p dst src).isSome))

/-! ### Scratchpad addresses (R209) -/

/-- The quarter of a partition's share of a die: 0 where it is the whole die. -/
def shareQ (s : State) (p d : Nat) : Nat :=
  match (s.shares p).find? (fun x => x.1 == d) with | some x => if x.2 = 4 then 0 else x.2 | none => 0
/-- The size of the die scratchpad that a partition sees on a die (R208). -/
def dieSize (s : State) (p d : Nat) : Nat :=
  match (s.shares p).find? (fun x => x.1 == d) with | some x => if x.2 = 4 then 2 ^ 28 else 2 ^ 26 | none => 0
/-- A cluster lies in a partition. -/
def clusterIn (s : State) (p clid : Nat) : Bool :=
  (s.shares p).any (fun x => x.1 == clid / 100 && (x.2 == 4 || x.2 == quarterOf (clid % 100)))

/-- R209: the place of n bytes at a scratchpad address in a partition: the unit, the key of the first byte, and the offset
within its level; none where the access faults with code 0x04. -/
def placeOf (s : State) (p a n : Nat) : Option (Loc × Nat × Nat) :=
  let d := bits a 58 4
  match bits a 62 2 with
  | 0 =>
    let c := d * 25600 + bits a 43 15
    let off := bits a 0 43
    if bits a 43 15 < 25600 ∧ s.coreIn p c ∧ off + n ≤ 2 ^ 17 then some (.core c, coreKey c off, off) else none
  | 1 =>
    let k := d * 100 + bits a 51 7
    let off := bits a 0 43
    if bits a 43 8 = 0 ∧ bits a 51 7 < 100 ∧ s.clusterIn p k ∧ off + n ≤ 2 ^ 22 then some (.cluster k, clusterKey k off, off)
    else none
  | 2 =>
    let off := bits a 0 43
    let slice := if s.dieSize p d = 2 ^ 26 then s.shareQ p d * 8 + off / 256 % 8 else off / 256 % 32
    if bits a 43 15 = 0 ∧ (s.shares p).any (fun x => x.1 == d) ∧ off + n ≤ s.dieSize p d then
      some (.dieSpad d slice, dieKey d (s.shareQ p d) off, off)
    else none
  | _ => none

end State

/-- The die of a unit. -/
def locDie : Loc → Nat
  | .core c => dieOf c
  | .cluster k => k / 100
  | .dieSpad d _ => d
  | .hbm d _ => d
  | .agent d => d
  | .launch d => d
  | .hostPath d => d
  | .seqr k => k / 100
  | .ordUnit d => d
  | .port _ => 16

/-- R242: a scope relative to a core contains a unit. -/
def inScope (cid scope : Nat) (l : Loc) : Bool :=
  match l with
  | .core c =>
    match scope with
    | 0 => c == cid
    | 1 => cellOf c == cellOf cid
    | 2 => clidOf c == clidOf cid
    | 3 => dieOf c == dieOf cid
    | _ => true
  | .cluster k => if scope < 2 then false else if scope = 2 then k == clidOf cid else if scope = 3 then k / 100 == dieOf cid else true
  | .seqr k => if scope < 2 then false else if scope = 2 then k == clidOf cid else if scope = 3 then k / 100 == dieOf cid else true
  | .port _ => decide (5 ≤ scope)
  | .dieSpad d _ => if scope < 3 then false else if scope = 3 then d == dieOf cid else true
  | .hbm d _ => if scope < 3 then false else if scope = 3 then d == dieOf cid else true
  | .agent d => if scope < 3 then false else if scope = 3 then d == dieOf cid else true
  | .launch d => if scope < 3 then false else if scope = 3 then d == dieOf cid else true
  | .hostPath _ => decide (5 ≤ scope)
  | .ordUnit d => if scope < 3 then false else if scope = 3 then d == dieOf cid else true

namespace State

/-! ### Instances (R286) -/

/-- The key of an instance: its partition and its handle. -/
def instKey (p : Nat) (h : Word) : Nat := p * 2 ^ 64 + h.toNat
/-- An instance, where the key names one. -/
def inst (s : State) (k : Nat) : Option Inst := (s.insts.find? (fun x => x.1 == k)).map (·.2)
/-- An instance replaced. -/
def setInst (s : State) (k : Nat) (i : Inst) : State := { s with insts := s.insts.set k i }
/-- An instance changed, where there is one. -/
def modInst (s : State) (k : Nat) (g : Inst → Inst) : State := match s.inst k with | some i => s.setInst k (g i) | none => s
/-- An instance is being ended: its signals fire nothing (R299). -/
def stopping (s : State) (k : Nat) : Bool := match s.inst k with | some i => i.stopping != 0 | none => false
/-- The graph of an instance (R284). -/
def graphOf (s : State) (k : Nat) : Option Graph :=
  match s.inst k with
  | none => none
  | some i => match (s.part i.part).image with | none => none | some im => im.graphs[i.graph]?

/-! ### Commands and faults (R191, R361, R362) -/

/-- Who issues: the frame, firing and instance of the context, and the code address of the instruction. -/
def issuer (s : State) : Issuer :=
  { fref := s.ctx.fref, cid := s.cur.1, fid := s.ctx.fid, pc := s.ctx.ipc.toNat, inst := s.ctx.inst, part := s.partOf s.cur.1
    ctx := s.cur.2 }

/-- The key of the frame of the context that issues: the local frame at fb (R43). -/
def ownFrame (s : State) : Nat := s.localKey s.cur.1 s.ctx.frame
/-- The async count of the issuing frame (R171). -/
def asyncCount (s : State) : Nat := hdrAsync (s.readW s.ownFrame)

/-- The context that issues, as a writer and a reader of its pipeline (R241). -/
def pipeWriter (s : State) : Writer := { fid := s.ctx.fid, inst := s.ctx.inst, by_ := 0, num := s.seq, tag := 0 }
/-- The pipeline of the context that issues as a reader. -/
def pipeReader (s : State) : Reader := { fid := s.ctx.fid, by_ := 0, num := 0 }

/-- The commands that a frame has outstanding, in issue order (R362). -/
def outstanding (s : State) (fref : Nat) : List Nat := (s.cmds.filter (fun x => x.2.from_.fref == fref)).map (·.1)

end State

/-- A command entry (R362). -/
def cmdEntry (c : Cmd) (outcome progress : Nat) : Word :=
  BitVec.ofNat 64 (1 + c.major % 64 * 2 + c.minor % 64 * 2 ^ 7 + outcome % 4 * 2 ^ 13 + min progress (2 ^ 48 - 1) * 2 ^ 16)

/-- The entries that a fault of a frame starts with: final only where the command has already faulted (R362). -/
def State.entriesAt (s : State) (fref : Nat) : List (Nat × Option Word) :=
  (s.cmds.filter (fun x => x.2.from_.fref == fref)).map (fun x => (x.1, x.2.failed.map (fun y => cmdEntry x.2 2 y.1)))

/-- The prefixes that those entries bring (R362). -/
def State.extAt (s : State) (fref : Nat) : List (Nat × List Nat) :=
  s.cmds.filterMap (fun x => if x.2.from_.fref = fref then x.2.failed.map (fun y => (x.1, y.2)) else none)

/-- A command's entry put into the records that list it and wait for it (R362). -/
def fillEntries (l : List FaultRec) (id : Nat) (w : Word) (ext : List Nat) : List FaultRec :=
  l.map (fun r =>
    if r.cmds.any (fun x => x.1 == id && x.2.isNone) then
      { r with cmds := r.cmds.map (fun x => if x.1 = id ∧ x.2 = none then (id, some w) else x), ext := r.ext ++ [(id, ext)] }
    else r)

namespace State

/-- A fault enters the list of the records to be written. -/
def addFault (s : State) (r : FaultRec) : State := { s with faults := s.faults ++ [r] }

/-- The handle of an instance, 0 where the key names none. -/
def handleOf (s : State) (k : Nat) : Word := match s.inst k with | some i => i.handle | none => 0

/-- The async count of a frame lowered by 1 (R191). -/
def dropAsync (s : State) (fref : Nat) : State :=
  let k := s.frameKey (frefCore fref) (frefName fref)
  let h := s.readW k
  s.writeW k (setAsync h (hdrAsync h - 1))

/-- A new asynchronous command of the issuing frame: its count rises by 1 (R191). Answers the command's number. -/
def newCmd (s : State) (major minor : Nat) : State × Nat :=
  let h := s.readW s.ownFrame
  let t := s.writeW s.ownFrame (setAsync h (hdrAsync h + 1))
  ({ t with cmds := t.cmds.set s.seq { from_ := s.issuer, major := major, minor := minor, failed := none }, seq := s.seq + 1 }, s.seq)

/-- A command is no longer outstanding: its frame's count falls (R191). -/
def dropCmd (s : State) (id : Nat) : State :=
  match s.cmds.find? (fun x => x.1 == id) with
  | none => s
  | some x => ({ s with cmds := s.cmds.erase id }).dropAsync x.2.from_.fref

/-- A command has completed (outcome 0) or was stopped by twcan (outcome 3): its entry is final and the count falls. -/
def finishCmd (s : State) (id outcome progress : Nat) (ext : List Nat) : State :=
  match s.cmds.find? (fun x => x.1 == id) with
  | none => s
  | some x => ({ s with faults := fillEntries s.faults id (cmdEntry x.2 outcome progress) ext }).dropCmd id

/-- A command faults: a kind-1 record waits to be written, other records show outcome 2, and the count falls at the write
(R238, R362). -/
def failCmd (s : State) (id : Nat) (code : BitVec 8) (progress : Nat) (ext : List Nat) : State :=
  match s.cmds.find? (fun x => x.1 == id) with
  | none => s
  | some x =>
    let c := x.2
    let s1 := { s with
      faults := fillEntries s.faults id (cmdEntry c 2 progress) ext
      cmds := s.cmds.set id { c with failed := some (progress, ext) } }
    s1.addFault
      { kind := 1, code := code, part := c.from_.part, inst := c.from_.inst, handle := s.handleOf c.from_.inst, cid := c.from_.cid
        f := frefName c.from_.fref, w2 := BitVec.ofNat 64 c.from_.fref, w3 := BitVec.ofNat 64 (c.from_.pc % 2 ^ 32), rest := []
        cmds := (s.entriesAt c.from_.fref).map (fun y => if y.1 = id then (id, some (cmdEntry c 1 progress)) else y)
        ext := s.extAt c.from_.fref ++ [(id, ext)], cb := none, own := id, acts := true }

/-- R388, R167: a kind-1 record for a request that is no asynchronous command. -/
def faultRequest (s : State) (i : Issuer) (code : BitVec 8) : State :=
  s.addFault
    { kind := 1, code := code, part := i.part, inst := i.inst, handle := s.handleOf i.inst, cid := i.cid, f := frefName i.fref
      w2 := BitVec.ofNat 64 i.fref, w3 := BitVec.ofNat 64 (i.pc % 2 ^ 32), rest := [], cmds := s.entriesAt i.fref, ext := s.extAt i.fref
      cb := none, own := 0, acts := true }

/-- A command or a request faults: a command by failCmd, any other by R388. -/
def faultFor (s : State) (i : Issuer) (cmd : Nat) (code : BitVec 8) : State :=
  if cmd = 0 then s.faultRequest i code else s.failCmd cmd code 0 []

/-- The context that issues becomes free: the firing's state ceases to exist and its lanes return (R112, R129). -/
def endFiring (s : State) : State := s.setCtx Ctx.init

/-- TAKING A FAULT (R40, R361): the firing of the context that issues ends with a code; its kind-0 record, with the address of
the instruction, the issued count before it and the commands outstanding, waits to be written. aux is the operand of trap. -/
def takeFault (s : State) (code : BitVec 8) (aux : Nat) : State :=
  let c := s.ctx
  let before := if code = 0x08 then 0xFFFF else c.issued - 1
  (s.addFault
    { kind := 0, code := code, part := s.partOf s.cur.1, inst := c.inst, handle := s.handleOf c.inst, cid := s.cur.1
      f := frefName c.fref, w2 := BitVec.ofNat 64 (c.slot * 2 ^ 32 + c.fref)
      w3 := BitVec.ofNat 64 (c.ipc.toNat % 2 ^ 32 + before % 2 ^ 16 * 2 ^ 32 + min aux 0xFFFF * 2 ^ 48), rest := []
      cmds := s.entriesAt c.fref, ext := s.extAt c.fref, cb := some (hdrCb (s.readW s.ownFrame)), own := 0, acts := true }).endFiring

/-! ### Issue (R38, R39, R81) -/

/-- An instruction issues: it counts, the core's cycle counter goes on by its cycle and those that pass beside it (log entry 9),
the context is the last that issued, and the next instruction is the one after it. -/
def countIssue (s : State) (len : Nat) : State :=
  (s.modCur (fun c => { c with cyc := c.cyc + 1 + Config.freeWait s.tick, last := s.cur.2 })).modCtx
    (fun k => { k with issued := k.issued + 1, ipc := k.pc, pc := k.pc + BitVec.ofNat 64 len })

end State

/-- R81: the guard of a context decides whether an instruction executes. -/
def guardHolds (g : BitVec 4) (k : Ctx) : Bool :=
  let n := g.toNat % 8
  (n == 0 || k.p.getLsbD n) != g.getLsbD 3

/-- A fault code (R359). -/
abbrev Code := BitVec 8

/-- The bytes that the parcels of an instruction may take, from the code store of the core's cluster (R51, R77). DESIGN CHOICE (log
entry 49): the manual does not say what a fetch past the end of the 512 KiB store gives; the address of parcel 0 wraps at 512 KiB,
and parcels that run past the end come from the store of the next cluster. -/
def fetchBytes (s : State) (cid pc : Nat) : List Byte := s.readBytes (codeKey (clidOf cid) (pc % 2 ^ 19)) 12

/-- The issue of an instruction of len bytes (R40, R81): it counts as issued; where its guard is false it does nothing else;
where its body meets a fault the firing ends with the code and no other effect; otherwise its body's effect. -/
def issue (len : Nat) (g : BitVec 4) (s : State) (body : State → Except Code State) : Out :=
  let s1 := s.countIssue len
  if guardHolds g s1.ctx then
    match body s1 with
    | .ok t => .next t
    | .error c => .next (s1.takeFault c 0)
  else .next s1

/-- A test that faults with a code where it fails. -/
def need (b : Bool) (c : Code) : Except Code Unit := if b then .ok () else .error c

/-! ### Packets -/

/-- A packet needs neither the torus nor a crossbar: it stays on its core, in its cluster or in its agent, or it goes through an optical
port. -/
def direct : Loc → Loc → Bool
  | .core a, .core b => a == b
  | .core a, .cluster k => clidOf a == k
  | .core a, .seqr k => clidOf a == k
  | .cluster k, .core a => clidOf a == k
  | .cluster k, .cluster l => k == l
  | .seqr k, .core a => clidOf a == k
  | .agent d, .agent e => d == e
  | .launch d, .launch e => d == e
  | .hostPath d, .hostPath e => d == e
  | .port _, _ => true
  | _, .port _ => true
  | _, _ => false

/-- The unit whose scratchpad holds a byte (R204, R208); of a die scratchpad the slice of a die that is not split. -/
def locOfKey (k : Nat) : Loc :=
  match k / 2 ^ 60 with
  | 0 => .core (k % 2 ^ 60 / 2 ^ 17)
  | 1 => .cluster (k % 2 ^ 60 / 2 ^ 22)
  | _ => .dieSpad (k % 2 ^ 60 / 2 ^ 28) (k / 256 % 32)

/-- The place that a scope is judged by (R242, R244): the core of the frame for a request that its die agent carries out, and the
scratchpad of the word for an afadd that goes to an ordered-reduction unit (R335). -/
def scopeLoc (p : Packet) : Loc :=
  match p.dst with
  | .agent _ => .core (frefCore p.target)
  | .ordUnit _ => locOfKey p.lo
  | l => l

/-- The unit that a request to a frame goes to: the core's slot unit, or the die agent for a spilled frame (R192). -/
def frameDst (fref : Nat) : Loc := if frefName fref < 4096 then .core (frefCore fref) else .agent (frefCore fref / 25600)

namespace State

/-- The unit whose scratchpad holds a byte, with the slice of its die scratchpad: on a split die the slices of the quarter (R208). -/
def unitOf (s : State) (k : Nat) : Loc :=
  match locOfKey k with
  | .dieSpad d n => .dieSpad d (if isSplit (s.liveRegion.get 0 d) then k % 2 ^ 28 / 2 ^ 26 * 8 + k / 256 % 8 else n)
  | l => l

/-- A partition leaves quiescence (R369). -/
def unquiet (s : State) (p : Nat) : State :=
  { s with parts := if (s.part p).quiesced then s.parts.set p { s.part p with quiesced := false } else s.parts }
/-- A packet leaves, so that its partition is not quiescent (R369): it takes the next number, carries the current generation (R339), and is
at its target at once where it needs no crossing. -/
def send (s0 : State) (p : Packet) : State :=
  let s := s0.unquiet p.from_.part
  { s with
    net := s.net.set s.seq { p with gen := s.mgmt.gen, pos := if direct p.src p.dst then .ready else .sender }
    seq := s.seq + 1 }

/-- A packet of the signal class without order or release. -/
def packetOf (body : Body) (src dst : Loc) (fref : Nat) (i : Issuer) : Packet :=
  { body := body, src := src, dst := dst, target := fref, ret := { ow := 0, slot := none, bytes := 1 }, from_ := i, cmd := 0, bulk := false
    ord := 0, outb := false, lo := 0, len := 0, rel := false, scope := 4, relLo := 0, relLen := 0, sem := 1, fences := [], gen := 0
    splice := 64, pos := .sender }

/-- A signal to a slot reference from a unit (R175): value in count mode, value in byte mode, source of R361. -/
def sendSignal (s : State) (src : Loc) (i : Issuer) (sref val bytes source : Nat) : State :=
  s.send (packetOf (.signal sref val bytes false source) src (frameDst (srefFref sref)) (srefFref sref) i)

/-- The completion of a command at a unit (R218, R219, R389): its slot is signalled, where it names one, and it is finished. -/
def complete (s : State) (src : Loc) (i : Issuer) (r : Ret) (cmd progress : Nat) : State :=
  let t := match r.slot with | some x => s.sendSignal src i x 1 r.bytes 1 | none => s
  t.finishCmd cmd 0 progress []

/-- What the completion of a command releases is kept where a fault record that waits to be written lists the command: the handler acquires
it (R363). -/
def keepFor (s : State) (cmd : Nat) (q : Older → Bool) : State :=
  if s.faults.any (fun r => r.cmds.any (fun x => x.1 == cmd)) then s.bindTo (.cmd cmd) q else s
/-- A completion that releases writes (R219, R251). -/
def completeFor (s : State) (q : Older → Bool) (src : Loc) (i : Issuer) (r : Ret) (cmd progress : Nat) : State :=
  ((if r.slot.isSome then s.bindTo (.cover s.seq) q else s).keepFor cmd q).complete src i r cmd progress

/-- The reply to a request leaves its target for the issuing core (R219). -/
def sendReply (s : State) (src : Loc) (p : Packet) (v : Word) (poison : Bool) : State :=
  s.send { packetOf (.reply v poison) src (.core p.from_.cid) p.from_.fref p.from_ with ret := p.ret, cmd := p.cmd }

/-- A packet of the net. -/
def packet (s : State) (k : Nat) : Option Packet := (s.net.find? (fun x => x.1 == k)).map (·.2)
/-- A packet removed. -/
def dropPacket (s : State) (k : Nat) : State := { s with net := s.net.erase k }
/-- A packet replaced. -/
def setPacket (s : State) (k : Nat) (p : Packet) : State := { s with net := s.net.set k p }

end State

/-- R264, R266: two ldst requests to different owners are answered in either order, and so is one that its owner has returned. -/
def freeSteps (p q : Packet) : Bool :=
  match p.body, q.body with
  | .ldst .., .ldst .. => p.dst != q.dst || p.pos == .returned
  | _, _ => false

/-- R336: an afadd that is collected leaves later ones for its word free to be collected: a round keeps their issue order. -/
def sameRound (p q : Packet) : Bool :=
  match p.body, q.body with
  | .atomic 10 .., .atomic 10 .. => p.pos == .kept && p.lo == q.lo
  | _, _ => false

/-- R202: two ring instructions of one context on one block are applied in issue order, whatever their firings. -/
def ringOrder (p q : Packet) : Bool :=
  match p.body, q.body with
  | .ring .., .ring .. => p.from_.cid == q.from_.cid && p.from_.ctx == q.from_.ctx && p.lo == q.lo
  | _, _ => false

/-- Where the bytes of an outbound access lie now: an operand word of a spilled frame lies in the frame's resident copy, and in its image
where it has none (R183, R186). -/
def State.bytesAt (s : State) (p : Packet) : Nat :=
  match p.body with
  | .stf u _ => s.frameKey (frefCore p.target) (frefName p.target) + 8 * u
  | .ldf u => s.frameKey (frefCore p.target) (frefName p.target) + 8 * u
  | _ => p.lo

/-- The bytes of two outbound accesses overlap (R241). -/
def State.sameBytes (s : State) (p q : Packet) : Bool := overlaps (s.bytesAt p) p.len (s.bytesAt q) q.len

/-- R241, R202: an earlier access in the outbound domain that must be performed first. -/
def orderBlocked (s : State) (k : Nat) (p : Packet) : Bool :=
  p.outb && s.net.any (fun x => decide (x.1 < k) && x.2.outb &&
    (ringOrder x.2 p || (x.2.from_.fid == p.from_.fid && (x.2.ord == p.ord || s.sameBytes x.2 p) &&
      !(freeSteps x.2 p) && !(sameRound x.2 p))))

/-- An earlier access of its firing that is no part of the same merged request must be performed before a part is (R241, R333). -/
def partBlocked (s : State) (nums : List Nat) (k : Nat) (p : Packet) : Bool :=
  s.net.any (fun x => decide (x.1 < k) && x.2.outb && x.2.from_.fid == p.from_.fid && !(nums.contains x.1) &&
    (x.2.ord == p.ord || s.sameBytes x.2 p))

/-- A packet at its target may be applied: it is not held, and R241 lets it. -/
def mayApply (s : State) (k : Nat) (p : Packet) : Bool :=
  p.pos == .ready && !p.rel && p.fences.isEmpty && !(orderBlocked s k p)

/-- R274, R282: a sqstep or sqstage waits for an earlier sarm of its firing to a slot of the firing's own core. -/
def armFirst (p q : Packet) : Bool :=
  match p.body, q.body with
  | .arm .., .sqstep _ => scopeLoc p == .core q.from_.cid
  | .arm .., .sqstage .. => scopeLoc p == .core q.from_.cid
  | _, _ => false

/-- The writes that a packet's release passes of its own firing's accesses, those issued before it; of a sigb those to the bytes it names
(R189, R196, R244, R248). -/
def passesOwn (k : Nat) (p : Packet) (e : Older) : Bool :=
  e.fid == p.from_.fid && decide (e.by_ ≤ 1) && decide (e.num ≤ k) &&
    (if p.relLen = 0 then p.sem == 0 || p.sem == 3 else overlaps e.lo e.len p.relLo p.relLen)
/-- The writes that a packet passes on because its firing acquired them (R189, R244). -/
def passesOn (p : Packet) (e : Older) : Bool := (p.sem == 2 || p.sem == 3) && e.bound.contains (.firing p.from_.fid)
/-- The writes that packet k brings to a core (R242, R244, R251): what its unit releases with it, and what its firing passes where the core
lies in the scope. -/
def brings (k : Nat) (p : Packet) (cid : Nat) (e : Older) : Bool :=
  e.bound.contains (.cover k) || (inScope p.from_.cid p.scope (.core cid) && (passesOwn k p e || passesOn p e))
/-- An outbound access that writes the bytes it touches. -/
def writesBytes (p : Packet) : Bool :=
  match p.body with
  | .ldrm .. => false
  | .ldf .. => false
  | .ldst .. => false
  | .ring 3 .. => false
  | _ => true
/-- The writer of an outbound access. -/
def writerOf (k : Nat) (p : Packet) : Writer := { fid := p.from_.fid, inst := p.from_.inst, by_ := 1, num := k, tag := 0 }
/-- The reader of an outbound access. -/
def readerOf (k : Nat) (p : Packet) : Reader := { fid := p.from_.fid, by_ := 1, num := k }

/-- A release waits for an access (R196, R244): an earlier one of its firing in the outbound domain that is not yet performed;
a sigb only for a write that overlaps the bytes it names. Accesses outside the release's scope are waited for too (log entry 7). A
release toward the sequencer waits for the armings of R282 as well. -/
def relPending (s : State) (k : Nat) (p : Packet) : Bool :=
  s.net.any (fun x => decide (x.1 < k) && x.2.from_.fid == p.from_.fid &&
    (armFirst x.2 p || (x.2.outb && (p.relLen == 0 || (writesBytes x.2 && overlaps (s.bytesAt x.2) x.2.len p.relLo p.relLen)))))

namespace State

/-- A request of the firing that issues, with its order class and the fences that hold it (R229, R241). -/
def request (s : State) (body : Body) (dst : Loc) (fref : Nat) (r : Ret) (cmd : Nat) (ord : BitVec 2) (lo len : Nat) : Packet :=
  { packetOf body (.core s.cur.1) dst fref s.issuer with
    ret := r, cmd := cmd, ord := ord.toNat, outb := true, lo := lo, len := len, fences := s.ctx.fences }

/-- A request that is no access: a signal, an arming or a free. -/
def notice (s : State) (body : Body) (dst : Loc) (fref : Nat) : Packet :=
  { packetOf body (.core s.cur.1) dst fref s.issuer with fences := s.ctx.fences }

/-- A packet given its release (R189): under .rel and .ar it is held while an access that it passes is not performed; a target
outside the scope is passed nothing. -/
def withRelease (s : State) (p : Packet) (sem scope : Nat) : Packet :=
  let q := { p with sem := sem, scope := scope }
  { q with rel := (sem == 0 || sem == 3) && inScope s.cur.1 scope (scopeLoc p) && relPending s s.seq q }

end State

/-! ### The slot unit (R175 to R180) -/

/-- A signal as a slot unit takes it. -/
structure Sig where
  val : Nat
  bytes : Nat
  fire : Bool
  from_ : Issuer
  source : Nat
deriving DecidableEq, Repr, Inhabited

/-- The sender word of R361. -/
def senderWord (g : Sig) : Word := BitVec.ofNat 64 (g.from_.fref % 2 ^ 32 + g.source % 16 * 2 ^ 32)

/-- Word 7 of a kind-2 record: signals in the cycle, and V saturating (R361). -/
def signalsWord (n v : Nat) : Word := BitVec.ofNat 64 (n % 2 ^ 32 + min v (2 ^ 32 - 1) * 2 ^ 32)

namespace State

/-- The instance that owns a frame of a core (R176). A frame that was never allocated has none: key 0 names no instance (DESIGN CHOICE, log entry
27). -/
def ownerOf (s : State) (cid f : Nat) : Nat := ((s.core cid).owners.get { inst := 0, depth := 0, limit := 0 } f).inst

/-- A fault of a target slot (R176). -/
def slotFault (s : State) (cid f k : Nat) (code : Code) (sigs : List Sig) (n v : Nat) : State :=
  let ws := sigs.map senderWord
  s.addFault
    { kind := 2, code := code, part := s.partOf cid, inst := s.ownerOf cid f, handle := s.handleOf (s.ownerOf cid f), cid := cid, f := f
      w2 := BitVec.ofNat 64 (mkSref cid f k), w3 := ws.getD 0 0
      rest := [ws.getD 1 0, ws.getD 2 0, ws.getD 3 0, signalsWord n v], cmds := [], ext := [], cb := none, own := 0, acts := true }

/-- A slot's entry enters the ready queue, or the fill list for a spilled image, and its queued mark is set (R177, R180, R185). With it waits
what the signals that brought the slot to zero pass (R177). -/
def enqueue (s : State) (cid f k level : Nat) (image : Bool) : State :=
  (s.hand (.slot cid f k) (.entry cid f k)).modCore cid (fun c =>
    let e : Ready := { level := level, f := f, slot := k }
    let m := 8 * f + k
    let c1 := { c with marks := (c.marks.filter (· < m)) ++ m :: c.marks.filter (m < ·) }
    if image then { c1 with fill := c1.fill ++ [e] } else { c1 with ready := c1.ready ++ [e] })

/-- reach_zero (R180): a slot whose mark is clear disarms and enters the queue; one whose mark is set is ripe and stays armed
with count 0. A slot of an instance that is being ended disarms and fires nothing (R299). The slot word's count is 0 already. -/
def reachZero (s : State) (cid f k key : Nat) (image : Bool) : State :=
  let w := s.readW key
  let off := s.writeW key (mkSlot 0 (slPrio w) (slByte w) false)
  if s.stopping (s.ownerOf cid f) then off
  else if (s.core cid).marks.contains (8 * f + k) then s
  else off.enqueue cid f k (slPrio w) image

/-- The value of a signal at a slot (R175, R196): its bytes in byte mode, its count in count mode. -/
def sigValOf (byteMode : Bool) (g : Sig) : Nat := if byteMode then g.bytes else g.val

/-- R175, R197: the signals that reach a slot in one cycle. key is the slot word's key; image says that it is a spilled image. At an
idle slot each signal is code 0x11 with a record of its own, which names its sender first, then the others of its cycle, and gives
the cycle's signals and their sum (R176, R361; log entry 29). -/
def signalSlot (s : State) (cid f k key : Nat) (image : Bool) (sigs : List Sig) : State :=
  let w := s.readW key
  let W := ((sigs.filter (fun g => !g.fire)).map (sigValOf (slByte w))).sum
  let V := if sigs.any (·.fire) ∧ W ≤ slCount w then slCount w else W
  if sigs.isEmpty then s
  else if slArmed w = false then
    sigs.foldl (fun t g => t.slotFault cid f k 0x11 (g :: sigs.erase g) sigs.length W) s
  else if slCount w < V then
    (s.writeW key (mkSlot (slCount w) (slPrio w) (slByte w) false)).slotFault cid f k 0x10 sigs sigs.length V
  else if V = slCount w then
    (s.writeW key (mkSlot 0 (slPrio w) (slByte w) true)).reachZero cid f k key image
  else s.writeW key (mkSlot (slCount w - V) (slPrio w) (slByte w) true)

/-- R175, R195: an arming, then the other signals of its cycle. An arming with count 0 fires the slot at once, and every signal
of that cycle other than a fire faults; the record counts and names the cycle's signals, fires among them (R361). Where the slot's queued
mark is set, the slot stays ripe beside that fault (log entry 50). -/
def armSlot (s : State) (cid f k key : Nat) (image : Bool) (w : Word) (sigs : List Sig) : State :=
  let t := s.writeW key w
  if slArmed w ∧ slCount w = 0 then
    let others := sigs.filter (fun g => !g.fire)
    let u := t.reachZero cid f k key image
    if others.isEmpty then u
    else u.slotFault cid f k 0x10 sigs sigs.length ((others.map (sigValOf (slByte w))).sum)
  else t.signalSlot cid f k key image sigs

/-- A slot is armed anew: what earlier signals brought it is forgotten. -/
def freshSlot (s : State) (cid f k : Nat) : State :=
  s.unbind (fun x => match x with
    | .slot c g j => c == cid && g == f && j == k
    | .arming c g j _ _ => c == cid && g == f && j == k
    | _ => false)
/-- Every slot of a frame is armed anew. -/
def freshFrame (s : State) (cid f : Nat) : State := (List.range 8).foldl (fun t k => t.freshSlot cid f k) s
/-- What an arming of a slot passes to the signals that its firing sends to the slot later (R195). -/
def passArming (s : State) (cid f k n : Nat) (p : Packet) : State :=
  (s.freshSlot cid f k).bindTo (.arming cid f k p.from_.fid n) (brings n p cid)
/-- What the signals of packets bring to a slot (R177, R244); a signal brings what an arming that its firing issued before it passes (R195). -/
def gatherAt (s : State) (cid f k : Nat) (ks : List Nat) : State :=
  s.bindTo (.slot cid f k) (fun e => ks.any (fun n => match s.packet n with
    | none => false
    | some p => brings n p cid e || e.bound.any (fun x => match x with
      | .arming c g j fid m => c == cid && g == f && j == k && fid == p.from_.fid && decide (m < n)
      | _ => false)))

/-- The key of slot word k of a frame. -/
def slotKey (s : State) (cid f k : Nat) : Nat := s.frameKey cid f + 16 + 8 * k

/-- n bytes copied with their poison, by aligned words (R220). The copying agent has read the newest values, which every party reads from then
on (R250, log entry 7). -/
def copyRange (s : State) (dst src n : Nat) : State :=
  let t := (s.publish src n).writeBytes dst (s.readBytes src n)
  (List.range ((n + 7) / 8)).foldl (fun u i => if s.poisoned (src + 8 * i) 8 then u.addPoison (dst + 8 * i) 8 else u) t

/-! ### Taking and writing a frame (R182, R193, R194) -/

/-- An entry of a frame waits in the ready queue or in the fill list of its core. -/
def queuedAt (c : Core) (f : Nat) : Bool := c.ready.any (fun e => e.f == f) || c.fill.any (fun e => e.f == f)

/-- A local frame's index is in the free pool: not allocated, no firing of it runs, and no entry of it waits, nor one of the spilled frame
whose freed copy it was (R194). Neither is one whose outstanding commands still count in its header (log entry 51). -/
def localFree (s : State) (cid i : Nat) : Bool :=
  let c := s.core cid
  let h := s.readW (s.localKey cid i)
  !(hdrAlloc h) && !(c.ctx0.busy && c.ctx0.frame == i) && !(c.ctx1.busy && c.ctx1.frame == i) &&
    !(queuedAt c i) && !(c.late.any (fun x => x.1 == i && queuedAt c x.2)) && !(c.wback.contains i) && hdrAsync h == 0 &&
    !(match c.filling with | some x => x.1 == i | none => false)

/-- A spilled index is free: no entry of it waits in the ready queue, in the fill list or in a fill under way (R182, R194). -/
def spillFree (s : State) (cid i : Nat) : Bool :=
  let c := s.core cid
  !(hdrAlloc (s.readW (s.spillKey cid i))) && (s.residentOf cid i).isNone && !(queuedAt c (4096 + i)) && !(match c.filling with | some x => x.2.f == 4096 + i | none => false)

/-- The lowest-numbered free local frame. -/
def freeLocal (s : State) (cid : Nat) : Option Nat := (List.range (s.frames (s.partOf cid))).find? (s.localFree cid)

/-- R45, R254: the step state and the pacing record of a paced instance that started while a firing ran take effect once both
contexts of the core are free, and the core dispatches nothing before (DESIGN CHOICE, log entry 74). -/
def settlePace (s : State) (cid : Nat) : State :=
  let c := s.core cid
  match c.nextPace with
  | some x =>
    if c.ctx0.busy || c.ctx1.busy then s
    else (s.unbind (fun x => match x with | .step c _ => c == cid | _ => false)).modCore cid (fun c => { c with
      stp := 0, done := false, known := [], stepds := [], pace := x, nextPace := none })
  | none => s
/-- A core's step unit has the state of the paced instance that is live (R45, R254). -/
def paceSettled (s : State) (cid : Nat) : Bool := (s.core cid).nextPace.isNone

/-- The spilled frames that wait on the fill list for a local frame: allocated ones that are neither resident nor being filled, each
once (R182, R185, R186, R194). -/
def waitingFrames (s : State) (cid : Nat) : List Nat :=
  let c := s.core cid
  ((c.fill.map (fun e => e.f)).filter (fun f => hdrAlloc (s.readW (s.spillKey cid (f - 4096))) &&
    (s.residentOf cid (f - 4096)).isNone && !(match c.filling with | some x => x.2.f == f | none => false))).eraseDups

/-- R182: the lowest free local frame, else the lowest free index of the spill region; a free local frame is left to each frame that
waits on the fill list for one. Answers the name of the frame. -/
def takeFrame (s : State) (cid : Nat) : Option Nat :=
  let free := (List.range (s.frames (s.partOf cid))).filter (s.localFree cid)
  match free.drop (s.waitingFrames cid).length with
  | i :: _ => some i
  | [] => ((List.range (s.spillSize (s.partOf cid) (dieOf cid))).find? (s.spillFree cid)).map (4096 + ·)

/-- The template of slot k of a codeblock (R68, R172). -/
def templateOf (im : Option Image) (cb k : Nat) : Word :=
  match im with
  | none => 0
  | some i => match i.blocks[cb]? with | none => 0 | some b => (b.templates.getD k 0).setWidth 64

/-- R193: a new frame's header, word 1 and slots, in the order of the slots; a template armed with count 0 fires at once (R175).
sigs are the signals of the same cycle, each with its slot.
The operand words keep their bytes. The copies that the index once had are no longer waited for: a spilled index that is taken has no entry
left (R194). -/
def writeFrame (s : State) (cid f cb : Nat) (parent : Word) (o : Own) (sigs : List (Nat × Sig)) : State :=
  let key := s.frameKey cid f
  let image := decide (4096 ≤ f)
  let t := ((s.writeW key (mkHdr cb true false 0 0)).writeW (key + 8) parent).modCore cid (fun c => { c with
    owners := c.owners.set f o, late := c.late.filter (fun x => x.2 != f) })
  (List.range 8).foldl (fun u k => u.armSlot cid f k (key + 16 + 8 * k) image (templateOf (s.part (s.partOf cid)).image cb k)
    ((sigs.filter (fun x => x.1 == k)).map (·.2))) t

end State

end Sys2Proof.Machine
end

