-- ==== Sys2Proof/Machine/Operands.lean ====
section
/-! DEFINITION. The operand forms: scalar registers with the fixed meanings of R42 and the neighbour ports of R47, predicates,
masks, spools and immediates. -/

namespace Sys2Proof.Machine

namespace State

/-- fb (R43). -/
def fb (s : State) : Word := BitVec.ofNat 64 (s.carveBase s.cur.1 + 256 * s.ctx.frame)
/-- fi (R44). -/
def fi (s : State) : Word := BitVec.ofNat 64 (s.ctx.slot % 8 + s.cur.2 % 2 * 8 + s.ctx.frame % 256 * 16)

/-- R42, R47: the value of a scalar register as a source. A port pops the word at the head of its inbound FIFO; an empty one
faults with code 0x05. -/
def readS (s : State) (r : BitVec 6) : Except Code (Word × State) :=
  match r.toNat with
  | 0 => .ok (0, s)
  | 60 => .ok (s.fb, s)
  | 61 => .ok (s.fi, s)
  | 62 => .ok ((s.core s.cur.1).stp, s)
  | n =>
    if 56 ≤ n ∧ n ≤ 59 then
      match (s.core s.cur.1).inq.get [] (n - 56) with
      | [] => .error 0x05
      | w :: t => .ok (w, s.modCur (fun c => { c with inq := c.inq.set (n - 56) t }))
    else .ok (s.ctx.s.get 0 n, s)

/-- R42, R47: a value written to a scalar register. s0 discards it; a port pushes it, and a full outbound FIFO faults with code
0x06. (s60 to s62 are no destinations, R85.) -/
def writeS (s : State) (r : BitVec 6) (v : Word) : Except Code State :=
  let n := r.toNat
  if n = 0 ∨ n = 60 ∨ n = 61 ∨ n = 62 then .ok s
  else if 56 ≤ n ∧ n ≤ 59 then
    let q := (s.core s.cur.1).outq.get [] (n - 56)
    if 16 ≤ q.length then .error 0x06
    else .ok (s.modCur (fun c => { c with outq := c.outq.set (n - 56) (q ++ [v]) }))
  else .ok (s.modCtx (fun k => { k with s := k.s.set n v }))

/-- Sources a and b in that order (R47). -/
def readAB (s : State) (f : WForm) : Except Code (Word × Word × State) := do
  let (a, s1) ← s.readS f.a
  let (b, s2) ← s1.readS f.b
  pure (a, b, s2)

/-- A predicate register; p0 is true (R41). -/
def readP (s : State) (n : Nat) : Bool := n % 8 == 0 || s.ctx.p.getLsbD (n % 8)
/-- A predicate written; p0 discards it (R42). -/
def writeP (s : State) (n : Nat) (b : Bool) : State :=
  if n % 8 = 0 then s
  else s.modCtx (fun k => { k with p := if b then k.p ||| (1#8 <<< (n % 8)) else k.p &&& ~~~(1#8 <<< (n % 8)) })

/-- A lane mask register; k0 is all ones (R41). -/
def readK (s : State) (n : Nat) : BitVec 32 := if n % 8 = 0 then BitVec.allOnes 32 else s.ctx.k.get 0 (n % 8)
/-- A lane mask written; k0 discards it (R42). -/
def writeK (s : State) (n : Nat) (v : BitVec 32) : State :=
  if n % 8 = 0 then s else s.modCtx (fun k => { k with k := k.k.set (n % 8) v })

/-- A spool register (R41). -/
def readY (s : State) (n : Nat) : Spool := s.ctx.y.get Spool.zero n
/-- A spool register written. -/
def writeY (s : State) (n : Nat) (v : Spool) : State := s.modCtx (fun k => { k with y := k.y.set n v })

/-- Lane i of a vector register (R41). -/
def readV (s : State) (r : BitVec 6) (i : Nat) : Lane := s.ctx.v.get Lane.zero (32 * r.toNat + i)
/-- Lane i of a vector register written. -/
def writeV (s : State) (r : BitVec 6) (i : Nat) (v : Lane) : State := s.modCtx (fun k => { k with v := k.v.set (32 * r.toNat + i) v })
/-- Lane i of a vector spool register. -/
def readWsp (s : State) (n i : Nat) : Spool := s.ctx.w.get Spool.zero (32 * n + i)
/-- Lane i of a vector spool register written. -/
def writeWsp (s : State) (n i : Nat) (v : Spool) : State := s.modCtx (fun k => { k with w := k.w.set (32 * n + i) v })

/-- R190, R217: a slot operand: s0 names no slot where the field is a completion slot (R389); any other word must be a valid
slot reference, or code 0x12. -/
def compSlot (s : State) (r : BitVec 6) (w : Word) : Except Code (Option Nat) :=
  if r = 0 then .ok none
  else if s.srefOk (s.partOf s.cur.1) w.toNat then .ok (some w.toNat) else .error 0x12

end State

end Sys2Proof.Machine
end

