-- ==== Sys2Proof/Machine/Crossbar.lean ====
section
/-! DEFINITION. The crossbars of a die: the numbers of its units, who asks for an output, whose cycle it is, and the turns that agents and
the host path take at the channels of the HBM4 stack (R330 to R332, R344, R346). -/

namespace Sys2Proof.Machine

namespace State

/-- A packet goes between two cores over the torus. -/
def onTorus (p : Packet) : Option (Nat × Nat) :=
  match p.src, p.dst with
  | .core a, .core b => if a = b then none else some (a, b)
  | _, _ => none
/-- A packet goes on the control wavelength, which every die-edge link has beside those of its entry: a step notice (R323). -/
def onControl (p : Packet) : Bool := match p.body with | .notice .. => true | _ => false
/-- A packet is held at its sender (R196, R229). -/
def heldAtSender (p : Packet) : Bool := p.rel || !p.fences.isEmpty

/-- The splice that a packet takes to its target's die. -/
def spliceOf (s : State) (p : Packet) : Option Nat :=
  if onControl p then none else s.spliceFrom p.from_.part (locDie p.src) (locDie p.dst)
/-- The unit of a device-memory address: its channel. -/
def pageLoc (a : Nat) : Loc := .hbm (a / 2 ^ 36) (a / 2 ^ 16 % 32)

/-- The number of a unit of a die: slices 0 to 31, HBM4 channel groups from 32, sequencer ports from 56, launch agent, die agent, host
path, ordered-reduction unit. As a target it is the unit's output of the crossbar, as a sender its input of the mirror; link controllers
have 48 to 55 in both. A cluster is output 64 + k of the mirror (R330). -/
def outputOf : Loc → Nat
  | .dieSpad _ i => i
  | .hbm _ ch => 32 + ch / 2
  | .seqr k => 56 + quarterOf (k % 100)
  | .launch _ => 60
  | .agent _ => 61
  | .hostPath _ => 62
  | .ordUnit _ => 63
  | .cluster k => 64 + k % 100
  | .core c => 64 + clusOf c
  | .port _ => 200
/-- The launch agent, the die agent and the host path: they have inputs and outputs in the crossbar and in the mirror (R330). -/
def isAgent : Loc → Bool
  | .launch _ => true
  | .agent _ => true
  | .hostPath _ => true
  | _ => false
/-- A unit that stands on the side of the clusters: requests go through the crossbar from there, replies through the mirror to it. -/
def atCluster : Loc → Bool
  | .core _ => true
  | .cluster _ => true
  | _ => false
/-- The output that a packet asks for on a die: that of its target, or that of the link controllers where the target lies on another
die: one of the crossbar's eight for a request, the mirror's output 103 for what a unit sends, and an agent to a core or a cluster. What
a unit sends to an agent takes the mirror's outputs 100 to 102, which stand at 164 to 166 here. -/
def outputFor (s : State) (die : Nat) (p : Packet) : Nat :=
  let unit := !(atCluster p.src) && !(isAgent p.src)
  if locDie p.dst = die then (if unit && isAgent p.dst then outputOf p.dst + 104 else outputOf p.dst)
  else if unit || (atCluster p.dst && !(atCluster p.src)) then 167
  else 48 + (s.spliceOf p).getD 0 % 8
/-- The input by which a packet asks: clusters 0 to 99, agents 100 to 102 and inbound requests 103 on the crossbar; on the mirror a unit's
number, and a link controller's for what comes in for a cluster. A cluster asks for another cluster's bank by its own number. -/
def inputOf (s : State) (p : Packet) (out : Nat) : Nat :=
  if p.pos == .inbound then (if 64 ≤ out then 48 + (s.spliceOf p).getD 0 % 8 else 103)
  else match p.src with
    | .core c => clusOf c
    | .cluster k => k % 100
    | .launch _ => if 64 ≤ out then 60 else 100
    | .agent _ => if 64 ≤ out then 61 else 101
    | .hostPath _ => if 64 ≤ out then 62 else 102
    | l => outputOf l
/-- A packet asks for an output of a die's crossbar or mirror. -/
def asks (s : State) (die out : Nat) (p : Packet) : Bool :=
  ((p.pos == .inbound && locDie p.dst == die) || (p.pos == .sender && !(heldAtSender p) && locDie p.src == die && (onTorus p).isNone)) &&
    s.outputFor die p == out
/-- The owner of a packet's cycle in the TDM rotation of a die: 4 for the agents and inbound traffic, else the quarter of its cluster or
of its partition (R332). -/
def turnOf (s : State) (die : Nat) (p : Packet) : Nat :=
  if p.pos == .inbound then 4
  else match p.src with
    | .core c => quarterOf (clusOf c)
    | .cluster k => quarterOf (k % 100)
    | .launch _ => 4
    | .agent _ => 4
    | .hostPath _ => 4
    | _ => s.shareQ p.from_.part die
/-- An output that more than one partition can use on a split die: the channel groups, the link controllers, the agents, the host path
and the ordered-reduction unit, and the mirror's outputs to the agents and to other dies; the slices, the sequencer ports and the clusters belong to one
quarter each (R208, R332). -/
def sharedOutput (out : Nat) : Bool := (decide (32 ≤ out) && decide (out < 56)) || (decide (60 ≤ out) && decide (out < 64)) ||
    (decide (164 ≤ out) && decide (out < 168))
/-- The order of the inputs of an output (R331). -/
def inputOrder (d : Die) (out : Nat) : List Nat := match d.xbar.find? (fun x => x.1 == out) with | some x => x.2 | none => List.range 104
/-- The cycle of an output belongs to an owner, 4 for the agents and inbound traffic, or the output runs no rotation (R332). -/
def ownsCycle (s : State) (die out t : Nat) : Bool :=
  let whole := !(isSplit (s.mgmt.region.get 0 die))
  let c := (s.die die).xcyc.get 0 out
  !(dieRsv s.mgmt.region die) || !(whole || sharedOutput out) || (if c % 5 = 4 then t == 4 else t != 4 && (whole || t == c % 5))
/-- The packets that an output may grant in its cycle. -/
def asking (s : State) (die out : Nat) : Tbl Packet := s.net.filter (fun x => s.asks die out x.2 && s.ownsCycle die out (s.turnOf die x.2))
/-- An output has granted an input: it goes to the end of the order, and a cycle has passed (R331). -/
def granted (s : State) (die out input : Nat) : State :=
  s.modDie die (fun e => { e with
    xcyc := e.xcyc.set out (e.xcyc.get 0 out + 1 + Config.freeWait s.tick)
    xbar := e.xbar.set out ((inputOrder e out).filter (· != input) ++ [input]) })
/-- An access that an agent or the host path makes in one step takes a cycle of the output on its way: there is none while the cycle belongs
to another owner or an input that stands earlier in the order asks (R331, R332). -/
def takeTurn (s : State) (die out input : Nat) : Option State :=
  if s.ownsCycle die out 4 && !((s.asking die out).any (fun x => ((inputOrder (s.die die) out).takeWhile (· != input)).contains (s.inputOf x.2 out)))
  then some (s.granted die out input) else none

/-! ### The channels of the HBM4 stack (R344) -/

/-- A channel of a die may start a request of a quarter's partition: while a reservation lives on the die, only in its owner's window and
where its beats end within the window (R344). -/
def channelOpen (s : State) (die ch q : Nat) : Bool :=
  let c := (s.die die).hcyc.get 0 ch
  !(dieRsv s.mgmt.region die) ||
    ((!(isSplit (s.mgmt.region.get 0 die)) || c % 128 / 32 == q) && decide (c % 32 + Config.freeBeats ch ≤ 32))
/-- The channel of a device-memory address may start a request for it: its owner is the partition whose share the address lies in (R304,
R340). -/
def addrOpen (s : State) (a : Nat) : Bool := s.channelOpen (a / 2 ^ 36) (a / 2 ^ 16 % 32) (a % 2 ^ 36 / 2 ^ 34)
/-- The unit that a packet goes to is a channel that may start its request, or none of the HBM4 stack. -/
def channelFor (s : State) (p : Packet) : Bool :=
  match p.dst with | .hbm d ch => s.channelOpen d ch (s.shareQ p.from_.part d) | _ => true

/-! ### The agents at the HBM4 stack (R330, R346) -/

/-- An agent's access to a page of its die, by its input: it takes a cycle of the channel group's output, and the channel may start it. -/
def agentAccess (s : State) (a input : Nat) : Option State :=
  if s.addrOpen a then s.takeTurn (a / 2 ^ 36) (outputOf (pageLoc a)) input else none
/-- An agent's read of a page of its die: what it reads returns by the mirror, whose outputs to the agents stand at 164 to 166. -/
def agentRead (s : State) (a input : Nat) : Option State :=
  (s.agentAccess a input).bind (fun t => t.takeTurn (a / 2 ^ 36) (input + 64) (outputOf (pageLoc a)))
/-- The die agent's write to a page of its die. -/
def dieAgentTurn (s : State) (a : Nat) : Option State := s.agentAccess a 101
/-- The device-memory address of the image of spilled frame i of a core. -/
def spillAddr (s : State) (cid i : Nat) : Nat := (s.overflowPtr cid + 256 * i) % 2 ^ 40
/-- The die agent's turn at the image of spilled frame i of a core, as a write and as a read. -/
def imageTurn (s : State) (cid i : Nat) : Option State := s.dieAgentTurn (s.spillAddr cid i)
def imageRead (s : State) (cid i : Nat) : Option State := s.agentRead (s.spillAddr cid i) 101
/-- The turn that writing a new frame takes: the die agent's at the image of a spilled one (R183). -/
def frameTurn (s : State) (cid f : Nat) : Option State := if f < 4096 then some s else s.imageTurn cid (f - 4096)

end State

end Sys2Proof.Machine
end

