-- ==== Sys2Proof/Machine/Threads.lean ====
section
/-! DEFINITION. Threadlets, slots and frames: the dispatch of firings, the requests that slot units and die agents apply, and
the fill and write-back of spilled frames (R169 to R187). An event whose conditions do not hold changes nothing (log entry 11). -/

namespace Sys2Proof.Machine

/-- ILLEGAL_PATTERN (R88, R39): a pattern that is no instruction, or an instruction beyond the limit, ends the firing. Which context
issued most recently (R38) stays as it was (DESIGN CHOICE, log entry 61). -/
def execIllegalPattern (code : BitVec 8) (s : State) : Out :=
  .next ((s.modCtx (fun k => { k with issued := k.issued + 1, ipc := k.pc })).takeFault code 0)

/-! ### The ready queue (R179 to R181) -/

namespace State

/-- The frame of an entry is allocated. -/
def entryLive (s : State) (cid : Nat) (e : Ready) : Bool := hdrAlloc (s.readW (s.frameKey cid e.f))

end State

/-- The entries left when those of freed frames that stand at the head of their level are discarded (R194). -/
def purge (live : Ready → Bool) : List Nat → List Ready → List Ready
  | _, [] => []
  | seen, e :: t =>
    if live e || seen.contains e.level then e :: purge live (e.level :: seen) t else purge live seen t

/-- The first entry of a level. -/
def levelHead (l : List Ready) (n : Nat) : Option Ready := l.find? (fun e => e.level == n)
/-- The highest level below a bound that holds an entry. -/
def topLevel (l : List Ready) : Nat → Option Nat
  | 0 => none
  | n + 1 => if l.any (fun e => e.level == n) then some n else topLevel l n

/-- choose of R181: the entry taken and the starvation counter after it. -/
def choose (l : List Ready) (starve : Nat) : Option (Ready × Nat) :=
  match topLevel l 8 with
  | none => none
  | some h =>
    match topLevel l h with
    | none => (levelHead l h).map (·, 0)
    | some w => if starve = 64 then (levelHead l w).map (·, 0) else (levelHead l h).map (·, starve + 1)

namespace State

/-- A queued mark cleared; a ripe slot then disarms and enters the queue (R180). -/
def unmark (s : State) (cid f k : Nat) : State :=
  let t := s.modCore cid (fun c => { c with marks := c.marks.filter (fun m => m != 8 * f + k) })
  let key := t.slotKey cid f k
  let w := t.readW key
  if slArmed w ∧ slCount w = 0 then t.reachZero cid f k key false else t

/-- The address of entry k of a codeblock (R68, R169). -/
def entryAddr (s : State) (p cb k : Nat) : Nat :=
  match (s.part p).image with
  | none => 0
  | some i => match i.blocks[cb]? with | none => 0 | some b => b.entries.getD k 0

/-- The local frame that holds a frame by name. -/
def localOf (s : State) (cid f : Nat) : Option Nat := if f < 4096 then some f else s.residentOf cid (f - 4096)

/-- A core's dispatch is stopped for a save: from the acceptance of PREEMPT until RESUME its partition is stopping, saving or saved
(R350). -/
def stopped (s : State) (cid : Nat) : Bool := let n := (s.part (s.partOf cid)).state; n == 1 || n == 2 || n == 3

/-- A core dispatches: it is alive, awake and not stopped for a save, its step state is that of the live paced instance, and it has not
finished a step under pacing (R45, R258, R350). From PREEMPT to RESUME a partition's cores dispatch nothing. -/
def mayDispatch (s : State) (cid : Nat) : Bool :=
  let c := s.core cid
  !c.dead && !(s.stopped cid) && !c.saved && !(s.cell (cellOf cid)).gated && s.paceSettled cid && !(c.pace.isSome && c.done)

/-- A firing of an entry in a context (R37, R41, R44). -/
def startFiring (s : State) (cid x frame : Nat) (e : Ready) : State :=
  let p := s.partOf cid
  let o := (s.core cid).owners.get { inst := 0, depth := 0, limit := 0 } e.f
  let cb := hdrCb (s.readW (s.localKey cid frame))
  let k : Ctx := { Ctx.init with
    busy := true, pc := BitVec.ofNat 64 (s.entryAddr p cb e.slot), fid := s.seq, fref := mkFref cid e.f, frame := frame
    slot := e.slot, inst := o.inst, depth := o.depth, limit := o.limit }
  ({ s with seq := s.seq + 1 }.modCore cid (fun c => setCtxOf c x k)).modPart p (fun q => { q with quiesced := false })

/-- The entries of the ready queue that take part in a dispatch: not those of an instance that is being ended (R299). -/
def readyOf (s : State) (cid : Nat) : List Ready := (s.core cid).ready.filter (fun e => !(s.stopping (s.ownerOf cid e.f)))

/-- Entries leave a core's ready queue and fill list, and their marks are cleared. -/
def forget (s : State) (cid : Nat) (gone : List Ready) : State :=
  if gone.isEmpty then s
  else s.modCore cid (fun c => { c with
    ready := c.ready.filter (fun e => !(gone.contains e))
    fill := c.fill.filter (fun e => !(gone.contains e))
    marks := c.marks.filter (fun m => !(gone.any (fun e => 8 * e.f + e.slot == m))) })

/-- R194: the entries of freed frames that have reached the head of a level of the ready queue, or the head of the fill list, are
discarded. A core that is dead or saved discards none. -/
def discardFreed (s : State) (cid : Nat) : State :=
  let c := s.core cid
  if c.dead || c.saved then s
  else
    let l := s.readyOf cid
    let left := purge (s.entryLive cid) [] l
    s.forget cid (l.filter (fun e => !(left.contains e)) ++ c.fill.takeWhile (fun e => !(s.entryLive cid e)))

/-- DISPATCH: a free context takes the entry that R181 chooses; context 1 only beside a busy context 0 (R37). The entries of freed
frames that stand at the head of a level are discarded, and so are those that the entry taken has stood before (R194). The firing acquires
what the signals that brought its slot to zero pass (R177, R244). -/
def dispatch (s0 : State) (cid x : Nat) : State :=
  let s := (s0.settlePace cid).discardFreed cid
  let c := s.core cid
  if !(s.mayDispatch cid) || (ctxOf c x).busy || (x != 0 && !(x == 1 && c.ctx0.busy)) then s
  else
    match choose (s.readyOf cid) c.starve with
    | none => s
    | some (e, st) =>
      match s.localOf cid e.f with
      | none => s
      | some j =>
        ((((s.hand (.entry cid e.f e.slot) (.firing s.seq)).modCore cid (fun c => { c with ready := c.ready.erase e, starve := st })).unmark cid e.f e.slot).discardFreed
          cid).startFiring cid x j e

/-! ### Requests at a slot unit (R192 to R199) -/

/-- The name by which a core's slot unit knows a frame that a request names: its spilled name where the request names the local index
of a resident copy, which it then reaches (R186). -/
def nameAt (s : State) (cid f : Nat) : Nat :=
  if f < 4096 then
    let h := s.readW (s.localKey cid f)
    if hdrCopy h && s.residentOf cid (hdrHome h) == some f then 4096 + hdrHome h else f
  else f

/-- A slot reference with the name that its core's slot unit knows the frame by (R186). -/
def srefAt (s : State) (r : Nat) : Nat := mkSref (frefCore r) (s.nameAt (frefCore r) (frefName r)) (srefSlot r)

/-- The copy in a local frame is being written back: a request that names its local index waits for the end of that (log entry 70). -/
def heldLocal (s : State) (cid f : Nat) : Bool := (s.core cid).wback.contains f

/-- A copy of a spilled frame is being written back: requests for it are held (R186). -/
def inWriteBack (s : State) (cid i : Nat) : Bool :=
  (s.core cid).wback.any (fun j => hdrHome (s.readW (s.localKey cid j)) == i)
/-- The word of a reply is for a frame whose copy is being written back: it waits for the image (R186, log entry 70). -/
def replyHeld (s : State) (p : Packet) : Bool :=
  decide (4096 ≤ frefName p.from_.fref) && s.inWriteBack p.from_.cid (frefName p.from_.fref - 4096)

/-- The signal that a packet brings, where it may be applied: a signal, or the completion that a reply brings to a slot of the core
that it comes to (R218, R219). -/
def sigOfPkt (s : State) (dst : Loc) (sref k : Nat) : Option Sig :=
  match s.packet k with
  | none => none
  | some p =>
    match p.body with
    | .signal r v b fire src =>
      if s.srefAt r = s.srefAt sref ∧ p.dst = dst ∧ mayApply s k p then
        some { val := v, bytes := b, fire := fire, from_ := p.from_, source := src }
      else none
    | .reply _ _ =>
      match p.ret.slot with
      | some r =>
        if s.srefAt r = s.srefAt sref ∧ dst = .core (frefCore r) ∧ frefName r < 4096 ∧ p.dst = dst ∧ mayApply s k p ∧ s.replyHeld p = false then
          some { val := 1, bytes := p.ret.bytes, fire := false, from_ := p.from_, source := 1 }
        else none
      | none => none
    | _ => none

/-- A packet is a request from the core that it goes to: each is applied two cycles after it issued (R192). -/
def ownRequest (x : Packet) : Bool :=
  x.src == x.dst && match x.body with
    | .signal .. => true
    | .arm .. => true
    | .free => true
    | .alloc .. => true
    | .ldf .. => true
    | .ring .. => true
    | _ => false

/-- A request that names a local frame which is a copy being written back. -/
def waitsLocal (s : State) (p : Packet) : Bool :=
  match p.body, p.dst with
  | .signal r .., .core c => s.heldLocal c (frefName r)
  | .arm r _, .core c => s.heldLocal c (frefName r)
  | .free, .core c => s.heldLocal c (frefName p.target)
  | _, _ => false

/-- R192: a core's own requests are applied in the order they were issued: none earlier waits, apart from those that a release, a fence, R241
or a write-back holds. -/
def inOrder (s : State) (k : Nat) (ks : List Nat) : Bool :=
  match s.packet k with
  | none => false
  | some p => !(ownRequest p) || !(s.net.any (fun x => decide (x.1 < k) && ownRequest x.2 && x.2.dst == p.dst && !x.2.rel &&
      x.2.fences.isEmpty && !(orderBlocked s x.1 x.2) && !(s.waitsLocal x.2) && !(ks.contains x.1)))

/-- The signals that a list of different packets brings to one slot in one cycle (R175), own requests of the core in order (R192). with_
lists other packets that the slot unit applies in that cycle. -/
def sigsWith (s : State) (dst : Loc) (sref : Nat) (with_ ks : List Nat) : Option (List Sig) :=
  if ks.eraseDups == ks && ks.all (fun k => s.inOrder k (with_ ++ ks)) then
    ks.mapM (s.sigOfPkt dst sref)
  else none

/-- The signals of a cycle in which the slot unit applies nothing else to the slot. -/
def sigsOf (s : State) (dst : Loc) (sref : Nat) (ks : List Nat) : Option (List Sig) := s.sigsWith dst sref [] ks

/-- A core applies requests itself: it is not dead, and not saved (R352, R368). -/
def coreOpen (s : State) (cid : Nat) : Bool := !(s.core cid).dead && !(s.core cid).saved

/-- A reply's word is written into its operand word of the issuing frame, with its poison (R220). -/
def writeReply (s : State) (cid : Nat) (fref ow : Nat) (v : Word) (poison : Bool) : State :=
  if ow = 0 then s
  else
    let key := s.frameKey cid (frefName fref) + 8 * ow
    let t := s.writeW key v
    if poison then t.addPoison key 8 else t

/-- The command of reply k ends; what the reply covers is kept for a handler where a fault record lists the command (R191, R363). -/
def endCmd (s : State) (k : Nat) (p : Packet) : State := (s.keepFor p.cmd (fun e => e.bound.contains (.cover k))).finishCmd p.cmd 0 1 []
/-- A packet taken for the signal that it brings: a reply leaves its word in the issuing frame too, and ends its command (R219). -/
def takePkt (s : State) (k : Nat) : State :=
  match s.packet k with
  | none => s
  | some p =>
    match p.body with
    | .reply v poison => ((s.dropPacket k).writeReply p.from_.cid p.from_.fref p.ret.ow v poison).endCmd k p
    | _ => s.dropPacket k

/-- Packets taken. -/
def takeAll (s : State) (ks : List Nat) : State := ks.foldl (fun t k => t.takePkt k) s

/-- SIGNAL_ARRIVAL: the signals of one cycle to one slot (R175), which name its frame by the spilled name or, while a copy of it is
resident, by the copy's local index (R186). Signals that the die agent forwarded to a resident copy which has been freed since meet
the spilled frame, whose slots the free has cleared (R194). -/
def signalArrival (s : State) (cid f k : Nat) (ks : List Nat) : State :=
  match s.sigsOf (.core cid) (mkSref cid f k) ks with
  | none => s
  | some sigs =>
    if ks.isEmpty || !(s.coreOpen cid) || decide (8 ≤ k) || s.heldLocal cid f then s
    else ((s.gatherAt cid (s.nameAt cid f) k ks).takeAll ks).signalSlot cid (s.nameAt cid f) k (s.slotKey cid f k) (s.localOf cid f).isNone sigs

/-- R193 at the target: the frame taken is written, and the reply leaves. -/
def allocAt (s : State) (cid f : Nat) (p : Packet) (cb parent : Nat) (sigs : List (Nat × Sig)) : State :=
  let o : Own := match s.inst p.from_.inst with
    | some i => { inst := p.from_.inst, depth := i.depth, limit := i.limit }
    | none => { inst := p.from_.inst, depth := 0, limit := 0 }
  let src : Loc := if f < 4096 then .core cid else .agent (dieOf cid)
  (s.writeFrame cid f cb (BitVec.ofNat 64 parent) o sigs).sendReply src p (BitVec.ofNat 64 (mkFref cid f)) false

/-- The signals of a list of packets to the slots of a frame, each with its slot. -/
def sigsTo (s : State) (cid f : Nat) (ks : List Nat) : List (Nat × Sig) :=
  (List.range 8).flatMap (fun j => ks.filterMap (fun k => (s.sigOfPkt (.core cid) (mkSref cid f j) k).map (j, ·)))

/-- The slots of a new frame, with what the signals of the same cycle bring to them. -/
def gatherFrame (s : State) (cid f : Nat) (ks : List Nat) : State :=
  (List.range 8).foldl (fun t j => t.gatherAt cid f j (ks.filter (fun k => (s.sigOfPkt (.core cid) (mkSref cid f j) k).isSome))) (s.freshFrame cid f)

/-- ALLOCATION_REQUEST (R193): a frame is taken; none left is code 0x13. The signals of the same cycle keep the order of the core's own
requests (R192), and the image of a spilled frame is written in a turn of the die agent's (R183, R330). -/
def allocationRequest (s : State) (k : Nat) (same : List Nat) : State :=
  match s.packet k with
  | none => s
  | some p =>
    match p.body, p.dst with
    | .alloc cb parent, .core cid =>
      if !(mayApply s k p) || !(s.coreOpen cid) || !(s.inOrder k []) then s
      else
        match s.takeFrame cid with
        | none => (s.dropPacket k).failCmd p.cmd 0x13 0 []
        | some f =>
          let used := (same.filter (fun j => (s.sigsTo cid f [j]).length == 1)).eraseDups
          if !(used.all (fun j => s.inOrder j (k :: used))) then s
          else match s.frameTurn cid f with
            | none => s
            | some u => (((u.gatherFrame cid f used).dropPacket k).takeAll used).allocAt cid f p cb parent (s.sigsTo cid f used)
    | _, _ => s

/-- R195 at the target: an arming of a frame that is not allocated is code 0x12 for the issuing frame (R388). -/
def armAt (s : State) (cid f : Nat) (image : Bool) (p : Packet) (sref : Nat) (w : Word) (sigs : List Sig) : State :=
  if hdrAlloc (s.readW (s.frameKey cid f)) then
    s.armSlot cid f (srefSlot sref) (s.slotKey cid f (srefSlot sref)) image w sigs
  else (s.faultRequest p.from_ 0x12).signalSlot cid f (srefSlot sref) (s.slotKey cid f (srefSlot sref)) image sigs

/-- ARMING_REQUEST (R195): the arming, then the other signals of its cycle, those of the arming's own core among them. -/
def armingRequest (s : State) (k : Nat) (same : List Nat) : State :=
  match s.packet k with
  | none => s
  | some p =>
    match p.body, p.dst with
    | .arm sref w, .core cid =>
      match s.sigsWith (.core cid) sref [k] same with
      | none => s
      | some sigs =>
        if !(mayApply s k p) || !(s.coreOpen cid) || !(s.inOrder k same) || s.heldLocal cid (frefName sref) then s
        else
          let f := s.nameAt cid (frefName sref)
          ((((s.passArming cid f (srefSlot sref) k p).gatherAt cid f (srefSlot sref) same).dropPacket k).takeAll same).armAt cid f
            (s.localOf cid (frefName sref)).isNone p sref w sigs
    | _, _ => s

/-- Every slot word of a frame set to 0 and its alloc bit cleared (R194). -/
def clearFrame (s : State) (key : Nat) : State :=
  let h := s.readW key
  (List.range 8).foldl (fun t j => t.writeW (key + 16 + 8 * j) 0)
    (s.writeW key (mkHdr (hdrCb h) false (hdrCopy h) (hdrAsync h) (hdrHome h)))

/-- R194 at the target. Freeing a resident copy frees the spilled image too, and the copy's index waits for the entries of the frame. -/
def freeAt (s : State) (cid f : Nat) (p : Packet) : State :=
  let key := s.frameKey cid f
  let h := s.readW key
  if hdrAlloc h = false ∨ hdrAsync h ≠ 0 then s.faultRequest p.from_ 0x12
  else if f < 4096 then (s.clearFrame key).discardFreed cid
  else if key = s.spillKey cid (f - 4096) then (s.clearFrame key).discardFreed cid
  else (((s.clearFrame key).clearFrame (s.spillKey cid (f - 4096))).modCore cid (fun c => { c with
    late := (((s.residentOf cid (f - 4096)).map (fun j => (j, f))).toList ++ c.late) })).discardFreed cid

/-- FREE_REQUEST (R194). -/
def freeRequest (s : State) (k : Nat) : State :=
  match s.packet k with
  | none => s
  | some p =>
    match p.body, p.dst with
    | .free, .core cid =>
      if mayApply s k p && s.coreOpen cid && s.inOrder k [] && !(s.heldLocal cid (frefName p.target)) then
        (s.dropPacket k).freeAt cid (s.nameAt cid (frefName p.target)) p
      else s
    | _, _ => s

/-- An operand word of a frame written by a stf (R199). -/
def stfAt (s : State) (w : Writer) (cid f u : Nat) (v : Word) : State := s.storeN w (s.frameKey cid f + 8 * u) 8 v.toNat

/-- STF_REQUEST (R199). -/
def stfRequest (s : State) (k : Nat) : State :=
  match s.packet k with
  | none => s
  | some p =>
    match p.body, p.dst with
    | .stf u v, .core cid =>
      if mayApply s k p && s.coreOpen cid then (s.dropPacket k).stfAt (writerOf k p) cid (frefName p.target) u v else s
    | _, _ => s

/-- An operand word of a frame read for the reply to ldf k; a poisoned word is code 0x21 (R199, R246). -/
def ldfAt (s : State) (k cid f u : Nat) (src : Loc) (p : Packet) : State :=
  let key := s.frameKey cid f + 8 * u
  if s.poisoned key 8 then s.failCmd p.cmd 0x21 0 []
  else (s.saw (readerOf k p) key 8).sendReply src p (s.seenW (readerOf k p) key) false

/-- LDF_REQUEST (R199). -/
def ldfRequest (s : State) (k : Nat) : State :=
  match s.packet k with
  | none => s
  | some p =>
    match p.body, p.dst with
    | .ldf u, .core cid =>
      if mayApply s k p && s.coreOpen cid && s.inOrder k [] then (s.dropPacket k).ldfAt k cid (frefName p.target) u (.core cid) p else s
    | _, _ => s

/-- The completion signal of a command at the issuing core, which the reply or request k has brought: applied with the other signals of its
cycle where the slot is local there, sent otherwise (R218, R219). It releases what k covers. -/
def completeAt (s : State) (k cid : Nat) (i : Issuer) (r : Ret) (same : List Nat) : State :=
  match r.slot with
  | none => s
  | some x =>
    let f := frefName x
    if frefCore x = cid ∧ f < 4096 ∧ s.heldLocal cid f = false then
      match s.sigsOf (.core cid) x same with
      | some sigs =>
        let t := (s.gatherAt cid (s.nameAt cid f) (srefSlot x) same).bindTo (.slot cid (s.nameAt cid f) (srefSlot x)) (fun e => e.bound.contains (.cover k))
        (t.takeAll same).signalSlot cid (s.nameAt cid f) (srefSlot x) (s.slotKey cid f (srefSlot x)) false
          ({ val := 1, bytes := r.bytes, fire := false, from_ := i, source := 1 } :: sigs)
      | none => (s.hand (.cover k) (.cover s.seq)).sendSignal (.core cid) i x 1 r.bytes 1
    else (s.hand (.cover k) (.cover s.seq)).sendSignal (.core cid) i x 1 r.bytes 1

/-- REPLY_ARRIVAL: word, completion signal and the end of the command, as one release (R193, R199, R202, R219, R224); a handler that is to
acquire it does, wherever the signal goes (R363). -/
def replyArrival (s : State) (k : Nat) (same : List Nat) : State :=
  match s.packet k with
  | none => s
  | some p =>
    match p.body, p.dst with
    | .reply v poison, .core cid =>
      if mayApply s k p && s.coreOpen cid && !(s.replyHeld p) then
        (((((s.keepFor p.cmd (fun e => e.bound.contains (.cover k))).dropPacket k).writeReply cid p.from_.fref p.ret.ow v poison).completeAt k cid
          p.from_ p.ret same)).finishCmd p.cmd 0 1 []
      else s
    | _, _ => s

/-! ### Spilled frames (R183 to R186) -/

/-- Frame request k applied to a local frame, a copy or an image; image requests put zero slots on the fill list. -/
def applyFrameRequest (s : State) (k cid f : Nat) (image : Bool) (src : Loc) (p : Packet) : State :=
  match p.body with
  | .signal r v b fire so =>
    s.signalSlot cid f (srefSlot r) (s.slotKey cid f (srefSlot r)) image [{ val := v, bytes := b, fire := fire, from_ := p.from_, source := so }]
  | .arm r w => s.armAt cid f image p r w []
  | .free => s.freeAt cid f p
  | .stf u v => s.stfAt (writerOf k p) cid f u v
  | .ldf u => s.ldfAt k cid f u src p
  | _ => s

/-- What a frame request brings to the slot that it names (R177, R195). -/
def gatherRequest (s : State) (k cid f : Nat) (p : Packet) : State :=
  match p.body with
  | .signal r .. => s.gatherAt cid f (srefSlot r) [k]
  | .arm r _ => s.passArming cid f (srefSlot r) k p
  | _ => s

/-- FILL: the head of the fill list takes the lowest free local frame; the entry of a resident frame goes straight to the ready
queue, and that of a freed frame is discarded (R185, R194). While a copy of the head's frame is being written back, the head waits
for the image (R186). -/
def fillStart (s0 : State) (cid : Nat) : State :=
  let s := s0.discardFreed cid
  let c := s.core cid
  match c.fill, c.filling with
  | e :: t, none =>
    if c.dead || c.saved || s.inWriteBack cid (e.f - 4096) then s
    else if (s.residentOf cid (e.f - 4096)).isSome then
      (s.modCore cid (fun c => { c with
        fill := t, ready := c.ready ++ [{ e with level := slPrio (s.readW (s.slotKey cid e.f e.slot)) }] })).discardFreed cid
    else match s.freeLocal cid with
      | none => s
      | some j => (s.modCore cid (fun c => { c with fill := t, filling := some (j, e) })).discardFreed cid
  | _, _ => s

/-- WRITE_BACK_START: no firing of the copy runs, none of its slots is queued, no command is outstanding and no forwarded
request waits (R186). -/
def writeBackStart (s : State) (cid j : Nat) : State :=
  let c := s.core cid
  let h := s.readW (s.localKey cid j)
  let f := 4096 + hdrHome h
  if decide (j < s.frames (s.partOf cid)) && hdrCopy h && hdrAlloc h && hdrAsync h == 0 && !(c.ctx0.busy && c.ctx0.frame == j) &&
      !(c.ctx1.busy && c.ctx1.frame == j) && !(c.ready.any (fun e => e.f == f)) && !(c.wback.contains j) && !c.dead && !c.saved &&
      !(s.net.any (fun x => x.2.dst == .core cid && frefName x.2.target == f && frefCore x.2.target == cid)) then
    s.modCore cid (fun c => { c with wback := c.wback ++ [j] })
  else s

end State

/-- DISPATCH (R37, R181). -/
def execDispatch (cid ctx : Nat) (s : State) : Out := .next (s.dispatch cid ctx)
/-- SIGNAL_ARRIVAL (R175). -/
def execSignalArrival (cid f slot : Nat) (pkts : List Nat) (s : State) : Out := .next (s.signalArrival cid f slot pkts)
/-- ALLOCATION_REQUEST (R193). -/
def execAllocationRequest (pkt : Nat) (same : List Nat) (s : State) : Out := .next (s.allocationRequest pkt same)
/-- ARMING_REQUEST (R195). -/
def execArmingRequest (pkt : Nat) (same : List Nat) (s : State) : Out := .next (s.armingRequest pkt same)
/-- FREE_REQUEST (R194). -/
def execFreeRequest (pkt : Nat) (s : State) : Out := .next (s.freeRequest pkt)
/-- STF_REQUEST (R199). -/
def execStfRequest (pkt : Nat) (s : State) : Out := .next (s.stfRequest pkt)
/-- LDF_REQUEST (R199). -/
def execLdfRequest (pkt : Nat) (s : State) : Out := .next (s.ldfRequest pkt)
/-- REPLY_ARRIVAL (R219). -/
def execReplyArrival (pkt : Nat) (same : List Nat) (s : State) : Out := .next (s.replyArrival pkt same)
/-- FILL (R185). -/
def execFill (cid : Nat) (s : State) : Out := .next (s.fillStart cid)
/-- WRITE_BACK_START (R186). -/
def execWriteBackStart (cid f : Nat) (s : State) : Out := .next (s.writeBackStart cid f)
end Sys2Proof.Machine
end

