-- ==== Sys2Proof/Machine/FrameOps.lean ====
section
/-! DEFINITION. The frame, slot and ring instructions of majors 0x2C and 0x2D (R188 to R203), and placement (R290). -/

namespace Sys2Proof.Machine

/-- The mixing of R290, mod 2^64. -/
def placeHash (p cb : Nat) (key salt : Word) : Word :=
  let x := key ^^^ (BitVec.ofNat 64 p <<< 56) ^^^ (BitVec.ofNat 64 cb <<< 40) ^^^ salt
  let x := (x ^^^ (x >>> 30)) * 0xBF58476D1CE4E5B9#64
  let x := (x ^^^ (x >>> 27)) * 0x94D049BB133111EB#64
  x ^^^ (x >>> 31)

namespace State

/-- The placement entry of a codeblock; the Reset values where the driver has written none (R289). -/
def placeEntry (s : State) (p cb : Nat) : Word × Word := (s.part p).place.get (0, BitVec.ofNat 64 cb) cb

/-- place(p, cb, key) of R290. -/
def place (s : State) (p cb : Nat) (key : Word) : Nat :=
  let e := s.placeEntry p cb
  let w := e.1.toNat
  let x0 := bits w 16 8
  let y0 := bits w 24 8
  match bits w 0 2 with
  | 2 => coreAt (bits w 8 4) x0 y0
  | 1 =>
    let k := (key + e.2).toNat
    let wd := bits w 32 8 + 1
    coreAt (bits w 8 4) (x0 + k % wd) (y0 + k / wd % (bits w 40 8 + 1))
  | _ => listCore (s.shares p) ((placeHash p cb key e.2).toNat * s.partSize p / 2 ^ 64)

/-- The partition of the core that issues. -/
def myPart (s : State) : Nat := s.partOf s.cur.1
/-- The splices of R190 step 2 from the issuing die. -/
def splicesTo (s : State) (die : Nat) (back : Bool) : Except Code Unit := need (s.splicesOk s.myPart (dieOf s.cur.1) die back) 0x15
/-- The async limit of R190 step 3. -/
def asyncRoom (s : State) : Except Code Unit := need (decide (s.asyncCount < 4)) 0x14
/-- The codeblocks of the partition's image. -/
def blockCount (s : State) (p : Nat) : Nat := match (s.part p).image with | some i => i.blocks.length | none => 0

/-- A slot operand that is no completion slot: s0 reads as 0, and the reference must be valid (R188, R389). -/
def slotOperand (s : State) (w : Word) : Except Code Nat := if s.srefOk s.myPart w.toNat then .ok w.toNat else .error 0x12

/-- R190 step 2 for the completion slot of an asynchronous command of this chapter: a slot on another die is a target too, the only
one that a ring instruction can have there (log entry 52). -/
def slotSplices (s : State) (slot : Option Nat) : Except Code Unit :=
  match slot with | some r => s.splicesTo (bits r 28 4) true | none => .ok ()

/-- falloc (R193). It has no order class (R82) and is an outbound access (R241): it takes class o0 (DESIGN CHOICE, log entry 65). -/
def falloc (f : WForm) (s0 : State) : Except Code State := do
  let (a, s1) ← s0.readS f.a
  let (b, s2) ← s1.readS f.b
  let (c, s3) ← s2.readS f.c
  let (d, s) ← s3.readS f.d
  let p := s.myPart
  let slot ← s.compSlot f.c c
  let parent ← if f.d = 0 then pure 0 else s.slotOperand d
  need (decide (a.toNat < s.blockCount p)) 0x12
  let mode := f.fld 19 2
  let tgt ← if mode = 2 then
      (if b.toNat < 2 ^ 32 ∧ bits b.toNat 13 15 < 25600 ∧ s.coreIn p (frefCore b.toNat) then Except.ok (frefCore b.toNat) else .error 0x12)
    else pure (if mode = 1 then s.cur.1 else s.place p a.toNat b)
  s.splicesTo (dieOf tgt) true
  s.slotSplices slot
  s.asyncRoom
  let (s4, id) := s.newCmd 0x2C 0
  pure (s4.send (s4.request (.alloc a.toNat parent) (.core tgt) (mkFref tgt 0) { ow := f.ow, slot := slot, bytes := 8 } id 0 0 0))

/-- ffree (R194). -/
def ffree (f : WForm) (s0 : State) : Except Code State := do
  let (a, s) ← s0.readS f.a
  need (s.frefOpOk s.myPart a) 0x12
  s.splicesTo (bits a.toNat 28 4) false
  pure (s.send (s.notice .free (frameDst a.toNat) a.toNat))

/-- sarm (R195): mode in parcel 1 [14], priority in [17:15]. -/
def sarm (f : WForm) (s0 : State) : Except Code State := do
  let (a, b, s) ← s0.readAB f
  let r ← s.slotOperand a
  s.splicesTo (bits r 28 4) false
  need (decide (b.toNat < 2 ^ 27)) 0x12
  let w := mkSlot b.toNat (f.fld 15 3) (f.fld 14 1 == 1) true
  pure (s.send (s.withRelease (s.notice (.arm r w) (frameDst (srefFref r)) (srefFref r)) f.sem f.scope))

/-- A signal of a firing (R196): value in count mode, value in byte mode, and whether it is a fire. -/
def signalTo (s : State) (a : Word) (sem scope val bytes : Nat) (fire : Bool) : Except Code State := do
  let r ← s.slotOperand a
  s.splicesTo (bits r 28 4) false
  pure (s.send (s.withRelease (s.notice (.signal r val bytes fire 0) (frameDst (srefFref r)) (srefFref r)) sem scope))

/-- sig with its immediate (R196). -/
def sig (f : WForm) (imm : Nat) (s0 : State) : Except Code State := do
  let (a, s) ← s0.readS f.a
  s.signalTo a f.sem f.scope imm imm false

/-- sigv (R196). -/
def sigv (f : WForm) (s0 : State) : Except Code State := do
  let (a, b, s) ← s0.readAB f
  s.signalTo a f.sem f.scope b.toNat b.toNat false

/-- sigb (R196): its release passes the bytes [B, B + D) of the core scratchpad and no others, under every semantics (R196, log entry
53). With D = 0 it names no byte, and B may be any address. -/
def sigb (f : WForm) (s0 : State) : Except Code State := do
  let (a, b, s1) ← s0.readAB f
  let (d, s) ← s1.readS f.d
  let r ← s.slotOperand a
  s.splicesTo (bits r 28 4) false
  need (decide (d.toNat = 0 ∨ b.toNat + d.toNat ≤ 2 ^ 17)) 0x04
  let p := s.notice (.signal r 1 d.toNat false 0) (frameDst (srefFref r)) (srefFref r)
  let sem := if d.toNat = 0 then (if f.sem = 0 then 1 else if f.sem = 3 then 2 else f.sem) else f.sem
  let q := { p with sem := sem, scope := f.scope, relLo := coreKey s.cur.1 b.toNat, relLen := d.toNat }
  pure (s.send { q with rel := decide (0 < d.toNat) && inScope s.cur.1 f.scope (scopeLoc q) && relPending s s.seq q })

/-- fire (R196, R197). -/
def fireSlot (f : WForm) (s0 : State) : Except Code State := do
  let (a, s) ← s0.readS f.a
  s.signalTo a f.sem f.scope 0 0 true

/-- sget (R198): a local frame of the core, or a spilled frame resident on it. -/
def sget (f : WForm) (s0 : State) : Except Code State := do
  let (a, s) ← s0.readS f.a
  let r ← s.slotOperand a
  let n := frefName r
  need (frefCore r == s.cur.1 && (s.localOf s.cur.1 n).isSome) 0x12
  s.writeS f.d (s.readW (s.slotKey s.cur.1 n (srefSlot r)))

/-- The key of an operand word's home: its place in the local frame, or in the image of a spilled frame. Where a copy of a spilled frame is
resident, R241 goes by the copy's bytes (State.bytesAt). -/
def wordKey (s : State) (cid f u : Nat) : Nat := (if f < 4096 then s.localKey cid f else s.spillKey cid (f - 4096)) + 8 * u

/-- ldf (R199): u in [18:14], ow in [23:19]. -/
def ldf (f : WForm) (s0 : State) : Except Code State := do
  let (a, s1) ← s0.readS f.a
  let (c, s) ← s1.readS f.c
  need (s.frefOpOk s.myPart a) 0x12
  let slot ← s.compSlot f.c c
  s.splicesTo (bits a.toNat 28 4) true
  s.slotSplices slot
  s.asyncRoom
  let key := s.wordKey (frefCore a.toNat) (frefName a.toNat) (f.fld 14 5)
  let (s4, id) := s.newCmd 0x2C 8
  pure (s4.send (s4.request (.ldf (f.fld 14 5)) (frameDst a.toNat) a.toNat { ow := f.fld 19 5, slot := slot, bytes := 8 } id f.ord key 8))

/-- stf (R199): a pipeline store where the frame is a local one of the issuing core, a request otherwise. -/
def stf (f : WForm) (s0 : State) : Except Code State := do
  let (a, b, s) ← s0.readAB f
  need (s.frefOpOk s.myPart a) 0x12
  s.splicesTo (bits a.toNat 28 4) false
  let u := f.fld 14 5
  let cid := frefCore a.toNat
  let n := frefName a.toNat
  if cid = s.cur.1 ∧ n < 4096 then pure (s.stfAt s.pipeWriter cid n u b)
  else
    pure (s.send (s.request (.stf u b) (frameDst a.toNat) a.toNat { ow := 0, slot := none, bytes := 8 } 0 f.ord (s.wordKey cid n u) 8))

/-! ### Rings (R200 to R203) -/

/-- A ring instruction (R201, R203); rcom and rrel are releases (R202). An RCB over slot-unit words faults by R205 (log entry 12). Minors: 0 rinit, 1 racq, 2 rcom, 3 rpeek, 4 rrel. Ports pop in the order a, b, c, d. -/
def ring (op : Nat) (f : WForm) (s0 : State) : Except Code State := do
  let (a, s1) ← s0.readS f.a
  let (b, s2) ← s1.readS f.b
  let (c, s3) ← s2.readS f.c
  let (d, s) ← s3.readS f.d
  let slot ← s.compSlot f.c c
  s.slotSplices slot
  s.asyncRoom
  let clus := f.fld 19 1 == 1
  let size := if clus then 2 ^ 22 else 2 ^ 17
  let sz := f.fld 20 4
  need (decide (a.toNat % 64 = 0)) 0x03
  need (decide (a.toNat + 64 ≤ size)) 0x04
  need (clus || !(s.hitsSlots s.cur.1 a.toNat 64)) 0x04
  if op = 0 then do
    need (decide (b.toNat % 8 = 0)) 0x03
    need (decide (1 ≤ d.toNat ∧ d.toNat ≤ 65535)) 0x12
    need (decide (b.toNat + d.toNat * (8 * 2 ^ sz) ≤ size)) 0x04
  let clid := clidOf s.cur.1
  let key := if clus then clusterKey clid a.toNat else coreKey s.cur.1 a.toNat
  let dst : Loc := if clus then .cluster clid else .core s.cur.1
  let (s4, id) := s.newCmd 0x2D op
  let q := s4.request (.ring op d.toNat sz b) dst s4.ctx.fref { ow := f.ow, slot := slot, bytes := 8 } id f.ord key 64
  pure (s4.send (if op = 2 ∨ op = 4 then s4.withRelease q 0 (if clus then 2 else 0) else q))

/-- One ring operation on the block at a key (R202): the block's new words, ok and the slot address. Words 5 to 7 keep their bytes, and
a poisoned word is read as the bytes it holds (log entry 54). -/
def ringOp (s : State) (key op n sz : Nat) (base : Word) : State × Bool × Word :=
  let b := s.readW key
  let w1 := (s.readW (key + 8)).toNat
  let n' := bits w1 4 16
  let sz' := bits w1 0 4
  let size := 8 * 2 ^ sz'
  let head := s.readW (key + 16)
  let resv := s.readW (key + 24)
  let comm := s.readW (key + 32)
  let usable := decide (1 ≤ n') && decide (sz' ≤ 13)
  match op with
  | 0 =>
    (((((s.writeW key base).writeW (key + 8) (BitVec.ofNat 64 (sz % 16 + n % 2 ^ 16 * 16))).writeW (key + 16) 0).writeW (key + 24) 0).writeW
      (key + 32) 0, true, 0)
  | 1 =>
    if usable && decide ((resv - head).toNat < n') then
      (s.writeW (key + 24) (resv + 1), true, b + BitVec.ofNat 64 (resv.toNat % n' * size))
    else (s, false, 0)
  | 2 => if comm.toNat < resv.toNat then (s.writeW (key + 32) (comm + 1), true, 0) else (s, false, 0)
  | 3 => if usable && decide (head.toNat < comm.toNat) then (s, true, b + BitVec.ofNat 64 (head.toNat % n' * size)) else (s, false, 0)
  | _ => if head.toNat < comm.toNat then (s.writeW (key + 16) (head + 1), true, 0) else (s, false, 0)

/-- What a ring instruction passes and acquires (R202): an rcom or rrel that succeeds passes its firing's accesses, and what the firing
acquired, with the step of comm or head that it makes; an rpeek acquires every rcom that raised comm to where it finds it, a racq that finds a
slot free the rrel that freed it, where slot c's core lies in the level's scope; a new block has neither. s is the state after the
instruction. -/
def ringPass (s : State) (k op : Nat) (ok : Bool) (p : Packet) : State :=
  let n (i : Nat) : Nat := (s.readW (p.lo + i)).toNat
  let near : Bool := match p.ret.slot with
    | none => false
    | some r => inScope p.from_.cid (match p.dst with | .core _ => 0 | _ => 2) (.core (frefCore r))
  let passes (e : Older) : Bool := passesOwn k p e || e.bound.contains (.firing p.from_.fid)
  match op, ok with
  | 0, _ => s.unbind (fun x => match x with | .ring key _ _ => key == p.lo | _ => false)
  | 1, true => s.bindTo (.cover s.seq) (fun e => near && decide (bits (n 8) 4 16 < n 24) && e.bound.contains (.ring p.lo false (n 24 - 1 - bits (n 8) 4 16)))
  | 2, true => s.bindTo (.ring p.lo true (n 32 - 1)) passes
  | 3, _ => s.bindTo (.cover s.seq) (fun e => near && e.bound.any (fun x => match x with | .ring key true m => key == p.lo && decide (m < n 32) | _ => false))
  | 4, true => s.bindTo (.ring p.lo false (n 16 - 1)) passes
  | _, _ => s

/-- RING_REQUEST: the owner performs one ring instruction as one read-modify-write of the block, whose words every party then sees as it found
them (R202, R250). -/
def ringRequest (s : State) (k : Nat) : State :=
  match s.packet k with
  | none => s
  | some p =>
    match p.body with
    | .ring op n sz base =>
      if mayApply s k p && s.inOrder k [] && (match p.dst with | .core c => s.coreOpen c | _ => true) then
        let (t, ok, addr) := ((s.dropPacket k).publish p.lo 40).ringOp p.lo op n sz base
        (t.ringPass k op ok p).sendReply p.dst p (BitVec.ofNat 64 ((if ok then 2 ^ 63 else 0) + addr.toNat % 2 ^ 48)) false
      else s
    | _ => s

end State

/-- falloc (R193). -/
def execFalloc (f : WForm) (s : State) : Out := issue 8 f.guard s (State.falloc f)
/-- ffree (R194). -/
def execFfree (f : WForm) (s : State) : Out := issue 8 f.guard s (State.ffree f)
/-- sarm (R195). -/
def execSarm (f : WForm) (s : State) : Out := issue 8 f.guard s (State.sarm f)
/-- sig, W form (R196). -/
def execSig (f : WForm) (s : State) : Out := issue 8 f.guard s (State.sig f f.sub.toNat)
/-- sig, X form (R196). -/
def execSigX (f : XForm) (s : State) : Out := issue 12 f.guard s (State.sig f.toW f.lit.toNat)
/-- sigv (R196). -/
def execSigv (f : WForm) (s : State) : Out := issue 8 f.guard s (State.sigv f)
/-- sigb (R196). -/
def execSigb (f : WForm) (s : State) : Out := issue 8 f.guard s (State.sigb f)
/-- fire (R197). -/
def execFire (f : WForm) (s : State) : Out := issue 8 f.guard s (State.fireSlot f)
/-- sget (R198). -/
def execSget (f : WForm) (s : State) : Out := issue 8 f.guard s (State.sget f)
/-- ldf (R199). -/
def execLdf (f : WForm) (s : State) : Out := issue 8 f.guard s (State.ldf f)
/-- stf (R199). -/
def execStf (f : WForm) (s : State) : Out := issue 8 f.guard s (State.stf f)
/-- rinit (R202). -/
def execRinit (f : WForm) (s : State) : Out := issue 8 f.guard s (State.ring 0 f)
/-- racq (R202). -/
def execRacq (f : WForm) (s : State) : Out := issue 8 f.guard s (State.ring 1 f)
/-- rcom (R202). -/
def execRcom (f : WForm) (s : State) : Out := issue 8 f.guard s (State.ring 2 f)
/-- rpeek (R202). -/
def execRpeek (f : WForm) (s : State) : Out := issue 8 f.guard s (State.ring 3 f)
/-- rrel (R202). -/
def execRrel (f : WForm) (s : State) : Out := issue 8 f.guard s (State.ring 4 f)
/-- RING_REQUEST (R202). -/
def execRingRequest (pkt : Nat) (s : State) : Out := .next (s.ringRequest pkt)

end Sys2Proof.Machine
end

