-- ==== Sys2Proof/Machine/Memory.lean ====
section
/-! DEFINITION. Core loads and stores, remote loads and stores, atomics, fences and the releases that hold outbound work
(R204 to R209, R216 to R229, R333 to R337). -/

namespace Sys2Proof.Machine

/-- The bytes of a width code (R221). -/
def widthBytes (w : Nat) : Nat := 8 >>> w
/-- z bytes as a 64-bit value, sign-extended or zero-extended (R222). -/
def extend (z : Nat) (unsigned : Bool) (v : Nat) : Word :=
  if unsigned then BitVec.ofNat 64 v
  else if v < 2 ^ (8 * z - 1) then BitVec.ofNat 64 v else BitVec.ofInt 64 ((v : Int) - 2 ^ (8 * z))

namespace State

/-- R222: the load of z bytes at a core-scratchpad address (R246). -/
def loadCore (s : State) (x : Word) (z : Nat) (unsigned : Bool) : Except Code Word := do
  need (decide (x.toNat % z = 0)) 0x03
  need (decide (x.toNat + z ≤ 0x20000)) 0x04
  let k := coreKey s.cur.1 x.toNat
  need (!(s.poisoned k z)) 0x21
  pure (extend z unsigned (s.seenN s.pipeReader k z))
/-- What such a load leaves (R250). -/
def loaded (s : State) (x : Word) (z : Nat) : State := s.saw s.pipeReader (coreKey s.cur.1 x.toNat) z

/-- R222: the store of z bytes at a core-scratchpad address; words 0 to 9 of a carve-out frame are not writable (R173). -/
def storeCore (s : State) (x : Word) (z : Nat) (v : Word) : Except Code State := do
  need (decide (x.toNat % z = 0)) 0x03
  need (decide (x.toNat + z ≤ 0x20000)) 0x04
  need (!(s.hitsSlots s.cur.1 x.toNat z)) 0x04
  pure (s.storeN s.pipeWriter (coreKey s.cur.1 x.toNat) z (v.toNat % 2 ^ (8 * z)))

/-- ld with its fields: width in [9:8] and u in [10] of parcel 1 (R221, R222). -/
def ld (f : WForm) (imm : Word) (s0 : State) : Except Code State := do
  let (a, s) ← s0.readS f.a
  let v ← s.loadCore (a + imm) (widthBytes (f.c.toNat % 4)) (f.c.getLsbD 2)
  (s.loaded (a + imm) (widthBytes (f.c.toNat % 4))).writeS f.d v

/-- st with its fields; a port in d pops after a (R221, R222). -/
def st (f : WForm) (imm : Word) (s0 : State) : Except Code State := do
  let (a, s1) ← s0.readS f.a
  let (d, s) ← s1.readS f.d
  s.storeCore (a + imm) (widthBytes (f.c.toNat % 4)) d

/-! ### Remote loads, stores and atomics at issue (R217, R218, R223 to R227) -/

/-- R217 steps 2 to 4 for one address: place, splices both ways, async limit. -/
def remoteCheck (s : State) (a : Word) (n : Nat) : Except Code (Loc × Nat × Nat) := do
  let pl ← match s.placeOf s.myPart a.toNat n with | some x => Except.ok x | none => .error 0x04
  s.splicesTo (locDie pl.1) true
  s.asyncRoom
  pure pl

/-- R217: no write may reach bytes 0 to 79 of a carve-out frame of any core. -/
def slotsGuard (s : State) (l : Loc) (off n : Nat) : Bool := match l with | .core c => !(s.hitsSlots c off n) | _ => true

/-- ldrm (R223, R224). -/
def ldrm (f : WForm) (s0 : State) : Except Code State := do
  let (a, s1) ← s0.readS f.a
  let (c, s) ← s1.readS f.c
  let slot ← s.compSlot f.c c
  let z := widthBytes (f.fld 19 2)
  let (dst, key, _) ← s.remoteCheck a z
  need (decide (a.toNat % z = 0)) 0x03
  let (s4, id) := s.newCmd 0x31 0
  pure (s4.send (s4.request (.ldrm z (f.fld 21 1 == 1)) dst s4.ctx.fref { ow := f.ow, slot := slot, bytes := 8 } id f.ord key z))

/-- strm (R223, R224). -/
def strm (f : WForm) (s0 : State) : Except Code State := do
  let (a, b, s1) ← s0.readAB f
  let (c, s) ← s1.readS f.c
  let slot ← s.compSlot f.c c
  let z := widthBytes (f.fld 19 2)
  let (dst, key, off) ← s.remoteCheck a z
  need (decide (a.toNat % z = 0)) 0x03
  need (s.slotsGuard dst off z) 0x04
  let (s4, id) := s.newCmd 0x31 1
  let p := s4.request (.strm z b) dst s4.ctx.fref { ow := 0, slot := slot, bytes := z } id f.ord key z
  pure (s4.send (s4.withRelease p (f.fld 22 2) (f.fld 24 3)))

/-- The partition that owns entry j of a die's unit: the holder of its quarter on a split die (R335). -/
def ordPart (s : State) (d j : Nat) : Nat :=
  let w := s.liveRegion.get 0 d
  (ownPart (ownField w (if isSplit w then j / 4 else 0))).getD 64
/-- The memory key of the word that an entry names; none where its address is none of its partition on this die. -/
def ordWord (s : State) (d j : Nat) (addr : Word) : Option Nat :=
  match s.placeOf (s.ordPart d j) addr.toNat 4 with
  | some x => if locDie x.1 = d then some x.2.1 else none
  | none => none
/-- The armed entry of a die's unit for a word (R336). -/
def armedFor (s : State) (d key : Nat) : Option (Nat × Ord) :=
  (s.die d).ord.find? (fun x => x.2.armed && s.ordWord d x.1 x.2.addr == some key)
/-- The unit that an atomic goes to: the ordered-reduction unit of the word's die where an armed entry names the word and the
atomic is an afadd (R336). -/
def atomicDst (s : State) (op : Nat) (dst : Loc) (key : Nat) : Loc :=
  if op = 10 ∧ (s.armedFor (locDie dst) key).isSome then .ordUnit (locDie dst) else dst

/-- The twelve atomics (R225 to R227). b is the operand already read: a register, or the spool of aspadd. -/
def atomicIssue (op : Nat) (f : WForm) (a d c : Word) (b : BitVec 256) (s : State) : Except Code State := do
  let slot ← s.compSlot f.c c
  let z := if op = 11 then 32 else if f.fld 19 2 = 0 then 8 else 4
  let (dst, key, off) ← s.remoteCheck a z
  need (decide (a.toNat % z = 0)) 0x03
  need (s.slotsGuard dst off z) 0x04
  let (s4, id) := s.newCmd 0x32 op
  let p := s4.request (.atomic op z b d []) (s4.atomicDst op dst key) s4.ctx.fref { ow := f.ow, slot := slot, bytes := z } id f.ord key z
  pure (s4.send (s4.withRelease { p with bulk := op == 11 } (f.fld 21 2) (f.fld 23 3)))

/-- An atomic with a register operand; ports pop in the order a, b, c, d. -/
def atomic (op : Nat) (f : WForm) (s0 : State) : Except Code State := do
  let (a, b, s1) ← s0.readAB f
  let (c, s2) ← s1.readS f.c
  let (d, s) ← s2.readS f.d
  atomicIssue op f a d c (b.setWidth 256) s

/-- aspadd: its operand is a spool register (R225, R226). -/
def aspadd (f : WForm) (s0 : State) : Except Code State := do
  let (a, s1) ← s0.readS f.a
  let (c, s) ← s1.readS f.c
  atomicIssue 11 f a 0 c (bitsOfSpool (s.readY f.b.toNat)) s

/-! ### At the target -/

/-- The core of a unit is open to requests; other units are. -/
def locOpen (s : State) (l : Loc) : Bool := match l with | .core c => s.coreOpen c | _ => true

/-- Remote load k performed (R224, R246). A poisoned word is carried (R220). -/
def ldrmAt (s : State) (k : Nat) (p : Packet) (z : Nat) (u : Bool) : State :=
  (s.saw (readerOf k p) p.lo z).sendReply p.dst p (extend z u (s.seenN (readerOf k p) p.lo z)) (s.poisoned p.lo z)

/-- Access k is a release whose word lies in its scope: it heads a release sequence on its bytes, with what it passes (R227, R242, R244,
R249). Of an atomic, .acq alone acquires and passes nothing on. -/
def leads (s : State) (k : Nat) (p : Packet) (strm : Bool) : State :=
  if (p.sem == 0 || p.sem == 3 || (strm && p.sem == 2)) && inScope p.from_.cid p.scope (scopeLoc p) then
    { s.bindTo (.head k) (fun e => passesOwn k p e || passesOn p e) with
      heads := { key := p.lo, len := p.len, cid := p.from_.cid, scope := p.scope, num := k } :: s.heads }
  else s

/-- Remote store k performed, and its completion, which releases the bytes written (R219, R224). -/
def strmAt (s : State) (k : Nat) (p : Packet) (z : Nat) (v : Word) : State :=
  ((s.storeN (writerOf k p) p.lo z (v.toNat % 2 ^ (8 * z))).leads k p true).completeFor (fun e => e.by_ == 1 && e.num == k) p.dst p.from_ p.ret
    p.cmd 1

/-- LDRM_REQUEST (R224). -/
def ldrmRequest (s : State) (k : Nat) : State :=
  match s.packet k with
  | none => s
  | some p =>
    match p.body with
    | .ldrm z u => if mayApply s k p && s.locOpen p.dst then (s.dropPacket k).ldrmAt k p z u else s
    | _ => s

/-- STRM_REQUEST (R224). -/
def strmRequest (s : State) (k : Nat) : State :=
  match s.packet k with
  | none => s
  | some p =>
    match p.body with
    | .strm z v => if mayApply s k p && s.locOpen p.dst then (s.dropPacket k).strmAt k p z v else s
    | _ => s

end State

/-- The signed reading of the low n bits of a number. -/
def sgN (n v : Nat) : Int := if v < 2 ^ (n - 1) then v else (v : Int) - 2 ^ n

/-- The new value of an atomic on a word of z bytes that holds m (R226); aspadd has its own. -/
def atomicNew (op z m b d : Nat) : Nat :=
  let n := 8 * z
  let b := b % 2 ^ n
  match op with
  | 0 => (m + b) % 2 ^ n
  | 1 => if sgN n b < sgN n m then b else m
  | 2 => if sgN n m < sgN n b then b else m
  | 3 => min m b
  | 4 => max m b
  | 5 => Nat.land m b
  | 6 => Nat.lor m b
  | 7 => Nat.xor m b
  | 8 => b
  | 9 => if m = d % 2 ^ n then b else m
  | _ => (fp32Add (BitVec.ofNat 32 m) (BitVec.ofNat 32 b)).toNat

/-- The old value as word ow receives it (R226). -/
def atomicOld (op z m : Nat) : Word := extend z (op == 3 || op == 4 || op == 10) m

namespace State

/-- The value that an atomic writes and the old value (R226). -/
def atomicValue (s : State) (key op z : Nat) (b : BitVec 256) (d : Word) : Nat × Word :=
  let m := s.readN key z
  if op = 11 then ((bitsOfSpool (spoolMerge (spoolOfBits (BitVec.ofNat 256 m)) (spoolOfBits b) false)).toNat, 0)
  else (atomicNew op z m b.toNat d.toNat, atomicOld op z m)
/-- A release sequence that an atomic read from goes on through it: the atomic's scope contains that of the release (R227, R249). -/
def continues (p : Packet) (h : Head) : Bool := decide (h.scope ≤ p.scope) && inScope p.from_.cid p.scope (.core h.cid)
/-- An atomic acquires a release sequence that it read from, for the firing that its slot c fires: it carries .acq or .ar, its word lies in its
scope, and the core of slot c in that of the release (R227, R244, R247). -/
def acquires (p : Packet) (h : Head) : Bool :=
  (p.sem == 2 || p.sem == 3) && inScope p.from_.cid p.scope (scopeLoc p) &&
    (match p.ret.slot with | some r => inScope h.cid h.scope (.core (frefCore r)) | none => false)
/-- What atomic k, performed at its word between s and t, does to the release sequences, and what its completion releases: its own write and
the sequences that it acquires (R219, R227). -/
def atomicOrder (s : State) (k : Nat) (p : Packet) (t : State) : State :=
  let here (h : Head) : Bool := overlaps h.key h.len p.lo p.len
  let read := s.heads.filter here
  let u : State := { t with heads := read.filter (continues p) ++ t.heads.filter (fun h => !(here h)) }
  (u.leads k p false).bindTo (.cover k) (fun e =>
    (e.by_ == 1 && e.num == k) || read.any (fun h => acquires p h && e.bound.contains (.head h.num)))
/-- Atomic k applied to its word: the new state and the old value (R226). It reads the newest value, so that no party reads an earlier one
any more (R243). -/
def atomicOn (s : State) (k : Nat) (p : Packet) (op z : Nat) (b : BitVec 256) (d : Word) : State × Word :=
  let v := s.atomicValue p.lo op z b d
  (s.atomicOrder k p ((s.publish p.lo z).storeN (writerOf k p) p.lo z v.1), v.2)

/-- What follows atomic k: the old value for word ow and the slot, as one release, or the completion signal alone (R226). -/
def atomicReply (s : State) (k : Nat) (src : Loc) (p : Packet) (old : Word) : State :=
  if p.ret.ow = 0 then s.completeFor (fun e => e.bound.contains (.cover k)) src p.from_ p.ret p.cmd 1
  else (s.hand (.cover k) (.cover s.seq)).sendReply src p old false

/-- Atomic k performed; a poisoned word is code 0x21 and stays (R226). -/
def atomicAt (s : State) (k : Nat) (p : Packet) (op z : Nat) (b : BitVec 256) (d : Word) : State :=
  if s.poisoned p.lo z then s.failCmd p.cmd 0x21 0 []
  else
    let (t, old) := s.atomicOn k p op z b d
    t.atomicReply k p.dst p old

/-- A request at its word that the ordered-reduction unit takes instead: an afadd while an entry is armed for the word (R336). -/
def toUnit (s : State) (p : Packet) (op : Nat) : Bool :=
  (match p.dst with | .ordUnit _ => true | _ => false) || (op == 10 && (s.armedFor (locDie p.dst) p.lo).isSome)

/-- ATOMIC_REQUEST (R226). -/
def atomicRequest (s : State) (k : Nat) : State :=
  match s.packet k with
  | none => s
  | some p =>
    match p.body with
    | .atomic op z b d [] =>
      if mayApply s k p && s.locOpen p.dst && !(s.toUnit p op) then
        (s.dropPacket k).atomicAt k p op z b d
      else s
    | _ => s

/-! ### Merged atomics (R333, R334) -/

/-- A packet inserted by sending core and number. -/
def insertBySource (x : Nat × Packet) : List (Nat × Packet) → List (Nat × Packet)
  | [] => [x]
  | y :: t =>
    if x.2.from_.cid < y.2.from_.cid ∨ (x.2.from_.cid = y.2.from_.cid ∧ x.1 ≤ y.1) then x :: y :: t
    else y :: insertBySource x t

/-- The parts of a merged request in their serial order: ascending core, each core's in issue order (R334). -/
def partsOf (s : State) (ks : List Nat) : List (Nat × Packet) :=
  (ks.filterMap (fun k => (s.packet k).map (k, ·))).foldr insertBySource []

/-- The parts applied one by one to their word: the old value of each. -/
def applyParts (s : State) : List (Nat × Packet) → State × List (Nat × Word)
  | [] => (s, [])
  | (k, p) :: t =>
    match p.body with
    | .atomic op z b d _ =>
      let (s1, old) := s.atomicOn k p op z b d
      let (s2, l) := s1.applyParts t
      (s2, (k, old) :: l)
    | _ => s.applyParts t

/-- The parts applied as one write of their word of z bytes, which every party sees at once: no party sees a value between two parts (R226,
R243, R334, R336; log entry 7). -/
def applyAll (s : State) (key z : Nat) (ps : List (Nat × Packet)) : State × List (Nat × Word) :=
  ((s.applyParts ps).1.publish key z, (s.applyParts ps).2)

/-- A merged request applied to its word: the parts in their order with the old value that each finds (R334). The parts of an aspadd
have no old value, and the word takes the spool that the merge buffer formed, with one spool_merge (R33, R333, R385), which every party
sees at once. -/
def applyMerged (s : State) (key : Nat) (b : Body) (ps : List (Nat × Packet)) : State × List (Nat × Word) :=
  match b with
  | .atomic 11 z x d _ =>
    (ps.foldl (fun t y => t.atomicOrder y.1 y.2 t) { s.writeN key 32 (s.atomicValue key 11 z x d).1 with heads := s.heads },
      ps.map (fun y => (y.1, 0)))
  | .atomic _ z _ _ _ => s.applyAll key z ps
  | _ => (s, [])

/-- MERGED_ATOMIC_APPLY: the target applies a merged request as one atomic; the old values go back to the link controller as one
reply. A poisoned word is code 0x21 for every part (R226, R334). -/
def mergedAtomicApply (s : State) (k : Nat) : State :=
  match s.packet k with
  | none => s
  | some p =>
    match p.body with
    | .atomic _ z _ _ (x :: xs) =>
      let ps := s.partsOf (x :: xs)
      if p.pos == .ready && s.locOpen p.dst && ps.all (fun y => !(partBlocked s (x :: xs) y.1 y.2)) then
        if s.poisoned p.lo z then
          ps.foldl (fun t y => (t.dropPacket y.1).failCmd y.2.cmd 0x21 0 []) (s.dropPacket k)
        else
          let (t, olds) := (s.dropPacket k).applyMerged p.lo p.body ps
          t.send { packetOf (.oldValues olds) p.dst p.src p.target p.from_ with lo := p.lo, len := p.len }
      else s
    | _ => s

/-- MERGED_REPLY_SPLIT: the link controller gives each part its old value and its own completion (R334). -/
def mergedReplySplit (s : State) (k : Nat) : State :=
  match s.packet k with
  | none => s
  | some p =>
    match p.body with
    | .oldValues olds =>
      if p.pos == .ready then
        olds.foldl (fun t y => match t.packet y.1 with
          | none => t
          | some q => (t.dropPacket y.1).atomicReply y.1 (.core q.from_.cid) q y.2) (s.dropPacket k)
      else s
    | _ => s

/-! ### The ordered reduction (R335 to R337) -/

/-- The order of R336: source index 25,600 × die + core, then issue order. -/
def ordSort (s : State) (ks : List Nat) : List (Nat × Packet) := s.partsOf ks

/-- ORDERED_ROUND: the collected requests applied in source order to the word, with one write, and their completions sent in
the same order; a poisoned word faults every request (R336, R337). -/
def orderedRound (s : State) (die i : Nat) : State :=
  let o := (s.die die).ord.get Ord.init i
  let ps := s.ordSort o.got
  let s1 := s.modDie die (fun d => { d with ord := d.ord.set i { o with got := [] } })
  match ps with
  | [] => s1
  | (_, p0) :: _ =>
    if s.poisoned p0.lo 4 then ps.foldl (fun t y => (t.dropPacket y.1).failCmd y.2.cmd 0x21 0 []) s1
    else
      let (t, olds) := s1.applyAll p0.lo 4 ps
      olds.foldl (fun t y => match t.packet y.1 with
        | none => t
        | some q => (t.dropPacket y.1).atomicReply y.1 (.ordUnit die) q y.2) t

/-- ORDERED_REDUCTION_REQUEST: an afadd to an armed word is collected, wherever it was bound when it issued; the last of a round applies
it (R336). A request that meets no armed entry for its word any more goes to the word's unit, as any atomic does. A collected request is
not performed yet (R241, R244). -/
def orderedReductionRequest (s : State) (k : Nat) : State :=
  match s.packet k with
  | none => s
  | some p =>
    match p.body with
    | .atomic op _ _ _ [] =>
      let die := locDie p.dst
      if mayApply s k p && s.locOpen p.dst && s.toUnit p op then
        match s.armedFor die p.lo with
        | none => s.setPacket k { p with dst := s.unitOf p.lo }
        | some (i, o) =>
          let s1 := (s.setPacket k { p with pos := .kept }).modDie die (fun e =>
            { e with ord := e.ord.set i { o with got := o.got ++ [k] } })
          if o.got.length + 1 = o.n then s1.orderedRound die i else s1
      else s
    | _ => s

/-! ### Fences and releases (R196, R229) -/

/-- fence (R229): what leaves the pipeline after it waits for what its firing issued before it. -/
def fence (f : WForm) (s : State) : Except Code State :=
  .ok ({ s with seq := s.seq + 1 }.modCtx (fun k => { k with fences := k.fences ++ [(s.seq, f.fld 14 3)] }))

/-- Some access, signal or command that a firing issued before number n is not performed: a packet, the reply to a command among
them, a walk, a matrix command with its mrot's landed tile, or a snap (R229, R263). Accesses outside the fence's scope are waited
for too (log entry 7). -/
def beforePending (s : State) (fid cid n : Nat) : Bool :=
  s.net.any (fun x => (decide (x.1 < n) || (x.2.cmd != 0 && decide (x.2.cmd < n))) && x.2.from_.fid == fid) ||
  s.walks.any (fun x => decide (x.1 < n) && x.2.from_.fid == fid) ||
  (s.core cid).mq.any (fun m => decide (m.seq < n) && m.from_.fid == fid) ||
  (cellCores (cellOf cid)).any (fun c => (List.range 2).any (fun b => match (s.core c).landing.get none b with
    | some l => l.from_.fid == fid && decide (l.cmd < n)
    | none => false)) ||
  s.trigs.any (fun x => decide (x.1 < n) && x.2.part.isSome && x.2.from_.fid == fid)

/-- A packet brings the answer to an access that is performed: a reply, or the old values of a merged atomic. -/
def answers (p : Packet) : Bool := match p.body with | .reply .. => true | .oldValues _ => true | _ => false
/-- Some access, signal or command that a firing issued before number n is not performed, whether or not its answer has come back (R263). -/
def unperformed (s : State) (fid cid n : Nat) : Bool :=
  ({ s with net := s.net.filter (fun x => !(answers x.2)) } : State).beforePending fid cid n

/-- The fences that still hold something. -/
def fencesLeft (s : State) (i : Issuer) (l : List (Nat × Nat)) : List (Nat × Nat) :=
  l.filter (fun x => s.beforePending i.fid i.cid x.1)

/-- A write is ordered before a fence of number n (R244): its firing made it before, or acquired it and made another before. -/
def beforeFence (s : State) (i : Issuer) (n : Nat) (e : Older) : Bool :=
  (e.fid == i.fid && decide (e.num ≤ n)) ||
    (e.bound.contains (.firing i.fid) && s.older.any (fun x => x.fid == i.fid && decide (x.num ≤ n)))
/-- What the fences that let go of access or command k held it for is ordered before it (R244). -/
def fenced (s : State) (k : Nat) (i : Issuer) (l : List (Nat × Nat)) : State :=
  s.bindTo (.work k) (fun e => l.any (fun x => s.beforeFence i x.1 e && !(s.beforePending i.fid i.cid x.1)))
/-- A signal that fences have held passes what stands before them to a core in their scope, whatever its own semantics are (R229,
R244, items 2 and 6). -/
def fencedSignal (s : State) (k : Nat) (p : Packet) : State :=
  match p.body with
  | .signal .. => s.bindTo (.cover k) (fun e => p.fences.any (fun x =>
      inScope p.from_.cid x.2 (scopeLoc p) && s.beforeFence p.from_ x.1 e && !(s.beforePending p.from_.fid p.from_.cid x.1)))
  | _ => s

/-- The same for a matrix command of a core's queue. -/
def fencedCmd (s : State) (cid k : Nat) : State :=
  match (s.core cid).mq.find? (fun m => m.seq == k) with
  | some m => s.fenced k m.from_ m.fences
  | none => s

/-- A trigger that no fence holds enters the root of the control tree and takes the next number there (R370). -/
def enterRoot (s : State) (n : Nat) : State :=
  match s.trigs.find? (fun x => x.1 == n) with
  | none => s
  | some (_, g) =>
    if g.fences.isEmpty && g.root == 0 then
      { s with
        mgmt := { s.mgmt with snapSeq := s.mgmt.snapSeq + 1 }
        trigs := s.trigs.set n { g with seq := s.mgmt.snapSeq + 1, root := s.seq }
        seq := s.seq + 1 }
    else s

/-- FENCE_RELEASE: a packet, walk, snap or matrix command is held no longer by the fences whose accesses are all performed (R229). -/
def fenceRelease (s : State) (k : Nat) : State :=
  match s.packet k with
  | some p => ((s.fenced k p.from_ p.fences).fencedSignal k p).setPacket k { p with fences := s.fencesLeft p.from_ p.fences }
  | none =>
    match s.walks.find? (fun x => x.1 == k) with
    | some (_, w) => { s.fenced k w.from_ w.fences with walks := s.walks.set k { w with fences := s.fencesLeft w.from_ w.fences } }
    | none =>
    match s.trigs.find? (fun x => x.1 == k) with
    | some (_, g) => ({ s with trigs := s.trigs.set k { g with fences := s.fencesLeft g.from_ g.fences } } : State).enterRoot k
    | none =>
      match s.cores.find? (fun x => x.2.mq.any (fun m => m.seq == k)) with
      | none => s
      | some (cid, _) =>
        (s.fencedCmd cid k).modCore cid (fun c => { c with mq := c.mq.map (fun m =>
          if m.seq = k then { m with fences := s.fencesLeft m.from_ m.fences } else m) })

/-- RELEASE_SIGNAL_SEND: a release leaves once every access that it passes is performed (R196, R224, R227). -/
def releaseSignalSend (s : State) (k : Nat) : State :=
  match s.packet k with
  | none => s
  | some p => if p.rel && !(relPending s k p) then s.setPacket k { p with rel := false } else s

end State

/-- ld, C form: the 64-bit load from A + 8 b (R80, R222). -/
def execLdC (f : CForm) (s : State) : Out :=
  issue 4 0 s (fun s => do
    let (a, s) ← s.readS f.a
    let v ← s.loadCore (a + BitVec.ofNat 64 (8 * f.b.toNat)) 8 false
    (s.loaded (a + BitVec.ofNat 64 (8 * f.b.toNat)) 8).writeS f.d v)
/-- ld, W form (R222). -/
def execLd (f : WForm) (s : State) : Out := issue 8 f.guard s (State.ld f f.imm)
/-- ld, X form (R222). -/
def execLdX (f : XForm) (s : State) : Out := issue 12 f.guard s (State.ld f.toW f.imm)
/-- st, C form: the 64-bit store of D to A + 8 b; d is read after a (R80, R222). -/
def execStC (f : CForm) (s : State) : Out :=
  issue 4 0 s (fun s => do
    let (a, s) ← s.readS f.a
    let (d, s) ← s.readS f.d
    s.storeCore (a + BitVec.ofNat 64 (8 * f.b.toNat)) 8 d)
/-- st, W form (R222). -/
def execSt (f : WForm) (s : State) : Out := issue 8 f.guard s (State.st f f.imm)
/-- st, X form (R222). -/
def execStX (f : XForm) (s : State) : Out := issue 12 f.guard s (State.st f.toW f.imm)
/-- ldrm (R224). -/
def execLdrm (f : WForm) (s : State) : Out := issue 8 f.guard s (State.ldrm f)
/-- strm (R224). -/
def execStrm (f : WForm) (s : State) : Out := issue 8 f.guard s (State.strm f)
/-- aadd (R226). -/
def execAadd (f : WForm) (s : State) : Out := issue 8 f.guard s (State.atomic 0 f)
/-- amin (R226). -/
def execAmin (f : WForm) (s : State) : Out := issue 8 f.guard s (State.atomic 1 f)
/-- amax (R226). -/
def execAmax (f : WForm) (s : State) : Out := issue 8 f.guard s (State.atomic 2 f)
/-- aminu (R226). -/
def execAminu (f : WForm) (s : State) : Out := issue 8 f.guard s (State.atomic 3 f)
/-- amaxu (R226). -/
def execAmaxu (f : WForm) (s : State) : Out := issue 8 f.guard s (State.atomic 4 f)
/-- aand (R226). -/
def execAand (f : WForm) (s : State) : Out := issue 8 f.guard s (State.atomic 5 f)
/-- aor (R226). -/
def execAor (f : WForm) (s : State) : Out := issue 8 f.guard s (State.atomic 6 f)
/-- axor (R226). -/
def execAxor (f : WForm) (s : State) : Out := issue 8 f.guard s (State.atomic 7 f)
/-- aswp (R226). -/
def execAswp (f : WForm) (s : State) : Out := issue 8 f.guard s (State.atomic 8 f)
/-- acas (R226). -/
def execAcas (f : WForm) (s : State) : Out := issue 8 f.guard s (State.atomic 9 f)
/-- afadd (R226). -/
def execAfadd (f : WForm) (s : State) : Out := issue 8 f.guard s (State.atomic 10 f)
/-- aspadd (R226). -/
def execAspadd (f : WForm) (s : State) : Out := issue 8 f.guard s (State.aspadd f)
/-- fence (R229). -/
def execFence (f : WForm) (s : State) : Out := issue 8 f.guard s (State.fence f)
/-- LDRM_REQUEST (R224). -/
def execLdrmRequest (pkt : Nat) (s : State) : Out := .next (s.ldrmRequest pkt)
/-- STRM_REQUEST (R224). -/
def execStrmRequest (pkt : Nat) (s : State) : Out := .next (s.strmRequest pkt)
/-- ATOMIC_REQUEST (R226). -/
def execAtomicRequest (pkt : Nat) (s : State) : Out := .next (s.atomicRequest pkt)
/-- MERGED_ATOMIC_APPLY (R334). -/
def execMergedAtomicApply (pkt : Nat) (s : State) : Out := .next (s.mergedAtomicApply pkt)
/-- MERGED_REPLY_SPLIT (R334). -/
def execMergedReplySplit (pkt : Nat) (s : State) : Out := .next (s.mergedReplySplit pkt)
/-- ORDERED_REDUCTION_REQUEST (R336). -/
def execOrderedReductionRequest (pkt : Nat) (s : State) : Out := .next (s.orderedReductionRequest pkt)
/-- FENCE_RELEASE (R229). -/
def execFenceRelease (pkt : Nat) (s : State) : Out := .next (s.fenceRelease pkt)
/-- RELEASE_SIGNAL_SEND (R196). -/
def execReleaseSignalSend (pkt : Nat) (s : State) : Out := .next (s.releaseSignalSend pkt)

end Sys2Proof.Machine
end

