-- ==== Sys2Proof/Machine/Float.lean ====
section
/-! DEFINITION. FP32, tapered, spool and conversion instructions: majors 0x10 to 0x13 (R113 to R126). -/

namespace Sys2Proof.Machine

namespace State

/-! ### FP32 (R115 to R118) -/

/-- d <- g(a, b) on FP32 words, zero-extended (R113, R116). -/
def fp2 (g : BitVec 32 → BitVec 32 → BitVec 32) (f : WForm) (s0 : State) : Except Code State := do
  let (a, b, s) ← s0.readAB f
  s.writeS f.d ((g (a.setWidth 32) (b.setWidth 32)).setWidth 64)
/-- d <- g(a) on an FP32 word. -/
def fp1 (g : BitVec 32 → Word) (f : WForm) (s0 : State) : Except Code State := do
  let (a, s) ← s0.readS f.a
  s.writeS f.d (g (a.setWidth 32))
/-- The rounding mode of majors 0x10 (R115). -/
def fpRm (f : WForm) : Nat := f.fld 14 2
/-- ffma (R116). -/
def ffmaOp (f : WForm) (s0 : State) : Except Code State := do
  let (a, b, s1) ← s0.readAB f
  let (c, s) ← s1.readS f.c
  s.writeS f.d ((fpFma (a.setWidth 32) (b.setWidth 32) (c.setWidth 32) (fpRm f)).setWidth 64)
/-- fcmp (R118). -/
def fcmpOp (f : WForm) (s0 : State) : Except Code State := do
  let (a, b, s) ← s0.readAB f
  pure (s.writeP f.d.toNat (fpCond f.c.toNat (decodeFp32 (a.setWidth 32)) (decodeFp32 (b.setWidth 32))))

/-! ### Tapered words (R119, R120) -/

/-- The tapered format of majors 0x11 (R119). -/
def tfFmt (f : WForm) : Nat := f.fld 14 2
/-- A tapered code in a scalar register, sign-extended (R113). -/
def tfPlace (t p : Nat) : Word := BitVec.ofInt 64 (tfInt t p)
/-- d <- g(a, b) on tapered codes. -/
def tf2 (g : Nat → Nat → Nat → Nat) (f : WForm) (s0 : State) : Except Code State := do
  let (a, b, s) ← s0.readAB f
  s.writeS f.d (tfPlace (tfFmt f) (g (tfFmt f) (a.toNat % 2 ^ 32) (b.toNat % 2 ^ 32)))
/-- d <- g(a) on a tapered code. -/
def tf1 (g : Nat → Nat → Nat) (f : WForm) (s0 : State) : Except Code State := do
  let (a, s) ← s0.readS f.a
  s.writeS f.d (tfPlace (tfFmt f) (g (tfFmt f) (a.toNat % 2 ^ 32)))
/-- tfma (R120). -/
def tfmaOp (f : WForm) (s0 : State) : Except Code State := do
  let (a, b, s1) ← s0.readAB f
  let (c, s) ← s1.readS f.c
  s.writeS f.d (tfPlace (tfFmt f) (tfFma (tfFmt f) a.toNat b.toNat c.toNat))
/-- tcmp (R120). -/
def tcmpOp (f : WForm) (s0 : State) : Except Code State := do
  let (a, b, s) ← s0.readAB f
  pure (s.writeP f.d.toNat (tfCond f.c.toNat (tfInt (tfFmt f) a.toNat) (tfInt (tfFmt f) b.toNat)))

/-! ### Spools (R121 to R124) and conversion (R125, R126) -/

/-- spz (R122). -/
def spzOp (f : WForm) (s : State) : Except Code State := .ok (s.writeY f.d.toNat Spool.zero)
/-- spfma and spfms: the exact product, negated where asked, is added (R122). -/
def spfmaOp (sub : Bool) (f : WForm) (s0 : State) : Except Code State := do
  let (a, b, s) ← s0.readAB f
  let x := XReal.mul (readFmt f.fmt a) (readFmt f.fmt b)
  pure (s.writeY f.d.toNat (spoolAdd (s.readY f.d.toNat) (if sub then x.neg else x)))
/-- spadd and spsub (R122); a spool operand is merged (R385). -/
def spaddOp (sub : Bool) (f : WForm) (s0 : State) : Except Code State :=
  if f.fmt = 15 then
    .ok (s0.writeY f.d.toNat (spoolMerge (s0.readY f.d.toNat) (s0.readY f.a.toNat) sub))
  else do
    let (a, s) ← s0.readS f.a
    let x := readFmt f.fmt a
    pure (s.writeY f.d.toNat (spoolAdd (s.readY f.d.toNat) (if sub then x.neg else x)))
/-- sprnd (R34, R122). -/
def sprndOp (f : WForm) (s : State) : Except Code State :=
  s.writeS f.d (writeFmt f.fmt (spoolVal (s.readY f.a.toNat)) (f.fld 18 2))
/-- spld (R123). -/
def spldOp (f : WForm) (i : Word) (s0 : State) : Except Code State := do
  let (a, s) ← s0.readS f.a
  let x := a + i
  need (decide (x.toNat % 32 = 0)) 0x03
  need (decide (x.toNat + 32 ≤ 0x20000)) 0x04
  let k := coreKey s.cur.1 x.toNat
  need (!(s.poisoned k 32)) 0x21
  pure ((s.saw s.pipeReader k 32).writeY f.d.toNat (spoolOfBits (BitVec.ofNat 256 (s.seenN s.pipeReader k 32))))
/-- spst (R123); words 0 to 9 of a carve-out frame are not writable (R173). -/
def spstOp (f : WForm) (i : Word) (s0 : State) : Except Code State := do
  let (a, s) ← s0.readS f.a
  let x := a + i
  need (decide (x.toNat % 32 = 0)) 0x03
  need (decide (x.toNat + 32 ≤ 0x20000)) 0x04
  need (!(s.hitsSlots s.cur.1 x.toNat 32)) 0x04
  pure (s.storeN s.pipeWriter (coreKey s.cur.1 x.toNat) 32 (bitsOfSpool (s.readY f.d.toNat)).toNat)
/-- cvt: dst in [17:14], src in [21:18], rm in [23:22] of parcel 1 (R125, R126). -/
def cvtOp (f : WForm) (s0 : State) : Except Code State := do
  let (a, s) ← s0.readS f.a
  s.writeS f.d (writeFmt f.fmt (readFmt (f.fld 18 4) a) (f.fld 22 2))

end State

/-- fadd (R116). -/
def execFadd (f : WForm) (s : State) : Out := issue 8 f.guard s (State.fp2 (fun a b => fpAdd a b (State.fpRm f)) f)
/-- fsub (R116). -/
def execFsub (f : WForm) (s : State) : Out := issue 8 f.guard s (State.fp2 (fun a b => fpSub a b (State.fpRm f)) f)
/-- fmul (R116). -/
def execFmul (f : WForm) (s : State) : Out := issue 8 f.guard s (State.fp2 (fun a b => fpMul a b (State.fpRm f)) f)
/-- fdiv (R116). -/
def execFdiv (f : WForm) (s : State) : Out := issue 8 f.guard s (State.fp2 (fun a b => fpDiv a b (State.fpRm f)) f)
/-- fmin (R116). -/
def execFmin (f : WForm) (s : State) : Out := issue 8 f.guard s (State.fp2 fpMin f)
/-- fmax (R116). -/
def execFmax (f : WForm) (s : State) : Out := issue 8 f.guard s (State.fp2 fpMax f)
/-- ffma (R116). -/
def execFfma (f : WForm) (s : State) : Out := issue 8 f.guard s (State.ffmaOp f)
/-- fsqrt (R116). -/
def execFsqrt (f : WForm) (s : State) : Out := issue 8 f.guard s (State.fp1 (fun a => (fpSqrt a (State.fpRm f)).setWidth 64) f)
/-- fabs (R116). -/
def execFabs (f : WForm) (s : State) : Out := issue 8 f.guard s (State.fp1 (fun a => (fpAbs a).setWidth 64) f)
/-- fneg (R116). -/
def execFneg (f : WForm) (s : State) : Out := issue 8 f.guard s (State.fp1 (fun a => (fpNeg a).setWidth 64) f)
/-- fclass (R116, R117). -/
def execFclass (f : WForm) (s : State) : Out := issue 8 f.guard s (State.fp1 fpClass f)
/-- fcmp (R118). -/
def execFcmp (f : WForm) (s : State) : Out := issue 8 f.guard s (State.fcmpOp f)
/-- tadd (R120). -/
def execTadd (f : WForm) (s : State) : Out := issue 8 f.guard s (State.tf2 (fun t => tfOp2 t (fun x y => XReal.add x y 0)) f)
/-- tsub (R120). -/
def execTsub (f : WForm) (s : State) : Out := issue 8 f.guard s (State.tf2 (fun t => tfOp2 t (fun x y => XReal.add x y.neg 0)) f)
/-- tmul (R120). -/
def execTmul (f : WForm) (s : State) : Out := issue 8 f.guard s (State.tf2 (fun t => tfOp2 t XReal.mul) f)
/-- tdiv (R120). -/
def execTdiv (f : WForm) (s : State) : Out := issue 8 f.guard s (State.tf2 (fun t => tfOp2 t XReal.div) f)
/-- tmin (R120). -/
def execTmin (f : WForm) (s : State) : Out := issue 8 f.guard s (State.tf2 (fun t a b => if tfInt t b < tfInt t a then b else a) f)
/-- tmax (R120). -/
def execTmax (f : WForm) (s : State) : Out := issue 8 f.guard s (State.tf2 (fun t a b => if tfInt t a < tfInt t b then b else a) f)
/-- tfma (R120). -/
def execTfma (f : WForm) (s : State) : Out := issue 8 f.guard s (State.tfmaOp f)
/-- tsqrt (R120). -/
def execTsqrt (f : WForm) (s : State) : Out := issue 8 f.guard s (State.tf1 (fun t a => encTf t (decTf t a).sqrt) f)
/-- tabs (R120). -/
def execTabs (f : WForm) (s : State) : Out := issue 8 f.guard s (State.tf1 (fun t a => if tfInt t a < 0 then tfNeg t a else a) f)
/-- tneg (R120). -/
def execTneg (f : WForm) (s : State) : Out := issue 8 f.guard s (State.tf1 tfNeg f)
/-- tcmp (R120). -/
def execTcmp (f : WForm) (s : State) : Out := issue 8 f.guard s (State.tcmpOp f)
/-- spz (R122). -/
def execSpz (f : WForm) (s : State) : Out := issue 8 f.guard s (State.spzOp f)
/-- spfma (R122). -/
def execSpfma (f : WForm) (s : State) : Out := issue 8 f.guard s (State.spfmaOp false f)
/-- spfms (R122). -/
def execSpfms (f : WForm) (s : State) : Out := issue 8 f.guard s (State.spfmaOp true f)
/-- spadd (R122). -/
def execSpadd (f : WForm) (s : State) : Out := issue 8 f.guard s (State.spaddOp false f)
/-- spsub (R122). -/
def execSpsub (f : WForm) (s : State) : Out := issue 8 f.guard s (State.spaddOp true f)
/-- sprnd (R122). -/
def execSprnd (f : WForm) (s : State) : Out := issue 8 f.guard s (State.sprndOp f)
/-- spld, W form (R123). -/
def execSpld (f : WForm) (s : State) : Out := issue 8 f.guard s (State.spldOp f f.imm)
/-- spld, X form (R123). -/
def execSpldX (f : XForm) (s : State) : Out := issue 12 f.guard s (State.spldOp f.toW f.imm)
/-- spst, W form (R123). -/
def execSpst (f : WForm) (s : State) : Out := issue 8 f.guard s (State.spstOp f f.imm)
/-- spst, X form (R123). -/
def execSpstX (f : XForm) (s : State) : Out := issue 12 f.guard s (State.spstOp f.toW f.imm)
/-- cvt (R126). -/
def execCvt (f : WForm) (s : State) : Out := issue 8 f.guard s (State.cvtOp f)

end Sys2Proof.Machine
end

