-- ==== Sys2Proof/Machine/Vector.lean ====
section
/-! DEFINITION. Lanes and vector instructions: majors 0x18 to 0x1F (R127 to R147). -/

namespace Sys2Proof.Machine

/-! ### Elements of a lane (R131, R132) -/

/-- Element e of w bits of a lane. -/
def elemOf (w : Nat) (x : BitVec 32) (e : Nat) : Nat := x.toNat / 2 ^ (w * e) % 2 ^ w
/-- An element read as signed. -/
def elemInt (w v : Nat) : Int := (BitVec.ofNat w v).toInt
/-- An element read as signed, or as unsigned under .u. -/
def elemRead (w : Nat) (u : Bool) (v : Nat) : Int := if u then (v % 2 ^ w : Nat) else elemInt w v
/-- The lane whose elements of w bits are given, each reduced mod 2^w. -/
def laneOf (w : Nat) (g : Nat → Int) : BitVec 32 :=
  BitVec.ofNat 32 ((List.range (32 / w)).foldl (fun acc e => acc + (BitVec.ofInt w (g e)).toNat * 2 ^ (w * e)) 0)
/-- B[w−1:0] in every element (R131). -/
def splat (w : Nat) (b : Word) : BitVec 32 := laneOf w (fun _ => (b.toNat % 2 ^ w : Nat))
/-- An operation on each element of two lanes (R131). -/
def onElems (w : Nat) (g : Nat → Nat → Int) (a b : BitVec 32) : BitVec 32 := laneOf w (fun e => g (elemOf w a e) (elemOf w b e))
/-- vrshr on an element (R132). -/
def roundShift (w : Nat) (u : Bool) (a b : Nat) : Int :=
  let s := b % w
  if s = 0 then elemRead w u a else (elemRead w u a + 2 ^ (s - 1)) / 2 ^ s
/-- vsat on an element (R132). -/
def satElem (w t : Nat) (u : Bool) (a : Nat) : Int :=
  if u then min (elemRead w true a) (2 ^ t - 1) else max (-(2 ^ (t - 1))) (min (elemRead w false a) (2 ^ (t - 1) - 1))
/-- vdot4 and vdot2: D plus the sum of the products of elements of w bits, mod 2^32 (R132). -/
def dot (w : Nat) (ua ub : Bool) (d a b : BitVec 32) : BitVec 32 :=
  BitVec.ofInt 32 ((List.range (32 / w)).foldl (fun acc e => acc + elemRead w ua (elemOf w a e) * elemRead w ub (elemOf w b e)) (d.toNat : Int))
/-- A tapered operation in a lane: the result is sign-extended to 32 bits (R131). -/
def tfLane (t : Nat) (p : Nat) : BitVec 32 := BitVec.ofInt 32 (tfInt t p)

/-! ### Reductions (R142, R143) -/

/-- The identity of an operator (R142). -/
def redIdentity (op : Nat) : BitVec 32 :=
  match op with
  | 1 => 0x7FFFFFFF
  | 2 => 0x80000000
  | 3 => 0xFFFFFFFF
  | 5 => 0xFFFFFFFF
  | 8 => 0x80000000
  | 9 => nan32
  | 10 => nan32
  | _ => 0
/-- combine of R142. -/
def redCombine (op rm : Nat) (x y : BitVec 32) : BitVec 32 :=
  match op with
  | 0 => x + y
  | 1 => if y.slt x then y else x
  | 2 => if x.slt y then y else x
  | 3 => if y.ult x then y else x
  | 4 => if x.ult y then y else x
  | 5 => x &&& y
  | 6 => x ||| y
  | 7 => x ^^^ y
  | 8 => fpAdd x y rm
  | 9 => fpMin x y
  | _ => fpMax x y
/-- One pass of the tree: neighbours combined. -/
def redPass {α : Type} (g : α → α → α) : List α → List α
  | a :: b :: t => g a b :: redPass g t
  | l => l
/-- red of R142 over 32 values: the five passes with s = 1, 2, 4, 8, 16. -/
def redTree {α : Type} (g : α → α → α) (d : α) (l : List α) : α :=
  (redPass g (redPass g (redPass g (redPass g (redPass g l))))).getD 0 d
/-- One pass of vscan with step s (R143). -/
def scanPass {α : Type} (g : α → α → α) (d : α) (s : Nat) (l : List α) : List α :=
  (List.range l.length).map (fun i => if i < s then l.getD i d else g (l.getD (i - s) d) (l.getD i d))
/-- A value that a scan or a reduction answers: an FP32 NaN is the canonical one, also where no combination made it (R15; log entry 73). -/
def redResult (op : Nat) (x : BitVec 32) : BitVec 32 :=
  match op, decodeFp32 x with
  | 8, .nan => nan32
  | 9, .nan => nan32
  | 10, .nan => nan32
  | _, _ => x
/-- The five passes of vscan (R143). -/
def scanAll {α : Type} (g : α → α → α) (d : α) (l : List α) : List α := [1, 2, 4, 8, 16].foldl (fun t s => scanPass g d s t) l

/-- m of R146: the most distinct words that one bank must serve, at least 1. -/
def bankLoad (addrs : List Nat) : Nat :=
  let ws := (addrs.map (· / 4)).dedup
  ((List.range 32).map (fun b => (ws.filter (fun x => x % 32 == b)).length)).foldl max 1

namespace State

/-- The lane grant of the firing (R48). -/
def grant (s : State) : Nat := s.ctx.grant
/-- Lane i is acted on: below the grant and admitted by the lane mask (R48). -/
def laneOn (s : State) (km i : Nat) : Bool := decide (i < s.ctx.grant) && (s.readK km).getLsbD i
/-- The lanes of a vector register that h gives a value are written. -/
def setLanes (s : State) (d : BitVec 6) (h : Nat → Option Lane) : State :=
  let t := (List.range 32).foldl (fun (t : Tbl Lane) i => match h i with | some l => t.set (32 * d.toNat + i) l | none => t) s.ctx.v
  s.modCtx (fun k => { k with v := t })
/-- The lanes of a vector spool register that h gives a value are written. -/
def setSpools (s : State) (d : BitVec 6) (h : Nat → Option Spool) : State :=
  let t := (List.range 32).foldl (fun (t : Tbl Spool) i => match h i with | some l => t.set (32 * d.toNat + i) l | none => t) s.ctx.w
  s.modCtx (fun k => { k with w := t })
/-- A value in a lane, tag cleared; an empty lane (R50). -/
def full (v : BitVec 32) : Option Lane := some { val := v, tag := false }
/-- The tagged lane (R50). -/
def empty : Option Lane := some { val := 0, tag := true }
/-- Lane i carries a tag in one of the vector registers (R131). -/
def tagged (s : State) (rs : List (BitVec 6)) (i : Nat) : Bool := rs.any (fun r => (s.readV r i).tag)
/-- R129: no vector instruction runs without a grant. -/
def needGrant (s : State) : Except Code Unit := need (s.ctx.grant != 0) 0x07
/-- Operand b: a scalar register under bs, popped once, else the lanes of a vector register (R131). -/
def readB (s : State) (f : WForm) : Except Code (Word × State) := if f.bs then s.readS f.b else .ok (0, s)
/-- The vector registers of a and b that carry tags. -/
def srcsOf (f : WForm) : List (BitVec 6) := if f.bs then [f.a] else [f.a, f.b]
/-- Lane i of operand b, where a scalar gives what g makes of it. -/
def laneB (s : State) (f : WForm) (g : Word → BitVec 32) (b : Word) (i : Nat) : BitVec 32 := if f.bs then g b else (s.readV f.b i).val

/-- R131: an elementwise result for every lane acted on; a tagged source lane tags the destination lane. srcs lists the vector
sources beside a and b. -/
def elementwise (f : WForm) (srcs : List (BitVec 6)) (h : Nat → BitVec 32) (s : State) : State :=
  s.setLanes f.d (fun i => if s.laneOn f.km i then (if s.tagged srcs i then empty else full (h i)) else none)

/-- An elementwise instruction on a and b; h takes the lanes of d, a and b (R131, R132). sc makes operand b of a scalar. -/
def vec2 (f : WForm) (readsD : Bool) (sc : Word → BitVec 32) (h : BitVec 32 → BitVec 32 → BitVec 32 → BitVec 32) (s0 : State) :
    Except Code State := do
  s0.needGrant
  let (b, s) ← s0.readB f
  pure (s.elementwise f (srcsOf f ++ (if readsD then [f.d] else []))
    (fun i => h (s.readV f.d i).val (s.readV f.a i).val (s.laneB f sc b i)))
/-- An integer instruction on the elements of a and b (R132). -/
def vecInt (f : WForm) (g : Nat → Nat → Nat → Int) (s : State) : Except Code State :=
  s.vec2 f false (splat f.width) (fun _ a b => onElems f.width (g f.width) a b)
/-- An elementwise instruction on a alone. -/
def vec1 (f : WForm) (h : BitVec 32 → BitVec 32) (s : State) : Except Code State := do
  s.needGrant
  pure (s.elementwise f [f.a] (fun i => h (s.readV f.a i).val))
/-- An elementwise instruction on a, b and the vector c. -/
def vec3 (f : WForm) (sc : Word → BitVec 32) (h : BitVec 32 → BitVec 32 → BitVec 32 → BitVec 32) (s0 : State) : Except Code State := do
  s0.needGrant
  let (b, s) ← s0.readB f
  pure (s.elementwise f (srcsOf f ++ [f.c]) (fun i => h (s.readV f.a i).val (s.laneB f sc b i) (s.readV f.c i).val))
/-- B[31:0] as operand b (R131). -/
def low32 (b : Word) : BitVec 32 := b.setWidth 32
/-- A floating instruction on a and b (R133). -/
def vecFp (f : WForm) (g : BitVec 32 → BitVec 32 → BitVec 32) (s : State) : Except Code State := s.vec2 f false low32 (fun _ a b => g a b)
/-- A floating instruction on a, correctly rounded once (R133, R134). -/
def vecReal (f : WForm) (g : XReal → XReal) (s : State) : Except Code State := s.vec1 f (fun a => roundFp32 (g (decodeFp32 a)) f.rm)
/-- A tapered instruction on a and b (R135). -/
def vecTf (f : WForm) (g : Nat → Nat → Nat → Nat) (s : State) : Except Code State :=
  s.vec2 f false low32 (fun _ a b => tfLane f.ew (g f.ew a.toNat b.toNat))

/-! ### Lane claims (R127, R128) -/

/-- The lanes that a context holds: those of a claim that was served in this cycle and has yet to issue, else its grant (R128). -/
def heldBy (s : State) (cid x : Nat) : Nat :=
  let k := ctxOf (s.core cid) x
  match (s.cell (cellOf cid)).claims.find? (fun y => y.1 == 2 * posOf cid + x && y.2.1 == k.fid && k.busy) with
  | some y => y.2.2
  | none => k.grant
/-- The lanes that the sixteen contexts of a cell hold. -/
def lanesHeld (s : State) (cell : Nat) : Nat := ((cellCores cell).map (fun c => s.heldBy c 0 + s.heldBy c 1)).sum
/-- The claim that a context has recorded (R128). -/
def claimOf (s : State) (cid x : Nat) : Option Nat :=
  ((s.cell (cellOf cid)).claims.find? (fun y => y.1 == 2 * posOf cid + x && y.2.1 == (ctxOf (s.core cid) x).fid)).map (·.2.2)
/-- The lclaim that bytes of code encode, if they do (R76, R86, R127). -/
def claimIn (bs : List Byte) : Option WForm :=
  let q0 := parcelOf bs
  let f := wFields q0 (parcelOf (bs.drop 4))
  if formOf q0 = 1 ∧ majorOf q0 = 0x18 ∧ minorOf q0 = 0 ∧ fieldsOk (.lclaim f) = true then some f else none
/-- What a context's next instruction claims: a context that runs a firing and stands at an lclaim whose guard holds and whose
destination it may write; one whose outbound port is full faults and claims nothing (R40, R46, R127). -/
def laneClaim (s : State) (cid x : Nat) : Option Nat :=
  let k := ctxOf (s.core cid) x
  if !k.busy || (s.core cid).dead || decide (65536 ≤ k.issued) then none
  else match claimIn (fetchBytes s cid k.pc.toNat) with
    | some f =>
      if guardHolds f.guard k then
        match ({ s with cur := (cid, x) } : State).writeS f.d 0 with
        | .ok _ => some (8 * f.fld 14 3)
        | .error _ => none
      else none
    | none => none
/-- The claim of another core of the cell in the same cycle: of one of its contexts that stand at an lclaim, where the free choice
says that it issues with this one (R38, R128; log entry 13). A core whose claim is recorded issues it before anything else. -/
def claimWith (s : State) (cid : Nat) : Option (Nat × Nat × Nat) :=
  let c := s.core cid
  let one (x : Nat) : Option (Nat × Nat × Nat) :=
    match s.laneClaim cid x with
    | some n => if (s.claimOf cid 0).isNone && (s.claimOf cid 1).isNone && Config.alsoClaims s.tick (2 * posOf cid + x) then some (cid, x, n) else none
    | none => none
  match one (1 - min c.last 1) with
  | some y => some y
  | none => one (min c.last 1)
/-- The claims of one cycle: this one and those of other cores, in ascending order of (core − P) mod 8 (R128). -/
def claimants (s : State) (cell n : Nat) : List (Nat × Nat × Nat) :=
  let p := (s.cell cell).ptr
  (List.range 8).filterMap (fun i =>
    let c := cellMate s.cur.1 ((p + i) % 8)
    if c = s.cur.1 then some (c, s.cur.2, n) else s.claimWith c)
/-- The claims served one by one out of free lanes: each gets the smaller of what it asks for and what is left (R128). -/
def serveClaims (free : Nat) : List (Nat × Nat × Nat) → List (Nat × Nat × Nat)
  | [] => []
  | (c, x, n) :: t => (c, x, min n free) :: serveClaims (free - min n free) t
/-- The cell after an lclaim, and the lanes the claim gets (R128). The first claim of a cycle that issues serves all of that cycle:
the lanes they return are added to the free ones before the first is served, the pointer moves behind the first claimant served, and
the grants of the others are recorded until they issue. -/
def claimLanes (s : State) (n : Nat) : Cell × Nat :=
  let cell := cellOf s.cur.1
  let x := s.cell cell
  let me := 2 * posOf s.cur.1 + s.cur.2
  let others := x.claims.filter (fun y => y.1 != me)
  match s.claimOf s.cur.1 s.cur.2 with
  | some g => ({ x with claims := others }, g)
  | none =>
    let cs := s.claimants cell n
    let given := serveClaims (32 - (s.lanesHeld cell - (cs.map (fun y => s.heldBy y.1 y.2.1)).sum)) cs
    let recs := (given.filter (fun y => y.1 != s.cur.1)).map (fun y => (2 * posOf y.1 + y.2.1, (ctxOf (s.core y.1) y.2.1).fid, y.2.2))
    ({ x with
        ptr := (posOf (match cs with | y :: _ => y.1 | [] => s.cur.1) + 1) % 8
        claims := others.filter (fun y => !(recs.any (fun z => z.1 == y.1))) ++ recs },
      match given.find? (fun y => y.1 == s.cur.1) with | some y => y.2.2 | none => 0)
/-- lclaim (R128). -/
def lclaimOp (f : WForm) (s : State) : Except Code State := do
  let (x, g) := s.claimLanes (8 * f.fld 14 3)
  let t := (s.modCtx (fun k => { k with grant := g })).setCell (cellOf s.cur.1) x
  t.writeS f.d (BitVec.ofNat 64 g)
/-- lrel (R127). -/
def lrelOp (s : State) : Except Code State := .ok (s.modCtx (fun k => { k with grant := 0 }))
/-- lcount (R127). -/
def lcountOp (f : WForm) (s : State) : Except Code State :=
  s.writeS f.d (BitVec.ofNat 64 (if f.fld 14 1 = 0 then s.ctx.grant else 32 - s.lanesHeld (cellOf s.cur.1)))

/-! ### Spool lanes (R135) -/

/-- vspz. -/
def vspzOp (f : WForm) (s : State) : Except Code State := do
  s.needGrant
  pure (s.setSpools f.d (fun i => if s.laneOn f.km i then some Spool.zero else none))
/-- vspfma: the fmt code stands in op; a tagged lane leaves its spool (R131). -/
def vspfmaOp (f : WForm) (s0 : State) : Except Code State := do
  s0.needGrant
  let (b, s) ← s0.readB f
  let y (i : Nat) : Word := if f.bs then b else (s.readV f.b i).val.setWidth 64
  pure (s.setSpools f.d (fun i =>
    if s.laneOn f.km i && !(s.tagged (srcsOf f) i) then
      some (spoolAdd (s.readWsp f.d.toNat i) (XReal.mul (readFmt f.op ((s.readV f.a i).val.setWidth 64)) (readFmt f.op (y i))))
    else none))
/-- vsprnd. -/
def vsprndOp (f : WForm) (s : State) : Except Code State := do
  s.needGrant
  pure (s.setLanes f.d (fun i =>
    if s.laneOn f.km i then full ((writeFmt f.op (spoolVal (s.readWsp f.a.toNat i)) f.rm).setWidth 32) else none))

/-! ### Compares, select, masks (R136 to R138) -/

/-- The bits of a mask register that h gives a value are written; k0 discards the result (R136). -/
def setMask (s : State) (d : BitVec 6) (h : Nat → Option Bool) : State :=
  let old := s.readK d.toNat
  let v := (List.range 32).foldl (fun acc i => if (match h i with | some b => b | none => old.getLsbD i) then acc + 2 ^ i else acc) 0
  s.writeK d.toNat (BitVec.ofNat 32 v)
/-- The three compares (R136). -/
def vcmpOp (f : WForm) (g : BitVec 32 → BitVec 32 → Bool) (s0 : State) : Except Code State := do
  s0.needGrant
  let (b, s) ← s0.readB f
  pure (s.setMask f.d (fun i =>
    if s.laneOn f.km i then some (!(s.tagged (srcsOf f) i) && g (s.readV f.a i).val (s.laneB f low32 b i)) else none))
/-- vsel: the chosen lane is copied with its tag (R137). -/
def vselOp (f : WForm) (s0 : State) : Except Code State := do
  s0.needGrant
  let (b, s) ← s0.readB f
  pure (s.setLanes f.d (fun i =>
    if s.laneOn f.km i then
      (if (s.readK f.c.toNat).getLsbD i then some (s.readV f.a i)
       else if f.bs then full (low32 b) else some (s.readV f.b i))
    else none))
/-- A mask from two masks (R138). -/
def maskOp (g : BitVec 32 → BitVec 32 → BitVec 32) (f : WForm) (s : State) : Except Code State :=
  .ok (s.writeK f.d.toNat (g (s.readK f.a.toNat) (s.readK f.b.toNat)))
/-- kset (R138). -/
def ksetOp (f : WForm) (s0 : State) : Except Code State := do
  let (a, s) ← s0.readS f.a
  pure (s.writeK f.d.toNat (a.setWidth 32))
/-- kget (R138). -/
def kgetOp (f : WForm) (s : State) : Except Code State := s.writeS f.d ((s.readK f.a.toNat).setWidth 64)

/-! ### Conversion and packing (R139, R140) -/

/-- A lane converted (R139): sc tells that the scale c applies. -/
def convLane (src dst rm : Nat) (sc : Bool) (c : Nat) (v : BitVec 32) : BitVec 32 :=
  let x := if sc && isMx src then decodeMx src (v.toNat % 2 ^ 8) c else readFmt src (v.setWidth 64)
  if sc && isMx dst then BitVec.ofNat 32 (roundMx dst (if c = 255 then .nan else x.scale (127 - (c : Int))))
  else (writeFmt dst x rm).setWidth 32
/-- vcvt (R139). -/
def vcvtOp (f : WForm) (s0 : State) : Except Code State := do
  s0.needGrant
  let (c, s) ← s0.readS f.c
  pure (s.elementwise f [f.a] (fun i => convLane f.vsrc f.vdst f.rm f.sc (c.toNat % 256) (s.readV f.a i).val))
/-- vpack (R140). -/
def vpackOp (f : WForm) (s : State) : Except Code State := do
  s.needGrant
  let n := f.packN
  let per := 32 / n
  pure (s.setLanes f.d (fun l =>
    let js := ((List.range per).map (fun e => (e, per * l + e))).filter (fun x => decide (32 * f.q ≤ x.2) && decide (x.2 < 32 * f.q + s.ctx.grant))
    if s.laneOn f.km l && !js.isEmpty then
      (if js.any (fun x => (s.readV f.a (x.2 - 32 * f.q)).tag) then empty
       else full (BitVec.ofNat 32 (js.foldl (fun (v : Nat) x =>
         v - v / 2 ^ (n * x.1) % 2 ^ n * 2 ^ (n * x.1) + (s.readV f.a (x.2 - 32 * f.q)).val.toNat % 2 ^ n * 2 ^ (n * x.1)) (s.readV f.d l).val.toNat)))
    else none))
/-- vunpack (R140): u in [22] of parcel 1. -/
def vunpackOp (f : WForm) (s : State) : Except Code State := do
  s.needGrant
  let n := f.packN
  pure (s.setLanes f.d (fun j =>
    let p := 32 * f.q + j
    let l := p * n / 32
    let x := s.readV f.a l
    if s.laneOn f.km j then
      (if s.ctx.grant ≤ l || x.tag then empty
       else full (BitVec.ofInt 32 (elemRead n (f.fld 22 1 == 1) (x.val.toNat / 2 ^ (n * p % 32) % 2 ^ n))))
    else none))

/-! ### Cross-lane instructions (R141 to R143) -/

/-- A cross-lane read of lane j of a register: none for an empty token (R49, R141). -/
def crossRead (s : State) (km : Nat) (a : BitVec 6) (j : Int) : Option (BitVec 32) :=
  if 0 ≤ j ∧ j < s.ctx.grant ∧ s.laneOn km j.toNat = true ∧ (s.readV a j.toNat).tag = false then some (s.readV a j.toNat).val else none
/-- What an empty token does to a lane of a moving instruction (R141). -/
def moveLane (ep : Nat) (c : BitVec 32) (x : Option (BitVec 32)) : Option Lane :=
  match x with
  | some v => full v
  | none => match ep with | 0 => none | 1 => empty | _ => full c
/-- vbcast. -/
def vbcastOp (f : WForm) (s0 : State) : Except Code State := do
  s0.needGrant
  let (a, s) ← s0.readS f.a
  pure (s.setLanes f.d (fun i => if s.laneOn f.km i then full (low32 a) else none))
/-- vext. -/
def vextOp (f : WForm) (s0 : State) : Except Code State := do
  s0.needGrant
  let (b, s1) ← s0.readS f.b
  let (c, s) ← s1.readS f.c
  match s.crossRead f.km f.a (b.toNat % 32 : Nat) with
  | some v => s.writeS f.d (v.signExtend 64)
  | none => if f.ep = 2 then s.writeS f.d ((low32 c).signExtend 64) else .ok s
/-- vperm: a tagged lane of b makes lane i empty. -/
def vpermOp (f : WForm) (s0 : State) : Except Code State := do
  s0.needGrant
  let (c, s) ← s0.readS f.c
  pure (s.setLanes f.d (fun i =>
    let x := s.readV f.b i
    if s.laneOn f.km i then moveLane f.ep (low32 c) (if x.tag then none else s.crossRead f.km f.a (x.val.toNat % 32 : Nat)) else none))
/-- vslide. -/
def vslideOp (f : WForm) (s0 : State) : Except Code State := do
  s0.needGrant
  let (b, s1) ← s0.readS f.b
  let (c, s) ← s1.readS f.c
  pure (s.setLanes f.d (fun i =>
    if s.laneOn f.km i then moveLane f.ep (low32 c) (s.crossRead f.km f.a ((i : Int) + b.toInt)) else none))
/-- The 32 values that a reduction takes: an empty lane gives the identity, or the constant under .rp (R142). -/
def redValues (s : State) (f : WForm) (c : BitVec 32) : List (BitVec 32) :=
  (List.range 32).map (fun j : Nat => (s.crossRead f.km f.a (j : Int)).getD (if f.ep = 2 then c else redIdentity f.op))
/-- vred (R142). -/
def vredOp (f : WForm) (s0 : State) : Except Code State := do
  s0.needGrant
  let (c, s) ← s0.readS f.c
  if f.op = 11 then
    pure (s.writeY f.d.toNat (redTree (fun x y => spoolMerge x y false) Spool.zero
      ((List.range 32).map (fun j => if s.laneOn f.km j then s.readWsp f.a.toNat j else Spool.zero))))
  else
    let r := redTree (redCombine f.op f.rm) 0 (s.redValues f (low32 c))
    s.writeS f.d (if 8 ≤ f.op then r.setWidth 64 else r.signExtend 64)
/-- vscan (R143). -/
def vscanOp (f : WForm) (s0 : State) : Except Code State := do
  s0.needGrant
  let (c, s) ← s0.readS f.c
  let t := scanAll (redCombine f.op f.rm) 0 (s.redValues f (low32 c))
  pure (s.setLanes f.d (fun i =>
    if s.laneOn f.km i then
      (if f.ep = 1 ∧ (s.crossRead f.km f.a (i : Int)).isNone then empty else full (redResult f.op (t.getD i 0)))
    else none))

/-! ### Vector loads and stores (R144 to R147) -/

/-- The active lanes with their addresses (R145). kind: 0 consecutive, 1 strided by b, 2 indexed by the lanes of b. -/
def vecAddrs (s : State) (f : WForm) (kind : Nat) (store : Bool) (base b : Word) : List (Nat × Word) :=
  ((List.range 32).filter (fun i => s.laneOn f.c.toNat i && !(kind == 2 && (s.readV f.b i).tag) && !(store && (s.readV f.d i).tag))).map
    (fun i : Nat => (i, base + (match kind with
      | 0 => BitVec.ofNat 64 (4 * i)
      | 1 => BitVec.ofNat 64 i * b
      | _ => (s.readV f.b i).val.setWidth 64)))
/-- The conflict cycles of an access count (R146); the words of the slot unit use no bank (R205). -/
def countBanks (s : State) (as : List (Nat × Word)) : State :=
  s.modCur (fun c => { c with
    conflicts := c.conflicts + (bankLoad ((as.map (fun x => x.2.toNat)).filter (fun x => !(s.hitsSlots s.cur.1 x 4))) - 1) })
/-- The checks of R145 on every active lane. -/
def vecCheck (as : List (Nat × Word)) : Except Code Unit := do
  need (as.all (fun x => decide (x.2.toNat % 4 = 0))) 0x03
  need (as.all (fun x => decide (x.2.toNat + 4 ≤ 0x20000))) 0x04
/-- The stride register is popped by the strided forms alone. -/
def readStride (s : State) (f : WForm) (kind : Nat) : Except Code (Word × State) := if kind = 1 then s.readS f.b else .ok (0, s)
/-- vld, vlds and vldx (R145). -/
def vloadOp (kind : Nat) (f : WForm) (imm : Word) (s0 : State) : Except Code State := do
  s0.needGrant
  let (a, s1) ← s0.readS f.a
  let (b, s) ← s1.readStride f kind
  let as := s.vecAddrs f kind false (a + imm) b
  vecCheck as
  need (as.all (fun x => !(s.poisoned (coreKey s.cur.1 x.2.toNat) 4))) 0x21
  let t := as.foldl (fun (t : State) x => t.saw s.pipeReader (coreKey s.cur.1 x.2.toNat) 4) s
  pure ((t.setLanes f.d (fun i =>
    match as.find? (fun x => x.1 == i) with
    | some x => full (BitVec.ofNat 32 (s.seenN s.pipeReader (coreKey s.cur.1 x.2.toNat) 4))
    | none => none)).countBanks as)
/-- vst, vsts and vstx (R145): the highest lane's value stands at equal addresses; an aligned 8-byte word is seen old or new (R147); words 0 to 9 of a carve-out frame are not
writable (R173). -/
def vstoreOp (kind : Nat) (f : WForm) (imm : Word) (s0 : State) : Except Code State := do
  s0.needGrant
  let (a, s1) ← s0.readS f.a
  let (b, s) ← s1.readStride f kind
  let as := s.vecAddrs f kind true (a + imm) b
  vecCheck as
  need (as.all (fun x => !(s.hitsSlots s.cur.1 x.2.toNat 4))) 0x04
  let key (x : Nat × Word) : Nat := coreKey s.cur.1 x.2.toNat
  pure ((s.notedLanes s.pipeWriter (as.map key)
    (as.foldl (fun (t : State) x => t.writeN (key x) 4 (s.readV f.d x.1).val.toNat) s)).countBanks as)

end State

/-- lclaim (R128). -/
def execLclaim (f : WForm) (s : State) : Out := issue 8 f.guard s (State.lclaimOp f)
/-- lrel (R127). -/
def execLrel (f : WForm) (s : State) : Out := issue 8 f.guard s (State.lrelOp)
/-- lcount (R127). -/
def execLcount (f : WForm) (s : State) : Out := issue 8 f.guard s (State.lcountOp f)
/-- vadd (R132). -/
def execVadd (f : WForm) (s : State) : Out := issue 8 f.guard s (State.vecInt f (fun _ a b => (a : Int) + b))
/-- vsub (R132). -/
def execVsub (f : WForm) (s : State) : Out := issue 8 f.guard s (State.vecInt f (fun _ a b => (a : Int) - b))
/-- vmul (R132). -/
def execVmul (f : WForm) (s : State) : Out := issue 8 f.guard s (State.vecInt f (fun _ a b => (a : Int) * b))
/-- vmulh (R132). -/
def execVmulh (f : WForm) (s : State) : Out := issue 8 f.guard s (State.vecInt f (fun w a b => elemRead w f.uBit a * elemRead w f.uBit b / 2 ^ w))
/-- vmad (R132). -/
def execVmad (f : WForm) (s : State) : Out := issue 8 f.guard s (State.vec2 f true (splat f.width) (fun d a b => laneOf f.width (fun e => (elemOf f.width d e : Int) + elemOf f.width a e * elemOf f.width b e)))
/-- vmin (R132). -/
def execVmin (f : WForm) (s : State) : Out := issue 8 f.guard s (State.vecInt f (fun w a b => min (elemRead w f.uBit a) (elemRead w f.uBit b)))
/-- vmax (R132). -/
def execVmax (f : WForm) (s : State) : Out := issue 8 f.guard s (State.vecInt f (fun w a b => max (elemRead w f.uBit a) (elemRead w f.uBit b)))
/-- vabs (R132). -/
def execVabs (f : WForm) (s : State) : Out := issue 8 f.guard s (State.vec1 f (fun a => laneOf f.width (fun e => (elemInt f.width (elemOf f.width a e)).natAbs)))
/-- vand (R132): ew is without effect. -/
def execVand (f : WForm) (s : State) : Out := issue 8 f.guard s (State.vec2 f false State.low32 (fun _ a b => a &&& b))
/-- vor (R132): ew is without effect. -/
def execVor (f : WForm) (s : State) : Out := issue 8 f.guard s (State.vec2 f false State.low32 (fun _ a b => a ||| b))
/-- vxor (R132): ew is without effect. -/
def execVxor (f : WForm) (s : State) : Out := issue 8 f.guard s (State.vec2 f false State.low32 (fun _ a b => a ^^^ b))
/-- vshl (R132). -/
def execVshl (f : WForm) (s : State) : Out := issue 8 f.guard s (State.vecInt f (fun w a b => (a : Int) * 2 ^ (b % w)))
/-- vshr (R132). -/
def execVshr (f : WForm) (s : State) : Out := issue 8 f.guard s (State.vecInt f (fun w a b => (a : Int) / 2 ^ (b % w)))
/-- vsar (R132). -/
def execVsar (f : WForm) (s : State) : Out := issue 8 f.guard s (State.vecInt f (fun w a b => elemInt w a / 2 ^ (b % w)))
/-- vrshr (R132). -/
def execVrshr (f : WForm) (s : State) : Out := issue 8 f.guard s (State.vecInt f (fun w a b => roundShift w f.uBit a b))
/-- vsat (R132). -/
def execVsat (f : WForm) (s : State) : Out := issue 8 f.guard s (State.vec1 f (fun a => laneOf f.width (fun e => satElem f.width f.c.toNat f.uBit (elemOf f.width a e))))
/-- vclamp (R132). -/
def execVclamp (f : WForm) (s : State) : Out := issue 8 f.guard s (State.vec3 f (splat f.width) (fun a b c => laneOf f.width (fun e => min (max (elemRead f.width f.uBit (elemOf f.width a e)) (elemRead f.width f.uBit (elemOf f.width b e))) (elemRead f.width f.uBit (elemOf f.width c e)))))
/-- vdot4 (R132). -/
def execVdot4 (f : WForm) (s : State) : Out := issue 8 f.guard s (State.vec2 f true State.low32 (dot 8 f.uBit (f.op == 1)))
/-- vdot2 (R132). -/
def execVdot2 (f : WForm) (s : State) : Out := issue 8 f.guard s (State.vec2 f true State.low32 (dot 16 f.uBit (f.op == 1)))
/-- vfadd (R133). -/
def execVfadd (f : WForm) (s : State) : Out := issue 8 f.guard s (State.vecFp f (fun a b => fpAdd a b f.rm))
/-- vfsub (R133). -/
def execVfsub (f : WForm) (s : State) : Out := issue 8 f.guard s (State.vecFp f (fun a b => fpSub a b f.rm))
/-- vfmul (R133). -/
def execVfmul (f : WForm) (s : State) : Out := issue 8 f.guard s (State.vecFp f (fun a b => fpMul a b f.rm))
/-- vffma (R133). -/
def execVffma (f : WForm) (s : State) : Out := issue 8 f.guard s (State.vec3 f State.low32 (fun a b c => fpFma a b c f.rm))
/-- vfmin (R133). -/
def execVfmin (f : WForm) (s : State) : Out := issue 8 f.guard s (State.vecFp f fpMin)
/-- vfmax (R133). -/
def execVfmax (f : WForm) (s : State) : Out := issue 8 f.guard s (State.vecFp f fpMax)
/-- vfabs (R133). -/
def execVfabs (f : WForm) (s : State) : Out := issue 8 f.guard s (State.vec1 f fpAbs)
/-- vfneg (R133). -/
def execVfneg (f : WForm) (s : State) : Out := issue 8 f.guard s (State.vec1 f fpNeg)
/-- vexp2 (R133, R134). -/
def execVexp2 (f : WForm) (s : State) : Out := issue 8 f.guard s (State.vecReal f XReal.exp2)
/-- vlog2 (R133, R134). -/
def execVlog2 (f : WForm) (s : State) : Out := issue 8 f.guard s (State.vecReal f XReal.log2)
/-- vrcp (R133, R134). -/
def execVrcp (f : WForm) (s : State) : Out := issue 8 f.guard s (State.vecReal f (fun x => XReal.div (XReal.ofInt 1) x))
/-- vrsqrt (R133, R134). -/
def execVrsqrt (f : WForm) (s : State) : Out := issue 8 f.guard s (State.vecReal f XReal.rsqrt)
/-- vsqrt (R133). -/
def execVsqrt (f : WForm) (s : State) : Out := issue 8 f.guard s (State.vecReal f XReal.sqrt)
/-- vdiv (R133). -/
def execVdiv (f : WForm) (s : State) : Out := issue 8 f.guard s (State.vecFp f (fun a b => fpDiv a b f.rm))
/-- vtadd (R135). -/
def execVtadd (f : WForm) (s : State) : Out := issue 8 f.guard s (State.vecTf f (fun t => tfOp2 t (fun x y => XReal.add x y 0)))
/-- vtsub (R135). -/
def execVtsub (f : WForm) (s : State) : Out := issue 8 f.guard s (State.vecTf f (fun t => tfOp2 t (fun x y => XReal.add x y.neg 0)))
/-- vtmul (R135). -/
def execVtmul (f : WForm) (s : State) : Out := issue 8 f.guard s (State.vecTf f (fun t => tfOp2 t XReal.mul))
/-- vtfma (R135). -/
def execVtfma (f : WForm) (s : State) : Out := issue 8 f.guard s (State.vec3 f State.low32 (fun a b c => tfLane f.ew (tfFma f.ew a.toNat b.toNat c.toNat)))
/-- vtmin (R135): tmin of R120. DESIGN CHOICE (log entry 59): R135 says the minors act as the rows of R120 with the same minor, where
minors 4 and 5 are tdiv and tsqrt; the names are followed. -/
def execVtmin (f : WForm) (s : State) : Out := issue 8 f.guard s (State.vecTf f (fun t a b => if tfInt t b < tfInt t a then b else a))
/-- vtmax (R135): tmax of R120 (log entry 59, see vtmin). -/
def execVtmax (f : WForm) (s : State) : Out := issue 8 f.guard s (State.vecTf f (fun t a b => if tfInt t a < tfInt t b then b else a))
/-- vspz (R135). -/
def execVspz (f : WForm) (s : State) : Out := issue 8 f.guard s (State.vspzOp f)
/-- vspfma (R135). -/
def execVspfma (f : WForm) (s : State) : Out := issue 8 f.guard s (State.vspfmaOp f)
/-- vsprnd (R135). -/
def execVsprnd (f : WForm) (s : State) : Out := issue 8 f.guard s (State.vsprndOp f)
/-- vcmp (R136). -/
def execVcmp (f : WForm) (s : State) : Out := issue 8 f.guard s (State.vcmpOp f (fun a b => intCond f.op (a.signExtend 64) (b.signExtend 64)))
/-- vfcmp (R136). -/
def execVfcmp (f : WForm) (s : State) : Out := issue 8 f.guard s (State.vcmpOp f (fun a b => fpCond f.op (decodeFp32 a) (decodeFp32 b)))
/-- vtcmp (R136). -/
def execVtcmp (f : WForm) (s : State) : Out := issue 8 f.guard s (State.vcmpOp f (fun a b => tfCond f.op (tfInt f.ew a.toNat) (tfInt f.ew b.toNat)))
/-- vsel (R137). -/
def execVsel (f : WForm) (s : State) : Out := issue 8 f.guard s (State.vselOp f)
/-- kand (R138). -/
def execKand (f : WForm) (s : State) : Out := issue 8 f.guard s (State.maskOp (· &&& ·) f)
/-- kor (R138). -/
def execKor (f : WForm) (s : State) : Out := issue 8 f.guard s (State.maskOp (· ||| ·) f)
/-- kxor (R138). -/
def execKxor (f : WForm) (s : State) : Out := issue 8 f.guard s (State.maskOp (· ^^^ ·) f)
/-- knot (R138). -/
def execKnot (f : WForm) (s : State) : Out := issue 8 f.guard s (State.maskOp (fun a _ => ~~~a) f)
/-- kset (R138). -/
def execKset (f : WForm) (s : State) : Out := issue 8 f.guard s (State.ksetOp f)
/-- kget (R138). -/
def execKget (f : WForm) (s : State) : Out := issue 8 f.guard s (State.kgetOp f)
/-- vcvt (R139). -/
def execVcvt (f : WForm) (s : State) : Out := issue 8 f.guard s (State.vcvtOp f)
/-- vpack (R140). -/
def execVpack (f : WForm) (s : State) : Out := issue 8 f.guard s (State.vpackOp f)
/-- vunpack (R140). -/
def execVunpack (f : WForm) (s : State) : Out := issue 8 f.guard s (State.vunpackOp f)
/-- vbcast (R141). -/
def execVbcast (f : WForm) (s : State) : Out := issue 8 f.guard s (State.vbcastOp f)
/-- vext (R141). -/
def execVext (f : WForm) (s : State) : Out := issue 8 f.guard s (State.vextOp f)
/-- vperm (R141). -/
def execVperm (f : WForm) (s : State) : Out := issue 8 f.guard s (State.vpermOp f)
/-- vslide (R141). -/
def execVslide (f : WForm) (s : State) : Out := issue 8 f.guard s (State.vslideOp f)
/-- vred (R142). -/
def execVred (f : WForm) (s : State) : Out := issue 8 f.guard s (State.vredOp f)
/-- vscan (R143). -/
def execVscan (f : WForm) (s : State) : Out := issue 8 f.guard s (State.vscanOp f)
/-- vld, W form (R145). -/
def execVld (f : WForm) (s : State) : Out := issue 8 f.guard s (State.vloadOp 0 f f.imm)
/-- vld, X form (R145). -/
def execVldX (f : XForm) (s : State) : Out := issue 12 f.guard s (State.vloadOp 0 f.toW f.imm)
/-- vst, W form (R145). -/
def execVst (f : WForm) (s : State) : Out := issue 8 f.guard s (State.vstoreOp 0 f f.imm)
/-- vst, X form (R145). -/
def execVstX (f : XForm) (s : State) : Out := issue 12 f.guard s (State.vstoreOp 0 f.toW f.imm)
/-- vlds, W form (R145). -/
def execVlds (f : WForm) (s : State) : Out := issue 8 f.guard s (State.vloadOp 1 f f.imm)
/-- vlds, X form (R145). -/
def execVldsX (f : XForm) (s : State) : Out := issue 12 f.guard s (State.vloadOp 1 f.toW f.imm)
/-- vsts, W form (R145). -/
def execVsts (f : WForm) (s : State) : Out := issue 8 f.guard s (State.vstoreOp 1 f f.imm)
/-- vsts, X form (R145). -/
def execVstsX (f : XForm) (s : State) : Out := issue 12 f.guard s (State.vstoreOp 1 f.toW f.imm)
/-- vldx, W form (R145). -/
def execVldx (f : WForm) (s : State) : Out := issue 8 f.guard s (State.vloadOp 2 f f.imm)
/-- vldx, X form (R145). -/
def execVldxX (f : XForm) (s : State) : Out := issue 12 f.guard s (State.vloadOp 2 f.toW f.imm)
/-- vstx, W form (R145). -/
def execVstx (f : WForm) (s : State) : Out := issue 8 f.guard s (State.vstoreOp 2 f f.imm)
/-- vstx, X form (R145). -/
def execVstxX (f : XForm) (s : State) : Out := issue 12 f.guard s (State.vstoreOp 2 f.toW f.imm)

end Sys2Proof.Machine
end

