-- ==== Sys2Proof/Machine/Matrix.lean ====
section
/-! DEFINITION. The matrix node: major 0x28 and its commands (R148 to R168). -/

namespace Sys2Proof.Machine

/-! ### Formats (R149 to R151) -/

/-- The mode of a pair of matrix formats: 0 INT, 1 SPOOL, 2 FP32; none for a pair that R150 does not list. -/
def matMode (fa fb : Nat) : Option Nat :=
  if fa = 0 ∧ fb = 0 then some 0
  else if (fa = 1 ∧ fb = 1) ∨ (fa = 2 ∧ fb = 2) then some 1
  else if fa = 3 ∧ fb = 3 then some 2
  else if (fa = 4 ∨ fa = 5) ∧ (fb = 4 ∨ fb = 5) then some 2
  else if (fa = 6 ∨ fa = 7) ∧ (fb = 6 ∨ fb = 7) then some 2
  else if fa = 8 ∧ fb = 8 then some 2
  else none
/-- The bits of an element of a matrix format (R149). -/
def matBits (fmt : Nat) : Nat := match fmt with | 2 => 16 | 3 => 16 | 6 => 6 | 7 => 6 | 8 => 4 | _ => 8
/-- K: the elements of 192 bytes (R149). -/
def matK (fmt : Nat) : Nat := 1536 / matBits fmt
/-- An element of a matrix format under a scale code (R150, R152, R153). -/
def matElem (fmt code scale : Nat) : XReal :=
  match fmt with
  | 0 => XReal.ofInt (BitVec.ofNat 8 code).toInt
  | 1 => decTf 0 code
  | 2 => decTf 1 code
  | 3 => decodeBf16 (BitVec.ofNat 16 code)
  | _ => decodeMx (fmt + 5) code scale
/-- The elements of a row or column of 192 bytes, with the scales of its blocks (R149). -/
def matRow (fmt : Nat) (bytes scales : List Byte) : List XReal :=
  let v := State.natOfBytes bytes
  (List.range (matK fmt)).map (fun k => matElem fmt (v / 2 ^ (matBits fmt * k) % 2 ^ matBits fmt) ((scales.getD (k / 32) 0x7F).toNat))
/-- The products of a row and a column. -/
def products (xs ys : List XReal) : List XReal := (xs.zip ys).map (fun p => XReal.mul p.1 p.2)
/-- One entry after mma: the spool sum of R152, or the one rounding of R153. The sum of XReal has the special values of R153 and
the sign of its exact zero. -/
def mmaEntry (mode : Nat) (acc : Spool) (xs ys : List XReal) : Spool :=
  if mode = 2 then
    let t := (products xs ys).foldl (fun (u : XReal) x => XReal.add u x 0) (decodeFp32 (acc.s.setWidth 32))
    { s := (roundFp32 t 0).setWidth 160, nar := false }
  else (products xs ys).foldl spoolAdd acc
/-- The bytes of 192 from byte 192 i of a list; a missing byte is 0. -/
def slice192 (bs : List Byte) (i : Nat) : List Byte := (List.range 192).map (fun k => bs.getD (192 * i + k) 0)
/-- The 12 scale codes of a row or column; a missing code is 0x7F (R148). -/
def slice12 (bs : List Byte) (i : Nat) : List Byte := (List.range 12).map (fun k => bs.getD (12 * i + k) 0x7F)

/-- The bytes of an entry drained to a format of R114 (R164). -/
def drainSize (fmt : Nat) : Nat := match fmt with | 0 => 1 | 1 => 2 | 2 => 4 | 4 => 1 | 5 => 2 | 6 => 4 | 7 => 4 | 8 => 2 | _ => 32
/-- An entry converted to a format (R164). -/
def drainWord (mode fmt rm : Nat) (e : Spool) : Nat :=
  if fmt = 15 then (bitsOfSpool e).toNat
  else if mode = 2 then
    (if fmt = 7 then (e.s.setWidth 32).toNat else (writeFmt fmt (decodeFp32 (e.s.setWidth 32)) rm).toNat)
  else (writeFmt fmt (spoolVal e) rm).toNat

/-! ### The command queue (R154) -/

/-- The unit of a command: 0 multiply, 1 ring, 2 drain, 3 load. -/
def mUnit : MOp → Nat
  | .mma .. => 0
  | .mzero .. => 0
  | .mclear .. => 0
  | .mrot _ => 1
  | .mdrain .. => 2
  | .mlb .. => 3
  | .mscl .. => 3
/-- The state of a node as one range of numbers: scratchpad bytes, tiles, latches, latch scales and the A scales. -/
def mTile (t : Nat) : Nat × Nat := (2 ^ 20 + t, 1)
/-- A latch. -/
def mLatch (n : Nat) : Nat × Nat := (2 ^ 21 + n, 1)
/-- A latch scale buffer; number 2 is the A scale buffer. -/
def mScale (n : Nat) : Nat × Nat := (2 ^ 22 + n, 1)
/-- What a command reads (R154). -/
def mReads : MOp → List (Nat × Nat)
  | .mma t addr l _ _ => [(addr, 3072), mLatch l, mScale l, mScale 2, mTile t]
  | .mlb _ addr => [(addr, 3072)]
  | .mrot l => [mLatch l, mScale l]
  | .mdrain t .. => [mTile t]
  | .mscl _ addr => [(addr, 192)]
  | .mzero .. => []
  | .mclear .. => []
/-- What a command writes (R154). -/
def mWrites : MOp → List (Nat × Nat)
  | .mma t .. => [mTile t]
  | .mlb l _ => [mLatch l]
  | .mrot _ => []
  | .mdrain t addr fmt _ _ n _ clr _ => (addr, n * 16 * drainSize fmt) :: (if clr then [mTile t] else [])
  | .mscl tgt _ => [mScale (if tgt = 0 then 2 else tgt - 1)]
  | .mzero t _ => [mTile t]
  | .mclear t _ => [mTile t]
/-- Two lists of ranges meet. -/
def meets (a b : List (Nat × Nat)) : Bool := a.any (fun x => b.any (fun y => overlaps x.1 x.2 y.1 y.2))
/-- An earlier unfinished command stands in the way of a later one (R154). -/
def mBlocks (x y : MCmd) : Bool :=
  decide (x.seq < y.seq) &&
    (mUnit x.op == mUnit y.op || meets (mWrites x.op) (mReads y.op ++ mWrites y.op) || meets (mReads x.op) (mWrites y.op))
/-- A command names a latch (R162). -/
def namesLatch (n : Nat) : MOp → Bool
  | .mma _ _ l _ _ => l == n
  | .mlb l _ => l == n
  | .mrot l => l == n
  | .mscl tgt _ => tgt == n + 1
  | _ => false
/-- A command names a tile (R166). -/
def namesTile (n : Nat) : MOp → Bool
  | .mma t .. => t == n
  | .mdrain t .. => t == n
  | .mzero t _ => t == n
  | .mclear t _ => t == n
  | _ => false
/-- The core-scratchpad bytes that a command reads: offset and length (R167). -/
def mSource : MOp → Nat × Nat
  | .mma _ addr _ _ _ => (addr, 3072)
  | .mlb _ addr => (addr, 3072)
  | .mscl _ addr => (addr, 192)
  | _ => (0, 0)
/-- The aligned 8-byte words of that source: the first and how many. Each of them is read once (R156, R167). -/
def sourceWords (op : MOp) : Nat × Nat :=
  let (off, len) := mSource op
  (off / 8, (off + len + 7) / 8 - off / 8)

namespace State

/-- The descriptor of a tile: A format and B format (R148). -/
def tileDesc (s : State) (cid t : Nat) : Nat × Nat := let d := (s.core cid).desc.get 0 t; (d % 16, d / 16)
/-- The mode of a tile (R150). -/
def tileMode (s : State) (t : Nat) : Nat := let d := s.tileDesc s.cur.1 t; (matMode d.1 d.2).getD 0
/-- Entry (i, j) of a tile (R148). -/
def entry (c : Core) (t i j : Nat) : Spool := c.tiles.get Spool.zero (256 * t + 16 * i + j)

/-- LANDING_MOVE (R162): a landed tile moves into its latch when no command that names the latch is queued or running, and the
receiving node signals the slot. -/
def landingMove (s : State) (cid l : Nat) : State :=
  let c := s.core cid
  match c.landing.get none l with
  | none => s
  | some x =>
    if c.mq.any (fun m => namesLatch l m.op) || c.dead || c.saved then s
    else
      (s.modCore cid (fun c => { c with
        landing := c.landing.set l none, latch := c.latch.set l x.bytes, bscale := c.bscale.set l x.scales })).complete
        (.core cid) x.from_ x.ret x.cmd 1

/-! ### Issue (R155, R157) -/

/-- A queue of 8 entries has room (R155). -/
def mqRoom (s : State) : Except Code Unit := need (decide ((s.core s.cur.1).mq.length < 8)) 0x14
/-- The tiles that have landed for the latches a command names move before it enters the queue, so that it sees them (R162). -/
def settleLatches (s : State) (op : MOp) : State :=
  (List.range 2).foldl (fun (t : State) l => if namesLatch l op then t.landingMove t.cur.1 l else t) s
/-- A command enters the queue (R154). -/
def mEnqueue (s0 : State) (op : MOp) (cmd : Nat) (r : Ret) : State :=
  let s := s0.settleLatches op
  let x : MCmd := { op := op, seq := s.seq, cmd := cmd, from_ := s.issuer, ret := r, fences := s.ctx.fences, started := false, rows := 0
                    landed := false, src := [], pois := [] }
  { s with seq := s.seq + 1 }.modCur (fun c => { c with mq := c.mq ++ [x] })
/-- A command without a signal enters the queue, where there is room. -/
def mQuiet (s : State) (op : MOp) : Except Code State := do
  s.mqRoom
  pure (s.mEnqueue op 0 { ow := 0, slot := none, bytes := 1 })
/-- An asynchronous command enters the queue, where there is room for it and for the frame (R155). -/
def mAsync (s : State) (op : MOp) (minor : Nat) (slot : Option Nat) (bytes : Nat) : Except Code State := do
  s.mqRoom
  s.asyncRoom
  let (t, id) := s.newCmd 0x28 minor
  pure (t.mEnqueue op id { ow := 0, slot := slot, bytes := bytes })
/-- The alignment and bounds of n bytes at a core-scratchpad address. -/
def mRange (x : Word) (align n : Nat) : Except Code Unit := do
  need (decide (x.toNat % align = 0)) 0x03
  need (decide (x.toNat + n ≤ 0x20000)) 0x04

/-- mfmt (R158). -/
def mfmtOp (f : WForm) (s : State) : Except Code State :=
  let t := f.d.toNat
  let d := s.tileDesc s.cur.1 t
  match matMode f.fmt (f.fld 18 4) with
  | none => .error 0x28
  | some m =>
    let s1 := s.modCur (fun c => { c with desc := c.desc.set t (f.fmt + 16 * f.fld 18 4) })
    if matMode d.1 d.2 = some m then .ok s1 else s1.mQuiet (.mclear t m)
/-- mscl (R159): the target stands in c. -/
def msclOp (f : WForm) (imm : Word) (s0 : State) : Except Code State := do
  let (a, s) ← s0.readS f.a
  mRange (a + imm) 4 192
  s.mQuiet (.mscl (f.c.toNat % 4) (a + imm).toNat)
/-- mlb (R160). -/
def mlbOp (f : WForm) (imm : Word) (s0 : State) : Except Code State := do
  let (a, s1) ← s0.readS f.a
  let (c, s) ← s1.readS f.c
  let slot ← s.compSlot f.c c
  mRange (a + imm) 8 3072
  s.mAsync (.mlb f.d.toNat (a + imm).toNat) 2 slot 1
/-- mma (R161): the descriptor in force at issue stays with the command (R158). -/
def mmaOp (f : WForm) (imm : Word) (s0 : State) : Except Code State := do
  let (a, s1) ← s0.readS f.a
  let (c, s) ← s1.readS f.c
  let slot ← s.compSlot f.c c
  mRange (a + imm) 8 3072
  let d := s.tileDesc s.cur.1 f.d.toNat
  s.mAsync (.mma f.d.toNat (a + imm).toNat f.b.toNat d.1 d.2) 3 slot 1
/-- The core after the issuing one on its cell ring (R162). -/
def ringNext (s : State) : Nat := cellMate s.cur.1 ((posOf s.cur.1 + 1) % 8)
/-- mrot (R162): its slot is one of the receiving core. -/
def mrotOp (f : WForm) (s0 : State) : Except Code State := do
  let (c, s) ← s0.readS f.c
  let slot ← s.compSlot f.c c
  need (match slot with | some r => frefCore r == s.ringNext | none => true) 0x12
  s.mAsync (.mrot f.d.toNat) 4 slot 1
/-- mzero (R163). -/
def mzeroOp (f : WForm) (s : State) : Except Code State := s.mQuiet (.mzero f.d.toNat (s.tileMode f.d.toNat))
/-- The slot reference of row k of an mdrain.row: the frame's index raised by k (R164, R165). -/
def rowRef (r k : Nat) : Nat := r + k
/-- mdrain (R164, R165): rm in [19:18], .row in [28], .clr in [29] of parcel 1. -/
def mdrainOp (f : WForm) (s0 : State) : Except Code State := do
  let (a, s1) ← s0.readS f.a
  let (c, s) ← s1.readS f.c
  let slot ← s.compSlot f.c c
  let row := f.fld 28 1 == 1
  let sz := drainSize f.fmt
  need (match slot with
    | some r => !row || (List.range f.rows).all (fun k => decide (frefName r + k < 8192) && s.srefOk s.myPart (rowRef r k))
    | none => true) 0x12
  mRange a sz (f.rows * 16 * sz)
  need (!(s.hitsSlots s.cur.1 a.toNat (f.rows * 16 * sz))) 0x04
  let mode := s.tileMode f.d.toNat
  need (mode != 2 || f.fmt == 7 || f.fmt == 8) 0x28
  s.mAsync (.mdrain f.d.toNat a.toNat f.fmt (f.fld 18 2) f.row0 f.rows row (f.fld 29 1 == 1) mode) 6 slot
    (16 * sz * (if row then 1 else f.rows))
/-- mrow (R166). -/
def mrowOp (f : WForm) (s0 : State) : Except Code State := do
  s0.needGrant
  let (b, s) ← s0.readS f.b
  let t := f.a.toNat
  let mode := s.tileMode t
  need (mode != 2 || f.fmt == 7 || f.fmt == 8) 0x28
  let c := s.core s.cur.1
  if c.mq.any (fun m => namesTile t m.op) then pure (s.writeP f.c.toNat false)
  else
    pure ((s.setLanes f.d (fun j =>
      if j < 16 ∧ j < s.ctx.grant then full (BitVec.ofNat 32 (drainWord mode f.fmt (f.fld 18 2) (entry c t (b.toNat % 16) j))) else none)).writeP
      f.c.toNat true)

/-! ### The commands at work -/

/-- A command of a core's queue. -/
def mcmd (s : State) (cid m : Nat) : Option MCmd := (s.core cid).mq.find? (fun x => x.seq == m)
/-- A command of a core's queue changed. -/
def modMcmd (s : State) (cid m : Nat) (g : MCmd → MCmd) : State :=
  s.modCore cid (fun c => { c with mq := c.mq.map (fun x => if x.seq = m then g x else x) })
/-- A command leaves the queue (R154). -/
def dropMcmd (s : State) (cid m : Nat) : State := s.modCore cid (fun c => { c with mq := c.mq.filter (fun x => x.seq != m) })
/-- The bytes of a latch, 3,072 of them. -/
def latchBytes (c : Core) (n : Nat) : List Byte := (List.range 3072).map (fun i => (c.latch.get [] n).getD i 0)
/-- The 192 scale codes of a latch. -/
def latchScales (c : Core) (n : Nat) : List Byte := (List.range 192).map (fun i => (c.bscale.get [] n).getD i 0x7F)

/-- The matrix node as a reader and a writer for a command; part r of an mdrain is row r (R241, R246). -/
def matReader (x : MCmd) : Reader := { fid := x.from_.fid, by_ := 3, num := x.seq }
def matWriter (x : MCmd) (r : Nat) : Writer := { fid := x.from_.fid, inst := x.from_.inst, by_ := 3, num := x.seq, tag := r }
/-- A write of a matrix command. -/
def byMcmd (x : MCmd) (e : Older) : Bool := e.by_ == 3 && e.num == x.seq

/-- MATRIX_COMMAND_START (R154). The source words are read as they stood then, or as R246 permits. An mrot puts its latch on the cell ring (R162). -/
def matrixStart (s : State) (cid m : Nat) : State :=
  let c := s.core cid
  match s.mcmd cid m with
  | none => s
  | some x =>
    if x.started || !x.fences.isEmpty || c.dead || c.saved || c.mq.any (fun y => mBlocks y x) then s
    else
      let (w, n) := sourceWords x.op
      let k := coreKey cid (8 * w)
      let t := (s.saw (matReader x) k (8 * n)).modMcmd cid m (fun y => { y with
        started := true, src := s.seenBytes (matReader x) k (8 * n), pois := (List.range n).filter (fun i => s.poisoned (k + 8 * i) 8) })
      match x.op with
      | .mrot l =>
        let rc := cellMate cid ((posOf cid + 1) % 8)
        let p := { packetOf (.tile l (latchBytes c l) (latchScales c l) m) (.core cid) (.core rc) x.from_.fref x.from_ with
          ret := x.ret, cmd := x.cmd }
        (t.send p).setPacket t.seq { p with gen := t.mgmt.gen, pos := .ready }
      | _ => t

/-- The aligned source word i of a command is read as it stood at the start: it changed since, and the free choice says so
(R156, R167). -/
def readsOld (s : State) (x : MCmd) (k i : Nat) : Bool :=
  let same := (List.range 8).all (fun j => x.src.getD (8 * i + j) 0 == s.byte (k + 8 * i + j)) && x.pois.contains i == s.poisoned (k + 8 * i) 8
  !same && Config.readOld (512 * s.tick + i)
/-- The source bytes of a command, and whether a word of them carried poison when it was read (R167). -/
def sourceOf (s : State) (cid : Nat) (x : MCmd) : List Byte × Bool :=
  let (off, len) := mSource x.op
  let (w, n) := sourceWords x.op
  let k := coreKey cid (8 * w)
  let old := (List.range n).map (fun i => s.readsOld x k i)
  ((List.range len).map (fun j => let b := off % 8 + j; if old.getD (b / 8) false then x.src.getD b 0 else s.byte (k + b)),
    (List.range n).any (fun i => if old.getD i false then x.pois.contains i else s.poisoned (k + 8 * i) 8))

/-- A tile after mma (R152, R153). -/
def mmaTile (c : Core) (t l fa fb : Nat) (bytes : List Byte) : Tbl Spool :=
  let mode := (matMode fa fb).getD 0
  let rows := (List.range 16).map (fun i => matRow fa (slice192 bytes i) (slice12 c.ascale i))
  let cols := (List.range 16).map (fun j => matRow fb (slice192 (c.latch.get [] l) j) (slice12 (c.bscale.get [] l) j))
  (List.range 256).foldl (fun (tb : Tbl Spool) n =>
    tb.set (256 * t + n) (mmaEntry mode (c.tiles.get Spool.zero (256 * t + n)) (rows.getD (n / 16) []) (cols.getD (n % 16) []))) c.tiles
/-- A tile with every entry zero (R151). -/
def zeroTile (tb : Tbl Spool) (t : Nat) : Tbl Spool := tb.filter (fun x => x.1 / 256 != t)

/-- The effect of a finishing command that met no poison (R158 to R163). -/
def matrixEffect (s : State) (cid : Nat) (x : MCmd) (bytes : List Byte) : State :=
  match x.op with
  | .mma t _ l fa fb => s.modCore cid (fun c => { c with tiles := mmaTile c t l fa fb bytes })
  | .mlb l _ => s.modCore cid (fun c => { c with latch := c.latch.set l bytes })
  | .mscl tgt _ => s.modCore cid (fun c => if tgt = 0 then { c with ascale := bytes } else { c with bscale := c.bscale.set (tgt - 1) bytes })
  | .mzero t _ => s.modCore cid (fun c => { c with tiles := zeroTile c.tiles t })
  | .mclear t _ => s.modCore cid (fun c => { c with tiles := zeroTile c.tiles t })
  | _ => s

/-- The tile of an mrot stays on the ring because it waits behind another at a core that a save in progress has saved: it is saved there as a
tile in transit, and the sender's queue empties without it (R168). While the partition is restored the sender waits as ever (R162). -/
def tileHeld (s : State) (cid m : Nat) : Bool :=
  s.net.any (fun y => match y.2.body, y.2.src, y.2.dst with
    | .tile l _ _ n, .core sc, .core rc => n == m && sc == cid && (s.core rc).saved && (s.part (s.partOf rc)).state != 4 && ((s.core rc).landing.get none l).isSome
    | _, _, _ => false)

/-- A started command has done its work: every row is drained, or the tile has landed or is held on the ring by a save (R162, R164, R168). -/
def matrixDone (s : State) (cid : Nat) (x : MCmd) : Bool :=
  match x.op with
  | .mdrain _ _ _ _ _ n _ _ _ => x.rows == n
  | .mrot _ => x.landed || s.tileHeld cid x.seq
  | _ => true

/-- The words of a command that it has read as they stand at its finish: every party reads them so from then on (R250). -/
def sourceSeen (s : State) (cid : Nat) (x : MCmd) : State :=
  let (w, n) := sourceWords x.op
  let k := coreKey cid (8 * w)
  (List.range n).foldl (fun t i => if s.readsOld x k i then t else t.publish (k + 8 * i) 8) s

/-- The completion of a finished command (R155), a release of every byte that it or its last row wrote: of mrot, the receiving node signals later (R162); of mdrain.row, the last row's
signal is this one (R164). -/
def matrixComplete (s : State) (cid : Nat) (x : MCmd) : State :=
  match x.op with
  | .mrot _ => s
  | .mdrain _ _ _ _ _ n true _ _ => s.completeFor (fun e => byMcmd x e && e.tag == n - 1) (.core cid) x.from_ { x.ret with slot := x.ret.slot.map (fun r => rowRef r (n - 1)) } x.cmd n
  | .mdrain _ _ _ _ _ n false _ _ => s.completeFor (byMcmd x) (.core cid) x.from_ x.ret x.cmd n
  | .mscl .. => s
  | .mzero .. => s
  | .mclear .. => s
  | _ => s.complete (.core cid) x.from_ x.ret x.cmd 1

/-- MATRIX_COMMAND_FINISH (R154, R167). A poisoned command changes nothing and its record waits to be written. -/
def matrixFinish (s : State) (cid m : Nat) : State :=
  match s.mcmd cid m with
  | none => s
  | some x =>
    if x.started && s.matrixDone cid x && !(s.core cid).dead && !(s.core cid).saved then
      let (bytes, pois) := s.sourceOf cid x
      let t := (s.sourceSeen cid x).dropMcmd cid m
      if pois then t.faultFor x.from_ x.cmd 0x21
      else (t.matrixEffect cid x bytes).matrixComplete cid x
    else s

/-- MDRAIN_ROW (R164): one row is converted and written, which clears the poison of each aligned word that the row covers whole (R365);
it is cleared under .clr, and under .row signalled; the last row's signal is the command's completion. -/
def mdrainRow (s : State) (cid m : Nat) : State :=
  match s.mcmd cid m with
  | none => s
  | some x =>
    match x.op with
    | .mdrain t addr fmt rm row0 n row clr mode =>
      if x.started && decide (x.rows < n) && !(s.core cid).dead then
        let c := s.core cid
        let sz := drainSize fmt
        let r := row0 + x.rows
        let s1 := s.noted (matWriter x x.rows) (coreKey cid (addr + x.rows * 16 * sz)) (16 * sz) ((List.range 16).foldl (fun (u : State) j =>
          u.writeN (coreKey cid (addr + x.rows * 16 * sz + j * sz)) sz (drainWord mode fmt rm (entry c t r j) % 2 ^ (8 * sz))) s)
        let s1 := s1.clearWritten [(8 * coreKey cid (addr + x.rows * 16 * sz), 8 * (16 * sz))]
        let s2 := if clr then s1.modCore cid (fun c => { c with tiles := c.tiles.filter (fun e => e.1 / 16 != 16 * t + r) }) else s1
        let s3 := s2.modMcmd cid m (fun y => { y with rows := y.rows + 1 })
        match x.ret.slot with
        | some ref => if row && decide (x.rows + 1 < n) then
            (s3.bindTo (.cover s3.seq) (fun e => byMcmd x e && e.tag == x.rows)).sendSignal (.core cid) x.from_ (rowRef ref x.rows) 1 x.ret.bytes 1 else s3
        | none => s3
      else s
    | _ => s

/-- MROT_TILE_LANDS (R162): the oldest tile for a landing buffer that is empty enters it, and the sender's mrot may finish. -/
def mrotLands (s : State) (k : Nat) : State :=
  match s.packet k with
  | none => s
  | some p =>
    match p.body, p.dst, p.src with
    | .tile l bytes scales m, .core rc, .core sc =>
      let older := s.net.any (fun y => decide (y.1 < k) && y.2.dst == .core rc && (match y.2.body with | .tile l' _ _ _ => l' == l | _ => false))
      if ((s.core rc).landing.get none l).isNone && !older && !(s.core rc).dead && !(s.core rc).saved then
        let x : Landing := { bytes := bytes, scales := scales, cmd := p.cmd, from_ := p.from_, ret := p.ret }
        ((s.dropPacket k).modCore rc (fun c => { c with landing := c.landing.set l (some x) })).modMcmd sc m
          (fun y => { y with landed := true })
      else s
    | _, _, _ => s

end State

/-- mfmt (R158). -/
def execMfmt (f : WForm) (s : State) : Out := issue 8 f.guard s (State.mfmtOp f)
/-- mscl, W form (R159). -/
def execMscl (f : WForm) (s : State) : Out := issue 8 f.guard s (State.msclOp f f.imm)
/-- mscl, X form (R159). -/
def execMsclX (f : XForm) (s : State) : Out := issue 12 f.guard s (State.msclOp f.toW f.imm)
/-- mlb, W form (R160). -/
def execMlb (f : WForm) (s : State) : Out := issue 8 f.guard s (State.mlbOp f f.imm)
/-- mlb, X form (R160). -/
def execMlbX (f : XForm) (s : State) : Out := issue 12 f.guard s (State.mlbOp f.toW f.imm)
/-- mma, W form (R161). -/
def execMma (f : WForm) (s : State) : Out := issue 8 f.guard s (State.mmaOp f f.imm)
/-- mma, X form (R161). -/
def execMmaX (f : XForm) (s : State) : Out := issue 12 f.guard s (State.mmaOp f.toW f.imm)
/-- mrot (R162). -/
def execMrot (f : WForm) (s : State) : Out := issue 8 f.guard s (State.mrotOp f)
/-- mzero (R163). -/
def execMzero (f : WForm) (s : State) : Out := issue 8 f.guard s (State.mzeroOp f)
/-- mdrain (R164). -/
def execMdrain (f : WForm) (s : State) : Out := issue 8 f.guard s (State.mdrainOp f)
/-- mrow (R166). -/
def execMrow (f : WForm) (s : State) : Out := issue 8 f.guard s (State.mrowOp f)
/-- MATRIX_COMMAND_START (R154). -/
def execMatrixCommandStart (cid m : Nat) (s : State) : Out := .next (s.matrixStart cid m)
/-- MATRIX_COMMAND_FINISH (R154). -/
def execMatrixCommandFinish (cid m : Nat) (s : State) : Out := .next (s.matrixFinish cid m)
/-- MDRAIN_ROW (R164). -/
def execMdrainRow (cid m : Nat) (s : State) : Out := .next (s.mdrainRow cid m)
/-- MROT_TILE_LANDS (R162). -/
def execMrotTileLands (pkt : Nat) (s : State) : Out := .next (s.mrotLands pkt)
/-- LANDING_MOVE (R162). -/
def execLandingMove (cid latch : Nat) (s : State) : Out := .next (s.landingMove cid latch)

end Sys2Proof.Machine
end

