-- ==== Sys2Proof/Machine/Tensor.lean ====
section
/-! DEFINITION. Tensors, tile layout, tile tables and leases (R211 to R214, R304 to R311), and the elements of a walk (R215,
R230, R234). -/

namespace Sys2Proof.Machine

/-- The bits of an element of a tensor format (R211, R305). -/
def elemBits (fmt : Nat) : Nat := [8, 16, 32, 64, 32, 16, 8, 16, 32, 8, 8, 6, 6, 4, 256].getD fmt 8
/-- The bytes of an element in a scratchpad; a sub-byte format is addressed by the byte (R232). -/
def elemBytes (fmt : Nat) : Nat := max 1 (elemBits fmt / 8)

/-- A tensor as its descriptor gives it (R305): format, extents d0 to d4 and shape t0 to t4. -/
structure Tens where
  fmt : Nat
  d : List Nat
  t : List Nat
  root : Nat
  nroot : Nat
deriving DecidableEq, Repr, Inhabited

/-- The smallest power of two from p, by doubling, that is at least n. -/
def pow2AtLeast (n : Nat) : Nat → Nat → Nat
  | 0, p => p
  | k + 1, p => if n ≤ p then p else pow2AtLeast n k (2 * p)
/-- P of R213: the largest power of two with P × bits at most 2^19. -/
def pageElems (fmt : Nat) : Nat :=
  match elemBits fmt with
  | 4 => 131072
  | 6 => 65536
  | 8 => 65536
  | 16 => 32768
  | 32 => 16384
  | 64 => 8192
  | _ => 2048
/-- The default shape of R214, from dimension 0 outward; left is P over the product so far. -/
def defaultShape : List Nat → Nat → List Nat
  | [], _ => []
  | d :: t, left => let x := min (pow2AtLeast d 33 1) left; x :: defaultShape t (left / x)

/-- A tensor descriptor decoded (R305). -/
def tensOf (w : List Word) : Tens :=
  let w0 := (w.getD 0 0).toNat
  let w1 := (w.getD 1 0).toNat
  let w2 := (w.getD 2 0).toNat
  let w3 := (w.getD 3 0).toNat
  let fmt := bits w0 16 4
  let d := [bits w1 0 32 + 1, bits w1 32 32 + 1, bits w2 0 32 + 1, bits w2 32 32 + 1, bits w3 0 32 + 1]
  { fmt := fmt, d := d
    t := if bits w0 21 1 = 1 then (List.range 5).map (fun k => 2 ^ bits w0 (32 + 5 * k) 5) else defaultShape d (pageElems fmt)
    root := bits (w.getD 4 0).toNat 0 40, nroot := bits (w.getD 5 0).toNat 0 13 }

/-- Ceiling division. -/
def cdiv (a b : Nat) : Nat := (a + b - 1) / b
/-- The tiles of a tensor (R307). -/
def tileCount (x : Tens) : Nat := ((List.range 5).map (fun k => cdiv (x.d.getD k 1) (x.t.getD k 1))).prod
/-- tile_of (R213) on coordinates c0 to c4: the tile and the element within its page. -/
def tileOf (x : Tens) (c : List Nat) : Nat × Nat :=
  [4, 3, 2, 1, 0].foldl (fun (r : Nat × Nat) k =>
    let t := x.t.getD k 1
    let v := c.getD k 0
    (r.1 * cdiv (x.d.getD k 1) t + v / t, r.2 * t + v % t)) (0, 0)

/-- R307: a descriptor is valid. -/
def descValid (w : List Word) (rootIn : Bool) : Bool :=
  let w0 := (w.getD 0 0).toNat
  let x := tensOf w
  bits w0 20 1 == 1 && x.fmt != 15 && bits w0 22 10 == 0 && bits w0 57 7 == 0 && bits (w.getD 3 0).toNat 32 32 == 0 &&
    bits (w.getD 4 0).toNat 40 24 == 0 && bits (w.getD 5 0).toNat 13 51 == 0 && w.getD 6 0 == 0 && w.getD 7 0 == 0 && rootIn &&
    (bits w0 21 1 == 0 || decide (x.t.prod ≤ pageElems x.fmt)) && decide (tileCount x ≤ x.nroot * 4096)

namespace State

/-- R304: a device-memory address is within a partition. -/
def hbmIn (s : State) (p addr : Nat) : Bool :=
  decide (addr < 2 ^ 40) && (s.shares p).any (fun x => x.1 == addr / 2 ^ 36 && (x.2 == 4 || x.2 == addr % 2 ^ 36 / 2 ^ 34))
/-- A tensor descriptor of a partition; its field tid reads as its index (R305). -/
def descOf (s : State) (p tid : Nat) : List Word :=
  match (s.part p).descs.get [] tid with
  | [] => []
  | w :: t => BitVec.ofNat 64 (setBits w.toNat 0 16 tid) :: t

/-- R308: a translation by entries whose words are already read: the page's device-memory address and its repl bit; none is code
0x22. -/
def pageOf (s : State) (p : Nat) (e : Word) : Option (Nat × Bool) :=
  let v := e.toNat
  let a := bits v 16 4 * 2 ^ 36 + bits v 20 20 * 2 ^ 16
  if bits v 0 1 = 1 ∧ bits v 3 13 = 0 ∧ bits v 40 24 = 0 ∧ s.hbmIn p a then some (a, bits v 1 1 == 1) else none

/-- The device-memory address of the root entry of a tile; none beyond the root table (R306). -/
def rootAddr (x : Tens) (tile : Nat) : Option Nat := if x.nroot ≤ tile / 4096 then none else some (x.root + 8 * (tile / 4096))
/-- The device-memory address of the page entry of a tile under the word of its root entry; none is code 0x22 (R306, R308). -/
def leafAddr (s : State) (p : Nat) (w : Word) (tile : Nat) : Option Nat :=
  let r := w.toNat
  let leaf := bits r 15 25 * 2 ^ 15
  if bits r 0 1 = 1 ∧ bits r 1 14 = 0 ∧ bits r 40 24 = 0 ∧ s.hbmIn p leaf then some (leaf + 8 * (tile % 4096)) else none
/-- The device-memory address of the page entry of a tile, through its root entry in memory (R306, R308). -/
def pageEntryAddr (s : State) (p : Nat) (x : Tens) (tile : Nat) : Option Nat :=
  match rootAddr x tile with
  | none => none
  | some a => s.leafAddr p (s.readW (hbmKey a)) tile

/-- A tile is mapped and meets R308. -/
def tileMapped (s : State) (p : Nat) (x : Tens) (tile : Nat) : Bool :=
  match s.pageEntryAddr p x tile with
  | none => false
  | some a => (s.pageOf p (s.readW (hbmKey a))).isSome

/-- The leases of an instance's graph (R311). -/
def leasesOf (s : State) (inst : Nat) : List Lease := match s.graphOf inst with | some g => g.leases | none => []
/-- R311: some lease of the instance covers a tile, with write access where asked. -/
def leased (s : State) (inst tid tile : Nat) (write : Bool) : Bool :=
  (s.leasesOf inst).any (fun l => l.tid == tid && decide (l.first ≤ tile) && decide (tile < l.first + l.count) && (l.rw || !write))
/-- The pins of the page entry of a tile: one for each lease that covers it of each live instance of the partition, held from the
instance's start until it ends (R310, R311). -/
def pins (s : State) (p tid tile : Nat) : Nat :=
  ((s.insts.filter (fun x => x.2.part == p && x.2.state == 1)).map (fun x =>
    ((s.leasesOf x.1).filter (fun l => l.tid == tid && decide (l.first ≤ tile) && decide (tile < l.first + l.count))).length)).sum
/-- The words that a root or page entry of a partition has: the one that stands there, and those that software has written over while it was
pinned (R310). -/
def versions (s : State) (p a : Nat) (cur : Word) : List Word := cur :: ((s.part p).olds.filter (fun x => x.1 == a)).map (·.2)
/-- The entry at a device-memory address is pinned: the page entry of a tile that a lease of a live instance covers, or the root entry above
one (R310). -/
def pinnedAt (s : State) (p a : Nat) : Bool :=
  s.insts.any (fun x => x.2.part == p && x.2.state == 1 && (s.leasesOf x.1).any (fun l =>
    let root := (tensOf (s.descOf p l.tid)).root
    (List.range ((l.first + l.count + 4095) / 4096 - l.first / 4096)).any (fun i =>
      let r := l.first / 4096 + i
      let ra := root + 8 * r
      a == ra || (s.versions p ra (s.readW (hbmKey ra))).any (fun v =>
        let leaf := bits v.toNat 15 25 * 2 ^ 15
        let tile := r * 4096 + (a - leaf) / 8
        a % 8 == 0 && decide (leaf ≤ a) && decide (a < leaf + 2 ^ 15) && decide (l.first ≤ tile) && decide (tile < l.first + l.count)))))
/-- Software writes a range of device memory: each pinned entry that it meets keeps its earlier word beside the new one (R310). -/
def keepOlds (s : State) (a len : Nat) : State :=
  ((List.range ((a + len + 7) / 8 - a / 8)).map (fun i => (a / 8 + i) * 8)).foldl (fun t j =>
    s.parts.foldl (fun u x => if s.pinnedAt x.1 j then u.modPart x.1 (fun q => { q with olds := q.olds ++ [(j, s.readW (hbmKey j))] }) else u) t) s
/-- The walkers keep only the pinned entries: an entry that no live lease covers any more leaves every cache, so that its next
translation reads it anew, and its earlier words are gone (R310). -/
def unpin (s : State) : State :=
  { s with
    dies := s.dies.map (fun x => (x.1, { x.2 with cache := x.2.cache.filter (fun y => decide (0 < s.pins y.part y.tid y.tile)) }))
    parts := s.parts.map (fun x => (x.1, { x.2 with olds := x.2.olds.filter (fun y => s.pinnedAt x.1 y.1) })) }

end State

/-! ### The elements of a walk -/

/-- The counts of the levels, innermost first. -/
def Level.counts (l : List Level) : List Nat := l.map (·.n)
/-- The indices i0, i1, … of element number e of a nest (R215). -/
def nestIdx : List Nat → Nat → List Nat
  | [], _ => []
  | n :: t, e => e % n :: nestIdx t (e / n)

/-- A walk's levels have this many elements in all. -/
def walkElems (w : Walk) : Nat := (w.levels.map (·.n)).prod
/-- The numbers that multiply the tensor steps: the indices, or the index registers' values for rows of twg and tws (R234). -/
def stepIdx (w : Walk) (i : List Nat) : List Nat :=
  if w.kind = 3 ∨ w.kind = 4 then [i.getD 0 0, w.idx.getD (i.getD 1 0) 0] else i
/-- The tensor coordinates of element e (R215), exactly. -/
def coordsOf (w : Walk) (e : Nat) : List Int :=
  let i := stepIdx w (nestIdx (w.levels.map (·.n)) e)
  (List.range 5).map (fun k =>
    (w.origin.getD k 0 : Int) + ((List.range 5).map (fun j => ((i.getD j 0 : Nat) : Int) * ((w.levels.getD j default).steps.getD k 0))).sum)
/-- The offset of element e from the walk's base (R215), exactly; in a sub-byte format that of its run (R232). -/
def strideOf (w : Walk) (e : Nat) : Int :=
  let i := nestIdx (w.levels.map (·.n)) e
  ((List.range 5).map (fun j => ((i.getD j 0 : Nat) : Int) * (w.levels.getD j default).stride)).sum

/-- The targets of a walk: the cores of a twmc's shape in row-major order, else the one place of its base. -/
def walkTargets (w : Walk) : Nat := if w.kind = 2 then w.width * w.height else 1
/-- The core of target t of a twmc. -/
def targetCore (w : Walk) (t : Nat) : Nat := bits w.base 58 4 * 25600 + bits w.base 43 15 + t / w.width * 160 + t % w.width

/-- A level's least and greatest contribution i × s for i from 0 to n - 1. -/
def spanOf (n : Nat) (s : Int) : Int × Int := (min 0 (((n : Int) - 1) * s), max 0 (((n : Int) - 1) * s))

/-- The least and greatest value of coordinate k over the whole walk; rows of twg and tws go through their index registers. -/
def coordRange (w : Walk) (k : Nat) : Int × Int :=
  let o : Int := w.origin.getD k 0
  let l0 := w.levels.getD 0 default
  if w.kind = 3 ∨ w.kind = 4 then
    let s1 := (w.levels.getD 1 default).steps.getD k 0
    let rows := w.idx.map (fun (x : Nat) => (x : Int) * s1)
    let a := spanOf l0.n (l0.steps.getD k 0)
    (o + a.1 + rows.foldl min (rows.headD 0), o + a.2 + rows.foldl max (rows.headD 0))
  else
    let sp := w.levels.map (fun l => spanOf l.n (l.steps.getD k 0))
    (o + (sp.map (·.1)).sum, o + (sp.map (·.2)).sum)
/-- The least and greatest offset from the base over the whole walk. -/
def strideRange (w : Walk) : Int × Int :=
  let sp := w.levels.map (fun l => spanOf l.n l.stride)
  ((sp.map (·.1)).sum, (sp.map (·.2)).sum)

/-- A sub-byte tensor format (R232). -/
def subByte (fmt : Nat) : Bool := decide (elemBits fmt < 8)

/-- The scratchpad bytes that one element takes: its bytes, or an FP32 word for twq (R237). -/
def spadBytes (w : Walk) (fmt : Nat) : Nat := if w.kind = 5 then 4 else elemBytes fmt

/-- The bits that one element takes in the scratchpad. -/
def spadBits (w : Walk) (fmt : Nat) : Nat := if w.kind = 5 then 32 else elemBits fmt
/-- The bit of element e from the scratchpad byte that its offset names: in a sub-byte format its place in its run (R232). -/
def spadBit (w : Walk) (fmt e : Nat) : Nat := if w.kind != 5 && subByte fmt then e % (w.levels.getD 0 default).n * elemBits fmt else 0
/-- The bytes that n bits from a bit offset touch. -/
def spanOfBits (off n : Nat) : Nat := (off % 8 + n + 7) / 8

/-- The bytes that a level-0 run of n elements takes (R232). -/
def runBytes (w : Walk) (fmt n : Nat) : Nat := if w.kind != 5 && subByte fmt then (n * elemBits fmt + 7) / 8 else n * spadBytes w fmt

end Sys2Proof.Machine
end

