-- ==== Sys2Proof/Machine/Walks.lean ====
section
/-! DEFINITION. The tile-walk commands of major 0x34 at issue, and the engines, walkers and copies that carry them out (R230 to
R240, R308 to R312, R355). -/

namespace Sys2Proof.Machine

/-- A 32-bit field of a descriptor read as signed. -/
def sg32 (v : Nat) : Int := sgN 32 (v % 2 ^ 32)

namespace State

/-- n bytes of a descriptor as the pipeline of the issuing core reads them (R246). -/
def descN (s : State) (k n : Nat) : Nat := s.seenN s.pipeReader k n

/-- The level record j of the descriptor at a key (R230). -/
def levelAt (s : State) (k j : Nat) : Level :=
  let b := k + 32 + 40 * j
  { n := s.descN b 4, stride := sg32 (s.descN (b + 4) 4), steps := (List.range 5).map (fun i => sg32 (s.descN (b + 8 + 4 * i) 4))
    sig := s.descN (b + 28) 4 % 2 == 1, sref := s.descN (b + 32) 8 }

/-- A reserved field of the descriptor is nonzero, or a count is 0 (R232). -/
def descBad (s : State) (k : Nat) : Bool :=
  s.descN k 8 / 2 ^ 36 != 0 || s.descN (k + 28) 4 != 0 || s.descN (k + 232) 24 != 0 ||
    (List.range 5).any (fun j => s.descN (k + 32 + 40 * j + 28) 4 / 2 != 0 || s.descN (k + 32 + 40 * j) 4 == 0)

/-- A tensor id is declared by the graph of an instance. -/
def declared (s : State) (inst tid : Nat) : Bool := match s.graphOf inst with | some g => g.tensors.contains tid | none => false

/-- Some byte of element e meets words 0 to 9 of a carve-out frame of a core. -/
def elemHits (s : State) (cid off0 : Nat) (w : Walk) (fmt e : Nat) : Bool :=
  let off := ((off0 : Int) + strideOf w e).toNat
  s.hitsSlots cid (off + spadBit w fmt e / 8) (spanOfBits (spadBit w fmt e) (spadBits w fmt))

/-- R232, R237: the checks of a walk over all its elements, in the order of the rule; kinds 0, 2 and 3 write the scratchpad. The source of
a twq is held to the 4 bytes of the FP32 values that it reads (log entry 22). The coordinates of its scale bytes must lie in the extents of
the companion (R211). A qfmt that is no MX format or not the tensor's is code 0x22, checked last (DESIGN CHOICE, log entry 67). -/
def walkCheck (s : State) (k : Nat) (w : Walk) (loc : Loc) (off0 size : Nat) : Except Code Unit := do
  need (!(s.descBad k)) 0x22
  need (s.declared w.from_.inst w.tid && (w.kind != 5 || s.declared w.from_.inst w.stid)) 0x22
  need (w.kind == 5 || (w.stid == 0 && w.qfmt == 0)) 0x22
  let x := tensOf (s.descOf w.from_.part w.tid)
  need ((List.range 5).all (fun c => decide (0 ≤ (coordRange w c).1) && decide ((coordRange w c).2 < (x.d.getD c 1 : Int)))) 0x22
  let y := tensOf (s.descOf w.from_.part w.stid)
  need (w.kind != 5 || (List.range 5).all (fun c =>
    decide ((if c = 0 then (coordRange w 0).2 / 32 else (coordRange w c).2) < (y.d.getD c 1 : Int)))) 0x22
  let fmt := x.fmt
  let z := spadBytes w fmt
  need (decide (off0 % z = 0) && w.levels.all (fun l => l.n == 1 || l.stride.emod z == 0)) 0x03
  let n0 := (w.levels.getD 0 default).n
  let last : Int := if w.kind != 5 && subByte fmt then (runBytes w fmt n0 : Int) else (z : Int)
  let r := strideRange w
  need (decide (0 ≤ (off0 : Int) + r.1) && decide ((off0 : Int) + r.2 + last ≤ (size : Int))) 0x04
  let writes := w.kind == 0 || w.kind == 2 || w.kind == 3
  need (match loc with
    | .core c => !writes || decide ((off0 : Int) + r.2 + last ≤ (s.carveBase c : Int)) ||
        !((List.range (walkElems w)).any (s.elemHits c off0 w fmt))
    | _ => true) 0x04
  need (!(s.poisoned k 256)) 0x21
  need (w.levels.all (fun l => !l.sig || (if w.kind = 2 then
      decide (l.sref < 2 ^ 35) && decide (frefName l.sref < 4096) && decide (frefName l.sref < s.frames w.from_.part)
    else s.srefOk w.from_.part l.sref))) 0x12
  let l0 := w.levels.getD 0 default
  let unit := l0.steps.getD 0 0 == 1 && (List.range 4).all (fun i => l0.steps.getD (i + 1) 0 == 0)
  let o0 := w.origin.getD 0 0
  let g := if elemBits fmt = 6 then 4 else 2
  need (w.kind == 5 || !(subByte fmt) || (unit && l0.stride == 0 && decide (o0 % g = 0) &&
    (decide (n0 % g = 0) || o0 + n0 == x.d.getD 0 1))) 0x22
  need ((w.kind != 3 && w.kind != 4) || ((w.levels.getD 1 default).n == w.idx.length &&
    (List.range 3).all (fun j => (w.levels.getD (j + 2) default).n == 1))) 0x22
  need (w.kind != 5 || (decide (9 ≤ w.qfmt ∧ w.qfmt ≤ 13) && w.qfmt == fmt && unit && decide (o0 % 32 = 0) &&
    (decide (n0 % 32 = 0) || o0 + n0 == x.d.getD 0 1))) 0x22

/-- The command that an instruction of major 0x34 names: the descriptor at A, the base in B, and for twmc the rectangle in D (R230,
R231, R236). -/
def walkOf (s : State) (kind : Nat) (f : WForm) (a b d : Word) (slot : Option Nat) : Walk :=
  let k := coreKey s.cur.1 a.toNat
  let h := s.descN k 8
  { kind := kind, tid := bits h 0 16, stid := bits h 16 16, qfmt := bits h 32 4
    origin := (List.range 5).map (fun i => s.descN (k + 8 + 4 * i) 4), levels := (List.range 5).map (s.levelAt k), base := b.toNat
    idx := if kind = 3 ∨ kind = 4 then (List.range (f.ow + 1)).map (fun i => (s.ctx.s.get 0 (f.d.toNat + i)).toNat) else []
    width := bits d.toNat 0 16, height := bits d.toNat 16 16, ret := { ow := 0, slot := slot, bytes := 0 }, from_ := s.issuer
    cmd := s.seq, ord := f.ord.toNat, fences := s.ctx.fences, gen := s.mgmt.gen, engine := 4, trans := [], going := [], moved := []
    scaled := [], buf := [], tabs := [], sent := [], copies := 0, finals := 0, stop := false }
/-- The size of the level that a place lies in. -/
def levelSize (s : State) (l : Loc) : Nat := match l with | .core _ => 2 ^ 17 | .cluster _ => 2 ^ 22 | _ => s.dieSize s.myPart (locDie l)
/-- The checks of twmc beside those of every walk (R234, R236), which the manual gives no place among the steps of R232; they come first
(log entry 56). -/
def multicastOk (s : State) (w : Walk) (d : Word) (l : Loc) (slot : Option Nat) : Except Code Unit := do
  need (decide (d.toNat < 2 ^ 32)) 0x22
  need (match l with
    | .core cid => decide (1 ≤ w.width ∧ 1 ≤ w.height ∧ localX cid + w.width ≤ 160 ∧ localY cid + w.height ≤ 160) &&
        (List.range (w.width * w.height)).all (fun t => s.coreIn s.myPart (targetCore w t))
    | _ => false) 0x04
  need (match slot with | some r => decide (frefName r < 4096) | none => true) 0x12
/-- A walk enters the queue of its cluster (R233). -/
def queueWalk (s : State) (kind : Nat) (w : Walk) : State :=
  let (s4, id) := s.newCmd 0x34 kind
  ({ s4 with walks := s4.walks.set s4.seq { w with cmd := id }, seq := s4.seq + 1 }).modCluster (clidOf s.cur.1)
    (fun q => { q with walkq := q.walkq ++ [s4.seq] })

/-- A tile-walk command at issue (R217, R231, R232, R234, R236). Ports pop in the order a, b, c, d. -/
def walkIssue (kind : Nat) (f : WForm) (s0 : State) : Except Code State := do
  let (a, s1) ← s0.readS f.a
  let (b, s2) ← s1.readS f.b
  let (c, s3) ← s2.readS f.c
  let (d, s) ← if kind = 2 then s3.readS f.d else pure (0, s3)
  let slot ← s.compSlot f.c c
  let pl ← s.remoteCheck b 1
  need (decide (a.toNat % 64 = 0)) 0x03
  need (decide (a.toNat + 256 ≤ 0x20000)) 0x04
  let w := s.walkOf kind f a b d slot
  if kind = 2 then s.multicastOk w d pl.1 slot else pure ()
  s.walkCheck (coreKey s.cur.1 a.toNat) w pl.1 pl.2.2 (s.levelSize pl.1)
  pure ((s.saw s.pipeReader (coreKey s.cur.1 a.toNat) 256).queueWalk kind w)

/-- twcan at issue (R217, R231, R239): a names the slot, or s0 for the commands that name none; it skips the async check. -/
def twcan (f : WForm) (s0 : State) : Except Code State := do
  let (a, s1) ← s0.readS f.a
  let (c, s) ← s1.readS f.c
  let tgt ← s.compSlot f.a a
  let slot ← s.compSlot f.c c
  pure (s.send { s.notice (.twcan (tgt.getD (2 ^ 64))) (.cluster (clidOf s.cur.1)) s.ctx.fref with
    ret := { ow := f.ow, slot := slot, bytes := 8 } })

/-! ### Start, order and engines (R233, R240) -/

/-- A walk by its number. -/
def walk (s : State) (n : Nat) : Option Walk := (s.walks.find? (fun x => x.1 == n)).map (·.2)
/-- A walk replaced. -/
def setWalk (s : State) (n : Nat) (w : Walk) : State := { s with walks := s.walks.set n w }
/-- The key of the base of a walk for a target. -/
def baseKey (s : State) (w : Walk) (t : Nat) : Nat :=
  if w.kind = 2 then coreKey (targetCore w t) (bits w.base 0 43)
  else match s.placeOf w.from_.part w.base 1 with | some x => x.2.1 | none => 0
/-- The scratchpad key of element e for a target: in a sub-byte format that of its run. -/
def spadKey (s : State) (w : Walk) (t e : Nat) : Nat := ((s.baseKey w t : Int) + strideOf w e).toNat
/-- The scratchpad unit of element e for a target. -/
def spadLoc (s : State) (w : Walk) (t e : Nat) : Option Loc :=
  if w.kind = 2 then some (.core (targetCore w t)) else (s.placeOf w.from_.part ((w.base : Int) + strideOf w e).toNat 1).map (·.1)
/-- The tensor of a walk. -/
def walkTens (s : State) (w : Walk) : Tens := tensOf (s.descOf w.from_.part w.tid)
/-- The companion of a twq. -/
def scaleTens (s : State) (w : Walk) : Tens := tensOf (s.descOf w.from_.part w.stid)
/-- The coordinates of element e, which R232 has put within the extents. -/
def walkCoords (w : Walk) (e : Nat) : List Nat := (coordsOf w e).map Int.toNat
/-- The coordinates of the companion's element for element e of a twq (R212, R237). -/
def scaleCoords (w : Walk) (e : Nat) : List Nat := match walkCoords w e with | [] => [] | c :: t => c / 32 :: t

/-- The bytes of element e in the scratchpad for a target: first key and count. -/
def spadSpan (s : State) (w : Walk) (t e : Nat) : Nat × Nat :=
  let fmt := (s.walkTens w).fmt
  (s.spadKey w t e + spadBit w fmt e / 8, spanOfBits (spadBit w fmt e) (spadBits w fmt))
/-- The bytes that element e touches in tensors: tensor, tile, first byte within the page and count; a twq's scale byte is one too. -/
def tensSpans (s : State) (w : Walk) (e : Nat) : List (Nat × Nat × Nat × Nat) :=
  let x := s.walkTens w
  let nb := elemBits x.fmt
  let a := tileOf x (walkCoords w e)
  let c := tileOf (s.scaleTens w) (scaleCoords w e)
  (w.tid, a.1, a.2 * nb / 8, spanOfBits (a.2 * nb) nb) :: (if w.kind = 5 then [(w.stid, c.1, c.2, 1)] else [])

/-- Two walks of one firing touch common bytes of the scratchpad or of a tensor, a companion among them (R240). -/
def walksOverlap (s : State) (v w : Walk) : Bool :=
  (List.range (walkElems v)).any (fun i => (List.range (walkElems w)).any (fun j =>
    (s.tensSpans v i).any (fun a => (s.tensSpans w j).any (fun b =>
      a.1 == b.1 && a.2.1 == b.2.1 && overlaps a.2.2.1 a.2.2.2 b.2.2.1 b.2.2.2)) ||
    (List.range (walkTargets v)).any (fun a => (List.range (walkTargets w)).any (fun b =>
      overlaps (s.spadSpan v a i).1 (s.spadSpan v a i).2 (s.spadSpan w b j).1 (s.spadSpan w b j).2))))

/-- R240: an earlier unfinished walk of the same firing shares the class or bytes. -/
def walkBlocked (s : State) (n : Nat) (w : Walk) : Bool :=
  s.walks.any (fun x => decide (x.1 < n) && x.2.from_.fid == w.from_.fid && (x.2.ord == w.ord || s.walksOverlap x.2 w))

/-- A command may start: it is held by no fence and not by R240. -/
def walkMayStart (s : State) (n : Nat) : Bool := match s.walk n with | some w => w.fences.isEmpty && !(s.walkBlocked n w) | none => false

/-- The lowest-numbered free engine of a cluster. -/
def freeEngine (s : State) (clid : Nat) : Option Nat :=
  (List.range 4).find? (fun e => !(s.walks.any (fun x => x.2.engine == e && clidOf x.2.from_.cid == clid)))

/-- WALK_START: the first command of the queue that may start goes to the lowest-numbered free engine (R233). -/
def walkStart (s : State) (clid n : Nat) : State :=
  match (s.cluster clid).walkq.find? s.walkMayStart, s.freeEngine clid, s.walk n with
  | some m, some e, some w =>
    if m = n then (s.setWalk n { w with engine := e }).modCluster clid (fun q => { q with walkq := q.walkq.filter (· != n) }) else s
  | _, _, _ => s

/-! ### Progress and faults (R238) -/

end State

/-- The first element of the block of a twq that element e lies in, and the elements of the block (R237). -/
def blockOf (w : Walk) (e : Nat) : Nat × List Nat :=
  let n0 := (w.levels.getD 0 default).n
  let i0 := e % n0 / 32 * 32
  let e0 := e - e % n0 + i0
  (e0, (List.range (min 32 (n0 - i0))).map (e0 + ·))

/-- The moves of a walk that are wholly performed: those of a twq with the scale of their block (R237, R238). -/
def performed (w : Walk) : List Nat := w.moved.filter (fun m => w.kind != 5 || w.scaled.contains (blockOf w m).1)

/-- The longest prefix of elements of a target that are all performed: their numbers rise, so the prefix ends at the first gap. -/
def prefixFrom (base : Nat) : List Nat → Nat → Nat
  | [], n => n
  | m :: t, n => if m = base + n then prefixFrom base t (n + 1) else if m < base + n then prefixFrom base t n else n

/-- The prefix of a target, at most the elements of the walk. -/
def walkPrefix (w : Walk) (t : Nat) : Nat := min (walkElems w) (prefixFrom (t * walkElems w) (performed w) 0)
/-- The progress of a command entry: the least prefix over the targets (R362). -/
def walkProgress (w : Walk) : Nat :=
  ((List.range (walkTargets w)).map (walkPrefix w)).foldl min (walkElems w)
/-- The prefixes of a twmc for its extension records (R362). -/
def walkExt (w : Walk) : List Nat := if w.kind = 2 then (List.range (walkTargets w)).map (walkPrefix w) else []

namespace State

/-- A walk is gone from its engine and its queue. -/
def dropWalk (s : State) (n : Nat) (w : Walk) : State :=
  ({ s with walks := s.walks.erase n }).modCluster (clidOf w.from_.cid) (fun q => { q with walkq := q.walkq.filter (· != n) })

/-- WALK_FAULT: the command stops with its prefix and sends no final signal (R238). -/
def walkFault (s : State) (n : Nat) (w : Walk) (code : Code) : State :=
  (s.dropWalk n w).failCmd w.cmd code (walkProgress w) (walkExt w)

/-! ### Translation (R309, R310) -/

/-- The tensor and tile that a tile number of a walk means: 2^24 and above are tiles of a twq's companion. -/
def tileTens (s : State) (w : Walk) (tile : Nat) : Nat × Tens × Nat :=
  if tile < 2 ^ 24 then (w.tid, s.walkTens w, tile) else (w.stid, s.scaleTens w, tile - 2 ^ 24)

/-- The kinds that write their tensor (R235). -/
def writesTensor (w : Walk) : Bool := w.kind == 1 || w.kind == 4 || w.kind == 5

/-- Some element of a walk lies in a tile. -/
def walkTouches (s : State) (w : Walk) (tile : Nat) : Bool :=
  let (_, x, n) := s.tileTens w tile
  (List.range (walkElems w)).any (fun e => (tileOf x (if tile < 2 ^ 24 then walkCoords w e else scaleCoords w e)).1 == n) &&
    (decide (tile < 2 ^ 24) || w.kind == 5)

/-- The HBM4 port of a device-memory address on its die: a group of two channels (R330). A walk's translation counts at the port of the page
entry's own address (DESIGN CHOICE, log entry 25). -/
def portOf (a : Nat) : Nat := a / 2 ^ 16 % 32 / 2

/-- A packet between a walker and a table entry on another die. -/
def isTable (p : Packet) (n : Nat) : Bool :=
  match p.body, p.src, p.dst with
  | .tableRead m _, .core _, _ => m == n
  | .tableWord m _ _, _, .core _ => m == n
  | .pageAsk m _, .core _, _ => m == n
  | _, _, _ => false

/-- The table entries that the walker of a port of a die awaits from other dies: its translations in flight (R309). The port is that of the
entry's own address, and the walker one of the walk's die, also for an entry of another die (DESIGN CHOICE, log entry 25). -/
def inFlight (s : State) (die port : Nat) : Nat :=
  (s.net.filter (fun x => match x.2.body with
    | .tableRead n a => isTable x.2 n && dieOf x.2.from_.cid == die && portOf a == port
    | .tableWord n a _ => isTable x.2 n && dieOf x.2.from_.cid == die && portOf a == port
    | _ => false)).length

/-- A table packet has reached its end; one that reads an entry is served by its channel (R344). -/
def tableReady (s : State) (p : Packet) : Bool :=
  p.pos == .ready && (match p.body with | .tableRead .. => s.channelFor p | _ => true)
/-- A page is being migrated: writes to its bytes wait, from mig = 1 until its entry is written (R314, R315). -/
def migrating (s : State) (a n : Nat) : Bool :=
  s.parts.any (fun x => x.2.mig.state == 1 && x.2.mig.held && overlaps x.2.mig.src 65536 a n)

/-- Walk n as a reader (R241, R246). -/
def walkReader (n : Nat) (w : Walk) : Reader := { fid := w.from_.fid, by_ := 2, num := n }
/-- The launch agent of a pending launch as a reader, for the launch (R292). -/
def launchReader (k : Nat) : Reader := { fid := 0, by_ := 4, num := 0, also := some (.inst k) }
/-- Who reads a table entry for a packet: a walk, or the launch agent of a pending launch. -/
def tableReader (s : State) (n : Nat) (p : Packet) : Reader :=
  match p.src, s.walks.find? (fun x => x.1 == n) with
  | .core _, some x => walkReader n x.2
  | _, _ => launchReader n

/-- A table entry as walk n sees it: read at once on the walk's own die, and by a packet across a splice on another (R246, R318). -/
def tableEntry (s : State) (n : Nat) (w : Walk) (a : Nat) : Option Word :=
  if a / 2 ^ 36 = dieOf w.from_.cid then some (s.seenW (walkReader n w) (hbmKey a)) else (w.tabs.find? (fun x => x.1 == a)).map (·.2)
/-- The channel of a table entry on the walk's own die does not start its read now (R344). -/
def entryWaits (s : State) (w : Walk) (a : Nat) : Bool := a / 2 ^ 36 == dieOf w.from_.cid && !(s.addrOpen a)
/-- What that read leaves (R250). -/
def sawEntry (s : State) (n : Nat) (w : Walk) (a : Nat) : State :=
  if a / 2 ^ 36 = dieOf w.from_.cid then s.saw (walkReader n w) (hbmKey a) 8 else s

/-- The read of a table entry leaves for the die that holds it, unless it is on its way already or 64 translations are (R309). -/
def askTable (s : State) (n : Nat) (w : Walk) (a : Nat) : State :=
  if s.net.any (fun x => isTable x.2 n && (match x.2.body with | .tableRead _ b => b == a | .tableWord _ b _ => b == a | _ => false)) ||
      decide (64 ≤ s.inFlight (dieOf w.from_.cid) (portOf a)) then s
  else s.send { packetOf (.tableRead n a) (.core w.from_.cid) (pageLoc a) w.from_.fref w.from_ with bulk := true }

/-- A table packet of a walk that has reached its end: the entry goes back to the walker, or into what the walk has received; a request for a
page enters the queue of its channel. -/
def tableArrive (s : State) (k : Nat) (p : Packet) : State :=
  match p.body with
  | .tableRead n a =>
    let r := s.tableReader n p
    ((s.dropPacket k).saw r (hbmKey a) 8).send { packetOf (.tableWord n a (s.seenW r (hbmKey a))) p.dst p.src p.from_.fref p.from_ with
      bulk := true, len := 8 }
  | .tableWord n a v =>
    match s.walk n with
    | none => s.dropPacket k
    | some w => (s.dropPacket k).setWalk n { w with tabs := w.tabs.set a v }
  | .pageAsk n tile => ((s.dropPacket k).modDie (locDie p.dst) (fun d => { d with
      hbmq := d.hbmq ++ [{ ch := (match p.dst with | .hbm _ c => c | _ => 0), quarter := quarterOf (clusOf p.from_.cid), walk := n, tile := tile }] }))
  | _ => s

end State

/-- A cache with the latest 256 entries of a port kept (R309); the port is that of the entry's own address (DESIGN CHOICE, log entry 25). -/
def trimPort (port : Nat) : Nat → List Cached → List Cached
  | _, [] => []
  | room, c :: t =>
    if State.portOf c.addr = port then (match room with | 0 => trimPort port 0 t | r + 1 => c :: trimPort port r t)
    else c :: trimPort port room t

namespace State

/-- The versions of the page entry of a tile that the walkers of a die hold, latest first: more than one where software has written a
pinned entry (R310). -/
def cachedFor (s : State) (die p tid tile : Nat) : List Cached :=
  (s.die die).cache.filter (fun c => c.part == p && c.tid == tid && c.tile == tile)

/-- A walker keeps a page entry that it has read, if it is pinned (R309, R310). -/
def keepEntry (s : State) (die : Nat) (c : Cached) : State :=
  if s.pins c.part c.tid c.tile = 0 then s
  else s.modDie die (fun d => { d with cache := trimPort (portOf c.addr) 256 (c :: d.cache.filter (· != c)) })

/-- The page entry that a translation uses. choice 0 reads the root entry and the page entry; choice k + 1 takes the walker's k-th version
of it where it keeps one, and beyond those a pair of the words that the two entries have had while they were pinned (R310). none: an
entry or its channel is awaited; an error is code 0x22, with what the read of a root entry leaves (R306, R308, R250). -/
def pageEntry (s : State) (n : Nat) (w : Walk) (tid : Nat) (x : Tens) (tl choice : Nat) : Except (State × Code) (State × Option Cached) :=
  let p := w.from_.part
  let own := dieOf w.from_.cid
  let old := choice - 1 - (s.cachedFor own p tid tl).length
  match choice, (s.cachedFor own p tid tl)[choice - 1]? with
  | _ + 1, some c => .ok (s, some c)
  | _, _ =>
    match rootAddr x tl with
    | none => .error (s, 0x22)
    | some ra =>
      if s.entryWaits w ra then .ok (s, none) else
      match s.tableEntry n w ra with
      | none => .ok (s.askTable n w ra, none)
      | some r =>
        match s.leafAddr p ((s.versions p ra r).getD (old % 16) r) tl with
        | none => .error (s.sawEntry n w ra, 0x22)
        | some a =>
          if s.entryWaits w a then .ok (s, none) else
          match s.tableEntry n w a with
          | none => .ok ((s.sawEntry n w ra).askTable n w a, none)
          | some e => .ok ((s.sawEntry n w ra).sawEntry n w a, some { part := p, tid := tid, tile := tl, addr := a, word := (s.versions p a e).getD (old / 16) e })

/-- A tile of a walk is translated by the word of its page entry; its request enters the queue of the page's channel, on another die by a
packet (R309, R318, R344). -/
def translate (s : State) (n tile : Nat) (w : Walk) (c : Cached) : State :=
  let own := dieOf w.from_.cid
  match s.pageOf w.from_.part c.word with
  | none => s.walkFault n w 0x22
  | some (pg, repl) =>
    let page := if repl then own * 2 ^ 36 + pg % 2 ^ 36 else pg
    let t := (s.setWalk n { w with
        trans := w.trans ++ [{ tile := tile, page := page, repl := repl, started := false }], tabs := w.tabs.erase c.addr }).keepEntry own c
    if page / 2 ^ 36 = own then
      t.modDie own (fun d => { d with hbmq := d.hbmq ++
        [{ ch := page / 2 ^ 16 % 32, quarter := quarterOf (clusOf w.from_.cid), walk := n, tile := tile }] })
    else t.send { packetOf (.pageAsk n tile) (.core w.from_.cid) (pageLoc page) w.from_.fref w.from_ with bulk := true }

/-- WALK_TRANSLATION: a table packet of the walk that has arrived is taken; else the tile's root entry, page entry and page; code 0x22
stops the walk (R306, R308). The lease comes first: a tile that no lease covers is not translated (R311). -/
def walkTranslation (s : State) (n tile choice : Nat) : State :=
  match s.net.find? (fun x => isTable x.2 n && s.tableReady x.2) with
  | some (k, p) => s.tableArrive k p
  | none =>
    match s.walk n with
    | none => s
    | some w =>
      let (tid, x, tl) := s.tileTens w tile
      if w.engine = 4 || w.stop || w.trans.any (fun t => t.tile == tile) || !(s.walkTouches w tile) ||
          !(s.leased w.from_.inst tid tl (writesTensor w)) then s
      else match s.pageEntry n w tid x tl choice with
        | .error (t, c) => t.walkFault n w c
        | .ok (t, none) => t
        | .ok (t, some c) => t.translate n tile w c

/-! ### Moves (R234 to R237)

The moves of a group travel as three packets of the bulk class: the request from the engine to the source, the elements from the source
to the engine, and the write from the engine to the destination (R219, R320; log entry 57). An engine sends and receives at the place
of the issuing core (R328). -/

/-- n bits from a bit offset of a key, least significant bit first (R19). -/
def readBits (s : State) (key off n : Nat) : Nat := bits (s.readN (key + off / 8) (spanOfBits off n)) (off % 8) n
/-- n bits written at a bit offset of a key; the other bits of the bytes keep their values. -/
def writeBits (s : State) (key off n v : Nat) : State :=
  let k := key + off / 8
  let len := spanOfBits off n
  s.writeN k len (setBits (s.readN k len) (off % 8) n v)

/-- The optical ports that are bound to a partition (R354, R355). -/
def boundPorts (s : State) (p : Nat) : List Nat :=
  (s.mgmt.ports.filter (fun x => x.2.1.getLsbD 0 && bits x.2.1.toNat 1 6 == p)).map (·.1)
/-- A bound port is live: its link is trained and the peer's entry is bound back to this module and port (R354). -/
def portLive (s : State) (i : Nat) : Bool := s.mgmt.up.contains i && s.mgmt.back.contains i

/-- Writes of a replicated page to bytes of the same aligned words are on their way to other copies: the next write to the words waits,
so that every copy takes the writes to one word in one order (R243, R250). -/
def replicaBusy (s : State) (p a len : Nat) : Bool :=
  s.net.any (fun x => match x.2.body with
    | .replica b bs _ _ => x.2.from_.part == p && overlaps (b % 2 ^ 36 / 8) ((b + bs.length + 7) / 8 - b / 8) (a % 2 ^ 36 / 8) ((a + len + 7) / 8 - a / 8)
    | _ => false)

/-- The bytes from lo to hi of one aligned word of a replicated page, as offsets within the die, carried to every other copy and through the
bound ports, with the poison of the write (R312, R355); through the ports also from a quarter-die partition, whose one copy is an ordinary
page on its module (DESIGN CHOICE, log entry 78). Answers the copies that the walk waits for. -/
def carry (s : State) (n : Nat) (w : Walk) (lo hi : Nat) (poison : Bool) : State × Nat :=
  let own := dieOf w.from_.cid
  let dies := ((s.shares w.from_.part).filter (fun x => x.2 == 4 && x.1 != own)).map (·.1)
  let ports := s.boundPorts w.from_.part
  let pk (d : Nat) (dst : Loc) : Packet :=
    { packetOf (.replica (d * 2 ^ 36 + lo) (s.readBytes (hbmKey (own * 2 ^ 36 + lo)) (hi - lo)) poison n) (pageLoc (own * 2 ^ 36 + lo)) dst 0 w.from_ with
      bulk := true, lo := hbmKey (d * 2 ^ 36 + lo), len := hi - lo }
  let all := dies.map (fun d => pk d (.hbm d (lo / 2 ^ 16 % 32))) ++ ports.map (fun i => pk own (.port i))
  (all.foldl (fun t q => t.send q) s, all.length)

/-- The words that an element was read from are poisoned, word by word, at the place that it is written to (R220). -/
def carryPoison (s : State) (k len : Nat) (pois : List Bool) : State :=
  if len ≤ 8 then (if pois.any id then s.addPoison k len else s)
  else (List.range (len / 8)).foldl (fun t i => if pois.getD i false then t.addPoison (k + 8 * i) 8 else t) s

/-- Walk n as the writer of a move (R241). -/
def walkWriter (n : Nat) (w : Walk) (m : Nat) : Writer := { fid := w.from_.fid, inst := w.from_.inst, by_ := 2, num := n, tag := m }
/-- A write of walk n. -/
def byWalk (n : Nat) (e : Older) : Bool := e.by_ == 2 && e.num == n

/-- One element of walk n written at a bit offset of a key, with the poison that it carries. -/
def putElem (s : State) (n : Nat) (w : Walk) (key off nb : Nat) (x : Elem) : State :=
  s.noted (walkWriter n w x.move) (key + off / 8) (spanOfBits off nb) <|
  (if nb < 8 then s.writeBits key off nb x.val else s.writeN (key + off / 8) (nb / 8) x.val).carryPoison (key + off / 8) (spanOfBits off nb) x.pois

/-- One aligned source word as a walk reads it: each is read once, so that no element of it mixes two writes (R147, R207). -/
def latchWord (s : State) (n : Nat) (w : Walk) (k : Nat) : Walk × Word × Bool :=
  match w.buf.find? (fun x => x.1 == k) with
  | some x => (w, x.2)
  | none => let v := (s.seenW (walkReader n w) k, s.poisoned k 8); ({ w with buf := w.buf.set k v }, v)
/-- What the reads of walk n leave that have brought v from w: the words that it has latched are seen (R250). -/
def sawLatched (s : State) (n : Nat) (w v : Walk) : State :=
  (v.buf.keys.filter (fun k => !(w.buf.keys.contains k))).foldl (fun t k => t.saw (walkReader n w) k 8) s

/-- The value of nb bits at a bit offset of a key and the poison of the words that they lie in, as a walk reads them. -/
def readElem (s : State) (n : Nat) (w : Walk) (key off nb : Nat) : Walk × Nat × List Bool :=
  let k := key + off / 8
  let words := (List.range ((k + spanOfBits off nb + 7) / 8 - k / 8)).map (fun i => (k / 8 + i) * 8)
  let r := words.foldl (fun (r : Walk × List (Word × Bool)) j => let (v, x) := s.latchWord n r.1 j; (v, r.2 ++ [x])) (w, [])
  (r.1, bits (r.2.foldr (fun x acc => x.1.toNat + 2 ^ 64 * acc) 0) (k % 8 * 8 + off % 8) nb, r.2.map (·.2))

end State

/-- An element put into a list by its move number. -/
def insertElem (x : Elem) : List Elem → List Elem
  | [] => [x]
  | y :: t => if x.move ≤ y.move then x :: y :: t else y :: insertElem x t
/-- The elements of a group in walk order. -/
def inOrderOfMoves (es : List Elem) : List Elem := es.foldr insertElem []
/-- The ranges of bits that writes have left clean, as first bit and count, after one more write: a poisoned one takes those of its aligned
words with it (R220). -/
def cleanAfter (rs : List (Nat × Nat)) (lo n : Nat) (poison : Bool) : List (Nat × Nat) :=
  if poison then rs.filter (fun r => !(overlaps (r.1 / 64) ((r.1 + r.2 + 63) / 64 - r.1 / 64) (lo / 64) ((lo + n + 63) / 64 - lo / 64)))
  else rs ++ [(lo, n)]
/-- Every bit of an aligned word is written by one of a list of writes. -/
def coversWord (l : List (Nat × Nat × List Bool)) (a : Nat) : Bool :=
  (List.range 64).all (fun i => l.any (fun x => decide (x.1 ≤ 8 * a + i) && decide (8 * a + i < x.1 + x.2.1)))
/-- A write poisons an aligned word that it touches: one of more than 8 bytes word by word (R220). -/
def poisonsWord (x : Nat × Nat × List Bool) (a : Nat) : Bool :=
  overlaps (8 * a) 64 x.1 x.2.1 && (if x.2.1 ≤ 64 then x.2.2.any id else x.2.2.getD ((a - x.1 / 8) / 8) false)
/-- An aligned word that a list of writes covers whole is poisoned after them: those since the last poisoned one do not cover it (R220,
R365). -/
def leftPoisoned (l : List (Nat × Nat × List Bool)) (a : Nat) : Bool :=
  !(coversWord (l.foldl (fun rs x => if poisonsWord x a then [] else rs ++ [x]) []) a)
/-- The bytes of an aligned word that a write touches, and its poison. -/
def writtenIn (a : Nat) (x : Nat × Nat × List Bool) : Option (Nat × Nat × Bool) :=
  if overlaps (8 * a) 64 x.1 x.2.1 then some (max a (x.1 / 8), min (a + 8) ((x.1 + x.2.1 + 7) / 8), poisonsWord x a) else none
/-- A move number put into the rising list. -/
def insertNat (x : Nat) : List Nat → List Nat
  | [] => [x]
  | y :: t => if x < y then x :: y :: t else if x = y then y :: t else y :: insertNat x t

namespace State

/-- The tiles that a move touches: that of its element; for a twq those of its block and of the block's scale. -/
def moveTiles (s : State) (w : Walk) (e : Nat) : List Nat :=
  if w.kind = 5 then
    (blockOf w e).2.map (fun j => (tileOf (s.walkTens w) (walkCoords w j)).1) ++ [2 ^ 24 + (tileOf (s.scaleTens w) (scaleCoords w e)).1]
  else [(tileOf (s.walkTens w) (walkCoords w e)).1]

/-- A tile of a walk that is translated and whose request has started. -/
def pageReady (w : Walk) (tile : Nat) : Option Trans := w.trans.find? (fun r => r.tile == tile && r.started)

/-- A page that is being migrated: new writes to it are held at its port, whichever tensor they reach it by (R314, R315). -/
def pageHeld (s : State) (w : Walk) (tile : Nat) : Bool :=
  match pageReady w tile with
  | some r => s.migrating r.page 65536
  | none => false

/-- Writes to a page that a walker has accepted are not all performed (R314). -/
def writesPending (s : State) (page : Nat) : Bool :=
  s.walks.any (fun x => writesTensor x.2 && x.2.going.any (fun m =>
    !(x.2.moved.contains m && (x.2.kind != 5 || x.2.scaled.contains (blockOf x.2 m).1)) &&
      (s.moveTiles x.2 (m % walkElems x.2)).any (fun tl => match pageReady x.2 tl with | some r => r.page == page | none => false)))

/-- A move of a walk may start: its leases cover every tile that it touches, or code 0x20; a replicated page's bound ports are live, or
code 0x38; its tiles are translated, no page that it writes is being migrated, and in a sub-byte format the elements before it have
started (R234, R235, R314, R355). -/
def moveCheck (s : State) (w : Walk) (m : Nat) : Except Code Bool := do
  let E := walkElems w
  let e := m % E
  if w.stop || decide (walkTargets w * E ≤ m) || w.going.contains m then pure false
  else
    let tiles := s.moveTiles w e
    need (tiles.all (fun tl => s.leased w.from_.inst (s.tileTens w tl).1 (s.tileTens w tl).2.2 (writesTensor w))) 0x20
    need (tiles.all (fun tl => match pageReady w tl with
      | some r => !(r.repl && writesTensor w) || (s.boundPorts w.from_.part).all s.portLive
      | none => true)) 0x38
    pure (tiles.all (fun tl => (pageReady w tl).isSome) && !(writesTensor w && tiles.any (s.pageHeld w)) &&
      (!(subByte (s.walkTens w).fmt) || w.kind == 5 || e == 0 || w.going.contains (m - 1)))

/-- The moves of a list that go in one packet with its first: of one tile and one scratchpad unit, at most room of them, each of which may
start. -/
def gather (s : State) (tile t : Nat) (l : Option Loc) : Walk → Nat → List Nat → List Nat
  | _, _, [] => []
  | _, 0, _ => []
  | w, room + 1, m :: r =>
    let e := m % walkElems w
    match s.moveCheck w m with
    | .ok true =>
      if s.moveTiles w e == [tile] && m / walkElems w == t && s.spadLoc w t e == l then
        m :: gather s tile t l { w with going := insertNat m w.going } room r
      else []
    | _ => []

/-- A packet of a walk's moves. -/
def movesPacket (n : Nat) (w : Walk) (stage tile : Nat) (src dst : Loc) (es : List Elem) (len : Nat) : Packet :=
  { packetOf (.moves n stage tile es) src dst w.from_.fref w.from_ with bulk := true, len := len }

/-- A group of moves starts: the request leaves for its source, at most 256 bytes of elements, or one block of a twq (R234, R320, R237).
A move that may not start ends the group, and one that faults stops the walk. -/
def startMoves (s : State) (n : Nat) (w : Walk) (ms : List Nat) : State :=
  match ms with
  | [] => s
  | m :: r =>
    let E := walkElems w
    match s.moveCheck w m with
    | .error c => s.walkFault n w c
    | .ok false => s
    | .ok true =>
      let t := m / E
      let tile := (s.moveTiles w (m % E)).headD 0
      let unit := s.spadLoc w t (m % E)
      let es := if w.kind = 5 then (blockOf w m).2 else s.gather tile t unit w (2048 / elemBits (s.walkTens w).fmt) (m :: r)
      let src := if writesTensor w then unit else (pageReady w tile).map (fun x => pageLoc x.page)
      match src with
      | none => s
      | some l =>
        (s.setWalk n { w with going := es.foldl (fun g x => insertNat x g) w.going }).send
          (movesPacket n w 0 tile (.core w.from_.cid) l (es.map (fun x => { move := x, val := 0, pois := [] })) 0)

/-- A later move in walk order has already written this element's destination (R234). -/
def written (s : State) (w : Walk) (t e : Nat) : Bool :=
  let E := walkElems w
  w.moved.any (fun m => decide (t * E + e < m) && decide (m < (t + 1) * E) &&
    (if writesTensor w then walkCoords w (m - t * E) == walkCoords w e
     else let a := s.spadSpan w t (m - t * E); let b := s.spadSpan w t e; overlaps a.1 a.2 b.1 b.2))

/-- The place of an element of a page: key and bit offset. -/
def pagePlace (s : State) (w : Walk) (r : Trans) (e : Nat) : Nat × Nat :=
  (hbmKey r.page, (tileOf (s.walkTens w) (walkCoords w e)).2 * elemBits (s.walkTens w).fmt)

/-- The request of a group at its source: the elements are read and leave for the engine (R220, R234). Where the page has moved since,
the moves start anew (R315). -/
def movesRead (s : State) (k n : Nat) (p : Packet) (w : Walk) (tile : Nat) (es : List Elem) : State :=
  let x := s.walkTens w
  let E := walkElems w
  let again := (s.dropPacket k).setWalk n { w with going := w.going.filter (fun m => !(es.any (fun y => y.move == m))) }
  let read (v : Walk) (m : Nat) (key off nb : Nat) : Walk × Elem := let (v', val, ps) := s.readElem n v key off nb; (v', { move := m, val := val, pois := ps })
  let step (f : Walk → Nat → Walk × Elem) : Walk × List Elem :=
    es.foldl (fun (r : Walk × List Elem) y => let (v, z) := f r.1 y.move; (v, r.2 ++ [z])) (w, [])
  let answer (r : Walk × List Elem) (nb : Nat) : State :=
    (((s.sawLatched n w r.1).dropPacket k).setWalk n r.1).send (movesPacket n w 1 tile p.dst (.core w.from_.cid) r.2 ((r.2.length * nb + 7) / 8))
  if writesTensor w then
    let nb := spadBits w x.fmt
    answer (step (fun v m => read v m (s.spadKey w (m / E) (m % E)) (spadBit w x.fmt (m % E)) nb)) nb
  else match pageReady w tile with
    | none => again
    | some r =>
      if pageLoc r.page = p.dst then
        answer (step (fun v m => let pl := s.pagePlace w r (m % E); read v m pl.1 pl.2 (elemBits x.fmt))) (elemBits x.fmt)
      else again

/-- The elements of a group at the engine: they leave for their destination. A block of a twq is quantised, and each tile that it touches
gets its codes, the companion its scale; a poisoned source word stops the walk with code 0x21 (R237). -/
def movesPass (s : State) (k n : Nat) (w : Walk) (tile : Nat) (es : List Elem) : State :=
  let x := s.walkTens w
  let E := walkElems w
  let s1 := s.dropPacket k
  let put (t : State) (tl : Nat) (l : Option Loc) (ys : List Elem) (nb : Nat) : State :=
    match l with
    | none => t
    | some l => t.send (movesPacket n w 2 tl (.core w.from_.cid) l ys ((ys.length * nb + 7) / 8))
  let page (tl : Nat) : Option Loc := (pageReady w tl).map (fun r => pageLoc r.page)
  if w.kind = 5 then
    if es.any (fun y => y.pois.any id) then s1.walkFault n w 0x21
    else
      let q := mxQuantise w.qfmt (es.map (fun y => BitVec.ofNat 32 y.val))
      let ys := (es.zip q.2).map (fun z => { z.1 with val := z.2, pois := [] })
      let tileOfMove (y : Elem) : Nat := (tileOf x (walkCoords w y.move)).1
      let s2 := ((ys.map tileOfMove).dedup).foldl (fun t tl =>
        put t tl (page tl) (ys.filter (fun y => tileOfMove y == tl)) (elemBits x.fmt)) s1
      match es with
      | [] => s2
      | y :: _ =>
        let st := 2 ^ 24 + (tileOf (s.scaleTens w) (scaleCoords w y.move)).1
        put s2 st (page st) [{ move := y.move, val := q.1, pois := [] }] 8
  else if writesTensor w then put s1 tile (page tile) es (elemBits x.fmt)
  else match es with
    | [] => s1
    | y :: _ => put s1 tile (s.spadLoc w (y.move / E) (y.move % E)) es (elemBits x.fmt)

/-- The elements of a group that are written where they belong, each at its key and bit offset, in the order of the list; the aligned words
that clean writes have covered whole since the last poisoned one are no longer poisoned (R220, R365). -/
def putAll (s : State) (n : Nat) (w : Walk) (nb : Nat) (l : List (Nat × Nat × Elem)) : State :=
  (l.foldl (fun t y => t.putElem n w y.1 y.2.1 nb y.2.2) s).clearWritten
    (l.foldl (fun rs y => cleanAfter rs (8 * y.1 + y.2.1) nb (y.2.2.pois.any id)) [])

/-- The writes of a group to a replicated page, each as first bit within the die, number of bits and poison, carried to its copies (R312). A
word that they cover whole goes as one write, poisoned as the writer's own copy then is, so that it is cleared on every copy (R365); of another the bytes of
each write go by themselves. Answers the copies that the walk waits for. -/
def carryAll (s : State) (n : Nat) (w : Walk) (l : List (Nat × Nat × List Bool)) : State × Nat :=
  let words := (l.flatMap (fun x => wordsOf (x.1 / 8) (spanOfBits (x.1 % 8) x.2.1))).eraseDups
  let parts := words.flatMap (fun a => if coversWord l a then [(a, a + 8, leftPoisoned l a)] else l.filterMap (writtenIn a))
  parts.foldl (fun (u : State × Nat) r => ((u.1.carry n w r.1 r.2.1 r.2.2).1, u.2 + (u.1.carry n w r.1 r.2.1 r.2.2).2)) (s, 0)

/-- The write of a group to a page: the elements, or the scales of a twq, that no later move has written over, in walk order; they are then
performed.
The copies of a replicated page are sent (R234, R250, R312). A scale is one byte at its element's number in the companion's page, whatever
format the companion has (DESIGN CHOICE, log entry 67). -/
def writeTensor (s : State) (k n : Nat) (w : Walk) (tile : Nat) (r : Trans) (es : List Elem) : State :=
  let scale := decide (2 ^ 24 ≤ tile)
  let nb := if scale then 8 else elemBits (s.walkTens w).fmt
  let later (y : Elem) : Bool :=
    if scale then w.scaled.any (fun b => decide (y.move < b) && scaleCoords w b == scaleCoords w y.move) else s.written w 0 y.move
  let place (y : Elem) : Nat × Nat :=
    if scale then (hbmKey r.page, (tileOf (s.scaleTens w) (scaleCoords w y.move)).2 * 8) else s.pagePlace w r y.move
  let live := (inOrderOfMoves es).filter (fun y => !(later y))
  let spans := live.map (fun y => (r.page + (place y).2 / 8, spanOfBits (place y).2 nb))
  if r.repl && spans.any (fun x => s.replicaBusy w.from_.part x.1 x.2) then s
  else
    let t := (spans.foldl (fun u x => u.keepOlds x.1 x.2) (s.dropPacket k)).putAll n w nb (live.map (fun y => ((place y).1, (place y).2, y)))
    let u := if r.repl then t.carryAll n w (live.map (fun y => (8 * (r.page % 2 ^ 36) + (place y).2, nb, y.pois))) else (t, 0)
    let add (l : List Nat) : List Nat := es.foldl (fun l y => insertNat y.move l) l
    u.1.setWalk n (if scale then { w with scaled := add w.scaled, copies := w.copies + u.2 }
      else { w with moved := add w.moved, copies := w.copies + u.2 })

/-- The write of a group to a scratchpad: the elements that no later move has written over, in walk order; they are then performed (R234). -/
def writeSpad (s : State) (k n : Nat) (w : Walk) (es : List Elem) : State :=
  let E := walkElems w
  let fmt := (s.walkTens w).fmt
  let live := (inOrderOfMoves es).filter (fun y => !(s.written w (y.move / E) (y.move % E)))
  ((s.dropPacket k).putAll n w (elemBits fmt) (live.map (fun y => (s.spadKey w (y.move / E) (y.move % E), spadBit w fmt (y.move % E), y)))).setWalk n
    { w with moved := es.foldl (fun l y => insertNat y.move l) w.moved }

/-- The write of a group at its destination. A sub-byte run is written in walk order (R234). -/
def movesWrite (s : State) (k n : Nat) (w : Walk) (tile : Nat) (es : List Elem) : State :=
  let E := walkElems w
  let first := (es.headD default).move
  if decide (tile < 2 ^ 24) && subByte (s.walkTens w).fmt && w.kind != 5 && decide (walkPrefix w (first / E) < first % E) then s
  else if writesTensor w then
    match pageReady w tile with
    | none => s
    | some r => s.writeTensor k n w tile r es
  else s.writeSpad k n w es

/-- A packet of a walk's moves that has arrived. The moves of a command that has stopped are not performed (R238, R239). -/
def movesArrive (s : State) (k : Nat) (p : Packet) : State :=
  match p.body with
  | .moves n stage tile es =>
    match s.walk n with
    | none => s.dropPacket k
    | some w =>
      if w.stop then s.dropPacket k
      else if stage = 0 then s.movesRead k n p w tile es
      else if stage = 1 then s.movesPass k n w tile es
      else s.movesWrite k n w tile es
  | _ => s

/-- A packet of moves of a walk is at its end, which is open, or a channel that may start it (R344); an engine is no core's scratchpad. -/
def movesReady (s : State) (n : Nat) (p : Packet) : Bool :=
  match p.body with
  | .moves m stage _ _ => m == n && p.pos == .ready && (stage == 1 || (s.locOpen p.dst && s.channelFor p))
  | _ => false

/-- WALK_MOVE: the group of moves whose first is named takes its next step, or a group starts with the moves named (R234, R235). -/
def walkMove (s : State) (n : Nat) (ms : List Nat) : State :=
  match s.net.find? (fun x => s.movesReady n x.2 && (match x.2.body with
      | .moves _ _ _ es => ms.isEmpty || (match ms, es with | m :: _, y :: _ => y.move == m | _, _ => false)
      | _ => false)) with
  | some (k, p) => s.movesArrive k p
  | none =>
    match s.walk n with
    | none => s
    | some w => if w.engine = 4 then s else s.startMoves n w ms

/-! ### Signals (R236) -/

/-- The elements of run r of level j. -/
def runElems (w : Walk) (j r : Nat) : List Nat :=
  let size := ((w.levels.take (j + 1)).map (·.n)).prod
  (List.range size).map (r * size + ·)
/-- The bytes that a set of whole level-0 runs, or of elements, counts (R234). -/
def bytesOf (s : State) (w : Walk) (count : Nat) : Nat :=
  let fmt := (s.walkTens w).fmt
  let n0 := (w.levels.getD 0 default).n
  if w.kind = 5 then
    count / n0 * ((if subByte fmt then (n0 * elemBits fmt + 7) / 8 else n0 * elemBytes fmt) + cdiv n0 32)
  else if subByte fmt then count / n0 * runBytes w fmt n0 else count * elemBytes fmt
/-- The slot reference of a target: for a twmc the die and core of the target (R236). -/
def targetSref (w : Walk) (t r : Nat) : Nat := if w.kind = 2 then mkSref (targetCore w t) (frefName r) (srefSlot r) else r

/-- The blocks of a twq that begin among a list of elements have their scales written. -/
def scalesDone (w : Walk) (es : List Nat) : Bool := w.kind != 5 || es.all (fun e => (blockOf w e).1 != e || w.scaled.contains e)

/-- DIMENSION_END_SIGNAL: every element of a run of a signalling level has been performed, and every copy holds it (R236, R250). -/
def dimensionEndSignal (s : State) (n j r t : Nat) : State :=
  match s.walk n with
  | none => s
  | some w =>
    let l := w.levels.getD j default
    let es := runElems w j r
    if w.engine != 4 && !w.stop && decide (j < 5) && l.sig && decide (t < walkTargets w) && decide ((r + 1) * es.length ≤ walkElems w) &&
        w.copies == 0 && !(w.sent.contains (j, r, t)) && es.all (fun e => w.moved.contains (t * walkElems w + e)) && scalesDone w es then
      ((s.setWalk n { w with sent := w.sent ++ [(j, r, t)] }).bindTo (.cover s.seq) (fun e => byWalk n e &&
        es.contains (e.tag - t * walkElems w) && decide (t * walkElems w ≤ e.tag))).sendSignal (.core w.from_.cid) w.from_ (targetSref w t l.sref) 1
        (s.bytesOf w es.length) 1
    else s

/-- Every dimension-end signal that a walk owes has left. -/
def allSent (w : Walk) : Bool :=
  (List.range 5).all (fun j => !((w.levels.getD j default).sig) || (List.range (walkTargets w)).all (fun t =>
    (List.range (walkElems w / (runElems w j 0).length)).all (fun r => w.sent.contains (j, r, t))))

/-- A dimension-end signal of a walk is on its way: the final signal comes last, so that its slot cannot fire before them (R236). -/
def signalsOut (s : State) (w : Walk) : Bool :=
  s.net.any (fun x => x.2.from_ == w.from_ && (match x.2.body with
    | .signal r _ _ _ _ => w.levels.any (fun l => l.sig && (List.range (walkTargets w)).any (fun t => targetSref w t l.sref == r))
    | _ => false))

/-- FINAL_SIGNAL: after every move, and after every dimension-end signal has left and been applied, the engine signals slot c; a twmc
signals one target after the other, and the last ends the command (R236, R250, R389). -/
def finalSignal (s : State) (n : Nat) : State :=
  match s.walk n with
  | none => s
  | some w =>
    if w.engine != 4 && !w.stop && w.moved.length == walkTargets w * walkElems w && scalesDone w (List.range (walkElems w)) && w.copies == 0 &&
        allSent w && (decide (0 < w.finals) || !(s.signalsOut w)) then
      let s1 := match w.ret.slot with
        | some r => (s.bindTo (.cover s.seq) (byWalk n)).sendSignal (.core w.from_.cid) w.from_ (targetSref w w.finals r) 1 (s.bytesOf w (walkElems w)) 1
        | none => s
      if w.finals + 1 = walkTargets w then (s1.dropWalk n w).finishCmd w.cmd 0 (walkElems w) (walkExt w)
      else s1.setWalk n { w with finals := w.finals + 1 }
    else s

/-- The target of a packet as word 4 of a kind-6 record gives it: a FREF, or a scratchpad address. -/
def refusedTarget (p : Packet) : Word :=
  match p.body with
  | .stf .. => BitVec.ofNat 64 p.target
  | _ =>
    if p.len = 0 then BitVec.ofNat 64 p.target
    else match p.dst with
      | .core c => BitVec.ofNat 64 (dieOf c * 2 ^ 58 + coreIdx c * 2 ^ 43 + p.lo % 2 ^ 17)
      | _ => BitVec.ofNat 64 p.target
/-- A kind-6 record (R361, R368). -/
def refusedFault (s : State) (p : Packet) : State :=
  s.addFault
    { kind := 6, code := 0x38, part := p.from_.part, inst := p.from_.inst, handle := s.handleOf p.from_.inst, cid := p.from_.cid
      f := frefName p.from_.fref, w2 := BitVec.ofNat 64 p.from_.fref, w3 := BitVec.ofNat 64 (p.from_.pc % 2 ^ 32)
      rest := [refusedTarget p, 0, 0, 0], cmds := [], ext := [], cb := none, own := 0, acts := false }
/-- One request refused: a kind-1 record for an asynchronous command, a kind-6 record otherwise (R368). -/
def refuseOne (s : State) (p : Packet) : State := if p.cmd = 0 then s.refusedFault p else s.failCmd p.cmd 0x38 0 []

/-- TWCAN_COMPLETE: the matching commands stop, the issuing frame's word receives their number, the slot is signalled, and their
counts fall (R239). A command matches by what it is when the engines answer, so one issued after the twcan may be among them (DESIGN CHOICE,
log entry 66). The signal releases what they wrote, so it waits until every copy of a replicated page holds it (R250). A dead core's
frame is not written: the commands stop as they do for any other, and the router next to it refuses the answer (R368). While a copy of the
issuing frame is being written back the word waits for the image (R186). -/
def twcanComplete (s : State) (k : Nat) : State :=
  match s.packet k with
  | none => s
  | some p =>
    match p.body with
    | .twcan r =>
      let hit := s.walks.filter (fun x => x.2.from_.fref == p.from_.fref && x.2.ret.slot.getD (2 ^ 64) == r)
      let dead := (s.core p.from_.cid).dead
      if p.pos != .ready || !p.fences.isEmpty || (!dead && s.replyHeld p) then s
      else if hit.any (fun x => x.2.copies != 0) then hit.foldl (fun u x => u.setWalk x.1 { x.2 with stop := true }) s
      else
        let s1 := hit.foldl (fun u x => (u.dropWalk x.1 x.2).finishCmd x.2.cmd 3 (walkProgress x.2) (walkExt x.2)) (s.dropPacket k)
        if dead then s1.refuseOne p
        else ((s1.bindTo (.cover k) (fun e => hit.any (fun x => byWalk x.1 e))).writeReply p.from_.cid p.from_.fref p.ret.ow
          (BitVec.ofNat 64 hit.length) false).completeAt k p.from_.cid p.from_ p.ret []
    | _ => s

/-- REPLICA_WRITE_APPLY: a copy takes a write, in the order of the writes to its word and once its channel starts it; the writer's walk waits
for one copy less (R250, R312, R344, R355). At a port the copy is the peer's; a port that has ceased to be live ends the walk with code 0x38. -/
def replicaWriteApply (s : State) (k : Nat) : State :=
  match s.packet k with
  | none => s
  | some p =>
    match p.body with
    | .replica a bs poison n =>
      let blocked := s.net.any (fun x => decide (x.1 < k) && x.2.dst == p.dst && (match x.2.body with | .replica .. => true | _ => false) &&
        x.2.lo / 8 == p.lo / 8)
      let lost := match p.dst with | .port i => !(s.portLive i) | _ => false
      let held := match p.dst with | .port _ => false | _ => s.migrating a bs.length
      if p.pos == .ready && !blocked && s.channelFor p && !held then
        let s1 := s.dropPacket k
        let s2 := match p.dst with
          | .port _ => s1
          | _ => let u := (s1.keepOlds a bs.length).writeBytes (hbmKey a) bs; if poison then u.addPoison (hbmKey a) bs.length else u
        match s2.walk n with
        | some w => if lost && !w.stop then s2.walkFault n w 0x38 else s2.setWalk n { w with copies := w.copies - 1 }
        | none => s2
      else s
    | _ => s

end State

/-- twld (R231). -/
def execTwld (f : WForm) (s : State) : Out := issue 8 f.guard s (State.walkIssue 0 f)
/-- twst (R231). -/
def execTwst (f : WForm) (s : State) : Out := issue 8 f.guard s (State.walkIssue 1 f)
/-- twmc (R231). -/
def execTwmc (f : WForm) (s : State) : Out := issue 8 f.guard s (State.walkIssue 2 f)
/-- twg (R231). -/
def execTwg (f : WForm) (s : State) : Out := issue 8 f.guard s (State.walkIssue 3 f)
/-- tws (R231). -/
def execTws (f : WForm) (s : State) : Out := issue 8 f.guard s (State.walkIssue 4 f)
/-- twq (R231, R237). -/
def execTwq (f : WForm) (s : State) : Out := issue 8 f.guard s (State.walkIssue 5 f)
/-- twcan (R239). -/
def execTwcan (f : WForm) (s : State) : Out := issue 8 f.guard s (State.twcan f)
/-- WALK_START (R233). -/
def execWalkStart (clid w : Nat) (s : State) : Out := .next (s.walkStart clid w)
/-- WALK_TRANSLATION (R308, R309). -/
def execWalkTranslation (w tile choice : Nat) (s : State) : Out := .next (s.walkTranslation w tile choice)
/-- WALK_MOVE (R234). -/
def execWalkMove (w : Nat) (moves : List Nat) (s : State) : Out := .next (s.walkMove w moves)
/-- DIMENSION_END_SIGNAL (R236). -/
def execDimensionEndSignal (w level run target : Nat) (s : State) : Out := .next (s.dimensionEndSignal w level run target)
/-- FINAL_SIGNAL (R236). -/
def execFinalSignal (w : Nat) (s : State) : Out := .next (s.finalSignal w)
/-- TWCAN_COMPLETE (R239). -/
def execTwcanComplete (pkt : Nat) (s : State) : Out := .next (s.twcanComplete pkt)
/-- REPLICA_WRITE_APPLY (R312). -/
def execReplicaWriteApply (pkt : Nat) (s : State) : Out := .next (s.replicaWriteApply pkt)

end Sys2Proof.Machine
end

