-- ==== Sys2Proof/Machine/Fabric.lean ====
section
/-! DEFINITION. The fabric: torus routers and links, splices with their merge buffers, crossbars, HBM4 channels, neighbour ports,
refusals at dead cores, and the region and connection tables with their commits (R46, R316 to R346, R368). -/

namespace Sys2Proof.Machine

/-! ### Routing on the torus (R317, R324, R325) -/

/-- The minimal direction along one dimension, 0 for none, 1 toward increasing and 2 toward decreasing coordinates (R317). -/
def dirTo (a b : Nat) : Nat :=
  let d := (b + 640 - a) % 640
  if d = 0 then 0 else if d ≤ 320 then 1 else 2
/-- The ports on minimal routes, X first: 1 east, 3 west, 2 south, 0 north. -/
def minimalPorts (x y tx ty : Nat) : List Nat :=
  (match dirTo x tx with | 0 => [] | 1 => [1] | _ => [3]) ++ (match dirTo y ty with | 0 => [] | 1 => [2] | _ => [0])
/-- The router that a port leads to. -/
def routerAt (x y port : Nat) : Nat × Nat :=
  match port with
  | 0 => (x, (y + 639) % 640)
  | 1 => ((x + 1) % 640, y)
  | 2 => (x, (y + 1) % 640)
  | _ => ((x + 639) % 640, y)
/-- The link crosses the wrap of its dimension. -/
def wraps (x y port : Nat) : Bool := (port == 1 && x == 639) || (port == 3 && x == 0) || (port == 2 && y == 639) || (port == 0 && y == 0)
/-- A packet from core a has crossed the wrap of the dimension of a port on its way to core b when it stands at (x, y): it goes the one
way round that dirTo gives its source, so it has passed the wrap once its coordinate lies behind the source's (R325). -/
def crossedWrap (a b x y port : Nat) : Bool :=
  let past (s t c : Nat) : Bool := match dirTo s t with | 1 => decide (c < s) | 2 => decide (s < c) | _ => false
  if port % 2 = 1 then past (modX a) (modX b) x else past (modY a) (modY b) y
/-- The number of a link. -/
def linkKey (x y port : Nat) : Nat := (y * 640 + x) * 4 + port
/-- Flits of a packet (R324): one in the signal class; a header and up to eight data flits of 32 bytes in bulk. -/
def flitsOf (p : Packet) : Nat := if p.bulk then 1 + min 8 (cdiv p.len 32) else 1

namespace State

/-- The region table of a packet's generation (R339). -/
def regionFor (s : State) (g : BitVec 4) : Tbl Word := if g = s.mgmt.gen then s.mgmt.region else s.mgmt.regionOld
/-- The connection table of a packet's generation; an entry never written holds its reset value (R322). -/
def connFor (s : State) (g : BitVec 4) (i : Nat) : Word := (if g = s.mgmt.gen then s.mgmt.conn else s.mgmt.connOld).get 0xFFFF i
/-- A packet's partition is reserved: its traffic travels on VCs 4 to 7 (R324). -/
def pktRsv (s : State) (p : Packet) : Bool := partRsv (s.regionFor p.gen) p.from_.part
/-- The adaptive VC of a packet's class (R324); its escape VC is the next. -/
def vcBase (s : State) (p : Packet) : Nat := (if p.bulk then 2 else 0) + (if s.pktRsv p then 4 else 0)
/-- The packets that hold a slot of an input buffer: those in it, and those whose first flit is on its way to it. Queue 32 + v of a link
is that of VC v on the control wavelength. -/
def occupied (s : State) (x y inp vc : Nat) : Nat :=
  (s.net.filter (fun e => match e.2.pos with
    | .router a b i v => a == x && b == y && i == inp && v == vc
    | .link a b i v port ov sent => (a == x && b == y && i == inp && v == vc) ||
        (routerAt a b port == (x, y) && opposite port == inp && ov % 32 == vc && decide (0 < sent))
    | _ => false)).length
/-- Free slots downstream of a link in a VC (R325). -/
def freeSlots (s : State) (x y port vc : Nat) : Nat :=
  let r := routerAt x y port
  Config.freeSlots (linkKey x y port) + 1 - s.occupied r.1 r.2 (opposite port) (vc % 32)
/-- A link record. -/
def link (s : State) (k : Nat) : Link := s.links.get Link.init k

/-- The connection entry of a link that leaves its die, with its die and side. -/
def edgeEntry (x y port : Nat) : Option Nat :=
  let r := routerAt x y port
  let d := y / 160 * 4 + x / 160
  if r.2 / 160 * 4 + r.1 / 160 = d then none else some (4 * d + port)
/-- The output port and VC that a router gives a packet from core a to core b (R325). In the escape VC it takes the upper half from the
wrap of the port's dimension on. -/
def routePort (s : State) (p : Packet) (a b x y vc : Nat) : Nat × Nat :=
  let base := s.vcBase p
  let ports := minimalPorts x y (modX b) (modY b)
  let free := if vc % 8 = base + 1 then [] else (ports.map (fun q => (q, s.freeSlots x y q base))).filter (fun q => decide (0 < q.2))
  match free with
  | [q] => (q.1, base)
  | q :: r :: _ => (if q.2 < r.2 then r.1 else q.1, base)
  | [] =>
    let q := ports.headD 1
    (q, base + 1 + (if wraps x y q || crossedWrap a b x y q then 8 else 0))

/-- ROUTER_HOP: a router gives a packet an output port and VC (R325), on a die-edge link a step notice that of the control wavelength
(R323). -/
def routerHop (s : State) (k : Nat) : State :=
  match s.packet k with
  | none => s
  | some p =>
    match onTorus p with
    | none => s
    | some (a, b) =>
      let go (x y inp vc : Nat) (q : Packet) : State :=
        let (port, v) := s.routePort q a b x y vc
        let ov := if onControl q && (edgeEntry x y port).isSome then v + 32 else v
        let key := linkKey x y port
        let l := s.link key
        { s with
          net := s.net.set k { q with pos := .link x y inp vc port ov 0 }
          links := s.links.set key { l with q := l.q.set ov (l.q.get [] ov ++ [k]) } }
      match p.pos with
      | .sender =>
        let q := { p with gen := s.mgmt.gen }
        if dieOf a = dieOf b ∧ heldAtSender p = false then go (modX a) (modY a) 4 (s.vcBase q) q else s
      | .router x y inp vc => go x y inp vc p
      | _ => s

/-! ### Links (R322, R323, R327) -/

/-- A link is reserved: it joins two cores of one reserved partition (R327), in the current table or, while a commit drains, in the
retiring one, whose packets still travel (R339). -/
def linkRsv (s : State) (x y port : Nat) : Bool :=
  let r := routerAt x y port
  let own (t : Tbl Word) : Bool :=
    match partOfCore t (coreAtMod x y) with | none => false | some p => partOfCore t (coreAtMod r.1 r.2) == some p && partRsv t p
  own s.mgmt.region || (s.mgmt.drain && own s.mgmt.regionOld)
/-- Connection entry i lets a packet through: shared traffic where shm is not 0, that of rpart's channels where rv and rsm say so. -/
def entryOpen (s : State) (p : Packet) (i : Nat) : Bool :=
  let e := (s.connFor p.gen i).toNat
  if onControl p then true
  else if s.pktRsv p then bits e 38 1 == 1 && bits e 16 16 != 0 && bits e 32 6 == p.from_.part else bits e 0 16 != 0
/-- A packet may use a die-edge link. -/
def edgeOpen (s : State) (p : Packet) (x y port : Nat) : Bool := match edgeEntry x y port with | none => true | some i => s.entryOpen p i
/-- The dies on a shortest way between two dies, along the rows first; a row or a column wraps (R316). -/
def diePath (a b : Nat) : Nat → List (Nat × Nat)
  | 0 => []
  | k + 1 =>
    let dx := (b % 4 + 4 - a % 4) % 4
    let dy := (b / 4 + 4 - a / 4) % 4
    if dx = 1 ∨ dx = 2 then (a, 1) :: diePath (a / 4 * 4 + (a % 4 + 1) % 4) b k
    else if dx = 3 then (a, 3) :: diePath (a / 4 * 4 + (a % 4 + 3) % 4) b k
    else if dy = 1 ∨ dy = 2 then (a, 2) :: diePath ((a / 4 + 1) % 4 * 4 + a % 4) b k
    else if dy = 3 then (a, 0) :: diePath ((a / 4 + 3) % 4 * 4 + a % 4) b k
    else []
/-- The edges between the dies of a packet without a place in the torus let it through (R323). -/
def crossOpen (s : State) (p : Packet) : Bool := (diePath (locDie p.src) (locDie p.dst) 4).all (fun e => s.entryOpen p (4 * e.1 + e.2))

/-- The head of a VC's queue, where it may send a flit: its slot downstream is free, or held already, or it ends its way there. -/
def vcHead (s : State) (x y port vc : Nat) : Option (Nat × Packet) :=
  match (s.link (linkKey x y port)).q.get [] vc with
  | [] => none
  | k :: _ =>
    match s.packet k with
    | none => none
    | some p =>
      let last := match onTorus p with | some (_, b) => routerAt x y port == (modX b, modY b) | none => false
      let sent := match p.pos with | .link _ _ _ _ _ _ n => n | _ => 0
      if s.edgeOpen p x y port && (last || decide (0 < sent) || decide (0 < s.freeSlots x y port vc)) then some (k, p) else none

/-- The first VC of a group that has a flit to send: the escape VC before the adaptive VC (R327). -/
def groupHead (s : State) (x y port base : Nat) : Option (Nat × Nat × Packet) :=
  ([base + 1, base + 9, base].filterMap (fun v => (s.vcHead x y port v).map (v, ·))).head?

/-- The groups of a link in the order of its cycle: 0 shared signal, 2 shared bulk, 4 reserved signal, 6 reserved bulk (R327). On a link
that is not reserved the traffic of a reserved partition comes last: the manual names only the shared groups there (log entry 8). -/
def linkOrder (reserved : Bool) (c : Nat) : List Nat :=
  if !reserved then (if c % 8 = 7 then [2, 0] else [0, 2]) ++ [4, 6]
  else if c % 8 = 7 then [0, 2]
  else if c % 8 = 3 then [6, 4, 0, 2]
  else [4, 6, 0, 2]
/-- The groups of the reserved wavelengths of a die-edge link (R327). -/
def rsmOrder (c : Nat) : List Nat := if c % 8 = 7 then [6, 4] else [4, 6]

/-- One flit of the first group that has one goes over the link; after its last flit the packet is at the next router, at its
target, or in the ingress buffer of its splice. -/
def sendFlit (s : State) (x y port : Nat) (order : List Nat) : State :=
  match (order.filterMap (s.groupHead x y port)).head? with
  | none => s
  | some (v, k, p) =>
    match p.pos with
    | .link a b inp vc q ov sent =>
      if sent + 1 < flitsOf p then s.setPacket k { p with pos := .link a b inp vc q ov (sent + 1) }
      else
        let r := routerAt x y port
        let there := match onTorus p with | some (_, t) => r == (modX t, modY t) | none => false
        let key := linkKey x y port
        let l := s.link key
        { s with
          net := s.net.set k { p with pos := if there then (if p.splice = 64 then .ready else .ingress) else .router r.1 r.2 (opposite port) (ov % 32) }
          links := s.links.set key { l with q := l.q.set v ((l.q.get [] v).drop 1) } }
    | _ => s

/-- LINK_FLIT_SEND: one cycle of a link (R327). On a die-edge link the control wavelength sends beside the others (R323), and with rv = 1
the two sets of wavelengths each send. -/
def linkFlitSend (s : State) (x y port : Nat) : State :=
  let key := linkKey x y port
  let c := (s.link key).cyc
  let split := match edgeEntry x y port with
    | some i => bits (s.mgmt.conn.get 0xFFFF i).toNat 38 1 == 1 || (s.mgmt.drain && bits (s.mgmt.connOld.get 0xFFFF i).toNat 38 1 == 1)
    | none => false
  let s0 := if (edgeEntry x y port).isSome then s.sendFlit x y port [32, 36] else s
  let s1 := if split then (s0.sendFlit x y port (rsmOrder c)).sendFlit x y port ((linkOrder false c).take 2)
    else s0.sendFlit x y port (linkOrder (s.linkRsv x y port) c)
  let l := s1.link key
  { s1 with links := s1.links.set key { l with cyc := c + 1 + Config.freeWait s.tick } }

/-! ### Splices and merge buffers (R319, R320, R333) -/

/-- The ops that a merge buffer combines (R333). -/
def mergeable (op : Nat) : Bool := decide (op ≤ 4) || op == 11
/-- The combined operand of two requests (R333). -/
def combine (op z : Nat) (a b : BitVec 256) : BitVec 256 :=
  if op = 11 then bitsOfSpool (spoolMerge (spoolOfBits a) (spoolOfBits b) false)
  else BitVec.ofNat 256 (atomicNew op z (a.toNat % 2 ^ (8 * z)) b.toNat 0)

/-- A packet for another die is in the link controller of its splice: a packet between cores enters there from its core, any other
through the die's crossbar (R190, R330). -/
def atController (p : Packet) : Bool := !(heldAtSender p) && (p.pos == .egress || (p.pos == .sender && (onTorus p).isSome))
/-- Two requests travel by one table: the generation that each has taken, or takes as it leaves its core (R339). -/
def sameGen (s : State) (p q : Packet) : Bool :=
  let g (x : Packet) : BitVec 4 := if x.pos == .sender then s.mgmt.gen else x.gen
  g p == g q
/-- The requests that wait at their die for the same word and are alike in op, width, sem and scope, lowest number first, at most
64 (R333). Each may be performed once those before it in the list are: one that an access outside the list holds back is no part, since
the request made of it could wait for itself (R241). -/
def alike (s : State) (k : Nat) (p : Packet) (op z : Nat) : List (Nat × Packet) :=
  let same := s.net.filter (fun x => match x.2.body with
    | .atomic o y _ _ [] => o == op && y == z && x.2.lo == p.lo && x.2.dst == p.dst && x.2.sem == p.sem && x.2.scope == p.scope &&
        atController x.2 && locDie x.2.src == locDie p.src && x.2.from_.part == p.from_.part && decide (k ≤ x.1) && s.sameGen p x.2
    | _ => false)
  (same.foldl (fun (l : List (Nat × Packet)) x => if partBlocked s (l.map (·.1)) x.1 x.2 then l else l ++ [x]) []).take 64

/-- The entry that a packet takes on its way to another die: its splice has room, or no splice is declared and it takes none (log entry
52). A packet on the control wavelength takes none (R320, R323). One that leaves its core here takes the current generation; one that left
its unit before keeps its own (R339). -/
def takeEntry (s : State) (k : Nat) (p : Packet) : State :=
  let q := p.from_.part
  let g := if p.pos == .sender then s.mgmt.gen else p.gen
  let start : Pos := match onTorus p with | some (a, _) => .router (modX a) (modY a) 4 (s.vcBase { p with gen := g }) | none => .crossing
  match s.spliceOf p with
  | none => s.setPacket k { p with pos := start, gen := g }
  | some i =>
    match (s.part q).splices.find? (fun x => x.1 == i) with
    | none => s
    | some (_, e) =>
      if e.held < e.depth then
        (s.setPacket k { p with pos := start, splice := i, gen := g }).modPart q (fun t =>
          { t with splices := t.splices.set i { e with held := e.held + 1, order := e.order ++ [k] } })
      else s

/-- The splice of a packet has a free entry, or it needs none. -/
def hasEntry (s : State) (p : Packet) : Bool :=
  match s.spliceOf p with
  | none => true
  | some i => match (s.part p.from_.part).splices.find? (fun x => x.1 == i) with | some (_, e) => decide (e.held < e.depth) | none => false

/-- SPLICE_EGRESS_ENTER: a packet for another die enters the egress buffer of its splice (R320); the merge buffer may combine it
with alike requests that wait there into one packet (R333). A full splice keeps it waiting in the link controller (R190), with the generation
that it left its core by (R339). -/
def spliceEgressEnter (s : State) (k : Nat) : State :=
  match s.packet k with
  | none => s
  | some p =>
    if !(atController p) || locDie p.src == locDie p.dst then s
    else if !(s.hasEntry p) then (if p.pos = .sender then s.setPacket k { p with pos := .egress, gen := s.mgmt.gen } else s)
    else
      match p.body with
      | .atomic op z b _ [] =>
        let ps : List (Nat × Packet) := s.alike k p op z
        if mergeable op && Config.mergeNow s.tick && decide (2 ≤ ps.length) && ps.head?.map (·.1) == some k && (match p.dst with | .ordUnit _ => false | _ => true) then
          let n := s.seq
          let whole := (ps.drop 1).foldl (fun acc x => match x.2.body with | .atomic _ _ y _ _ => combine op z acc y | _ => acc) b
          let nums := ps.map (·.1)
          let held : Tbl Packet := s.net.map (fun (x : Nat × Packet) => if nums.contains x.1 then (x.1, { x.2 with pos := .merged n }) else x)
          let s1 := { s with
            net := held.set n
              { p with body := .atomic op z whole 0 nums, outb := false, cmd := 0 }
            seq := n + 1 }
          match s1.packet n with
          | some q => s1.takeEntry n q
          | none => s1
        else s.takeEntry k p
      | _ => s.takeEntry k p

/-- A packet leaves its ingress buffer: at its core where it came over the torus, else at the input for inbound traffic of the crossbar or
of the mirror (R330). -/
def deliver (s : State) (k : Nat) (p : Packet) : State :=
  s.setPacket k { p with splice := 64, pos := if (onTorus p).isSome then .ready else .inbound }

/-- SPLICE_INGRESS_DELIVER: the packets of a splice leave in the order they entered egress, and each gives its entry back (R320).
Number 64 names the packets that take no splice. One without a place in the torus comes in only where the die edges of its way carry its
traffic (R323). -/
def spliceIngressDeliver (s : State) (p i : Nat) : State :=
  if i = 64 then
    match s.net.find? (fun x => x.2.pos == .crossing && x.2.splice == 64 && x.2.from_.part == p && s.crossOpen x.2) with
    | some (k, q) => s.deliver k q
    | none => s
  else
    match (s.part p).splices.find? (fun x => x.1 == i) with
    | none => s
    | some (_, e) =>
      match e.order with
      | [] => s
      | k :: t =>
        match s.packet k with
        | none => s
        | some q =>
          if q.pos == .ingress || (q.pos == .crossing && s.crossOpen q) then
            (s.deliver k q).modPart p (fun u => { u with splices := u.splices.set i { e with held := e.held - 1, order := t } })
          else s

/-! ### Crossbars and HBM4 channels (R330 to R332, R344) -/

/-- CROSSBAR_GRANT: one cycle of an output: the requesting input earliest in its order is granted and goes to the end (R331);
while a reservation lives on the die, only the owner of the cycle on an output that runs the rotation (R332). A packet for another die is
then in its link controller. -/
def crossbarGrant (s : State) (die out : Nat) : State :=
  let idle := s.modDie die (fun e => { e with xcyc := e.xcyc.set out (e.xcyc.get 0 out + 1 + Config.freeWait s.tick) })
  match (inputOrder (s.die die) out).find? (fun i => (s.asking die out).any (fun x => s.inputOf x.2 out == i)) with
  | none => idle
  | some i =>
    match (s.asking die out).find? (fun x => s.inputOf x.2 out == i) with
    | none => idle
    | some (k, p) =>
      (s.setPacket k { p with
        pos := if locDie p.dst = die then .ready else .egress, gen := if p.pos == .sender then s.mgmt.gen else p.gen }).granted die out i

/-- HBM_REQUEST_START: one cycle of a channel, in which the first request of a tile that the channel may start does (R344). -/
def hbmRequestStart (s : State) (die ch : Nat) : State :=
  let may (r : HbmReq) : Bool := r.ch == ch && s.channelOpen die ch r.quarter
  let s1 := s.modDie die (fun e => { e with hcyc := e.hcyc.set ch (e.hcyc.get 0 ch + 1 + Config.freeWait s.tick) })
  match (s.die die).hbmq.find? may with
  | none => s1
  | some r =>
    let s2 := s1.modDie die (fun e => { e with hbmq := e.hbmq.erase r })
    match s2.walk r.walk with
    | none => s2
    | some w => s2.setWalk r.walk { w with trans := w.trans.map (fun t => if t.tile = r.tile then { t with started := true } else t) }

/-! ### The die agent at the images of spilled frames (R183 to R186) -/

/-- SPILLED_REQUEST_APPLY: the die agent applies one request to an image, for which it takes a turn at the image's page, or forwards it to
the core of a resident copy. -/
def spilledRequestApply (s : State) (k : Nat) : State :=
  match s.packet k with
  | none => s
  | some p =>
    match p.dst with
    | .agent d =>
      let cid := frefCore p.target
      let f := frefName p.target
      if !(mayApply s k p) || decide (f < 4096) || s.inWriteBack cid (f - 4096) || (s.core cid).dead then s
      else if (s.residentOf cid (f - 4096)).isSome && !(s.core cid).saved then s.setPacket k { p with src := .agent d, dst := .core cid }
      else match s.imageRead cid (f - 4096) with
        | none => s
        | some t => ((t.gatherRequest k cid f p).dropPacket k).applyFrameRequest k cid f (s.residentOf cid (f - 4096)).isNone (.agent d) p
    | _ => s

/-- A fill's end: the 256 bytes stand in the local frame, with copy = 1 and its home, and the entry enters the ready queue. -/
def filled (s : State) (cid : Nat) : State :=
  let c := s.core cid
  match c.filling, c.saved with
  | none, _ => s
  | _, true => s
  | some (j, e), false =>
    let i := e.f - 4096
    let img := s.spillKey cid i
    let h := s.readW img
    let s1 := s.modCore cid (fun c => { c with filling := none })
    if !(hdrAlloc h) then s1.modCore cid (fun c => { c with marks := c.marks.filter (fun m => m != 8 * e.f + e.slot) })
    else
      let key := s.localKey cid j
      let s2 := (s1.copyRange key img 256).writeW key (mkHdr (hdrCb h) true true (hdrAsync h) i)
      s2.modCore cid (fun c => { c with ready := c.ready ++ [{ e with level := slPrio (s.readW (img + 16 + 8 * e.slot)) }] })
/-- FILL_COMPLETE: the die agent takes a turn at the image's page, and the fill ends. -/
def fillComplete (s : State) (cid : Nat) : State :=
  match (s.core cid).filling, (s.core cid).saved with
  | some (_, e), false => match s.imageRead cid (e.f - 4096) with
    | none => s
    | some t => t.filled cid
  | _, _ => s

/-- A write-back's end: the 256 bytes stand in the image, and the local frame is free (R186). -/
def writtenBack (s : State) (cid j : Nat) : State :=
  let key := s.localKey cid j
  let h := s.readW key
  let img := s.spillKey cid (hdrHome h)
  let s1 := ((s.copyRange img key 256).writeW img (mkHdr (hdrCb h) true false 0 0)).writeW key (mkHdr (hdrCb h) false false 0 0)
  (List.range 8).foldl (fun t i => t.writeW (key + 16 + 8 * i) 0) (s1.modCore cid (fun c => { c with wback := c.wback.filter (· != j) }))
/-- WRITE_BACK_COMPLETE: the die agent takes a turn at the image's page, and the write-back ends. -/
def writeBackComplete (s : State) (cid j : Nat) : State :=
  let c := s.core cid
  if c.wback.contains j && !c.saved then
    match s.imageTurn cid (hdrHome (s.readW (s.localKey cid j))) with
    | none => s
    | some t => t.writtenBack cid j
  else s


/-! ### Neighbour ports (R46) -/

/-- A core is in a partition that does not wait for it to be cleared (R6). -/
def settledCore (s : State) (cid : Nat) : Bool :=
  let p := s.partOf cid
  p != 64 && !((s.part p).clearing.contains (dieOf cid, quarterOf (clusOf cid)))
/-- PORT_WORD_ARRIVAL: the word at the head of an outbound FIFO arrives in the neighbour's inbound FIFO of the opposite direction,
once it has room; a saved core's own FIFOs stand as they were saved (R351). A word on its way holds its
entry of the outbound FIFO until it arrives, and it stays there, with no record, while the neighbour is dead or mapped out or either core is in
no partition or in a share that is being cleared (DESIGN CHOICE, log entry 62). -/
def portWordArrival (s : State) (cid dir : Nat) : State :=
  let n := neighbour cid dir
  match (s.core cid).outq.get [] dir with
  | [] => s
  | w :: t =>
    let q := (s.core n).inq.get [] (opposite dir)
    if 4 ≤ dir ∨ 16 ≤ q.length ∨ (s.core n).dead ∨ (s.core cid).saved ∨ s.settledCore cid = false ∨ s.settledCore n = false then s
    else (s.modCore cid (fun c => { c with outq := c.outq.set dir t })).modCore n (fun c => { c with inq := c.inq.set (opposite dir) (q ++ [w]) })

/-! ### Refusals (R368) -/

/-- The core that a packet is for: a spilled frame's request is for the frame's core. The old values of a merged atomic are for the link
controller that merged its parts (R334), what comes back to a walk for its engine, and neither for a core. -/
def targetCid (p : Packet) : Option Nat :=
  match p.body, p.dst with
  | .oldValues _, _ => none
  | .moves _ 1 _ _, _ => none
  | .tableWord .., _ => none
  | .migrate .., _ => none
  | _, .core c => some c
  | _, .agent _ => some (frefCore p.target)
  | _, _ => none

/-- PACKET_REFUSED: the router next to a dead core refuses a packet for it (R368): a walk's moves stop the walk, each part of a merged
request is refused in its own frame, the mrot of a refused tile leaves the queue of its core, and any other packet is refused as refuseOne
says. -/
def packetRefused (s : State) (k : Nat) : State :=
  match s.packet k with
  | none => s
  | some p =>
    match targetCid p with
    | none => s
    | some c =>
      if p.pos == .ready && (s.core c).dead then
        match p.body with
        | .moves n _ _ _ => match s.walk n with | none => s.dropPacket k | some w => (s.dropPacket k).walkFault n w 0x38
        | .atomic _ _ _ _ (x :: xs) => (s.partsOf (x :: xs)).foldl (fun t y => (t.dropPacket y.1).refuseOne y.2) (s.dropPacket k)
        | .tile _ _ _ m => match p.src with
          | .core sc => ((s.dropPacket k).dropMcmd sc m).refuseOne p
          | _ => (s.dropPacket k).refuseOne p
        | _ => (s.dropPacket k).refuseOne p
      else s

end State

/-- SPILLED_REQUEST_APPLY (R183). -/
def execSpilledRequestApply (pkt : Nat) (s : State) : Out := .next (s.spilledRequestApply pkt)
/-- FILL_COMPLETE (R185). -/
def execFillComplete (cid : Nat) (s : State) : Out := .next (s.fillComplete cid)
/-- WRITE_BACK_COMPLETE (R186). -/
def execWriteBackComplete (cid f : Nat) (s : State) : Out := .next (s.writeBackComplete cid f)
/-- ROUTER_HOP (R325). -/
def execRouterHop (pkt : Nat) (s : State) : Out := .next (s.routerHop pkt)
/-- LINK_FLIT_SEND (R327). -/
def execLinkFlitSend (x y port : Nat) (s : State) : Out := .next (s.linkFlitSend x y port)
/-- CROSSBAR_GRANT (R331, R332). -/
def execCrossbarGrant (die out : Nat) (s : State) : Out := .next (s.crossbarGrant die out)
/-- HBM_REQUEST_START (R344). -/
def execHbmRequestStart (die ch : Nat) (s : State) : Out := .next (s.hbmRequestStart die ch)
/-- SPLICE_EGRESS_ENTER (R320, R333). -/
def execSpliceEgressEnter (pkt : Nat) (s : State) : Out := .next (s.spliceEgressEnter pkt)
/-- SPLICE_INGRESS_DELIVER (R320). -/
def execSpliceIngressDeliver (p splice : Nat) (s : State) : Out := .next (s.spliceIngressDeliver p splice)
/-- PORT_WORD_ARRIVAL (R46). -/
def execPortWordArrival (cid dir : Nat) (s : State) : Out := .next (s.portWordArrival cid dir)
/-- PACKET_REFUSED (R368). -/
def execPacketRefused (pkt : Nat) (s : State) : Out := .next (s.packetRefused pkt)

end Sys2Proof.Machine
end

