-- ==== Sys2Proof/Machine/Launch.lean ====
section
/-! DEFINITION. Graph images, launches, the pending pool, instances and the submission ring (R284 to R303). -/

namespace Sys2Proof.Machine

/-- R285: the graph and argument count of a launch packet's word 0. -/
def pkGraph (w : Word) : Nat := bits w.toNat 0 16
/-- Argument words of a launch packet. -/
def pkArgs (w : Word) : Nat := bits w.toNat 16 3
/-- A handle (R286). -/
def mkHandle (seq : BitVec 32) (orig die : Nat) : Word := BitVec.ofNat 64 (seq.toNat + orig * 2 ^ 32 + die * 2 ^ 39)
/-- The die of a handle. -/
def handleDie (h : Word) : Nat := bits h.toNat 39 4

/-- A die's quarter numbers, for a share. -/
def quartersOf (sh : List (Nat × Nat)) : List (Nat × Nat) :=
  sh.flatMap (fun x => if x.2 = 4 then (List.range 4).map (fun q => (x.1, q)) else [x])

namespace State

/-- A partition exists while a current region entry uses its number (R341); while every die stays in reset there is none (R376). -/
def partExists (s : State) (p : Nat) : Bool := s.mgmt.ok && !(partDies s.mgmt.region p).isEmpty
/-- PSTAT.state (R6, R349): 5 while a gained share is being cleared. -/
def partState (s : State) (p : Nat) : Nat := if (s.part p).clearing.isEmpty then (s.part p).state else 5
/-- The draining commit takes something from a partition (R341). -/
def losing (s : State) (p : Nat) : Bool :=
  s.mgmt.drain && !((quartersOf (partDies s.mgmt.regionOld p)).all (fun x => (quartersOf (partDies s.mgmt.region p)).contains x))
/-- The partition runs: it exists and its state is 0. While a commit that takes something from it drains, it consumes no entry of its ring
and starts nothing (log entry 71). -/
def partRuns (s : State) (p : Nat) : Bool := s.partExists p && s.partState p == 0 && !(s.losing p)

/-- The graph number of a launch exists in the partition's image (R285). -/
def graphCount (s : State) (p : Nat) : Nat := match (s.part p).image with | some i => i.graphs.length | none => 0
/-- R285: a launch packet is malformed. -/
def malformed (s : State) (p : Nat) (w : Word) : Bool :=
  decide (s.graphCount p ≤ pkGraph w) || decide (6 < pkArgs w) || bits w.toNat 19 45 != 0
/-- R286: a handle is well formed in a partition. -/
def handleOk (s : State) (p : Nat) (h : Word) : Bool :=
  bits h.toNat 43 21 == 0 && (decide (bits h.toNat 32 7 < 100) || bits h.toNat 32 7 == 127) && (s.shares p).any (fun x => x.1 == handleDie h)

/-! ### The pool and the instance table (R292, R294) -/

/-- The quarter of a partition's share of a die, 4 for the whole die. -/
def shareOf (s : State) (p d : Nat) : Nat := match (s.shares p).find? (fun x => x.1 == d) with | some x => x.2 | none => 4
/-- Pool entries of a partition on a die. -/
def poolSize (s : State) (p d : Nat) : Nat := if s.shareOf p d = 4 then 2048 else 512
/-- Records of the instance table of a partition on a die. -/
def tableSize (s : State) (p d : Nat) : Nat := if s.shareOf p d = 4 then 4096 else 1024
/-- The clusters of a partition on a die. -/
def clustersOf (s : State) (p d : Nat) : List Nat := ((List.range 100).map (d * 100 + ·)).filter (s.clusterIn p)
/-- Free pool entries: neither held by a pending launch nor lent to a cluster. -/
def poolFree (s : State) (p d : Nat) : Nat :=
  s.poolSize p d - (s.insts.filter (fun x => x.2.part == p && x.2.die == d && x.2.state == 0)).length -
    ((s.clustersOf p d).map (fun k => (s.cluster k).credit)).sum
/-- The records of a partition on a die: instances that have started. -/
def records (s : State) (p d : Nat) : Tbl Inst := s.insts.filter (fun x => x.2.part == p && x.2.die == d && x.2.state != 0)
/-- The ended record that ended earliest. -/
def oldest : Tbl Inst → Option (Nat × Nat)
  | [] => none
  | (k, i) :: t =>
    match i.state == 2, oldest t with
    | true, some (m, e) => if i.ended ≤ e then some (k, i.ended) else some (m, e)
    | true, none => some (k, i.ended)
    | false, r => r
/-- Room for one more record: the table with the place of the earliest ended record reused where it is full (R294). -/
def makeRoom (s : State) (p d : Nat) : Option State :=
  if (s.records p d).length < s.tableSize p d then some s
  else (oldest (s.records p d)).map (fun x => { s with insts := s.insts.erase x.1 })

/-- Some instance of a partition is live: started and not ended (R288). -/
def anyLive (s : State) (p : Nat) : Bool := s.insts.any (fun x => x.2.part == p && x.2.state == 1)
/-- The graph of an instance is paced (R254). -/
def isPaced (s : State) (k : Nat) : Bool := match s.graphOf k with | some g => g.pace.isSome | none => false
/-- A paced instance is live on a partition (R254). -/
def pacedLive (s : State) (p : Nat) : Bool := s.insts.any (fun x => x.2.part == p && x.2.state == 1 && s.isPaced x.1)

/-! ### The end of an instance (R288, R299, R302) -/

/-- Vector 1 + p is sent while CINT = 1 (R348). -/
def interrupt (s : State) (p : Nat) : State := if (s.part p).cint then { s with msi := (1 + p) :: s.msi } else s
/-- A completion record: bytes 0 to 15, then the reason with bit 8 (R302). -/
def writeRecord (s : State) (p addr : Nat) (handle tag : Word) (reason : Nat) : State :=
  if addr = 0 then s
  else
    let k := hbmKey addr
    ((((s.writeW k handle).writeW (k + 8) tag).writeW (k + 16) (BitVec.ofNat 64 (reason + 256))).writeW (k + 24) 0).interrupt p

/-- The turn that writing an instance's completion record takes: the launch agent's on the record's die, where the host has named one (R302,
R330). -/
def recordTurn (s : State) (i : Inst) : Option State := if i.host && i.record != 0 then s.agentAccess (i.record % 2 ^ 40) 100 else some s

/-- The cores' contexts and units changed where a function says, on every core that has been touched. -/
def mapCores (s : State) (g : Nat → Core → Core) : State := { s with cores := s.cores.map (fun x => (x.1, g x.1 x.2)) }

/-- The pacing record of a partition's cores dropped; the step state that a core has yet to take stays due (R254). -/
def dropPace (s : State) (p : Nat) : State :=
  s.mapCores (fun c x => if s.coreIn p c then { x with pace := none, nextPace := x.nextPace.map (fun _ => none), stepds := [] } else x)

/-- The agent that acts for an instance, for the sender of a signal: the launch agent has FREF 0 (R361). -/
def agentIssuer (p k : Nat) : Issuer := { fref := 0, cid := 0, fid := 0, pc := 0, inst := k, part := p }

/-- The instance table with the record of an instance that ends. One that ends before it has started takes a place in the table as any
record does, that of the record which ended earliest where the table is full; where all its records live there is none (R294). -/
def endRecord (s : State) (k : Nat) (i : Inst) (reason : Nat) : State :=
  let r : Inst := { i with state := 2, reason := reason, ended := s.seq, waiters := [], stopping := 0 }
  if i.state = 0 then
    match s.makeRoom i.part i.die with
    | some t => { t with insts := t.insts.set k r, seq := t.seq + 1 }
    | none => { s with insts := s.insts.erase k, seq := s.seq + 1 }
  else ({ s with insts := s.insts.set k r, seq := s.seq + 1 }).unpin

/-- The end of an instance (R288): the record is marked and its leases' pins are gone (R311), the completion slot is signalled with count
1 where its reference is not 0, and the host's record is written, which shows the host what the instance wrote. Those who asked for its end with gcan are answered (R299). The partition
is not quiescent in the cycle of an end (R369). -/
def endInst (s : State) (k : Nat) (i : Inst) (reason : Nat) : State :=
  let s1 := (s.endRecord k i reason).modPart i.part (fun q => { q with quiesced := false })
  let s2 := match i.comp with
    | none => s1
    | some 0 => s1
    | some r => (s1.bindTo (.cover s1.seq) (fun e => e.inst == k)).sendSignal (.launch i.die) (agentIssuer i.part k) r 1 1 3
  let s3 := if i.host then (s2.bindTo .host (fun e => e.inst == k)).writeRecord i.part i.record i.handle i.tag reason else s2
  let s4 := if i.state = 1 ∧ s.isPaced k then s3.dropPace i.part else s3
  i.waiters.foldl (fun t n => match t.packet n with
    | some p => (t.dropPacket n).sendReply (.launch i.die) p 1 false
    | none => t) s4

/-- The held step requests of an instance are discarded and signal nothing (R254). -/
def dropHeld (s : State) (k : Nat) : State :=
  let held := (s.cores.flatMap (fun x => x.2.heldq)).filter (fun n => match s.packet n with | some p => p.from_.inst == k | none => false)
  let s1 := s.mapCores (fun _ x => { x with heldq := x.heldq.filter (fun n => !(held.contains n)) })
  held.foldl (fun t n => match t.packet n with
    | some p => (t.dropPacket n).finishCmd p.cmd 0 0 []
    | none => t) s1

/-- A running instance begins to end (1 by policy, 2 by gcan): its entries are dispatched no more, and its running firings end
(R299). -/
def stopInst (s : State) (k n : Nat) : State :=
  match s.inst k with
  | none => s
  | some i =>
    if i.state != 1 || i.stopping != 0 then s
    else
      let s1 := s.setInst k { i with stopping := n }
      let out (c : Ctx) : Ctx := if c.busy ∧ c.inst = k then Ctx.init else c
      (s1.mapCores (fun _ x => { x with ctx0 := out x.ctx0, ctx1 := out x.ctx1 })).dropHeld k

/-- The frames that an instance holds on a core: names whose owner it is and whose header says allocated. A local frame that is a copy of a
spilled one is held under its spilled name. -/
def framesOf (s : State) (cid : Nat) (c : Core) (k : Nat) : List Nat :=
  (c.owners.filter (fun x => x.2.inst == k && hdrAlloc (s.readW (s.frameKey cid x.1)) &&
    !(decide (x.1 < 4096) && hdrCopy (s.readW (s.frameKey cid x.1))))).map (·.1)
/-- A copy of one of its frames is being written back. -/
def inWriteBackOf (s : State) (k : Nat) : Bool :=
  s.cores.any (fun x => x.2.wback.any (fun j =>
    (x.2.owners.get { inst := 0, depth := 0, limit := 0 } (4096 + hdrHome (s.readW (s.localKey x.1 j)))).inst == k))
/-- The instance holds a frame somewhere. -/
def holdsFrame (s : State) (k : Nat) : Bool := s.cores.any (fun x => !(s.framesOf x.1 x.2 k).isEmpty)
/-- One of its slot references waits in a ready queue or fill list. -/
def hasEntry0 (s : State) (k : Nat) : Bool :=
  s.cores.any (fun x => (x.2.ready ++ x.2.fill).any (fun e => (x.2.owners.get { inst := 0, depth := 0, limit := 0 } e.f).inst == k) ||
    (match x.2.filling with | some y => (x.2.owners.get { inst := 0, depth := 0, limit := 0 } y.2.f).inst == k | none => false))
/-- One of its commands is outstanding. -/
def hasCmd (s : State) (k : Nat) : Bool := s.cmds.any (fun x => x.2.from_.inst == k)
/-- An access of its firings is not yet performed, or a copy of a write to a replicated page does not hold it yet: the completion signal
passes them all (R250, R288). -/
def hasAccess (s : State) (k : Nat) : Bool :=
  s.net.any (fun x => x.2.from_.inst == k && (x.2.outb || (match x.2.body with | .replica .. => true | _ => false)))

/-- Every frame of an instance freed, local and spilled, and its entries discarded (R299). -/
def freeFrames (s : State) (k : Nat) : State :=
  let mine (c : Core) (e : Ready) : Bool := (c.owners.get { inst := 0, depth := 0, limit := 0 } e.f).inst == k
  let s1 := s.cores.foldl (fun t x => (s.framesOf x.1 x.2 k).foldl (fun u f =>
    let v := u.clearFrame (s.frameKey x.1 f)
    if f < 4096 then v else v.clearFrame (s.spillKey x.1 (f - 4096))) t) s
  s1.mapCores (fun _ c =>
    let gone := (c.ready ++ c.fill).filter (mine c)
    { c with ready := c.ready.filter (fun e => !(mine c e)), fill := c.fill.filter (fun e => !(mine c e))
             marks := c.marks.filter (fun m => !(gone.any (fun e => 8 * e.f + e.slot == m))) })

/-- The completion signal of one of its commands is on its way. -/
def signalsOf (s : State) (k : Nat) : Bool :=
  s.net.any (fun x => x.2.from_.inst == k && (match x.2.body with | .signal _ _ _ _ src => src == 1 | _ => false))

/-- INSTANCE_END: a running instance with no frame, entry or command left has completed; one that is being ended frees its frames
once its commands are done, their signals are applied and no copy of them is being written back (R186, R288, R299; log entry 70). The
completion record of a host launch is written in a turn of the launch agent's (R330). -/
def instanceEnd (s : State) (k : Nat) : State :=
  match s.inst k with
  | none => s
  | some i =>
    if i.state != 1 || !i.started || s.hasCmd k || s.hasAccess k then s
    else if (if i.stopping != 0 then s.inWriteBackOf k || s.signalsOf k else s.holdsFrame k || s.hasEntry0 k) then s
    else match s.recordTurn i with
      | none => s
      | some t => if i.stopping != 0 then (t.freeFrames k).endInst k i i.stopping else t.endInst k i 0

/-- An instance that ends at its start without a frame: a kind-3 record with word 2 = 0, no policy, reason stopped (R287). -/
def failStart (s : State) (k : Nat) (i : Inst) (code : Code) : State :=
  (s.addFault
    { kind := 3, code := code, part := i.part, inst := k, handle := i.handle, cid := i.die * 25600, f := 8192, w2 := 0, w3 := 0
      rest := [], cmds := [], ext := [], cb := none, own := 0, acts := false }).endInst k i 1

/-! ### The start of an instance (R287, R291, R292, R307, R321) -/

/-- R307: the descriptor of every tensor that a graph leases is valid. -/
def descsOk (s : State) (p : Nat) (g : Graph) : Bool :=
  g.leases.all (fun l => let w := s.descOf p l.tid; descValid w (s.hbmIn p (tensOf w).root))
/-- R311: every page entry that a graph's leases cover is mapped and meets R308. -/
def leasesResident (s : State) (p : Nat) (g : Graph) : Bool :=
  g.leases.all (fun l => let x := tensOf (s.descOf p l.tid); (List.range l.count).all (fun j => s.tileMapped p x (l.first + j)))
/-- A table entry as the launch agent of a pending launch sees it: read at once on its own die, and by a packet on another (R318). An
error is the address of an entry that it has not received. -/
def launchEntry (s : State) (i : Inst) (a : Nat) : Except Nat Word :=
  if a / 2 ^ 36 = i.die then .ok (s.seenW (launchReader (instKey i.part i.handle)) (hbmKey a)) else match i.tabs.find? (fun x => x.1 == a) with | some x => .ok x.2 | none => .error a
/-- A tile is mapped and meets R308 by the entries that the launch agent sees. -/
def tileSeen (s : State) (i : Inst) (x : Tens) (tile : Nat) : Except Nat Bool :=
  match rootAddr x tile with
  | none => .ok false
  | some ra =>
    match s.launchEntry i ra with
    | .error a => .error a
    | .ok r =>
      match s.leafAddr i.part r tile with
      | none => .ok false
      | some a => match s.launchEntry i a with | .error b => .error b | .ok e => .ok (s.pageOf i.part e).isSome
/-- The residency of a graph's leases as the launch agent sees it (R292, R311, R318). -/
def leasesSeen (s : State) (i : Inst) (g : Graph) : Except Nat Bool :=
  (g.leases.flatMap (fun l => (List.range l.count).map (fun j => (l.tid, l.first + j)))).foldl (fun r x =>
    match r with
    | .ok true => s.tileSeen i (tensOf (s.descOf i.part x.1)) x.2
    | _ => r) (.ok true)
/-- The entries of its own die that the launch agent reads for a graph's leases. -/
def leaseReads (s : State) (i : Inst) (g : Graph) : List Nat :=
  let tiles := g.leases.flatMap (fun l => (List.range l.count).map (fun j => (l.tid, l.first + j)))
  let reads := tiles.flatMap (fun x => match rootAddr (tensOf (s.descOf i.part x.1)) x.2 with
    | none => []
    | some ra => ra :: (match s.launchEntry i ra with | .ok r => (s.leafAddr i.part r x.2).toList | .error _ => []))
  reads.filter (fun a => a / 2 ^ 36 == i.die)
/-- The turns that those reads take: a cycle of each channel group that they go to, and one of the mirror for the words that return (R330;
log entry 24). -/
def leaseTurn (s : State) (i : Inst) (g : Graph) : Option State :=
  let groups := (s.leaseReads i g).foldl (fun l a => if l.any (fun b => outputOf (pageLoc b) == outputOf (pageLoc a)) then l else l ++ [a]) []
  match groups with
  | [] => some s
  | a :: _ => (groups.foldl (fun (o : Option State) b => o.bind (·.agentAccess b 100)) (some s)).bind
      (fun t => t.takeTurn i.die 164 (outputOf (pageLoc a)))
/-- What those reads leave (R250). -/
def sawLeases (s : State) (i : Inst) (g : Graph) : State :=
  (s.leaseReads i g).foldl (fun t a => t.saw (launchReader (instKey i.part i.handle)) (hbmKey a) 8) s
/-- A packet between the launch agent of a pending launch and a table entry on another die. -/
def isLaunchTable (p : Packet) (k : Nat) : Bool :=
  match p.body, p.src, p.dst with
  | .tableRead m _, .launch _, _ => m == k
  | .tableWord m _ _, _, .launch _ => m == k
  | _, _, _ => false
/-- The launch agent asks for an entry, unless a request of the launch is on its way already. -/
def askLaunchEntry (s : State) (k : Nat) (i : Inst) (a : Nat) : State :=
  if s.net.any (fun x => isLaunchTable x.2 k) then s
  else s.send { packetOf (.tableRead k a) (.launch i.die) (pageLoc a) 0 (agentIssuer i.part k) with bulk := true }
/-- A table packet of a pending launch that has reached its end: the entry goes back to the launch agent, or into what it has received. -/
def launchEntryArrive (s : State) (n k : Nat) (p : Packet) : State :=
  match p.body with
  | .tableRead .. => s.tableArrive n p
  | .tableWord _ a v => (s.dropPacket n).modInst k (fun i => { i with tabs := i.tabs.set a v })
  | _ => s

/-- A die-edge link can carry a partition's traffic (R323, R343). -/
def edgeCarries (s : State) (p i : Nat) : Bool :=
  let e := (s.mgmt.conn.get 0xFFFF i).toNat
  if partRsv s.mgmt.region p then bits e 38 1 == 1 && bits e 32 6 == p && bits e 16 16 != 0 else bits e 0 16 != 0

end State

/-- The die columns or rows that minimal routes pass from one to another, with the sides they leave by: one step either way, two
steps both ways (R317). up is the side toward increasing coordinates, down the other. -/
def dieSteps (a b up down : Nat) : List (Nat × Nat) :=
  match (b + 4 - a) % 4 with
  | 0 => []
  | 1 => [(a, up)]
  | 2 => [(a, up), ((a + 1) % 4, up), (a, down), ((a + 3) % 4, down)]
  | _ => [(a, down)]
/-- The die columns or rows that minimal routes may lie in. -/
def dieLines (a b : Nat) : List Nat :=
  match (b + 4 - a) % 4 with
  | 0 => [a]
  | 2 => [0, 1, 2, 3]
  | _ => [a, b]
/-- The die edges that some minimal route between two dies crosses, as indices of the connection table (R317, R322). -/
def routeEdges (src dst : Nat) : List Nat :=
  let xs := (dieSteps (src % 4) (dst % 4) 1 3).flatMap (fun x => (dieLines (src / 4) (dst / 4)).map (fun r => 4 * (r * 4 + x.1) + x.2))
  let ys := (dieSteps (src / 4) (dst / 4) 2 0).flatMap (fun y => (dieLines (src % 4) (dst % 4)).map (fun c => 4 * (y.1 * 4 + c) + y.2))
  xs ++ ys

namespace State

/-- R321: every splice of a graph can carry the partition's traffic. -/
def splicesPass (s : State) (p : Nat) (g : Graph) : Bool :=
  g.splices.all (fun i => match (s.part p).splices.find? (fun x => x.1 == i) with
    | some x => (routeEdges x.2.src x.2.dst).all (s.edgeCarries p)
    | none => true)

/-- Packets dropped on their way: they leave the queues of the links too. -/
def dropFromLinks (s : State) (ks : List Nat) : State :=
  { s with
    net := s.net.filter (fun x => !(ks.contains x.1))
    links := s.links.map (fun x => (x.1, { x.2 with q := x.2.q.map (fun y => (y.1, y.2.filter (fun k => !(ks.contains k)))) })) }
/-- The pacing record given to every core of a partition (R254). Notices of an earlier paced instance are void: no known value is
ever ahead of the real one (R256). -/
def startPace (s : State) (p : Nat) (g : Graph) : State :=
  match g.pace with
  | none => s
  | some pc =>
    let gone := (s.net.filter (fun x => match x.2.body, x.2.dst with | .notice .., .core c => s.coreIn p c | _, _ => false)).map (·.1)
    let s1 := s.dropFromLinks gone
    (s.partCores p).foldl (fun t c => (t.modCore c (fun x => { x with nextPace := some (some pc) })).settlePace c) s1

/-- The keys at which a section is copied: every core, cluster or die of the partition (R72, R206). -/
def sectionKeys (s : State) (p : Nat) (x : Section) : List Nat :=
  match x.level with
  | 0 => (s.partCores p).map (fun c => coreKey c x.off)
  | 1 => ((s.shares p).map (fun y => y.1)).flatMap (fun d => (s.clustersOf p d).map (fun k => clusterKey k x.off))
  | _ => (s.shares p).map (fun y => dieKey y.1 (if y.2 = 4 then 0 else y.2) x.off)
/-- A list of bytes at a key cut into the pieces that lie in one aligned 8-byte word each. -/
def wordPieces (k : Nat) (bs : List Byte) : List (Nat × List Byte) :=
  (List.range ((k + bs.length + 7) / 8 - k / 8)).map (fun j =>
    let lo := max k ((k / 8 + j) * 8)
    (lo, (bs.drop (lo - k)).take ((k / 8 + j + 1) * 8 - lo)))
/-- The writes that copy the sections of a graph for a host launch (R72, R287): each of at most 8 bytes. -/
def sectionWrites (s : State) (p : Nat) (g : Graph) : List (Nat × List Byte) :=
  g.sections.flatMap (fun x => (s.sectionKeys p x).flatMap (fun k => wordPieces k x.bytes))
/-- A launch agent's access to a unit of its die takes a cycle of the output on its way: of the mirror to a core or a cluster, of the
crossbar to a slice (R330). -/
def agentTurn (s : State) (l : Loc) : Option State := s.takeTurn (locDie l) (outputOf l) (if atCluster l then 60 else 100)
/-- One of the writes that an instance's copy still owes, in no order (R72): which one is free (log entry 9). A core that is dead or mapped out
takes its bytes like any other, with no refusal (DESIGN CHOICE, log entry 77). -/
def copyPiece (s : State) (k : Nat) (i : Inst) : State :=
  let n := Config.freeWait s.tick % i.copy.length
  match i.copy[n]? with
  | none => s
  | some x =>
    match s.agentTurn (s.unitOf x.1) with
    | none => s
    | some t => (t.writeBytes x.1 x.2).setInst k { i with copy := i.copy.eraseIdx n }

/-- start of R287 at the root core: a frame by R182, its header, slots, parent word and arguments, then fire on slot 0. -/
def startRoot (s : State) (k : Nat) (i : Inst) (cid cb : Nat) : State :=
  if (s.core cid).dead then s.failStart k { i with started := true } 0x38
  else match s.takeFrame cid with
    | none => s.failStart k { i with started := true } 0x13
    | some f =>
      let image := decide (4096 ≤ f)
      let t := ((s.setInst k { i with started := true }).freshFrame cid f).writeFrame cid f cb (BitVec.ofNat 64 (i.comp.getD 0))
        { inst := k, depth := i.depth, limit := i.limit } []
      let u := (List.range i.args.length).foldl (fun v j => v.writeW (s.frameKey cid f + 80 + 8 * j) (i.args.getD j 0)) t
      (u.bindTo (.slot cid f 0) (fun e => e.bound.contains (.inst k))).signalSlot cid f 0 (s.slotKey cid f 0) image
        [{ val := 0, bytes := 0, fire := true, from_ := agentIssuer i.part k, source := 3 }]

/-- The turns that starting the root takes: the request goes to the core through the mirror crossbar, the image of a spilled frame is written,
and a start that fails writes its completion record (R287, R330). -/
def rootTurn (s : State) (i : Inst) (root : Nat) : Option State :=
  (s.agentTurn (.core root)).bind (fun t =>
    if (s.core root).dead then t.recordTurn i
    else match s.takeFrame root with
      | none => t.recordTurn i
      | some f => t.frameTurn root f)
/-- A launch agent that has the multicast computes place, and acts where its die holds the root core (R291), once the sections are
copied; R72 asks that of the first firing, and a launch that finds no frame has then copied its sections (DESIGN CHOICE, log entry 77). An
instance that is already being ended starts no frame. -/
def castAt (s : State) (d k : Nat) : State :=
  match s.inst k with
  | none => s
  | some i =>
    if i.state != 1 || i.started || !i.copy.isEmpty || i.cast.contains d || !((s.shares i.part).any (fun x => x.1 == d)) then s
    else
      let j := { i with cast := i.cast ++ [d] }
      match s.graphOf k with
      | none => s
      | some g =>
        let root := s.place i.part g.root i.key
        if dieOf root != d then s.setInst k j
        else if i.stopping != 0 then s.setInst k { j with started := true }
        else match s.rootTurn i root with
          | none => s
          | some t => t.startRoot k j root g.root

/-- A launch's partition runs, and every die of it is pinned where it is reserved (R345). -/
def mayStart (s : State) (i : Inst) : Bool :=
  s.partRuns i.part && (!(partRsv s.mgmt.region i.part) || (s.shares i.part).all (fun x => (s.die x.1).pinned))
/-- The entries that a waiting launch has received are read again (R292, R311). -/
def forgetTabs (s : State) (k : Nat) : State := s.modInst k (fun i => { i with tabs := [] })
/-- A launch that fails at its start, once its completion record has its turn (R287, R330). -/
def failAtStart (s : State) (k : Nat) (i : Inst) (code : Code) : State :=
  match s.recordTurn i with | none => s | some t => t.failStart k i code
/-- A launch leaves the pool and is live: the sections that it owes are listed, and its pacing record is given out (R72, R254, R287). -/
def beginInst (s : State) (k : Nat) (i : Inst) (g : Graph) : State :=
  let owed := if i.host then s.sectionWrites i.part g else []
  (((s.setInst k { i with state := 1, cast := [], copy := owed, tabs := [] }).startPace i.part g).unquiet i.part).castAt i.die k

/-- INSTANCE_START: a pooled launch whose conditions hold leaves the pool and starts (R287, R292). A table entry of another die that has
come for the launch is taken first, and one that the residency of its leases needs is asked for; where the launch waits for anything, the
agent reads the entries again (R318), and it starts only where the leases are resident at that moment too (R292, R311). The sections of a host launch are copied
before its first firing, one write at a time, and other instances' firings may see some of the writes (R72). A copy under way goes on
to its last write, also while the instance is being ended or its partition is stopping, saving or saved (DESIGN CHOICE, log entry 63). -/
def instanceStart (s : State) (k : Nat) : State :=
  match s.net.find? (fun x => isLaunchTable x.2 k && s.tableReady x.2) with
  | some (n, p) => s.launchEntryArrive n k p
  | none =>
  match s.inst k, s.graphOf k with
  | some i, some g =>
    if i.state = 1 ∧ i.copy ≠ [] then
      let t := s.copyPiece k i
      t.castAt i.die k
    else if i.state != 0 || !i.arrived then s
    else if !(s.mayStart i) then s.forgetTabs k
    else if !(s.descsOk i.part g) then s.failAtStart k i 0x22
    else if (g.pace.isSome && s.pacedLive i.part) || (s.makeRoom i.part i.die).isNone then s.forgetTabs k
    else match s.leaseTurn i g with
      | none => s
      | some t =>
        let u := t.sawLeases i g
        match s.leasesSeen i g with
        | .error a => u.askLaunchEntry k i a
        | .ok b =>
          if !b || !(s.leasesResident i.part g) then u.forgetTabs k
          else match u.makeRoom i.part i.die with
            | none => s
            | some v => if !(u.splicesPass i.part g) then u.failAtStart k i 0x15 else v.beginInst k i g
  | _, _ => s

/-- LAUNCH_REQUEST: a launch request reaches its launch agent and waits in the pool (R292). -/
def launchRequest (s : State) (n : Nat) : State :=
  match s.packet n with
  | none => s
  | some p =>
    match p.body with
    | .launch k =>
      if mayApply s n p then ((s.bindTo (.inst k) (fun e => passesOwn n p e || passesOn p e)).dropPacket n).modInst k (fun i => { i with arrived := true })
      else s
    | _ => s

/-- CREDIT_LEND: one free entry goes to the cluster in need with the smallest counter, the lowest index among equals (R292). -/
def creditLend (s : State) (d p : Nat) : State :=
  let cs := (s.clustersOf p d).filter (fun k => (s.cluster k).need && decide ((s.cluster k).credit < 32))
  let least := cs.foldl (fun b k => match b with
    | none => some k
    | some m => if (s.cluster k).credit < (s.cluster m).credit then some k else b) (none : Option Nat)
  match least with
  | none => s
  | some k =>
    if s.poolFree p d = 0 then s
    else s.modCluster k (fun c => { c with credit := c.credit + 1, need := decide (c.credit + 1 < 32) })

/-! ### glaunch, gquery, gcan (R296 to R299) -/

/-- glaunch (R297): the packet is read as the pipeline sees it (R246). -/
def glaunch (f : WForm) (s0 : State) : Except Code State := do
  let (a, s1) ← s0.readS f.a
  let (c, s) ← s1.readS f.c
  need (a.toNat % 64 = 0) 0x03
  need (a.toNat + 64 ≤ 0x20000) 0x04
  let key := coreKey s.cur.1 a.toNat
  need (!(s.poisoned key 64)) 0x21
  let word (n : Nat) : Word := s.seenW s.pipeReader (key + n)
  let w := word 0
  let p := s.myPart
  need (!(s.malformed p w)) 0x12
  let slot ← s.compSlot f.c c
  let clid := clidOf s.cur.1
  let cl := s.cluster clid
  let pd := f.fld 14 3
  let depth := s.ctx.depth + 1
  if s.ctx.limit < depth ∨ cl.credit = 0 then do
    need (pd != 0) 0x30
    ((s.saw s.pipeReader key 64).writeP pd false).writeS f.d 0
  else do
    let h := mkHandle cl.seqno (clusOf s.cur.1) (dieOf s.cur.1)
    let k := instKey p h
    let i : Inst :=
      { part := p, handle := h, graph := pkGraph w, key := word 8
        args := (List.range (pkArgs w)).map (fun j => word (16 + 8 * j)), depth := depth, limit := s.ctx.limit, comp := slot
        state := 0, reason := 0, arrived := false, cast := [], credit := true, die := dieOf s.cur.1
        quarter := s.shareOf p (dieOf s.cur.1), stopping := 0, waiters := [], record := 0, tag := 0, host := false, ended := 0
        started := false, copy := [] }
    let s2 := ((s.saw s.pipeReader key 64).modCluster clid (fun c => { c with
      credit := c.credit - 1, need := c.need || decide (c.credit - 1 < 16), seqno := c.seqno + 1 })).setInst k i
    let q := s2.notice (.launch k) (.launch (dieOf s.cur.1)) s2.ctx.fref
    let s3 := s2.send (s2.withRelease q 3 4)
    (s3.writeP pd true).writeS f.d h

/-- gquery and gcan (R298, R299): the request goes to the launch agent of the handle's die. -/
def askRecord (minor : Nat) (f : WForm) (s0 : State) : Except Code State := do
  let (a, s1) ← s0.readS f.a
  let (c, s) ← s1.readS f.c
  let slot ← s.compSlot f.c c
  need (s.handleOk s.myPart a) 0x12
  s.asyncRoom
  let (s4, id) := s.newCmd 0x3C minor
  let q := s4.notice (if minor = 1 then .gquery a else .gcan a) (.launch (handleDie a)) s4.ctx.fref
  pure (s4.send { q with ret := { ow := f.ow, slot := slot, bytes := 8 }, cmd := id })

/-- The word of gquery (R298). -/
def queryWord (s : State) (k : Nat) : Word :=
  match s.inst k with
  | none => 3
  | some i => BitVec.ofNat 64 (i.state + (if i.state = 2 then i.reason * 4 else 0) + i.depth * 16)

/-- GQUERY_REQUEST (R298). -/
def gqueryRequest (s : State) (n : Nat) : State :=
  match s.packet n with
  | none => s
  | some p =>
    match p.body with
    | .gquery h =>
      if mayApply s n p then (s.dropPacket n).sendReply p.dst p (s.queryWord (instKey p.from_.part h)) false else s
    | _ => s

/-- GCAN_REQUEST (R299). -/
def gcanRequest (s : State) (n : Nat) : State :=
  match s.packet n with
  | none => s
  | some p =>
    match p.body with
    | .gcan h =>
      if !(mayApply s n p) then s
      else
        let k := instKey p.from_.part h
        match s.inst k with
        | none => (s.dropPacket n).sendReply p.dst p 0 false
        | some i =>
          if i.state = 2 then (s.dropPacket n).sendReply p.dst p 0 false
          else if i.state = 0 then (match s.recordTurn i with
            | none => s
            | some t => ((t.dropPacket n).endInst k i 2).sendReply p.dst p 1 false)
          else if p.from_.inst = k then ((s.dropPacket n).finishCmd p.cmd 0 1 []).stopInst k 2
          else ((s.setPacket n { p with pos := .kept }).setInst k { i with waiters := i.waiters ++ [n] }).stopInst k 2
    | _ => s

/-! ### The submission ring (R301, R302) -/

/-- Entries of the ring. -/
def ringSize (s : State) (p : Nat) : Nat := 2 ^ (s.part p).subLog
/-- SUBQ_BASE (R301). -/
def subqBase (s : State) (p : Nat) (v : Word) : State :=
  let t := s.part p
  if !(s.partExists p) then s
  else if t.subHead = t.subTail ∧ v.toNat % 4096 = 0 ∧ s.hbmIn p v.toNat then s.modPart p (fun t => { t with subBase := v })
  else s.modPart p (fun t => { t with cfgerr := true })
/-- SUBQ_LOG (R301). -/
def subqLog (s : State) (p : Nat) (v : Word) : State :=
  let t := s.part p
  let n := bits v.toNat 0 5
  if !(s.partExists p) then s
  else if t.subHead = t.subTail ∧ 4 ≤ n ∧ n ≤ 16 then s.modPart p (fun t => { t with subLog := n })
  else s.modPart p (fun t => { t with cfgerr := true })
/-- SUBQ_TAIL, the doorbell (R301). -/
def subqTail (s : State) (p : Nat) (v : Word) : State :=
  let t := s.part p
  let n : BitVec 32 := v.setWidth 32
  if !(s.partExists p) then s
  else if s.ringSize p < (n - t.subHead).toNat then s.modPart p (fun t => { t with overflow := true })
  else s.modPart p (fun t => { t with subTail := n })

/-- The device-memory address of the ring entry at the head (R302). -/
def headAddr (s : State) (p : Nat) : Nat := ((s.part p).subBase.toNat + 128 * ((s.part p).subHead.toNat % s.ringSize p)) % 2 ^ 40
/-- The head of the ring advanced. -/
def consume (s : State) (p : Nat) : State := s.modPart p (fun t => { t with subHead := t.subHead + 1 })
/-- A malformed entry: BADPK, and the record with handle 0 and reason 3 (R302). -/
def badEntry (s : State) (p : Nat) : State :=
  let k := hbmKey (s.headAddr p)
  ((((s.publish k 128).modPart p (fun t => { t with badpk := true })).consume p)).writeRecord p (s.readW (k + 64)).toNat 0 (s.readW (k + 72)) 3

/-- A well-formed entry: it is consumed, and a launch with the next host handle takes a pool entry (R302). -/
def goodEntry (s : State) (p : Nat) : State :=
  let t := s.part p
  let k := hbmKey (s.headAddr p)
  let w := s.readW k
  let d := s.firstDie p
  let h := mkHandle t.hostSeq 127 d
  let limit := match t.image with | some i => (match i.graphs[pkGraph w]? with | some g => g.depth | none => 0) | none => 0
  let i : Inst :=
    { part := p, handle := h, graph := pkGraph w, key := s.readW (k + 8)
      args := (List.range (pkArgs w)).map (fun j => s.readW (k + 16 + 8 * j)), depth := 0, limit := limit, comp := none, state := 0
      reason := 0, arrived := true, cast := [], credit := false, die := d, quarter := s.shareOf p d, stopping := 0, waiters := []
      record := (s.readW (k + 64)).toNat, tag := s.readW (k + 72), host := true, ended := 0, started := false
      copy := [] }
  (((s.publish k 128).consume p).modPart p (fun t => { t with hostSeq := t.hostSeq + 1 })).setInst (instKey p h) i

/-- The turns that an entry takes: its bytes come to the launch agent, and the record of a malformed one is written (R302, R330). -/
def entryTurn (s : State) (p : Nat) (bad : Bool) : Option State :=
  let r := (s.readW (hbmKey (s.headAddr p) + 64)).toNat
  (s.agentRead (s.headAddr p) 100).bind (fun t => if bad && r != 0 then t.agentAccess (r % 2 ^ 40) 100 else some t)
/-- SUBMISSION_ENTRY_READ: the next entry is consumed, in a turn of the launch agent's at its page (R330); a well-formed one once it takes
a pool entry (R302). A ring whose base a commit has left outside the partition is not read (log entry 79). Its bytes are read in the step that consumes it (DESIGN CHOICE, log entry 69). -/
def submissionEntryRead (s : State) (p : Nat) : State :=
  let bad := s.malformed p (s.readW (hbmKey (s.headAddr p)))
  if !(s.partRuns p) || (s.part p).subHead == (s.part p).subTail || !(s.hbmIn p (s.part p).subBase.toNat) ||
      (!bad && s.poolFree p (s.firstDie p) == 0) then s
  else match s.entryTurn p bad with
    | none => s
    | some u => if bad then u.badEntry p else u.goodEntry p

/-! ### Images and placement (R284, R289) -/

/-- The key of a partition's splice table as the image gives it (R319). -/
def spliceTable (l : List Splice) : Tbl SpliceSt :=
  (List.range l.length).map (fun i => let x := l.getD i { src := 0, dst := 0, depth := 0 }
    (i, { src := x.src, dst := x.dst, depth := x.depth, held := 0, order := [] }))

/-- The device-memory address of the array of a partition's descriptors: a multiple of 64 in its share of one of its dies, by a free number
(R305, log entry 60). -/
def descPlace (s : State) (p n : Nat) : Nat :=
  match s.shares p with
  | [] => 0
  | x :: t =>
    let y := (x :: t).getD (n % (t.length + 1)) x
    let m := n / (t.length + 1)
    y.1 * 2 ^ 36 + (if y.2 = 4 then 64 * (m % (2 ^ 30 - 2 ^ 16)) else y.2 * 2 ^ 34 + 64 * (m % (2 ^ 28 - 2 ^ 16)))
/-- The code of an image written into the code stores of a list of clusters (R51, R284). -/
def loadCode (s : State) (ks : List Nat) (code : List (BitVec 32)) : State :=
  ks.foldl (fun u k => (List.range code.length).foldl (fun v j =>
    { v with mem := memWriteN v.mem (codeKey k (4 * j)) 4 (code.getD j 0).toNat }) u) s
/-- A list of quarters holds a cluster. -/
def clusterOfQuarters (sh : List (Nat × Nat)) (k : Nat) : Bool := sh.contains (k / 100, quarterOf (k % 100))
/-- IMAGE_LOAD: the code with its trailing zero parcels goes into every cluster's code store, and the image's declarations into the
die agents; an image larger than the code store is refused, and the partition keeps the image it held (R284, R289, R318). While a commit
drains, the clusters that the partition gains by it may still be another's: they take the code when it ends (R6, R341). -/
def imageLoad (s : State) (p : Nat) (im : Image) : State :=
  if !(s.partExists p) || decide (2 ^ 19 < 4 * im.code.length) then s
  else
    let ks := (((s.shares p).map (·.1)).flatMap (s.clustersOf p)).filter (fun k => !(s.mgmt.drain && clusterOfQuarters (s.part p).clearing k))
    let t := s.loadCode ks im.code
    t.modPart p (fun q => { q with
      image := some im, place := [], descs := im.descs, descBase := some (s.descPlace p (Config.descBase s.tick)), splices := spliceTable im.splices })

/-- Every core that a placement entry can name lies in the partition (R289). -/
def placeOk (s : State) (p : Nat) (w0 : Word) : Bool :=
  let w := w0.toNat
  let d := bits w 8 4
  let x0 := bits w 16 8
  let y0 := bits w 24 8
  let at_ (x y : Nat) : Bool := decide (x < 160) && decide (y < 160) && s.coreIn p (coreAt d x y)
  match bits w 0 2 with
  | 0 => true
  | 1 => at_ x0 y0 && at_ (x0 + bits w 32 8) (y0 + bits w 40 8)
  | 2 => at_ x0 y0
  | _ => false
/-- PLACEMENT_ENTRY_WRITE: accepted only while no instance is live; mode 3 is refused (R289). -/
def placementEntryWrite (s : State) (p cb : Nat) (w0 w1 : Word) : State :=
  if !(s.partExists p) || s.anyLive p || decide (s.blockCount p ≤ cb) || !(s.placeOk p w0) then s
  else s.modPart p (fun t => { t with place := t.place.set cb (w0 &&& 0x0000FFFFFFFF0F03, w1) })

/-! ### Forecast and clock (R303, R345, R382) -/

/-- FORECAST: the ready-queue entries of the die's cores and the pool entries that wait there (R303). -/
def forecastOf (s : State) (d : Nat) : Nat :=
  ((s.cores.filter (fun x => dieOf x.1 == d)).map (fun x => x.2.ready.length)).sum +
    (s.insts.filter (fun x => x.2.die == d && x.2.state == 0)).length

/-- The telemetry word of a die: power, supply, clock and temperature, then pin and trip (R382). The power controller holds a pinned die at
650 mV and 1.8 GHz (R345). -/
def reading (s : State) (d : Die) : BitVec 50 :=
  let r := (Config.telemetry s.tick).toNat
  let v := if d.pinned then setBits (setBits r 16 12 650) 28 12 1800 else r
  BitVec.ofNat 50 (v % 2 ^ 48 + (if d.pinned then 2 ^ 48 else 0) + (if d.trip then 2 ^ 49 else 0))
/-- A die's controllers act once it has left reset: while every die stays in reset none does (R376). -/
def onDie (s : State) (d : Nat) (g : Die → Die) : State := if s.mgmt.ok then s.modDie d g else s

end State

/-- IMAGE_LOAD (R284). -/
def execImageLoad (p : Nat) (img : Image) (s : State) : Out := .next (s.imageLoad p img)
/-- LAUNCH_REQUEST (R292). -/
def execLaunchRequest (pkt : Nat) (s : State) : Out := .next (s.launchRequest pkt)
/-- INSTANCE_START (R287). -/
def execInstanceStart (handle : Nat) (s : State) : Out := .next (s.instanceStart handle)
/-- LAUNCH_MULTICAST (R291). -/
def execLaunchMulticast (die handle : Nat) (s : State) : Out := .next (s.castAt die handle)
/-- INSTANCE_END (R288). -/
def execInstanceEnd (handle : Nat) (s : State) : Out := .next (s.instanceEnd handle)
/-- CREDIT_LEND (R292). -/
def execCreditLend (die p : Nat) (s : State) : Out := .next (s.creditLend die p)
/-- GQUERY_REQUEST (R298). -/
def execGqueryRequest (pkt : Nat) (s : State) : Out := .next (s.gqueryRequest pkt)
/-- GCAN_REQUEST (R299). -/
def execGcanRequest (pkt : Nat) (s : State) : Out := .next (s.gcanRequest pkt)
/-- SUBQ_BASE (R301). -/
def execSubqBase (p : Nat) (v : Word) (s : State) : Out := .next (s.subqBase p v)
/-- SUBQ_LOG (R301). -/
def execSubqLog (p : Nat) (v : Word) (s : State) : Out := .next (s.subqLog p v)
/-- SUBQ_TAIL (R301). -/
def execSubqTail (p : Nat) (v : Word) (s : State) : Out := .next (s.subqTail p v)
/-- SUBMISSION_ENTRY_READ (R302). -/
def execSubmissionEntryRead (p : Nat) (s : State) : Out := .next (s.submissionEntryRead p)
/-- PLACEMENT_ENTRY_WRITE (R289). -/
def execPlacementEntryWrite (p cb : Nat) (w0 w1 : Word) (s : State) : Out := .next (s.placementEntryWrite p cb w0 w1)
/-- FORECAST (R303): the forecast reaches the power controller. -/
def execForecast (die : Nat) (s : State) : Out := .next (s.onDie die (fun d => { d with forecast := s.forecastOf die }))
/-- TELEMETRY_UPDATE (R382): the whole word with readings of free value; the supply and the clock of a pinned die are 650 mV and 1,800 MHz
(R345). -/
def execTelemetryUpdate (die : Nat) (s : State) : Out := .next (s.onDie die (fun d => { d with tele := s.reading d }))
/-- CLOCK_PINNED (R345): the clock is pinned where a reservation lives on the die, and follows the forecast otherwise. -/
def execClockPinned (die : Nat) (s : State) : Out := .next (s.onDie die (fun d => { d with pinned := dieRsv s.mgmt.region die }))
/-- glaunch (R297). -/
def execGlaunch (f : WForm) (s : State) : Out := issue 8 f.guard s (State.glaunch f)
/-- gquery (R298). -/
def execGquery (f : WForm) (s : State) : Out := issue 8 f.guard s (State.askRecord 1 f)
/-- gcan (R299). -/
def execGcan (f : WForm) (s : State) : Out := issue 8 f.guard s (State.askRecord 2 f)

end Sys2Proof.Machine
end

