-- ==== Sys2Proof/Machine/Tables.lean ====
section
/-! DEFINITION. The region and connection tables and their commits, the clearing of a gained share, the partition's registers for
spill, migration, reductions and the fault area, pre-emption, and the optical ports (R6, R184, R313, R335, R338 to R355, R360). -/

namespace Sys2Proof.Machine

/-! ### Commits (R322, R323, R338 to R341) -/

/-- The fields of a region table that use a partition number: die, quarter or 4 for the whole die, and the field (R341). -/
def usesOf (t : Tbl Word) (p : Nat) : List (Nat × Nat × Nat) :=
  (List.range 16).flatMap (fun d =>
    let w := t.get 0 d
    let all := if isSplit w then (List.range 4).map (fun q => (d, q, ownField w q)) else [(d, 4, ownField w 0)]
    all.filter (fun x => x.2.2 / 64 % 2 == 1 && x.2.2 % 64 == p))
/-- An entry of the region table keeps its reserved bits and unused fields at zero (R341). -/
def regionEntryOk (w : Word) : Bool :=
  bits w.toNat 1 7 == 0 && bits w.toNat 40 24 == 0 &&
    (List.range 4).all (fun q => let o := ownField w q; o / 64 % 2 == 1 || o == 0) &&
    (isSplit w || (List.range 3).all (fun q => ownField w (q + 1) == 0))
/-- One partition number is used on whole dies or in one quarter, with one rsv bit (R341). -/
def partUseOk (t : Tbl Word) (p : Nat) : Bool :=
  let u := usesOf t p
  (u.all (fun x => x.2.1 == 4) || decide (u.length ≤ 1)) &&
    (u.all (fun x => x.2.2 / 128 == 1) || u.all (fun x => x.2.2 / 128 == 0))
/-- The die on a side of a die in the 4 × 4 arrangement (R316, R322). -/
def sideDie (d side : Nat) : Nat :=
  match side with
  | 0 => (d / 4 + 3) % 4 * 4 + d % 4
  | 1 => d / 4 * 4 + (d % 4 + 1) % 4
  | 2 => (d / 4 + 1) % 4 * 4 + d % 4
  | _ => d / 4 * 4 + (d % 4 + 3) % 4
/-- An entry of the connection table meets R323. -/
def connEntryOk (t : Tbl Word) (i : Nat) (w : Word) : Bool :=
  let v := w.toNat
  let inPart (d : Nat) : Bool := (partDies t (bits v 32 6)).any (fun x => x.1 == d)
  Nat.land (bits v 0 16) (bits v 16 16) == 0 && bits v 39 25 == 0 &&
    (bits v 38 1 == 0 || (inPart (i / 4) && inPart (sideDie (i / 4) (i % 4))))
/-- A shadow table that a commit accepts (R323, R341). -/
def tablesOk (m : Module) : Bool :=
  (List.range 16).all (fun d => regionEntryOk (m.regionSh.get 0 d)) && (List.range 64).all (partUseOk m.regionSh) &&
    (List.range 64).all (fun i => connEntryOk m.regionSh i (m.connSh.get 0xFFFF i))

/-- The quarters that a partition holds in a region table. -/
def heldQuarters (t : Tbl Word) (p : Nat) : List (Nat × Nat) := quartersOf (partDies t p)
/-- The quarters in one table and not in another. -/
def quartersLost (a b : Tbl Word) (p : Nat) : List (Nat × Nat) := (heldQuarters a p).filter (fun x => !((heldQuarters b p).contains x))

namespace State

/-- A partition that a commit takes something from, with work or a state other than running: its live instances end with reason
cancelled, its pending launches and its ring entries are discarded, and a saved image is dropped (R341). From restoring the state reaches
running, which sends the partition's vector (R348). -/
def evict (s : State) (p : Nat) : State :=
  let mine := s.insts.filter (fun x => x.2.part == p)
  let s1 := mine.foldl (fun t x => if x.2.state = 1 then t.stopInst x.1 2 else t) s
  let s2 := mine.foldl (fun t x => if x.2.state = 0 then t.endInst x.1 x.2 2 else t) s1
  let waiting := ((s.part p).subTail - (s.part p).subHead).toNat
  let s3 := (List.range waiting).foldl (fun t _ =>
    let k := hbmKey (t.headAddr p)
    if t.malformed p (t.readW k) then t.badEntry p
    else (t.consume p).writeRecord p (t.readW (k + 64)).toNat 0 (t.readW (k + 72)) 2) s2
  let s4 := (s3.modPart p (fun t => { t with state := 0 })).mapCores (fun c x => if s.partOf c = p then { x with saved := false } else x)
  if (s.part p).state = 4 then s4.interrupt p else s4

/-- A byte of a code store that lies in a list of quarters. -/
def codeInQuarters (sh : List (Nat × Nat)) (key : Nat) : Bool :=
  let k := key % 2 ^ 60 / 2 ^ 19
  key / 2 ^ 60 == 4 && sh.contains (k / 100, quarterOf (k % 100))

/-- What a commit does to one partition: it is created, gains what will be cleared, or loses dies or its quarter, which it then clears
no more (R6, R341). -/
def commitPart (s : State) (p : Nat) : State :=
  let old := s.mgmt.regionOld
  let gained := quartersLost s.mgmt.region old p
  let lost := quartersLost old s.mgmt.region p
  let s1 := if lost.isEmpty then s
    else (s.evict p).modPart p (fun t => { t with clearing := t.clearing.filter (fun x => !(lost.contains x)) })
  if gained.isEmpty then s1
  else s1.modPart p (fun t => if (partDies old p).isEmpty then { Part.init with clearing := gained } else { t with clearing := t.clearing ++ gained })

/-- A memory key that lies in a list of quarters: a core's, cluster's or die's scratchpad, device memory, or a code store. -/
def keyInQuarters (sh : List (Nat × Nat)) (key : Nat) : Bool :=
  let off := key % 2 ^ 60
  match key / 2 ^ 60 with
  | 0 => inShares sh (off / 2 ^ 17)
  | 1 => sh.contains (off / 2 ^ 22 / 100, quarterOf (off / 2 ^ 22 % 100))
  | 2 => sh.contains (off / 2 ^ 28, off % 2 ^ 28 / 2 ^ 26)
  | 3 => sh.contains (off / 2 ^ 36, off % 2 ^ 36 / 2 ^ 34)
  | _ => codeInQuarters sh key

/-- The requests that the reduction entries of a list of quarters have collected (R335, R336). -/
def collectedIn (s : State) (sh : List (Nat × Nat)) : List Nat :=
  s.dies.flatMap (fun x => (x.2.ord.filter (fun y => sh.contains (x.1, y.1 / 4))).flatMap (fun y => y.2.got))
/-- The clearing of R6 on a list of quarters: memory and its poison, every core's state of the partition's span, its error counts and
its snapshot, which a later partition could read, the clusters' state and the reduction entries with what they have collected. -/
def clearShares (s : State) (sh : List (Nat × Nat)) : State :=
  let coreHere (c : Nat) : Bool := inShares sh c
  let got := s.collectedIn sh
  let kept := s.net.filter (fun x => !(x.2.pos == .kept && (got.contains x.1 || (match x.2.body, x.2.dst with
    | .atomic .., _ => false
    | _, .core c => coreHere c
    | _, _ => false))))
  { s with
    mem := s.mem.filter (fun c => !(keyInQuarters sh c.1))
    poison := s.poison.filter (fun k => !(keyInQuarters sh k))
    older := s.older.filter (fun e => !(keyInQuarters sh e.key))
    heads := s.heads.filter (fun h => !(keyInQuarters sh h.key))
    net := kept
    cores := s.cores.map (fun x => if coreHere x.1 then
      (x.1, { Core.init with ctx0 := x.2.ctx0, ctx1 := x.2.ctx1, last := x.2.last, cyc := x.2.cyc, dead := x.2.dead, bad := x.2.bad }) else x)
    clusters := s.clusters.map (fun x => if sh.contains (x.1 / 100, quarterOf (x.1 % 100)) then
      (x.1, { Cluster.init with snaps := x.2.snaps, bad := x.2.bad }) else x)
    dies := s.dies.map (fun x => (x.1, { x.2 with
      ord := x.2.ord.filter (fun y => !(sh.contains (x.1, y.1 / 4)))
      cache := x.2.cache.filter (fun y => !(keyInQuarters sh (hbmKey y.addr))) })) }

/-- The draining commit leaves a die with the holders of the retiring table until it ends (R341). -/
def diesKept (s : State) (d : Nat) : Bool := s.mgmt.drain && !(keepsHolders (s.mgmt.regionOld.get 0 d) (s.mgmt.region.get 0 d))
/-- The shares that partitions have gained and wait to see cleared, of the dies that the draining commit leaves with their holders, or of the
others. -/
def gainedShares (s : State) (kept : Bool) : List (Nat × Nat) := (s.parts.flatMap (fun x => x.2.clearing)).filter (fun y => s.diesKept y.1 == kept)

/-- COMMIT: the shadow table becomes current as the next generation, and the previous one drains; a commit while DRAIN = 1 sets
CBUSY and one that breaks the rules sets CBAD (R338, R339). What a partition gains is cleared before it can be reached: here where no holder
has to release the die first, else as the commit ends (R6, R341; log entry 79). While every die stays in reset there is none (R376, log entry 38). -/
def commit (s : State) (v : Word) : State :=
  if v.getLsbD 0 = false || !s.mgmt.ok then s
  else if s.mgmt.drain then s.modMgmt (fun m => { m with cbusy := true })
  else if !(tablesOk s.mgmt) then s.modMgmt (fun m => { m with cbad := true })
  else
    let s1 := s.modMgmt (fun m => { m with
      gen := m.gen + 1, drain := true, region := m.regionSh, regionOld := m.region, conn := m.connSh, connOld := m.conn })
    let s2 := (List.range 16).foldl (fun t d => t.modDie d (fun x => { x with drained := false })) s1
    let s3 := (List.range 64).foldl commitPart s2
    s3.clearShares (s3.gainedShares false)

/-- A packet of the retiring generation is in a die's link controllers, routers or crossbar (R339). -/
def oldPacketOn (s : State) (d : Nat) : Bool :=
  s.net.any (fun x => x.2.gen != s.mgmt.gen && (match x.2.pos with
    | .router a b _ _ => b / 160 * 4 + a / 160 == d
    | .egress => locDie x.2.src == d
    | .link a b _ _ _ _ _ => b / 160 * 4 + a / 160 == d
    | .crossing => locDie x.2.src == d || locDie x.2.dst == d
    | .ingress => locDie x.2.dst == d
    | .inbound => locDie x.2.dst == d
    | _ => false))

/-- The partitions that lose something by the draining commit have no live instance left, and nothing that one of them sent is still to
be applied (R6, R341). -/
def losersDone (s : State) : Bool :=
  (List.range 64).all (fun p => (quartersLost s.mgmt.regionOld s.mgmt.region p).isEmpty ||
    (!(s.anyLive p) && !(s.net.any (fun x => x.2.from_.part == p)) && !(s.trigs.any (fun x => x.2.part == some p))))

/-- The code stores that the partitions gain are cleared, and take the code of an image that has been loaded since the commit (R6, R284). -/
def freshCode (s : State) : State :=
  let gained := s.parts.flatMap (fun x => x.2.clearing)
  s.parts.foldl (fun t x => match x.2.image with
    | some im => t.loadCode ((((s.shares x.1).map (·.1)).flatMap (s.clustersOf x.1)).filter (clusterOfQuarters x.2.clearing)) im.code
    | none => t) { s with mem := s.mem.filter (fun c => !(codeInQuarters gained c.1)) }
/-- The arrays of descriptors that stood on a share which their partition has lost take another free place (R305, R341; log entry 60). -/
def freshDescs (s : State) : State :=
  { s with parts := s.parts.map (fun x => (x.1, match x.2.descBase with
      | some b => if s.hbmIn x.1 b then x.2 else { x.2 with descBase := some (s.descPlace x.1 (Config.descBase s.tick)) }
      | none => x.2)) }
/-- The bytes of a spill area with s frames on a die. -/
def spillBytes (s : State) (p d frames : Nat) : Nat := 256 * frames * shareSize (s.shareOf p d)
/-- A spill area from an address stays in the partition's share of a die. -/
def spillFits (s : State) (p d base frames : Nat) : Bool :=
  let q := s.shareOf p d
  let hi := if q = 4 then d * 2 ^ 36 + 2 ^ 36 else d * 2 ^ 36 + (q + 1) * 2 ^ 34
  let lo := if q = 4 then d * 2 ^ 36 else d * 2 ^ 36 + q * 2 ^ 34
  decide (lo ≤ base) && decide (base + s.spillBytes p d frames ≤ hi)
/-- A register whose address a commit has left outside the partition counts as not accepted: the fault area, and the spill area of a die
(R184, R360; log entry 79). -/
def freshBases (s : State) : State :=
  { s with parts := s.parts.map (fun x => (x.1, { x.2 with
      faBaseOk := x.2.faBaseOk && s.hbmIn x.1 x.2.faBase.toNat
      spillBase := x.2.spillBase.filter (fun y => (s.shares x.1).any (fun z => z.1 == y.1) && s.spillFits x.1 y.1 y.2.toNat x.2.spill) })) }
/-- The retiring table goes, and with it the partitions that no entry uses any more, their instances and the records that wait to be
written in their fault areas; the dies that it held back are cleared for those that gain them (R6, R339, R341). -/
def retire (s0 : State) : State :=
  let s := s0.clearShares (s0.gainedShares true)
  let s1 := s.modMgmt (fun m => { m with drain := false, regionOld := [], connOld := [] })
  ({ s1 with
    parts := s1.parts.filter (fun x => s1.partExists x.1)
    insts := s1.insts.filter (fun x => s1.partExists x.2.part)
    faults := s1.faults.filter (fun r => s1.partExists r.part) } : State).freshCode.freshDescs.freshBases

/-- DRAIN_MESSAGE: a die that has left reset and has no packet of the retiring generation reports; when every die has, and none has
taken such a packet in since, DRAIN becomes 0 (R339): every packet is routed by the table of its generation to its end. -/
def drainMessage (s : State) (d : Nat) : State :=
  if !s.mgmt.drain || !s.mgmt.ok || s.oldPacketOn d then s
  else
    let s1 := s.modDie d (fun x => { x with drained := true })
    if (List.range 16).all (fun e => (s1.die e).drained && !(s1.oldPacketOn e)) && s1.losersDone then s1.retire else s1

/-- CLEARING_COMPLETE: the share that a partition gained is clear, once its former holder has released it, and the partition no longer waits
for it (R6, R341). -/
def clearingComplete (s : State) (p : Nat) : State :=
  if (s.part p).clearing.isEmpty || s.mgmt.drain then s else s.modPart p (fun t => { t with clearing := [] })

/-! ### Spill regions (R184) -/

/-- SPILL_FRAMES (R184). A value above the stated 4,096 is ignored as the others are (log entry 55). -/
def spillFrames (s : State) (p : Nat) (v : Word) : State :=
  let n := bits v.toNat 0 13
  if !(s.partExists p) then s
  else if s.anyLive p || decide (4096 < n) || !((s.part p).spillBase.all (fun x => s.spillFits p x.1 x.2.toNat n)) then
    s.modPart p (fun t => { t with spillErr := true })
  else s.modPart p (fun t => { t with spill := n })
/-- SPILL_BASE of a die (R184). A die outside the partition has no share that could hold a spill area: the write is ignored and sets
SPILL_ERR. -/
def spillBase (s : State) (p d : Nat) (v : Word) : State :=
  let a := bits v.toNat 0 40
  if !(s.partExists p) then s
  else if !((s.shares p).any (fun x => x.1 == d)) || s.anyLive p || a % 4096 != 0 || a / 2 ^ 36 != d || !(s.spillFits p d a (s.part p).spill) then
    s.modPart p (fun t => { t with spillErr := true })
  else s.modPart p (fun t => { t with spillBase := t.spillBase.set d (BitVec.ofNat 64 a) })

/-! ### Migration (R313, R314)

The die agents do the work of a migration on the dies that hold its root entry, its page entry, its page and the destination: one packet at a
time goes between them and says what is to be done next (R318; log entry 72). Its stages: 0 reads the root entry, 1 checks the page entry and
sets mig, 2 reads a piece of the page, 3 writes it, 4 writes the entry, 5 clears mig. -/

/-- A packet with the next stage of a partition's migration leaves for the die of an address. -/
def migSend (s : State) (p src a stage off : Nat) (bs : List Byte) (pois : List Nat) : State :=
  s.send { packetOf (.migrate stage off bs pois) (.agent (src / 2 ^ 36)) (.agent (a / 2 ^ 36)) 0 (agentIssuer p 0) with bulk := true, len := bs.length }
/-- A migration stops with a cause: the entry is unchanged (R313, R314). -/
def migStop (s : State) (p cause : Nat) : State := s.modPart p (fun t => { t with mig := { t.mig with state := 3, cause := cause, held := false } })
/-- MIG_GO (R313): the unit is busy, with the tile and the destination as they stand, and the agent of the root entry's die begins; cause 1
where the tile has no root entry. -/
def migGo (s : State) (p : Nat) (v : Word) : State :=
  let m := (s.part p).mig
  if !(s.partExists p) || v.getLsbD 0 = false || m.state == 1 then s
  else match rootAddr (tensOf (s.descOf p m.tid)) m.tile with
    | none => s.modPart p (fun t => { t with mig := { m with state := 3, cause := 1, npois := 0 } })
    | some ra => (s.modPart p (fun t => { t with mig := { m with
        state := 1, cause := 0, npois := 0, run := m.tile, entry := ra, src := 0, dest := m.dst * 2 ^ 36 + m.page * 2 ^ 16, held := false } })).migSend
        p ra ra 0 0 [] []

/-- Stage 0: the root entry leads to the page entry, or it fails R308. -/
def migRoot (s : State) (p : Nat) : Option State :=
  let m := (s.part p).mig
  (s.agentRead m.entry 101).map (fun u =>
    let t := u.publish (hbmKey m.entry) 8
    match s.leafAddr p (s.readW (hbmKey m.entry)) m.run with
    | none => t.migStop p 1
    | some a => (t.modPart p (fun q => { q with mig := { q.mig with entry := a } })).migSend p m.entry a 1 0 [] [])
/-- Stage 1: the checks of causes 1 to 4; then mig = 1, and new writes to the page are held. -/
def migEntry (s : State) (p : Nat) : Option State :=
  let m := (s.part p).mig
  (s.agentRead m.entry 101).map (fun u =>
    let e := s.readW (hbmKey m.entry)
    let t := u.publish (hbmKey m.entry) 8
    match s.pageOf p e with
    | none => t.migStop p 1
    | some (pg, repl) =>
      if !(s.hbmIn p m.dest) then t.migStop p 2
      else if repl then t.migStop p 3
      else if pg = m.dest then t.migStop p 4
      else ((t.writeW (hbmKey m.entry) (e ||| 4)).modPart p (fun q => { q with mig := { q.mig with src := pg, held := true } })).migSend
        p m.entry pg 2 0 [] [])
/-- Stage 2: once the writes that walkers have accepted are performed, the next 256 bytes of the page leave for the destination with their
poison, or after the last of them the entry is to be written. A copy that aborts is to clear mig. -/
def migRead (s : State) (p off : Nat) (copied : Bool) : Option State :=
  let m := (s.part p).mig
  if s.writesPending m.src then none
  else if !copied then some (s.migSend p m.src m.entry 5 0 [] [])
  else if 65536 ≤ off then some (s.migSend p m.src m.entry 4 0 [] [])
  else (s.agentRead m.src 101).map (fun u =>
    let k := hbmKey (m.src + off)
    (u.publish k 256).migSend p m.src m.dest 3 off (s.readBytes k 256) ((List.range 32).filter (fun j => s.poisoned (k + 8 * j) 8)))
/-- Stage 3: a piece is written at the destination with its poison, which npois counts. -/
def migWrite (s : State) (p off : Nat) (bs : List Byte) (pois : List Nat) : Option State :=
  let m := (s.part p).mig
  let k := hbmKey (m.dest + off)
  (s.dieAgentTurn m.dest).map (fun u =>
    ((pois.foldl (fun t j => t.addPoison (k + 8 * j) 8) (u.writeBytes k bs)).modPart p (fun q => { q with mig := { q.mig with
      npois := min (q.mig.npois + pois.length) 65535 } })).migSend p m.dest m.src 2 (off + 256) [] [])
/-- Stage 4: the entry names the destination, and the walker caches and every walk's translation to the page are flushed, so that held writes
go to the destination. -/
def migFinish (s : State) (p : Nat) : Option State :=
  let m := (s.part p).mig
  let word : Word := BitVec.ofNat 64 (1 + m.dest / 2 ^ 36 * 2 ^ 16 + m.dest / 2 ^ 16 % 2 ^ 20 * 2 ^ 20)
  let flush (w : Walk) : Walk := { w with trans := w.trans.filter (fun t => t.page != m.src), tabs := w.tabs.erase m.entry }
  let fresh (q : Packet) : Packet := match q.body with | .tableWord n a _ => if a = m.entry then { q with body := .tableWord n a word } else q | _ => q
  (s.dieAgentTurn m.entry).map (fun u =>
    let t := u.writeW (hbmKey m.entry) word
    ({ t with
      dies := t.dies.map (fun (x : Nat × Die) => (x.1, { x.2 with cache := x.2.cache.filter (fun y => y.addr != m.entry) }))
      walks := t.walks.map (fun (x : Nat × Walk) => (x.1, flush x.2))
      net := t.net.map (fun (x : Nat × Packet) => (x.1, fresh x.2)) } : State).modPart p (fun q => { q with
        olds := q.olds.filter (fun y => y.1 != m.entry), mig := { q.mig with state := 2, held := false } }))
/-- Stage 5: an aborted copy releases the held writes to the source and leaves the entry as it was, with cause 0 and npois as it stands; the
destination keeps what has been copied (DESIGN CHOICE, log entry 72). -/
def migAbort (s : State) (p : Nat) : Option State :=
  let key := hbmKey (s.part p).mig.entry
  (s.dieAgentTurn (s.part p).mig.entry).map (fun u => (u.writeW key (s.readW key &&& ~~~(4 : Word))).migStop p 0)

/-- A packet of a partition's migration that has reached its die agent. -/
def migHere (p : Nat) (q : Packet) : Bool := q.from_.part == p && q.pos == .ready && (match q.body with | .migrate .. => true | _ => false)
/-- MIGRATION_COMPLETE: the next stage of a partition's migration, on the die that its packet has reached; the last one completes it or
aborts it (R314, R315). -/
def migrationComplete (s : State) (p : Nat) (copied : Bool) : State :=
  match s.net.find? (fun x => migHere p x.2) with
  | none => s
  | some (k, q) =>
    match q.body with
    | .migrate stage off bs pois =>
      let t := s.dropPacket k
      (match stage with
        | 0 => t.migRoot p
        | 1 => t.migEntry p
        | 2 => t.migRead p off copied
        | 3 => t.migWrite p off bs pois
        | 4 => t.migFinish p
        | _ => t.migAbort p).getD s
    | _ => s

/-! ### Ordered-reduction registers (R335) -/

/-- The unit entry that a partition's entry i of a die names: 4 of them on a split die; a partition that does not exist has none (R347). -/
def ordIndex (s : State) (p d i : Nat) : Option Nat :=
  match (if s.partExists p then (s.shares p).find? (fun x => x.1 == d) else none) with
  | none => none
  | some x => if x.2 = 4 then (if i < 16 then some i else none) else if i < 4 then some (4 * x.2 + i) else none
/-- An entry of a die's unit. -/
def ordAt (s : State) (d j : Nat) : Ord := (s.die d).ord.get Ord.init j
/-- An entry replaced. -/
def setOrd (s : State) (d j : Nat) (o : Ord) : State := s.modDie d (fun x => { x with ord := x.ord.set j o })
/-- ORD_ADDR (R335). -/
def ordAddr (s : State) (p d i : Nat) (v : Word) : State :=
  match s.ordIndex p d i with
  | none => s
  | some j => let o := s.ordAt d j; if o.armed then s else s.setOrd d j { o with addr := v }
/-- ORD_N (R335). -/
def ordN (s : State) (p d i : Nat) (v : Word) : State :=
  match s.ordIndex p d i with
  | none => s
  | some j => let o := s.ordAt d j; if o.armed then s else s.setOrd d j { o with n := bits v.toNat 0 13 }
/-- ORD_ARM: bit 13 of the word written (R335, R336); an ORD_ADDR that is no multiple of 4 is not well formed (DEDUCED, log entry 38). A partition whose collected requests are applied is not quiescent then (R369). -/
def ordArm (s : State) (p d i : Nat) (v : Word) : State :=
  match s.ordIndex p d i with
  | none => s
  | some j =>
    let o := s.ordAt d j
    if v.getLsbD 13 then
      match s.ordWord d j o.addr with
      | none => s
      | some key =>
        if o.armed || o.n == 0 || o.addr.toNat % 4 != 0 || (s.armedFor d key).isSome then s else s.setOrd d j { o with armed := true }
    else if o.armed then
      let t := s.orderedRound d j
      (t.setOrd d j { t.ordAt d j with armed := false }).modPart p (fun q => { q with quiesced := false })
    else s

/-! ### Fault-area registers (R360) -/

/-- FA_BASE (R360). -/
def faBase (s : State) (p : Nat) (v : Word) : State :=
  let a := bits v.toNat 0 40
  if s.partExists p && a % 4096 == 0 && s.hbmIn p a then s.modPart p (fun t => { t with faBase := BitVec.ofNat 64 a, faBaseOk := true }) else s
/-- FA_LOG (R360). -/
def faLog (s : State) (p : Nat) (v : Word) : State :=
  let n := bits v.toNat 0 5
  if s.partExists p && decide (6 ≤ n) && decide (n ≤ 20) then s.modPart p (fun t => { t with faLog := n, faLogOk := true }) else s

/-! ### Pre-emption (R349 to R353) -/

/-- The bytes of a die's save area (R349). -/
def saveSize (s : State) (p : Nat) : Nat := if (s.shares p).any (fun x => x.2 != 4) then 0x48000000 else 0x120000000
/-- An address lies in a save area of a partition from the acceptance of PREEMPT until it runs again (R349). -/
def inSaveArea (s : State) (a : Nat) : Bool :=
  s.parts.any (fun x => x.2.state != 0 && (s.shares x.1).any (fun y =>
    let b := (x.2.saveBase.get 0 y.1).toNat
    decide (b ≤ a) && decide (a < b + s.saveSize x.1)))
/-- PREEMPT (R349). -/
def preempt (s : State) (p : Nat) : State :=
  if !(s.partExists p) then s
  else if s.partState p != 0 || partRsv s.mgmt.region p ||
      !((s.shares p).all (fun x => let b := ((s.part p).saveBase.get 0 x.1).toNat; b / 2 ^ 36 == x.1 && b % 2 ^ 16 == 0)) then
    s.modPart p (fun t => { t with refused := true })
  else s.modPart p (fun t => { t with state := 1 })
/-- RESUME (R349). -/
def resume (s : State) (p : Nat) : State :=
  if !(s.partExists p) then s
  else if s.partState p != 3 || partRsv s.mgmt.region p || s.shares p != (s.part p).savedAs then
    s.modPart p (fun t => { t with refused := true })
  else s.modPart p (fun t => { t with state := 4 })

/-- A request that is not waited for: an ldst or stepq held at a step unit, or an afadd collected by a reduction unit (R350). -/
def keptRequest (p : Packet) : Bool := p.pos == .kept && (match p.body with | .ldst .. => true | .stepq .. => true | .atomic .. => true | _ => false)
/-- The command of such a request. -/
def cmdKept (s : State) (id : Nat) : Bool := s.net.any (fun x => x.2.cmd == id && keptRequest x.2)
/-- An mrot whose tile waits in the landing buffer of a saved core, or on the ring behind one that does: it completes on restore (R168). -/
def mrotHeld (s : State) (id : Nat) : Bool :=
  s.cores.any (fun x => x.2.saved && x.2.landing.any (fun l => match l.2 with | some y => y.cmd == id | none => false)) ||
    s.net.any (fun x => x.2.cmd == id && (match x.2.body, x.2.dst with
      | .tile l _ _ _, .core rc => (s.core rc).saved && ((s.core rc).landing.get none l).isSome
      | _, _ => false))
/-- A core is quiet: both contexts free, no frame on it has another command outstanding, the completion signals of its commands
have been applied (R350), its matrix queue is empty and its landed tiles have moved (R168), no fill or write-back of it is under way (log
entry 71), and its cluster's sequencer is between requests (R275). -/
def coreQuiet (s : State) (cid : Nat) : Bool :=
  let c := s.core cid
  !c.ctx0.busy && !c.ctx1.busy && c.mq.isEmpty && c.landing.all (fun l => l.2.isNone) && c.wback.isEmpty && c.filling.isNone &&
    !((s.cluster (clidOf cid)).recs.any (fun x => x.2.forming || x.2.st == 3)) &&
    !(s.cmds.any (fun x => x.2.from_.cid == cid && !(s.cmdKept x.1) && !(s.mrotHeld x.1))) &&
    !(s.net.any (fun x => x.2.from_.cid == cid && (match x.2.body with | .signal _ _ _ _ src => src == 1 | _ => false)))

/-- The start of a die's save area. -/
def saveAddr (s : State) (p d : Nat) : Nat := ((s.part p).saveBase.get 0 d).toNat
/-- The die agents' turns at the save areas of a partition (R330; log entry 24). -/
def saveTurns (s : State) (p : Nat) : Option State :=
  (s.shares p).foldl (fun (o : Option State) x => o.bind (fun t => t.dieAgentTurn (s.saveAddr p x.1))) (some s)
/-- What the die agents leave in the save areas: bytes of free value, since the layout is their own (R349, log entry 8). An area that runs
past the end of its die is written on past it (DESIGN CHOICE, log entry 40). -/
def writeSaveAreas (s : State) (p : Nat) : State :=
  (s.shares p).foldl (fun t x =>
    let b := ((s.part p).saveBase.get 0 x.1).toNat
    (List.range (s.saveSize p)).foldl (fun u i => u.writeN (hbmKey (b + i)) 1 (Config.saveByte (s.tick + i)).toNat) t) s

/-- CORE_SAVE: a core that is quiet is saved; the state becomes saving, and saved once every core is and the agents have written the save
areas, with the dies that the partition then holds (R349, R350). -/
def coreSave (s : State) (cid : Nat) : State :=
  let p := s.partOf cid
  let st := (s.part p).state
  if !(s.coreIn p cid) || !(st == 1 || st == 2) || (s.core cid).saved || !(s.coreQuiet cid) then s
  else
    let s1 := (s.modCore cid (fun c => { c with saved := true })).modPart p (fun t => { t with state := 2 })
    if (s1.cores.filter (fun x => x.2.saved && s1.coreIn p x.1)).length = s1.partSize p then
      match s1.saveTurns p with
      | none => s
      | some u => ((u.writeSaveAreas p).modPart p (fun t => { t with state := 3, savedAs := s.shares p })).interrupt p
    else s1

/-- CORE_RESTORE: a core is as it was saved, with what was applied to its image, which its die agent reads in a turn; the state becomes
running once every core is restored (R330, R353). -/
def coreRestore (s : State) (cid : Nat) : State :=
  let p := s.partOf cid
  if !(s.coreIn p cid) || (s.part p).state != 4 || !(s.core cid).saved then s
  else
    match s.agentRead (s.saveAddr p (dieOf cid)) 101 with
    | none => s
    | some u =>
      let s1 := u.modCore cid (fun c => { c with saved := false })
      if s1.cores.any (fun x => x.2.saved && s1.coreIn p x.1) then s1
      else (s1.modPart p (fun t => { t with state := 0 })).interrupt p

/-! ### Optical ports (R354, R355) -/

/-- PORT_ENTRY_WRITE: word 0 only while v = 0 or in the write that clears v; v set only for a partition that exists and a die of it
(R354). -/
def portEntryWrite (s : State) (i word : Nat) (v : Word) : State :=
  let e := s.mgmt.ports.get (0, 0) i
  if 32 ≤ i then s
  else if word = 0 then
    let ok := if v.getLsbD 0 then !(e.1.getLsbD 0) && s.partExists (bits v.toNat 1 6) && (s.shares (bits v.toNat 1 6)).any (fun x => x.1 == bits v.toNat 7 4) else true
    if ok then s.modMgmt (fun m => { m with ports := m.ports.set i (v &&& 0x0FFFFFFF, e.2) }) else s
  else if word = 1 then s.modMgmt (fun m => { m with ports := m.ports.set i (e.1, v &&& 0x7FFFFFFFF) })
  else s
/-- OPTICAL_LINK_STATE: the link of a port trains or fails, and the peer's entry for rport is bound back to this module and port or not
(R354). -/
def opticalLinkState (s : State) (i : Nat) (up back : Bool) : State :=
  let put (b : Bool) (l : List Nat) : List Nat := if b then insertNat i l else l.filter (· != i)
  if 32 ≤ i then s else s.modMgmt (fun m => { m with up := put up m.up, back := put back m.back })

/-- PEER_REPLICA_WRITE: a peer's write to a replicated page lands on the landing die, is copied to the partition's other dies, and
aref is signalled in byte mode with the bytes (R355). Here the copies are made with the landing (log entry 7). It waits while a share of the
partition is being cleared or the page is being migrated, and signals nothing where aref is no slot reference of the partition (DESIGN
CHOICE, log entry 78). poison lists the
poisoned words of the write by the offset of their first byte in it (R220). -/
def peerReplicaWrite (s : State) (i addr : Nat) (bs : List Byte) (poison : List Nat) : State :=
  let e := s.mgmt.ports.get (0, 0) i
  let p := bits e.1.toNat 1 6
  let d := bits e.1.toNat 7 4
  if !(e.1.getLsbD 0) || !(s.portLive i) || !(s.partExists p) || !(s.part p).clearing.isEmpty || bs.isEmpty || s.migrating (d * 2 ^ 36 + addr % 2 ^ 36) bs.length || decide (2 ^ 36 < addr % 2 ^ 36 + bs.length) ||
      s.replicaBusy p addr bs.length then s
  else
    let dies := d :: ((s.shares p).map (·.1)).filter (· != d)
    let t := dies.foldl (fun u x =>
      let k := hbmKey (x * 2 ^ 36 + addr % 2 ^ 36)
      (poison.filter (· < bs.length)).foldl (fun v j => v.addPoison (k + j) 1)
        ((u.keepOlds (x * 2 ^ 36 + addr % 2 ^ 36) bs.length).writeBytes k bs)) s
    let aref := e.2.toNat
    if s.srefOk p aref then
      (t.modPart p (fun q => { q with quiesced := false })).sendSignal (.agent d) { fref := 0, cid := d * 25600, fid := 0, pc := 0, inst := 0, part := p } aref 1 bs.length 4
    else t

end State

/-- COMMIT (R339). -/
def execCommit (v : Word) (s : State) : Out := .next (s.commit v)
/-- DRAIN_MESSAGE (R339). -/
def execDrainMessage (die : Nat) (s : State) : Out := .next (s.drainMessage die)
/-- CLEARING_COMPLETE (R6). -/
def execClearingComplete (p : Nat) (s : State) : Out := .next (s.clearingComplete p)
/-- SPILL_FRAMES (R184). -/
def execSpillFrames (p : Nat) (v : Word) (s : State) : Out := .next (s.spillFrames p v)
/-- SPILL_BASE (R184). -/
def execSpillBase (p d : Nat) (v : Word) (s : State) : Out := .next (s.spillBase p d v)
/-- MIG_GO (R313). -/
def execMigGo (p : Nat) (v : Word) (s : State) : Out := .next (s.migGo p v)
/-- MIGRATION_COMPLETE (R314); whether the copy aborts is free. -/
def execMigrationComplete (p : Nat) (s : State) : Out := .next (s.migrationComplete p (!(Config.copyAborts s.tick)))
/-- ORD_ARM (R335). -/
def execOrdArm (p d i : Nat) (v : Word) (s : State) : Out := .next (s.ordArm p d i v)
/-- ORD_ADDR (R335). -/
def execOrdAddr (p d i : Nat) (v : Word) (s : State) : Out := .next (s.ordAddr p d i v)
/-- ORD_N (R335). -/
def execOrdN (p d i : Nat) (v : Word) (s : State) : Out := .next (s.ordN p d i v)
/-- FA_BASE (R360). -/
def execFaBase (p : Nat) (v : Word) (s : State) : Out := .next (s.faBase p v)
/-- FA_LOG (R360). -/
def execFaLog (p : Nat) (v : Word) (s : State) : Out := .next (s.faLog p v)
/-- PREEMPT (R349). -/
def execPreempt (p : Nat) (s : State) : Out := .next (s.preempt p)
/-- RESUME (R349). -/
def execResume (p : Nat) (s : State) : Out := .next (s.resume p)
/-- CORE_SAVE (R350). -/
def execCoreSave (cid : Nat) (s : State) : Out := .next (s.coreSave cid)
/-- CORE_RESTORE (R353). -/
def execCoreRestore (cid : Nat) (s : State) : Out := .next (s.coreRestore cid)
/-- PORT_ENTRY_WRITE (R354). -/
def execPortEntryWrite (port word : Nat) (v : Word) (s : State) : Out := .next (s.portEntryWrite port word v)
/-- OPTICAL_LINK_STATE (R354). -/
def execOpticalLinkState (port : Nat) (up : Bool × Bool) (s : State) : Out := .next (s.opticalLinkState port up.1 up.2)
/-- PEER_REPLICA_WRITE (R355). -/
def execPeerReplicaWrite (port addr : Nat) (bytes : List Byte × List Nat) (s : State) : Out :=
  .next (s.peerReplicaWrite port addr bytes.1 bytes.2)

end Sys2Proof.Machine
end

