-- ==== Sys2Proof/Machine/Faults.lean ====
section
/-! DEFINITION. Fault records and policies, snapshots, power gating, quiescence, dead cores and soft errors, and the system
instructions of major 0x3E (R359 to R374). Firing a handler is where an exception enters: the record stands in the handler
frame's operand words and its slot 0 fires (R363); the handler's firing ends with `end`, and there is no return to what faulted. -/

namespace Sys2Proof.Machine

/-- Word 0 of a fault record (R361). -/
def recordWord0 (code : BitVec 8) (kind action ext : Nat) (seq : BitVec 32) : Word :=
  BitVec.ofNat 64 (code.toNat + kind % 8 * 2 ^ 8 + action % 4 * 2 ^ 11 + ext % 2 ^ 16 * 2 ^ 16 + seq.toNat * 2 ^ 32)

/-- A list cut into blocks of sixteen 32-bit numbers, each as eight words; the last block ends in zeros (R362). -/
def extBlocks : Nat → List Nat → List (List Word)
  | 0, _ => []
  | _ + 1, [] => []
  | n + 1, l =>
    (List.range 8).map (fun j => BitVec.ofNat 64 (l.getD (2 * j) 0 % 2 ^ 32 + l.getD (2 * j + 1) 0 % 2 ^ 32 * 2 ^ 32)) :: extBlocks n (l.drop 16)

namespace State

/-- The extension records of a record: those of each twmc entry, in the order of the entries (R362). -/
def extRecords (r : FaultRec) : List (List Word) :=
  r.cmds.flatMap (fun c => match r.ext.find? (fun x => x.1 == c.1) with
    | some x => extBlocks (cdiv x.2.length 16) x.2
    | none => [])

/-- The eight words of a record with an action and a ring index (R361). -/
def recordWords (r : FaultRec) (action : Nat) (seq : BitVec 32) : List Word :=
  let tail := if r.cmds.isEmpty then r.rest else (r.cmds.take 4).map (fun c => c.2.getD 0)
  [recordWord0 r.code r.kind action (extRecords r).length seq, r.handle, r.w2, r.w3] ++ (List.range 4).map (fun j => tail.getD j 0)

/-- Records are written one after the other from the ring's head; FA_HEAD counts each (R360). -/
def putRecords (s : State) (p : Nat) : List (List Word) → State
  | [] => s
  | ws :: t =>
    let q := s.part p
    let a := q.faBase.toNat + 64 * (q.faHead.toNat % 2 ^ q.faLog)
    let u := (List.range 8).foldl (fun v j => v.writeW (hbmKey (a + 8 * j)) (ws.getD j 0)) s
    (u.modPart p (fun x => { x with faHead := x.faHead + 1 })).putRecords p t

/-- The record and its extension records enter the fault area; without accepted registers or room they are counted in FA_LOST
(R360). -/
def writeFault (s : State) (r : FaultRec) (action : Nat) : State :=
  let q := s.part r.part
  let used := (q.faHead - q.faTail).toNat
  let ext := extRecords r
  if !(q.faBaseOk && q.faLogOk) || decide (2 ^ q.faLog < used + 1 + ext.length) then
    s.modPart r.part (fun x => { x with faLost := x.faLost + 1 })
  else s.putRecords r.part (recordWords r action q.faHead :: ext)

/-- The core on which a handler's frame is taken: that of the faulting frame, or the place of cb and the handle where that core is
dead (R363). -/
def handlerCore (s : State) (r : FaultRec) (cb : Nat) : Nat :=
  if r.f = 8192 ∨ (s.core r.cid).dead then s.place r.part cb r.handle else r.cid

/-- What a handler's firing acquires: the completion signals of the listed commands that completed, each of which wrote under the number after
its own, and the faulting frame as it stands (R363). -/
def handlerSees (s : State) (r : FaultRec) (e : Older) : Bool :=
  let ended := (r.cmds.filter (fun c => match c.2 with | some w => bits w.toNat 13 2 == 0 | none => false)).map (·.1)
  ended.any (fun id => (e.by_ != 0 && e.num == id + 1) || e.bound.contains (.cmd id)) ||
    (decide (r.f < 8192) && overlaps e.key 8 (s.frameKey r.cid r.f) 256)

/-- HANDLER_FIRE (R363): the handler's frame takes the record in operand words 10 to 17 and its ring index in word 18, and its slot
0 fires. -/
def fireHandler (s : State) (r : FaultRec) (cb cid f : Nat) : State :=
  let i := (s.inst r.inst).getD default
  let seq := (s.part r.part).faHead
  let t := (s.freshFrame cid f).writeFrame cid f cb 0 { inst := r.inst, depth := i.depth, limit := i.limit } []
  let key := t.frameKey cid f
  let ws := recordWords r 1 seq ++ [seq.setWidth 64]
  let u := (List.range 9).foldl (fun v j => v.writeW (key + 80 + 8 * j) (ws.getD j 0)) t
  (u.bindTo (.slot cid f 0) (s.handlerSees r)).signalSlot cid f 0 (u.slotKey cid f 0) (decide (4096 ≤ f))
    [{ val := 0, bytes := 0, fire := true, from_ := agentIssuer r.part r.inst, source := 4 }]

/-- The handler that the policy of a live instance names, with the frame that it takes: codeblock, core and name; none where the instance is
to stop (R363). -/
def handlerFrame (s : State) (r : FaultRec) : Option (Nat × Nat × Nat) :=
  match s.inst r.inst, (s.graphOf r.inst).bind (·.policy) with
  | some i, some cb =>
    let cid := s.handlerCore r cb
    if !r.acts || i.state != 1 || i.stopping != 0 || r.code == 0x20 || r.cb == some cb || (s.core cid).dead then none
    else (s.takeFrame cid).map (fun f => (cb, cid, f))
  | _, _ => none
/-- The turn that the handler's frame takes where it is a spilled one (R183, R330). -/
def handlerTurn (s : State) (r : FaultRec) : Option State :=
  match s.handlerFrame r with | some (_, cid, f) => s.frameTurn cid f | none => some s
/-- The fault's record and the policy of its instance (R363). Action 0: the instance stops; 1: the handler fires; 2: none. -/
def settleFault (s : State) (r : FaultRec) : State :=
  let stop (t : State) : State := (t.writeFault r 0).stopInst r.inst 1
  match s.inst r.inst with
  | none => s.writeFault r (if r.kind = 3 ∧ r.acts = false then 0 else 2)
  | some i =>
    if !r.acts then s.writeFault r (if r.kind = 3 then 0 else 2)
    else if i.state != 1 || i.stopping != 0 then s.writeFault r 2
    else match s.handlerFrame r with
      | none => stop s
      | some (cb, cid, f) => (s.fireHandler r cb cid f).writeFault r 1

/-- The die agent's turn at the head of a partition's fault area, where its registers are accepted (R330, R346, R360). -/
def faultTurn (s : State) (p : Nat) : Option State :=
  let q := s.part p
  if q.faBaseOk && q.faLogOk then s.dieAgentTurn ((q.faBase.toNat + 64 * (q.faHead.toNat % 2 ^ q.faLog)) % 2 ^ 40) else some s

/-- FAULT_RECORD_WRITE: once every listed command is final, the record is written in a turn of the die agent's, the faulting command's count
falls, and the policy applies (R362, R363); a handler's frame that is spilled takes a turn of its own. -/
def faultRecordWrite (s : State) (n : Nat) : State :=
  match s.faults[n]? with
  | none => s
  | some r =>
    if r.cmds.any (fun c => c.2.isNone) then s
    else match s.faultTurn r.part with
      | none => s
      | some u =>
        let t := { u with faults := u.faults.eraseIdx n }
        match (if r.own = 0 then t else t.dropCmd r.own).handlerTurn r with
        | none => s
        | some v => v.settleFault r

/-! ### Snapshots (R370, R372, R373, R383) -/

/-- A trigger is raised. It enters the root at once, unless fences hold it (R229, R370). -/
def raiseTrig (s : State) (part : Option Nat) (r : Ret) (i : Issuer) (cmd : Nat) (fences : List (Nat × Nat)) : State :=
  ({ s with
    trigs := s.trigs.set s.seq { seq := 0, part := part, reached := [], ret := r, from_ := i, cmd := cmd, fences := fences }
    seq := s.seq + 1 } : State).enterRoot s.seq
/-- The issuer of an agent's own work. -/
def noIssuer : Issuer := { fref := 0, cid := 0, fid := 0, pc := 0, inst := 0, part := 64 }
/-- SNAP_TRIG (R370). -/
def snapTrig (s : State) (v : Word) : State :=
  if v.getLsbD 0 then s.raiseTrig none { ow := 0, slot := none, bytes := 8 } noIssuer 0 [] else s

/-- The blocks of a partition, or of the module, that a trigger reaches (R370, R373, R383). -/
def trigBlocks (s : State) (part : Option Nat) : List SnapBlock :=
  let dies : List Nat := match part with | some p => (s.shares p).map (·.1) | none => List.range 16
  let cores : List Nat := match part with | some p => s.partCores p | none => List.range 409600
  let cls : List Nat := match part with | some p => dies.flatMap (s.clustersOf p) | none => List.range 1600
  cores.map SnapBlock.core ++
    dies.flatMap (fun d => [SnapBlock.dieAgent d, .launchAgent d, .power d] ++ (List.range 8).map (SnapBlock.link d)) ++
    cls.flatMap (fun k => (List.range 4).map (SnapBlock.engine k) ++ [.sequencer k])
/-- A trigger reaches a block. -/
def trigHits (s : State) (part : Option Nat) (b : SnapBlock) : Bool :=
  match b with
  | .core c => decide (c < 409600) && (match part with | some p => s.coreIn p c | none => true)
  | .engine k e => decide (k < 1600) && decide (e < 4) && (match part with | some p => s.clusterIn p k | none => true)
  | .sequencer k => decide (k < 1600) && (match part with | some p => s.clusterIn p k | none => true)
  | .dieAgent d => decide (d < 16) && (match part with | some p => (s.shares p).any (fun x => x.1 == d) | none => true)
  | .launchAgent d => decide (d < 16) && (match part with | some p => (s.shares p).any (fun x => x.1 == d) | none => true)
  | .power d => decide (d < 16) && (match part with | some p => (s.shares p).any (fun x => x.1 == d) | none => true)
  | .link d i => decide (d < 16) && decide (i < 8) && (match part with | some p => (s.shares p).any (fun x => x.1 == d) | none => true)

/-- The entries of the splices that a link controller of a die serves: those from the die whose number is its own modulo 8 (R320, log
entry 8). -/
def linkHeld (s : State) (d i : Nat) : Nat :=
  (s.parts.map (fun x => ((x.2.splices.filter (fun y => y.2.src == d && y.1 % 8 == i)).map (fun y => y.2.held)).sum)).sum
/-- The snapshot of a block other than a core: its local cycle count is a free value, and so are the entries of a power controller (log
entry 8); the entries of the others are what waits there. -/
def blockSnap (s : State) (n : BitVec 16) (b : SnapBlock) : Snap :=
  let at_ (l : Loc) : Nat := (s.net.filter (fun x => x.2.dst == l && x.2.pos == .ready)).length
  let occ := match b with
    | .dieAgent d => at_ (.agent d)
    | .launchAgent d => (s.insts.filter (fun x => x.2.die == d && x.2.state == 0)).length
    | .engine k e => (s.walks.filter (fun x => clidOf x.2.from_.cid == k && x.2.engine == e)).length
    | .sequencer k => at_ (.seqr k)
    | .link d i => s.linkHeld d i
    | _ => Config.freeWait (s.tick + 1)
  { seq := n, valid := true, cyc := Config.freeWait s.tick, occ := occ, ctxs := 0, mq := 0, stp := 0 }
/-- The snapshot of a core (R372). -/
def coreSnap (c : Core) (n : BitVec 16) : Snap :=
  { seq := n, valid := true, cyc := c.cyc, occ := c.ready.length
    ctxs := (if c.ctx0.busy then 1 else 0) + (if c.ctx1.busy then 2 else 0), mq := c.mq.length, stp := c.stp.setWidth 32 }
/-- A block latches its snapshot (R370, R383). -/
def latch (s : State) (n : BitVec 16) (b : SnapBlock) : State :=
  let x := s.blockSnap n b
  match b with
  | .core c => s.modCore c (fun k => { k with snap := coreSnap k n })
  | .dieAgent d => s.modDie d (fun k => { k with snaps := k.snaps.set 0 x })
  | .launchAgent d => s.modDie d (fun k => { k with snaps := k.snaps.set 1 x })
  | .power d => s.modDie d (fun k => { k with snaps := k.snaps.set 2 x })
  | .link d i => s.modDie d (fun k => { k with snaps := k.snaps.set (8 + i) x })
  | .engine k e => s.modCluster k (fun q => { q with snaps := q.snaps.set e x })
  | .sequencer k => s.modCluster k (fun q => { q with snaps := q.snaps.set 4 x })

/-- SNAPSHOT_TRIGGER_ARRIVAL: triggers reach a block in root order (R370). A die that stays in reset latches nothing (R376). -/
def snapshotTriggerArrival (s : State) (n : Nat) (b : SnapBlock) : State :=
  match s.trigs.find? (fun x => x.1 == n) with
  | none => s
  | some (_, t) =>
    if !s.mgmt.ok || !(s.trigHits t.part b) || t.reached.contains b || t.root == 0 ||
        s.trigs.any (fun x => x.2.root != 0 && decide (x.2.root < t.root) && s.trigHits x.2.part b && !(x.2.reached.contains b)) then s
    else
      let s1 := s.latch t.seq b
      { s1 with trigs := s1.trigs.set n { t with reached := b :: t.reached } }

/-- SNAP_COMPLETE: a trigger has reached every block; word ow and the slot of a snap follow as one release (R373). -/
def snapComplete (s : State) (n : Nat) : State :=
  match s.trigs.find? (fun x => x.1 == n) with
  | none => s
  | some (_, t) =>
    if !((s.trigBlocks t.part).all (fun b => t.reached.contains b)) then s
    else
      let s1 := { s with trigs := s.trigs.erase n }
      if t.part.isNone || (t.ret.ow = 0 && t.ret.slot.isNone) then s1
      else
        let src : Loc := .agent (dieOf t.from_.cid)
        s1.sendReply src { packetOf .free src (.core t.from_.cid) t.from_.fref t.from_ with ret := t.ret, cmd := t.cmd }
          (t.seq.setWidth 64) false

/-! ### Power gating and quiescence (R367, R369) -/

/-- The partition that holds a cell. -/
def cellPart (s : State) (cell : Nat) : Nat := match cellCores cell with | c :: _ => s.partOf c | [] => 64
/-- A cell is idle (R367). -/
def cellIdle (s : State) (cell : Nat) : Bool :=
  (cellCores cell).all (fun c =>
    let x := s.core c
    !x.ctx0.busy && !x.ctx1.busy && x.ready.isEmpty && x.fill.isEmpty && x.filling.isNone && x.mq.isEmpty &&
      x.landing.all (fun y => y.2.isNone) && !(s.cmds.any (fun y => y.2.from_.cid == c)))
/-- CELL_GATE: an idle cell is gated where GATE = 1 and no reservation lives on its die (R367); the 1,024 cycles are left out (log
entry 9). -/
def cellGate (s : State) (cell : Nat) : State :=
  if decide (cell < 51200) && s.cellIdle cell && (s.part (s.cellPart cell)).gate && s.partExists (s.cellPart cell) &&
      !(dieRsv s.mgmt.region (cell / 3200)) then
    s.setCell cell { s.cell cell with gated := true }
  else s
/-- CELL_WAKE: the wake of a gated cell completes, and its contexts are free (R367). -/
def cellWake (s : State) (cell : Nat) : State :=
  if (s.cell cell).gated then s.setCell cell { s.cell cell with gated := false } else s

/-- A pending launch is able to start (R292). -/
def canStart (s : State) (k : Nat) (i : Inst) : Bool :=
  i.state == 0 && (match s.graphOf k with
    | none => false
    | some g => !(s.descsOk i.part g) || (s.leasesResident i.part g && !(g.pace.isSome && s.pacedLive i.part) && (s.makeRoom i.part i.die).isSome))
/-- Nothing of a partition moves (R369). -/
def quiet (s : State) (p : Nat) : Bool :=
  s.cores.all (fun x => !(s.coreIn p x.1) ||
    (!x.2.ctx0.busy && !x.2.ctx1.busy && x.2.ready.isEmpty && x.2.fill.isEmpty && x.2.filling.isNone)) &&
  s.cmds.all (fun x => x.2.from_.part != p || s.cmdKept x.1) && s.net.all (fun x => x.2.from_.part != p || keptRequest x.2) &&
  !(s.insts.any (fun x => x.2.part == p && s.canStart x.1 x.2))

/-- The armed slot references of an instance (R361). -/
def armedSlots (s : State) (k : Nat) : List Nat :=
  s.cores.flatMap (fun x => (s.framesOf x.1 x.2 k).flatMap (fun f =>
    ((List.range 8).filter (fun j => slArmed (s.readW (s.slotKey x.1 f j)))).map (fun j => mkSref x.1 f j)))
/-- The held step requests and collected reduction requests that an instance's frames issued (R361). -/
def keptRequests (s : State) (k : Nat) : Nat :=
  (s.net.filter (fun x => keptRequest x.2 && x.2.from_.inst == k)).length
/-- QUIESCENCE: one kind-5 record for each live instance (R369); the 65,536 cycles are left out (log entry 9). The agents write none
again until the partition has left quiescence, which they see while it moves, and which the arrival of a peer's write, the start of an
instance or of a firing is too. -/
def quiescence (s : State) (p : Nat) : State :=
  if !(s.partExists p) then s
  else if !(s.quiet p) then s.modPart p (fun q => { q with quiesced := false })
  else if (s.part p).quiesced then s
  else
    let live := s.insts.filter (fun x => x.2.part == p && x.2.state == 1)
    let t := live.foldl (fun u x =>
      let a := s.armedSlots x.1
      u.addFault
        { kind := 5, code := 0, part := p, inst := x.1, handle := x.2.handle, cid := x.2.die * 25600, f := 8192
          w2 := BitVec.ofNat 64 (a.tail.foldl min (a.headD 0)), w3 := BitVec.ofNat 64 (a.length % 2 ^ 32 + s.keptRequests x.1 * 2 ^ 32)
          rest := [0, 0, 0, 0], cmds := [], ext := [], cb := none, own := 0, acts := false }) s
    t.modPart p (fun q => { q with quiesced := true })

/-! ### Dead cores and errors (R345, R365, R366, R368) -/

/-- The instances with an allocated frame on a core, each with the name of its lowest frame. -/
def instsOn (s : State) (cid : Nat) : List (Nat × Nat) :=
  let c := s.core cid
  (c.owners.map (fun x => x.2.inst)).eraseDups.filterMap (fun k =>
    match s.framesOf cid c k with
    | [] => none
    | f :: t => if (s.inst k).isSome then some (k, t.foldl min f) else none)
/-- A kind-3 record of an instance (R361). -/
def instFault (s : State) (k cid f : Nat) (code : Code) : State :=
  match s.inst k with
  | none => s
  | some i => s.addFault
      { kind := 3, code := code, part := i.part, inst := k, handle := i.handle, cid := cid, f := f, w2 := BitVec.ofNat 64 (mkFref cid f)
        w3 := 0, rest := [], cmds := [], ext := [], cb := none, own := 0, acts := true }
/-- The progress of a matrix command that ends before it is done: the rows of an mdrain, not done for any other (R362). -/
def drained (m : MCmd) : Nat := match m.op with | .mdrain .. => m.rows | _ => 0
/-- A core is reset: it runs nothing more, its own matrix commands are lost, and the tiles that have landed in it and the requests that its
step unit held are refused (R368); a partition whose requests are refused is not quiescent then (R369). -/
def killCore (s : State) (cid : Nat) : State :=
  let c := s.core cid
  let s1 := s.modCore cid (fun c => { c with dead := true, ctx0 := Ctx.init, ctx1 := Ctx.init, mq := [], heldq := [], stepds := [], landing := [] })
  let s2 := c.mq.foldl (fun t m => t.finishCmd m.cmd 0 (drained m) []) s1
  let s3 := c.landing.foldl (fun t l => match l.2 with | some x => t.failCmd x.cmd 0x38 0 [] | none => t) s2
  let s4 := if c.heldq.isEmpty then s3 else s3.modPart (s.partOf cid) (fun q => { q with quiesced := false })
  c.heldq.foldl (fun t n => match t.packet n with
    | some p => (t.dropPacket n).failCmd p.cmd 0x38 0 []
    | none => t) s4
/-- An entry of a repair map names the position of a core (R377). -/
def repairs (cid : Nat) (e : BitVec 32) : Bool :=
  bits e.toNat 0 4 == dieOf cid && bits e.toNat 4 7 == clusOf cid && bits e.toNat 11 8 == localY cid % 16 * 16 + localX cid % 16
/-- The hardware at a position under a repair map: 8 for the core itself, or the spare that replaces it (R377). -/
def hardwareAt (map : List (BitVec 32)) (cid : Nat) : Nat :=
  match map.find? (repairs cid) with
  | some e => bits e.toNat 19 3
  | none => 8
/-- CORE_RESET: a core fails; each instance with a frame on it has a kind-3 record with code 0x38 (R368), and the hardware at its
position stays mapped out until a map replaces it by hardware that has not failed (R378). While every die stays in reset that mark is all
there is (R376). -/
def coreReset (s : State) (cid : Nat) : State :=
  if 409600 ≤ cid then s
  else
    let h := hardwareAt s.mgmt.repair cid
    let t0 := s.modCore cid (fun c => { c with bad := true })
    let t := if h = 8 then t0 else t0.modCluster (clidOf cid) (fun k => { k with bad := insertNat h k.bad })
    if (s.core cid).dead || !s.mgmt.ok then t
    else (s.instsOn cid).foldl (fun t x => t.instFault x.1 cid x.2 0x38) (t.killCore cid)
/-- THERMAL_TRIP: every core of the die is reset (R345, R368); the die's engines, sequencer, agents, crossbars and reduction entries go on as
they are (DESIGN CHOICE, log entry 80). -/
def thermalTrip (s : State) (d : Nat) : State :=
  if 16 ≤ d ∨ s.mgmt.ok = false then s
  else
    let on := (s.cores.filter (fun x => dieOf x.1 == d && !x.2.dead)).flatMap (fun x => (s.instsOn x.1).map (fun y => (y.1, x.1, y.2)))
    let first := on.foldl (fun (l : List (Nat × Nat × Nat)) y => if l.any (fun z => z.1 == y.1) then l else l ++ [y]) []
    let s1 := (List.range 25600).foldl (fun t i => if (t.core (d * 25600 + i)).dead then t else t.killCore (d * 25600 + i)) s
    (first.foldl (fun t y => t.instFault y.1 y.2.1 y.2.2 0x38) s1).modDie d (fun x => { x with trip := true })

/-- A 32-bit count that saturates. -/
def satUp (n : BitVec 32) : BitVec 32 := if n = BitVec.allOnes 32 then n else n + 1
/-- UNCORRECTABLE_ERROR: slot-unit words or a ready-queue entry of a frame cannot be read: the owner's kind-3 record with code 0x21;
where the owner cannot be read either, that of every instance with a frame on the core (R366). -/
def uncorrectableError (s : State) (cid f : Nat) (ownerRead : Bool) : State :=
  if s.mgmt.ok = false then s else
  let t := s.modCore cid (fun c => { c with eccUe := satUp c.eccUe })
  if ownerRead then (if (s.instsOn cid).any (fun x => x.1 == s.ownerOf cid f) then t.instFault (s.ownerOf cid f) cid f 0x21 else t)
  else (s.instsOn cid).foldl (fun u x => u.instFault x.1 cid x.2 0x21) t
/-- A frame of a core's carve-out whose slot-unit words hold a scratchpad offset, by name: a resident copy goes by the frame it holds. -/
def slotFrame (s : State) (cid off : Nat) : Option Nat :=
  let b := s.carveBase cid
  if b ≤ off ∧ (off - b) % 256 < 80 then
    let h := s.readW (s.localKey cid ((off - b) / 256))
    some (if hdrCopy h then 4096 + hdrHome h else (off - b) / 256)
  else none
/-- SOFT_ERROR: a read finds one flipped bit of an aligned word, which is corrected and counted, or more, which leave the word poisoned
and are counted as uncorrectable (R365, R366; log entry 37). The count is its core's for a core's scratchpad and its die's for the other
levels. The slot unit cannot use a poisoned slot-unit word: the frame's owner has its kind-3 record. -/
def softError (s : State) (key n : Nat) : State :=
  let w := key / 8 * 8
  let off := w % 2 ^ 60
  let cid := off / 2 ^ 17
  let ofDie (d : Nat) : State :=
    s.modDie d (fun x => if n = 1 then { x with eccCe := satUp x.eccCe } else { x with eccUe := satUp x.eccUe })
  if n = 0 ∨ 4 ≤ w / 2 ^ 60 ∨ s.mgmt.ok = false then s
  else match w / 2 ^ 60 with
    | 0 =>
      if n = 1 then s.modCore cid (fun c => { c with eccCe := satUp c.eccCe })
      else match s.slotFrame cid (off % 2 ^ 17) with
        | some f => (s.uncorrectableError cid f true).addPoison w 8
        | none => (s.modCore cid (fun c => { c with eccUe := satUp c.eccUe })).addPoison w 8
    | 1 => if n = 1 then ofDie (off / 2 ^ 22 / 100) else (ofDie (off / 2 ^ 22 / 100)).addPoison w 8
    | 2 => if n = 1 then ofDie (off / 2 ^ 28) else (ofDie (off / 2 ^ 28)).addPoison w 8
    | _ => if n = 1 then ofDie (off / 2 ^ 36) else (ofDie (off / 2 ^ 36)).addPoison w 8

/-! ### System instructions (R371 to R374) -/

/-- The value of a system register (R372). -/
def sysReg (s : State) (sel : Nat) : Word :=
  let c := s.core s.cur.1
  let cid := s.cur.1
  match sel with
  | 0x000 => BitVec.ofNat 64 (dieOf cid + coreIdx cid * 2 ^ 4 + clusOf cid * 2 ^ 19 + cellIn cid * 2 ^ 26 + posOf cid * 2 ^ 31)
  | 0x001 => BitVec.ofNat 64 (s.myPart % 64 + (if partRsv s.mgmt.region s.myPart then 64 else 0))
  | 0x002 => s.handleOf s.ctx.inst
  | 0x003 => BitVec.ofNat 64 (s.ctx.depth % 32 + s.ctx.limit % 32 * 2 ^ 8)
  | 0x010 => BitVec.ofNat 64 (c.snap.seq.toNat + (if c.snap.valid then 2 ^ 16 else 0))
  | 0x011 => BitVec.ofNat 64 c.snap.cyc
  | 0x012 => BitVec.ofNat 64 (c.snap.occ % 2 ^ 12 + c.snap.ctxs % 4 * 2 ^ 12 + c.snap.mq % 16 * 2 ^ 14 + c.snap.stp.toNat * 2 ^ 32)
  | 0x020 => c.eccCe.setWidth 64
  | _ => c.eccUe.setWidth 64
/-- sysr (R372). -/
def sysr (f : WForm) (s : State) : Except Code State := s.writeS f.d (s.sysReg (f.fld 14 12))
/-- sysw (R372). -/
def sysw (f : WForm) (s0 : State) : Except Code State := do
  let (a, s) ← s0.readS f.a
  pure (s.modCur (fun c => if f.fld 14 12 = 0x20 then { c with eccCe := a.setWidth 32 } else { c with eccUe := a.setWidth 32 }))
/-- brk: with TRACE = 1 a kind-4 record holds A and B (R374). -/
def brk (f : WForm) (s0 : State) : Except Code State := do
  let (a, b, s) ← s0.readAB f
  if (s.part s.myPart).trace then
    pure (s.addFault
      { kind := 4, code := 0, part := s.myPart, inst := s.ctx.inst, handle := s.handleOf s.ctx.inst, cid := s.cur.1, f := frefName s.ctx.fref
        w2 := BitVec.ofNat 64 (s.ctx.slot * 2 ^ 32 + s.ctx.fref), w3 := BitVec.ofNat 64 (s.ctx.ipc.toNat % 2 ^ 32), rest := [a, b, 0, 0]
        cmds := [], ext := [], cb := none, own := 0, acts := false })
  else pure s
/-- snap (R373). -/
def snap (f : WForm) (s0 : State) : Except Code State := do
  let (c, s) ← s0.readS f.c
  let slot ← s.compSlot f.c c
  let r : Ret := { ow := f.ow, slot := slot, bytes := if f.ow = 0 then 1 else 8 }
  if slot.isNone then pure (s.raiseTrig (some s.myPart) r s.issuer 0 s.ctx.fences)
  else do
    s.asyncRoom
    let (t, id) := s.newCmd 0x3E 4
    pure (t.raiseTrig (some t.myPart) r t.issuer id t.ctx.fences)

end State

/-- trap (R373): the firing faults with code 0x3F, and I stands in word 3 of its record. -/
def trapWith (len : Nat) (g : BitVec 4) (e : Nat) (s : State) : Out :=
  let s1 := s.countIssue len
  if guardHolds g s1.ctx then .next (s1.takeFault 0x3F e) else .next s1

/-- FAULT_RECORD_WRITE (R362). -/
def execFaultRecordWrite (n : Nat) (s : State) : Out := .next (s.faultRecordWrite n)
/-- SNAP_TRIG (R370). -/
def execSnapTrig (v : Word) (s : State) : Out := .next (s.snapTrig v)
/-- SNAPSHOT_TRIGGER_ARRIVAL (R370). -/
def execSnapshotTriggerArrival (trig : Nat) (block : SnapBlock) (s : State) : Out := .next (s.snapshotTriggerArrival trig block)
/-- SNAP_COMPLETE (R373). -/
def execSnapComplete (trig : Nat) (s : State) : Out := .next (s.snapComplete trig)
/-- CELL_GATE (R367). -/
def execCellGate (cell : Nat) (s : State) : Out := .next (s.cellGate cell)
/-- CELL_WAKE (R367). -/
def execCellWake (cell : Nat) (s : State) : Out := .next (s.cellWake cell)
/-- QUIESCENCE (R369). -/
def execQuiescence (p : Nat) (s : State) : Out := .next (s.quiescence p)
/-- THERMAL_TRIP (R345). -/
def execThermalTrip (die : Nat) (s : State) : Out := .next (s.thermalTrip die)
/-- CORE_RESET (R368). -/
def execCoreReset (cid : Nat) (s : State) : Out := .next (s.coreReset cid)
/-- UNCORRECTABLE_ERROR (R366). -/
def execUncorrectableError (cid f : Nat) (ownerRead : Bool) (s : State) : Out := .next (s.uncorrectableError cid f ownerRead)
/-- SOFT_ERROR (R365). -/
def execSoftError (key bits : Nat) (s : State) : Out := .next (s.softError key bits)
/-- sysr (R372). -/
def execSysr (f : WForm) (s : State) : Out := issue 8 f.guard s (State.sysr f)
/-- sysw (R372). -/
def execSysw (f : WForm) (s : State) : Out := issue 8 f.guard s (State.sysw f)
/-- trap, W form: imm18 (R373). -/
def execTrap (f : WForm) (s : State) : Out := trapWith 8 f.guard f.sub.toNat s
/-- trap, X form: the literal (R373). -/
def execTrapX (f : XForm) (s : State) : Out := trapWith 12 f.guard f.lit.toNat s
/-- brk (R374). -/
def execBrk (f : WForm) (s : State) : Out := issue 8 f.guard s (State.brk f)
/-- snap (R373). -/
def execSnap (f : WForm) (s : State) : Out := issue 8 f.guard s (State.snap f)

end Sys2Proof.Machine
end

