-- ==== Sys2Proof/Machine/Pacing.lean ====
section
/-! DEFINITION. Neighbour-paced steps: the step units and major 0x38 (R254 to R266). -/

namespace Sys2Proof.Machine

/-- The finished count f = stp + done (R256). -/
def finCount (x : Word × Bool) : Nat := x.1.toNat + (if x.2 then 1 else 0)

namespace State

/-! ### The sets of a core (R255) -/

/-- The cores at the offsets of a list that lie in the partition. -/
def atOffsets (s : State) (p cid : Nat) (l : List (Int × Int)) : List Nat :=
  (l.map (fun o => atOffset cid o.1 o.2)).filter (s.coreIn p)
/-- The cores that have a core in their dependence or watch set: those at the core minus each offset, each once (R255, R256). -/
def pacedBy (s : State) (p cid : Nat) (x : Pace) : List Nat :=
  (s.atOffsets p cid ((x.dep ++ x.watch).map (fun o => (-o.1, -o.2)))).dedup

/-- The notices that leave when stp or done of a core changes (R256). A notice names the core that it is for by its frame 0. -/
def sendNotices (s : State) (cid : Nat) : State :=
  let c := s.core cid
  match c.pace with
  | none => s
  | some x =>
    let p := s.partOf cid
    (s.pacedBy p cid x).foldl (fun t r => t.send (packetOf (.notice cid c.stp c.done) (.core cid) (.core r) (mkFref r 0) (agentIssuer p 0))) s

/-- STEP_NOTICE: a notice replaces the known pair where it carries a larger finished count (R256). -/
def stepNotice (s : State) (k : Nat) : State :=
  match s.packet k with
  | none => s
  | some p =>
    match p.body, p.dst with
    | .notice src stp done, .core cid =>
      if mayApply s k p && s.coreOpen cid && (s.settlePace cid).paceSettled cid then
        ((s.dropPacket k).settlePace cid).modCore cid (fun c =>
          if finCount (c.known.get (0, false) src) < finCount (stp, done) then { c with known := c.known.set src (stp, done) } else c)
      else s
    | _, _ => s

/-! ### Requests at the owner (R259 to R261, R264 to R266) -/

/-- The owner has finished step q (R256). -/
def finished (c : Core) (q : Nat) : Bool := decide (q < c.stp.toNat) || (c.stp.toNat == q && c.done)
/-- The depth D of the graph that issued a request; none where its instance is no longer known. -/
def depthOf (s : State) (p : Packet) : Option Nat :=
  match s.graphOf p.from_.inst with
  | some g => g.pace.map (·.depth)
  | none => none
/-- Ldst k as a reader: what the stepd of step q of its owner passes stands before it (R264). -/
def stepReader (k : Nat) (p : Packet) (owner q : Nat) : Reader := { readerOf k p with also := some (.step owner q) }
/-- The answer to an ldst: z bytes of the entry, with their poison, and what the stepd of step q passes (R246, R264). -/
def answerLdst (s : State) (k : Nat) (p : Packet) (owner D : Nat) : State :=
  match p.body with
  | .ldst z u q es off =>
    let key := coreKey owner (off + q % D * (8 * 2 ^ es))
    let r := stepReader k p owner q
    (((s.dropPacket k).saw r key z).bindTo (.cover s.seq) (fun e => e.bound.contains (.step owner q))).sendReply p.dst p
      (extend z u (s.seenN r key z)) (s.poisoned key z)
  | _ => s
/-- The answer to a stepq: stp in [62:0], done in [63], and what the stepds of the steps below q pass (R265). -/
def answerStepq (s : State) (k : Nat) (p : Packet) (owner q : Nat) : State :=
  let c := s.core owner
  ((s.dropPacket k).bindTo (.cover s.seq) (fun e => e.bound.any (fun x => match x with | .step o n => o == owner && decide (n < q) | _ => false))).sendReply p.dst p (BitVec.ofNat 64 (c.stp.toNat % 2 ^ 63 + (if c.done then 2 ^ 63 else 0))) false
/-- A request whose instance is known no longer is discarded and signals nothing (R254). -/
def discard (s : State) (k : Nat) (p : Packet) : State := (s.dropPacket k).finishCmd p.cmd 0 0 []
/-- A held request is served where its step has come; it never turns stale (R261, R264, R265). -/
def serveOne (s : State) (owner k : Nat) : State :=
  match s.packet k with
  | none => s
  | some p =>
    let off (t : State) : State := t.modCore owner (fun c => { c with heldq := c.heldq.filter (· != k) })
    match p.body with
    | .ldst _ _ q _ _ =>
      if finished (s.core owner) q then
        match s.depthOf p with
        | some D => (off s).answerLdst k p owner D
        | none => (off s).discard k p
      else s
    | .stepq q => if q ≤ (s.core owner).stp.toNat then (off s).answerStepq k p owner q else s
    | _ => s
/-- Requests put in ascending order of their sending core (R261). -/
def bySender (s : State) (k : Nat) : List Nat → List Nat
  | [] => [k]
  | j :: t =>
    let c (n : Nat) : Nat := match s.packet n with | some p => p.from_.cid | none => 0
    if c k ≤ c j then k :: j :: t else j :: bySender s k t
/-- Step 3 of R261 for the requests that a core holds. -/
def serveHeld (s : State) (owner : Nat) : State :=
  ((s.core owner).heldq.foldr (fun k l => s.bySender k l) []).foldl (fun t k => t.serveOne owner k) s
/-- A request that must wait is held, or returned where all 64 places are taken (R266). -/
def holdStep (s : State) (owner k : Nat) (p : Packet) : State :=
  if (s.core owner).heldq.length < 64 then
    (s.setPacket k { p with pos := .kept }).modCore owner (fun c => { c with heldq := c.heldq ++ [k] })
  else s.setPacket k { p with pos := .returned }

/-- The instance of a request is being ended: a request that a step unit would hold is discarded (R254). -/
def endedRequest (s : State) (p : Packet) : Bool := s.stopping p.from_.inst
/-- A request that its step has not come for: held, or discarded where its instance is being ended (R254). -/
def mustWait (s : State) (owner k : Nat) (p : Packet) : State := if s.endedRequest p then s.discard k p else s.holdStep owner k p

/-- LDST_REQUEST (R264). -/
def ldstRequest (s0 : State) (k : Nat) : State :=
  match s0.packet k with
  | none => s0
  | some p =>
    match p.body, p.dst with
    | .ldst _ _ q _ _, .core owner =>
      let s := s0.settlePace owner
      if mayApply s k p && s.coreOpen owner && s.paceSettled owner then
        match s.depthOf p with
        | none => s.discard k p
        | some D =>
          if !(finished (s.core owner) q) then s.mustWait owner k p
          else if q + D ≤ (s.core owner).stp.toNat then (s.dropPacket k).failCmd p.cmd 0x18 0 []
          else s.answerLdst k p owner D
      else s
    | _, _ => s0

/-- STEPQ_REQUEST (R265). -/
def stepqRequest (s0 : State) (k : Nat) : State :=
  match s0.packet k with
  | none => s0
  | some p =>
    match p.body, p.dst with
    | .stepq q, .core owner =>
      let s := s0.settlePace owner
      if mayApply s k p && s.coreOpen owner && s.paceSettled owner then
        (if q ≤ (s.core owner).stp.toNat then s.answerStepq k p owner q else s.mustWait owner k p)
      else s
    | _, _ => s0

/-- STEP_REQUEST_RESEND (R266). -/
def stepResend (s : State) (k : Nat) : State :=
  match s.packet k with
  | none => s
  | some p =>
    if p.pos = .returned then
      s.setPacket k { p with gen := s.mgmt.gen, splice := 64, pos := if direct p.src p.dst then .ready else .sender }
    else s

/-! ### Finishing and advancing (R256, R257, R261, R263) -/

/-- What a stepd passes to those who learn that its step is finished: its firing's accesses before it, and what the firing acquired (R263). -/
def passStep (s : State) (cid fid : Nat) : State :=
  let c := s.core cid
  let n := ((c.stepds.filter (fun x => x.1 == fid && !(s.unperformed fid cid x.2))).map (·.2)).foldl max 0
  s.bindTo (.step cid c.stp.toNat) (fun e => (e.fid == fid && decide (e.by_ ≤ 1) && decide (e.num ≤ n)) || e.bound.contains (.firing fid))

/-- STEPD_DONE: everything that the firing of a stepd issued before it is performed within mod, though answers may still be on their way:
done becomes 1, the notices leave, and the requests held for the step are served (R261, R263). A stepd that stands beside it has no effect any more. -/
def stepdDone (s : State) (cid fid : Nat) : State :=
  let c := s.core cid
  if c.dead || c.saved || c.done || !(s.paceSettled cid) then s
  else if c.stepds.any (fun x => x.1 == fid && !(s.unperformed fid cid x.2)) then
    (((s.passStep cid fid).modCore cid (fun c => { c with done := true, stepds := [] })).sendNotices cid).serveHeld cid
  else s

/-- The tests of R257. -/
def mayAdvance (s : State) (cid : Nat) : Bool :=
  let c := s.core cid
  match c.pace with
  | none => false
  | some x =>
    let p := s.partOf cid
    let f (q : Nat) : Nat := finCount (c.known.get (0, false) q)
    c.done && !c.ctx0.busy && !c.ctx1.busy && !c.dead && !c.saved && s.paceSettled cid &&
      (s.atOffsets p cid x.dep).all (fun q => decide (c.stp.toNat + 1 ≤ f q)) &&
      (s.atOffsets p cid x.watch).all (fun w => decide (c.stp.toNat + 3 ≤ f w + x.depth))

/-- STEP_ADVANCE: stp rises by 1 and done becomes 0; the notices leave, so that the partition is not quiescent (R369), and the requests that
this answers are served (R257, R261, R265). -/
def stepAdvance (s : State) (cid : Nat) : State :=
  if s.mayAdvance cid then
    (((s.modPart (s.partOf cid) (fun q => { q with quiesced := false })).modCore cid (fun c => { c with stp := c.stp + 1, done := false })).sendNotices
      cid).serveHeld cid
  else s

/-! ### Instructions (R262 to R265) -/

/-- The pacing of the firing's graph; a graph without one has no instruction of major 0x38 (R254). -/
def pacing (s : State) : Except Code Pace :=
  match s.graphOf s.ctx.inst with
  | some g => match g.pace with | some x => .ok x | none => .error 0x01
  | none => .error 0x01

/-- stepd (R263). -/
def stepdOp (s : State) : Except Code State := do
  let _ ← s.pacing
  if (s.core s.cur.1).done then pure s
  else pure ({ s with seq := s.seq + 1 }.modCur (fun c => { c with stepds := c.stepds ++ [(s.ctx.fid, s.seq)] }))

/-- ldst (R262, R264): width in [20:19], u in [21], es in [25:22] of parcel 1. -/
def ldstOp (f : WForm) (s0 : State) : Except Code State := do
  let x ← s0.pacing
  let (a, b, s1) ← s0.readAB f
  let (c, s) ← s1.readS f.c
  let slot ← s.compSlot f.c c
  let (owner, off) ← match s.placeOf s.myPart a.toNat 1 with | some (.core o, _, off) => Except.ok (o, off) | _ => .error 0x04
  s.splicesTo (dieOf owner) true
  s.asyncRoom
  let z := widthBytes (f.fld 19 2)
  let e := 8 * 2 ^ f.fld 22 4
  need (decide (off % z = 0)) 0x03
  need (decide (off + (x.depth - 1) * e + z ≤ 0x20000)) 0x04
  let (s4, id) := s.newCmd 0x38 1
  pure (s4.send (s4.request (.ldst z (f.fld 21 1 == 1) b.toNat (f.fld 22 4) off) (.core owner) s4.ctx.fref
    { ow := f.ow, slot := slot, bytes := 8 } id f.ord (coreKey owner (off + b.toNat % x.depth * e)) z))

/-- stepq (R262, R265): bits [12:0] of the FREF are ignored. -/
def stepqOp (f : WForm) (s0 : State) : Except Code State := do
  let _ ← s0.pacing
  let (a, b, s1) ← s0.readAB f
  let (c, s) ← s1.readS f.c
  let slot ← s.compSlot f.c c
  need (decide (a.toNat < 2 ^ 32 ∧ bits a.toNat 13 15 < 25600) && s.coreIn s.myPart (frefCore a.toNat)) 0x12
  s.splicesTo (dieOf (frefCore a.toNat)) true
  s.asyncRoom
  let (s4, id) := s.newCmd 0x38 2
  pure (s4.send { s4.notice (.stepq b.toNat) (.core (frefCore a.toNat)) s4.ctx.fref with
    ret := { ow := f.ow, slot := slot, bytes := 8 }, cmd := id })

end State

/-- stepd (R263). -/
def execStepd (f : WForm) (s : State) : Out := issue 8 f.guard s State.stepdOp
/-- ldst (R264). -/
def execLdst (f : WForm) (s : State) : Out := issue 8 f.guard s (State.ldstOp f)
/-- stepq (R265). -/
def execStepq (f : WForm) (s : State) : Out := issue 8 f.guard s (State.stepqOp f)
/-- STEPD_DONE (R263). -/
def execStepdDone (cid fid : Nat) (s : State) : Out := .next (s.stepdDone cid fid)
/-- STEP_ADVANCE (R257). -/
def execStepAdvance (cid : Nat) (s : State) : Out := .next (s.stepAdvance cid)
/-- STEP_NOTICE (R256). -/
def execStepNotice (pkt : Nat) (s : State) : Out := .next (s.stepNotice pkt)
/-- LDST_REQUEST (R264). -/
def execLdstRequest (pkt : Nat) (s : State) : Out := .next (s.ldstRequest pkt)
/-- STEPQ_REQUEST (R265). -/
def execStepqRequest (pkt : Nat) (s : State) : Out := .next (s.stepqRequest pkt)
/-- STEP_REQUEST_RESEND (R266). -/
def execStepRequestResend (pkt : Nat) (s : State) : Out := .next (s.stepResend pkt)

end Sys2Proof.Machine
end

