-- ==== Sys2Proof/Machine/Scalar.lean ====
section
/-! DEFINITION. The scalar, predicate, select, counter and control instructions: majors 0x00 to 0x07 (R90 to R112). -/

namespace Sys2Proof.Machine

/-! ### Results (R93, R94, R96, R98) -/

/-- mulh: bits [127:64] of the signed product (R93). -/
def mulHigh (a b : Word) : Word := BitVec.ofInt 64 (a.toInt * b.toInt / 2 ^ 64)
/-- mulhu: bits [127:64] of the unsigned product (R93). -/
def mulHighU (a b : Word) : Word := BitVec.ofNat 64 (a.toNat * b.toNat / 2 ^ 64)
/-- div (R93, R94): truncated toward zero; a zero divisor gives all ones, −2^63 / −1 gives −2^63. -/
def divS (a b : Word) : Word := if b = 0 then BitVec.allOnes 64 else BitVec.ofInt 64 (a.toInt.tdiv b.toInt)
/-- divu (R93, R94). -/
def divU (a b : Word) : Word := if b = 0 then BitVec.allOnes 64 else BitVec.ofNat 64 (a.toNat / b.toNat)
/-- rem (R93, R94): the sign is that of A; a zero divisor gives A. -/
def remS (a b : Word) : Word := if b = 0 then a else BitVec.ofInt 64 (a.toInt.tmod b.toInt)
/-- remu (R93, R94). -/
def remU (a b : Word) : Word := if b = 0 then a else BitVec.ofNat 64 (a.toNat % b.toNat)
/-- The shift count B[5:0] (R93). -/
def shCount (b : Word) : Nat := b.toNat % 64
/-- shl (R93). -/
def shlW (a b : Word) : Word := a <<< shCount b
/-- shr (R93). -/
def shrW (a b : Word) : Word := a >>> shCount b
/-- sar (R93). -/
def sarW (a b : Word) : Word := a.sshiftRight (shCount b)
/-- rol (R93). -/
def rolW (a b : Word) : Word := a.rotateLeft (shCount b)
/-- The number of leading zero bits among the n low bits (R98). -/
def leadZeros (a : Word) : Nat → Nat
  | 0 => 0
  | n + 1 => if a.getLsbD n then 0 else leadZeros a n + 1
/-- The number of trailing zero bits among n bits from bit i up (R98). -/
def trailZeros (a : Word) (i : Nat) : Nat → Nat
  | 0 => 0
  | n + 1 => if a.getLsbD i then 0 else trailZeros a (i + 1) n + 1
/-- The number of one bits (R98). -/
def popCount (a : Word) : Nat := ((List.range 64).filter (fun i => a.getLsbD i)).length
/-- brev (R98). -/
def bitReverse (a : Word) : Word := a.reverse
/-- bext: len bits from pos (R98). -/
def bitExtract (a : Word) (pos len : Nat) : Word := BitVec.ofNat 64 (a.toNat / 2 ^ pos % 2 ^ len)
/-- bins: len bits of D from pos replaced by the low bits of A (R98). -/
def bitInsert (d a : Word) (pos len : Nat) : Word :=
  let m : Word := BitVec.ofNat 64 ((2 ^ len - 1) * 2 ^ pos)
  (d &&& ~~~m) ||| ((a <<< pos) &&& m)
/-- sext: A[n−1:0] sign-extended (R98). -/
def signExtendN (a : Word) (n : Nat) : Word := (a <<< (64 - n)).sshiftRight (64 - n)
/-- zext: A[n−1:0] zero-extended (R98). -/
def zeroExtendN (a : Word) (n : Nat) : Word := BitVec.ofNat 64 (a.toNat % 2 ^ n)

namespace State

/-- d <- g(A, B), the operands popped in the order a, b (R90, R93). -/
def binOp (g : Word → Word → Word) (f : WForm) (s0 : State) : Except Code State := do
  let (a, b, s) ← s0.readAB f
  s.writeS f.d (g a b)
/-- d <- g(A), for the immediate and bit-field instructions (R96, R98). -/
def unOp (g : Word → Word) (f : WForm) (s0 : State) : Except Code State := do
  let (a, s) ← s0.readS f.a
  s.writeS f.d (g a)
/-- bins: D is a source too, popped after A (R99). -/
def binsOp (f : WForm) (s0 : State) : Except Code State := do
  let (a, s1) ← s0.readS f.a
  let (d, s) ← s1.readS f.d
  s.writeS f.d (bitInsert d a f.pos f.len)
/-- cmp (R100, R101). -/
def cmpOp (f : WForm) (s0 : State) : Except Code State := do
  let (a, b, s) ← s0.readAB f
  pure (s.writeP f.d.toNat (intCond f.c.toNat a b))
/-- cmpi with its immediate (R100, R101). -/
def cmpiOp (f : WForm) (y : Word) (s0 : State) : Except Code State := do
  let (a, s) ← s0.readS f.a
  pure (s.writeP f.d.toNat (intCond f.c.toNat a y))
/-- A predicate from two predicates (R102). -/
def predOp (g : Bool → Bool → Bool) (f : WForm) (s : State) : Except Code State :=
  .ok (s.writeP f.d.toNat (g (s.readP f.a.toNat) (s.readP f.b.toNat)))
/-- pset: p1 to p7 from A[7:1] (R102). -/
def psetOp (f : WForm) (s0 : State) : Except Code State := do
  let (a, s) ← s0.readS f.a
  pure (s.modCtx (fun k => { k with p := a.setWidth 8 &&& 0xFE }))
/-- pget: bit i is pi, bit 0 is 1 (R102). -/
def pgetOp (f : WForm) (s : State) : Except Code State := s.writeS f.d ((s.ctx.p ||| 1).setWidth 64)
/-- sel: both operands are read (R103). -/
def selOp (f : WForm) (s0 : State) : Except Code State := do
  let (a, b, s) ← s0.readAB f
  s.writeS f.d (if s.readP f.c.toNat then a else b)
/-- lea with its immediate (R104). -/
def leaOp (f : WForm) (i : Word) (s0 : State) : Except Code State := do
  let (a, b, s) ← s0.readAB f
  s.writeS f.d (a + (b <<< (f.c.toNat % 8)) + i)
/-- rdcyc: the cycle in which it issues (R106). -/
def rdcycOp (f : WForm) (s : State) : Except Code State := s.writeS f.d (BitVec.ofNat 64 (s.core s.cur.1).cyc)
/-- rdcnt (R107, R108): sel in parcel 1 [17:14], clr in [18]. -/
def rdcntOp (f : WForm) (s : State) : Except Code State :=
  let c := s.core s.cur.1
  match f.fld 14 4 with
  | 0 => (if f.fld 18 1 = 1 then s.modCur (fun c => { c with conflicts := 0 }) else s).writeS f.d (BitVec.ofNat 64 (min c.conflicts (2 ^ 64 - 1)))
  | 1 => s.writeS f.d (BitVec.ofNat 64 (s.ctx.issued - 1))
  | _ => s.writeS f.d (BitVec.ofNat 64 c.ready.length)

/-! ### Control (R109 to R112) -/

/-- The code-store range of the running graph, end exclusive (R111, R387); empty where the firing is of no instance. -/
def codeRange (s : State) : Nat × Nat :=
  match s.inst s.ctx.inst with
  | none => (0, 0)
  | some i =>
    match (s.part i.part).image with
    | none => (0, 0)
    | some im => match im.graphs[i.graph]? with | some g => (g.codeLo, g.codeHi) | none => (0, 0)
/-- check of R110: an unaligned target faults with code 0x03, one outside the running graph with code 0x01 (R111). -/
def checkTarget (s : State) (t : Word) : Except Code Unit := do
  need (decide (t.toNat % 4 = 0)) 0x03
  need (decide (s.codeRange.1 ≤ t.toNat ∧ t.toNat < s.codeRange.2)) 0x01
/-- A transfer of control (R110). -/
def jump (t : Word) (s : State) : Except Code State := do
  s.checkTarget t
  pure (s.modCtx (fun k => { k with pc := t }))
/-- br with its displacement in parcels, from the address of its own parcel 0 (R110). -/
def brOp (i : Word) (s : State) : Except Code State := s.jump (s.ctx.ipc + 4 * i)
/-- brx (R110). -/
def brxOp (f : WForm) (s0 : State) : Except Code State := do
  let (a, s) ← s0.readS f.a
  s.jump a
/-- call: ln receives the address of the instruction after it (R110). -/
def callOp (i : Word) (s : State) : Except Code State := do
  let t ← s.jump (s.ctx.ipc + 4 * i)
  pure (t.modCtx (fun k => { k with s := k.s.set 63 s.ctx.pc }))
/-- ret (R110). -/
def retOp (s : State) : Except Code State := s.jump (s.ctx.s.get 0 63)
/-- end (R112). -/
def endOp (s : State) : Except Code State := .ok s.endFiring

end State

/-- add, C form (R80, R93). -/
def execAddC (f : CForm) (s : State) : Out := issue 4 0 s (State.binOp (· + ·) f.toW)
/-- add (R93). -/
def execAdd (f : WForm) (s : State) : Out := issue 8 f.guard s (State.binOp (· + ·) f)
/-- sub, C form (R80, R93). -/
def execSubC (f : CForm) (s : State) : Out := issue 4 0 s (State.binOp (· - ·) f.toW)
/-- sub (R93). -/
def execSub (f : WForm) (s : State) : Out := issue 8 f.guard s (State.binOp (· - ·) f)
/-- mul (R93). -/
def execMul (f : WForm) (s : State) : Out := issue 8 f.guard s (State.binOp (· * ·) f)
/-- mulh (R93). -/
def execMulh (f : WForm) (s : State) : Out := issue 8 f.guard s (State.binOp mulHigh f)
/-- mulhu (R93). -/
def execMulhu (f : WForm) (s : State) : Out := issue 8 f.guard s (State.binOp mulHighU f)
/-- div (R93). -/
def execDiv (f : WForm) (s : State) : Out := issue 8 f.guard s (State.binOp divS f)
/-- divu (R93). -/
def execDivu (f : WForm) (s : State) : Out := issue 8 f.guard s (State.binOp divU f)
/-- rem (R93). -/
def execRem (f : WForm) (s : State) : Out := issue 8 f.guard s (State.binOp remS f)
/-- remu (R93). -/
def execRemu (f : WForm) (s : State) : Out := issue 8 f.guard s (State.binOp remU f)
/-- and, C form (R80, R93). -/
def execAndC (f : CForm) (s : State) : Out := issue 4 0 s (State.binOp (· &&& ·) f.toW)
/-- and (R93). -/
def execAnd (f : WForm) (s : State) : Out := issue 8 f.guard s (State.binOp (· &&& ·) f)
/-- or, C form (R80, R93). -/
def execOrC (f : CForm) (s : State) : Out := issue 4 0 s (State.binOp (· ||| ·) f.toW)
/-- or (R93). -/
def execOr (f : WForm) (s : State) : Out := issue 8 f.guard s (State.binOp (· ||| ·) f)
/-- xor, C form (R80, R93). -/
def execXorC (f : CForm) (s : State) : Out := issue 4 0 s (State.binOp (· ^^^ ·) f.toW)
/-- xor (R93). -/
def execXor (f : WForm) (s : State) : Out := issue 8 f.guard s (State.binOp (· ^^^ ·) f)
/-- andn (R93). -/
def execAndn (f : WForm) (s : State) : Out := issue 8 f.guard s (State.binOp (fun a b => a &&& ~~~b) f)
/-- shl, C form (R80, R93). -/
def execShlC (f : CForm) (s : State) : Out := issue 4 0 s (State.binOp shlW f.toW)
/-- shl (R93). -/
def execShl (f : WForm) (s : State) : Out := issue 8 f.guard s (State.binOp shlW f)
/-- shr, C form (R80, R93). -/
def execShrC (f : CForm) (s : State) : Out := issue 4 0 s (State.binOp shrW f.toW)
/-- shr (R93). -/
def execShr (f : WForm) (s : State) : Out := issue 8 f.guard s (State.binOp shrW f)
/-- sar, C form (R80, R93). -/
def execSarC (f : CForm) (s : State) : Out := issue 4 0 s (State.binOp sarW f.toW)
/-- sar (R93). -/
def execSar (f : WForm) (s : State) : Out := issue 8 f.guard s (State.binOp sarW f)
/-- rol (R93). -/
def execRol (f : WForm) (s : State) : Out := issue 8 f.guard s (State.binOp rolW f)
/-- min (R93). -/
def execMin (f : WForm) (s : State) : Out := issue 8 f.guard s (State.binOp (fun a b => if b.slt a then b else a) f)
/-- max (R93). -/
def execMax (f : WForm) (s : State) : Out := issue 8 f.guard s (State.binOp (fun a b => if a.slt b then b else a) f)
/-- minu (R93). -/
def execMinu (f : WForm) (s : State) : Out := issue 8 f.guard s (State.binOp (fun a b => if b.ult a then b else a) f)
/-- maxu (R93). -/
def execMaxu (f : WForm) (s : State) : Out := issue 8 f.guard s (State.binOp (fun a b => if a.ult b then b else a) f)
/-- addi, W form (R96). -/
def execAddi (f : WForm) (s : State) : Out := issue 8 f.guard s (State.unOp (· + f.imm) f)
/-- addi, X form (R96). -/
def execAddiX (f : XForm) (s : State) : Out := issue 12 f.guard s (State.unOp (· + f.imm) f.toW)
/-- andi, W form (R96). -/
def execAndi (f : WForm) (s : State) : Out := issue 8 f.guard s (State.unOp (· &&& f.imm) f)
/-- andi, X form (R96). -/
def execAndiX (f : XForm) (s : State) : Out := issue 12 f.guard s (State.unOp (· &&& f.imm) f.toW)
/-- ori, W form (R96). -/
def execOri (f : WForm) (s : State) : Out := issue 8 f.guard s (State.unOp (· ||| f.imm) f)
/-- ori, X form (R96). -/
def execOriX (f : XForm) (s : State) : Out := issue 12 f.guard s (State.unOp (· ||| f.imm) f.toW)
/-- xori, W form (R96). -/
def execXori (f : WForm) (s : State) : Out := issue 8 f.guard s (State.unOp (· ^^^ f.imm) f)
/-- xori, X form (R96). -/
def execXoriX (f : XForm) (s : State) : Out := issue 12 f.guard s (State.unOp (· ^^^ f.imm) f.toW)
/-- shli, W form (R96). -/
def execShli (f : WForm) (s : State) : Out := issue 8 f.guard s (State.unOp (fun a => shlW a f.imm) f)
/-- shli, X form (R96). -/
def execShliX (f : XForm) (s : State) : Out := issue 12 f.guard s (State.unOp (fun a => shlW a f.imm) f.toW)
/-- shri, W form (R96). -/
def execShri (f : WForm) (s : State) : Out := issue 8 f.guard s (State.unOp (fun a => shrW a f.imm) f)
/-- shri, X form (R96). -/
def execShriX (f : XForm) (s : State) : Out := issue 12 f.guard s (State.unOp (fun a => shrW a f.imm) f.toW)
/-- sari, W form (R96). -/
def execSari (f : WForm) (s : State) : Out := issue 8 f.guard s (State.unOp (fun a => sarW a f.imm) f)
/-- sari, X form (R96). -/
def execSariX (f : XForm) (s : State) : Out := issue 12 f.guard s (State.unOp (fun a => sarW a f.imm) f.toW)
/-- muli, W form (R96). -/
def execMuli (f : WForm) (s : State) : Out := issue 8 f.guard s (State.unOp (· * f.imm) f)
/-- muli, X form (R96). -/
def execMuliX (f : XForm) (s : State) : Out := issue 12 f.guard s (State.unOp (· * f.imm) f.toW)
/-- clz (R98). -/
def execClz (f : WForm) (s : State) : Out := issue 8 f.guard s (State.unOp (fun a => BitVec.ofNat 64 (leadZeros a 64)) f)
/-- ctz (R98). -/
def execCtz (f : WForm) (s : State) : Out := issue 8 f.guard s (State.unOp (fun a => BitVec.ofNat 64 (trailZeros a 0 64)) f)
/-- popc (R98). -/
def execPopc (f : WForm) (s : State) : Out := issue 8 f.guard s (State.unOp (fun a => BitVec.ofNat 64 (popCount a)) f)
/-- brev (R98). -/
def execBrev (f : WForm) (s : State) : Out := issue 8 f.guard s (State.unOp bitReverse f)
/-- bext (R98). -/
def execBext (f : WForm) (s : State) : Out := issue 8 f.guard s (State.unOp (fun a => bitExtract a f.pos f.len) f)
/-- bins (R98, R99). -/
def execBins (f : WForm) (s : State) : Out := issue 8 f.guard s (State.binsOp f)
/-- sext (R98). -/
def execSext (f : WForm) (s : State) : Out := issue 8 f.guard s (State.unOp (fun a => signExtendN a (f.fld 14 6 + 1)) f)
/-- zext (R98). -/
def execZext (f : WForm) (s : State) : Out := issue 8 f.guard s (State.unOp (fun a => zeroExtendN a (f.fld 14 6 + 1)) f)
/-- cmp (R101). -/
def execCmp (f : WForm) (s : State) : Out := issue 8 f.guard s (State.cmpOp f)
/-- cmpi, W form (R101). -/
def execCmpi (f : WForm) (s : State) : Out := issue 8 f.guard s (State.cmpiOp f f.imm)
/-- cmpi, X form (R101). -/
def execCmpiX (f : XForm) (s : State) : Out := issue 12 f.guard s (State.cmpiOp f.toW f.imm)
/-- pand (R102). -/
def execPand (f : WForm) (s : State) : Out := issue 8 f.guard s (State.predOp and f)
/-- por (R102). -/
def execPor (f : WForm) (s : State) : Out := issue 8 f.guard s (State.predOp or f)
/-- pxor (R102). -/
def execPxor (f : WForm) (s : State) : Out := issue 8 f.guard s (State.predOp xor f)
/-- pnot (R102). -/
def execPnot (f : WForm) (s : State) : Out := issue 8 f.guard s (State.predOp (fun a _ => !a) f)
/-- pset (R102). -/
def execPset (f : WForm) (s : State) : Out := issue 8 f.guard s (State.psetOp f)
/-- pget (R102). -/
def execPget (f : WForm) (s : State) : Out := issue 8 f.guard s (State.pgetOp f)
/-- sel (R103). -/
def execSel (f : WForm) (s : State) : Out := issue 8 f.guard s (State.selOp f)
/-- lea, W form (R104). -/
def execLea (f : WForm) (s : State) : Out := issue 8 f.guard s (State.leaOp f f.imm)
/-- lea, X form (R104). -/
def execLeaX (f : XForm) (s : State) : Out := issue 12 f.guard s (State.leaOp f.toW f.imm)
/-- nop, C form: it counts as issued and does nothing else (R105). -/
def execNopC (_f : CForm) (s : State) : Out := issue 4 0 s .ok
/-- nop, W form (R105). -/
def execNop (f : WForm) (s : State) : Out := issue 8 f.guard s .ok
/-- hint, W form (R105). -/
def execHint (f : WForm) (s : State) : Out := issue 8 f.guard s .ok
/-- hint, X form (R105). -/
def execHintX (f : XForm) (s : State) : Out := issue 12 f.guard s .ok
/-- rdcyc (R106). -/
def execRdcyc (f : WForm) (s : State) : Out := issue 8 f.guard s (State.rdcycOp f)
/-- rdcnt (R107, R108). -/
def execRdcnt (f : WForm) (s : State) : Out := issue 8 f.guard s (State.rdcntOp f)
/-- br, W form (R110). -/
def execBr (f : WForm) (s : State) : Out := issue 8 f.guard s (State.brOp f.imm)
/-- br, X form (R110). -/
def execBrX (f : XForm) (s : State) : Out := issue 12 f.guard s (State.brOp f.imm)
/-- brx (R110). -/
def execBrx (f : WForm) (s : State) : Out := issue 8 f.guard s (State.brxOp f)
/-- call, W form (R110). -/
def execCall (f : WForm) (s : State) : Out := issue 8 f.guard s (State.callOp f.imm)
/-- call, X form (R110). -/
def execCallX (f : XForm) (s : State) : Out := issue 12 f.guard s (State.callOp f.imm)
/-- ret (R110). -/
def execRet (f : WForm) (s : State) : Out := issue 8 f.guard s State.retOp
/-- end, C form (R112). -/
def execEndC (_f : CForm) (s : State) : Out := issue 4 0 s State.endOp
/-- end, W form (R112). -/
def execEndW (f : WForm) (s : State) : Out := issue 8 f.guard s State.endOp

end Sys2Proof.Machine
end

