-- ==== Sys2Proof/Machine/Sha.lean ====
section
/-! DEFINITION. What R375 and R380 take from outside the manual: SHA-512 as FIPS 180-4 gives it, and RSASSA-PKCS1-v1_5 as RFC 8017 gives
it for keys of 4,096 bits. -/

namespace Sys2Proof.Machine

/-! ### SHA-512 -/

/-- The first 64 bits of the fractional part of the k-th root of p. -/
def rootFraction (k p : Nat) : Word := BitVec.ofNat 64 (nthRoot (p * 2 ^ (64 * k)) k)
/-- The primes below 410, the first eighty: none has a divisor from 2 to 20 but itself. -/
def shaPrimes : List Nat := (List.range 410).filter (fun n => decide (2 ≤ n) && (List.range 19).all (fun d => n % (d + 2) != 0 || n == d + 2))
/-- The initial hash value: the square roots of the first eight primes. -/
def shaInit : List Word := (shaPrimes.take 8).map (rootFraction 2)
/-- The round constants: the cube roots of the first eighty primes. -/
def shaRounds : List Word := shaPrimes.map (rootFraction 3)

/-- Bytes as a big-endian number. -/
def natOfBig (l : List Byte) : Nat := l.foldl (fun a b => 256 * a + b.toNat) 0
/-- A number as n big-endian bytes. -/
def bigBytes (n v : Nat) : List Byte := (List.range n).map (fun i => BitVec.ofNat 8 (v >>> (8 * (n - 1 - i))))

/-- Three functions of a word xored: it rotated right by m and by n, and a third. -/
def shaMix (x : Word) (m n : Nat) (z : Word) : Word := x.rotateRight m ^^^ x.rotateRight n ^^^ z
/-- The message schedule from its first sixteen words, the last word first. -/
def shaSchedule : Nat → List Word → List Word
  | 0, l => l
  | n + 1, l =>
    let back (t : Nat) : Word := l.getD (t - 1) 0
    shaSchedule n ((shaMix (back 2) 19 61 (back 2 >>> 6) + back 7 + shaMix (back 15) 1 8 (back 15 >>> 7) + back 16) :: l)

/-- The eight working variables. -/
structure ShaVars where
  a : Word
  b : Word
  c : Word
  d : Word
  e : Word
  f : Word
  g : Word
  h : Word

/-- The working variables from a hash value. -/
def ShaVars.of (l : List Word) : ShaVars :=
  let x (i : Nat) : Word := l.getD i 0
  { a := x 0, b := x 1, c := x 2, d := x 3, e := x 4, f := x 5, g := x 6, h := x 7 }
/-- One round with its constant and its word of the schedule added up. -/
def ShaVars.round (v : ShaVars) (kw : Word) : ShaVars :=
  let choose := (v.e &&& v.f) ||| (~~~v.e &&& v.g)
  let most := (v.a &&& (v.b ||| v.c)) ||| (v.b &&& v.c)
  let t := v.h + shaMix v.e 14 18 (v.e.rotateRight 41) + choose + kw
  { v with a := t + shaMix v.a 28 34 (v.a.rotateRight 39) + most, b := v.a, c := v.b, d := v.c, e := v.d + t, f := v.e, g := v.f, h := v.g }
/-- The working variables as a list. -/
def ShaVars.list (v : ShaVars) : List Word := [v.a, v.b, v.c, v.d, v.e, v.f, v.g, v.h]

/-- One block of 128 bytes taken into the hash value. -/
def shaBlock (h : List Word) (l : List Byte) : List Word :=
  let first := (List.range 16).map (fun i => BitVec.ofNat 64 (natOfBig ((l.drop (8 * i)).take 8)))
  let kws := List.zipWith (· + ·) shaRounds (shaSchedule 64 first.reverse).reverse
  List.zipWith (· + ·) h (kws.foldl ShaVars.round (ShaVars.of h)).list
/-- Blocks taken one after the other. -/
def shaBlocks (l : List Byte) : Nat → List Word → List Word
  | 0, h => h
  | n + 1, h => shaBlocks (l.drop 128) n (shaBlock h l)
/-- SHA-512 of a message: a bit 1, zeros, and the length in bits as 128 bits fill the last block. -/
def sha512 (m : List Byte) : List Byte :=
  let padded := m ++ (0x80 : Byte) :: (List.replicate ((239 - m.length % 128) % 128) (0 : Byte) ++ bigBytes 16 (8 * m.length))
  (shaBlocks padded (padded.length / 128) shaInit).flatMap (fun w => bigBytes 8 w.toNat)

/-! ### RSASSA-PKCS1-v1_5 -/

/-- b to the power e modulo n, for e below 2^k. -/
def powMod (n : Nat) : Nat → Nat → Nat → Nat
  | 0, _, _ => 1 % n
  | k + 1, b, e => (if e % 2 = 1 then b else 1) * powMod n k (b * b % n) (e / 2) % n
/-- A DER value: its tag, its length below 128, its contents. -/
def der (tag : Byte) (l : List Byte) : List Byte := tag :: BitVec.ofNat 8 l.length :: l
/-- The DigestInfo of a message under SHA-512: the algorithm's object identifier with NULL parameters, and the hash. -/
def digestInfo (m : List Byte) : List Byte :=
  der 0x30 (der 0x30 (der 0x06 [0x60, 0x86, 0x48, 0x01, 0x65, 0x03, 0x04, 0x02, 0x03] ++ der 0x05 []) ++ der 0x04 (sha512 m))
/-- EMSA-PKCS1-v1_5: a message encoded as 512 bytes. -/
def emsa (m : List Byte) : List Byte :=
  let t := digestInfo m
  [0x00, 0x01] ++ List.replicate (512 - t.length - 3) (0xFF : Byte) ++ 0x00 :: t
/-- A signature over a message verifies under a public key of modulus n and exponent e. -/
def rsaVerify (n e : Nat) (m sig : List Byte) : Bool :=
  sig.length == 512 && decide (natOfBig sig < n) && bigBytes 512 (powMod n 4096 (natOfBig sig) e) == emsa m
/-- The signature over a message under a private key of modulus n and exponent d. -/
def rsaSign (n d : Nat) (m : List Byte) : List Byte := bigBytes 512 (powMod n 4096 (natOfBig (emsa m)) d)

end Sys2Proof.Machine
end

