-- ==== Sys2Proof/Machine/Service.lean ====
section
/-! DEFINITION. The module image and its reset, Freit's commands and quotes, the register windows, host accesses, and the packets
for a saved core (R9, R338, R347, R348, R352, R375 to R383). -/

namespace Sys2Proof.Machine

/-- The first n bytes of a list, zeros beyond its end. -/
def fitBytes (n : Nat) (l : List Byte) : List Byte := (List.range n).map (fun i => l.getD i 0)
/-- A number as n bytes, little-endian (R8). -/
def bytesOfNat : Nat → Nat → List Byte
  | 0, _ => []
  | n + 1, v => BitVec.ofNat 8 v :: bytesOfNat n (v / 256)
/-- Bytes [i, i + n) of a list as a number. -/
def fieldOf (l : List Byte) (i n : Nat) : Nat := State.natOfBytes (fitBytes n (l.drop i))

/-! ### The module image (R375, R377) -/

/-- The sections of an image: type, offset and length (R375). -/
def sectionsOf (img : List Byte) : List (Nat × Nat × Nat) :=
  (List.range (fieldOf img 12 4)).map (fun i =>
    (fieldOf img (640 + 16 * i) 4, fieldOf img (644 + 16 * i) 4, fieldOf img (648 + 16 * i) 8))
/-- The header up to byte 63 meets R375. -/
def headerOk (img : List Byte) : Bool :=
  fieldOf img 0 8 == 0x36565A544E414847 && decide (1 ≤ fieldOf img 12 4) && decide (fieldOf img 12 4 ≤ 32) &&
    fieldOf img 16 8 % 64 == 0 && fieldOf img 24 40 == 0
/-- The section table meets R375: each of the types 1 to 5 once, and every section behind the table and within the image. -/
def sectionsOk (img : List Byte) : Bool :=
  let l := sectionsOf img
  let total := fieldOf img 16 8
  decide (640 + 16 * l.length ≤ total) && l.length == 5 && [1, 2, 3, 4, 5].all (fun t => l.any (fun x => x.1 == t)) &&
    l.all (fun x => decide (640 + 16 * l.length ≤ x.2.1) && decide (x.2.1 + x.2.2 ≤ total))
/-- The bytes of the repair map section (R375). -/
def repairBytes (img : List Byte) : List Byte :=
  match (sectionsOf img).find? (fun x => x.1 == 5) with
  | some x => fitBytes x.2.2 (img.drop x.2.1)
  | none => []
/-- The entries of a repair map (R377). -/
def repairMap (l : List Byte) : List (BitVec 32) := (List.range (l.length / 4)).map (fun i => BitVec.ofNat 32 (fieldOf l (4 * i) 4))
/-- R377: no reserved bit, no position twice, and no spare of a cluster twice. -/
def repairOk (m : List (BitVec 32)) : Bool :=
  m.all (fun e => bits e.toNat 22 10 == 0) && decide ((m.map (fun e => bits e.toNat 0 19)).Nodup) &&
    decide ((m.map (fun e => (bits e.toNat 0 11, bits e.toNat 19 3))).Nodup)
/-- The digest of an image: SHA-512 of bytes 0 to 63 followed by bytes 640 to the end (R375). -/
def imageDigest (img : List Byte) : List Byte := sha512 (fitBytes 64 img ++ fitBytes (fieldOf img 16 8 - 640) (img.drop 640))
/-- The signature of an image verifies under the vendor root key: its message is the digest (R375, log entry 43). -/
def signatureOk (img : List Byte) : Bool :=
  rsaVerify Config.vendorModulus Config.vendorExponent (imageDigest img) (fitBytes 512 (img.drop 128))
/-- R376, R379: why an image is refused: 0 it is accepted, 1 header, 2 digest, 3 signature, 4 below the floor, 5 repair map. -/
def imageCause (img : List Byte) (floor : Nat) : Nat :=
  if !(headerOk img && sectionsOk img) then 1
  else if imageDigest img != fitBytes 64 (img.drop 64) then 2
  else if !(signatureOk img) then 3
  else if fieldOf img 8 4 < floor then 4
  else if !(repairOk (repairMap (repairBytes img))) then 5
  else 0

namespace State

/-- The image in a slot of Freit: as many bytes as its header says. -/
def slotImage (s : State) (slot : Nat) : List Byte := s.readBytes (freitKey slot 0) (s.readN (freitKey slot 16) 8)
/-- The slot that is not active. -/
def otherSlot (s : State) : Nat := 1 - s.mgmt.active % 2

/-- The position that an entry of a repair map names (R377). -/
def mapped (e : BitVec 32) : Nat :=
  let k := bits e.toNat 4 7
  let p := bits e.toNat 11 8
  coreAt (bits e.toNat 0 4) (k % 10 * 16 + p % 16) (k / 10 * 16 + p / 16)
/-- The cores as a module reset leaves them: reset, and mapped out where the hardware at a position has failed and the map does not replace
it, and where the spare that the map puts there has failed (R378). -/
def resetCores (s : State) (map : List (BitVec 32)) : Tbl Core :=
  let failed (cid : Nat) : Bool :=
    let h := hardwareAt map cid
    if h = 8 then (s.core cid).bad else (s.cluster (clidOf cid)).bad.contains h
  let out := (s.cores.filter (fun x => x.2.bad)).map (·.1) ++ (map.map mapped).filter failed
  out.foldl (fun t c => t.set c { Core.init with bad := true, dead := failed c }) []
/-- MODULE_RESET (R376): the active slot and then the other are tried; the first accepted image is booted, and where neither is
accepted every die stays in reset. Memory keeps its bytes, which no partition can read before R6 clears them. -/
def moduleReset (s : State) : State :=
  let m0 := { Module.init with ok := false, floor := s.mgmt.floor, active := s.mgmt.active }
  let boot (slot cause : Nat) : Module :=
    let img := s.slotImage slot
    { m0 with
      ok := true, slot := slot, cause := cause, ver := BitVec.ofNat 32 (fieldOf img 8 4), repairRaw := repairBytes img
      repair := repairMap (repairBytes img), digest := fitBytes 64 (img.drop 64) }
  let a := s.mgmt.active % 2
  let ca := imageCause (s.slotImage a) s.mgmt.floor.toNat
  let m := if ca = 0 then boot a 0
    else if imageCause (s.slotImage s.otherSlot) s.mgmt.floor.toNat = 0 then boot s.otherSlot ca
    else { m0 with cause := ca }
  { State.reset with
    mem := s.mem, poison := s.poison, cores := s.resetCores m.repair
    clusters := (s.clusters.filter (fun x => !x.2.bad.isEmpty)).map (fun x => (x.1, { Cluster.init with bad := x.2.bad })), mgmt := m, msi := s.msi, seq := s.seq, tick := s.tick
    sched := s.sched }

/-! ### Freit's commands (R379 to R381) -/

/-- The pages of a mailbox that hold n pages of data: each names the next, and 0 ends the chain; none for a page that is no
multiple of 4,096 or a chain that ends too soon (R379). Freit reads and writes them also while every die stays in reset (DESIGN CHOICE, log
entry 75). -/
def mailboxPages (s : State) : Nat → Nat → Option (List Nat)
  | 0, _ => some []
  | n + 1, a =>
    if a % 4096 != 0 || decide (2 ^ 40 ≤ a) then none
    else if n = 0 then some [a]
    else
      let b := (s.readW (hbmKey (a + 4088))).toNat
      if b = 0 then none else (s.mailboxPages n b).map (a :: ·)
/-- The pages that n data bytes take. -/
def mailboxSpan (n : Nat) : Nat := (n + 4087) / 4088
/-- The first n data bytes of a mailbox (R379). The bytes of a poisoned word are read as they stand (DESIGN CHOICE, log entry 75). -/
def mailboxData (s : State) (n : Nat) : Option (List Byte) :=
  (s.mailboxPages (mailboxSpan n) s.mgmt.mbox.toNat).map (fun ps =>
    (ps.flatMap (fun a => s.readBytes (hbmKey a) 4088)).take n)
/-- The pages of the mailbox's chain that a read of n pages goes through. -/
def mailboxWalk (s : State) : Nat → Nat → List Nat
  | 0, _ => []
  | n + 1, a => if a % 4096 != 0 || decide (2 ^ 40 ≤ a) then [] else a :: s.mailboxWalk n (s.readW (hbmKey (a + 4088))).toNat
/-- Freit has read n data bytes of the mailbox, the newest ones: every party reads them from then on (R250). -/
def sawMailbox (s : State) (n : Nat) : State :=
  (s.mailboxWalk (mailboxSpan n) s.mgmt.mbox.toNat).foldl (fun t a => t.publish (hbmKey a) 4096) s
/-- A command begins and will report a result; one written while another runs sets BUSYERR and nothing else (R379). -/
def freitStart (s : State) (n : Nat) (work : State → State × Nat) : State :=
  if s.mgmt.cmd != 0 then s.modMgmt (fun m => { m with busyErr := true })
  else
    let (t, r) := work s
    t.modMgmt (fun m => { m with cmd := n, resNext := r })

/-- Command 1 (R379): the image of the mailbox goes into the inactive slot once it is verified by R376. -/
def loadImage (s : State) : State × Nat :=
  match s.mailboxData 64 with
  | none => (s.sawMailbox 64, 2)
  | some h =>
    let t := s.sawMailbox (fieldOf h 16 8)
    if !(headerOk h) then (s.sawMailbox 64, 1)
    else match s.mailboxData (fieldOf h 16 8) with
      | none => (t, 2)
      | some img =>
        if imageCause img s.mgmt.floor.toNat != 0 then (t, 1)
        else
          let key := freitKey s.otherSlot 0
          ({ t with mem := memClear t.mem key (2 ^ 64) }.writeBytes key img, 0)
/-- Command 2 (R379): the inactive slot becomes the active one unless it fails R376. -/
def activateSlot (s : State) : State × Nat :=
  if imageCause (s.slotImage s.otherSlot) s.mgmt.floor.toNat != 0 then (s, 1)
  else (s.modMgmt (fun m => { m with active := s.otherSlot }), 0)
/-- Command 3 (R379): the floor rises to the version booted, and never falls. -/
def raiseFloor (s : State) : State × Nat :=
  (s.modMgmt (fun m => { m with floor := if m.floor.toNat < m.ver.toNat then m.ver else m.floor }), 0)

/-- Bytes 0 to 239 of a quote (R380). -/
def quoteBody (s : State) (nonce : List Byte) : List Byte :=
  let tables := (List.range 16).map (fun d => s.mgmt.region.get 0 d) ++ (List.range 64).map (fun i => s.mgmt.conn.get 0xFFFF i)
  bytesOfNat 8 (Config.serial 0).toNat ++ bytesOfNat 4 s.mgmt.ver.toNat ++ bytesOfNat 4 s.mgmt.gen.toNat ++ fitBytes 64 s.mgmt.digest ++
    fitBytes 64 (sha512 s.mgmt.repairRaw) ++ fitBytes 64 (sha512 (tables.flatMap (fun w => bytesOfNat 8 w.toNat))) ++
    fitBytes 32 nonce
/-- A quote (R380): the body, its signature under the identity key, L, and the certificate chain. -/
def quoteBytes (s : State) (nonce : List Byte) : List Byte :=
  let body := s.quoteBody nonce
  let cert := (Config.certificate 0).take 8192
  body ++ rsaSign Config.identityModulus Config.identityExponent body ++ bytesOfNat 4 cert.length ++ cert
/-- Bytes written into the data of a mailbox's pages, from data byte 64 of the first (R380). -/
def writeMailbox (s : State) (pages : List Nat) (q : List Byte) : State :=
  (List.range pages.length).foldl (fun t j =>
    let a := pages.getD j 0
    if j = 0 then t.writeBytes (hbmKey (a + 64)) (q.take 4024) else t.writeBytes (hbmKey a) ((q.drop (4088 * j - 64)).take 4088)) s
/-- A quote written into the mailbox; where its chain is too short no byte is written (R380). -/
def putQuote (s : State) (q : List Byte) : State × Nat :=
  match s.mailboxPages (mailboxSpan (64 + q.length)) s.mgmt.mbox.toNat with
  | none => (s, 2)
  | some pages => (s.writeMailbox pages q, 0)
/-- Command 4 (R380): a quote for the mailbox's nonce, read and written in one step, so that its generation and its digest belong
together (R381). -/
def writeQuote (s : State) : State × Nat :=
  match s.mailboxData 32 with
  | none => (s.sawMailbox 32, 2)
  | some nonce => (s.sawMailbox 32).putQuote (s.quoteBytes nonce)

/-- FREIT_COMMAND_DONE (R379). -/
def freitDone (s : State) : State :=
  if s.mgmt.cmd = 0 then s else s.modMgmt (fun m => { m with cmd := 0, res := m.resNext })
/-- MG_CMD (R379): other values are ignored; any write while a command runs sets BUSYERR. -/
def mgCmd (s : State) (v : Word) : State :=
  match bits v.toNat 0 4 with
  | 1 => s.freitStart 1 loadImage
  | 2 => s.freitStart 2 activateSlot
  | 3 => s.freitStart 3 raiseFloor
  | 4 => s.freitStart 4 writeQuote
  | _ => if s.mgmt.cmd != 0 then s.modMgmt (fun m => { m with busyErr := true }) else s

/-! ### Snapshots of blocks (R383) -/

/-- The block that SNAP_SEL names. -/
def selBlock (s : State) : Option SnapBlock :=
  let v := s.mgmt.snapSel.toNat
  let d := bits v 0 4
  let i := bits v 7 7
  match bits v 4 3 with
  | 0 => if i = 0 then some (.dieAgent d) else none
  | 1 => if i = 0 then some (.launchAgent d) else none
  | 2 => if i = 0 then some (.power d) else none
  | 3 => if i < 8 then some (.link d i) else none
  | 4 => if i < 100 then some (.engine (d * 100 + i) (bits v 14 2)) else none
  | 5 => if i < 100 then some (.sequencer (d * 100 + i)) else none
  | _ => none
/-- The snapshot of the selected block; none reads as one before any trigger. -/
def selSnap (s : State) : Snap :=
  match s.selBlock with
  | some (.dieAgent d) => (s.die d).snaps.get Snap.init 0
  | some (.launchAgent d) => (s.die d).snaps.get Snap.init 1
  | some (.power d) => (s.die d).snaps.get Snap.init 2
  | some (.link d i) => (s.die d).snaps.get Snap.init (8 + i)
  | some (.engine k e) => (s.cluster k).snaps.get Snap.init e
  | some (.sequencer k) => (s.cluster k).snaps.get Snap.init 4
  | _ => Snap.init

/-! ### The register windows (R9, R347) -/

/-- A flag of one bit. -/
def flag (b : Bool) (lo : Nat) : Nat := if b then 2 ^ lo else 0
/-- The aligned register of the module control window at an offset, as a read returns it: a field named 0 reads as zero (R9). The shadow
connection table stands at 0x100_0000 (log entry 42). -/
def readModule (s : State) (off : Nat) : Nat :=
  let m := s.mgmt
  if off = 0x000 then m.gen.toNat + flag m.drain 4
  else if off = 0x010 then flag m.cbusy 0 + flag m.cbad 1
  else if off = 0x048 then m.snapSeq.toNat
  else if 0x100 ≤ off ∧ off < 0x180 then ((m.regionSh.get 0 ((off - 0x100) / 8)) &&& 0x000000FFFFFFFF01).toNat
  else if off = 0x800 then m.slot % 2 + flag m.ok 1 + m.cause % 16 * 2 ^ 4 + m.ver.toNat * 2 ^ 8
  else if off = 0x808 then m.floor.toNat
  else if off = 0x810 then m.mbox.toNat
  else if off = 0x820 then flag (m.cmd != 0) 0 + flag m.busyErr 1 + m.res % 16 * 2 ^ 4
  else if 0x900 ≤ off ∧ off < 0x980 then (s.die ((off - 0x900) / 8)).tele.toNat
  else if 0x1000 ≤ off ∧ off < 0x1200 then
    let i := (off - 0x1000) / 16
    let e := m.ports.get (0, 0) i
    if off % 16 = 0 then e.1.toNat + flag (m.up.contains i) 28 else e.2.toNat
  else if off = 0x2000 then m.snapSel.toNat
  else if off = 0x2008 then s.selSnap.seq.toNat + flag s.selSnap.valid 16
  else if off = 0x2010 then s.selSnap.cyc % 2 ^ 64
  else if off = 0x2018 then s.selSnap.occ % 2 ^ 32
  else if 0x1000000 ≤ off ∧ off < 0x1000200 then ((m.connSh.get 0xFFFF ((off - 0x1000000) / 8)) &&& 0x0000007FFFFFFFFF).toNat
  else 0

/-- An ordered-reduction register of a partition: entry i of die d (R335). -/
def readOrd (s : State) (p d i hi : Nat) : Nat :=
  match s.ordIndex p d i with
  | none => 0
  | some j =>
    let o := s.ordAt d j
    if hi = 0 then o.addr.toNat else o.n % 2 ^ 13 + flag o.armed 13 + o.got.length % 2 ^ 13 * 2 ^ 16
/-- The aligned register of partition window p at an offset, as a read returns it; zero where the partition does not exist (R347). -/
def readPart (s : State) (p off : Nat) : Nat :=
  let t := s.part p
  if !(s.partExists p) then 0
  else if off = 0x00 then t.subBase.toNat
  else if off = 0x08 then t.subLog % 2 ^ 5
  else if off = 0x10 then t.subTail.toNat
  else if off = 0x18 then t.subHead.toNat
  else if off = 0x20 then flag t.overflow 0 + flag t.badpk 1 + flag t.cfgerr 2
  else if off = 0x100 then t.mig.tid % 2 ^ 16
  else if off = 0x108 then t.mig.tile % 2 ^ 24
  else if off = 0x110 then t.mig.dst % 2 ^ 4 + t.mig.page % 2 ^ 20 * 2 ^ 4
  else if off = 0x120 then t.mig.state % 4 + t.mig.cause % 8 * 2 ^ 4 + t.mig.npois % 2 ^ 16 * 2 ^ 16
  else if off = 0x400 then flag t.cint 2
  else if off = 0x408 then
    s.partState p % 8 + flag t.refused 3 + flag (partRsv s.mgmt.region p) 4 + flag ((s.shares p).all (fun x => (s.die x.1).pinned)) 5
  else if off = 0x410 then s.saveSize p
  else if 0x480 ≤ off ∧ off < 0x500 then (t.saveBase.get 0 ((off - 0x480) / 8)).toNat
  else if off = 0x600 then t.faBase.toNat
  else if off = 0x608 then t.faLog % 2 ^ 5
  else if off = 0x610 then t.faHead.toNat
  else if off = 0x618 then t.faTail.toNat
  else if off = 0x620 then t.faLost.toNat
  else if off = 0x628 then flag t.trace 0 + flag t.gate 1
  else if off = 0x700 then t.spill % 2 ^ 13
  else if off = 0x708 then flag t.spillErr 0
  else if 0x780 ≤ off ∧ off < 0x800 then (t.spillBase.get 0 ((off - 0x780) / 8)).toNat
  else if 0x1000 ≤ off ∧ off < 0x2000 then s.readOrd p ((off - 0x1000) / 256) (off % 256 / 16) (off % 16)
  else 0
/-- The aligned register at an offset of BAR0 (R347); while every die stays in reset only the module control window is served
(R376). -/
def readReg (s : State) (off : Nat) : Nat :=
  if off < 0x10000 ∨ 0x1000000 ≤ off then s.readModule off
  else if s.mgmt.ok && decide (0x100000 ≤ off) && decide (off < 0x500000) then
    s.readPart ((off - 0x100000) / 0x10000) ((off - 0x100000) % 0x10000)
  else 0

/-- A register of the module control window that has no row of its own in the opcode table (R9). The shadow connection table
stands at 0x100_0000, since the manual gives it no offset. -/
def plainModule (s : State) (off : Nat) (v : Word) : State :=
  if off = 0x010 then s.modMgmt (fun m => { m with cbusy := m.cbusy && !(v.getLsbD 0), cbad := m.cbad && !(v.getLsbD 1) })
  else if 0x100 ≤ off ∧ off < 0x180 ∧ off % 8 = 0 then s.modMgmt (fun m => { m with regionSh := m.regionSh.set ((off - 0x100) / 8) v })
  else if off = 0x810 then s.modMgmt (fun m => { m with mbox := v &&& 0xFFFFFFFFFF })
  else if off = 0x820 then s.modMgmt (fun m => { m with busyErr := m.busyErr && !(v.getLsbD 1) })
  else if off = 0x2000 then s.modMgmt (fun m => { m with snapSel := v.setWidth 16 })
  else if 0x1000000 ≤ off ∧ off < 0x1000200 ∧ off % 8 = 0 then
    s.modMgmt (fun m => { m with connSh := m.connSh.set ((off - 0x1000000) / 8) v })
  else s
/-- A register of a partition window that has no row of its own (R9). -/
def plainPart (s : State) (p off : Nat) (v : Word) : State :=
  if !(s.partExists p) then s
  else if off = 0x20 then s.modPart p (fun t => { t with
    overflow := t.overflow && !(v.getLsbD 0), badpk := t.badpk && !(v.getLsbD 1), cfgerr := t.cfgerr && !(v.getLsbD 2) })
  else if off = 0x100 then s.modPart p (fun t => { t with mig := { t.mig with tid := bits v.toNat 0 16 } })
  else if off = 0x108 then s.modPart p (fun t => { t with mig := { t.mig with tile := bits v.toNat 0 24 } })
  else if off = 0x110 then s.modPart p (fun t => { t with mig := { t.mig with dst := bits v.toNat 0 4, page := bits v.toNat 4 20 } })
  else if off = 0x400 then s.modPart p (fun t => { t with cint := v.getLsbD 2 })
  else if off = 0x408 then s.modPart p (fun t => { t with refused := t.refused && !(v.getLsbD 3) })
  else if 0x480 ≤ off ∧ off < 0x500 ∧ off % 8 = 0 then
    s.modPart p (fun t => { t with saveBase := t.saveBase.set ((off - 0x480) / 8) (v &&& 0xFFFFFFFFFF) })
  else if off = 0x618 then s.modPart p (fun t => { t with faTail := v.setWidth 32 })
  else if off = 0x628 then s.modPart p (fun t => { t with trace := v.getLsbD 0, gate := v.getLsbD 1 })
  else if off = 0x708 then s.modPart p (fun t => { t with spillErr := t.spillErr && !(v.getLsbD 0) })
  else s
/-- REGISTER_WRITE (R9): a register without a row of its own, at its offset of BAR0. -/
def plainWrite (s : State) (off : Nat) (v : Word) : State :=
  if 0x100000 ≤ off ∧ off < 0x500000 then
    (if s.mgmt.ok then s.plainPart ((off - 0x100000) / 0x10000) ((off - 0x100000) % 0x10000) v else s)
  else s.plainModule off v

/-- A write of an aligned register of the module control window. -/
def writeModule (s : State) (off : Nat) (v : Word) : State :=
  if off = 0x008 then s.commit v
  else if off = 0x040 then s.snapTrig v
  else if off = 0x818 then s.mgCmd v
  else if 0x1000 ≤ off ∧ off < 0x1200 then s.portEntryWrite ((off - 0x1000) / 16) (off % 16 / 8) v
  else s.plainModule off v
/-- A write of an aligned register of a partition window; PREEMPT stands before RESUME where one write asks for both. -/
def writePart (s : State) (p off : Nat) (v : Word) : State :=
  if !(s.partExists p) then s
  else if off = 0x00 then s.subqBase p v
  else if off = 0x08 then s.subqLog p v
  else if off = 0x10 then s.subqTail p v
  else if off = 0x118 then s.migGo p v
  else if off = 0x400 then
    let t := s.plainPart p off v
    let u := if v.getLsbD 0 then t.preempt p else t
    if v.getLsbD 1 then u.resume p else u
  else if off = 0x600 then s.faBase p v
  else if off = 0x608 then s.faLog p v
  else if off = 0x700 then s.spillFrames p v
  else if 0x780 ≤ off ∧ off < 0x800 then s.spillBase p ((off - 0x780) / 8) v
  else if 0x1000 ≤ off ∧ off < 0x2000 then
    let d := (off - 0x1000) / 256
    let i := off % 256 / 16
    if off % 16 = 0 then s.ordAddr p d i v else (s.ordN p d i v).ordArm p d i v
  else s.plainPart p off v
/-- A write of an aligned register of BAR0 (R347, R376). -/
def writeReg (s : State) (off : Nat) (v : Word) : State :=
  if off < 0x10000 ∨ 0x1000000 ≤ off then s.writeModule off v
  else if s.mgmt.ok && decide (0x100000 ≤ off) && decide (off < 0x500000) then
    s.writePart ((off - 0x100000) / 0x10000) ((off - 0x100000) % 0x10000) v
  else s
/-- What a narrow write leaves in the bytes of a register that it does not name: a shadow entry keeps its reserved bits, which a commit tests
(R323, R341), and any other register what a read returns. -/
def heldReg (s : State) (off : Nat) : Nat :=
  if 0x100 ≤ off ∧ off < 0x180 then (s.mgmt.regionSh.get 0 ((off - 0x100) / 8)).toNat else s.readReg off
/-- The registers whose bits are cleared by ones: a narrower write leaves the bits that it does not reach (R9). -/
def clearsOnes (off : Nat) : Bool :=
  off == 0x010 || off == 0x820 || (decide (0x100000 ≤ off) && (let o := off % 0x10000; o == 0x20 || o == 0x408 || o == 0x708))

/-! ### Host accesses (R347, R348) -/

/-- The offsets of BAR0: 16 MiB (R347). -/
def inBar0 (off : Nat) : Bool := decide (off < 0x1000000)
/-- An aligned access of 1, 2, 4 or 8 bytes. -/
def hostAligned (off n : Nat) : Bool := (n == 1 || n == 2 || n == 4 || n == 8) && off % n == 0
/-- A partition's share is still being cleared: host accesses to it wait (R6). -/
def hostWaits (s : State) (a : Nat) : Bool :=
  s.parts.any (fun x => !x.2.clearing.isEmpty && (s.hbmIn x.1 a || keyInQuarters x.2.clearing (hbmKey a)))
/-- The descriptor word at a device-memory address, where an array of descriptors stands there: the partition, the tensor id and the number of
the word (R305). -/
def descAt (s : State) (a : Nat) : Option (Nat × Nat × Nat) :=
  s.parts.findSome? (fun x => match x.2.descBase with
    | some b => if b ≤ a ∧ a < b + 64 * 65536 then some (x.1, (a - b) / 64, (a - b) % 64 / 8) else none
    | none => none)
/-- A word of a descriptor as a read returns it: field tid reads as the index; the rest is zero where the id has none. -/
def descWord (s : State) (p tid j : Nat) : Word :=
  let w := ((s.part p).descs.get [] tid).getD j 0
  if j = 0 then BitVec.ofNat 64 (setBits w.toNat 0 16 tid) else w
/-- The host as a reader: what has ended instances wrote stands before it, once their completion records are written (R242, R302). -/
def hostReader : Reader := { fid := 0, by_ := 4, num := 0, also := some .host }
/-- n bytes of device memory as the host path reads them (R246), and whether a word of them is poisoned. -/
def deviceRead (s : State) (a n : Nat) : Nat × Bool :=
  match s.descAt a with
  | some (p, tid, j) => (bits (s.descWord p tid j).toNat (8 * (a % 8)) (8 * n), false)
  | none => (s.seenN hostReader (hbmKey a) n, s.poisoned (hbmKey a) n)
/-- n bytes of device memory as the host path writes them: in a descriptor, where tid keeps reading as the index (R305), or elsewhere; in a page
entry the bit mig too is stored as it is written (DESIGN CHOICE, log entry 76). -/
def deviceWrite (s : State) (a n v : Nat) : State :=
  match s.descAt a with
  | some (p, tid, j) =>
    let put (i : Nat) : Word := if i = j then BitVec.ofNat 64 (setBits (s.descWord p tid i).toNat (8 * (a % 8)) (8 * n) v) else s.descWord p tid i
    s.modPart p (fun q => { q with descs := q.descs.set tid ((List.range 8).map put) })
  | none => (s.keepOlds a n).writeN (hbmKey a) n (v % 2 ^ (8 * n))
/-- The cycle that an access of the host path takes of a channel group's output: the host path is input 102 (R330, R348). -/
def hostTurn (s : State) (a : Nat) : Option State := s.agentAccess a 102
/-- The cycles that a read of the host path takes: its completion returns by the mirror (R330). -/
def hostReadTurn (s : State) (a : Nat) : Option State := s.agentRead a 102
/-- HOST_WRITE (R348): an aligned write of n bytes to a register window (BAR0) or to device memory (BAR2), where it waits for its turn at the
channel's output, and for the end of a migration of its page (R315). A write to a save area is dropped (R349). -/
def hostWrite (s : State) (bar off n : Nat) (v : Word) : State :=
  if !(hostAligned off n) then s
  else if bar = 0 ∧ inBar0 off then
    let r := off / 8 * 8
    let lo := 8 * (off % 8)
    let old := if clearsOnes r then 0 else s.heldReg r
    s.writeReg r (BitVec.ofNat 64 (setBits old lo (8 * n) v.toNat))
  else if bar = 2 ∧ off < 2 ^ 40 ∧ s.mgmt.ok then
    (if s.hostWaits off || s.inSaveArea off || s.migrating off n then s
     else match s.hostTurn off with
       | none => s
       | some t => t.deviceWrite off n v.toNat)
  else s
/-- HOST_READ (R348): its completion holds the bytes, marked poisoned where the word is; a save area reads as zero (R349). -/
def hostRead (s : State) (bar off n : Nat) : State :=
  if !(hostAligned off n) then s
  else if bar = 0 ∧ inBar0 off then
    { s with hostData := (BitVec.ofNat 64 (bits (s.readReg (off / 8 * 8)) (8 * (off % 8)) (8 * n)), false) }
  else if bar = 2 ∧ off < 2 ^ 40 ∧ s.mgmt.ok then
    (if s.hostWaits off then s
     else if s.inSaveArea off then { s with hostData := (0, false) }
     else match s.hostReadTurn off with
       | none => s
       | some t => { (match s.descAt off with | some _ => t | none => t.saw hostReader (hbmKey off) n) with
           hostData := (BitVec.ofNat 64 (s.deviceRead off n).1, (s.deviceRead off n).2) })
  else s

/-! ### Packets for a saved core (R352) -/

/-- One packet applied by the rule of its kind, alone in its cycle. -/
def applyPacket (s : State) (cid n : Nat) (p : Packet) : State :=
  match p.body with
  | .signal r _ _ _ _ => s.signalArrival cid (frefName r) (srefSlot r) [n]
  | .alloc .. => s.allocationRequest n []
  | .arm .. => s.armingRequest n []
  | .free => s.freeRequest n
  | .stf .. => s.stfRequest n
  | .ldf .. => s.ldfRequest n
  | .reply .. => s.replyArrival n []
  | .ldrm .. => s.ldrmRequest n
  | .strm .. => s.strmRequest n
  | .atomic op _ _ _ [] => if s.toUnit p op then s.orderedReductionRequest n else s.atomicRequest n
  | .atomic _ _ _ _ (_ :: _) => s.mergedAtomicApply n
  | .ring .. => s.ringRequest n
  | .notice .. => s.stepNotice n
  | .ldst .. => s.ldstRequest n
  | .stepq .. => s.stepqRequest n
  | .tile .. => s.mrotLands n
  | .moves m stage _ _ => if stage != 1 && s.movesReady m p then s.movesArrive n p else s
  | _ => s
/-- SAVED_PACKET_APPLY (R352): the die agent applies one packet for a saved core to its image, which stands where the core left it. -/
def savedPacketApply (s : State) (n : Nat) : State :=
  match s.packet n with
  | none => s
  | some p =>
    match p.dst with
    | .core cid =>
      if (s.core cid).saved then
        ((s.modCore cid (fun c => { c with saved := false })).applyPacket cid n p).modCore cid (fun c => { c with saved := true })
      else s
    | _ => s

end State

/-- MODULE_RESET (R376). -/
def execModuleReset (s : State) : Out := .next s.moduleReset
/-- SAVED_PACKET_APPLY (R352). -/
def execSavedPacketApply (pkt : Nat) (s : State) : Out := .next (s.savedPacketApply pkt)
/-- MG_CMD_LOAD (R379). -/
def execMgCmdLoad (s : State) : Out := .next (s.freitStart 1 State.loadImage)
/-- MG_CMD_ACTIVATE (R379). -/
def execMgCmdActivate (s : State) : Out := .next (s.freitStart 2 State.activateSlot)
/-- MG_CMD_FLOOR (R379). -/
def execMgCmdFloor (s : State) : Out := .next (s.freitStart 3 State.raiseFloor)
/-- MG_CMD_QUOTE (R380). -/
def execMgCmdQuote (s : State) : Out := .next (s.freitStart 4 State.writeQuote)
/-- FREIT_COMMAND_DONE (R379). -/
def execFreitCommandDone (s : State) : Out := .next s.freitDone
/-- HOST_WRITE (R348). -/
def execHostWrite (bar off n : Nat) (v : Word) (s : State) : Out := .next (s.hostWrite bar off n v)
/-- HOST_READ (R348). -/
def execHostRead (bar off n : Nat) (s : State) : Out := .next (s.hostRead bar off n)
/-- REGISTER_WRITE (R9). -/
def execRegisterWrite (off : Nat) (v : Word) (s : State) : Out := .next (s.plainWrite off v)

end Sys2Proof.Machine
end

