-- ==== Sys2Proof/Machine/Solver.lean ====
section
/-! DEFINITION. The solver sequencer: major 0x39 and its service (R267 to R277, R282, R283). -/

namespace Sys2Proof.Machine

/-! ### Values (R268, R271, R272) -/

/-- A finite FP32 value. -/
def fin32 (x : BitVec 32) : Bool := match decodeFp32 x with | .num .. => true | _ => false
/-- The sum of y and h times the products of coefficients and stage outputs, rounded once (R271); the special values of R153. A NaN among
the terms gives 0x7FC0_0000, also where y is the only term, as in stage 1 (DESIGN CHOICE, log entry 68). -/
def stageSum (y h : BitVec 32) (cs ks : List (BitVec 32)) : BitVec 32 :=
  roundFp32 ((cs.zip ks).foldl (fun (u : XReal) p =>
    XReal.add u (XReal.mul (decodeFp32 h) (XReal.mul (decodeFp32 p.1) (decodeFp32 p.2))) 0) (decodeFp32 y)) 0
/-- The greater magnitude of two elements; NaN where either is NaN (R272). -/
def maxAbs (y w : BitVec 32) : XReal :=
  let a := decodeFp32 y
  let b := decodeFp32 w
  if a.isNan || b.isNan then .nan else if XReal.lt a.abs b.abs then b.abs else a.abs
/-- r of R272 for one element. -/
def errRatio (atol rtol y w yh : BitVec 32) : BitVec 32 :=
  let den := roundFp32 (XReal.add (decodeFp32 atol) (XReal.mul (decodeFp32 rtol) (maxAbs y w)) 0) 0
  roundFp32 (XReal.div (XReal.add (decodeFp32 w) (decodeFp32 yh).neg 0) (decodeFp32 den)) 0
/-- err of R272 from the ratios of the elements. -/
def errNorm (n : Nat) (rs : List (BitVec 32)) : BitVec 32 :=
  let P := (rs.zip (List.range rs.length)).foldl (fun (P : List (BitVec 32)) x =>
    let i := x.2 % 32
    P.set i (fpAdd (P.getD i 0) (fpMul x.1 x.1 0) 0)) (List.replicate 32 0)
  fpSqrt (fpDiv (redTree (fun a b => fpAdd a b 0) 0 P) (roundFp32 (XReal.ofInt n) 0) 0) 0
/-- fac of R272. -/
def stepFactor (tb : Tableau) (err : BitVec 32) : BitVec 32 :=
  match decodeFp32 err with
  | .num _ 0 _ _ => tb.fmax
  | .num _ _ _ _ => fpMin tb.fmax (fpMax tb.fmin (roundFp32 (scaledRoot (decodeFp32 tb.safety) (decodeFp32 err) (tb.q + 1)) 0))
  | _ => tb.fmin
/-- The exact test of R272: a step of hn from tn reaches or passes tend, seen from t. -/
def endTest (t tn hn tend : BitVec 32) : Bool :=
  let v := XReal.add (XReal.add (decodeFp32 tn) (decodeFp32 hn) 0) (decodeFp32 tend).neg 0
  if XReal.lt (decodeFp32 t) (decodeFp32 tend) then XReal.le (XReal.zero false) v else XReal.le v (XReal.zero false)

namespace State

/-- The FP32 word at byte offset i of an image or an array as its reader sees it (R246). -/
def imgWord (s : State) (r : Reader) (key i : Nat) : BitVec 32 := BitVec.ofNat 32 (s.seenN r (key + i) 4)
/-- n FP32 words of an image. -/
def imgWords (s : State) (r : Reader) (key i n : Nat) : List (BitVec 32) := (List.range n).map (fun k => s.imgWord r key (i + 4 * k))
/-- The sequencer as the reader of the image of command k: the pipeline accesses that its firing issued before it stand before the read
(R276). -/
def imageReader (k : Nat) (p : Packet) : Reader := { fid := p.from_.fid, by_ := 5, num := k }

/-- The tableau in an image of 384 bytes; none where R268 is broken. -/
def tableauAt (s : State) (r : Reader) (key : Nat) : Option Tableau :=
  let n := (s.imgWord r key 0).toNat
  let q := (s.imgWord r key 4).toNat
  let tb : Tableau := { s := n, q := q, safety := s.imgWord r key 8, fmin := s.imgWord r key 12, fmax := s.imgWord r key 16
                        c := s.imgWords r key 32 n, b := s.imgWords r key 64 n, bh := s.imgWords r key 96 n, a := s.imgWords r key 128 49 }
  let rsv := [(20, 12), (60, 4), (92, 4), (124, 4), (324, 60)]
  let used := tb.c ++ tb.b ++ tb.bh ++ (List.range n).flatMap (fun i => (List.range i).map (fun j => tb.a.getD (7 * i + j) 0))
  let pos (x : BitVec 32) : Bool := fin32 x && XReal.lt (XReal.zero false) (decodeFp32 x)
  if 1 ≤ n ∧ n ≤ 7 ∧ 1 ≤ q ∧ q ≤ 7 ∧ pos tb.safety = true ∧ pos tb.fmin = true ∧ fin32 tb.fmax = true ∧
      XReal.le (decodeFp32 tb.fmin) (decodeFp32 tb.fmax) = true ∧ used.all fin32 = true ∧
      rsv.all (fun x => s.seenN r (key + x.1) x.2 == 0) = true then some tb
  else none

/-- The record that a sample image of 128 bytes makes (R269), with the end clamp of R272; stages is s of the tableau. -/
def sampleAt (s : State) (r : Reader) (key stages part : Nat) (i : Issuer) : Except Code Sample := do
  let t := s.imgWord r key 0
  let tend := s.imgWord r key 4
  let h := s.imgWord r key 8
  let atol := s.imgWord r key 12
  let rtol := s.imgWord r key 16
  let n := (s.imgWord r key 20).toNat
  let w := (s.imgWord r key 24).toNat
  let nh := bits w 0 3
  let z := XReal.zero false
  need ([t, tend, h, atol, rtol].all fin32) 0x31
  need (!(XReal.eq (decodeFp32 tend) (decodeFp32 t)) && !(decodeFp32 h).isZero &&
    (XReal.lt z (decodeFp32 h) == XReal.lt (decodeFp32 t) (decodeFp32 tend))) 0x31
  need (XReal.le z (decodeFp32 atol) && XReal.le z (decodeFp32 rtol) && !((decodeFp32 atol).isZero && (decodeFp32 rtol).isZero)) 0x31
  need (decide (1 ≤ n ∧ n ≤ 131072 ∧ nh ≤ 4)) 0x31
  let num (j : Nat) : Nat := (s.imgWord r key j).toNat
  let ka := (List.range 7).map (fun j => num (44 + 4 * j))
  let hist := (List.range 4).map (fun j => num (72 + 4 * j))
  let arrays := [num 32, num 36, num 40] ++ ka.take stages ++ hist.take nh
  need (arrays.all (fun x => decide (x % 4 = 0))) 0x03
  need (arrays.all (fun x => decide (x + 4 * n ≤ 2 ^ 22))) 0x04
  let srefs := (List.range 4).map (fun j => s.seenN r (key + 96 + 8 * j) 8)
  need (srefs.all (s.srefOk part)) 0x12
  let last := endTest t t h tend
  pure { st := 1, stage := 0, forming := false, t := t, tend := tend, h := if last then fpSub tend t 0 else h, atol := atol, rtol := rtol
         n := n, nh := nh, hold := w.testBit 8, ya := num 32, wa := num 36, za := num 40, ka := ka, hist := hist, srefs := srefs
         last := last, err := 0, nacc := 0, nrej := 0, ts := 0, from_ := i }

/-! ### Service (R267, R270) -/

/-- A record of a cluster. -/
def sample (s : State) (clid r : Nat) : Sample := (s.cluster clid).recs.get Sample.init r
/-- A record replaced. -/
def setSample (s : State) (clid r : Nat) (x : Sample) : State := s.modCluster clid (fun c => { c with recs := c.recs.set r x })
/-- The sequencer is at work on a stage or a decision; it serves one request at a time (R267). -/
def seqrBusy (s : State) (clid : Nat) : Bool := (s.cluster clid).recs.any (fun x => x.2.forming || x.2.st == 3)
/-- A request to a sequencer that may be served next: it is there, an earlier one of the same core is not (R267), and the core is
not saved. -/
def seqrTurn (s : State) (k clid : Nat) (p : Packet) : Bool :=
  mayApply s k p && !(s.seqrBusy clid) && !(s.core p.from_.cid).saved &&
    !(s.net.any (fun x => decide (x.1 < k) && x.2.dst == .seqr clid && x.2.from_.cid == p.from_.cid))

/-- SQTAB_SERVE (R268, R270). -/
def sqtabServe (s : State) (k : Nat) : State :=
  match s.packet k with
  | none => s
  | some p =>
    match p.body, p.dst with
    | .sqtab addr, .seqr clid =>
      if s.seqrTurn k clid p then
        let key := coreKey p.from_.cid addr
        let t := s.dropPacket k
        if (s.cluster clid).recs.any (fun x => x.2.st == 2 || x.2.st == 3) then t.failCmd p.cmd 0x31 0 []
        else if s.poisoned key 384 then t.failCmd p.cmd 0x21 0 []
        else match s.tableauAt (imageReader k p) key with
          | none => (t.saw (imageReader k p) key 384).failCmd p.cmd 0x31 0 []
          | some tb => ((t.saw (imageReader k p) key 384).modCluster clid (fun c => { c with tab := some tb })).complete p.dst p.from_ p.ret p.cmd 1
      else s
    | _, _ => s

/-- SQINIT_SERVE (R267, R269, R270). -/
def sqinitServe (s : State) (k : Nat) : State :=
  match s.packet k with
  | none => s
  | some p =>
    match p.body, p.dst with
    | .sqinit addr r, .seqr clid =>
      if s.seqrTurn k clid p then
        let key := coreKey p.from_.cid addr
        let t := s.dropPacket k
        match (s.cluster clid).tab with
        | none => t.failCmd p.cmd 0x31 0 []
        | some tb =>
          if (s.sample clid r).st = 2 ∨ (s.sample clid r).st = 3 then t.failCmd p.cmd 0x31 0 []
          else if s.poisoned key 128 then t.failCmd p.cmd 0x21 0 []
          else match s.sampleAt (imageReader k p) key tb.s p.from_.part p.from_ with
            | .error c => (t.saw (imageReader k p) key 128).failCmd p.cmd c 0 []
            | .ok x => ((t.saw (imageReader k p) key 128).setSample clid r x).complete p.dst p.from_ p.ret p.cmd 1
      else s
    | _, _ => s

/-- What a sqstep or sqstage k passes to the work on its sample (R244, R274, R282). -/
def passSample (s : State) (k clid r : Nat) (p : Packet) : State := s.bindTo (.sample clid r) (fun e => passesOwn k p e || passesOn p e)
/-- SQSTEP_SERVE: a held record begins stage 1 (R270). -/
def sqstepServe (s : State) (k : Nat) : State :=
  match s.packet k with
  | none => s
  | some p =>
    match p.body, p.dst with
    | .sqstep r, .seqr clid =>
      if s.seqrTurn k clid p then
        let x := s.sample clid r
        let t := s.dropPacket k
        if x.st = 1 then (t.passSample k clid r p).setSample clid r { x with st := 2, stage := 1, forming := true, from_ := p.from_ }
        else t.faultFor p.from_ 0 0x31
      else s
    | _, _ => s

/-- SQSTAGE_SERVE: the stage that the record is in is complete; the next one is formed, or the step is judged (R270). -/
def sqstageServe (s : State) (k : Nat) : State :=
  match s.packet k with
  | none => s
  | some p =>
    match p.body, p.dst with
    | .sqstage r i, .seqr clid =>
      if s.seqrTurn k clid p then
        let x := s.sample clid r
        let t := s.dropPacket k
        let stages := match (s.cluster clid).tab with | some tb => tb.s | none => 0
        if x.st = 2 ∧ x.stage = i then
          (if i < stages then (t.passSample k clid r p).setSample clid r { x with stage := i + 1, forming := true, from_ := p.from_ }
           else (t.passSample k clid r p).setSample clid r { x with st := 3, stage := 0, from_ := p.from_ })
        else t.faultFor p.from_ 0 0x31
      else s
    | _, _ => s

/-- The field that sqrd reads (R277). -/
def sqField (x : Sample) (sel : Nat) : Word :=
  match sel with
  | 0 => x.t.setWidth 64
  | 1 => x.tend.setWidth 64
  | 2 => x.h.setWidth 64
  | 3 => x.err.setWidth 64
  | 4 => BitVec.ofNat 64 (x.nacc % 2 ^ 32 + x.nrej % 2 ^ 32 * 2 ^ 32)
  | 5 => BitVec.ofNat 64 (x.st % 8 + x.stage % 8 * 16 + (if x.last then 256 else 0))
  | 6 => x.ts.setWidth 64
  | 7 => BitVec.ofNat 64 (x.ya % 2 ^ 32)
  | _ => BitVec.ofNat 64 (x.wa % 2 ^ 32)

/-- SQRD_SERVE (R277). -/
def sqrdServe (s : State) (k : Nat) : State :=
  match s.packet k with
  | none => s
  | some p =>
    match p.body, p.dst with
    | .sqrd r sel, .seqr clid =>
      if s.seqrTurn k clid p then (s.dropPacket k).sendReply p.dst p (sqField (s.sample clid r) sel) false else s
    | _, _ => s

/-! ### Forming and judging (R271 to R275) -/

/-- The sequencer as a reader for a sample: what the sqstep and sqstage of the sample pass stands before it (R274, R282). -/
def sampleReader (clid r : Nat) : Reader := { fid := 0, by_ := 4, num := 0, also := some (.sample clid r) }
/-- The n elements of an array in a cluster scratchpad as the sequencer sees them for a sample (R246). -/
def arrayAt (s : State) (clid r addr n : Nat) : List (BitVec 32) := s.imgWords (sampleReader clid r) (clusterKey clid addr) 0 n
/-- What the sequencer's reads of y and of the first m stage outputs leave, element by element (R250). -/
def sawArrays (s : State) (clid r : Nat) (x : Sample) (m : Nat) : State :=
  (x.ya :: x.ka.take m).foldl (fun t a => (List.range x.n).foldl (fun u i => u.saw (sampleReader clid r) (clusterKey clid (a + 4 * i)) 4) t) s
/-- The elements of an array written, each by a 4-byte write, which leaves the poison of its word (R365), once all of them are computed
(DESIGN CHOICE, log entry 68). -/
def putArray (s : State) (clid addr : Nat) (xs : List (BitVec 32)) : State :=
  (xs.zip (List.range xs.length)).foldl (fun t x => t.writeN (clusterKey clid (addr + 4 * x.2)) 4 x.1.toNat) s
/-- The sums of R271 for every element: coefficients cs with the first stage outputs. The addresses beyond the count that the tableau had
when the record was loaded are used as they stand, unchecked; every element is computed from the arrays as they stood before any is written, also where the arrays of a record
overlap (DESIGN CHOICE, log entry 68). -/
def formArray (s : State) (clid r : Nat) (x : Sample) (cs : List (BitVec 32)) : List (BitVec 32) :=
  let y := s.arrayAt clid r x.ya x.n
  let ks := (List.range cs.length).map (fun j => s.arrayAt clid r (x.ka.getD j 0) x.n)
  (List.range x.n).map (fun e => stageSum (y.getD e 0) x.h cs (ks.map (fun l => l.getD e 0)))
/-- A poisoned element of y or of the first m stage outputs (R275). -/
def stagePoison (s : State) (clid : Nat) (x : Sample) (m : Nat) : Bool :=
  s.poisoned (clusterKey clid x.ya) (4 * x.n) || (x.ka.take m).any (fun a => s.poisoned (clusterKey clid a) (4 * x.n))
/-- A signal of the sequencer, with count 1 (R274); n names the slot reference. Its partition is not quiescent then (R369). -/
def seqrSignal (s : State) (clid : Nat) (x : Sample) (n : Nat) : State :=
  (s.modPart x.from_.part (fun q => { q with quiesced := false })).sendSignal (.seqr clid) x.from_ (x.srefs.getD n 0) 1 1 2
/-- A sequencer fault: the record fails, and no slot is signalled (R275). -/
def seqrFault (s : State) (clid r : Nat) (x : Sample) (code : Code) : State :=
  (s.setSample clid r { x with st := 5, stage := 0, forming := false }).faultFor x.from_ 0 code

/-- STAGE_FORMED (R271): z and ts stand, and sref_stage is signalled. -/
def stageFormed (s : State) (clid r : Nat) : State :=
  let x := s.sample clid r
  match (s.cluster clid).tab with
  | none => s
  | some tb =>
    if x.forming then
      (if s.stagePoison clid x (x.stage - 1) then s.seqrFault clid r x 0x21
       else
        let cs := (List.range (x.stage - 1)).map (fun j => tb.a.getD (7 * (x.stage - 1) + j) 0)
        let ts := roundFp32 (XReal.add (decodeFp32 x.t) (XReal.mul (decodeFp32 (tb.c.getD (x.stage - 1) 0)) (decodeFp32 x.h)) 0) 0
        let y := { x with forming := false, ts := ts }
        (((s.sawArrays clid r x (x.stage - 1)).putArray clid x.za (s.formArray clid r x cs)).setSample clid r y).seqrSignal clid y 0)
    else s

/-- A count that saturates at 2^32 − 1 (R273). -/
def satCount (n : Nat) : Nat := min (n + 1) (2 ^ 32 - 1)
/-- The arrays exchanged by address on acceptance (R273). -/
def exchange (x : Sample) : Sample :=
  if x.nh = 0 then { x with ya := x.wa, wa := x.ya }
  else { x with hist := x.ya :: (x.hist.take (x.nh - 1)) ++ x.hist.drop x.nh, ya := x.wa, wa := x.hist.getD (x.nh - 1) 0 }

/-- STEP_DECISION (R271 to R273, R283): w is formed, the error judged, and the record updated. A record that fails because hn is zero or not
finite has its w written and keeps err, h, t and last as they were (DESIGN CHOICE, log entry 68). -/
def stepDecision (s : State) (clid r : Nat) : State :=
  let x := s.sample clid r
  match (s.cluster clid).tab with
  | none => s
  | some tb =>
    if x.st != 3 then s
    else if s.stagePoison clid x tb.s then s.seqrFault clid r x 0x21
    else
      let y := s.arrayAt clid r x.ya x.n
      let w := s.formArray clid r x tb.b
      let yh := s.formArray clid r x tb.bh
      let s1 := (s.sawArrays clid r x tb.s).putArray clid x.wa w
      let err := errNorm x.n ((List.range x.n).map (fun e => errRatio x.atol x.rtol (y.getD e 0) (w.getD e 0) (yh.getD e 0)))
      let accept := XReal.le (decodeFp32 err) (XReal.ofInt 1)
      let hn0 := fpMul x.h (stepFactor tb err) 0
      let tn := if accept then (if x.last then x.tend else fpAdd x.t x.h 0) else x.t
      let last := endTest x.t tn hn0 x.tend
      let hn := if last then fpSub x.tend tn 0 else hn0
      let done := accept && XReal.eq (decodeFp32 tn) (decodeFp32 x.tend)
      if !done && ((decodeFp32 hn).isZero || !(fin32 hn)) then s1.seqrFault clid r x 0x31
      else
        let x1 := { x with h := hn, last := last, err := err }
        let x2 := if accept then { exchange x1 with t := tn, nacc := satCount x.nacc } else { x1 with nrej := satCount x.nrej }
        let x3 := if done then { x2 with st := 4 } else if x.hold then { x2 with st := 1 } else { x2 with st := 2, stage := 1, forming := true }
        (s1.setSample clid r x3).seqrSignal clid x3 (if done then 3 else if accept then 1 else 2)

/-! ### Instructions (R276, R277) -/

/-- The sample index of B (R276). -/
def sampleOp (b : Word) : Except Code Nat := if b.toNat < 32 then .ok b.toNat else .error 0x31
/-- The sequencer of the issuing core's cluster. -/
def mySeqr (s : State) : Loc := .seqr (clidOf s.cur.1)
/-- An asynchronous request to the sequencer leaves. -/
def seqrSend (s : State) (minor : Nat) (body : Body) (r : Ret) : State :=
  let (t, id) := s.newCmd 0x39 minor
  t.send { t.notice body t.mySeqr t.ctx.fref with ret := r, cmd := id }
/-- The checks of an image address (R276). -/
def imageAddr (a : Word) (n : Nat) : Except Code Unit := do
  need (decide (a.toNat % 64 = 0)) 0x03
  need (decide (a.toNat + n ≤ 0x20000)) 0x04
/-- sqtab (R276, R277). -/
def sqtabOp (f : WForm) (s0 : State) : Except Code State := do
  let (a, s1) ← s0.readS f.a
  let (c, s) ← s1.readS f.c
  let slot ← s.compSlot f.c c
  s.asyncRoom
  imageAddr a 384
  pure (s.seqrSend 0 (.sqtab a.toNat) { ow := 0, slot := slot, bytes := 1 })
/-- sqinit (R276, R277). -/
def sqinitOp (f : WForm) (s0 : State) : Except Code State := do
  let (a, b, s1) ← s0.readAB f
  let (c, s) ← s1.readS f.c
  let slot ← s.compSlot f.c c
  s.asyncRoom
  let r ← sampleOp b
  imageAddr a 128
  pure (s.seqrSend 1 (.sqinit a.toNat r) { ow := 0, slot := slot, bytes := 1 })
/-- sqstage, with i − 1 in [16:14] of parcel 1, and sqstep: fire-and-forget, and releases toward the sequencer at clus scope
(R276, R277, R282). -/
def sqgoOp (stage : Bool) (f : WForm) (s0 : State) : Except Code State := do
  let (b, s) ← s0.readS f.b
  let r ← sampleOp b
  let body : Body := if stage then .sqstage r (f.fld 14 3 + 1) else .sqstep r
  pure (s.send (s.withRelease (s.notice body s.mySeqr s.ctx.fref) 3 2))
/-- sqrd: ow in [18:14], sel in [22:19] of parcel 1 (R276, R277). -/
def sqrdOp (f : WForm) (s0 : State) : Except Code State := do
  let (b, s1) ← s0.readS f.b
  let (c, s) ← s1.readS f.c
  let slot ← s.compSlot f.c c
  s.asyncRoom
  let r ← sampleOp b
  pure (s.seqrSend 4 (.sqrd r (f.fld 19 4)) { ow := f.ow, slot := slot, bytes := 8 })

end State

/-- sqtab (R277). -/
def execSqtab (f : WForm) (s : State) : Out := issue 8 f.guard s (State.sqtabOp f)
/-- sqinit (R277). -/
def execSqinit (f : WForm) (s : State) : Out := issue 8 f.guard s (State.sqinitOp f)
/-- sqstage (R277). -/
def execSqstage (f : WForm) (s : State) : Out := issue 8 f.guard s (State.sqgoOp true f)
/-- sqstep (R277). -/
def execSqstep (f : WForm) (s : State) : Out := issue 8 f.guard s (State.sqgoOp false f)
/-- sqrd (R277). -/
def execSqrd (f : WForm) (s : State) : Out := issue 8 f.guard s (State.sqrdOp f)
/-- SQTAB_SERVE (R268). -/
def execSqtabServe (pkt : Nat) (s : State) : Out := .next (s.sqtabServe pkt)
/-- SQINIT_SERVE (R269). -/
def execSqinitServe (pkt : Nat) (s : State) : Out := .next (s.sqinitServe pkt)
/-- SQSTEP_SERVE (R270). -/
def execSqstepServe (pkt : Nat) (s : State) : Out := .next (s.sqstepServe pkt)
/-- SQSTAGE_SERVE (R270). -/
def execSqstageServe (pkt : Nat) (s : State) : Out := .next (s.sqstageServe pkt)
/-- SQRD_SERVE (R277). -/
def execSqrdServe (pkt : Nat) (s : State) : Out := .next (s.sqrdServe pkt)
/-- STAGE_FORMED (R271). -/
def execStageFormed (clid r : Nat) (s : State) : Out := .next (s.stageFormed clid r)
/-- STEP_DECISION (R272). -/
def execStepDecision (clid r : Nat) (s : State) : Out := .next (s.stepDecision clid r)

end Sys2Proof.Machine
end

