-- ==== Sys2Proof/Machine/Dispatch.lean ====
section
/-! DEFINITION. The dispatch of an instruction or event to its meaning: one arm per row of the opcode table. -/

namespace Sys2Proof.Machine

def exec (i : Instr) (s : State) : Host.Outcome State Fault Refusal :=
  match i with
  | .moduleReset => Sys2Proof.Machine.execModuleReset s
  | .imageLoad p img => Sys2Proof.Machine.execImageLoad p img s
  | .illegalPattern code => Sys2Proof.Machine.execIllegalPattern code s
  | .dispatch cid ctx => Sys2Proof.Machine.execDispatch cid ctx s
  | .signalArrival cid f slot pkts => Sys2Proof.Machine.execSignalArrival cid f slot pkts s
  | .allocationRequest pkt same => Sys2Proof.Machine.execAllocationRequest pkt same s
  | .armingRequest pkt same => Sys2Proof.Machine.execArmingRequest pkt same s
  | .freeRequest pkt => Sys2Proof.Machine.execFreeRequest pkt s
  | .stfRequest pkt => Sys2Proof.Machine.execStfRequest pkt s
  | .ldfRequest pkt => Sys2Proof.Machine.execLdfRequest pkt s
  | .replyArrival pkt same => Sys2Proof.Machine.execReplyArrival pkt same s
  | .spilledRequestApply pkt => Sys2Proof.Machine.execSpilledRequestApply pkt s
  | .fill cid => Sys2Proof.Machine.execFill cid s
  | .writeBackStart cid f => Sys2Proof.Machine.execWriteBackStart cid f s
  | .writeBackComplete cid f => Sys2Proof.Machine.execWriteBackComplete cid f s
  | .matrixCommandStart cid m => Sys2Proof.Machine.execMatrixCommandStart cid m s
  | .matrixCommandFinish cid m => Sys2Proof.Machine.execMatrixCommandFinish cid m s
  | .mdrainRow cid m => Sys2Proof.Machine.execMdrainRow cid m s
  | .mrotTileLands pkt => Sys2Proof.Machine.execMrotTileLands pkt s
  | .landingMove cid latch => Sys2Proof.Machine.execLandingMove cid latch s
  | .portWordArrival cid dir => Sys2Proof.Machine.execPortWordArrival cid dir s
  | .ldrmRequest pkt => Sys2Proof.Machine.execLdrmRequest pkt s
  | .strmRequest pkt => Sys2Proof.Machine.execStrmRequest pkt s
  | .atomicRequest pkt => Sys2Proof.Machine.execAtomicRequest pkt s
  | .ringRequest pkt => Sys2Proof.Machine.execRingRequest pkt s
  | .fenceRelease pkt => Sys2Proof.Machine.execFenceRelease pkt s
  | .releaseSignalSend pkt => Sys2Proof.Machine.execReleaseSignalSend pkt s
  | .walkStart clid w => Sys2Proof.Machine.execWalkStart clid w s
  | .walkTranslation w tile choice => Sys2Proof.Machine.execWalkTranslation w tile choice s
  | .walkMove w moves => Sys2Proof.Machine.execWalkMove w moves s
  | .dimensionEndSignal w level run target => Sys2Proof.Machine.execDimensionEndSignal w level run target s
  | .finalSignal w => Sys2Proof.Machine.execFinalSignal w s
  | .twcanComplete pkt => Sys2Proof.Machine.execTwcanComplete pkt s
  | .stepdDone cid fid => Sys2Proof.Machine.execStepdDone cid fid s
  | .stepAdvance cid => Sys2Proof.Machine.execStepAdvance cid s
  | .stepNotice pkt => Sys2Proof.Machine.execStepNotice pkt s
  | .ldstRequest pkt => Sys2Proof.Machine.execLdstRequest pkt s
  | .stepqRequest pkt => Sys2Proof.Machine.execStepqRequest pkt s
  | .stepRequestResend pkt => Sys2Proof.Machine.execStepRequestResend pkt s
  | .sqtabServe pkt => Sys2Proof.Machine.execSqtabServe pkt s
  | .sqinitServe pkt => Sys2Proof.Machine.execSqinitServe pkt s
  | .sqstepServe pkt => Sys2Proof.Machine.execSqstepServe pkt s
  | .sqstageServe pkt => Sys2Proof.Machine.execSqstageServe pkt s
  | .sqrdServe pkt => Sys2Proof.Machine.execSqrdServe pkt s
  | .stageFormed clid r => Sys2Proof.Machine.execStageFormed clid r s
  | .stepDecision clid r => Sys2Proof.Machine.execStepDecision clid r s
  | .launchRequest pkt => Sys2Proof.Machine.execLaunchRequest pkt s
  | .instanceStart handle => Sys2Proof.Machine.execInstanceStart handle s
  | .launchMulticast die handle => Sys2Proof.Machine.execLaunchMulticast die handle s
  | .instanceEnd handle => Sys2Proof.Machine.execInstanceEnd handle s
  | .creditLend die p => Sys2Proof.Machine.execCreditLend die p s
  | .gqueryRequest pkt => Sys2Proof.Machine.execGqueryRequest pkt s
  | .gcanRequest pkt => Sys2Proof.Machine.execGcanRequest pkt s
  | .subqBase p v => Sys2Proof.Machine.execSubqBase p v s
  | .subqLog p v => Sys2Proof.Machine.execSubqLog p v s
  | .subqTail p v => Sys2Proof.Machine.execSubqTail p v s
  | .submissionEntryRead p => Sys2Proof.Machine.execSubmissionEntryRead p s
  | .forecast die => Sys2Proof.Machine.execForecast die s
  | .telemetryUpdate die => Sys2Proof.Machine.execTelemetryUpdate die s
  | .placementEntryWrite p cb w0 w1 => Sys2Proof.Machine.execPlacementEntryWrite p cb w0 w1 s
  | .spillFrames p v => Sys2Proof.Machine.execSpillFrames p v s
  | .spillBase p d v => Sys2Proof.Machine.execSpillBase p d v s
  | .migGo p v => Sys2Proof.Machine.execMigGo p v s
  | .migrationComplete p => Sys2Proof.Machine.execMigrationComplete p s
  | .commit v => Sys2Proof.Machine.execCommit v s
  | .drainMessage die => Sys2Proof.Machine.execDrainMessage die s
  | .clearingComplete p => Sys2Proof.Machine.execClearingComplete p s
  | .preempt p => Sys2Proof.Machine.execPreempt p s
  | .resume p => Sys2Proof.Machine.execResume p s
  | .coreSave cid => Sys2Proof.Machine.execCoreSave cid s
  | .savedPacketApply pkt => Sys2Proof.Machine.execSavedPacketApply pkt s
  | .coreRestore cid => Sys2Proof.Machine.execCoreRestore cid s
  | .ordArm p d n v => Sys2Proof.Machine.execOrdArm p d n v s
  | .ordAddr p d n v => Sys2Proof.Machine.execOrdAddr p d n v s
  | .ordN p d n v => Sys2Proof.Machine.execOrdN p d n v s
  | .orderedReductionRequest pkt => Sys2Proof.Machine.execOrderedReductionRequest pkt s
  | .faBase p v => Sys2Proof.Machine.execFaBase p v s
  | .faLog p v => Sys2Proof.Machine.execFaLog p v s
  | .faultRecordWrite n => Sys2Proof.Machine.execFaultRecordWrite n s
  | .snapTrig v => Sys2Proof.Machine.execSnapTrig v s
  | .snapshotTriggerArrival trig block => Sys2Proof.Machine.execSnapshotTriggerArrival trig block s
  | .snapComplete trig => Sys2Proof.Machine.execSnapComplete trig s
  | .mgCmdLoad => Sys2Proof.Machine.execMgCmdLoad s
  | .mgCmdActivate => Sys2Proof.Machine.execMgCmdActivate s
  | .mgCmdFloor => Sys2Proof.Machine.execMgCmdFloor s
  | .mgCmdQuote => Sys2Proof.Machine.execMgCmdQuote s
  | .freitCommandDone => Sys2Proof.Machine.execFreitCommandDone s
  | .portEntryWrite port word v => Sys2Proof.Machine.execPortEntryWrite port word v s
  | .opticalLinkState port up => Sys2Proof.Machine.execOpticalLinkState port up s
  | .peerReplicaWrite port addr bytes => Sys2Proof.Machine.execPeerReplicaWrite port addr bytes s
  | .replicaWriteApply pkt => Sys2Proof.Machine.execReplicaWriteApply pkt s
  | .hostWrite bar off n v => Sys2Proof.Machine.execHostWrite bar off n v s
  | .hostRead bar off n => Sys2Proof.Machine.execHostRead bar off n s
  | .cellGate cell => Sys2Proof.Machine.execCellGate cell s
  | .cellWake cell => Sys2Proof.Machine.execCellWake cell s
  | .quiescence p => Sys2Proof.Machine.execQuiescence p s
  | .thermalTrip die => Sys2Proof.Machine.execThermalTrip die s
  | .coreReset cid => Sys2Proof.Machine.execCoreReset cid s
  | .packetRefused pkt => Sys2Proof.Machine.execPacketRefused pkt s
  | .uncorrectableError cid f ownerRead => Sys2Proof.Machine.execUncorrectableError cid f ownerRead s
  | .routerHop pkt => Sys2Proof.Machine.execRouterHop pkt s
  | .linkFlitSend x y port => Sys2Proof.Machine.execLinkFlitSend x y port s
  | .crossbarGrant die out => Sys2Proof.Machine.execCrossbarGrant die out s
  | .hbmRequestStart die ch => Sys2Proof.Machine.execHbmRequestStart die ch s
  | .spliceEgressEnter pkt => Sys2Proof.Machine.execSpliceEgressEnter pkt s
  | .spliceIngressDeliver p splice => Sys2Proof.Machine.execSpliceIngressDeliver p splice s
  | .mergedAtomicApply pkt => Sys2Proof.Machine.execMergedAtomicApply pkt s
  | .mergedReplySplit pkt => Sys2Proof.Machine.execMergedReplySplit pkt s
  | .registerWrite off v => Sys2Proof.Machine.execRegisterWrite off v s
  | .addC f => Sys2Proof.Machine.execAddC f s
  | .add f => Sys2Proof.Machine.execAdd f s
  | .subC f => Sys2Proof.Machine.execSubC f s
  | .sub f => Sys2Proof.Machine.execSub f s
  | .mul f => Sys2Proof.Machine.execMul f s
  | .mulh f => Sys2Proof.Machine.execMulh f s
  | .mulhu f => Sys2Proof.Machine.execMulhu f s
  | .div f => Sys2Proof.Machine.execDiv f s
  | .divu f => Sys2Proof.Machine.execDivu f s
  | .rem f => Sys2Proof.Machine.execRem f s
  | .remu f => Sys2Proof.Machine.execRemu f s
  | .andC f => Sys2Proof.Machine.execAndC f s
  | .and f => Sys2Proof.Machine.execAnd f s
  | .orC f => Sys2Proof.Machine.execOrC f s
  | .or f => Sys2Proof.Machine.execOr f s
  | .xorC f => Sys2Proof.Machine.execXorC f s
  | .xor f => Sys2Proof.Machine.execXor f s
  | .andn f => Sys2Proof.Machine.execAndn f s
  | .shlC f => Sys2Proof.Machine.execShlC f s
  | .shl f => Sys2Proof.Machine.execShl f s
  | .shrC f => Sys2Proof.Machine.execShrC f s
  | .shr f => Sys2Proof.Machine.execShr f s
  | .sarC f => Sys2Proof.Machine.execSarC f s
  | .sar f => Sys2Proof.Machine.execSar f s
  | .rol f => Sys2Proof.Machine.execRol f s
  | .min f => Sys2Proof.Machine.execMin f s
  | .max f => Sys2Proof.Machine.execMax f s
  | .minu f => Sys2Proof.Machine.execMinu f s
  | .maxu f => Sys2Proof.Machine.execMaxu f s
  | .addi f => Sys2Proof.Machine.execAddi f s
  | .addiX f => Sys2Proof.Machine.execAddiX f s
  | .andi f => Sys2Proof.Machine.execAndi f s
  | .andiX f => Sys2Proof.Machine.execAndiX f s
  | .ori f => Sys2Proof.Machine.execOri f s
  | .oriX f => Sys2Proof.Machine.execOriX f s
  | .xori f => Sys2Proof.Machine.execXori f s
  | .xoriX f => Sys2Proof.Machine.execXoriX f s
  | .shli f => Sys2Proof.Machine.execShli f s
  | .shliX f => Sys2Proof.Machine.execShliX f s
  | .shri f => Sys2Proof.Machine.execShri f s
  | .shriX f => Sys2Proof.Machine.execShriX f s
  | .sari f => Sys2Proof.Machine.execSari f s
  | .sariX f => Sys2Proof.Machine.execSariX f s
  | .muli f => Sys2Proof.Machine.execMuli f s
  | .muliX f => Sys2Proof.Machine.execMuliX f s
  | .clz f => Sys2Proof.Machine.execClz f s
  | .ctz f => Sys2Proof.Machine.execCtz f s
  | .popc f => Sys2Proof.Machine.execPopc f s
  | .brev f => Sys2Proof.Machine.execBrev f s
  | .bext f => Sys2Proof.Machine.execBext f s
  | .bins f => Sys2Proof.Machine.execBins f s
  | .sext f => Sys2Proof.Machine.execSext f s
  | .zext f => Sys2Proof.Machine.execZext f s
  | .cmp f => Sys2Proof.Machine.execCmp f s
  | .cmpi f => Sys2Proof.Machine.execCmpi f s
  | .cmpiX f => Sys2Proof.Machine.execCmpiX f s
  | .pand f => Sys2Proof.Machine.execPand f s
  | .por f => Sys2Proof.Machine.execPor f s
  | .pxor f => Sys2Proof.Machine.execPxor f s
  | .pnot f => Sys2Proof.Machine.execPnot f s
  | .pset f => Sys2Proof.Machine.execPset f s
  | .pget f => Sys2Proof.Machine.execPget f s
  | .sel f => Sys2Proof.Machine.execSel f s
  | .lea f => Sys2Proof.Machine.execLea f s
  | .leaX f => Sys2Proof.Machine.execLeaX f s
  | .nopC f => Sys2Proof.Machine.execNopC f s
  | .nop f => Sys2Proof.Machine.execNop f s
  | .hint f => Sys2Proof.Machine.execHint f s
  | .hintX f => Sys2Proof.Machine.execHintX f s
  | .rdcyc f => Sys2Proof.Machine.execRdcyc f s
  | .rdcnt f => Sys2Proof.Machine.execRdcnt f s
  | .br f => Sys2Proof.Machine.execBr f s
  | .brX f => Sys2Proof.Machine.execBrX f s
  | .brx f => Sys2Proof.Machine.execBrx f s
  | .call f => Sys2Proof.Machine.execCall f s
  | .callX f => Sys2Proof.Machine.execCallX f s
  | .ret f => Sys2Proof.Machine.execRet f s
  | .endC f => Sys2Proof.Machine.execEndC f s
  | .endW f => Sys2Proof.Machine.execEndW f s
  | .fadd f => Sys2Proof.Machine.execFadd f s
  | .fsub f => Sys2Proof.Machine.execFsub f s
  | .fmul f => Sys2Proof.Machine.execFmul f s
  | .ffma f => Sys2Proof.Machine.execFfma f s
  | .fdiv f => Sys2Proof.Machine.execFdiv f s
  | .fsqrt f => Sys2Proof.Machine.execFsqrt f s
  | .fmin f => Sys2Proof.Machine.execFmin f s
  | .fmax f => Sys2Proof.Machine.execFmax f s
  | .fabs f => Sys2Proof.Machine.execFabs f s
  | .fneg f => Sys2Proof.Machine.execFneg f s
  | .fcmp f => Sys2Proof.Machine.execFcmp f s
  | .fclass f => Sys2Proof.Machine.execFclass f s
  | .tadd f => Sys2Proof.Machine.execTadd f s
  | .tsub f => Sys2Proof.Machine.execTsub f s
  | .tmul f => Sys2Proof.Machine.execTmul f s
  | .tfma f => Sys2Proof.Machine.execTfma f s
  | .tdiv f => Sys2Proof.Machine.execTdiv f s
  | .tsqrt f => Sys2Proof.Machine.execTsqrt f s
  | .tmin f => Sys2Proof.Machine.execTmin f s
  | .tmax f => Sys2Proof.Machine.execTmax f s
  | .tabs f => Sys2Proof.Machine.execTabs f s
  | .tneg f => Sys2Proof.Machine.execTneg f s
  | .tcmp f => Sys2Proof.Machine.execTcmp f s
  | .spz f => Sys2Proof.Machine.execSpz f s
  | .spfma f => Sys2Proof.Machine.execSpfma f s
  | .spfms f => Sys2Proof.Machine.execSpfms f s
  | .spadd f => Sys2Proof.Machine.execSpadd f s
  | .spsub f => Sys2Proof.Machine.execSpsub f s
  | .sprnd f => Sys2Proof.Machine.execSprnd f s
  | .spld f => Sys2Proof.Machine.execSpld f s
  | .spldX f => Sys2Proof.Machine.execSpldX f s
  | .spst f => Sys2Proof.Machine.execSpst f s
  | .spstX f => Sys2Proof.Machine.execSpstX f s
  | .cvt f => Sys2Proof.Machine.execCvt f s
  | .lclaim f => Sys2Proof.Machine.execLclaim f s
  | .lrel f => Sys2Proof.Machine.execLrel f s
  | .lcount f => Sys2Proof.Machine.execLcount f s
  | .vadd f => Sys2Proof.Machine.execVadd f s
  | .vsub f => Sys2Proof.Machine.execVsub f s
  | .vmul f => Sys2Proof.Machine.execVmul f s
  | .vmulh f => Sys2Proof.Machine.execVmulh f s
  | .vmad f => Sys2Proof.Machine.execVmad f s
  | .vmin f => Sys2Proof.Machine.execVmin f s
  | .vmax f => Sys2Proof.Machine.execVmax f s
  | .vabs f => Sys2Proof.Machine.execVabs f s
  | .vand f => Sys2Proof.Machine.execVand f s
  | .vor f => Sys2Proof.Machine.execVor f s
  | .vxor f => Sys2Proof.Machine.execVxor f s
  | .vshl f => Sys2Proof.Machine.execVshl f s
  | .vshr f => Sys2Proof.Machine.execVshr f s
  | .vsar f => Sys2Proof.Machine.execVsar f s
  | .vrshr f => Sys2Proof.Machine.execVrshr f s
  | .vsat f => Sys2Proof.Machine.execVsat f s
  | .vclamp f => Sys2Proof.Machine.execVclamp f s
  | .vdot4 f => Sys2Proof.Machine.execVdot4 f s
  | .vdot2 f => Sys2Proof.Machine.execVdot2 f s
  | .vfadd f => Sys2Proof.Machine.execVfadd f s
  | .vfsub f => Sys2Proof.Machine.execVfsub f s
  | .vfmul f => Sys2Proof.Machine.execVfmul f s
  | .vffma f => Sys2Proof.Machine.execVffma f s
  | .vfmin f => Sys2Proof.Machine.execVfmin f s
  | .vfmax f => Sys2Proof.Machine.execVfmax f s
  | .vfabs f => Sys2Proof.Machine.execVfabs f s
  | .vfneg f => Sys2Proof.Machine.execVfneg f s
  | .vexp2 f => Sys2Proof.Machine.execVexp2 f s
  | .vlog2 f => Sys2Proof.Machine.execVlog2 f s
  | .vrcp f => Sys2Proof.Machine.execVrcp f s
  | .vrsqrt f => Sys2Proof.Machine.execVrsqrt f s
  | .vsqrt f => Sys2Proof.Machine.execVsqrt f s
  | .vdiv f => Sys2Proof.Machine.execVdiv f s
  | .vtadd f => Sys2Proof.Machine.execVtadd f s
  | .vtsub f => Sys2Proof.Machine.execVtsub f s
  | .vtmul f => Sys2Proof.Machine.execVtmul f s
  | .vtfma f => Sys2Proof.Machine.execVtfma f s
  | .vtmin f => Sys2Proof.Machine.execVtmin f s
  | .vtmax f => Sys2Proof.Machine.execVtmax f s
  | .vspz f => Sys2Proof.Machine.execVspz f s
  | .vspfma f => Sys2Proof.Machine.execVspfma f s
  | .vsprnd f => Sys2Proof.Machine.execVsprnd f s
  | .vcmp f => Sys2Proof.Machine.execVcmp f s
  | .vfcmp f => Sys2Proof.Machine.execVfcmp f s
  | .vtcmp f => Sys2Proof.Machine.execVtcmp f s
  | .vsel f => Sys2Proof.Machine.execVsel f s
  | .kand f => Sys2Proof.Machine.execKand f s
  | .kor f => Sys2Proof.Machine.execKor f s
  | .kxor f => Sys2Proof.Machine.execKxor f s
  | .knot f => Sys2Proof.Machine.execKnot f s
  | .kset f => Sys2Proof.Machine.execKset f s
  | .kget f => Sys2Proof.Machine.execKget f s
  | .vcvt f => Sys2Proof.Machine.execVcvt f s
  | .vpack f => Sys2Proof.Machine.execVpack f s
  | .vunpack f => Sys2Proof.Machine.execVunpack f s
  | .vbcast f => Sys2Proof.Machine.execVbcast f s
  | .vext f => Sys2Proof.Machine.execVext f s
  | .vperm f => Sys2Proof.Machine.execVperm f s
  | .vslide f => Sys2Proof.Machine.execVslide f s
  | .vred f => Sys2Proof.Machine.execVred f s
  | .vscan f => Sys2Proof.Machine.execVscan f s
  | .vld f => Sys2Proof.Machine.execVld f s
  | .vldX f => Sys2Proof.Machine.execVldX f s
  | .vst f => Sys2Proof.Machine.execVst f s
  | .vstX f => Sys2Proof.Machine.execVstX f s
  | .vlds f => Sys2Proof.Machine.execVlds f s
  | .vldsX f => Sys2Proof.Machine.execVldsX f s
  | .vsts f => Sys2Proof.Machine.execVsts f s
  | .vstsX f => Sys2Proof.Machine.execVstsX f s
  | .vldx f => Sys2Proof.Machine.execVldx f s
  | .vldxX f => Sys2Proof.Machine.execVldxX f s
  | .vstx f => Sys2Proof.Machine.execVstx f s
  | .vstxX f => Sys2Proof.Machine.execVstxX f s
  | .mfmt f => Sys2Proof.Machine.execMfmt f s
  | .mscl f => Sys2Proof.Machine.execMscl f s
  | .msclX f => Sys2Proof.Machine.execMsclX f s
  | .mlb f => Sys2Proof.Machine.execMlb f s
  | .mlbX f => Sys2Proof.Machine.execMlbX f s
  | .mma f => Sys2Proof.Machine.execMma f s
  | .mmaX f => Sys2Proof.Machine.execMmaX f s
  | .mrot f => Sys2Proof.Machine.execMrot f s
  | .mzero f => Sys2Proof.Machine.execMzero f s
  | .mdrain f => Sys2Proof.Machine.execMdrain f s
  | .mrow f => Sys2Proof.Machine.execMrow f s
  | .falloc f => Sys2Proof.Machine.execFalloc f s
  | .ffree f => Sys2Proof.Machine.execFfree f s
  | .sarm f => Sys2Proof.Machine.execSarm f s
  | .sig f => Sys2Proof.Machine.execSig f s
  | .sigX f => Sys2Proof.Machine.execSigX f s
  | .sigv f => Sys2Proof.Machine.execSigv f s
  | .sigb f => Sys2Proof.Machine.execSigb f s
  | .fire f => Sys2Proof.Machine.execFire f s
  | .sget f => Sys2Proof.Machine.execSget f s
  | .ldf f => Sys2Proof.Machine.execLdf f s
  | .stf f => Sys2Proof.Machine.execStf f s
  | .rinit f => Sys2Proof.Machine.execRinit f s
  | .racq f => Sys2Proof.Machine.execRacq f s
  | .rcom f => Sys2Proof.Machine.execRcom f s
  | .rpeek f => Sys2Proof.Machine.execRpeek f s
  | .rrel f => Sys2Proof.Machine.execRrel f s
  | .ldC f => Sys2Proof.Machine.execLdC f s
  | .ld f => Sys2Proof.Machine.execLd f s
  | .ldX f => Sys2Proof.Machine.execLdX f s
  | .stC f => Sys2Proof.Machine.execStC f s
  | .st f => Sys2Proof.Machine.execSt f s
  | .stX f => Sys2Proof.Machine.execStX f s
  | .ldrm f => Sys2Proof.Machine.execLdrm f s
  | .strm f => Sys2Proof.Machine.execStrm f s
  | .aadd f => Sys2Proof.Machine.execAadd f s
  | .amin f => Sys2Proof.Machine.execAmin f s
  | .amax f => Sys2Proof.Machine.execAmax f s
  | .aminu f => Sys2Proof.Machine.execAminu f s
  | .amaxu f => Sys2Proof.Machine.execAmaxu f s
  | .aand f => Sys2Proof.Machine.execAand f s
  | .aor f => Sys2Proof.Machine.execAor f s
  | .axor f => Sys2Proof.Machine.execAxor f s
  | .aswp f => Sys2Proof.Machine.execAswp f s
  | .acas f => Sys2Proof.Machine.execAcas f s
  | .afadd f => Sys2Proof.Machine.execAfadd f s
  | .aspadd f => Sys2Proof.Machine.execAspadd f s
  | .fence f => Sys2Proof.Machine.execFence f s
  | .twld f => Sys2Proof.Machine.execTwld f s
  | .twst f => Sys2Proof.Machine.execTwst f s
  | .twmc f => Sys2Proof.Machine.execTwmc f s
  | .twg f => Sys2Proof.Machine.execTwg f s
  | .tws f => Sys2Proof.Machine.execTws f s
  | .twq f => Sys2Proof.Machine.execTwq f s
  | .twcan f => Sys2Proof.Machine.execTwcan f s
  | .stepd f => Sys2Proof.Machine.execStepd f s
  | .ldst f => Sys2Proof.Machine.execLdst f s
  | .stepq f => Sys2Proof.Machine.execStepq f s
  | .sqtab f => Sys2Proof.Machine.execSqtab f s
  | .sqinit f => Sys2Proof.Machine.execSqinit f s
  | .sqstage f => Sys2Proof.Machine.execSqstage f s
  | .sqstep f => Sys2Proof.Machine.execSqstep f s
  | .sqrd f => Sys2Proof.Machine.execSqrd f s
  | .glaunch f => Sys2Proof.Machine.execGlaunch f s
  | .gquery f => Sys2Proof.Machine.execGquery f s
  | .gcan f => Sys2Proof.Machine.execGcan f s
  | .sysr f => Sys2Proof.Machine.execSysr f s
  | .sysw f => Sys2Proof.Machine.execSysw f s
  | .trap f => Sys2Proof.Machine.execTrap f s
  | .trapX f => Sys2Proof.Machine.execTrapX f s
  | .brk f => Sys2Proof.Machine.execBrk f s
  | .snap f => Sys2Proof.Machine.execSnap f s
  | .clockPinned die => Sys2Proof.Machine.execClockPinned die s
  | .softError key bits => Sys2Proof.Machine.execSoftError key bits s
  | .fillComplete cid => Sys2Proof.Machine.execFillComplete cid s

end Sys2Proof.Machine
end

