-- ==== Sys2Proof/Machine/Step.lean ====
section
/-! DEFINITION. One step of the machine: the next agent acts (log entry 5); a context fetches, decodes and executes one
instruction (R37, R88), or an agent performs one event. -/

namespace Sys2Proof.Machine

/-- An event of an agent, of the fabric or of the host: a row that is no instruction, and not the fate of a fetched pattern. -/
def isEvent (e : Instr) : Bool :=
  match e with
  | .illegalPattern _ => false
  | _ => encOf e == .event

/-- A context that runs a firing issues one instruction (R39, R88). A context that is free, or whose core is dead, does nothing. -/
noncomputable def issueStep (s : State) : Out :=
  if !(s.ctx.busy) || (s.core s.cur.1).dead then .next s
  else if 65536 ≤ s.ctx.issued then exec (.illegalPattern 0x08) s
  else match decode (fetchBytes s s.cur.1 s.ctx.pc.toNat) with
    | .error e => exec (.illegalPattern e.code) s
    | .ok i => exec i s

/-- A context whose lclaim has been served in the cycle of another core's, and has yet to issue (R128; log entry 13). -/
def claimWaits (s : State) (cid x : Nat) : Bool := (s.claimOf cid x).isSome && (State.ctxOf (s.core cid) x).busy

/-- The context that issues where context x of a core has an instruction ready: where the other context runs a firing and has one
ready too, it is the one that did not issue most recently (R38). Whether the other has one ready is free (log entry 9). A context whose
claim is served issues first. -/
noncomputable def issuing (s : State) (cid x : Nat) : Nat :=
  let c := s.core cid
  if claimWaits s cid x then x
  else if claimWaits s cid (1 - x) then 1 - x
  else if c.last = x ∧ (State.ctxOf c (1 - x)).busy ∧ Config.otherHeld s.tick = false then 1 - x else x

/-- What an agent's turn does. -/
noncomputable def act (a : Sel) (s : State) : Out :=
  match a with
  | .issue c x => issueStep { s with cur := (c, issuing s c (min x 1)) }
  | .event e => if isEvent e then exec e s else .next s

/-- One step: the head of the schedule acts, or where the schedule is empty an agent of free choice (log entry 5). -/
noncomputable def step (s : State) : Out :=
  match s.sched with
  | a :: t => act a { s with sched := t, tick := s.tick + 1 }
  | [] => act (Config.freeChoice s.tick) { s with tick := s.tick + 1 }

/-- Context 0 of core 0 made ready to issue: it runs a firing, has not used up its instructions, its core is not dead, and the other
context issued most recently (R38). -/
def readyCtx (c : Core) : Core :=
  { c with dead := false, last := 1, ctx0 := { c.ctx0 with busy := true, issued := if 65536 ≤ c.ctx0.issued then 0 else c.ctx0.issued } }

/-- The state with an instruction where the next step fetches: in the code store of cluster 0 at the address of context 0 of
core 0, which the schedule names next; no claim of core 0 is served but has yet to issue. It stands for the load of an image and a dispatch
(log entry 10). -/
def State.withFetchWord (s : State) (nbits w : Nat) : State :=
  let t := (s.setCore 0 (readyCtx (s.core 0))).setCell 0 { s.cell 0 with claims := (s.cell 0).claims.filter (fun y => decide (2 ≤ y.1)) }
  { t with
    sched := [.issue 0 0]
    mem := memWriteN t.mem (codeKey 0 ((t.core 0).ctx0.pc.toNat % 2 ^ 19)) 12 (w % 2 ^ nbits) }

end Sys2Proof.Machine
end

