-- ==== Sys2Proof/Safety.lean ====
section
/-! DEFINITION. What a safe run is: no step of it stops, and the invariants of the state that every step keeps. -/

namespace Sys2Proof

open Machine

/-- A step goes on. -/
def Goes (s : State) : Prop := ∃ t, step s = .next t

/-- The memory keeps its canonical form. -/
def MemInv (s : State) : Prop := Memory.wf s.mem = true

end Sys2Proof
end

