-- ==== Sys2Proof/Certificates/Slice0/Obligations.lean ====
section
/-! DEFINITION. The statements for the provers, with the tables of results that they range over (namespace Claims). A statement names
the rules it formalises; a value or an order that the model chose is named with its log entry. -/

open Sys2Proof Sys2Proof.Machine

/-- O1. Decoding an encoded instruction, whatever bytes stand behind it, gives the instruction with every field (R76 to R88). -/
def Obligations.DecodeOfEncode : Prop :=
  ∀ (i : Instr) (rest : List Byte), WellFormed i → encOf i ≠ .event → decode (encodeBytes i ++ rest) = .ok i

/-- O2. What decodes is a well-formed instruction whose encoding is the bytes that field L calls for (R76 to R79, R88): each
pattern has at most one meaning, and no bit of it is dropped. -/
def Obligations.EncodeOfDecode : Prop :=
  ∀ (bs : List Byte) (i : Instr), 12 ≤ bs.length → decode bs = .ok i →
    WellFormed i ∧ encOf i ≠ .event ∧ bs.take (lengthOf (parcelOf bs)) = encodeBytes i

namespace Sys2Proof.Claims

/-- A W form without guard, order class and hint. -/
def form (d a b c sub : Nat) : WForm :=
  { d := BitVec.ofNat 6 d, a := BitVec.ofNat 6 a, b := BitVec.ofNat 6 b, guard := 0, ord := 0, hint := 0, c := BitVec.ofNat 6 c
    sub := BitVec.ofNat 18 sub }

/-- Two states that agree but for the context that issues: its core's other context and other fields, every other core and every other part
of the machine are the same. -/
def onlyCtx (s t : State) : Prop :=
  let c := s.core s.cur.1
  let d := t.core s.cur.1
  let other := if s.cur.2 = 0 then 1 else 0
  State.ctxOf d other = State.ctxOf c other ∧ d = { c with ctx0 := d.ctx0, ctx1 := d.ctx1 } ∧ (∀ k, k ≠ s.cur.1 → t.core k = s.core k) ∧
    t = { s with cores := t.cores }

/-- What the decoder answers on a list of parcels. -/
noncomputable def decodes (ps : List Parcel) : Except DecodeError Instr := decode (ps.flatMap bytesOfParcel)

end Sys2Proof.Claims

/-- O3. Words that the manual writes out decode to the instructions they stand for, of the chapters on encoding, on scalar, tapered, vector
and matrix instructions, on frames, on memory and on faults; and the words it lists as illegal to their codes. -/
def Obligations.DecodeWords : Prop :=
  Claims.decodes [0x00000018] = .ok (.nopC { d := 0, a := 0, b := 0 }) ∧
  Claims.decodes [0x005243C0] = .ok (.ldC { d := 3, a := 9, b := 5 }) ∧
  Claims.decodes [0x045243C0] = .ok (.stC { d := 3, a := 9, b := 5 }) ∧
  Claims.decodes [0x1000001D, 0x00000003] =
    .ok (.endW { d := 0, a := 0, b := 0, guard := 3, ord := 0, hint := 0, c := 0, sub := 0 }) ∧
  Claims.decodes [0x0001C706, 0, 0x23456789] =
    .ok (.addiX { d := 7, a := 7, b := 0, guard := 0, ord := 0, hint := 0, c := 0, lit := 0x23456789 }) ∧
  Claims.decodes [0x000005F9, 0x00008000] =
    .ok (.sysr { d := 5, a := 0, b := 0, guard := 0, ord := 0, hint := 0, c := 0, sub := 2 }) ∧
  Claims.decodes [0x080000F9, 0x0001C000] =
    .ok (.trap { d := 0, a := 0, b := 0, guard := 0, ord := 0, hint := 0, c := 0, sub := 7 }) ∧
  Claims.decodes [0x0C2040F9, 0] =
    .ok (.brk { d := 0, a := 1, b := 2, guard := 0, ord := 0, hint := 0, c := 0, sub := 0 }) ∧
  Claims.decodes [0x0051020D, 0x00000600] = .ok (.cmp (Claims.form 2 4 5 6 0)) ∧
  Claims.decodes [0x0081C615, 0x00000200] = .ok (.sel (Claims.form 6 7 8 2 0)) ∧
  Claims.decodes [0x14004749, 0x0009C000] = .ok (.sprnd (Claims.form 7 1 0 0 39)) ∧
  Claims.decodes [0x18024249, 0x00100000] = .ok (.spld (Claims.form 2 9 0 0 64)) ∧
  Claims.decodes [0x00000361, 0x00008000] = .ok (.lclaim (Claims.form 3 0 0 0 2)) ∧
  Claims.decodes [0x080241A1, 0x03000C00] = .ok (.mlb (Claims.form 1 9 0 12 3072)) ∧
  Claims.decodes [0x100000A1, 0x00000E00] = .ok (.mrot (Claims.form 0 0 0 14 0)) ∧
  Claims.decodes [0x0040C0B1, 0x000B0C00] = .ok (.falloc (Claims.form 0 3 4 12 44)) ∧
  Claims.decodes [0x0C0240B1, 0x00004C00] = .ok (.sig (Claims.form 0 9 0 12 1)) ∧
  Claims.decodes [0x1001C0B5, 0x000BCC00] = .ok (.rrel (Claims.form 0 7 0 12 47)) ∧
  Claims.decodes [0x000245C1, 0x00050100] = .ok (.ld (Claims.form 5 9 0 1 20)) ∧
  Claims.decodes [0x0001C0C5, 0x00030C00] = .ok (.ldrm (Claims.form 0 7 0 12 12)) ∧
  Claims.decodes [0x245106C9, 0x02034C00] = .ok (.acas (Claims.form 6 4 5 12 2061)) ∧
  Claims.decodes [0x000000CD, 0x0000C000] = .ok (.fence (Claims.form 0 0 0 0 3)) ∧
  Claims.decodes [0x180300D1, 0x0003CD00] = .ok (.twcan (Claims.form 0 12 0 13 15)) ∧
  Claims.decodes [0x00000418] = .error .illegal ∧ Claims.decodes [0x08308100] = .error .illegal ∧
  Claims.decodes [0x00207C00] = .error .illegal ∧ Claims.decodes [0x00308101, 0x00000010] = .error .illegal ∧
  Claims.decodes [0x00000000] = .error .zero

namespace Sys2Proof.Claims

/-- The assigned majors of R86, each with the count of its instructions. -/
def minorCounts : List (Nat × Nat) :=
  [(0x00, 21), (0x01, 8), (0x02, 8), (0x03, 2), (0x04, 6), (0x05, 2), (0x06, 4), (0x07, 5), (0x10, 12), (0x11, 11), (0x12, 8), (0x13, 1),
   (0x18, 3), (0x19, 19), (0x1A, 14), (0x1B, 9), (0x1C, 10), (0x1D, 3), (0x1E, 6), (0x1F, 6), (0x28, 8), (0x2C, 10), (0x2D, 5), (0x30, 2),
   (0x31, 2), (0x32, 12), (0x33, 1), (0x34, 7), (0x38, 3), (0x39, 5), (0x3C, 3), (0x3E, 5)]

end Sys2Proof.Claims

/-- O4. R87: the 32 reserved majors hold no instruction, in any form, and no minor from the count of R86 on is assigned in an
assigned major. -/
def Obligations.ReservedMajors : Prop :=
  (∀ q0 q1 q2 : Parcel, q0 ≠ 0 →
    majorOf q0 ∈ [0x08, 0x09, 0x0A, 0x0B, 0x0C, 0x0D, 0x0E, 0x0F, 0x14, 0x15, 0x16, 0x17, 0x20, 0x21, 0x22, 0x23, 0x24, 0x25, 0x26, 0x27,
      0x29, 0x2A, 0x2B, 0x2E, 0x2F, 0x35, 0x36, 0x37, 0x3A, 0x3B, 0x3D, 0x3F] →
    decodeParcels q0 q1 q2 = .error .illegal) ∧
  (∀ q0 q1 q2 : Parcel, ∀ x ∈ Claims.minorCounts, q0 ≠ 0 → majorOf q0 = x.1 → x.2 ≤ q0.toNat / 2 ^ 26 →
    decodeParcels q0 q1 q2 = .error .illegal)

/-- O5. A step in which the schedule's head lets a core issue runs the instruction that the bytes of a context decode to; a pattern that is
no instruction ends the firing with its code, and so does an instruction beyond the limit of R39. The context is the one named, or
where that one issued most recently and the other has an instruction ready, the other (R38); one whose lclaim has been served in its cycle issues
first.
The model's own choices in it: log entries 5, 6, 9, 13. -/
def Obligations.StepRunsDecoded : Prop :=
  (∀ (s : State) (c x : Nat) (rest : List Sel), s.sched = .issue c x :: rest →
    let v : State := { s with sched := rest, tick := s.tick + 1 }
    let u : State := { v with cur := (c, issuing v c (min x 1)) }
    u.ctx.busy = true → (u.core c).dead = false →
    (∀ i, u.ctx.issued < 65536 → decode (fetchBytes u c u.ctx.pc.toNat) = .ok i → step s = exec i u) ∧
    (∀ e, u.ctx.issued < 65536 → decode (fetchBytes u c u.ctx.pc.toNat) = .error e → step s = exec (.illegalPattern e.code) u) ∧
    (65536 ≤ u.ctx.issued → step s = exec (.illegalPattern 0x08) u)) ∧
  (∀ (s : State) (c x : Nat), let waits := fun y => (s.claimOf c y).isSome = true ∧ (State.ctxOf (s.core c) y).busy = true
    (waits x → issuing s c x = x) ∧ (¬waits x → waits (1 - x) → issuing s c x = 1 - x) ∧
    (¬waits x → ¬waits (1 - x) →
      ((s.core c).last = x → (State.ctxOf (s.core c) (1 - x)).busy = true → issuing s c x = if Config.otherHeld s.tick then x else 1 - x) ∧
      ((s.core c).last ≠ x ∨ (State.ctxOf (s.core c) (1 - x)).busy = false → issuing s c x = x)))

/-- O6. A step in which the schedule's head is an event of an agent, of the fabric or of the host performs that event.
The model's own choices in it: log entries 5, 6. -/
def Obligations.StepRunsEvent : Prop :=
  ∀ (s : State) (e : Instr) (rest : List Sel), s.sched = .event e :: rest → isEvent e = true →
    step s = exec e { s with sched := rest, tick := s.tick + 1 }

/-- O7. From R81, in part: an instruction whose guard is false counts as issued, and its context goes on behind it; nothing else changes but the
core's cycle counter. It holds of every W-form and X-form instruction; a C form always executes. -/
def Obligations.GuardFalse : Prop :=
  ∀ (i : Instr) (s : State),
    (∀ m n f, encOf i = .w m n f → guardHolds f.guard s.ctx = false → exec i s = .next (s.countIssue 8)) ∧
    (∀ m n f, encOf i = .x m n f → guardHolds f.guard s.ctx = false → exec i s = .next (s.countIssue 12))

/-- O8. What the count of an issue changes: the context's issued count and its program counter, the core's cycle counter by at
least 1 and the context that issued last (R38, R39, R106); every other part of the machine is as before. (The program counter of the
instruction that issues, ipc, is the model's own field.)
The model's own choices in it: log entry 9. -/
def Obligations.IssueCounts : Prop :=
  ∀ (s : State) (len : Nat),
    let t := s.countIssue len
    let c := s.core s.cur.1
    let d := t.core s.cur.1
    let other := if s.cur.2 = 0 then 1 else 0
    t.ctx = { s.ctx with issued := s.ctx.issued + 1, ipc := s.ctx.pc, pc := s.ctx.pc + BitVec.ofNat 64 len } ∧
    State.ctxOf d other = State.ctxOf c other ∧ d.last = s.cur.2 ∧ c.cyc + 1 ≤ d.cyc ∧
    d = { c with cyc := d.cyc, last := d.last, ctx0 := d.ctx0, ctx1 := d.ctx1 } ∧
    (∀ k, k ≠ s.cur.1 → t.core k = s.core k) ∧ t = { s with cores := t.cores }

/-- O9. From R42 to R44, R47, in part: what a scalar register gives as a source: s0 reads 0, the port registers pop the word at the head of their inbound
FIFO and fault with code 0x05 where it is empty, fb is the byte address of the firing's local frame, in a carve-out of 256 bytes for each
frame that the image declares (R205), fi its slot, context and local frame, stp the core's step, and any other register its value. -/
def Obligations.ReadRegister : Prop :=
  ∀ (s : State),
    s.readS 0 = .ok (0, s) ∧ s.readS 60 = .ok (s.fb, s) ∧ s.readS 61 = .ok (s.fi, s) ∧ s.readS 62 = .ok ((s.core s.cur.1).stp, s) ∧
    (∀ r : BitVec 6, (1 ≤ r.toNat ∧ r.toNat ≤ 55 ∨ r = 63) → s.readS r = .ok (s.ctx.s.get 0 r.toNat, s)) ∧
    (∀ r : BitVec 6, 56 ≤ r.toNat → r.toNat ≤ 59 → (s.core s.cur.1).inq.get [] (r.toNat - 56) = [] → s.readS r = .error 0x05) ∧
    (∀ (r : BitVec 6) (w : Word) (l : List Word), 56 ≤ r.toNat → r.toNat ≤ 59 →
      (s.core s.cur.1).inq.get [] (r.toNat - 56) = w :: l →
      ∃ t, s.readS r = .ok (w, t) ∧ (t.core s.cur.1).inq.get [] (r.toNat - 56) = l ∧
        (∀ j, j ≠ r.toNat - 56 → (t.core s.cur.1).inq.get [] j = (s.core s.cur.1).inq.get [] j) ∧ t.ctx = s.ctx ∧ t.mem = s.mem) ∧
    (∀ im, (s.part (s.partOf s.cur.1)).image = some im → s.fb = BitVec.ofNat 64 (0x20000 - 256 * im.frames + 256 * s.ctx.frame)) ∧
    s.fi.toNat % 8 = s.ctx.slot % 8 ∧ s.fi.toNat / 8 % 2 = s.cur.2 % 2 ∧ s.fi.toNat / 16 = s.ctx.frame % 256

/-- O10. From R42, R47, in part: what a write of a scalar register does: s0 discards it, a port register pushes the word behind its outbound
FIFO and faults with code 0x06 where 16 entries stand in it, and any other register that can be a destination holds the value and
leaves every other register. -/
def Obligations.WriteRegister : Prop :=
  ∀ (s : State) (v : Word),
    s.writeS 0 v = .ok s ∧
    (∀ r : BitVec 6, (1 ≤ r.toNat ∧ r.toNat ≤ 55 ∨ r = 63) → ∃ t, s.writeS r v = .ok t ∧ t.readS r = .ok (v, t) ∧
      (∀ j, j ≠ r.toNat → t.ctx.s.get 0 j = s.ctx.s.get 0 j) ∧ t.ctx.p = s.ctx.p ∧ t.ctx.v = s.ctx.v ∧ t.ctx.k = s.ctx.k ∧
      t.ctx.y = s.ctx.y ∧ t.ctx.w = s.ctx.w ∧ t.ctx.pc = s.ctx.pc ∧ t.mem = s.mem ∧ t.net = s.net ∧ t.faults = s.faults) ∧
    (∀ r : BitVec 6, 56 ≤ r.toNat → r.toNat ≤ 59 → 16 ≤ ((s.core s.cur.1).outq.get [] (r.toNat - 56)).length →
      s.writeS r v = .error 0x06) ∧
    (∀ r : BitVec 6, 56 ≤ r.toNat → r.toNat ≤ 59 → ((s.core s.cur.1).outq.get [] (r.toNat - 56)).length < 16 →
      ∃ t, s.writeS r v = .ok t ∧ (t.core s.cur.1).outq.get [] (r.toNat - 56) = (s.core s.cur.1).outq.get [] (r.toNat - 56) ++ [v] ∧
        t.ctx = s.ctx ∧ t.mem = s.mem)

namespace Sys2Proof.Claims

/-- The results of major 0x00 (R93, R94), each from the readings sg and un of R90. -/
noncomputable def binary : List ((WForm → Instr) × (Word → Word → Word)) :=
  [(.add, fun a b => BitVec.ofNat 64 (a.toNat + b.toNat)), (.sub, fun a b => BitVec.ofInt 64 (a.toInt - b.toInt)),
   (.mul, fun a b => BitVec.ofNat 64 (a.toNat * b.toNat)), (.mulh, fun a b => BitVec.ofInt 64 (a.toInt * b.toInt / 2 ^ 64)),
   (.mulhu, fun a b => BitVec.ofNat 64 (a.toNat * b.toNat / 2 ^ 64)),
   (.div, fun a b => if b.toInt = 0 then -1 else BitVec.ofInt 64 (a.toInt.tdiv b.toInt)),
   (.divu, fun a b => if b.toNat = 0 then -1 else BitVec.ofNat 64 (a.toNat / b.toNat)),
   (.rem, fun a b => if b.toInt = 0 then a else BitVec.ofInt 64 (a.toInt - b.toInt * a.toInt.tdiv b.toInt)),
   (.remu, fun a b => if b.toNat = 0 then a else BitVec.ofNat 64 (a.toNat % b.toNat)),
   (.and, fun a b => a &&& b), (.or, fun a b => a ||| b), (.xor, fun a b => a ^^^ b), (.andn, fun a b => a &&& ~~~b),
   (.shl, fun a b => BitVec.ofNat 64 (a.toNat * 2 ^ (b.toNat % 64))), (.shr, fun a b => BitVec.ofNat 64 (a.toNat / 2 ^ (b.toNat % 64))),
   (.sar, fun a b => BitVec.ofInt 64 (a.toInt / 2 ^ (b.toNat % 64))), (.rol, fun a b => a.rotateLeft (b.toNat % 64)),
   (.min, fun a b => if b.toInt < a.toInt then b else a), (.max, fun a b => if a.toInt < b.toInt then b else a),
   (.minu, fun a b => if b.toNat < a.toNat then b else a), (.maxu, fun a b => if a.toNat < b.toNat then b else a)]

/-- The C forms of R80 with the results of their W forms. -/
noncomputable def binaryC : List ((CForm → Instr) × (Word → Word → Word)) :=
  [(.addC, fun a b => BitVec.ofNat 64 (a.toNat + b.toNat)), (.subC, fun a b => BitVec.ofInt 64 (a.toInt - b.toInt)),
   (.andC, fun a b => a &&& b), (.orC, fun a b => a ||| b), (.xorC, fun a b => a ^^^ b),
   (.shlC, fun a b => BitVec.ofNat 64 (a.toNat * 2 ^ (b.toNat % 64))), (.shrC, fun a b => BitVec.ofNat 64 (a.toNat / 2 ^ (b.toNat % 64))),
   (.sarC, fun a b => BitVec.ofInt 64 (a.toInt / 2 ^ (b.toNat % 64)))]

end Sys2Proof.Claims

/-- O11. The 21 instructions of major 0x00 and their 8 C forms complete with the results of R93 and R94 wherever their sources can be
read and their destination written: the next state is the write of the result to d behind the reads of a and b, and nothing else. -/
def Obligations.ScalarBinary : Prop :=
  (∀ x ∈ Claims.binary, ∀ (f : WForm) (s s1 t : State) (a b : Word), guardHolds f.guard s.ctx = true →
    (s.countIssue 8).readAB f = .ok (a, b, s1) → s1.writeS f.d (x.2 a b) = .ok t → exec (x.1 f) s = .next t) ∧
  (∀ x ∈ Claims.binaryC, ∀ (f : CForm) (s s1 s2 t : State) (a b : Word),
    (s.countIssue 4).readS f.a = .ok (a, s1) → s1.readS f.b = .ok (b, s2) → s2.writeS f.d (x.2 a b) = .ok t → exec (x.1 f) s = .next t)

/-- O12. R94: division never faults: each of the four completes with its result wherever its sources can be read and its
destination written. A zero divisor gives all ones and A, the quotient that overflows gives −2^63 and 0, and in every other case
A = B × quotient + remainder with a remainder smaller than the divisor. -/
def Obligations.DivisionCases : Prop :=
  (∀ x ∈ ([(.div, divS), (.divu, divU), (.rem, remS), (.remu, remU)] : List ((WForm → Instr) × (Word → Word → Word))),
    ∀ (f : WForm) (s s1 t : State) (a b : Word), guardHolds f.guard s.ctx = true →
      (s.countIssue 8).readAB f = .ok (a, b, s1) → s1.writeS f.d (x.2 a b) = .ok t → exec (x.1 f) s = .next t) ∧
  ∀ a b : Word,
    (b = 0 → divS a b = 0xFFFFFFFFFFFFFFFF ∧ divU a b = 0xFFFFFFFFFFFFFFFF ∧ remS a b = a ∧ remU a b = a) ∧
    (a = 0x8000000000000000 → b = 0xFFFFFFFFFFFFFFFF → divS a b = 0x8000000000000000 ∧ remS a b = 0) ∧
    (b ≠ 0 → a.toNat = b.toNat * (divU a b).toNat + (remU a b).toNat ∧ (remU a b).toNat < b.toNat) ∧
    (b ≠ 0 → ¬(a = 0x8000000000000000 ∧ b = 0xFFFFFFFFFFFFFFFF) →
      a.toInt = b.toInt * (divS a b).toInt + (remS a b).toInt ∧ (remS a b).toInt.natAbs < b.toInt.natAbs)

namespace Sys2Proof.Claims

/-- The results of major 0x01 on A and I (R96). -/
noncomputable def immediate : List ((WForm → Instr) × (XForm → Instr) × (Word → Word → Word)) :=
  [(.addi, .addiX, fun a i => BitVec.ofInt 64 (a.toInt + i.toInt)), (.andi, .andiX, fun a i => a &&& i), (.ori, .oriX, fun a i => a ||| i),
   (.xori, .xoriX, fun a i => a ^^^ i), (.shli, .shliX, fun a i => BitVec.ofNat 64 (a.toNat * 2 ^ (i.toNat % 64))),
   (.shri, .shriX, fun a i => BitVec.ofNat 64 (a.toNat / 2 ^ (i.toNat % 64))),
   (.sari, .sariX, fun a i => BitVec.ofInt 64 (a.toInt / 2 ^ (i.toNat % 64))), (.muli, .muliX, fun a i => BitVec.ofInt 64 (a.toInt * i.toInt))]

end Sys2Proof.Claims

/-- O13. The 8 instructions of major 0x01 complete in both forms with the results of R96 wherever a can be read and d written: I is
imm18 or the literal, sign-extended to 64 bits (R78, R79). -/
def Obligations.ScalarImmediate : Prop :=
  ∀ x ∈ Claims.immediate,
    (∀ (f : WForm) (s s1 t : State) (a : Word), guardHolds f.guard s.ctx = true → (s.countIssue 8).readS f.a = .ok (a, s1) →
      s1.writeS f.d (x.2.2 a (BitVec.ofInt 64 f.sub.toInt)) = .ok t → exec (x.1 f) s = .next t) ∧
    (∀ (f : XForm) (s s1 t : State) (a : Word), guardHolds f.guard s.ctx = true → (s.countIssue 12).readS f.a = .ok (a, s1) →
      s1.writeS f.d (x.2.2 a (BitVec.ofInt 64 f.lit.toInt)) = .ok t → exec (x.2.1 f) s = .next t)

/-- O14. The 8 instructions of major 0x02 complete with the results of R98 and R99 wherever a (and for bins then d) can be read and d
written. -/
def Obligations.BitFields : Prop :=
  ∀ (f : WForm) (s s1 : State) (a : Word), guardHolds f.guard s.ctx = true → (s.countIssue 8).readS f.a = .ok (a, s1) →
    (∀ n t, n ≤ 64 → a.toNat < 2 ^ (64 - n) → (n < 64 → 2 ^ (63 - n) ≤ a.toNat) → s1.writeS f.d (BitVec.ofNat 64 n) = .ok t →
      exec (.clz f) s = .next t) ∧
    (∀ n t, n ≤ 64 → a.toNat % 2 ^ n = 0 → (n < 64 → a.toNat / 2 ^ n % 2 = 1) → s1.writeS f.d (BitVec.ofNat 64 n) = .ok t →
      exec (.ctz f) s = .next t) ∧
    (∀ t, s1.writeS f.d (BitVec.ofNat 64 ((List.range 64).map (fun i => a.toNat / 2 ^ i % 2)).sum) = .ok t → exec (.popc f) s = .next t) ∧
    (∀ r t, (∀ i, i < 64 → r.getLsbD i = a.getLsbD (63 - i)) → s1.writeS f.d r = .ok t → exec (.brev f) s = .next t) ∧
    (∀ t, s1.writeS f.d (BitVec.ofNat 64 (a.toNat / 2 ^ f.pos % 2 ^ f.len)) = .ok t → exec (.bext f) s = .next t) ∧
    (∀ d r s2 t, f.pos + f.len ≤ 64 → s1.readS f.d = .ok (d, s2) →
      (∀ i, i < 64 → r.getLsbD i = if f.pos ≤ i ∧ i < f.pos + f.len then a.getLsbD (i - f.pos) else d.getLsbD i) →
      s2.writeS f.d r = .ok t → exec (.bins f) s = .next t) ∧
    (∀ t, s1.writeS f.d (BitVec.ofInt 64 (BitVec.ofNat (f.fld 14 6 + 1) a.toNat).toInt) = .ok t → exec (.sext f) s = .next t) ∧
    (∀ t, s1.writeS f.d (BitVec.ofNat 64 (a.toNat % 2 ^ (f.fld 14 6 + 1))) = .ok t → exec (.zext f) s = .next t)

namespace Sys2Proof.Claims

/-- The conditions of R100 on A and Y, by code. -/
def conditions : List (BitVec 6 × (Word → Word → Bool)) :=
  [(0, fun a y => a == y), (1, fun a y => a != y), (2, fun a y => decide (a.toInt < y.toInt)), (3, fun a y => decide (a.toInt ≤ y.toInt)),
   (4, fun a y => decide (y.toInt < a.toInt)), (5, fun a y => decide (y.toInt ≤ a.toInt)), (6, fun a y => decide (a.toNat < y.toNat)),
   (7, fun a y => decide (a.toNat ≤ y.toNat)), (8, fun a y => decide (y.toNat < a.toNat)), (9, fun a y => decide (y.toNat ≤ a.toNat))]

end Sys2Proof.Claims

/-- O15. cmp and cmpi complete wherever their sources can be read, and write the truth of their condition to the destination
predicate (R100, R101); a write of p0 is discarded, and a write of another predicate leaves the rest. -/
def Obligations.Compares : Prop :=
  (∀ x ∈ Claims.conditions,
    (∀ (f : WForm) (s s1 : State) (a b : Word), guardHolds f.guard s.ctx = true → f.c = x.1 →
      (s.countIssue 8).readAB f = .ok (a, b, s1) → exec (.cmp f) s = .next (s1.writeP f.d.toNat (x.2 a b))) ∧
    (∀ (f : WForm) (s s1 : State) (a : Word), guardHolds f.guard s.ctx = true → f.c = x.1 →
      (s.countIssue 8).readS f.a = .ok (a, s1) → exec (.cmpi f) s = .next (s1.writeP f.d.toNat (x.2 a (BitVec.ofInt 64 f.sub.toInt)))) ∧
    (∀ (f : XForm) (s s1 : State) (a : Word), guardHolds f.guard s.ctx = true → f.c = x.1 →
      (s.countIssue 12).readS f.a = .ok (a, s1) → exec (.cmpiX f) s = .next (s1.writeP f.d.toNat (x.2 a (BitVec.ofInt 64 f.lit.toInt))))) ∧
  (∀ (s : State) (n : Nat) (b : Bool), s.writeP 0 b = s ∧
    (0 < n → n < 8 → (s.writeP n b).readP n = b ∧ (∀ m, m < 8 → m ≠ n → (s.writeP n b).readP m = s.readP m) ∧
      (s.writeP n b).ctx.s = s.ctx.s ∧ (s.writeP n b).mem = s.mem))

/-- O16. The predicate instructions of R102, and sel and lea (R103, R104), complete with their results wherever their scalar sources
can be read and a scalar destination written. -/
def Obligations.PredicatesAndSelect : Prop :=
  ∀ (f : WForm) (s : State), guardHolds f.guard s.ctx = true →
    let u := s.countIssue 8
    exec (.pand f) s = .next (u.writeP f.d.toNat (u.readP f.a.toNat && u.readP f.b.toNat)) ∧
    exec (.por f) s = .next (u.writeP f.d.toNat (u.readP f.a.toNat || u.readP f.b.toNat)) ∧
    exec (.pxor f) s = .next (u.writeP f.d.toNat (u.readP f.a.toNat ^^ u.readP f.b.toNat)) ∧
    exec (.pnot f) s = .next (u.writeP f.d.toNat (!(u.readP f.a.toNat))) ∧
    (∀ a s1, u.readS f.a = .ok (a, s1) → ∃ t, exec (.pset f) s = .next t ∧ (∀ n, 0 < n → n < 8 → t.readP n = a.getLsbD n) ∧
      t.ctx.s = s1.ctx.s ∧ t.mem = s1.mem) ∧
    (∀ v t, (∀ i, i < 64 → v.getLsbD i = (decide (i < 8) && u.readP i)) → u.writeS f.d v = .ok t → exec (.pget f) s = .next t) ∧
    (∀ a b s1 t, u.readAB f = .ok (a, b, s1) → s1.writeS f.d (if s1.readP f.c.toNat then a else b) = .ok t → exec (.sel f) s = .next t) ∧
    (∀ a b s1 t, f.c.toNat < 8 → u.readAB f = .ok (a, b, s1) →
      s1.writeS f.d (BitVec.ofInt 64 (a.toNat + b.toNat * 2 ^ f.c.toNat + f.sub.toInt)) = .ok t → exec (.lea f) s = .next t) ∧
    (∀ (g : XForm) a b s1 t, guardHolds g.guard s.ctx = true → g.c.toNat < 8 → (s.countIssue 12).readAB g.toW = .ok (a, b, s1) →
      s1.writeS g.d (BitVec.ofInt 64 (a.toNat + b.toNat * 2 ^ g.c.toNat + g.lit.toInt)) = .ok t → exec (.leaX g) s = .next t)

/-- O17. nop and hint do nothing but count as issued (R105); rdcyc writes the core's cycle counter, and rdcnt the conflict counter,
the instructions issued before it or the ready-queue entries; .bank.clr clears the conflict counter (R106 to R108).
The model's own choices in it: log entry 9. -/
def Obligations.MarksAndCounters : Prop :=
  ∀ (f : WForm) (s : State), guardHolds f.guard s.ctx = true →
    let u := s.countIssue 8
    exec (.nop f) s = .next u ∧ exec (.hint f) s = .next u ∧
    (∀ g : CForm, exec (.nopC g) s = .next (s.countIssue 4)) ∧
    (∀ g : XForm, guardHolds g.guard s.ctx = true → exec (.hintX g) s = .next (s.countIssue 12)) ∧
    (∀ t, u.writeS f.d (BitVec.ofNat 64 (u.core s.cur.1).cyc) = .ok t → exec (.rdcyc f) s = .next t) ∧
    (∀ t, f.fld 14 4 = 0 → f.fld 18 1 = 0 → u.writeS f.d (BitVec.ofNat 64 (min (s.core s.cur.1).conflicts (2 ^ 64 - 1))) = .ok t →
      exec (.rdcnt f) s = .next t) ∧
    (∀ t, f.fld 14 4 = 0 → f.fld 18 1 = 1 → (u.modCur (fun c => { c with conflicts := 0 })).writeS f.d
        (BitVec.ofNat 64 (min (s.core s.cur.1).conflicts (2 ^ 64 - 1))) = .ok t →
      exec (.rdcnt f) s = .next t ∧ (t.core s.cur.1).conflicts = 0) ∧
    (∀ t, f.fld 14 4 = 1 → u.writeS f.d (BitVec.ofNat 64 s.ctx.issued) = .ok t → exec (.rdcnt f) s = .next t) ∧
    (∀ t, f.fld 14 4 = 2 → u.writeS f.d (BitVec.ofNat 64 (s.core s.cur.1).ready.length) = .ok t → exec (.rdcnt f) s = .next t)

namespace Sys2Proof.Claims

/-- A transfer target that R111 admits: a multiple of 4 within the code range of the running graph. -/
def admits (s : State) (t : Word) : Prop := t.toNat % 4 = 0 ∧ s.codeRange.1 ≤ t.toNat ∧ t.toNat < s.codeRange.2
/-- The context that issues goes on at an address. -/
def goesTo (s : State) (t : Word) : State := s.modCtx (fun k => { k with pc := t })

end Sys2Proof.Claims

/-- O18. The control instructions complete where their target is admitted: the context goes on at the target that R110 gives, call
writes ln with the address behind it, and end frees the context (R112).
The model's own choices in it: log entry 3 (a free context holds the register values of R41; the manual says only that its registers cease
to exist). -/
def Obligations.Control : Prop :=
  ∀ (f : WForm) (s : State), guardHolds f.guard s.ctx = true →
    let u := s.countIssue 8
    let v := s.countIssue 12
    let tw : Word := BitVec.ofInt 64 (s.ctx.pc.toInt + 4 * f.sub.toInt)
    (Claims.admits u tw → exec (.br f) s = .next (Claims.goesTo u tw)) ∧
    (Claims.admits u tw → exec (.call f) s = .next ((Claims.goesTo u tw).modCtx (fun k => { k with s := k.s.set 63 (s.ctx.pc + 8) }))) ∧
    (∀ g : XForm, guardHolds g.guard s.ctx = true → let tx : Word := BitVec.ofInt 64 (s.ctx.pc.toInt + 4 * g.lit.toInt)
      (Claims.admits v tx → exec (.brX g) s = .next (Claims.goesTo v tx)) ∧
      (Claims.admits v tx → exec (.callX g) s = .next ((Claims.goesTo v tx).modCtx (fun k => { k with s := k.s.set 63 (s.ctx.pc + 12) })))) ∧
    (∀ a s1, u.readS f.a = .ok (a, s1) → Claims.admits s1 a → exec (.brx f) s = .next (Claims.goesTo s1 a)) ∧
    (Claims.admits u (s.ctx.s.get 0 63) → exec (.ret f) s = .next (Claims.goesTo u (s.ctx.s.get 0 63))) ∧
    exec (.endW f) s = .next u.endFiring ∧ (∀ g : CForm, exec (.endC g) s = .next (s.countIssue 4).endFiring) ∧
    u.endFiring.ctx = Ctx.init ∧ u.endFiring.mem = s.mem ∧ u.endFiring.net = s.net ∧ u.endFiring.cmds = s.cmds

/-- O19. From R111, in part: a transfer whose target is no multiple of 4 faults with code 0x03, and one whose target is a multiple of 4 outside the
code range of the running graph with code 0x01. -/
def Obligations.ControlFaults : Prop :=
  ∀ (f : WForm) (s : State), guardHolds f.guard s.ctx = true →
    let u := s.countIssue 8
    let tw : Word := BitVec.ofInt 64 (s.ctx.pc.toInt + 4 * f.sub.toInt)
    (∀ i ∈ [Instr.br f, Instr.call f],
      (tw.toNat % 4 ≠ 0 → exec i s = .next (u.takeFault 0x03 0)) ∧
      (tw.toNat % 4 = 0 → (tw.toNat < u.codeRange.1 ∨ u.codeRange.2 ≤ tw.toNat) → exec i s = .next (u.takeFault 0x01 0))) ∧
    (∀ g : XForm, guardHolds g.guard s.ctx = true → let v := s.countIssue 12
      let tx : Word := BitVec.ofInt 64 (s.ctx.pc.toInt + 4 * g.lit.toInt)
      ∀ i ∈ [Instr.brX g, Instr.callX g],
        (tx.toNat % 4 ≠ 0 → exec i s = .next (v.takeFault 0x03 0)) ∧
        (tx.toNat % 4 = 0 → (tx.toNat < v.codeRange.1 ∨ v.codeRange.2 ≤ tx.toNat) → exec i s = .next (v.takeFault 0x01 0))) ∧
    (∀ a s1, u.readS f.a = .ok (a, s1) → a.toNat % 4 ≠ 0 → exec (.brx f) s = .next (u.takeFault 0x03 0)) ∧
    (∀ a s1, u.readS f.a = .ok (a, s1) → a.toNat % 4 = 0 → (a.toNat < s1.codeRange.1 ∨ s1.codeRange.2 ≤ a.toNat) →
      exec (.brx f) s = .next (u.takeFault 0x01 0)) ∧
    ((s.ctx.s.get 0 63).toNat % 4 ≠ 0 → exec (.ret f) s = .next (u.takeFault 0x03 0)) ∧
    ((s.ctx.s.get 0 63).toNat % 4 = 0 → ((s.ctx.s.get 0 63).toNat < u.codeRange.1 ∨ u.codeRange.2 ≤ (s.ctx.s.get 0 63).toNat) →
      exec (.ret f) s = .next (u.takeFault 0x01 0))

namespace Sys2Proof.Claims

/-- The FP32 word that a scalar register holds (R113). -/
def low (a : Word) : BitVec 32 := a.extractLsb' 0 32
/-- Sources a, b and c in that order (R47, R116, R120). -/
def readABC (s : State) (f : WForm) : Except Code (Word × Word × Word × State) := do
  let (a, b, s1) ← s.readAB f
  let (c, s2) ← s1.readS f.c
  pure (a, b, c, s2)

/-- R116: what the two-operand instructions of major 0x10 give for a, b and the rounding mode. -/
noncomputable def float2 : List ((WForm → Instr) × (BitVec 32 → BitVec 32 → Nat → BitVec 32)) :=
  [(.fadd, fun a b rm => roundFp32 (XReal.add (decodeFp32 a) (decodeFp32 b) rm) rm),
   (.fsub, fun a b rm => roundFp32 (XReal.add (decodeFp32 a) (decodeFp32 b).neg rm) rm),
   (.fmul, fun a b rm => roundFp32 (XReal.mul (decodeFp32 a) (decodeFp32 b)) rm),
   (.fdiv, fun a b rm => roundFp32 (XReal.div (decodeFp32 a) (decodeFp32 b)) rm),
   (.fmin, fun a b _ => if (decodeFp32 a).isNan then (if (decodeFp32 b).isNan then 0x7FC00000 else b)
     else if (decodeFp32 b).isNan then a
     else if XReal.lt (decodeFp32 b) (decodeFp32 a) ∨ (XReal.eq (decodeFp32 b) (decodeFp32 a) ∧ b.msb = true ∧ a.msb = false) then b else a),
   (.fmax, fun a b _ => if (decodeFp32 a).isNan then (if (decodeFp32 b).isNan then 0x7FC00000 else b)
     else if (decodeFp32 b).isNan then a
     else if XReal.lt (decodeFp32 a) (decodeFp32 b) ∨ (XReal.eq (decodeFp32 a) (decodeFp32 b) ∧ a.msb = true ∧ b.msb = false) then b else a)]

/-- R116: the one-operand instructions of major 0x10 that give an FP32 word. -/
noncomputable def float1 : List ((WForm → Instr) × (BitVec 32 → Nat → BitVec 32)) :=
  [(.fsqrt, fun a rm => roundFp32 (decodeFp32 a).sqrt rm),
   (.fabs, fun a _ => if (decodeFp32 a).isNan then 0x7FC00000 else a &&& 0x7FFFFFFF),
   (.fneg, fun a _ => if (decodeFp32 a).isNan then 0x7FC00000 else a ^^^ 0x80000000)]

/-- R117: the classes of an FP32 encoding by sign, exponent field and fraction field, with their bits. -/
def classes : List (Nat × (Bool → Nat → Nat → Bool)) :=
  [(0, fun n e f => n && e == 255 && f == 0), (1, fun n e _ => n && decide (0 < e ∧ e < 255)), (2, fun n e f => n && e == 0 && f != 0),
   (3, fun n e f => n && e == 0 && f == 0), (4, fun n e f => !n && e == 0 && f == 0), (5, fun n e f => !n && e == 0 && f != 0),
   (6, fun n e _ => !n && decide (0 < e ∧ e < 255)), (7, fun n e f => !n && e == 255 && f == 0),
   (8, fun _ e f => e == 255 && f != 0 && decide (f < 0x400000)), (9, fun _ e f => e == 255 && decide (0x400000 ≤ f))]

/-- R118: the conditions of fcmp. -/
def floatConds : List (BitVec 6 × (XReal → XReal → Bool)) :=
  [(0, XReal.eq), (1, fun a b => !XReal.eq a b), (2, XReal.lt), (3, XReal.le), (4, fun a b => XReal.lt b a), (5, fun a b => XReal.le b a),
   (6, fun a b => a.isNan || b.isNan)]

end Sys2Proof.Claims

/-- O20. The 12 instructions of major 0x10 complete wherever their sources can be read and their destination written, with the
results of R115 to R118: the exact result of the decoded operands rounded once, the least and greatest number, the sign operations,
the one class bit, and the truth of the condition in a predicate. -/
def Obligations.FloatResults : Prop :=
  (∀ x ∈ Claims.float2, ∀ (f : WForm) (s s1 t : State) (a b : Word), guardHolds f.guard s.ctx = true →
    (s.countIssue 8).readAB f = .ok (a, b, s1) → s1.writeS f.d ((x.2 (Claims.low a) (Claims.low b) (f.fld 14 2)).setWidth 64) = .ok t →
    exec (x.1 f) s = .next t) ∧
  (∀ x ∈ Claims.float1, ∀ (f : WForm) (s s1 t : State) (a : Word), guardHolds f.guard s.ctx = true →
    (s.countIssue 8).readS f.a = .ok (a, s1) → s1.writeS f.d ((x.2 (Claims.low a) (f.fld 14 2)).setWidth 64) = .ok t →
    exec (x.1 f) s = .next t) ∧
  (∀ (f : WForm) (s s1 t : State) (a b c : Word), guardHolds f.guard s.ctx = true → Claims.readABC (s.countIssue 8) f = .ok (a, b, c, s1) →
    s1.writeS f.d ((roundFp32 (XReal.add (XReal.mul (decodeFp32 (Claims.low a)) (decodeFp32 (Claims.low b))) (decodeFp32 (Claims.low c))
      (f.fld 14 2)) (f.fld 14 2)).setWidth 64) = .ok t → exec (.ffma f) s = .next t) ∧
  (∀ x ∈ Claims.classes, ∀ (f : WForm) (s s1 t : State) (a : Word), guardHolds f.guard s.ctx = true →
    (s.countIssue 8).readS f.a = .ok (a, s1) →
    x.2 ((Claims.low a).getLsbD 31) ((Claims.low a).toNat / 2 ^ 23 % 256) ((Claims.low a).toNat % 2 ^ 23) = true →
    s1.writeS f.d (BitVec.ofNat 64 (2 ^ x.1)) = .ok t → exec (.fclass f) s = .next t) ∧
  (∀ x ∈ Claims.floatConds, ∀ (f : WForm) (s s1 : State) (a b : Word), guardHolds f.guard s.ctx = true → f.c = x.1 →
    (s.countIssue 8).readAB f = .ok (a, b, s1) →
    exec (.fcmp f) s = .next (s1.writeP f.d.toNat (x.2 (decodeFp32 (Claims.low a)) (decodeFp32 (Claims.low b)))))

namespace Sys2Proof.Claims

/-- A tapered code as a signed integer of its width (R25). -/
def code (t : Nat) (a : Word) : Int := (BitVec.ofNat (tfParams t).1 a.toNat).toInt
/-- A tapered code placed in a register: sign-extended (R113). -/
def place (t : Nat) (i : Int) : Word := BitVec.ofInt 64 (BitVec.ofInt (tfParams t).1 i).toInt
/-- R26: an operation on tapered values rounded once; NaR where an operand is NaR. -/
def tapered (t : Nat) (xs : List XReal) (r : XReal) : Int := if xs.any (· == XReal.nar) then -(2 ^ ((tfParams t).1 - 1)) else encTf t r

/-- R120: what the two-operand instructions of major 0x11 give. -/
noncomputable def tapered2 : List ((WForm → Instr) × (Nat → Word → Word → Int)) :=
  [(.tadd, fun t a b => tapered t [decTf t a.toNat, decTf t b.toNat] (XReal.add (decTf t a.toNat) (decTf t b.toNat) 0)),
   (.tsub, fun t a b => tapered t [decTf t a.toNat, decTf t b.toNat] (XReal.add (decTf t a.toNat) (decTf t b.toNat).neg 0)),
   (.tmul, fun t a b => tapered t [decTf t a.toNat, decTf t b.toNat] (XReal.mul (decTf t a.toNat) (decTf t b.toNat))),
   (.tdiv, fun t a b => tapered t [decTf t a.toNat, decTf t b.toNat] (XReal.div (decTf t a.toNat) (decTf t b.toNat))),
   (.tmin, fun t a b => if code t b < code t a then code t b else code t a), (.tmax, fun t a b => if code t a < code t b then code t b else code t a)]

/-- R120: what the one-operand instructions give. -/
noncomputable def tapered1 : List ((WForm → Instr) × (Nat → Word → Int)) :=
  [(.tsqrt, fun t a => tapered t [decTf t a.toNat] (decTf t a.toNat).sqrt), (.tabs, fun t a => (code t a).natAbs), (.tneg, fun t a => -code t a)]

/-- R120: the conditions of tcmp, on codes as signed integers. -/
def taperedConds : List (BitVec 6 × (Int → Int → Bool)) :=
  [(0, fun a b => decide (a = b)), (1, fun a b => decide (a ≠ b)), (2, fun a b => decide (a < b)), (3, fun a b => decide (a ≤ b)),
   (4, fun a b => decide (b < a)), (5, fun a b => decide (b ≤ a))]

end Sys2Proof.Claims

/-- O21. The 11 instructions of major 0x11 complete wherever their sources can be read and their destination written, with the
results of R119 and R120: NaR where an operand is NaR, else the exact result rounded once, codes compared and negated as signed
integers, and every result sign-extended (R113). -/
def Obligations.TaperedResults : Prop :=
  (∀ x ∈ Claims.tapered2, ∀ (f : WForm) (s s1 t : State) (a b : Word), guardHolds f.guard s.ctx = true →
    (s.countIssue 8).readAB f = .ok (a, b, s1) → s1.writeS f.d (Claims.place (f.fld 14 2) (x.2 (f.fld 14 2) a b)) = .ok t →
    exec (x.1 f) s = .next t) ∧
  (∀ x ∈ Claims.tapered1, ∀ (f : WForm) (s s1 t : State) (a : Word), guardHolds f.guard s.ctx = true →
    (s.countIssue 8).readS f.a = .ok (a, s1) → s1.writeS f.d (Claims.place (f.fld 14 2) (x.2 (f.fld 14 2) a)) = .ok t →
    exec (x.1 f) s = .next t) ∧
  (∀ (f : WForm) (s s1 t : State) (a b c : Word), guardHolds f.guard s.ctx = true → Claims.readABC (s.countIssue 8) f = .ok (a, b, c, s1) →
    let x := decTf (f.fld 14 2) a.toNat
    let y := decTf (f.fld 14 2) b.toNat
    let z := decTf (f.fld 14 2) c.toNat
    s1.writeS f.d (Claims.place (f.fld 14 2) (Claims.tapered (f.fld 14 2) [x, y, z] (XReal.add (XReal.mul x y) z 0))) = .ok t →
    exec (.tfma f) s = .next t) ∧
  (∀ x ∈ Claims.taperedConds, ∀ (f : WForm) (s s1 : State) (a b : Word), guardHolds f.guard s.ctx = true → f.c = x.1 →
    (s.countIssue 8).readAB f = .ok (a, b, s1) →
    exec (.tcmp f) s = .next (s1.writeP f.d.toNat (x.2 (Claims.code (f.fld 14 2) a) (Claims.code (f.fld 14 2) b))))

/-- O22. From R17, R23, R24, in part: rounding the value of a code gives the code back: of every FP32 and BF16 code that is no NaN, under every
mode, and of every TF8, TF16 and TF32 code. -/
def Obligations.CodesRoundToThemselves : Prop :=
  (∀ (p : BitVec 32) (rm : Nat), (decodeFp32 p).isNan = false → roundFp32 (decodeFp32 p) rm = p) ∧
  (∀ (p : BitVec 16) (rm : Nat), (decodeBf16 p).isNan = false → roundBf16 (decodeBf16 p) rm = p) ∧
  (∀ p : Nat, p < 2 ^ 8 → encTf 0 (decTf 0 p) = p) ∧ (∀ p : Nat, p < 2 ^ 16 → encTf 1 (decTf 1 p) = p) ∧
  (∀ p : Nat, p < 2 ^ 32 → encTf 2 (decTf 2 p) = p)

/-- O23. The spool instructions of R122 and cvt (R126) complete wherever their scalar sources can be read and a scalar destination
written: a product or a value is added to the spool d or subtracted from it, a spool is merged under code 15 (R385), a spool is
rounded once under the format and mode, and cvt reads under src and writes under dst. To add a value is exact integer addition of the value in
units of 2^-64, ties to even, in 160 bits, with the flag set beyond them or for an infinity, NaN or NaR (R31); to merge is that of the two sums,
with the flags joined (R385). The model's own choices in it: log entry 64 (cvt from an
MX format to itself of an Inf code or of a NaN code other than 0x7F is not the identity). -/
def Obligations.SpoolsAndConversion : Prop :=
  ∀ (f : WForm) (s : State), guardHolds f.guard s.ctx = true →
    let u := s.countIssue 8
    exec (.spz f) s = .next (u.writeY f.d.toNat { s := 0, nar := false }) ∧
    (∀ a b s1, u.readAB f = .ok (a, b, s1) →
      exec (.spfma f) s = .next (s1.writeY f.d.toNat (spoolAdd (s1.readY f.d.toNat) (XReal.mul (readFmt (f.fld 14 4) a) (readFmt (f.fld 14 4) b)))) ∧
      exec (.spfms f) s =
        .next (s1.writeY f.d.toNat (spoolAdd (s1.readY f.d.toNat) (XReal.mul (readFmt (f.fld 14 4) a) (readFmt (f.fld 14 4) b)).neg))) ∧
    (∀ a s1, f.fld 14 4 ≠ 15 → u.readS f.a = .ok (a, s1) →
      exec (.spadd f) s = .next (s1.writeY f.d.toNat (spoolAdd (s1.readY f.d.toNat) (readFmt (f.fld 14 4) a))) ∧
      exec (.spsub f) s = .next (s1.writeY f.d.toNat (spoolAdd (s1.readY f.d.toNat) (readFmt (f.fld 14 4) a).neg))) ∧
    (f.fld 14 4 = 15 →
      exec (.spadd f) s = .next (u.writeY f.d.toNat (spoolMerge (u.readY f.d.toNat) (u.readY f.a.toNat) false)) ∧
      exec (.spsub f) s = .next (u.writeY f.d.toNat (spoolMerge (u.readY f.d.toNat) (u.readY f.a.toNat) true))) ∧
    (∀ t, u.writeS f.d (writeFmt (f.fld 14 4) (spoolVal (u.readY f.a.toNat)) (f.fld 18 2)) = .ok t → exec (.sprnd f) s = .next t) ∧
    (∀ a s1 t, u.readS f.a = .ok (a, s1) → s1.writeS f.d (writeFmt (f.fld 14 4) (readFmt (f.fld 18 4) a) (f.fld 22 2)) = .ok t →
      exec (.cvt f) s = .next t) ∧
    (∀ (p q : Spool) (neg : Bool), let v := p.s.toInt + (if neg then -q.s.toInt else q.s.toInt)
      (spoolMerge p q neg).s = BitVec.ofInt 160 v ∧ (-(2 ^ 159) ≤ v → v < 2 ^ 159 → (spoolMerge p q neg).s.toInt = v) ∧
      ((spoolMerge p q neg).nar = true ↔ p.nar = true ∨ q.nar = true ∨ v < -(2 ^ 159) ∨ 2 ^ 159 ≤ v)) ∧
    (∀ (p : Spool) (neg : Bool) (m : Nat) (e : Int), let b := m * 2 ^ (e + 64).toNat
      let k := (-(e + 64)).toNat
      let t : Nat := b / 2 ^ k + if 2 ^ k < 2 * (b % 2 ^ k) ∨ 2 * (b % 2 ^ k) = 2 ^ k ∧ b / 2 ^ k % 2 = 1 then 1 else 0
      let v := p.s.toInt + (if neg then -(t : Int) else t)
      (spoolAdd p (.num neg m e false)).s = BitVec.ofInt 160 v ∧
      ((spoolAdd p (.num neg m e false)).nar = true ↔ p.nar = true ∨ v < -(2 ^ 159) ∨ 2 ^ 159 ≤ v)) ∧
    (∀ (p : Spool) (x : XReal), x = .nar ∨ x = .nan ∨ (∃ n, x = .inf n) → spoolAdd p x = { p with nar := true })

namespace Sys2Proof.Claims

/-- An access of n bytes at a core-scratchpad address is aligned and lies in the scratchpad (R206). -/
def inCore (x : Word) (n : Nat) : Prop := x.toNat % n = 0 ∧ x.toNat + n ≤ 0x20000

end Sys2Proof.Claims

/-- O24. From R35, R123, in part: spld and spst, in both forms, complete at an aligned address inside the scratchpad, where no word is poisoned or
no word of a slot unit is met: the spool becomes what the 32 bytes hold, or the 32 bytes what the spool holds; reading back the
bytes of a spool gives the spool. What the bytes hold is what R246 lets the firing's pipeline read (log entry 7). -/
def Obligations.SpoolMemory : Prop :=
  (∀ (f : WForm) (s s1 : State) (a : Word), guardHolds f.guard s.ctx = true → (s.countIssue 8).readS f.a = .ok (a, s1) →
    let x := a + BitVec.ofInt 64 f.sub.toInt
    Claims.inCore x 32 →
    (s1.poisoned (coreKey s.cur.1 x.toNat) 32 = false →
      exec (.spld f) s = .next ((s1.saw s1.pipeReader (coreKey s.cur.1 x.toNat) 32).writeY f.d.toNat
        (spoolOfBits (BitVec.ofNat 256 (s1.seenN s1.pipeReader (coreKey s.cur.1 x.toNat) 32))))) ∧
    (s1.hitsSlots s.cur.1 x.toNat 32 = false →
      exec (.spst f) s = .next (s1.storeN s1.pipeWriter (coreKey s.cur.1 x.toNat) 32 (bitsOfSpool (s1.readY f.d.toNat)).toNat))) ∧
  (∀ (f : XForm) (s s1 : State) (a : Word), guardHolds f.guard s.ctx = true → (s.countIssue 12).readS f.a = .ok (a, s1) →
    let x := a + BitVec.ofInt 64 f.lit.toInt
    Claims.inCore x 32 →
    (s1.poisoned (coreKey s.cur.1 x.toNat) 32 = false →
      exec (.spldX f) s = .next ((s1.saw s1.pipeReader (coreKey s.cur.1 x.toNat) 32).writeY f.d.toNat
        (spoolOfBits (BitVec.ofNat 256 (s1.seenN s1.pipeReader (coreKey s.cur.1 x.toNat) 32))))) ∧
    (s1.hitsSlots s.cur.1 x.toNat 32 = false →
      exec (.spstX f) s = .next (s1.storeN s1.pipeWriter (coreKey s.cur.1 x.toNat) 32 (bitsOfSpool (s1.readY f.d.toNat)).toNat))) ∧
  (∀ p : Spool, spoolOfBits (bitsOfSpool p) = p)

namespace Sys2Proof.Claims

/-- The lanes that the contexts of a cell other than the one that issues hold (R128). -/
def lanesOfOthers (s : State) (cell : Nat) : Nat := s.lanesHeld cell - s.ctx.grant

end Sys2Proof.Claims

/-- O25. From R127, R128, in part: an lclaim that is the only one of its cycle completes with the smaller of what it asks for and the lanes
that no other context of the cell holds, and moves the cell's pointer behind its core; one whose cycle was served before it completes
with the lanes it was granted there; claims served together are served one by one in rotation order from the cell's pointer, each getting the
smaller of what it asks for and what is left, which falls by that, where what the claimants held counts as free. lrel gives every lane back; lcount writes the grant or the lanes that nobody
holds. Which claims share a cycle is the model's own free choice, and a step serves a whole cycle's claims (log entry 13). -/
def Obligations.LaneClaims : Prop :=
  (∀ (f : WForm) (s : State), guardHolds f.guard s.ctx = true →
    let u := s.countIssue 8
    let cell := cellOf s.cur.1
    let me := 2 * posOf s.cur.1 + s.cur.2
    let rest := (u.cell cell).claims.filter (fun y => y.1 != me)
    (∀ g t, u.claimOf s.cur.1 s.cur.2 = none → (∀ k, k < 8 → cellMate s.cur.1 k ≠ s.cur.1 → u.claimWith (cellMate s.cur.1 k) = none) →
      g = min (8 * f.fld 14 3) (32 - Claims.lanesOfOthers u cell) →
      ((u.modCtx (fun k => { k with grant := g })).setCell cell { u.cell cell with ptr := (posOf s.cur.1 + 1) % 8, claims := rest }).writeS f.d
        (BitVec.ofNat 64 g) = .ok t → exec (.lclaim f) s = .next t) ∧
    (∀ g t, u.claimOf s.cur.1 s.cur.2 = none →
      let cs := u.claimants cell (8 * f.fld 14 3)
      let given := State.serveClaims (32 - (u.lanesHeld cell - (cs.map (fun y => u.heldBy y.1 y.2.1)).sum)) cs
      let recs := (given.filter (fun y => y.1 != s.cur.1)).map (fun y => (2 * posOf y.1 + y.2.1, (State.ctxOf (u.core y.1) y.2.1).fid, y.2.2))
      given.find? (fun y => y.1 == s.cur.1) = some (s.cur.1, s.cur.2, g) →
      ((u.modCtx (fun k => { k with grant := g })).setCell cell { u.cell cell with
        ptr := (posOf (cs.headD (s.cur.1, s.cur.2, 0)).1 + 1) % 8
        claims := rest.filter (fun y => !(recs.any (fun z => z.1 == y.1))) ++ recs }).writeS f.d (BitVec.ofNat 64 g) = .ok t →
      exec (.lclaim f) s = .next t) ∧
    (∀ g t, u.claimOf s.cur.1 s.cur.2 = some g →
      ((u.modCtx (fun k => { k with grant := g })).setCell cell { u.cell cell with claims := rest }).writeS f.d (BitVec.ofNat 64 g) = .ok t →
      exec (.lclaim f) s = .next t) ∧
    exec (.lrel f) s = .next (u.modCtx (fun k => { k with grant := 0 })) ∧
    (∀ t, f.fld 14 1 = 0 → u.writeS f.d (BitVec.ofNat 64 s.ctx.grant) = .ok t → exec (.lcount f) s = .next t) ∧
    (∀ t, f.fld 14 1 = 1 → u.writeS f.d (BitVec.ofNat 64 (32 - u.lanesHeld cell)) = .ok t → exec (.lcount f) s = .next t)) ∧
  (∀ (s : State) (cell n : Nat), s.claimants cell n = (List.range 8).filterMap (fun i =>
    let c := cellMate s.cur.1 (((s.cell cell).ptr + i) % 8)
    if c = s.cur.1 then some (c, s.cur.2, n) else s.claimWith c)) ∧
  (∀ (free c x n : Nat) (l : List (Nat × Nat × Nat)), State.serveClaims free [] = [] ∧
    State.serveClaims free ((c, x, n) :: l) = (c, x, min n free) :: State.serveClaims (free - min n free) l) ∧
  (∀ (free : Nat) (l : List (Nat × Nat × Nat)),
    ((State.serveClaims free l).map (fun y => y.2.2)).sum = min free ((l.map (fun y => y.2.2)).sum) ∧
    (State.serveClaims free l).map (fun y => (y.1, y.2.1)) = l.map (fun y => (y.1, y.2.1)) ∧
    ∀ z ∈ (State.serveClaims free l).zip l, z.1.2.2 ≤ z.2.2.2)

namespace Sys2Proof.Claims

/-- Element e of w bits of a lane, unsigned (R131). -/
def elem (w : Nat) (x : BitVec 32) (e : Nat) : Nat := x.toNat / 2 ^ (w * e) % 2 ^ w
/-- A w-bit number as a signed integer. -/
def signed (w v : Nat) : Int := if 2 * v < 2 ^ w then v else (v : Int) - 2 ^ w
/-- An element as the instruction's u bit reads it (R132). -/
def sel (f : WForm) (v : Nat) : Int := if f.fld 19 1 = 1 then v else signed f.width v
/-- The lane whose elements are given. -/
def lane (w : Nat) (g : Nat → Int) : BitVec 32 := laneOf w g

/-- R132: what the element instructions on a and b give for the elements of a and b. -/
noncomputable def elements : List ((WForm → Instr) × (WForm → Nat → Nat → Int)) :=
  [(.vadd, fun _ a b => a + b), (.vsub, fun _ a b => (a : Int) - b), (.vmul, fun _ a b => a * b),
   (.vmulh, fun f a b => sel f a * sel f b / 2 ^ f.width), (.vmin, fun f a b => min (sel f a) (sel f b)),
   (.vmax, fun f a b => max (sel f a) (sel f b)), (.vshl, fun f a b => a * 2 ^ (b % f.width)),
   (.vshr, fun f a b => (a : Int) / 2 ^ (b % f.width)), (.vsar, fun f a b => signed f.width a / 2 ^ (b % f.width)),
   (.vrshr, fun f a b => if b % f.width = 0 then sel f a else (sel f a + 2 ^ (b % f.width - 1)) / 2 ^ (b % f.width))]

/-- R131, R132: the bitwise instructions on a and b, whatever the element width; a scalar operand b is its low 32 bits. -/
noncomputable def bitwise : List ((WForm → Instr) × (BitVec 32 → BitVec 32 → BitVec 32)) :=
  [(.vand, fun a b => a &&& b), (.vor, fun a b => a ||| b), (.vxor, fun a b => a ^^^ b)]

/-- R132: the instructions on a and b that add to d. -/
noncomputable def accumulate : List ((WForm → Instr) × (WForm → Word → BitVec 32) × (WForm → BitVec 32 → BitVec 32 → BitVec 32 → BitVec 32)) :=
  [(.vmad, fun f => splat f.width, fun f d a b => lane f.width (fun e => (elem f.width d e + elem f.width a e * elem f.width b e : Nat))),
   (.vdot4, fun _ => low, fun f d a b => BitVec.ofInt 32 (d.toNat + ((List.range 4).map (fun e =>
     (if f.fld 19 1 = 1 then (elem 8 a e : Int) else signed 8 (elem 8 a e)) *
     (if f.fld 25 4 = 1 then (elem 8 b e : Int) else signed 8 (elem 8 b e)))).sum)),
   (.vdot2, fun _ => low, fun f d a b => BitVec.ofInt 32 (d.toNat + ((List.range 2).map (fun e =>
     (if f.fld 19 1 = 1 then (elem 16 a e : Int) else signed 16 (elem 16 a e)) *
     (if f.fld 25 4 = 1 then (elem 16 b e : Int) else signed 16 (elem 16 b e)))).sum))]

/-- R132, R133: the instructions on a alone. -/
noncomputable def single : List ((WForm → Instr) × (WForm → BitVec 32 → BitVec 32)) :=
  [(.vabs, fun f a => lane f.width (fun e => (signed f.width (elem f.width a e)).natAbs)),
   (.vsat, fun f a => lane f.width (fun e => if f.fld 19 1 = 1 then min (elem f.width a e) (2 ^ f.c.toNat - 1)
     else max (-2 ^ (f.c.toNat - 1)) (min (signed f.width (elem f.width a e)) (2 ^ (f.c.toNat - 1) - 1)))),
   (.vfabs, fun _ a => if (decodeFp32 a).isNan then 0x7FC00000 else a &&& 0x7FFFFFFF),
   (.vfneg, fun _ a => if (decodeFp32 a).isNan then 0x7FC00000 else a ^^^ 0x80000000),
   (.vexp2, fun f a => roundFp32 (decodeFp32 a).exp2 (f.fld 23 2)), (.vlog2, fun f a => roundFp32 (decodeFp32 a).log2 (f.fld 23 2)),
   (.vrcp, fun f a => roundFp32 (XReal.div (XReal.ofInt 1) (decodeFp32 a)) (f.fld 23 2)),
   (.vrsqrt, fun f a => roundFp32 (decodeFp32 a).rsqrt (f.fld 23 2)), (.vsqrt, fun f a => roundFp32 (decodeFp32 a).sqrt (f.fld 23 2))]

/-- R133, R135: the floating and tapered instructions on a and b. -/
noncomputable def floating : List ((WForm → Instr) × (WForm → BitVec 32 → BitVec 32 → BitVec 32)) :=
  [(.vfadd, fun f a b => roundFp32 (XReal.add (decodeFp32 a) (decodeFp32 b) (f.fld 23 2)) (f.fld 23 2)),
   (.vfsub, fun f a b => roundFp32 (XReal.add (decodeFp32 a) (decodeFp32 b).neg (f.fld 23 2)) (f.fld 23 2)),
   (.vfmul, fun f a b => roundFp32 (XReal.mul (decodeFp32 a) (decodeFp32 b)) (f.fld 23 2)),
   (.vdiv, fun f a b => roundFp32 (XReal.div (decodeFp32 a) (decodeFp32 b)) (f.fld 23 2)), (.vfmin, fun _ => fpMin), (.vfmax, fun _ => fpMax),
   (.vtadd, fun f a b => tfLane f.ew (tfOp2 f.ew (fun x y => XReal.add x y 0) a.toNat b.toNat)),
   (.vtsub, fun f a b => tfLane f.ew (tfOp2 f.ew (fun x y => XReal.add x y.neg 0) a.toNat b.toNat)),
   (.vtmul, fun f a b => tfLane f.ew (tfOp2 f.ew XReal.mul a.toNat b.toNat)),
   (.vtmin, fun f a b => if tfInt f.ew b.toNat < tfInt f.ew a.toNat then tfLane f.ew b.toNat else tfLane f.ew a.toNat),
   (.vtmax, fun f a b => if tfInt f.ew a.toNat < tfInt f.ew b.toNat then tfLane f.ew b.toNat else tfLane f.ew a.toNat)]

/-- R132, R133, R135: the instructions on a, b and the vector c, with what a scalar operand b gives in a lane. -/
noncomputable def ternary : List ((WForm → Instr) × (WForm → Word → BitVec 32) × (WForm → BitVec 32 → BitVec 32 → BitVec 32 → BitVec 32)) :=
  [(.vclamp, fun f => splat f.width, fun f a b c =>
     lane f.width (fun e => min (max (sel f (elem f.width a e)) (sel f (elem f.width b e))) (sel f (elem f.width c e)))),
   (.vffma, fun _ => low, fun f a b c =>
     roundFp32 (XReal.add (XReal.mul (decodeFp32 a) (decodeFp32 b)) (decodeFp32 c) (f.fld 23 2)) (f.fld 23 2)),
   (.vtfma, fun _ => low, fun f a b c => tfLane f.ew (tfFma f.ew a.toNat b.toNat c.toNat))]

/-- The lanes of operand b: a scalar's value in every lane under bs, else the vector register's (R131). -/
def laneB (s : State) (f : WForm) (b : BitVec 32) (i : Nat) : BitVec 32 := if f.bs then b else (s.readV f.b i).val

end Sys2Proof.Claims

/-- O26. The 39 elementwise instructions of majors 0x19 to 0x1B complete under a grant wherever operand b can be read: every lane acted
on takes the result of its own lanes, or an empty tag where a source lane carries one (R50, R131 to R135). What elementwise does
to each lane is stated in O27.
The model's own choices in it: log entries 30, 59. -/
def Obligations.VectorElementwise : Prop :=
  ∀ (f : WForm) (s s1 : State) (b : Word), guardHolds f.guard s.ctx = true → s.ctx.grant ≠ 0 → (s.countIssue 8).readB f = .ok (b, s1) →
    (∀ x ∈ Claims.elements, exec (x.1 f) s = .next (s1.elementwise f (State.srcsOf f) (fun i => Claims.lane f.width (fun e =>
      x.2 f (Claims.elem f.width (s1.readV f.a i).val e) (Claims.elem f.width (Claims.laneB s1 f (splat f.width b) i) e))))) ∧
    (∀ x ∈ Claims.bitwise, exec (x.1 f) s = .next (s1.elementwise f (State.srcsOf f) (fun i =>
      x.2 (s1.readV f.a i).val (Claims.laneB s1 f (Claims.low b) i)))) ∧
    (∀ x ∈ Claims.accumulate, exec (x.1 f) s = .next (s1.elementwise f (State.srcsOf f ++ [f.d]) (fun i =>
      x.2.2 f (s1.readV f.d i).val (s1.readV f.a i).val (Claims.laneB s1 f (x.2.1 f b) i)))) ∧
    (∀ x ∈ Claims.floating, exec (x.1 f) s = .next (s1.elementwise f (State.srcsOf f) (fun i =>
      x.2 f (s1.readV f.a i).val (Claims.laneB s1 f (Claims.low b) i)))) ∧
    (∀ x ∈ Claims.ternary, exec (x.1 f) s = .next (s1.elementwise f (State.srcsOf f ++ [f.c]) (fun i =>
      x.2.2 f (s1.readV f.a i).val (Claims.laneB s1 f (x.2.1 f b) i) (s1.readV f.c i).val))) ∧
    (∀ x ∈ Claims.single, exec (x.1 f) s = .next ((s.countIssue 8).elementwise f [f.a] (fun i =>
      x.2 f ((s.countIssue 8).readV f.a i).val)))

/-- O27. From R48, R50, R131, in part: an elementwise write changes exactly the lanes below the grant that the lane mask admits: such a lane of d
holds the result with its tag clear, or 0 with its tag set where a source lane is tagged; every other lane of d, every other vector
register, and all other state stay. -/
def Obligations.ElementwiseLanes : Prop :=
  ∀ (f : WForm) (srcs : List (BitVec 6)) (h : Nat → BitVec 32) (s : State),
    let t := s.elementwise f srcs h
    (∀ i, i < 32 → i < s.ctx.grant → (s.readK f.km).getLsbD i = true →
      t.readV f.d i = if srcs.any (fun r => (s.readV r i).tag) then { val := 0, tag := true } else { val := h i, tag := false }) ∧
    (∀ i, i < 32 → (s.ctx.grant ≤ i ∨ (s.readK f.km).getLsbD i = false) → t.readV f.d i = s.readV f.d i) ∧
    (∀ r i, r ≠ f.d → i < 32 → t.readV r i = s.readV r i) ∧
    t.ctx = { s.ctx with v := t.ctx.v } ∧ Claims.onlyCtx s t

/-- O28. The spool lanes of R135, the compares, vsel and the mask instructions of R136 to R138 complete, the vector ones under a grant,
wherever a scalar source can be read and a scalar destination written. -/
def Obligations.SpoolLanesAndMasks : Prop :=
  ∀ (f : WForm) (s : State), guardHolds f.guard s.ctx = true →
    let u := s.countIssue 8
    exec (.kand f) s = .next (u.writeK f.d.toNat (u.readK f.a.toNat &&& u.readK f.b.toNat)) ∧
    exec (.kor f) s = .next (u.writeK f.d.toNat (u.readK f.a.toNat ||| u.readK f.b.toNat)) ∧
    exec (.kxor f) s = .next (u.writeK f.d.toNat (u.readK f.a.toNat ^^^ u.readK f.b.toNat)) ∧
    exec (.knot f) s = .next (u.writeK f.d.toNat (~~~(u.readK f.a.toNat))) ∧
    (∀ a s1, u.readS f.a = .ok (a, s1) → exec (.kset f) s = .next (s1.writeK f.d.toNat (Claims.low a))) ∧
    (∀ t, u.writeS f.d (BitVec.ofNat 64 (u.readK f.a.toNat).toNat) = .ok t → exec (.kget f) s = .next t) ∧
    (s.ctx.grant ≠ 0 →
      exec (.vspz f) s = .next (u.setSpools f.d (fun i => if u.laneOn f.km i then some { s := 0, nar := false } else none)) ∧
      exec (.vsprnd f) s = .next (u.setLanes f.d (fun i => if u.laneOn f.km i then
        some { val := (writeFmt (f.fld 25 4) (spoolVal (u.readWsp f.a.toNat i)) (f.fld 23 2)).setWidth 32, tag := false } else none)) ∧
      (∀ b s1, u.readB f = .ok (b, s1) →
        exec (.vspfma f) s = .next (s1.setSpools f.d (fun i => if s1.laneOn f.km i ∧ s1.tagged (State.srcsOf f) i = false then
          some (spoolAdd (s1.readWsp f.d.toNat i) (XReal.mul (readFmt (f.fld 25 4) ((s1.readV f.a i).val.setWidth 64))
            (readFmt (f.fld 25 4) (if f.bs then b else (s1.readV f.b i).val.setWidth 64)))) else none)) ∧
        exec (.vcmp f) s = .next (s1.setMask f.d (fun i => if s1.laneOn f.km i then some (!(s1.tagged (State.srcsOf f) i) &&
          intCond (f.fld 25 4) ((s1.readV f.a i).val.signExtend 64) ((Claims.laneB s1 f (Claims.low b) i).signExtend 64)) else none)) ∧
        exec (.vfcmp f) s = .next (s1.setMask f.d (fun i => if s1.laneOn f.km i then some (!(s1.tagged (State.srcsOf f) i) &&
          fpCond (f.fld 25 4) (decodeFp32 (s1.readV f.a i).val) (decodeFp32 (Claims.laneB s1 f (Claims.low b) i))) else none)) ∧
        exec (.vtcmp f) s = .next (s1.setMask f.d (fun i => if s1.laneOn f.km i then some (!(s1.tagged (State.srcsOf f) i) &&
          tfCond (f.fld 25 4) (tfInt f.ew (s1.readV f.a i).val.toNat) (tfInt f.ew (Claims.laneB s1 f (Claims.low b) i).toNat)) else none)) ∧
        exec (.vsel f) s = .next (s1.setLanes f.d (fun i => if s1.laneOn f.km i then some (if (s1.readK f.c.toNat).getLsbD i then s1.readV f.a i
          else if f.bs then { val := Claims.low b, tag := false } else s1.readV f.b i) else none))))

namespace Sys2Proof.Claims

/-- A lane under a source format, with the scale byte where the instruction scales an MX format (R139). -/
def laneValue (f : WForm) (c : Nat) (v : BitVec 32) : XReal :=
  if f.fld 29 1 = 1 ∧ 9 ≤ f.fld 19 4 ∧ f.fld 19 4 ≤ 13 then decodeMx (f.fld 19 4) (v.toNat % 256) c else readFmt (f.fld 19 4) (v.setWidth 64)
/-- A value as a lane under the destination format, divided by the scale where the instruction scales an MX format (R139). -/
def laneCode (f : WForm) (c : Nat) (x : XReal) : BitVec 32 :=
  if f.fld 29 1 = 1 ∧ 9 ≤ f.fld 25 4 ∧ f.fld 25 4 ≤ 13 then
    BitVec.ofNat 32 (roundMx (f.fld 25 4) (if c = 255 then .nan else x.scale (127 - (c : Int))))
  else (writeFmt (f.fld 25 4) x (f.fld 23 2)).setWidth 32

end Sys2Proof.Claims

/-- O29. From R139, R140, in part: vcvt, vpack and vunpack complete under a grant (vcvt wherever its scale can be read). vcvt converts each lane
acted on. vpack gives lane l, where it is acted on and some element of it comes from a lane below the grant, those elements from the
low N bits of lanes per × l + e − 32 q of a, the rest of d's old bits, and an empty tag where one of those lanes is tagged. vunpack
gives lane j element 32 q + j of a's packed lanes, extended, or an empty tag. The model's own choices in it: log entry 64 (vcvt from an MX format to
itself of an Inf code or of a NaN code other than 0x7F is not the identity of R126). -/
def Obligations.ConvertAndPack : Prop :=
  ∀ (f : WForm) (s : State), guardHolds f.guard s.ctx = true → s.ctx.grant ≠ 0 →
    let u := s.countIssue 8
    (∀ c s1, u.readS f.c = .ok (c, s1) → exec (.vcvt f) s = .next (s1.elementwise f [f.a] (fun i =>
      Claims.laneCode f (c.toNat % 256) (Claims.laneValue f (c.toNat % 256) (s1.readV f.a i).val)))) ∧
    (∃ t, exec (.vpack f) s = .next t ∧ f.packN ∣ 32 ∧
      ∀ l, l < 32 →
        let from_ := fun e => 32 / f.packN * l + e - 32 * f.q
        let takes := fun e => e < 32 / f.packN ∧ 32 * f.q ≤ 32 / f.packN * l + e ∧ from_ e < s.ctx.grant
        ((u.laneOn f.km l = false ∨ ∀ e, ¬takes e) → t.readV f.d l = u.readV f.d l) ∧
        (u.laneOn f.km l = true → (∃ e, takes e ∧ (u.readV f.a (from_ e)).tag = true) → t.readV f.d l = { val := 0, tag := true }) ∧
        (u.laneOn f.km l = true → (∃ e, takes e) → (∀ e, takes e → (u.readV f.a (from_ e)).tag = false) →
          (t.readV f.d l).tag = false ∧ ∀ e, e < 32 / f.packN → Claims.elem f.packN (t.readV f.d l).val e =
            if takes e then (u.readV f.a (from_ e)).val.toNat % 2 ^ f.packN else Claims.elem f.packN (u.readV f.d l).val e)) ∧
    exec (.vunpack f) s = .next (u.setLanes f.d (fun j => if u.laneOn f.km j then
      let n := f.packN
      let p := 32 * f.q + j
      let x := u.readV f.a (p * n / 32)
      (if s.ctx.grant ≤ p * n / 32 ∨ x.tag = true then some { val := 0, tag := true }
       else some { val := BitVec.ofInt 32 (if f.fld 22 1 = 1 then (Claims.elem n x.val (p % (32 / n)) : Int)
         else Claims.signed n (Claims.elem n x.val (p % (32 / n)))), tag := false }) else none))

namespace Sys2Proof.Claims

/-- A token of a cross-lane read: the value of lane j of a register, none where the lane is outside the grant, masked out or
tagged (R49, R141). -/
def token (s : State) (km : Nat) (a : BitVec 6) (j : Int) : Option (BitVec 32) :=
  if 0 ≤ j ∧ j < s.ctx.grant ∧ s.laneOn km j.toNat = true ∧ (s.readV a j.toNat).tag = false then some (s.readV a j.toNat).val else none
/-- What a token does to a lane that moves: its value, or by the empty policy nothing, an empty tag or the constant (R141). -/
def moved (f : WForm) (c : Word) (x : Option (BitVec 32)) : Option Lane :=
  match x with
  | some v => some { val := v, tag := false }
  | none => if f.fld 21 2 = 0 then none else if f.fld 21 2 = 1 then some { val := 0, tag := true } else some { val := low c, tag := false }
/-- A lane that a scan writes: an FP32 NaN is the canonical one (R15). -/
def canonical (op : Nat) (x : BitVec 32) : BitVec 32 := if 8 ≤ op ∧ op ≤ 10 ∧ (decodeFp32 x).isNan = true then 0x7FC00000 else x
/-- The lesser of two FP32 numbers by minimumNumber, and the greater by maximumNumber (R142). -/
def lesser (x y : BitVec 32) : BitVec 32 :=
  if (decodeFp32 x).isNan then (if (decodeFp32 y).isNan then 0x7FC00000 else y)
  else if (decodeFp32 y).isNan then x
  else if XReal.lt (decodeFp32 y) (decodeFp32 x) ∨ (XReal.eq (decodeFp32 y) (decodeFp32 x) ∧ y.msb = true ∧ x.msb = false) then y else x
def greater (x y : BitVec 32) : BitVec 32 :=
  if (decodeFp32 x).isNan then (if (decodeFp32 y).isNan then 0x7FC00000 else y)
  else if (decodeFp32 y).isNan then x
  else if XReal.lt (decodeFp32 x) (decodeFp32 y) ∨ (XReal.eq (decodeFp32 x) (decodeFp32 y) ∧ x.msb = true ∧ y.msb = false) then y else x
/-- The operators of R142 by code, each with its identity; rm is the rounding mode. -/
def operators : List (Nat × (Nat → BitVec 32 → BitVec 32 → BitVec 32) × BitVec 32) :=
  [(0, fun _ x y => x + y, 0), (1, fun _ x y => if y.toInt < x.toInt then y else x, 0x7FFFFFFF),
   (2, fun _ x y => if x.toInt < y.toInt then y else x, 0x80000000), (3, fun _ x y => if y.toNat < x.toNat then y else x, 0xFFFFFFFF),
   (4, fun _ x y => if x.toNat < y.toNat then y else x, 0), (5, fun _ x y => x &&& y, 0xFFFFFFFF), (6, fun _ x y => x ||| y, 0),
   (7, fun _ x y => x ^^^ y, 0), (8, fun rm x y => roundFp32 (XReal.add (decodeFp32 x) (decodeFp32 y) rm) rm, 0x80000000),
   (9, fun _ => lesser, 0x7FC00000), (10, fun _ => greater, 0x7FC00000)]
/-- The tree of R142: in the pass of each step, every place that is a multiple of twice the step takes what stands a step behind it. -/
def tree {α : Type} (g : α → α → α) (t : Nat → α) : α :=
  ([1, 2, 4, 8, 16].foldl (fun (t : Nat → α) step => fun i => if i % (2 * step) = 0 then g (t i) (t (i + step)) else t i) t) 0
/-- The passes of R143: in each, every place from the step on takes what stood a step before it. -/
def scanned {α : Type} (g : α → α → α) (t : Nat → α) : Nat → α :=
  [1, 2, 4, 8, 16].foldl (fun (t : Nat → α) step => fun i => if step ≤ i then g (t (i - step)) (t i) else t i) t
/-- The values that a reduction takes: an empty lane gives the identity, or the constant under .rp (R142). -/
def reduced (s : State) (f : WForm) (c : Word) : List (BitVec 32) :=
  (List.range 32).map (fun j : Nat => (token s f.km f.a j).getD (if f.fld 21 2 = 2 then low c else redIdentity (f.fld 25 4)))

end Sys2Proof.Claims

/-- O30. From R141 to R143, in part: vbcast, vext, vperm, vslide, vred and vscan complete under a grant wherever their scalar operands can be read and
a scalar destination written, with the moves, the operators and identities, the tree of 31 combinations in five passes and the five passes of the scan. The model's own
choices in it: log entry 73 (a NaN that a scan has not combined is written as the canonical one too). -/
def Obligations.CrossLane : Prop :=
  (∀ x ∈ Claims.operators, redIdentity x.1 = x.2.2 ∧ ∀ rm a b, redCombine x.1 rm a b = x.2.1 rm a b) ∧
  (∀ (g : BitVec 32 → BitVec 32 → BitVec 32) (d : BitVec 32) (l : List (BitVec 32)), l.length = 32 →
    redTree g d l = Claims.tree g (fun i => l.getD i d) ∧ ∀ i, i < 32 → (scanAll g d l).getD i d = Claims.scanned g (fun i => l.getD i d) i) ∧
  (∀ (g : Spool → Spool → Spool) (d : Spool) (l : List Spool), l.length = 32 → redTree g d l = Claims.tree g (fun i => l.getD i d)) ∧
  ∀ (f : WForm) (s : State), guardHolds f.guard s.ctx = true → s.ctx.grant ≠ 0 →
    let u := s.countIssue 8
    (∀ a s1, u.readS f.a = .ok (a, s1) → exec (.vbcast f) s =
      .next (s1.setLanes f.d (fun i => if s1.laneOn f.km i then some { val := Claims.low a, tag := false } else none))) ∧
    (∀ b c s1 s2, u.readS f.b = .ok (b, s1) → s1.readS f.c = .ok (c, s2) →
      (∀ v t, Claims.token s2 f.km f.a (b.toNat % 32 : Nat) = some v → s2.writeS f.d (BitVec.ofInt 64 v.toInt) = .ok t →
        exec (.vext f) s = .next t) ∧
      (∀ t, Claims.token s2 f.km f.a (b.toNat % 32 : Nat) = none → f.fld 21 2 = 2 → s2.writeS f.d (BitVec.ofInt 64 (Claims.low c).toInt) = .ok t →
        exec (.vext f) s = .next t) ∧
      (Claims.token s2 f.km f.a (b.toNat % 32 : Nat) = none → f.fld 21 2 ≠ 2 → exec (.vext f) s = .next s2) ∧
      exec (.vslide f) s = .next (s2.setLanes f.d (fun i => if s2.laneOn f.km i then
        Claims.moved f c (Claims.token s2 f.km f.a ((i : Int) + b.toInt)) else none))) ∧
    (∀ c s1, u.readS f.c = .ok (c, s1) →
      exec (.vperm f) s = .next (s1.setLanes f.d (fun i => if s1.laneOn f.km i then
        Claims.moved f c (if (s1.readV f.b i).tag then none else Claims.token s1 f.km f.a ((s1.readV f.b i).val.toNat % 32 : Nat)) else none)) ∧
      (∀ t, f.fld 25 4 < 8 → s1.writeS f.d (BitVec.ofInt 64 (redTree (redCombine (f.fld 25 4) (f.fld 23 2)) 0 (Claims.reduced s1 f c)).toInt) = .ok t →
        exec (.vred f) s = .next t) ∧
      (∀ t, 8 ≤ f.fld 25 4 → f.fld 25 4 ≤ 10 →
        s1.writeS f.d (BitVec.ofNat 64 (redTree (redCombine (f.fld 25 4) (f.fld 23 2)) 0 (Claims.reduced s1 f c)).toNat) = .ok t →
        exec (.vred f) s = .next t) ∧
      (f.fld 25 4 = 11 → exec (.vred f) s = .next (s1.writeY f.d.toNat (redTree (fun x y => spoolMerge x y false) { s := 0, nar := false }
        ((List.range 32).map (fun j => if s1.laneOn f.km j then s1.readWsp f.a.toNat j else { s := 0, nar := false }))))) ∧
      exec (.vscan f) s = .next (s1.setLanes f.d (fun i => if s1.laneOn f.km i then
        (if f.fld 21 2 = 1 ∧ Claims.token s1 f.km f.a (i : Int) = none then some { val := 0, tag := true }
         else some { val := Claims.canonical (f.fld 25 4) ((scanAll (redCombine (f.fld 25 4) (f.fld 23 2)) 0 (Claims.reduced s1 f c)).getD i 0)
                     tag := false }) else none)))

namespace Sys2Proof.Claims

/-- The forms of R145: kind, instruction in both forms. -/
noncomputable def loads : List (Nat × (WForm → Instr) × (XForm → Instr)) := [(0, .vld, .vldX), (1, .vlds, .vldsX), (2, .vldx, .vldxX)]
/-- The stores of R145. -/
noncomputable def stores : List (Nat × (WForm → Instr) × (XForm → Instr)) := [(0, .vst, .vstX), (1, .vsts, .vstsX), (2, .vstx, .vstxX)]
/-- The address of lane i (R145). -/
def laneAddr (s : State) (f : WForm) (kind : Nat) (base b : Word) (i : Nat) : Word :=
  base + (if kind = 0 then BitVec.ofNat 64 (4 * i) else if kind = 1 then BitVec.ofNat 64 i * b else BitVec.ofNat 64 (s.readV f.b i).val.toNat)
/-- Lane i takes part: acted on under mask c, its index lane not tagged, and for a store its value not tagged (R145). -/
def takesPart (s : State) (f : WForm) (kind : Nat) (store : Bool) (i : Nat) : Prop :=
  i < 32 ∧ s.laneOn f.c.toNat i = true ∧ (kind = 2 → (s.readV f.b i).tag = false) ∧ (store = true → (s.readV f.d i).tag = false)

/-- What a vector load does at base + immediate (R145): each lane that takes part holds its four bytes, as R246 lets the firing's pipeline read
them, and loses its tag. -/
def Loads (s : State) (f : WForm) (kind : Nat) (base b : Word) (out : Out) : Prop :=
  (∀ i, takesPart s f kind false i → inCore (laneAddr s f kind base b i) 4 ∧
    s.poisoned (coreKey s.cur.1 (laneAddr s f kind base b i).toNat) 4 = false) →
  ∃ t, out = .next t ∧ t.mem = s.mem ∧ t.ctx.s = s.ctx.s ∧
    (∀ i, takesPart s f kind false i → t.readV f.d i =
      { val := BitVec.ofNat 32 (s.seenN s.pipeReader (coreKey s.cur.1 (laneAddr s f kind base b i).toNat) 4), tag := false }) ∧
    (∀ i, i < 32 → ¬takesPart s f kind false i → t.readV f.d i = s.readV f.d i) ∧
    (∀ r i, r ≠ f.d → i < 32 → t.readV r i = s.readV r i)

/-- What a vector store does (R145), in a memory in its canonical form (an invariant, MemoryCanonical): where every address is aligned, inside the scratchpad and off the slot words, each byte of a
word that a lane names reads as the highest such lane's, and every other byte as before. -/
def Stores (s : State) (f : WForm) (kind : Nat) (base b : Word) (out : Out) : Prop :=
  memWf s.mem = true →
  (∀ i, takesPart s f kind true i → inCore (laneAddr s f kind base b i) 4 ∧
    s.hitsSlots s.cur.1 (laneAddr s f kind base b i).toNat 4 = false) →
  ∃ t, out = .next t ∧ t.ctx = s.ctx ∧
    (∀ i, takesPart s f kind true i → (∀ j, i < j → takesPart s f kind true j → laneAddr s f kind base b j ≠ laneAddr s f kind base b i) →
      t.readN (coreKey s.cur.1 (laneAddr s f kind base b i).toNat) 4 = (s.readV f.d i).val.toNat) ∧
    (∀ k, (∀ i, takesPart s f kind true i → k < coreKey s.cur.1 (laneAddr s f kind base b i).toNat ∨
      coreKey s.cur.1 (laneAddr s f kind base b i).toNat + 4 ≤ k) → t.byte k = s.byte k)

/-- The stride is read by the strided forms alone. -/
def stride (s : State) (f : WForm) (kind : Nat) : Except Code (Word × State) := if kind = 1 then s.readS f.b else .ok (0, s)

end Sys2Proof.Claims

/-- O31. From R145, in part: the six vector loads and six vector stores complete under a grant wherever a (and the stride of a strided form) can be
read and every lane that takes part has an aligned address inside the scratchpad, with no poison for a load and no slot word for a
store. What a lane holds is what R246 lets the firing's pipeline read (log entry 7). -/
def Obligations.VectorMemory : Prop :=
  (∀ (f : WForm) (s s1 s2 : State) (a b : Word) (kind : Nat), guardHolds f.guard s.ctx = true → s.ctx.grant ≠ 0 →
    (s.countIssue 8).readS f.a = .ok (a, s1) → Claims.stride s1 f kind = .ok (b, s2) →
    (∀ x ∈ Claims.loads, x.1 = kind → Claims.Loads s2 f kind (a + BitVec.ofInt 64 f.sub.toInt) b (exec (x.2.1 f) s)) ∧
    (∀ x ∈ Claims.stores, x.1 = kind → Claims.Stores s2 f kind (a + BitVec.ofInt 64 f.sub.toInt) b (exec (x.2.1 f) s))) ∧
  (∀ (f : XForm) (s s1 s2 : State) (a b : Word) (kind : Nat), guardHolds f.guard s.ctx = true → s.ctx.grant ≠ 0 →
    (s.countIssue 12).readS f.a = .ok (a, s1) → Claims.stride s1 f.toW kind = .ok (b, s2) →
    (∀ x ∈ Claims.loads, x.1 = kind → Claims.Loads s2 f.toW kind (a + BitVec.ofInt 64 f.lit.toInt) b (exec (x.2.2 f) s)) ∧
    (∀ x ∈ Claims.stores, x.1 = kind → Claims.Stores s2 f.toW kind (a + BitVec.ofInt 64 f.lit.toInt) b (exec (x.2.2 f) s)))

namespace Sys2Proof.Claims

/-- The vector instructions that need a grant (R129): all of majors 0x19 to 0x1F but the mask instructions kand to kget. -/
noncomputable def needLanes : List (WForm → Instr) :=
  elements.map (·.1) ++ bitwise.map (·.1) ++ accumulate.map (·.1) ++ single.map (·.1) ++ floating.map (·.1) ++ ternary.map (·.1) ++
  [.vspz, .vspfma, .vsprnd, .vcmp, .vfcmp, .vtcmp, .vsel, .vcvt, .vpack, .vunpack, .vbcast, .vext, .vperm, .vslide, .vred, .vscan] ++
  loads.map (·.2.1) ++ stores.map (·.2.1)

end Sys2Proof.Claims

/-- O32. From R129, in part: without a lane grant a vector instruction faults with code 0x07; its guard is judged first (R81), and a port that
it would read is not (the model's choice: log entry 14). -/
def Obligations.NoGrant : Prop :=
  (∀ i ∈ Claims.needLanes, ∀ (f : WForm) (s : State), guardHolds f.guard s.ctx = true → s.ctx.grant = 0 →
    exec (i f) s = .next ((s.countIssue 8).takeFault 0x07 0)) ∧
  (∀ x ∈ Claims.loads ++ Claims.stores, ∀ (f : XForm) (s : State), guardHolds f.guard s.ctx = true → s.ctx.grant = 0 →
    exec (x.2.2 f) s = .next ((s.countIssue 12).takeFault 0x07 0))

namespace Sys2Proof.Claims

/-- A completion-slot operand (R190, R217, R389): register s0 names no slot, any other register holds a valid slot reference. -/
def Slot (s : State) (r : BitVec 6) (w : Word) (slot : Option Nat) : Prop :=
  (r = 0 ∧ slot = none) ∨ (r ≠ 0 ∧ s.srefOk (s.partOf s.cur.1) w.toNat = true ∧ slot = some w.toNat)
/-- The matrix queue of the core has room (R155). -/
def queueRoom (s : State) : Prop := (s.core s.cur.1).mq.length < 8
/-- The issuing frame has fewer than 4 commands outstanding (R191). -/
def asyncRoom (s : State) : Prop := s.asyncCount < 4
/-- No tile has landed for a latch that a command names (R162). -/
def noLanding (s : State) (op : MOp) : Prop := ∀ l, l < 2 → namesLatch l op = true → (s.core s.cur.1).landing.get none l = none
/-- A matrix command that signals nothing is put into the queue (R154). -/
def quiet (s : State) (op : MOp) : State := s.mEnqueue op 0 { ow := 0, slot := none, bytes := 1 }
/-- An asynchronous matrix command is put into the queue (R155, R191). -/
def queued (s : State) (op : MOp) (minor : Nat) (slot : Option Nat) (bytes : Nat) : State :=
  (s.newCmd 0x28 minor).1.mEnqueue op (s.newCmd 0x28 minor).2 { ow := 0, slot := slot, bytes := bytes }

/-- R159 to R161: the loads of the matrix node at an address: what they check and the command that enters the queue. -/
def MatrixLoads (s : State) (f : WForm) (imm : Word) (mscl mlb mma : Instr) (s0 : State) : Prop :=
  (∀ a s1, s.readS f.a = .ok (a, s1) → (a + imm).toNat % 4 = 0 → (a + imm).toNat + 192 ≤ 0x20000 → queueRoom s1 →
    exec mscl s0 = .next (quiet s1 (.mscl (f.c.toNat % 4) (a + imm).toNat))) ∧
  (∀ a c s1 s2 slot, s.readS f.a = .ok (a, s1) → s1.readS f.c = .ok (c, s2) → Slot s2 f.c c slot →
    (a + imm).toNat % 8 = 0 → (a + imm).toNat + 3072 ≤ 0x20000 → queueRoom s2 → asyncRoom s2 →
    exec mlb s0 = .next (queued s2 (.mlb f.d.toNat (a + imm).toNat) 2 slot 1) ∧
    exec mma s0 = .next (queued s2 (.mma f.d.toNat (a + imm).toNat f.b.toNat (s2.tileDesc s.cur.1 f.d.toNat).1
      (s2.tileDesc s.cur.1 f.d.toNat).2) 3 slot 1))

end Sys2Proof.Claims

/-- O33. The instructions of major 0x28 complete with the command that R157 to R164 put into the queue, where the address is aligned and
in bounds, the slots named are valid and the queue and the frame have room (R155); mfmt writes a tile's descriptor and clears the
tile where the mode changes (R158), a pair that R150 does not list is code 0x28, and mrow reads a row at once where no queued command
names its tile (R166). A tile that has landed for a latch which the command names, and which no queued command names, is in the latch
before the command enters the queue (R162). The model's own choices in it: log entry 19 (an mscl names the latch whose scales it loads). -/
def Obligations.MatrixIssue : Prop :=
  (∀ (s : State) (op : MOp), Claims.noLanding s op → let t := Claims.quiet s op
    (t.core s.cur.1).mq = (s.core s.cur.1).mq ++ [{ op := op, seq := s.seq, cmd := 0, from_ := s.issuer, ret := { ow := 0, slot := none, bytes := 1 }
                                                    fences := s.ctx.fences, started := false, rows := 0, landed := false, src := [], pois := [] }] ∧
    t.ctx = s.ctx ∧ t.mem = s.mem ∧ t.net = s.net ∧ t.cmds = s.cmds ∧ t.faults = s.faults) ∧
  (∀ (s : State) (op : MOp) (l : Nat) (x : Landing), l < 2 → namesLatch l op = true → (s.core s.cur.1).landing.get none l = some x →
    (∀ m ∈ (s.core s.cur.1).mq, namesLatch l m.op = false) → (s.core s.cur.1).dead = false → (s.core s.cur.1).saved = false →
    let c := (Claims.quiet s op).core s.cur.1
    c.latch.get [] l = x.bytes ∧ c.bscale.get [] l = x.scales ∧ c.landing.get none l = none) ∧
  (∀ (f : WForm) (s : State), guardHolds f.guard s.ctx = true →
    Claims.MatrixLoads (s.countIssue 8) f (BitVec.ofInt 64 f.sub.toInt) (.mscl f) (.mlb f) (.mma f) s) ∧
  (∀ (f : XForm) (s : State), guardHolds f.guard s.ctx = true →
    Claims.MatrixLoads (s.countIssue 12) f.toW (BitVec.ofInt 64 f.lit.toInt) (.msclX f) (.mlbX f) (.mmaX f) s) ∧
  (∀ (f : WForm) (s : State), guardHolds f.guard s.ctx = true →
    let u := s.countIssue 8
    let old := u.tileDesc s.cur.1 f.d.toNat
    let put := u.modCur (fun c => { c with desc := c.desc.set f.d.toNat (f.fld 14 4 + 16 * f.fld 18 4) })
    (matMode (f.fld 14 4) (f.fld 18 4) = none → exec (.mfmt f) s = .next (u.takeFault 0x28 0)) ∧
    (∀ m, matMode (f.fld 14 4) (f.fld 18 4) = some m → matMode old.1 old.2 = some m → exec (.mfmt f) s = .next put) ∧
    (∀ m, matMode (f.fld 14 4) (f.fld 18 4) = some m → matMode old.1 old.2 ≠ some m → Claims.queueRoom u →
      exec (.mfmt f) s = .next (Claims.quiet put (.mclear f.d.toNat m))) ∧
    (Claims.queueRoom u → exec (.mzero f) s = .next (Claims.quiet u (.mzero f.d.toNat (u.tileMode f.d.toNat)))) ∧
    (∀ c s1 slot, u.readS f.c = .ok (c, s1) → Claims.Slot s1 f.c c slot → (∀ r, slot = some r → frefCore r = s1.ringNext) →
      Claims.queueRoom s1 → Claims.asyncRoom s1 → exec (.mrot f) s = .next (Claims.queued s1 (.mrot f.d.toNat) 4 slot 1)) ∧
    (∀ a c s1 s2 slot, u.readS f.a = .ok (a, s1) → s1.readS f.c = .ok (c, s2) → Claims.Slot s2 f.c c slot →
      let n := f.fld 24 4 + 1
      let sz := drainSize (f.fld 14 4)
      (f.fld 28 1 = 1 → ∀ r k, slot = some r → k < n → frefName r + k < 8192 ∧ s2.srefOk (s2.partOf s.cur.1) (r + k) = true) →
      a.toNat % sz = 0 → a.toNat + n * 16 * sz ≤ 0x20000 → s2.hitsSlots s.cur.1 a.toNat (n * 16 * sz) = false →
      (s2.tileMode f.d.toNat = 2 → f.fld 14 4 = 7 ∨ f.fld 14 4 = 8) → Claims.queueRoom s2 → Claims.asyncRoom s2 →
      exec (.mdrain f) s = .next (Claims.queued s2 (.mdrain f.d.toNat a.toNat (f.fld 14 4) (f.fld 18 2) (f.fld 20 4) n (f.fld 28 1 == 1)
        (f.fld 29 1 == 1) (s2.tileMode f.d.toNat)) 6 slot (16 * sz * (if f.fld 28 1 = 1 then 1 else n)))) ∧
    (∀ b s1, s.ctx.grant ≠ 0 → u.readS f.b = .ok (b, s1) → (s1.tileMode f.a.toNat = 2 → f.fld 14 4 = 7 ∨ f.fld 14 4 = 8) →
      ((∃ m ∈ (s1.core s.cur.1).mq, namesTile f.a.toNat m.op = true) → exec (.mrow f) s = .next (s1.writeP f.c.toNat false)) ∧
      ((∀ m ∈ (s1.core s.cur.1).mq, namesTile f.a.toNat m.op = false) → exec (.mrow f) s =
        .next ((s1.setLanes f.d (fun j => if j < 16 ∧ j < s.ctx.grant then some { val := BitVec.ofNat 32 (drainWord (s1.tileMode f.a.toNat) (f.fld 14 4)
          (f.fld 18 2) (State.entry (s1.core s.cur.1) f.a.toNat (b.toNat % 16) j)), tag := false } else none)).writeP f.c.toNat true))))

namespace Sys2Proof.Claims

/-- Sources a, b, c and d in that order (R47). -/
def readABCD (s : State) (f : WForm) : Except Code (Word × Word × Word × Word × State) := do
  let (a, b, s1) ← s.readAB f
  let (c, s2) ← s1.readS f.c
  let (d, s3) ← s2.readS f.d
  pure (a, b, c, d, s3)
/-- The splices that reach a die from the issuing one, and back where asked, are declared (R190, R217). -/
def reaches (s : State) (die : Nat) (back : Bool) : Prop := s.splicesOk (s.partOf s.cur.1) (dieOf s.cur.1) die back = true
/-- The splices that reach the die of a completion slot, and back, are declared (R190; log entry 52). -/
def slotReaches (s : State) (slot : Option Nat) : Prop := ∀ r, slot = some r → reaches s (bits r 28 4) true
/-- An asynchronous request leaves: the frame's count rises, and the packet is sent (R191). -/
def sends (s : State) (major minor : Nat) (mk : State → Nat → Packet) : State :=
  (s.newCmd major minor).1.send (mk (s.newCmd major minor).1 (s.newCmd major minor).2)
/-- A signal of a firing leaves, held where it is a release (R189, R196). -/
def signals (s : State) (r val bytes : Nat) (fire : Bool) (sem scope : Nat) : State :=
  s.send (s.withRelease (s.notice (.signal r val bytes fire 0) (frameDst (srefFref r)) (srefFref r)) sem scope)
/-- The semantics that pass only what the firing acquired, of a release that names no byte of its own (R196, R248; log entry 53). -/
def acquiredOnly (sem : Nat) : Nat := match sem with | 0 => 1 | 3 => 2 | n => n
/-- A slot operand that is no completion slot (R188, R389). -/
def named (s : State) (w : Word) : Prop := s.srefOk (s.partOf s.cur.1) w.toNat = true ∧ reaches s (bits w.toNat 28 4) false
/-- The core that an allocation goes to: by the placement of R290, the issuing core, or the core of an FREF (R193). -/
def target (s : State) (mode : Nat) (a b : Word) : Nat :=
  if mode = 2 then frefCore b.toNat else if mode = 1 then s.cur.1 else s.place (s.partOf s.cur.1) a.toNat b

end Sys2Proof.Claims

/-- O34. The frame and slot instructions of major 0x2C complete where their operands are valid, the splices are declared and, for those
that answer, the frame has room (R188 to R199): the request, arming, free or signal leaves with the fields that their rules give it;
sget reads a slot word of a frame on the core, and stf writes a local frame's word at once. A sigb passes the bytes that it names and no other
(R248), so that with none named it passes nothing of its own.
The model's own choices in it: log entries 7, 52, 53, 65 (an allocation is in order class o0). -/
def Obligations.FrameInstructions : Prop :=
  ∀ (f : WForm) (s : State), guardHolds f.guard s.ctx = true →
    let u := s.countIssue 8
    (∀ a b c d s1 slot parent, Claims.readABCD u f = .ok (a, b, c, d, s1) → Claims.Slot s1 f.c c slot →
      (f.d = 0 ∧ parent = 0 ∨ f.d ≠ 0 ∧ s1.srefOk (s1.partOf s.cur.1) d.toNat = true ∧ parent = d.toNat) →
      a.toNat < s1.blockCount (s1.partOf s.cur.1) →
      (f.fld 19 2 = 2 → b.toNat < 2 ^ 32 ∧ bits b.toNat 13 15 < 25600 ∧ s1.coreIn (s1.partOf s.cur.1) (frefCore b.toNat) = true) →
      Claims.reaches s1 (dieOf (Claims.target s1 (f.fld 19 2) a b)) true → Claims.slotReaches s1 slot → Claims.asyncRoom s1 →
      exec (.falloc f) s = .next (Claims.sends s1 0x2C 0 (fun v id => v.request (.alloc a.toNat parent)
        (.core (Claims.target s1 (f.fld 19 2) a b)) (mkFref (Claims.target s1 (f.fld 19 2) a b) 0)
        { ow := f.fld 14 5, slot := slot, bytes := 8 } id 0 0 0))) ∧
    (∀ a s1, u.readS f.a = .ok (a, s1) → s1.frefOpOk (s1.partOf s.cur.1) a = true → Claims.reaches s1 (bits a.toNat 28 4) false →
      exec (.ffree f) s = .next (s1.send (s1.notice .free (frameDst a.toNat) a.toNat))) ∧
    (∀ a b s1, u.readAB f = .ok (a, b, s1) → Claims.named s1 a →
      (b.toNat < 2 ^ 27 → exec (.sarm f) s = .next (s1.send (s1.withRelease (s1.notice (.arm a.toNat
        (mkSlot b.toNat (f.fld 15 3) (f.fld 14 1 == 1) true)) (frameDst (srefFref a.toNat)) (srefFref a.toNat)) f.sem f.scope))) ∧
      exec (.sigv f) s = .next (Claims.signals s1 a.toNat b.toNat b.toNat false f.sem f.scope)) ∧
    (∀ a s1, u.readS f.a = .ok (a, s1) → Claims.named s1 a →
      exec (.sig f) s = .next (Claims.signals s1 a.toNat f.sub.toNat f.sub.toNat false f.sem f.scope) ∧
      exec (.fire f) s = .next (Claims.signals s1 a.toNat 0 0 true f.sem f.scope)) ∧
    (∀ (g : XForm) a s1, guardHolds g.guard s.ctx = true → (s.countIssue 12).readS g.a = .ok (a, s1) → Claims.named s1 a →
      exec (.sigX g) s = .next (Claims.signals s1 a.toNat g.lit.toNat g.lit.toNat false (g.c.toNat % 4) (g.c.toNat / 4 % 8))) ∧
    (∀ a b d s1 s2, u.readAB f = .ok (a, b, s1) → s1.readS f.d = .ok (d, s2) → Claims.named s2 a → (d.toNat = 0 ∨ b.toNat + d.toNat ≤ 0x20000) →
      let q := { s2.notice (.signal a.toNat 1 d.toNat false 0) (frameDst (srefFref a.toNat)) (srefFref a.toNat) with
        sem := if d.toNat = 0 then Claims.acquiredOnly f.sem else f.sem, scope := f.scope, relLo := coreKey s.cur.1 b.toNat, relLen := d.toNat }
      exec (.sigb f) s =
        .next (s2.send { q with rel := decide (0 < d.toNat) && inScope s.cur.1 f.scope (scopeLoc q) && relPending s2 s2.seq q })) ∧
    (∀ a s1 t, u.readS f.a = .ok (a, s1) → s1.srefOk (s1.partOf s.cur.1) a.toNat = true → frefCore a.toNat = s.cur.1 →
      (s1.localOf s.cur.1 (frefName a.toNat)).isSome = true →
      s1.writeS f.d (s1.readW (s1.frameKey s.cur.1 (frefName a.toNat) + 16 + 8 * srefSlot a.toNat)) = .ok t → exec (.sget f) s = .next t) ∧
    (∀ a c s1 s2 slot, u.readS f.a = .ok (a, s1) → s1.readS f.c = .ok (c, s2) → s2.frefOpOk (s2.partOf s.cur.1) a = true →
      Claims.Slot s2 f.c c slot → Claims.reaches s2 (bits a.toNat 28 4) true → Claims.slotReaches s2 slot → Claims.asyncRoom s2 →
      exec (.ldf f) s = .next (Claims.sends s2 0x2C 8 (fun v id => v.request (.ldf (f.fld 14 5)) (frameDst a.toNat) a.toNat
        { ow := f.fld 19 5, slot := slot, bytes := 8 } id f.ord (s2.wordKey (frefCore a.toNat) (frefName a.toNat) (f.fld 14 5)) 8))) ∧
    (∀ a b s1, u.readAB f = .ok (a, b, s1) → s1.frefOpOk (s1.partOf s.cur.1) a = true → Claims.reaches s1 (bits a.toNat 28 4) false →
      (frefCore a.toNat = s.cur.1 → frefName a.toNat < 4096 →
        exec (.stf f) s = .next (s1.storeN s1.pipeWriter (s1.localKey s.cur.1 (frefName a.toNat) + 8 * f.fld 14 5) 8 b.toNat)) ∧
      (frefCore a.toNat ≠ s.cur.1 ∨ 4096 ≤ frefName a.toNat →
        exec (.stf f) s = .next (s1.send (s1.request (.stf (f.fld 14 5) b) (frameDst a.toNat) a.toNat { ow := 0, slot := none, bytes := 8 } 0 f.ord
          (s1.wordKey (frefCore a.toNat) (frefName a.toNat) (f.fld 14 5)) 8))))

namespace Sys2Proof.Claims

/-- The ring instructions with their minors (R201). -/
noncomputable def rings : List (Nat × (WForm → Instr)) := [(0, .rinit), (1, .racq), (2, .rcom), (3, .rpeek), (4, .rrel)]

end Sys2Proof.Claims

/-- O35. From R201 to R203, in part: the five ring instructions complete with a request to the owner of the block, the core or its cluster, where the
block is aligned to 64 bytes and lies in the scratchpad off the slot words, the slot is valid and the frame has room; rinit checks
its buffer as well. rcom and rrel are releases. (A block over slot words
is code 0x04: the model's reading, log entry 12; the splices of a slot on another die: log entry 52.) -/
def Obligations.RingInstructions : Prop :=
  ∀ x ∈ Claims.rings, ∀ (f : WForm) (s s1 : State) (a b c d : Word) (slot : Option Nat), guardHolds f.guard s.ctx = true →
    Claims.readABCD (s.countIssue 8) f = .ok (a, b, c, d, s1) → Claims.Slot s1 f.c c slot → Claims.slotReaches s1 slot → Claims.asyncRoom s1 →
    let clus := f.fld 19 1 = 1
    let size := if clus then 0x400000 else 0x20000
    a.toNat % 64 = 0 → a.toNat + 64 ≤ size → (¬clus → s1.hitsSlots s.cur.1 a.toNat 64 = false) →
    (x.1 = 0 → b.toNat % 8 = 0 ∧ 1 ≤ d.toNat ∧ d.toNat ≤ 65535 ∧ b.toNat + d.toNat * (8 * 2 ^ f.fld 20 4) ≤ size) →
    exec (x.2 f) s = .next (Claims.sends s1 0x2D x.1 (fun v id =>
      let q := v.request (.ring x.1 d.toNat (f.fld 20 4) b) (if clus then .cluster (clidOf s.cur.1) else .core s.cur.1) v.ctx.fref
        { ow := f.fld 14 5, slot := slot, bytes := 8 } id f.ord
        (if clus then clusterKey (clidOf s.cur.1) a.toNat else coreKey s.cur.1 a.toNat) 64
      if x.1 = 2 ∨ x.1 = 4 then v.withRelease q 0 (if clus then 2 else 0) else q))

namespace Sys2Proof.Claims

/-- z bytes extended to a register: zero-extended under u, else sign-extended (R222). -/
def extended (z : Nat) (u : Bool) (v : Nat) : Word := if u then BitVec.ofNat 64 v else BitVec.ofInt 64 (signed (8 * z) v)
/-- A load completes: the aligned bytes inside the scratchpad, none of them poisoned, stand in d as R246 lets the firing's pipeline read them
(R222). -/
def LoadDone (s0 s : State) (a : BitVec 6) (d : BitVec 6) (off : Word) (z : Nat) (u : Bool) (i : Instr) : Prop :=
  ∀ w s1 t, s.readS a = .ok (w, s1) → inCore (w + off) z → s1.poisoned (coreKey s.cur.1 (w + off).toNat) z = false →
    (s1.saw s1.pipeReader (coreKey s.cur.1 (w + off).toNat) z).writeS d
      (extended z u (s1.seenN s1.pipeReader (coreKey s.cur.1 (w + off).toNat) z)) = .ok t → exec i s0 = .next t
/-- A store completes: the low z bytes of D stand at the address, every other byte of memory and every register is as before, in a
memory in its canonical form (an invariant, MemoryCanonical) (R222). -/
def StoreDone (s0 s : State) (a : BitVec 6) (d : BitVec 6) (off : Word) (z : Nat) (i : Instr) : Prop :=
  memWf s0.mem = true → ∀ w v s1 s2, s.readS a = .ok (w, s1) → s1.readS d = .ok (v, s2) → inCore (w + off) z →
    s2.hitsSlots s.cur.1 (w + off).toNat z = false →
    ∃ t, exec i s0 = .next t ∧ t.readN (coreKey s.cur.1 (w + off).toNat) z = v.toNat % 2 ^ (8 * z) ∧
      (∀ k, k < coreKey s.cur.1 (w + off).toNat ∨ coreKey s.cur.1 (w + off).toNat + z ≤ k → t.byte k = s0.byte k) ∧
      (∀ p ∈ t.poison, p ∈ s2.poison) ∧ (∀ p ∈ s2.poison, p ∉ t.poison → z = 8 ∧ p = coreKey s.cur.1 (w + off).toNat) ∧
      t = { s2.storeN s2.pipeWriter (coreKey s.cur.1 (w + off).toNat) z (v.toNat % 2 ^ (8 * z)) with mem := t.mem, poison := t.poison }
/-- The bytes of a width code (R221). -/
def bytesOf (c : BitVec 6) : Nat := 8 / 2 ^ (c.toNat % 4)

end Sys2Proof.Claims

/-- O36. From R221, R222, R246, in part: ld in its three forms completes at every width with the bytes of the core scratchpad, extended: the
newest bytes, or earlier ones where some write to them is not ordered before the load. The model's own choices in it: log entry 7. -/
def Obligations.Loads : Prop :=
  (∀ (f : WForm) (s : State), guardHolds f.guard s.ctx = true →
    Claims.LoadDone s (s.countIssue 8) f.a f.d (BitVec.ofInt 64 f.sub.toInt) (Claims.bytesOf f.c) (f.c.getLsbD 2) (.ld f)) ∧
  (∀ (f : XForm) (s : State), guardHolds f.guard s.ctx = true →
    Claims.LoadDone s (s.countIssue 12) f.a f.d (BitVec.ofInt 64 f.lit.toInt) (Claims.bytesOf f.c) (f.c.getLsbD 2) (.ldX f)) ∧
  (∀ (f : CForm) (s : State), Claims.LoadDone s (s.countIssue 4) f.a f.d (BitVec.ofNat 64 (8 * f.b.toNat)) 8 false (.ldC f))

/-- O37. From R173, R221, R222, in part: st in its three forms completes at every width off the slot words: the next state is the one behind the
count of the issue and the reads of a and d, but for the bytes stored, which read back, what stood there before and whose write it is (R246) and the release sequences that the store
ends (R249); no other byte of any memory changes, and no word
but one that is stored whole ceases to be poisoned. The model's own choices in it: log entry 7. -/
def Obligations.Stores : Prop :=
  (∀ (f : WForm) (s : State), guardHolds f.guard s.ctx = true →
    Claims.StoreDone s (s.countIssue 8) f.a f.d (BitVec.ofInt 64 f.sub.toInt) (Claims.bytesOf f.c) (.st f)) ∧
  (∀ (f : XForm) (s : State), guardHolds f.guard s.ctx = true →
    Claims.StoreDone s (s.countIssue 12) f.a f.d (BitVec.ofInt 64 f.lit.toInt) (Claims.bytesOf f.c) (.stX f)) ∧
  (∀ (f : CForm) (s : State), Claims.StoreDone s (s.countIssue 4) f.a f.d (BitVec.ofNat 64 (8 * f.b.toNat)) 8 (.stC f))

namespace Sys2Proof.Claims

/-- Where a load of z bytes at a + off faults: it is not aligned, outside the scratchpad, or meets poison (R222). -/
def LoadFaults (s0 s : State) (a : BitVec 6) (off : Word) (z : Nat) (i : Instr) : Prop :=
  ∀ w s1, s.readS a = .ok (w, s1) → let x := w + off
    (x.toNat % z ≠ 0 → exec i s0 = .next (s.takeFault 0x03 0)) ∧
    (x.toNat % z = 0 → 0x20000 < x.toNat + z → exec i s0 = .next (s.takeFault 0x04 0)) ∧
    (inCore x z → s1.poisoned (coreKey s.cur.1 x.toNat) z = true → exec i s0 = .next (s.takeFault 0x21 0))
/-- Where a store of z bytes at a + off faults: it is not aligned, outside the scratchpad, or meets a slot word (R173, R222). -/
def StoreFaults (s0 s : State) (a d : BitVec 6) (off : Word) (z : Nat) (i : Instr) : Prop :=
  ∀ w v s1 s2, s.readS a = .ok (w, s1) → s1.readS d = .ok (v, s2) → let x := w + off
    (x.toNat % z ≠ 0 → exec i s0 = .next (s.takeFault 0x03 0)) ∧
    (x.toNat % z = 0 → 0x20000 < x.toNat + z → exec i s0 = .next (s.takeFault 0x04 0)) ∧
    (inCore x z → s2.hitsSlots s.cur.1 x.toNat z = true → exec i s0 = .next (s.takeFault 0x04 0))

end Sys2Proof.Claims

/-- O38. From R222, in part: in each of its three forms, a load or store that is not aligned to its width faults with code 0x03, one outside the scratchpad with 0x04, a store over
a slot word with 0x04 (R173), and a load of a poisoned word with 0x21 (R220). Nothing else happens (R40). -/
def Obligations.LoadStoreFaults : Prop :=
  (∀ (f : WForm) (s : State), guardHolds f.guard s.ctx = true →
    Claims.LoadFaults s (s.countIssue 8) f.a (BitVec.ofInt 64 f.sub.toInt) (Claims.bytesOf f.c) (.ld f) ∧
    Claims.StoreFaults s (s.countIssue 8) f.a f.d (BitVec.ofInt 64 f.sub.toInt) (Claims.bytesOf f.c) (.st f)) ∧
  (∀ (f : XForm) (s : State), guardHolds f.guard s.ctx = true →
    Claims.LoadFaults s (s.countIssue 12) f.a (BitVec.ofInt 64 f.lit.toInt) (Claims.bytesOf f.c) (.ldX f) ∧
    Claims.StoreFaults s (s.countIssue 12) f.a f.d (BitVec.ofInt 64 f.lit.toInt) (Claims.bytesOf f.c) (.stX f)) ∧
  (∀ (f : CForm) (s : State), Claims.LoadFaults s (s.countIssue 4) f.a (BitVec.ofNat 64 (8 * f.b.toNat)) 8 (.ldC f) ∧
    Claims.StoreFaults s (s.countIssue 4) f.a f.d (BitVec.ofNat 64 (8 * f.b.toNat)) 8 (.stC f))

namespace Sys2Proof.Claims

/-- The place of a remote access (R209, R217): aligned, in the partition, with declared splices both ways, and the frame has room. -/
def remote (s : State) (a : Word) (z : Nat) (dst : Loc) (key off : Nat) : Prop :=
  s.placeOf (s.partOf s.cur.1) a.toNat z = some (dst, key, off) ∧ reaches s (locDie dst) true ∧ asyncRoom s ∧ a.toNat % z = 0
/-- A write at a place meets no words of a slot unit (R173, R217). -/
def clearOf (s : State) (dst : Loc) (off z : Nat) : Prop := ∀ c, dst = .core c → s.hitsSlots c off z = false
/-- The atomics on words by minor (R225). -/
noncomputable def atomics : List (Nat × (WForm → Instr)) :=
  [(0, .aadd), (1, .amin), (2, .amax), (3, .aminu), (4, .amaxu), (5, .aand), (6, .aor), (7, .axor), (8, .aswp), (9, .acas), (10, .afadd)]
/-- The operation of an atomic on a word of z bytes: memory, operand and comparand to the new value (R226). -/
def atomicTable : List (Nat × (Nat → Nat → Nat → Nat → Nat)) :=
  [(0, fun z m b _ => (m + b) % 2 ^ (8 * z)), (1, fun z m b _ => if signed (8 * z) b < signed (8 * z) m then b else m),
   (2, fun z m b _ => if signed (8 * z) m < signed (8 * z) b then b else m), (3, fun _ m b _ => if b < m then b else m),
   (4, fun _ m b _ => if m < b then b else m), (5, fun _ m b _ => m &&& b), (6, fun _ m b _ => m ||| b), (7, fun _ m b _ => m ^^^ b),
   (8, fun _ _ b _ => b), (9, fun z m b d => if m = d % 2 ^ (8 * z) then b else m),
   (10, fun _ m b _ => (roundFp32 (XReal.add (decodeFp32 (BitVec.ofNat 32 m)) (decodeFp32 (BitVec.ofNat 32 b)) 0) 0).toNat)]

end Sys2Proof.Claims

/-- O39. From R223 to R229, in part: remote loads and stores, the twelve atomics and fence complete where the place, the slot, the splices and the
alignment are as R217 and R224 ask and the frame has room: the request leaves for the owner of the place with its fields; a fence is
added to those that the firing's later requests wait for. What each atomic makes of its word is R226's table.
The model's own choices in it: log entry 7. -/
def Obligations.RemoteAccess : Prop :=
  (∀ (f : WForm) (s s1 s2 : State) (a c : Word) (slot : Option Nat) (dst : Loc) (key off : Nat), guardHolds f.guard s.ctx = true →
    let z := 8 / 2 ^ f.fld 19 2
    (s.countIssue 8).readS f.a = .ok (a, s1) → s1.readS f.c = .ok (c, s2) → Claims.Slot s2 f.c c slot → Claims.remote s2 a z dst key off →
    exec (.ldrm f) s = .next (Claims.sends s2 0x31 0 (fun v id => v.request (.ldrm z (f.fld 21 1 == 1)) dst v.ctx.fref
      { ow := f.fld 14 5, slot := slot, bytes := 8 } id f.ord key z))) ∧
  (∀ (f : WForm) (s s1 : State) (a b c : Word) (slot : Option Nat) (dst : Loc) (key off : Nat), guardHolds f.guard s.ctx = true →
    let z := 8 / 2 ^ f.fld 19 2
    Claims.readABC (s.countIssue 8) f = .ok (a, b, c, s1) → Claims.Slot s1 f.c c slot → Claims.remote s1 a z dst key off →
    Claims.clearOf s1 dst off z →
    exec (.strm f) s = .next (Claims.sends s1 0x31 1 (fun v id => v.withRelease (v.request (.strm z b) dst v.ctx.fref
      { ow := 0, slot := slot, bytes := z } id f.ord key z) (f.fld 22 2) (f.fld 24 3)))) ∧
  (∀ x ∈ Claims.atomics, ∀ (f : WForm) (s s1 : State) (a b c d : Word) (slot : Option Nat) (dst : Loc) (key off : Nat),
    guardHolds f.guard s.ctx = true → let z := if f.fld 19 2 = 0 then 8 else 4
    Claims.readABCD (s.countIssue 8) f = .ok (a, b, c, d, s1) → Claims.Slot s1 f.c c slot → Claims.remote s1 a z dst key off →
    Claims.clearOf s1 dst off z →
    exec (x.2 f) s = .next (Claims.sends s1 0x32 x.1 (fun v id => v.withRelease (v.request (.atomic x.1 z (b.setWidth 256) d [])
      (v.atomicDst x.1 dst key) v.ctx.fref { ow := f.fld 14 5, slot := slot, bytes := z } id f.ord key z) (f.fld 21 2) (f.fld 23 3)))) ∧
  (∀ (f : WForm) (s s1 s2 : State) (a c : Word) (slot : Option Nat) (dst : Loc) (key off : Nat), guardHolds f.guard s.ctx = true →
    (s.countIssue 8).readS f.a = .ok (a, s1) → s1.readS f.c = .ok (c, s2) → Claims.Slot s2 f.c c slot → Claims.remote s2 a 32 dst key off →
    Claims.clearOf s2 dst off 32 →
    exec (.aspadd f) s = .next (Claims.sends s2 0x32 11 (fun v id => v.withRelease { v.request
      (.atomic 11 32 (bitsOfSpool (s2.readY f.b.toNat)) 0 []) dst v.ctx.fref
      { ow := f.fld 14 5, slot := slot, bytes := 32 } id f.ord key 32 with bulk := true } (f.fld 21 2) (f.fld 23 3)))) ∧
  (∀ (f : WForm) (s : State), guardHolds f.guard s.ctx = true →
    exec (.fence f) s = .next ({ s.countIssue 8 with seq := s.seq + 1 }.modCtx (fun k => { k with fences := k.fences ++ [(s.seq, f.fld 14 3)] }))) ∧
  (∀ x ∈ Claims.atomicTable, ∀ (z m b d : Nat), z = 4 ∨ z = 8 → m < 2 ^ (8 * z) → atomicNew x.1 z m b d = x.2 z m (b % 2 ^ (8 * z)) d)

namespace Sys2Proof.Claims

/-- Every reserved field of a descriptor is 0 and no count is 0 (R232), as the pipeline of the issuing core reads it (R246). -/
def descriptorFits (s : State) (k : Nat) : Prop :=
  let word := fun a n => s.seenN s.pipeReader a n
  word k 8 / 2 ^ 36 = 0 ∧ word (k + 28) 4 = 0 ∧ word (k + 232) 24 = 0 ∧
    ∀ j, j < 5 → word (k + 32 + 40 * j + 28) 4 / 2 = 0 ∧ word (k + 32 + 40 * j) 4 ≠ 0
/-- Level-0 of a walk steps along dimension 0 alone, by 1 (R232, R237). -/
def unitRun (w : Walk) : Prop :=
  (w.levels.getD 0 default).steps.getD 0 0 = 1 ∧ ∀ i, i < 4 → (w.levels.getD 0 default).steps.getD (i + 1) 0 = 0
/-- What R232, R236 and R237 ask of a walk at a place, over all its elements. -/
def walkFits (s : State) (k : Nat) (w : Walk) (dst : Loc) (off size : Nat) : Prop :=
  let x := tensOf (s.descOf w.from_.part w.tid)
  let n0 := (w.levels.getD 0 default).n
  let o0 := w.origin.getD 0 0
  let z := spadBytes w x.fmt
  let last : Int := if w.kind ≠ 5 ∧ subByte x.fmt = true then (runBytes w x.fmt n0 : Int) else (z : Int)
  let g := if elemBits x.fmt = 6 then 4 else 2
  descriptorFits s k ∧ s.declared w.from_.inst w.tid = true ∧ (w.kind = 5 → s.declared w.from_.inst w.stid = true) ∧
  (w.kind ≠ 5 → w.stid = 0 ∧ w.qfmt = 0) ∧
  (∀ c, c < 5 → 0 ≤ (coordRange w c).1 ∧ (coordRange w c).2 < (x.d.getD c 1 : Int)) ∧
  (w.kind = 5 → ∀ c, c < 5 → (if c = 0 then (coordRange w 0).2 / 32 else (coordRange w c).2) <
    ((tensOf (s.descOf w.from_.part w.stid)).d.getD c 1 : Int)) ∧
  off % z = 0 ∧ (∀ l ∈ w.levels, l.n = 1 ∨ l.stride.emod z = 0) ∧
  0 ≤ (off : Int) + (strideRange w).1 ∧ (off : Int) + (strideRange w).2 + last ≤ (size : Int) ∧
  ((w.kind = 0 ∨ w.kind = 2 ∨ w.kind = 3) → ∀ c, dst = .core c → ∀ e, e < walkElems w → s.elemHits c off w x.fmt e = false) ∧
  s.poisoned k 256 = false ∧
  (∀ l ∈ w.levels, l.sig = true → if w.kind = 2 then l.sref < 2 ^ 35 ∧ frefName l.sref < 4096 ∧ frefName l.sref < s.frames w.from_.part
    else s.srefOk w.from_.part l.sref = true) ∧
  (w.kind ≠ 5 → subByte x.fmt = true → unitRun w ∧ (w.levels.getD 0 default).stride = 0 ∧ o0 % g = 0 ∧ (n0 % g = 0 ∨ o0 + n0 = x.d.getD 0 1)) ∧
  ((w.kind = 3 ∨ w.kind = 4) → (w.levels.getD 1 default).n = w.idx.length ∧ ∀ j, j < 3 → (w.levels.getD (j + 2) default).n = 1) ∧
  (w.kind = 5 → 9 ≤ w.qfmt ∧ w.qfmt ≤ 13 ∧ w.qfmt = x.fmt ∧ unitRun w ∧ o0 % 32 = 0 ∧ (n0 % 32 = 0 ∨ o0 + n0 = x.d.getD 0 1))
/-- The rectangle of a multicast lies in the partition's part of the die, and its slot names a local frame (R236). -/
def rectangleFits (s : State) (w : Walk) (d : Word) (dst : Loc) (slot : Option Nat) : Prop :=
  d.toNat < 2 ^ 32 ∧ (∃ c, dst = .core c ∧ 1 ≤ w.width ∧ 1 ≤ w.height ∧ localX c + w.width ≤ 160 ∧ localY c + w.height ≤ 160) ∧
    (∀ t, t < w.width * w.height → s.coreIn (s.partOf s.cur.1) (targetCore w t) = true) ∧ (∀ r, slot = some r → frefName r < 4096)
/-- The walks of major 0x34 by minor. -/
noncomputable def walks : List (Nat × (WForm → Instr)) := [(0, .twld), (1, .twst), (2, .twmc), (3, .twg), (4, .tws), (5, .twq)]

end Sys2Proof.Claims

/-- O40. From R231 to R237, R239, in part: a tile-walk command enters the queue of its cluster where its descriptor, its place, its elements, its slots
and, for twmc, its rectangle are as the rules ask, and the frame has room; the command holds the descriptor's fields, counts, strides and steps
among them (R230, R231), as R246 lets the firing's
pipeline read them. An element's coordinates and its place in the scratchpad follow from the nest (R215), its tile and its place in the page from
the shape (R213, R214), and twg and tws take a row by its index register (R234). twcan leaves for the cluster with the slot that it names.
The model's own choices in it: log entry 7, log entry 22 (what of R232 a twq is held to), log entry 56 (the order of twmc's checks). -/
def Obligations.TileWalks : Prop :=
  (∀ x ∈ Claims.walks, ∀ (f : WForm) (s s1 s2 s3 s4 : State) (a b c d : Word) (slot : Option Nat) (dst : Loc) (key off : Nat),
    guardHolds f.guard s.ctx = true → (s.countIssue 8).readS f.a = .ok (a, s1) → s1.readS f.b = .ok (b, s2) → s2.readS f.c = .ok (c, s3) →
    (if x.1 = 2 then s3.readS f.d = .ok (d, s4) else d = 0 ∧ s4 = s3) → Claims.Slot s4 f.c c slot →
    s4.placeOf (s4.partOf s.cur.1) b.toNat 1 = some (dst, key, off) → Claims.reaches s4 (locDie dst) true → Claims.asyncRoom s4 →
    a.toNat % 64 = 0 → a.toNat + 256 ≤ 0x20000 →
    let w := s4.walkOf x.1 f a b d slot
    (x.1 = 2 → Claims.rectangleFits s4 w d dst slot) →
    Claims.walkFits s4 (coreKey s.cur.1 a.toNat) w dst off (s4.levelSize dst) →
    exec (x.2 f) s = .next ((s4.saw s4.pipeReader (coreKey s.cur.1 a.toNat) 256).queueWalk x.1 w)) ∧
  (∀ (s : State) (kind : Nat) (f : WForm) (a b d : Word) (slot : Option Nat), let w := s.walkOf kind f a b d slot
    let word := fun n z => s.seenN s.pipeReader (coreKey s.cur.1 a.toNat + n) z
    w.kind = kind ∧ w.tid = word 0 8 % 2 ^ 16 ∧ w.stid = word 0 8 / 2 ^ 16 % 2 ^ 16 ∧ w.qfmt = word 0 8 / 2 ^ 32 % 16 ∧ w.base = b.toNat ∧
      (∀ i, i < 5 → w.origin.getD i 0 = word (8 + 4 * i) 4 ∧ (let l := w.levels.getD i default
        l.n = word (32 + 40 * i) 4 ∧ l.stride = (BitVec.ofNat 32 (word (36 + 40 * i) 4)).toInt ∧
        (∀ k, k < 5 → l.steps.getD k 0 = (BitVec.ofNat 32 (word (40 + 40 * i + 4 * k) 4)).toInt) ∧ l.sig = (word (32 + 40 * i + 28) 4 % 2 == 1) ∧ l.sref = word (32 + 40 * i + 32) 8)) ∧
      (kind = 3 ∨ kind = 4 → ∀ j, j ≤ f.fld 14 5 → w.idx.getD j 0 = (s.ctx.s.get 0 (f.d.toNat + j)).toNat) ∧
      (kind = 2 → w.width = d.toNat % 2 ^ 16 ∧ w.height = d.toNat / 2 ^ 16 % 2 ^ 16) ∧ w.ret.slot = slot ∧ w.from_ = s.issuer) ∧
  (∀ (x : Tens) (c : List Nat), let q := fun k => c.getD k 0 / x.t.getD k 1
    let v := fun k => c.getD k 0 % x.t.getD k 1
    let T := fun k => (x.d.getD k 1 + x.t.getD k 1 - 1) / x.t.getD k 1
    let t := fun k => x.t.getD k 1
    tileOf x c = ((((q 4 * T 3 + q 3) * T 2 + q 2) * T 1 + q 1) * T 0 + q 0, (((v 4 * t 3 + v 3) * t 2 + v 2) * t 1 + v 1) * t 0 + v 0)) ∧
  (∀ fmt, fmt < 15 → (∃ k, pageElems fmt = 2 ^ k) ∧ pageElems fmt * elemBits fmt ≤ 2 ^ 19 ∧ 2 ^ 19 < 2 * pageElems fmt * elemBits fmt) ∧
  (∀ (d : List Word) (k : Nat), k < 5 → let x := tensOf d
    ((d.getD 0 0).toNat / 2 ^ 21 % 2 = 0 →
      x.t.getD k 1 = min (2 ^ Nat.clog 2 (x.d.getD k 1)) (pageElems x.fmt / ((List.range k).map (fun j => x.t.getD j 1)).prod)) ∧
    ((d.getD 0 0).toNat / 2 ^ 21 % 2 = 1 → x.t.getD k 1 = 2 ^ ((d.getD 0 0).toNat / 2 ^ (32 + 5 * k) % 32)) ∧
    x.d.getD k 1 = (d.getD (1 + k / 2) 0).toNat / 2 ^ (32 * (k % 2)) % 2 ^ 32 + 1 ∧ x.fmt = (d.getD 0 0).toNat / 2 ^ 16 % 16) ∧
  (∀ (w : Walk) (e : Nat), w.levels.length = 5 → let l := fun j => w.levels.getD j default
    let i := fun j => e / ((List.range j).map (fun m => (l m).n)).prod % (l j).n
    let sum := fun (h : Nat → Int) => h 0 + h 1 + h 2 + h 3 + h 4
    (∀ k, k < 5 → w.kind ≠ 3 → w.kind ≠ 4 →
      (coordsOf w e).getD k 0 = w.origin.getD k 0 + sum (fun j => (i j : Nat) * (l j).steps.getD k 0)) ∧
    (∀ k, k < 5 → w.kind = 3 ∨ w.kind = 4 → (coordsOf w e).getD k 0 =
      w.origin.getD k 0 + (i 0 : Nat) * (l 0).steps.getD k 0 + (w.idx.getD (i 1) 0 : Nat) * (l 1).steps.getD k 0) ∧
    strideOf w e = sum (fun j => (i j : Nat) * (l j).stride)) ∧
  (∀ (f : WForm) (s s1 s2 : State) (a c : Word) (tgt slot : Option Nat), guardHolds f.guard s.ctx = true →
    (s.countIssue 8).readS f.a = .ok (a, s1) → s1.readS f.c = .ok (c, s2) → Claims.Slot s2 f.a a tgt → Claims.Slot s2 f.c c slot →
    exec (.twcan f) s = .next (s2.send { s2.notice (.twcan (tgt.getD (2 ^ 64))) (.cluster (clidOf s.cur.1)) s2.ctx.fref with
      ret := { ow := f.fld 14 5, slot := slot, bytes := 8 } })) ∧
  (∀ (s : State) (kind : Nat) (w : Walk), let t := s.queueWalk kind w
    ((t.cluster (clidOf s.cur.1)).walkq = (s.cluster (clidOf s.cur.1)).walkq ++ [s.seq + 1]) ∧ t.walk (s.seq + 1) = some { w with cmd := s.seq } ∧
      t.ctx = s.ctx ∧ t.net = s.net ∧ t.faults = s.faults)

/-- O41. From R254, R262 to R265, in part: in a graph with pacing stepd stands until the firing's earlier work is performed, and nothing more once the
step is finished; ldst and stepq leave for their owner where its place, slot and splices are valid and the frame has room. In a
graph without pacing each is code 0x01.
The model's own choices in it: log entries 14, 15. -/
def Obligations.PacedSteps : Prop :=
  ∀ (f : WForm) (s : State), guardHolds f.guard s.ctx = true →
    let u := s.countIssue 8
    (∀ g x, u.graphOf s.ctx.inst = some g → g.pace = some x →
      ((u.core s.cur.1).done = true → exec (.stepd f) s = .next u) ∧
      ((u.core s.cur.1).done = false → exec (.stepd f) s =
        .next ({ u with seq := s.seq + 1 }.modCur (fun c => { c with stepds := c.stepds ++ [(s.ctx.fid, s.seq)] }))) ∧
      (∀ a b c s1 slot owner key off, Claims.readABC u f = .ok (a, b, c, s1) → Claims.Slot s1 f.c c slot →
        s1.placeOf (s1.partOf s.cur.1) a.toNat 1 = some (.core owner, key, off) → Claims.reaches s1 (dieOf owner) true → Claims.asyncRoom s1 →
        off % (8 / 2 ^ f.fld 19 2) = 0 → off + (x.depth - 1) * (8 * 2 ^ f.fld 22 4) + 8 / 2 ^ f.fld 19 2 ≤ 0x20000 →
        exec (.ldst f) s = .next (Claims.sends s1 0x38 1 (fun v id => v.request
          (.ldst (8 / 2 ^ f.fld 19 2) (f.fld 21 1 == 1) b.toNat (f.fld 22 4) off) (.core owner) v.ctx.fref
          { ow := f.fld 14 5, slot := slot, bytes := 8 } id f.ord (coreKey owner (off + b.toNat % x.depth * (8 * 2 ^ f.fld 22 4)))
          (8 / 2 ^ f.fld 19 2)))) ∧
      (∀ a b c s1 slot, Claims.readABC u f = .ok (a, b, c, s1) → Claims.Slot s1 f.c c slot → a.toNat < 2 ^ 32 → bits a.toNat 13 15 < 25600 →
        s1.coreIn (s1.partOf s.cur.1) (frefCore a.toNat) = true → Claims.reaches s1 (dieOf (frefCore a.toNat)) true → Claims.asyncRoom s1 →
        exec (.stepq f) s = .next (Claims.sends s1 0x38 2 (fun v id => { v.notice (.stepq b.toNat) (.core (frefCore a.toNat)) v.ctx.fref with
          ret := { ow := f.fld 14 5, slot := slot, bytes := 8 }, cmd := id })))) ∧
    ((∀ g, u.graphOf s.ctx.inst = some g → g.pace = none) →
      ∀ i ∈ [Instr.stepd f, Instr.ldst f, Instr.stepq f], exec i s = .next (u.takeFault 0x01 0))

/-- O42. From R276, R277, R282, in part: the instructions of major 0x39 complete where the image is aligned and in bounds, the sample index is below 32,
the slot is valid and the frame has room: the request leaves for the sequencer of the issuing core's cluster; sqstage and sqstep are
releases without a reply. A sample index of 32 or more is code 0x31 in each of the four that take one.
The model's own choices in it: log entry 14. -/
def Obligations.SolverInstructions : Prop :=
  ∀ (f : WForm) (s : State), guardHolds f.guard s.ctx = true →
    let u := s.countIssue 8
    let go := fun (s1 : State) minor body (r : Ret) => Claims.sends s1 0x39 minor (fun v id =>
      { v.notice body (.seqr (clidOf s.cur.1)) v.ctx.fref with ret := r, cmd := id })
    (∀ a c s1 s2 slot, u.readS f.a = .ok (a, s1) → s1.readS f.c = .ok (c, s2) → Claims.Slot s2 f.c c slot → Claims.asyncRoom s2 →
      a.toNat % 64 = 0 → a.toNat + 384 ≤ 0x20000 → exec (.sqtab f) s = .next (go s2 0 (.sqtab a.toNat) { ow := 0, slot := slot, bytes := 1 })) ∧
    (∀ a b c s1 slot, Claims.readABC u f = .ok (a, b, c, s1) → Claims.Slot s1 f.c c slot → Claims.asyncRoom s1 → b.toNat < 32 →
      a.toNat % 64 = 0 → a.toNat + 128 ≤ 0x20000 →
      exec (.sqinit f) s = .next (go s1 1 (.sqinit a.toNat b.toNat) { ow := 0, slot := slot, bytes := 1 })) ∧
    (∀ b c s1 s2 slot, u.readS f.b = .ok (b, s1) → s1.readS f.c = .ok (c, s2) → Claims.Slot s2 f.c c slot → Claims.asyncRoom s2 → b.toNat < 32 →
      exec (.sqrd f) s = .next (go s2 4 (.sqrd b.toNat (f.fld 19 4)) { ow := f.fld 14 5, slot := slot, bytes := 8 })) ∧
    (∀ b s1, u.readS f.b = .ok (b, s1) → b.toNat < 32 →
      exec (.sqstage f) s = .next (s1.send (s1.withRelease (s1.notice (.sqstage b.toNat (f.fld 14 3 + 1)) (.seqr (clidOf s.cur.1)) s1.ctx.fref) 3 2)) ∧
      exec (.sqstep f) s = .next (s1.send (s1.withRelease (s1.notice (.sqstep b.toNat) (.seqr (clidOf s.cur.1)) s1.ctx.fref) 3 2))) ∧
    (∀ a b c s1 slot, Claims.readABC u f = .ok (a, b, c, s1) → Claims.Slot s1 f.c c slot → Claims.asyncRoom s1 → 32 ≤ b.toNat →
      exec (.sqinit f) s = .next (u.takeFault 0x31 0)) ∧
    (∀ b c s1 s2 slot, u.readS f.b = .ok (b, s1) → s1.readS f.c = .ok (c, s2) → Claims.Slot s2 f.c c slot → Claims.asyncRoom s2 → 32 ≤ b.toNat →
      exec (.sqrd f) s = .next (u.takeFault 0x31 0)) ∧
    (∀ b s1, u.readS f.b = .ok (b, s1) → 32 ≤ b.toNat →
      exec (.sqstage f) s = .next (u.takeFault 0x31 0) ∧ exec (.sqstep f) s = .next (u.takeFault 0x31 0))

namespace Sys2Proof.Claims

/-- The launch that a packet at a key makes, from cluster clid of the issuing core, by the words of the packet as the pipeline reads them
(R246, R285, R286, R293). -/
def launchOf (s : State) (key : Nat) (slot : Option Nat) : Inst :=
  let word := fun n => s.seenW s.pipeReader (key + n)
  { part := s.partOf s.cur.1, handle := mkHandle (s.cluster (clidOf s.cur.1)).seqno (clusOf s.cur.1) (dieOf s.cur.1)
    graph := (word 0).toNat % 2 ^ 16, key := word 8
    args := (List.range ((word 0).toNat / 2 ^ 16 % 8)).map (fun j => word (16 + 8 * j))
    depth := s.ctx.depth + 1, limit := s.ctx.limit, comp := slot, state := 0, reason := 0, arrived := false, cast := [], credit := true
    die := dieOf s.cur.1, quarter := s.shareOf (s.partOf s.cur.1) (dieOf s.cur.1), stopping := 0, waiters := [], record := 0, tag := 0
    host := false, ended := 0, started := false, copy := [] }

end Sys2Proof.Claims

/-- O43. From R292, R293, R296 to R299, in part: glaunch of a well-formed packet takes a credit and a sequence number of its cluster, its request
leaves as a release and d receives the handle, with the predicate true; beyond the nesting limit or without a credit the predicate
is false and d is 0, or under p0 the firing faults with code 0x30. The packet's words are those that R246 lets the firing's pipeline read. gquery
and gcan leave for the launch agent of a well-formed handle's die. The model's own choices in it: log entry 7. -/
def Obligations.LaunchInstructions : Prop :=
  ∀ (f : WForm) (s : State), guardHolds f.guard s.ctx = true →
    let u := s.countIssue 8
    (∀ a c s2 s1 slot, u.readS f.a = .ok (a, s1) → s1.readS f.c = .ok (c, s2) → a.toNat % 64 = 0 → a.toNat + 64 ≤ 0x20000 →
      let key := coreKey s.cur.1 a.toNat
      let cl := clidOf s.cur.1
      s2.poisoned key 64 = false → s2.malformed (s2.partOf s.cur.1) (s2.seenW s2.pipeReader key) = false → Claims.Slot s2 f.c c slot →
      (∀ t, s.ctx.depth + 1 ≤ s.ctx.limit → (s2.cluster cl).credit ≠ 0 →
        let i := Claims.launchOf s2 key slot
        let k := State.instKey i.part i.handle
        let v := ((s2.saw s2.pipeReader key 64).modCluster cl (fun q => { q with
          credit := q.credit - 1, need := q.need || decide (q.credit - 1 < 16), seqno := q.seqno + 1 })).setInst k i
        ((v.send (v.withRelease (v.notice (.launch k) (.launch (dieOf s.cur.1)) v.ctx.fref) 3 4)).writeP (f.fld 14 3) true).writeS f.d i.handle =
          .ok t → exec (.glaunch f) s = .next t) ∧
      (s.ctx.limit < s.ctx.depth + 1 ∨ (s2.cluster cl).credit = 0 →
        (f.fld 14 3 = 0 → exec (.glaunch f) s = .next (u.takeFault 0x30 0)) ∧
        (∀ t, f.fld 14 3 ≠ 0 → ((s2.saw s2.pipeReader key 64).writeP (f.fld 14 3) false).writeS f.d 0 = .ok t →
          exec (.glaunch f) s = .next t))) ∧
    (∀ a c s1 s2 slot, u.readS f.a = .ok (a, s1) → s1.readS f.c = .ok (c, s2) → Claims.Slot s2 f.c c slot →
      s2.handleOk (s2.partOf s.cur.1) a = true → Claims.asyncRoom s2 →
      exec (.gquery f) s = .next (Claims.sends s2 0x3C 1 (fun v id => { v.notice (.gquery a) (.launch (handleDie a)) v.ctx.fref with
        ret := { ow := f.fld 14 5, slot := slot, bytes := 8 }, cmd := id })) ∧
      exec (.gcan f) s = .next (Claims.sends s2 0x3C 2 (fun v id => { v.notice (.gcan a) (.launch (handleDie a)) v.ctx.fref with
        ret := { ow := f.fld 14 5, slot := slot, bytes := 8 }, cmd := id })))

namespace Sys2Proof.Claims

/-- R372: the system registers that sysr reads, by selector. -/
def systemRegisters : List (Nat × (State → Word)) :=
  [(0x000, fun s => BitVec.ofNat 64 (dieOf s.cur.1 + coreIdx s.cur.1 * 2 ^ 4 + clusOf s.cur.1 * 2 ^ 19 + cellIn s.cur.1 * 2 ^ 26 + posOf s.cur.1 * 2 ^ 31)),
   (0x001, fun s => BitVec.ofNat 64 (s.partOf s.cur.1 % 64 + (if partRsv s.mgmt.region (s.partOf s.cur.1) then 64 else 0))),
   (0x002, fun s => s.handleOf s.ctx.inst),
   (0x003, fun s => BitVec.ofNat 64 (s.ctx.depth % 32 + s.ctx.limit % 32 * 2 ^ 8)),
   (0x010, fun s => BitVec.ofNat 64 ((s.core s.cur.1).snap.seq.toNat + (if (s.core s.cur.1).snap.valid then 2 ^ 16 else 0))),
   (0x011, fun s => BitVec.ofNat 64 (s.core s.cur.1).snap.cyc),
   (0x012, fun s => let n := (s.core s.cur.1).snap
     BitVec.ofNat 64 (n.occ % 2 ^ 12 + n.ctxs % 4 * 2 ^ 12 + n.mq % 16 * 2 ^ 14 + n.stp.toNat * 2 ^ 32)),
   (0x020, fun s => BitVec.ofNat 64 (s.core s.cur.1).eccCe.toNat), (0x021, fun s => BitVec.ofNat 64 (s.core s.cur.1).eccUe.toNat)]

end Sys2Proof.Claims

/-- O44. From R371 to R374, in part: sysr gives each system register its fields, sysw writes the two error counts, trap ends the firing with code 0x3F
and its operand in the record, brk puts its operands into a record where tracing is on and does nothing else, and snap raises a
trigger for the partition, held by the fences before it (R229), which counts 8 bytes for a word and 1 for a signal
alone (R219). -/
def Obligations.SystemInstructions : Prop :=
  ∀ (f : WForm) (s : State), guardHolds f.guard s.ctx = true →
    let u := s.countIssue 8
    (∀ x ∈ Claims.systemRegisters, ∀ t, f.fld 14 12 = x.1 → u.writeS f.d (x.2 u) = .ok t → exec (.sysr f) s = .next t) ∧
    (∀ a s1, u.readS f.a = .ok (a, s1) →
      (f.fld 14 12 = 0x20 → exec (.sysw f) s = .next (s1.modCur (fun c => { c with eccCe := Claims.low a }))) ∧
      (f.fld 14 12 = 0x21 → exec (.sysw f) s = .next (s1.modCur (fun c => { c with eccUe := Claims.low a })))) ∧
    exec (.trap f) s = .next (u.takeFault 0x3F f.sub.toNat) ∧
    (∀ g : XForm, guardHolds g.guard s.ctx = true → exec (.trapX g) s = .next ((s.countIssue 12).takeFault 0x3F g.lit.toNat)) ∧
    (∀ a b s1, u.readAB f = .ok (a, b, s1) →
      ((s1.part (s1.partOf s.cur.1)).trace = false → exec (.brk f) s = .next s1) ∧
      ((s1.part (s1.partOf s.cur.1)).trace = true → exec (.brk f) s = .next (s1.addFault
        { kind := 4, code := 0, part := s1.partOf s.cur.1, inst := s.ctx.inst, handle := s1.handleOf s.ctx.inst, cid := s.cur.1
          f := frefName s.ctx.fref, w2 := BitVec.ofNat 64 (s.ctx.slot * 2 ^ 32 + s.ctx.fref), w3 := BitVec.ofNat 64 (s.ctx.pc.toNat % 2 ^ 32)
          rest := [a, b, 0, 0], cmds := [], ext := [], cb := none, own := 0, acts := false }))) ∧
    (∀ c s1, u.readS f.c = .ok (c, s1) →
      (f.c = 0 → exec (.snap f) s =
        .next (s1.raiseTrig (some (s1.partOf s.cur.1)) { ow := f.fld 14 5, slot := none, bytes := if f.fld 14 5 = 0 then 1 else 8 } s1.issuer 0
          s.ctx.fences)) ∧
      (f.c ≠ 0 → s1.srefOk (s1.partOf s.cur.1) c.toNat = true → Claims.asyncRoom s1 → ∀ v id, s1.newCmd 0x3E 4 = (v, id) → exec (.snap f) s =
        .next (v.raiseTrig (some (v.partOf s.cur.1)) { ow := f.fld 14 5, slot := some c.toNat, bytes := if f.fld 14 5 = 0 then 1 else 8 } v.issuer id
          s.ctx.fences)))

/-- O45. From R40, R112, R129, R361, in part: taking a fault ends the firing, so that its context is free and its lanes are
given back, and leaves everything else of the machine as it was; one record waits to be written that holds the code, the firing's frame and
slot, the address of the instruction, the instructions issued before it and the trap operand.
The model's own choices in it: log entry 14, and log entry 3 (the registers of the free context hold the values that R41 gives a firing at
its dispatch). -/
def Obligations.TakingFault : Prop :=
  ∀ (s : State) (code : BitVec 8) (aux : Nat),
    let t := s.takeFault code aux
    t.ctx = Ctx.init ∧ t.ctx.grant = 0 ∧ t.ctx.busy = false ∧
    (∃ r, t.faults = s.faults ++ [r] ∧ r.kind = 0 ∧ r.code = code ∧ r.part = s.partOf s.cur.1 ∧ r.inst = s.ctx.inst ∧ r.cid = s.cur.1 ∧
      r.w2 = BitVec.ofNat 64 (s.ctx.slot * 2 ^ 32 + s.ctx.fref) ∧
      r.w3 = BitVec.ofNat 64 (s.ctx.ipc.toNat % 2 ^ 32 + (if code = 0x08 then 0xFFFF else s.ctx.issued - 1) % 2 ^ 16 * 2 ^ 32 +
        (if aux < 0xFFFF then aux else 0xFFFF) * 2 ^ 48) ∧ r.acts = true) ∧
    t = { s with faults := t.faults, cores := t.cores } ∧ (∀ c, c ≠ s.cur.1 → t.core c = s.core c) ∧
    (s.cur.2 = 0 → t.core s.cur.1 = { s.core s.cur.1 with ctx0 := Ctx.init }) ∧
    (s.cur.2 ≠ 0 → t.core s.cur.1 = { s.core s.cur.1 with ctx1 := Ctx.init })

/-- O46. From R175, R177, R180, R197, R299, in part: what the signals of one cycle do to an armed slot, by V, the sum of their values, which a fire
raises to the count where the others' sum W is not above it: V below the count
lowers it, V equal to it disarms the slot and queues it, with what its signals have passed, where its mark is clear, or leaves
it ripe where the mark is set, and V above it disarms the slot with a kind-2 record of code 0x10. A slot of an instance that is being ended disarms
and enters no queue. A signal or a fire to a slot that is not armed is a record of code 0x11 and changes no slot. -/
def Obligations.SlotSignals : Prop :=
  ∀ (s : State) (cid f k key : Nat) (image : Bool) (sigs : List Sig), sigs ≠ [] →
    let w := s.readW key
    let W := ((sigs.filter (fun g => !g.fire)).map (fun g => if slByte w then g.bytes else g.val)).sum
    let V := if (∃ g ∈ sigs, g.fire = true) ∧ W ≤ slCount w then slCount w else W
    let put := fun n armed => s.writeW key (mkSlot n (slPrio w) (slByte w) armed)
    (slArmed w = true → V < slCount w → s.signalSlot cid f k key image sigs = put (slCount w - V) true) ∧
    (memWf s.mem = true → slArmed w = true → V = slCount w → s.stopping (s.ownerOf cid f) = false → (s.core cid).marks.contains (8 * f + k) = false →
      ∃ t, s.signalSlot cid f k key image sigs = t ∧ t.readW key = mkSlot 0 (slPrio w) (slByte w) false ∧
        8 * f + k ∈ (t.core cid).marks ∧
        (image = false → (t.core cid).ready = (s.core cid).ready ++ [{ level := slPrio w, f := f, slot := k }] ∧ (t.core cid).fill = (s.core cid).fill) ∧
        (image = true → (t.core cid).fill = (s.core cid).fill ++ [{ level := slPrio w, f := f, slot := k }] ∧ (t.core cid).ready = (s.core cid).ready) ∧
        t.faults = s.faults ∧ (∀ a, overlaps a 8 key 8 = false → t.olderAt a = (s.hand (.slot cid f k) (.entry cid f k)).olderAt a)) ∧
    (slArmed w = true → V = slCount w → s.stopping (s.ownerOf cid f) = false → (s.core cid).marks.contains (8 * f + k) = true →
      s.signalSlot cid f k key image sigs = put 0 true) ∧
    (memWf s.mem = true → slArmed w = true → V = slCount w → s.stopping (s.ownerOf cid f) = true → ∃ t, s.signalSlot cid f k key image sigs = t ∧
      t.readW key = mkSlot 0 (slPrio w) (slByte w) false ∧ t.cores = s.cores ∧ t.faults = s.faults ∧ t.net = s.net ∧
      ∀ a, (a < key ∨ key + 8 ≤ a) → t.byte a = s.byte a) ∧
    (slArmed w = true → slCount w < V → ∃ r, s.signalSlot cid f k key image sigs = (put (slCount w) false).addFault r ∧ r.kind = 2 ∧ r.code = 0x10 ∧
      r.inst = s.ownerOf cid f ∧ r.w2 = BitVec.ofNat 64 (mkSref cid f k)) ∧
    (slArmed w = false → ∃ rs, (s.signalSlot cid f k key image sigs) = { s with faults := s.faults ++ rs } ∧ rs.length = sigs.length ∧
      ∀ r ∈ rs, r.kind = 2 ∧ r.code = 0x11 ∧ r.inst = s.ownerOf cid f ∧ r.w2 = BitVec.ofNat 64 (mkSref cid f k))

namespace Sys2Proof.Claims

/-- The major of an instruction's encoding (R86). -/
def majorIn : Enc → Option Nat
  | .c m _ _ => some m
  | .w m _ _ => some m
  | .x m _ _ => some m
  | .event => none

end Sys2Proof.Claims

/-- O47. From R81, R90 to R166, in part: an instruction that works on registers alone always answers a next state (a fault of the manual is one),
and leaves memory and its poison, every packet, walk, command, launch and partition, the module and every other core as they were. -/
def Obligations.RegistersOnly : Prop :=
  ∀ (i : Instr) (s : State),
    (∃ m ∈ [0x00, 0x01, 0x02, 0x03, 0x04, 0x05, 0x06, 0x07, 0x10, 0x11, 0x13, 0x18, 0x19, 0x1A, 0x1B, 0x1C, 0x1D, 0x1E],
      Claims.majorIn (encOf i) = some m) →
    ∃ t, exec i s = .next t ∧ t.mem = s.mem ∧ t.poison = s.poison ∧ t.net = s.net ∧ t.walks = s.walks ∧ t.cmds = s.cmds ∧
      t.insts = s.insts ∧ t.parts = s.parts ∧ t.clusters = s.clusters ∧ t.dies = s.dies ∧ t.mgmt = s.mgmt ∧
      t.older = s.older ∧ t.heads = s.heads ∧ ∀ c, c ≠ s.cur.1 → t.core c = s.core c

namespace Sys2Proof.Claims

/-- A packet stands at its target and may be applied there. -/
def arrived (s : State) (k : Nat) (p : Packet) : Prop := s.packet k = some p ∧ mayApply s k p = true
/-- A core applies requests (R352, R368). -/
def opened (s : State) (cid : Nat) : Prop := (s.core cid).dead = false ∧ (s.core cid).saved = false

end Sys2Proof.Claims

/-- O48. From R175, R192 to R199, R219, in part: what a slot unit does with each request that has arrived. Signals are applied to their slot in one
cycle; an allocation takes a frame, writes it and answers with its FREF, or fails with code 0x13; an arming writes the slot word, or
makes a record of code 0x12 for a frame that is not allocated; a free clears the frame, or makes such a record; operand words are
written and read; a reply writes its word, signals and ends its command. A die agent forwards a request to a resident copy and
applies any other to the image. A request that names the local index of a resident copy is applied under the copy's spilled name, and
waits while the copy is being written back; a reply taken with the signals of a cycle leaves its word and ends its command too. What a
signal passes is gathered at its slot (R177, R244), and an ldf may read past a write that is not ordered before it (R246). A new frame's slot k
takes template k of its codeblock, and one that is armed with count 0 enters its queue at once (R172, R175, R193). Signals of the cycle of an
allocation that would overtake an earlier request of their core to the same frame are not taken with it (R192). A reply for a frame that is
being written back waits; what a reply passes is kept for a handler where a fault record lists its command (R363).
The model's own choices in it: log entries 7, 29, 70, and log entry 24 (a request to an image, and the image of a new spilled frame, take turns of
the die agent's at the image's page, R330). -/
def Obligations.FrameRequests : Prop :=
  (∀ (s : State) (cid f k : Nat) (ks : List Nat) (sigs : List Sig), ks ≠ [] → Claims.opened s cid → k < 8 → (s.localOf cid f).isSome = true →
    s.sigsOf (.core cid) (mkSref cid f k) ks = some sigs →
    (s.heldLocal cid f = true → exec (.signalArrival cid f k ks) s = .next s) ∧
    (s.heldLocal cid f = false → exec (.signalArrival cid f k ks) s =
      .next (((s.gatherAt cid (s.nameAt cid f) k ks).takeAll ks).signalSlot cid (s.nameAt cid f) k (s.slotKey cid f k) false sigs))) ∧
  (∀ (s : State) (cid f : Nat), (4096 ≤ f → s.nameAt cid f = f) ∧
    (f < 4096 → hdrCopy (s.readW (s.localKey cid f)) = false → s.nameAt cid f = f) ∧
    (f < 4096 → hdrCopy (s.readW (s.localKey cid f)) = true → s.residentOf cid (hdrHome (s.readW (s.localKey cid f))) = some f →
      s.nameAt cid f = 4096 + hdrHome (s.readW (s.localKey cid f)))) ∧
  (∀ (s : State) (k : Nat) (p : Packet), s.packet k = some p →
    (∀ r v b fire so, p.body = .signal r v b fire so → s.takePkt k = s.dropPacket k) ∧
    (∀ v poison, p.body = .reply v poison →
      s.takePkt k = ((s.dropPacket k).writeReply p.from_.cid p.from_.fref p.ret.ow v poison).endCmd k p)) ∧
  (∀ (s : State) (k : Nat) (p : Packet), s.endCmd k p = (s.keepFor p.cmd (fun e => e.bound.contains (.cover k))).finishCmd p.cmd 0 1 []) ∧
  (∀ (s : State) (cmd : Nat) (q : Older → Bool),
    ((∀ r ∈ s.faults, ∀ x ∈ r.cmds, x.1 ≠ cmd) → s.keepFor cmd q = s) ∧
    ((∃ r ∈ s.faults, ∃ x ∈ r.cmds, x.1 = cmd) → s.keepFor cmd q = s.bindTo (.cmd cmd) q)) ∧
  (∀ (s : State) (k n cid v b so : Nat) (p : Packet) (fire : Bool) (f j : Nat), Claims.arrived s k p → p.dst = .core cid → s.inOrder k [k] = true →
    s.srefAt n = s.srefAt (mkSref cid f j) → p.body = .signal n v b fire so →
    s.sigsOf (.core cid) (mkSref cid f j) [k] = some [{ val := v, bytes := b, fire := fire, from_ := p.from_, source := so }]) ∧
  (∀ (s : State) (k cid cb parent : Nat) (p : Packet), Claims.arrived s k p → p.dst = .core cid → Claims.opened s cid → s.inOrder k [] = true →
    p.body = .alloc cb parent →
    (∀ f, s.takeFrame cid = some f → s.frameTurn cid f = none → exec (.allocationRequest k []) s = .next s) ∧
    (∀ f i u, s.takeFrame cid = some f → s.inst p.from_.inst = some i → s.frameTurn cid f = some u → exec (.allocationRequest k []) s =
      .next ((((u.freshFrame cid f).dropPacket k).writeFrame cid f cb (BitVec.ofNat 64 parent) { inst := p.from_.inst, depth := i.depth, limit := i.limit } []).sendReply
        (if f < 4096 then .core cid else .agent (dieOf cid)) p (BitVec.ofNat 64 (mkFref cid f)) false)) ∧
    (s.takeFrame cid = none → exec (.allocationRequest k []) s = .next ((s.dropPacket k).failCmd p.cmd 0x13 0 []))) ∧
  (∀ (s : State) (cid f : Nat), (f < 4096 → s.frameTurn cid f = some s) ∧ (4096 ≤ f → s.frameTurn cid f = s.imageTurn cid (f - 4096))) ∧
  (∀ (s : State) (k cid cb parent f j : Nat) (p : Packet) (same : List Nat), Claims.arrived s k p → p.dst = .core cid → p.body = .alloc cb parent →
    s.takeFrame cid = some f → j ∈ same → (s.sigsTo cid f [j]).length = 1 →
    s.inOrder j (k :: (same.filter (fun j => (s.sigsTo cid f [j]).length == 1)).eraseDups) = false → exec (.allocationRequest k same) s = .next s) ∧
  (∀ (s : State) (cid f cb : Nat) (parent : Word) (o : Own) (sigs : List (Nat × Sig)), memWf s.mem = true → let t := s.writeFrame cid f cb parent o sigs
    let key := s.frameKey cid f
    t.readW key = mkHdr cb true false 0 0 ∧ t.readW (key + 8) = parent ∧ ((t.core cid).owners.get o f) = o ∧
      (∀ a, (a < key ∨ key + 80 ≤ a) → t.byte a = s.byte a) ∧
      (sigs = [] → ∀ k, k < 8 → let w := State.templateOf (s.part (s.partOf cid)).image cb k
        (slArmed w = false ∨ slCount w ≠ 0 → t.readW (key + 16 + 8 * k) = w) ∧
        (slArmed w = true → slCount w = 0 → s.stopping o.inst = false → (s.core cid).marks.contains (8 * f + k) = false →
          t.readW (key + 16 + 8 * k) = mkSlot 0 (slPrio w) (slByte w) false ∧
          { level := slPrio w, f := f, slot := k } ∈ (if 4096 ≤ f then (t.core cid).fill else (t.core cid).ready)))) ∧
  (∀ (s : State) (k cid r : Nat) (w : Word) (p : Packet), Claims.arrived s k p → p.dst = .core cid → Claims.opened s cid → s.inOrder k [] = true →
    p.body = .arm r w → (s.localOf cid (frefName r)).isSome = true →
    let f := s.nameAt cid (frefName r)
    let key := s.slotKey cid f (srefSlot r)
    (s.heldLocal cid (frefName r) = true → exec (.armingRequest k []) s = .next s) ∧
    (s.heldLocal cid (frefName r) = false → hdrAlloc (s.readW (s.frameKey cid f)) = true → exec (.armingRequest k []) s =
      .next (((s.passArming cid f (srefSlot r) k p).dropPacket k).armSlot cid f (srefSlot r) key false w [])) ∧
    (s.heldLocal cid (frefName r) = false → hdrAlloc (s.readW (s.frameKey cid f)) = false → exec (.armingRequest k []) s =
      .next (((s.passArming cid f (srefSlot r) k p).dropPacket k).faultRequest p.from_ 0x12))) ∧
  (∀ (s : State) (cid f k key : Nat) (w : Word), slArmed w = true → slCount w ≠ 0 → s.armSlot cid f k key false w [] = s.writeW key w) ∧
  (∀ (s : State) (k cid : Nat) (p : Packet), Claims.arrived s k p → p.dst = .core cid → Claims.opened s cid → s.inOrder k [] = true →
    p.body = .free →
    let f := s.nameAt cid (frefName p.target)
    let key := s.frameKey cid f
    let img := s.spillKey cid (f - 4096)
    let h := s.readW key
    (s.heldLocal cid (frefName p.target) = true → exec (.freeRequest k) s = .next s) ∧
    (s.heldLocal cid (frefName p.target) = false → hdrAlloc h = false ∨ hdrAsync h ≠ 0 → exec (.freeRequest k) s =
      .next ((s.dropPacket k).faultRequest p.from_ 0x12)) ∧
    (s.heldLocal cid (frefName p.target) = false → hdrAlloc h = true → hdrAsync h = 0 →
      (f < 4096 ∨ key = img → exec (.freeRequest k) s = .next (((s.dropPacket k).clearFrame key).discardFreed cid)) ∧
      (4096 ≤ f → key ≠ img → ∀ j, s.residentOf cid (f - 4096) = some j → exec (.freeRequest k) s =
        .next (((((s.dropPacket k).clearFrame key).clearFrame img).modCore cid (fun c => { c with late := (j, f) :: c.late })).discardFreed cid)))) ∧
  (∀ (s : State) (key : Nat), memWf s.mem = true → let t := s.clearFrame key
    hdrAlloc (t.readW key) = false ∧ hdrCb (t.readW key) = hdrCb (s.readW key) ∧ (∀ j, j < 8 → t.readW (key + 16 + 8 * j) = 0) ∧
      t.readW (key + 8) = s.readW (key + 8) ∧ ∀ a, (a < key ∨ key + 80 ≤ a) → t.byte a = s.byte a) ∧
  (∀ (s : State) (k cid u : Nat) (v : Word) (p : Packet), Claims.arrived s k p → p.dst = .core cid → Claims.opened s cid →
    let key := s.frameKey cid (frefName p.target) + 8 * u
    (p.body = .stf u v → exec (.stfRequest k) s = .next ((s.dropPacket k).storeN (writerOf k p) key 8 v.toNat)) ∧
    (p.body = .ldf u → s.inOrder k [] = true → s.poisoned key 8 = false → exec (.ldfRequest k) s =
      .next (((s.dropPacket k).saw (readerOf k p) key 8).sendReply (.core cid) p (s.seenW (readerOf k p) key) false)) ∧
    (p.body = .ldf u → s.inOrder k [] = true → s.poisoned key 8 = true → exec (.ldfRequest k) s = .next ((s.dropPacket k).failCmd p.cmd 0x21 0 []))) ∧
  (∀ (s : State) (k cid : Nat) (v : Word) (p : Packet), Claims.arrived s k p → p.dst = .core cid → Claims.opened s cid → p.body = .reply v false →
    let key := s.frameKey cid (frefName p.from_.fref) + 8 * p.ret.ow
    let u := (s.keepFor p.cmd (fun e => e.bound.contains (.cover k))).dropPacket k
    let w := if p.ret.ow = 0 then u else u.writeW key v
    let held := 4096 ≤ frefName p.from_.fref ∧ s.inWriteBack p.from_.cid (frefName p.from_.fref - 4096) = true
    (held → exec (.replyArrival k []) s = .next s) ∧
    (¬held → p.ret.slot = none → exec (.replyArrival k []) s = .next (w.finishCmd p.cmd 0 1 [])) ∧
    (∀ x, ¬held → p.ret.slot = some x → frefCore x ≠ cid → exec (.replyArrival k []) s =
      .next (((w.hand (.cover k) (.cover w.seq)).sendSignal (.core cid) p.from_ x 1 p.ret.bytes 1).finishCmd p.cmd 0 1 []))) ∧
  (∀ (s : State) (k d : Nat) (p : Packet), Claims.arrived s k p → p.dst = .agent d → 4096 ≤ frefName p.target →
    let cid := frefCore p.target
    let i := frefName p.target - 4096
    s.inWriteBack cid i = false → Claims.opened s cid →
    ((s.residentOf cid i).isSome = true → exec (.spilledRequestApply k) s = .next (s.setPacket k { p with src := .agent d, dst := .core cid })) ∧
    ((s.residentOf cid i).isSome = false →
      (s.imageRead cid i = none → exec (.spilledRequestApply k) s = .next s) ∧
      (∀ t, s.imageRead cid i = some t → t.mem = s.mem ∧ t.cores = s.cores ∧ t.net = s.net ∧ t.older = s.older ∧ exec (.spilledRequestApply k) s =
        .next (((t.gatherRequest k cid (frefName p.target) p).dropPacket k).applyFrameRequest k cid (frefName p.target) true (.agent d) p))))

/-- O49. From R37, R41, R88, R179 to R187, in part: a free context dispatches the entry that the levels and the starvation counter choose, with every
register at its value of R41 and the pc at the entry's address; a core whose partition is stopping, saving or saved dispatches
nothing; the entries of freed frames that reach the head of a level, or of the fill list, are discarded; a pattern that is no instruction counts as issued and ends the
firing; the head of the fill list takes the lowest free local frame, which the fill makes a resident copy with its entry queued, but
waits while a copy of its frame is being written back; a
copy without firings, queued slots or commands is written back, and its local frame is then free; a saved core does none of these.
The model's own choices in it: log entry 11 (an event whose conditions do not hold changes nothing), log entry 61 (an illegal pattern
leaves which context issued most recently as it was), log entry 7 (a fill and a write-back copy the newest bytes) and log entry 24 (each takes its
turns of the die agent's at the image's page, R330). -/
def Obligations.FiringsAndFills : Prop :=
  (∀ (s : State) (cid x : Nat), s.paceSettled cid = true → (s.stopped cid = true ∨ (s.core cid).saved = true) →
    exec (.dispatch cid x) s = .next (s.discardFreed cid)) ∧
  (∀ (s : State) (cid : Nat), (s.core cid).dead = true ∨ (s.core cid).saved = true → s.discardFreed cid = s) ∧
  (∀ (s : State) (cid : Nat), (∀ r ∈ (s.core cid).ready ++ (s.core cid).fill, s.entryLive cid r = true) → s.discardFreed cid = s) ∧
  (∀ (s : State) (cid : Nat), let t := s.discardFreed cid
    t.mem = s.mem ∧ t.net = s.net ∧ t.faults = s.faults ∧ (∀ c, c ≠ cid → t.core c = s.core c) ∧
    (∀ r ∈ (s.core cid).ready ++ (s.core cid).fill, s.entryLive cid r = true → r ∈ (t.core cid).ready ++ (t.core cid).fill) ∧
    ((s.core cid).ready.Nodup → Claims.opened s cid → ∀ n e, levelHead (t.readyOf cid) n = some e → s.entryLive cid e = true)) ∧
  (∀ (s : State) (cid x j st : Nat) (e : Ready), s.mayDispatch cid = true → (x = 0 ∨ x = 1 ∧ (s.core cid).ctx0.busy = true) →
    (State.ctxOf (s.core cid) x).busy = false → (∀ r ∈ (s.core cid).ready, s.entryLive cid r = true ∧ s.stopping (s.ownerOf cid r.f) = false) →
    (∀ r ∈ (s.core cid).fill, s.entryLive cid r = true) →
    choose (s.core cid).ready (s.core cid).starve = some (e, st) → s.localOf cid e.f = some j →
    let key := s.slotKey cid e.f e.slot
    let u := (s.hand (.entry cid e.f e.slot) (.firing s.seq)).modCore cid (fun c => { c with
      ready := c.ready.erase e, starve := st, marks := c.marks.filter (fun m => m != 8 * e.f + e.slot) })
    (slArmed (s.readW key) = false ∨ slCount (s.readW key) ≠ 0 → exec (.dispatch cid x) s =
      .next ((u.discardFreed cid).startFiring cid x j e)) ∧
    (slArmed (s.readW key) = true → slCount (s.readW key) = 0 →
      exec (.dispatch cid x) s = .next (((u.reachZero cid e.f e.slot key false).discardFreed cid).startFiring cid x j e))) ∧
  (∀ (s : State) (cid x j : Nat) (e : Ready), let t := s.startFiring cid x j e
    let o := (s.core cid).owners.get { inst := 0, depth := 0, limit := 0 } e.f
    State.ctxOf (t.core cid) x = { Ctx.init with
      busy := true, pc := BitVec.ofNat 64 (s.entryAddr (s.partOf cid) (hdrCb (s.readW (s.localKey cid j))) e.slot), fid := s.seq
      fref := mkFref cid e.f, frame := j, slot := e.slot, inst := o.inst, depth := o.depth, limit := o.limit } ∧
    t.mem = s.mem ∧ t.net = s.net ∧ t.faults = s.faults ∧ ∀ c, c ≠ cid → t.core c = s.core c) ∧
  (∀ (l : List Ready) (starve h : Nat), h < 8 → (∃ r ∈ l, r.level = h) → (∀ r ∈ l, r.level ≤ h) →
    (∀ e, l.find? (fun r => r.level == h) = some e → (∀ r ∈ l, r.level = h) → choose l starve = some (e, 0)) ∧
    (∀ e, l.find? (fun r => r.level == h) = some e → (∃ r ∈ l, r.level ≠ h) → starve ≠ 64 → choose l starve = some (e, starve + 1)) ∧
    (∀ g e, (∃ r ∈ l, r.level = g) → g < h → (∀ r ∈ l, r.level ≤ g ∨ r.level = h) → l.find? (fun r => r.level == g) = some e →
      choose l 64 = some (e, 0))) ∧
  (∀ (s : State) (code : BitVec 8), exec (.illegalPattern code) s =
    .next ((s.modCtx (fun k => { k with issued := k.issued + 1, ipc := k.pc })).takeFault code 0)) ∧
  (∀ (s : State) (cid : Nat) (e : Ready) (l : List Ready), let u := s.discardFreed cid
    Claims.opened s cid → (u.core cid).fill = e :: l → (u.core cid).filling = none →
    (u.inWriteBack cid (e.f - 4096) = true → exec (.fill cid) s = .next u) ∧
    (u.inWriteBack cid (e.f - 4096) = false → (u.residentOf cid (e.f - 4096)).isSome = false →
      ((List.range (u.frames (u.partOf cid))).find? (u.localFree cid) = none → exec (.fill cid) s = .next u) ∧
      (∀ j, (List.range (u.frames (u.partOf cid))).find? (u.localFree cid) = some j →
        exec (.fill cid) s = .next ((u.modCore cid (fun c => { c with fill := l, filling := some (j, e) })).discardFreed cid))) ∧
    (u.inWriteBack cid (e.f - 4096) = false → (u.residentOf cid (e.f - 4096)).isSome = true → exec (.fill cid) s =
      .next ((u.modCore cid (fun c => { c with
        fill := l, ready := c.ready ++ [{ e with level := slPrio (u.readW (u.slotKey cid e.f e.slot)) }] })).discardFreed cid))) ∧
  (∀ (s : State) (cid j : Nat), (s.core cid).saved = true →
    exec (.fill cid) s = .next s ∧ exec (.fillComplete cid) s = .next s ∧ exec (.writeBackStart cid j) s = .next s ∧
      exec (.writeBackComplete cid j) s = .next s) ∧
  (∀ (s : State) (cid j : Nat) (e : Ready), (s.core cid).filling = some (j, e) → (s.core cid).saved = false → memWf s.mem = true →
    let img := s.spillKey cid (e.f - 4096)
    let key := s.localKey cid j
    (s.imageRead cid (e.f - 4096) = none → exec (.fillComplete cid) s = .next s) ∧
    ∀ u, s.imageRead cid (e.f - 4096) = some u → hdrAlloc (s.readW img) = true → (img + 256 ≤ key ∨ key + 256 ≤ img) →
    ∃ t, exec (.fillComplete cid) s = .next t ∧ (t.core cid).filling = none ∧
      t.readW key = mkHdr (hdrCb (s.readW img)) true true (hdrAsync (s.readW img)) (e.f - 4096) ∧
      (∀ a, 8 ≤ a → a < 256 → t.byte (key + a) = s.byte (img + a)) ∧ (∀ a, (a < key ∨ key + 256 ≤ a) → t.byte a = s.byte a) ∧
      (t.core cid).ready = (s.core cid).ready ++ [{ e with level := slPrio (s.readW (img + 16 + 8 * e.slot)) }]) ∧
  (∀ (s : State) (cid j : Nat), let c := s.core cid
    let h := s.readW (s.localKey cid j)
    let f := 4096 + hdrHome h
    j < s.frames (s.partOf cid) → hdrCopy h = true → hdrAlloc h = true → hdrAsync h = 0 → c.dead = false → c.saved = false →
    (c.ctx0.busy = true → c.ctx0.frame ≠ j) → (c.ctx1.busy = true → c.ctx1.frame ≠ j) → (∀ e ∈ c.ready, e.f ≠ f) → j ∉ c.wback →
    (∀ x ∈ s.net, x.2.dst = .core cid → frefCore x.2.target = cid → frefName x.2.target ≠ f) →
    exec (.writeBackStart cid j) s = .next (s.modCore cid (fun c => { c with wback := c.wback ++ [j] }))) ∧
  (∀ (s : State) (cid j : Nat), j ∈ (s.core cid).wback → (s.core cid).saved = false → memWf s.mem = true →
    let key := s.localKey cid j
    let img := s.spillKey cid (hdrHome (s.readW key))
    (s.imageTurn cid (hdrHome (s.readW key)) = none → exec (.writeBackComplete cid j) s = .next s) ∧
    ∀ u, s.imageTurn cid (hdrHome (s.readW key)) = some u → (img + 256 ≤ key ∨ key + 256 ≤ img) →
    ∃ t, exec (.writeBackComplete cid j) s = .next t ∧ (t.core cid).wback = (s.core cid).wback.filter (· != j) ∧
      t.readW img = mkHdr (hdrCb (s.readW key)) true false 0 0 ∧ (∀ a, 8 ≤ a → a < 256 → t.byte (img + a) = s.byte (key + a)) ∧
      hdrAlloc (t.readW key) = false ∧ (∀ k, k < 8 → t.readW (key + 16 + 8 * k) = 0))

/-- O50. From R46, R152 to R167, in part: a queued matrix command starts where nothing before it in the queue blocks it; a started one that has done
its work leaves the queue with its effect and its completion (what its source bytes are is R156's: here no aligned word of them is
read as it stood before, so that every party sees these words as they are from then on, R250), or with a record of code 0x21 where an aligned word of them carries poison; mdrain writes a row at a time,
which clears the poison of each aligned word that the row covers whole; a tile on the cell ring lands in an
empty landing buffer, and moves into its latch once no command names the latch. A word of an outbound FIFO arrives at the neighbour.
What a row writes not every party need see before its signal (R246), which releases it.
The model's own choices in it: log entries 7, 19, log entry 62 (a word keeps its place in the outbound FIFO until it arrives, and while the neighbour is
dead or either core is in no partition or waits to be cleared) and log entry 21 (words pass between partitions). -/
def Obligations.MatrixAtWork : Prop :=
  (∀ (s : State) (cid m : Nat) (x : MCmd), s.mcmd cid m = some x → x.started = false → x.fences = [] → Claims.opened s cid →
    (∀ y ∈ (s.core cid).mq, mBlocks y x = false) →
    let k := coreKey cid (8 * (sourceWords x.op).1)
    let n := (sourceWords x.op).2
    let t := (s.saw (State.matReader x) k (8 * n)).modMcmd cid m (fun y => { y with
      started := true, src := s.seenBytes (State.matReader x) k (8 * n), pois := (List.range n).filter (fun i => s.poisoned (k + 8 * i) 8) })
    ((∀ l, x.op ≠ .mrot l) → exec (.matrixCommandStart cid m) s = .next t) ∧
    (∀ l, x.op = .mrot l → ∃ v p, exec (.matrixCommandStart cid m) s = .next v ∧ v.net = t.net.set t.seq p ∧ v.seq = t.seq + 1 ∧
      v.cores = t.cores ∧ v.mem = s.mem ∧ p.pos = .ready ∧ p.src = .core cid ∧ p.dst = .core (cellMate cid ((posOf cid + 1) % 8)) ∧
      p.ret = x.ret ∧ p.cmd = x.cmd ∧ p.from_ = x.from_ ∧
      p.body = .tile l ((List.range 3072).map (fun i => ((s.core cid).latch.get [] l).getD i 0))
        ((List.range 192).map (fun i => ((s.core cid).bscale.get [] l).getD i 0x7F)) m)) ∧
  (∀ (s : State) (cid m : Nat) (x : MCmd), s.mcmd cid m = some x → x.started = true → s.matrixDone cid x = true → Claims.opened s cid →
    let k := coreKey cid (8 * (sourceWords x.op).1)
    let n := (sourceWords x.op).2
    let t := ((List.range n).foldl (fun (t : State) i => t.publish (k + 8 * i) 8) s).modCore cid (fun c => { c with
      mq := c.mq.filter (fun y => y.seq != m) })
    (∀ i, i < n → s.readsOld x k i = false) →
    ((∀ i, i < n → s.poisoned (k + 8 * i) 8 = false) → exec (.matrixCommandFinish cid m) s =
      .next ((t.matrixEffect cid x (s.readBytes (coreKey cid (mSource x.op).1) (mSource x.op).2)).matrixComplete cid x)) ∧
    ((∃ i, i < n ∧ s.poisoned (k + 8 * i) 8 = true) →
      exec (.matrixCommandFinish cid m) s = .next (t.faultFor x.from_ x.cmd 0x21))) ∧
  (∀ (s : State) (cid : Nat) (x : MCmd) (bs : List Byte),
    (∀ t a l fa fb i j, x.op = .mma t a l fa fb → i < 16 → j < 16 →
      State.entry ((s.matrixEffect cid x bs).core cid) t i j = mmaEntry ((matMode fa fb).getD 0) (State.entry (s.core cid) t i j)
        (matRow fa (slice192 bs i) (slice12 (s.core cid).ascale i))
        (matRow fb (slice192 ((s.core cid).latch.get [] l) j) (slice12 ((s.core cid).bscale.get [] l) j))) ∧
    (∀ l a, x.op = .mlb l a → ((s.matrixEffect cid x bs).core cid).latch.get [] l = bs) ∧
    (∀ a, x.op = .mscl 0 a → ((s.matrixEffect cid x bs).core cid).ascale = bs) ∧
    (∀ n a, x.op = .mscl (n + 1) a → ((s.matrixEffect cid x bs).core cid).bscale.get [] n = bs) ∧
    (∀ t mode i j, x.op = .mzero t mode ∨ x.op = .mclear t mode → i < 16 → j < 16 →
      State.entry ((s.matrixEffect cid x bs).core cid) t i j = Spool.zero) ∧
    (s.matrixEffect cid x bs).mem = s.mem ∧ (s.matrixEffect cid x bs).net = s.net ∧ (s.matrixEffect cid x bs).faults = s.faults ∧
    ((s.matrixEffect cid x bs).core cid).mq = (s.core cid).mq) ∧
  (∀ (s : State) (cid m t addr fmt rm row0 n mode : Nat) (row clr : Bool) (x : MCmd), s.mcmd cid m = some x →
    x.op = .mdrain t addr fmt rm row0 n row clr mode → x.started = true → x.rows < n → (s.core cid).dead = false →
    let sz := drainSize fmt
    let key := coreKey cid (addr + x.rows * 16 * sz)
    let u := State.clearWritten (s.noted (State.matWriter x x.rows) key (16 * sz) ((List.range 16).foldl (fun (u : State) j =>
      u.writeN (coreKey cid (addr + x.rows * 16 * sz + j * sz)) sz (drainWord mode fmt rm (State.entry (s.core cid) t (row0 + x.rows) j) % 2 ^ (8 * sz)))
      s)) [(8 * key, 8 * (16 * sz))]
    let w := (if clr then u.modCore cid (fun c => { c with tiles := c.tiles.filter (fun e => e.1 / 16 != 16 * t + (row0 + x.rows)) }) else u).modMcmd
      cid m (fun y => { y with rows := y.rows + 1 })
    (row = false ∨ x.ret.slot = none ∨ x.rows + 1 = n → exec (.mdrainRow cid m) s = .next w) ∧
    (∀ r, row = true → x.ret.slot = some r → x.rows + 1 < n →
      exec (.mdrainRow cid m) s = .next ((w.bindTo (.cover w.seq) (fun e => e.by_ == 3 && e.num == x.seq && e.tag == x.rows)).sendSignal (.core cid)
        x.from_ (r + x.rows) 1 x.ret.bytes 1))) ∧
  (∀ (s : State) (k l rc sc m : Nat) (bs sc8 : List Byte) (p : Packet), s.packet k = some p → p.body = .tile l bs sc8 m → p.dst = .core rc →
    p.src = .core sc → (s.core rc).landing.get none l = none → Claims.opened s rc → (∀ y ∈ s.net, y.1 < k → y.2.dst = .core rc → ∀ bs sc m, y.2.body ≠ .tile l bs sc m) →
    exec (.mrotTileLands k) s = .next (((s.dropPacket k).modCore rc (fun c => { c with
      landing := c.landing.set l (some { bytes := bs, scales := sc8, cmd := p.cmd, from_ := p.from_, ret := p.ret }) })).modMcmd sc m
        (fun y => { y with landed := true }))) ∧
  (∀ (s : State) (cid l : Nat) (x : Landing), (s.core cid).landing.get none l = some x → Claims.opened s cid →
    (∀ m ∈ (s.core cid).mq, namesLatch l m.op = false) →
    exec (.landingMove cid l) s = .next ((s.modCore cid (fun c => { c with
      landing := c.landing.set l none, latch := c.latch.set l x.bytes, bscale := c.bscale.set l x.scales })).complete (.core cid) x.from_ x.ret
        x.cmd 1)) ∧
  (∀ (s : State) (cid dir : Nat) (w : Word) (q : List Word), dir < 4 → (s.core cid).outq.get [] dir = w :: q →
    let n := neighbour cid dir
    let r := (s.core n).inq.get [] (opposite dir)
    let settled := fun c => s.partOf c ≠ 64 ∧ (dieOf c, quarterOf (clusOf c)) ∉ (s.part (s.partOf c)).clearing
    ((s.core n).dead = true ∨ 16 ≤ r.length ∨ (s.core cid).saved = true ∨ ¬settled cid ∨ ¬settled n → exec (.portWordArrival cid dir) s = .next s) ∧
    (r.length < 16 → (s.core n).dead = false → (s.core cid).saved = false → settled cid → settled n → n ≠ cid →
    ∃ t, exec (.portWordArrival cid dir) s = .next t ∧ (t.core cid).outq.get [] dir = q ∧ (t.core n).inq.get [] (opposite dir) = r ++ [w] ∧
      t.mem = s.mem ∧ t.net = s.net ∧ ∀ c, c ≠ cid → c ≠ n → t.core c = s.core c))

namespace Sys2Proof.Claims

/-- A write that a fence of number n orders: its firing made it before the fence, or acquired it and made another before the fence (R244). -/
def beforeFence (s : State) (i : Issuer) (n : Nat) (e : Older) : Bool :=
  (e.fid == i.fid && decide (e.num ≤ n)) ||
    (e.bound.contains (.firing i.fid) && s.older.any (fun x => x.fid == i.fid && decide (x.num ≤ n)))
/-- What fences that let go of an access held it for (R229, R244). -/
def letGo (s : State) (i : Issuer) (l : List (Nat × Nat)) (e : Older) : Bool :=
  l.any (fun x => beforeFence s i x.1 e && !(s.beforePending i.fid i.cid x.1))
/-- What fences that let go of a signal pass with it, those whose scope holds its target (R229, R244). -/
def letGoWith (s : State) (p : Packet) (e : Older) : Bool :=
  p.fences.any (fun x => inScope p.from_.cid x.2 (scopeLoc p) && beforeFence s p.from_ x.1 e && !(s.beforePending p.from_.fid p.from_.cid x.1))

end Sys2Proof.Claims

/-- O51. From R202, R224 to R229, R246, R249, R250, R333 to R336, in part: what the owner of a place does with each request that has arrived. A load answers with the
extended bytes and their poison: of each aligned word the newest, or what a write left over that is not ordered before the load (R246),
and every party sees what it saw or later from then on (R250); a store writes and completes, an atomic writes the new value and answers with the old one, or fails
with code 0x21 on a poisoned word; a ring request answers with ok and the slot's address, and every party then sees the block's words as it
found them or later (R202, R250); a merged request applies its parts in order, as one write that every party sees at once (R226, R334),
or, for aspadd, merges the word once with the spool that the merge buffer formed, and its reply is split among them; an atomic at an
ordered-reduction unit without an armed entry goes to the unit that holds its word, and the last
of a round applies the round. A store ends every release sequence on its bytes, an atomic those whose scope its own does not contain, and a
strm or atomic that is a release heads one (R227, R249). A fence's hold ends, and a release leaves, once what it waits for is performed; a
signal that a fence has held passes what stands before the fence to a target in its scope (R229, R244).
The model's own choices in it: log entry 7 (fences and releases wait for accesses outside their scope too) and log entry 54 (the
poison of an RCB word). -/
def Obligations.MemoryRequests : Prop :=
  (∀ (s : State) (k z : Nat) (u : Bool) (p : Packet), Claims.arrived s k p → s.locOpen p.dst = true → p.body = .ldrm z u →
    exec (.ldrmRequest k) s = .next (((s.dropPacket k).saw (readerOf k p) p.lo z).sendReply p.dst p (extend z u (s.seenN (readerOf k p) p.lo z))
      (s.poisoned p.lo z))) ∧
  (∀ (s : State) (r : Reader) (k n a : Nat), s.seenWord r k n a = s.readN a 8 ∨ ∃ l1 e l2, s.olderAt a = l1 ++ e :: l2 ∧
    (∀ x ∈ l1 ++ [e], binds r x = false) ∧ s.seenWord r k n a = e.val) ∧
  (∀ (s : State) (r : Reader) (k n : Nat), (∀ e ∈ s.older, overlaps e.key 8 (k / 8 * 8) (k % 8 + n) = true → binds r e = true) →
    s.seenN r k n = s.readN k n) ∧
  (∀ (s : State) (r : Reader) (k n a : Nat) (e : Older), a ∈ wordsOf k n → (s.olderAt a)[s.passed r k n a]? = some e →
    (e.fid ≠ r.fid ∨ e.by_ ≠ 0 ∨ r.by_ ≠ 0) → (s.saw r k n).olderAt a = (s.olderAt a).take (s.passed r k n a)) ∧
  (∀ (s : State) (k z : Nat) (v : Word) (p : Packet), Claims.arrived s k p → s.locOpen p.dst = true → p.body = .strm z v →
    exec (.strmRequest k) s = .next ((((s.dropPacket k).storeN (writerOf k p) p.lo z (v.toNat % 2 ^ (8 * z))).leads k p true).completeFor
      (fun e => e.by_ == 1 && e.num == k) p.dst p.from_ p.ret p.cmd 1)) ∧
  (∀ (s : State) (w : Writer) (k n v : Nat), (∀ h, h ∈ (s.storeN w k n v).heads ↔ h ∈ s.heads ∧ overlaps h.key h.len k n = false) ∧
    ∀ a, a ∈ wordsOf k n → (s.storeN w k n v).olderAt a = { key := a, val := s.readN a 8, fid := w.fid, inst := w.inst, by_ := w.by_, num := w.num
                                                            tag := w.tag, lo := max k a, len := min (k + n) (a + 8) - max k a
                                                            spool := decide (n = 32 ∧ k % 32 = 0), bound := [] } :: s.olderAt a) ∧
  (∀ (s : State) (k : Nat) (p : Packet) (strm : Bool), let out := inScope p.from_.cid p.scope (scopeLoc p)
    (out = false ∨ p.sem = 1 ∨ (strm = false ∧ p.sem = 2) → s.leads k p strm = s) ∧
    (out = true → p.sem = 0 ∨ p.sem = 3 ∨ (strm = true ∧ p.sem = 2) →
      (s.leads k p strm).heads = { key := p.lo, len := p.len, cid := p.from_.cid, scope := p.scope, num := k } :: s.heads)) ∧
  (∀ (s : State) (k op z : Nat) (b : BitVec 256) (d : Word) (p : Packet) (h : Head), p.len = z → h.num ≠ k →
    (h ∈ (s.atomicOn k p op z b d).1.heads ↔ h ∈ s.heads ∧ (overlaps h.key h.len p.lo p.len = true →
      h.scope ≤ p.scope ∧ inScope p.from_.cid p.scope (.core h.cid) = true))) ∧
  (∀ (s : State) (k op z : Nat) (b : BitVec 256) (d : Word) (p : Packet), Claims.arrived s k p → s.locOpen p.dst = true →
    p.body = .atomic op z b d [] → s.toUnit p op = false →
    let m := s.readN p.lo z
    let u := s.dropPacket k
    let old := extend z (op == 3 || op == 4 || op == 10) m
    (s.poisoned p.lo z = true → exec (.atomicRequest k) s = .next (u.failCmd p.cmd 0x21 0 [])) ∧
    let put := fun (v : Nat) => u.atomicOrder k p ((u.publish p.lo z).storeN (writerOf k p) p.lo z v)
    let covered := fun (e : Older) => e.bound.contains (.cover k)
    (s.poisoned p.lo z = false → op < 11 → p.ret.ow ≠ 0 → exec (.atomicRequest k) s =
      .next (((put (atomicNew op z m b.toNat d.toNat)).hand (.cover k) (.cover (put (atomicNew op z m b.toNat d.toNat)).seq)).sendReply p.dst p old
        false)) ∧
    (s.poisoned p.lo z = false → op < 11 → p.ret.ow = 0 → exec (.atomicRequest k) s =
      .next ((put (atomicNew op z m b.toNat d.toNat)).completeFor covered p.dst p.from_ p.ret p.cmd 1)) ∧
    (s.poisoned p.lo z = false → op = 11 → p.ret.ow = 0 → exec (.atomicRequest k) s =
      .next ((put (bitsOfSpool (spoolMerge (spoolOfBits (BitVec.ofNat 256 m)) (spoolOfBits b) false)).toNat).completeFor covered p.dst
        p.from_ p.ret p.cmd 1))) ∧
  (∀ (s : State) (k op n sz : Nat) (base : Word) (p : Packet), Claims.arrived s k p → s.locOpen p.dst = true →
    s.inOrder k [] = true → p.body = .ring op n sz base → ∀ t ok addr,
    ((s.dropPacket k).publish p.lo 40).ringOp p.lo op n sz base = (t, ok, addr) →
    exec (.ringRequest k) s = .next ((t.ringPass k op ok p).sendReply p.dst p
      (BitVec.ofNat 64 ((if ok then 0x8000000000000000 else 0) + addr.toNat % 0x1000000000000)) false)) ∧
  (∀ (s : State) (key n sz : Nat) (base : Word), let w := fun j => s.readW (key + 8 * j)
    let n' := (w 1).toNat / 16 % 2 ^ 16
    let sz' := (w 1).toNat % 16
    let size := 8 * 2 ^ sz'
    (1 ≤ n' → sz' ≤ 13 → (w 3 - w 2).toNat < n' → s.ringOp key 1 n sz base =
      (s.writeW (key + 24) (w 3 + 1), true, w 0 + BitVec.ofNat 64 ((w 3).toNat % n' * size))) ∧
    (n' ≤ (w 3 - w 2).toNat → s.ringOp key 1 n sz base = (s, false, 0)) ∧
    ((w 4).toNat < (w 3).toNat → s.ringOp key 2 n sz base = (s.writeW (key + 32) (w 4 + 1), true, 0)) ∧
    ((w 3).toNat ≤ (w 4).toNat → s.ringOp key 2 n sz base = (s, false, 0)) ∧
    (1 ≤ n' → sz' ≤ 13 → (w 2).toNat < (w 4).toNat → s.ringOp key 3 n sz base =
      (s, true, w 0 + BitVec.ofNat 64 ((w 2).toNat % n' * size))) ∧
    ((w 4).toNat ≤ (w 2).toNat → s.ringOp key 3 n sz base = (s, false, 0) ∧ s.ringOp key 4 n sz base = (s, false, 0)) ∧
    ((w 2).toNat < (w 4).toNat → s.ringOp key 4 n sz base = (s.writeW (key + 16) (w 2 + 1), true, 0)) ∧
    (s.ringOp key 0 n sz base).2 = (true, 0)) ∧
  (∀ (s : State) (k op z : Nat) (b : BitVec 256) (d : Word) (xs : List Nat) (p : Packet), s.packet k = some p → p.pos = .ready →
    s.locOpen p.dst = true → p.body = .atomic op z b d xs → xs ≠ [] →
    (∀ y ∈ s.partsOf xs, ∀ q ∈ s.net, q.1 < y.1 → q.2.outb = true → q.2.from_.fid = y.2.from_.fid →
      (q.2.ord = y.2.ord ∨ overlaps q.2.lo q.2.len y.2.lo y.2.len = true) → xs.contains q.1 = true) →
    (s.poisoned p.lo z = false → op ≠ 11 → ∀ t olds, (s.dropPacket k).applyParts (s.partsOf xs) = (t, olds) → ∃ q, q.dst = p.src ∧
      q.body = .oldValues olds ∧ exec (.mergedAtomicApply k) s = .next ((t.publish p.lo z).send q)) ∧
    (s.poisoned p.lo z = false → op = 11 → ∃ q, q.dst = p.src ∧ q.body = .oldValues ((s.partsOf xs).map (fun y => (y.1, 0))) ∧
      exec (.mergedAtomicApply k) s = .next (((s.partsOf xs).foldl (fun (t : State) y => t.atomicOrder y.1 y.2 t) { (s.dropPacket k).writeN p.lo 32
        (bitsOfSpool (spoolMerge (spoolOfBits (BitVec.ofNat 256 (s.readN p.lo 32))) (spoolOfBits b) false)).toNat with heads := s.heads }).send q)) ∧
    (s.poisoned p.lo z = true → exec (.mergedAtomicApply k) s =
      .next ((s.partsOf xs).foldl (fun t y => (t.dropPacket y.1).failCmd y.2.cmd 0x21 0 []) (s.dropPacket k)))) ∧
  (∀ (s : State) (j op z : Nat) (b : BitVec 256) (d : Word) (ys : List Nat) (p : Packet) (l : List (Nat × Packet)), op < 11 →
    p.body = .atomic op z b d ys →
    let t := s.atomicOrder j p ((s.publish p.lo z).storeN (writerOf j p) p.lo z (atomicNew op z (s.readN p.lo z) b.toNat d.toNat))
    s.applyParts ((j, p) :: l) = ((t.applyParts l).1, (j, extend z (op == 3 || op == 4 || op == 10) (s.readN p.lo z)) :: (t.applyParts l).2)) ∧
  (∀ (s : State) (k j : Nat) (v : Word) (p q : Packet), s.packet k = some p → p.pos = .ready → p.body = .oldValues [(j, v)] → j ≠ k →
    s.packet j = some q → exec (.mergedReplySplit k) s = .next (((s.dropPacket k).dropPacket j).atomicReply j (.core q.from_.cid) q v)) ∧
  (∀ (s : State) (k op z die : Nat) (b : BitVec 256) (d : Word) (p : Packet), Claims.arrived s k p → p.body = .atomic op z b d [] →
    p.dst = .ordUnit die →
    (s.armedFor die p.lo = none → exec (.orderedReductionRequest k) s = .next (s.setPacket k { p with dst := s.unitOf p.lo })) ∧
    (∀ i o, s.armedFor die p.lo = some (i, o) →
      let t := (s.setPacket k { p with pos := .kept }).modDie die (fun e => { e with ord := e.ord.set i { o with got := o.got ++ [k] } })
      (o.got.length + 1 ≠ o.n → exec (.orderedReductionRequest k) s = .next t) ∧
      (o.got.length + 1 = o.n → exec (.orderedReductionRequest k) s = .next (t.orderedRound die i)))) ∧
  (∀ (s : State) (k : Nat) (p : Packet), s.packet k = some p →
    let left := p.fences.filter (fun x => s.beforePending p.from_.fid p.from_.cid x.1)
    ((∀ r v b fire so, p.body ≠ .signal r v b fire so) →
      exec (.fenceRelease k) s = .next ((s.bindTo (.work k) (Claims.letGo s p.from_ p.fences)).setPacket k { p with fences := left })) ∧
    (∀ r v b fire so, p.body = .signal r v b fire so → exec (.fenceRelease k) s = .next
      (((s.bindTo (.work k) (Claims.letGo s p.from_ p.fences)).bindTo (.cover k) (Claims.letGoWith s p)).setPacket k { p with fences := left }))) ∧
  (∀ (s : State) (k : Nat) (w : Walk), s.packet k = none → s.walks.find? (fun x => x.1 == k) = some (k, w) →
    exec (.fenceRelease k) s = .next { s.bindTo (.work k) (Claims.letGo s w.from_ w.fences) with walks := s.walks.set k { w with
      fences := w.fences.filter (fun x => s.beforePending w.from_.fid w.from_.cid x.1) } }) ∧
  (∀ (s : State) (k : Nat) (p : Packet), s.packet k = some p →
    (p.rel = true → relPending s k p = false → exec (.releaseSignalSend k) s = .next (s.setPacket k { p with rel := false })) ∧
    (p.rel = true → relPending s k p = true → exec (.releaseSignalSend k) s = .next s)) ∧
  (∀ (s : State) (d n key : Nat), locOfKey key = .dieSpad d n →
    (isSplit (s.liveRegion.get 0 d) = false → s.unitOf key = .dieSpad d n) ∧
    (isSplit (s.liveRegion.get 0 d) = true → s.unitOf key = .dieSpad d (key % 2 ^ 28 / 2 ^ 26 * 8 + key / 256 % 8))) ∧
  (∀ (s : State) (k : Nat) (p x : Packet) (j : Nat), relPending s k p = true ∧ p.relLen ≠ 0 ∧ s.net = [(j, x)] ∧ armFirst x p = false →
    (∀ z u, x.body ≠ .ldrm z u) ∧ (∀ u, x.body ≠ .ldf u) ∧ overlaps (s.bytesAt x) x.len p.relLo p.relLen = true)

namespace Sys2Proof.Claims

/-- A packet of moves of walk n that has arrived, and that begins with the move that a list names first, where it names one. -/
def nextMoves (s : State) (n : Nat) (ms : List Nat) (q : Packet) : Bool :=
  s.movesReady n q && (match q.body with
    | .moves _ _ _ es => ms.isEmpty || (match ms, es with | m :: _, y :: _ => y.move == m | _, _ => false)
    | _ => false)
/-- What a translation that reads both entries on the walk's own die, or has received them, leaves of the older values (R250). -/
def sawBoth (s : State) (n : Nat) (w : Walk) (ra a : Nat) : State :=
  let own := fun (t : State) x => if x / 2 ^ 36 = dieOf w.from_.cid then t.saw (State.walkReader n w) (hbmKey x) 8 else t
  own (own s ra) a

end Sys2Proof.Claims

/-- O52. From R233 to R240, R246, R308 to R312, in part: the first command of a cluster's queue that may start goes to the lowest free engine; a
translation reads the root entry and the page entry, or takes a version that the die's walkers hold, or words that pinned
entries have had, and asks the page's channel, or ends the walk with code 0x22; what lies on another die is asked by a packet. Tile T has root entry T / 4096 and page entry T mod 4096 of its leaf, whose die and page number are the page's address (R306, R308). A group of moves whose tiles the leases cover and whose pages are
translated and started leaves as a request to its source; a tile without a lease ends the walk with code 0x20, and a bound port that is not live
with code 0x38. The source reads each aligned word once and answers the engine, the engine sends the elements on, and the destination
takes them, each step that of the first packet that has arrived; what stood there before may still be read until the walk's signals release it (R246); a poisoned source word ends a twq with code
0x21. The signal of a run, which releases the run's writes, leaves when its elements are moved and copied; after every move and signal
the final signal leaves and the command ends with its
element count; twcan stops the walks that name its slot, once every copy holds what they wrote, and its word waits while a copy of its frame is being
written back; that of a dead core is refused its answer; a copy takes a replicated write, in the order of the writes to its word. Walkers and sources may read what stood before a write that is not ordered before them (R246). Reads of
entries, groups of moves and replicated writes wait for a channel that may start them (R344), and a
replicated write waits while its page is migrated (R315).
The model's own choices in it: log entries 7, 22, 25, 35, 57 (the three packets of a group of moves), 66 (a twcan matches the commands
that there are when the engines answer) and 72 (a write by address waits for the migration). -/
def Obligations.WalksAtWork : Prop :=
  (∀ (s : State) (clid n e : Nat) (w : Walk), (s.cluster clid).walkq.find? s.walkMayStart = some n → s.walk n = some w →
    e < 4 → (∀ x ∈ s.walks, x.2.engine = e → clidOf x.2.from_.cid ≠ clid) → (∀ d, d < e → ∃ x ∈ s.walks, x.2.engine = d ∧ clidOf x.2.from_.cid = clid) →
    exec (.walkStart clid n) s = .next (({ s with walks := s.walks.set n { w with engine := e } }).modCluster clid
      (fun q => { q with walkq := q.walkq.filter (· != n) }))) ∧
  (∀ (s : State) (n tile choice : Nat) (w : Walk), s.walk n = some w → w.engine ≠ 4 → w.stop = false → (∀ t ∈ w.trans, t.tile ≠ tile) →
    s.walkTouches w tile = true → (∀ x ∈ s.net, State.isTable x.2 n = true → s.tableReady x.2 = false) →
    let x := s.tileTens w tile
    let own := dieOf w.from_.cid
    let p := w.from_.part
    let lost (v : State) : Out := .next ((v.dropWalk n w).failCmd w.cmd 0x22 (walkProgress w) (walkExt w))
    let used (c : Cached) (v : State) : Prop :=
      ((∃ ra r a, State.rootAddr x.2.1 x.2.2 = some ra ∧ s.entryWaits w ra = false ∧ s.tableEntry n w ra = some r ∧
        s.leafAddr p r x.2.2 = some a ∧ s.entryWaits w a = false ∧ s.tableEntry n w a = some c.word ∧ c = { part := p, tid := x.1, tile := x.2.2, addr := a, word := c.word } ∧
        v = Claims.sawBoth s n w ra a) ∧ choice = 0) ∨
      (∃ k, choice = k + 1 ∧ (s.cachedFor own p x.1 x.2.2)[k]? = some c ∧ v = s) ∨
      (∃ k ra r a e, choice = (s.cachedFor own p x.1 x.2.2).length + 1 + k ∧ State.rootAddr x.2.1 x.2.2 = some ra ∧ s.entryWaits w ra = false ∧
        s.tableEntry n w ra = some r ∧ s.leafAddr p ((s.versions p ra r).getD (k % 16) r) x.2.2 = some a ∧ s.entryWaits w a = false ∧
        s.tableEntry n w a = some e ∧
        c = { part := p, tid := x.1, tile := x.2.2, addr := a, word := (s.versions p a e).getD (k / 16) e } ∧ v = Claims.sawBoth s n w ra a)
    s.leased w.from_.inst x.1 x.2.2 (State.writesTensor w) = true →
    (choice = 0 → State.rootAddr x.2.1 x.2.2 = none → exec (.walkTranslation n tile choice) s = lost s) ∧
    (∀ ra r, choice = 0 → State.rootAddr x.2.1 x.2.2 = some ra → s.entryWaits w ra = false → s.tableEntry n w ra = some r →
      s.leafAddr p r x.2.2 = none → exec (.walkTranslation n tile choice) s =
        lost (if ra / 2 ^ 36 = own then s.saw (State.walkReader n w) (hbmKey ra) 8 else s)) ∧
    (∀ ra, choice = 0 → State.rootAddr x.2.1 x.2.2 = some ra → s.entryWaits w ra = true → exec (.walkTranslation n tile choice) s = .next s) ∧
    (∀ c v, used c v → s.pageOf p c.word = none → exec (.walkTranslation n tile choice) s = lost v) ∧
    (∀ c v pg repl, used c v → s.pageOf p c.word = some (pg, repl) →
      let page := if repl then own * 2 ^ 36 + pg % 2 ^ 36 else pg
      ∃ t, exec (.walkTranslation n tile choice) s = .next t ∧
        t.walk n = some { w with trans := w.trans ++ [{ tile := tile, page := page, repl := repl, started := false }], tabs := w.tabs.erase c.addr } ∧
        (page / 2 ^ 36 = own → t.net = s.net ∧ (t.die own).hbmq = (s.die own).hbmq ++
          [{ ch := page / 2 ^ 16 % 32, quarter := quarterOf (clusOf w.from_.cid), walk := n, tile := tile }]) ∧
        (page / 2 ^ 36 ≠ own → (∀ d, (t.die d).hbmq = (s.die d).hbmq) ∧ ∃ q, q.body = .pageAsk n tile ∧ q.src = .core w.from_.cid ∧
          q.dst = State.pageLoc page ∧ q.bulk = true ∧ t.net = (s.send q).net) ∧
        (s.pins c.part c.tid c.tile = 0 → (t.die own).cache = (s.die own).cache) ∧
        (s.pins c.part c.tid c.tile ≠ 0 → (t.die own).cache.head? = some c) ∧ t.mem = s.mem ∧ t.older = v.older) ∧
    (∀ ra, choice = 0 → State.rootAddr x.2.1 x.2.2 = some ra → s.tableEntry n w ra = none →
      (∀ y ∈ s.net, State.isTable y.2 n = false) → s.inFlight own (State.portOf ra) < 64 →
      ∃ q, q.body = .tableRead n ra ∧ q.src = .core w.from_.cid ∧ q.dst = State.pageLoc ra ∧ q.bulk = true ∧
        exec (.walkTranslation n tile choice) s = .next (s.send q))) ∧
  (∀ (s : State) (p tile : Nat) (x : Tens) (e : Word), let v := e.toNat
    (∀ a, State.rootAddr x tile = some a ↔ tile / 4096 < x.nroot ∧ a = x.root + 8 * (tile / 4096)) ∧
    (∀ a, s.leafAddr p e tile = some a ↔ v % 2 = 1 ∧ v / 2 % 2 ^ 14 = 0 ∧ v / 2 ^ 40 = 0 ∧ s.hbmIn p (v / 2 ^ 15 * 2 ^ 15) = true ∧
      a = v / 2 ^ 15 * 2 ^ 15 + 8 * (tile % 4096)) ∧
    (∀ a repl, s.pageOf p e = some (a, repl) ↔ v % 2 = 1 ∧ v / 8 % 2 ^ 13 = 0 ∧ v / 2 ^ 40 = 0 ∧ s.hbmIn p a = true ∧
      a = v / 2 ^ 16 % 16 * 2 ^ 36 + v / 2 ^ 20 * 2 ^ 16 ∧ (repl = true ↔ v / 2 % 2 = 1))) ∧
  (∀ (s : State) (w : Walk) (r : Trans) (e : Nat), s.pagePlace w r e =
    (hbmKey r.page, (tileOf (s.walkTens w) ((coordsOf w e).map Int.toNat)).2 * elemBits (s.walkTens w).fmt)) ∧
  (∀ (s : State) (w : Walk) (a : Nat), s.entryWaits w a = true ↔
    a / 2 ^ 36 = dieOf w.from_.cid ∧ s.channelOpen (a / 2 ^ 36) (a / 2 ^ 16 % 32) (a % 2 ^ 36 / 2 ^ 34) = false) ∧
  (∀ (s : State) (p : Packet), (s.tableReady p = true ↔ p.pos = .ready ∧ ∀ n a, p.body = .tableRead n a → s.channelFor p = true) ∧
    (∀ d ch, p.dst = .hbm d ch → s.channelFor p = s.channelOpen d ch (s.shareQ p.from_.part d)) ∧
    ((∀ d ch, p.dst ≠ .hbm d ch) → s.channelFor p = true) ∧
    (∀ n m stage tile es, p.body = .moves m stage tile es →
      (s.movesReady n p = true ↔ m = n ∧ p.pos = .ready ∧ (stage = 1 ∨ s.locOpen p.dst = true ∧ s.channelFor p = true)))) ∧
  (∀ (s : State) (n k a : Nat) (v : Word) (p : Packet), s.net.find? (fun x => State.isTable x.2 n && s.tableReady x.2) = some (k, p) →
    (∀ w c, p.body = .tableRead n a → p.src = .core c → s.walks.find? (fun x => x.1 == n) = some (n, w) → let r := State.walkReader n w
      ∃ q, q.body = .tableWord n a (s.seenW r (hbmKey a)) ∧ q.src = p.dst ∧ q.dst = p.src ∧
      exec (.walkTranslation n 0 0) s = .next (((s.dropPacket k).saw r (hbmKey a) 8).send q)) ∧
    (∀ c d ch tile, p.body = .pageAsk n tile → p.src = .core c → p.dst = .hbm d ch → exec (.walkTranslation n 0 0) s =
      .next ((s.dropPacket k).modDie d (fun x => { x with
        hbmq := x.hbmq ++ [{ ch := ch, quarter := quarterOf (clusOf p.from_.cid), walk := n, tile := tile }] }))) ∧
    (∀ w, p.body = .tableWord n a v → s.walk n = some w →
      exec (.walkTranslation n 0 0) s = .next ((s.dropPacket k).setWalk n { w with tabs := w.tabs.set a v }))) ∧
  (∀ (s : State) (n m : Nat) (ms : List Nat) (w : Walk), s.walk n = some w → w.engine ≠ 4 → w.stop = false →
    m < walkTargets w * walkElems w → m ∉ w.going → (∀ x ∈ s.net, s.movesReady n x.2 = false) →
    let e := m % walkElems w
    let t := m / walkElems w
    let tiles := s.moveTiles w e
    let wr := State.writesTensor w
    let covered := ∀ tl ∈ tiles, s.leased w.from_.inst (s.tileTens w tl).1 (s.tileTens w tl).2.2 wr = true
    let live := ∀ tl ∈ tiles, ∀ r, State.pageReady w tl = some r → r.repl = true → wr = true →
      ∀ i ∈ s.boundPorts w.from_.part, i ∈ s.mgmt.up ∧ i ∈ s.mgmt.back
    (¬covered → exec (.walkMove n (m :: ms)) s = .next ((s.dropWalk n w).failCmd w.cmd 0x20 (walkProgress w) (walkExt w))) ∧
    (covered → ¬live → exec (.walkMove n (m :: ms)) s = .next ((s.dropWalk n w).failCmd w.cmd 0x38 (walkProgress w) (walkExt w))) ∧
    (covered → live → (∀ tl ∈ tiles, (State.pageReady w tl).isSome = true) → (wr = true → ∀ tl ∈ tiles, s.pageHeld w tl = false) →
      (subByte (s.walkTens w).fmt = true → w.kind ≠ 5 → e ≠ 0 → m - 1 ∈ w.going) →
      ∀ tl, tiles.head? = some tl →
      let unit := s.spadLoc w t e
      let es := if w.kind = 5 then (blockOf w m).2 else s.gather tl t unit w (2048 / elemBits (s.walkTens w).fmt) (m :: ms)
      ∀ l, (if wr then unit else (State.pageReady w tl).map (fun r => State.pageLoc r.page)) = some l →
      ∃ q, q.body = .moves n 0 tl (es.map (fun x => { move := x, val := 0, pois := [] })) ∧ q.src = .core w.from_.cid ∧ q.dst = l ∧ q.bulk = true ∧
        exec (.walkMove n (m :: ms)) s = .next ((s.setWalk n { w with going := es.foldl (fun g x => insertNat x g) w.going }).send q))) ∧
  (∀ (s : State) (n k tile m : Nat) (w : Walk) (p : Packet) (ms : List Nat) (y : Elem), s.walk n = some w → w.stop = false →
    s.net.find? (fun x => Claims.nextMoves s n ms x.2) = some (k, p) → y.move = m →
    let t := m / walkElems w
    let e := m % walkElems w
    let fmt := (s.walkTens w).fmt
    let nb := elemBits fmt
    (p.body = .moves n 0 tile [y] → State.writesTensor w = true →
      let r := s.readElem n w (s.spadKey w t e) (spadBit w fmt e) (spadBits w fmt)
      ∃ q, q.body = .moves n 1 tile [{ move := m, val := r.2.1, pois := r.2.2 }] ∧ q.src = p.dst ∧ q.dst = .core w.from_.cid ∧
        exec (.walkMove n ms) s = .next ((((s.sawLatched n w r.1).dropPacket k).setWalk n r.1).send q)) ∧
    (∀ tr, p.body = .moves n 0 tile [y] → State.writesTensor w = false → State.pageReady w tile = some tr → State.pageLoc tr.page = p.dst →
      let r := s.readElem n w (s.pagePlace w tr e).1 (s.pagePlace w tr e).2 nb
      ∃ q, q.body = .moves n 1 tile [{ move := m, val := r.2.1, pois := r.2.2 }] ∧ q.src = p.dst ∧ q.dst = .core w.from_.cid ∧
        exec (.walkMove n ms) s = .next ((((s.sawLatched n w r.1).dropPacket k).setWalk n r.1).send q)) ∧
    (∀ l ys, p.body = .moves n 1 tile (y :: ys) → w.kind ≠ 5 →
      (if State.writesTensor w then (State.pageReady w tile).map (fun r => State.pageLoc r.page) else s.spadLoc w t e) = some l →
      ∃ q, q.body = .moves n 2 tile (y :: ys) ∧ q.dst = l ∧ exec (.walkMove n ms) s = .next ((s.dropPacket k).send q)) ∧
    (p.body = .moves n 1 tile [y] → w.kind = 5 → (∃ b ∈ y.pois, b = true) →
      exec (.walkMove n ms) s = .next (((s.dropPacket k).dropWalk n w).failCmd w.cmd 0x21 (walkProgress w) (walkExt w))) ∧
    (∀ tr, p.body = .moves n 2 tile [y] → State.writesTensor w = true → tile < 2 ^ 24 → State.pageReady w tile = some tr → tr.repl = false →
      8 ≤ nb → s.written w 0 m = false → (∀ b ∈ y.pois, b = false) →
      let pl := s.pagePlace w tr m
      let u := (s.dropPacket k).keepOlds (tr.page + pl.2 / 8) (spanOfBits pl.2 nb)
      exec (.walkMove n ms) s = .next (((u.noted (State.walkWriter n w m) (pl.1 + pl.2 / 8) (spanOfBits pl.2 nb) (u.writeN (pl.1 + pl.2 / 8) (nb / 8)
        y.val)).clearWritten [(8 * pl.1 + pl.2, nb)]).setWalk n { w with moved := insertNat m w.moved })) ∧
    (p.body = .moves n 2 tile [y] → State.writesTensor w = false → 8 ≤ nb → s.written w t e = false → (∀ b ∈ y.pois, b = false) →
      let key := s.spadKey w t e
      let off := spadBit w fmt e
      let u := s.dropPacket k
      exec (.walkMove n ms) s = .next (((u.noted (State.walkWriter n w m) (key + off / 8) (spanOfBits off nb) (u.writeN (key + off / 8) (nb / 8)
        y.val)).clearWritten [(8 * key + off, nb)]).setWalk n { w with moved := insertNat m w.moved }))) ∧
  (∀ (s : State) (n : Nat) (w : Walk) (key z : Nat), w.buf = [] → z ∈ [1, 2, 4, 8] → key % z = 0 →
    let k := key / 8 * 8
    let v := s.seenW (State.walkReader n w) k
    s.readElem n w key 0 (8 * z) =
      ({ w with buf := [(k, (v, s.poisoned k 8))] }, v.toNat / 256 ^ (key % 8) % 256 ^ z, [s.poisoned k 8])) ∧
  (∀ (s : State) (n j r t : Nat) (w : Walk), s.walk n = some w → w.engine ≠ 4 → w.stop = false → j < 5 → t < walkTargets w →
    let l := w.levels.getD j default
    let es := State.runElems w j r
    l.sig = true → (r + 1) * es.length ≤ walkElems w → (j, r, t) ∉ w.sent →
    (w.copies = 0 → (∀ e ∈ es, t * walkElems w + e ∈ w.moved) → (w.kind = 5 → ∀ e ∈ es, (blockOf w e).1 = e → e ∈ w.scaled) →
      exec (.dimensionEndSignal n j r t) s =
      .next (((s.setWalk n { w with sent := w.sent ++ [(j, r, t)] }).bindTo (.cover s.seq) (fun e => e.by_ == 2 && e.num == n &&
        es.contains (e.tag - t * walkElems w) && decide (t * walkElems w ≤ e.tag))).sendSignal (.core w.from_.cid) w.from_
        (if w.kind = 2 then mkSref (targetCore w t) (frefName l.sref) (srefSlot l.sref) else l.sref) 1 (s.bytesOf w es.length) 1)) ∧
    (w.copies ≠ 0 ∨ (∃ e ∈ es, t * walkElems w + e ∉ w.moved) → exec (.dimensionEndSignal n j r t) s = .next s)) ∧
  (∀ (s : State) (n : Nat) (w : Walk), s.walk n = some w → w.engine ≠ 4 → w.stop = false →
    w.moved.length = walkTargets w * walkElems w → w.copies = 0 → State.allSent w = true →
    State.scalesDone w (List.range (walkElems w)) = true → (w.finals = 0 → s.signalsOut w = false) →
    let u := match w.ret.slot with
      | none => s
      | some r => (s.bindTo (.cover s.seq) (fun e => e.by_ == 2 && e.num == n)).sendSignal (.core w.from_.cid) w.from_
        (if w.kind = 2 then mkSref (targetCore w w.finals) (frefName r) (srefSlot r) else r) 1 (s.bytesOf w (walkElems w)) 1
    (w.finals + 1 = walkTargets w → exec (.finalSignal n) s = .next ((u.dropWalk n w).finishCmd w.cmd 0 (walkElems w) (walkExt w))) ∧
    (w.finals + 1 ≠ walkTargets w → exec (.finalSignal n) s = .next (u.setWalk n { w with finals := w.finals + 1 }))) ∧
  (∀ (s : State) (n : Nat) (w : Walk), s.walk n = some w → w.finals = 0 → s.signalsOut w = true → exec (.finalSignal n) s = .next s) ∧
  (∀ (s : State) (k r : Nat) (p : Packet), s.packet k = some p → p.pos = .ready → p.fences = [] → p.body = .twcan r →
    let held := 4096 ≤ frefName p.from_.fref ∧ s.inWriteBack p.from_.cid (frefName p.from_.fref - 4096) = true
    let hit := s.walks.filter (fun x => x.2.from_.fref == p.from_.fref && x.2.ret.slot.getD (2 ^ 64) == r)
    let t := hit.foldl (fun u x => (u.dropWalk x.1 x.2).finishCmd x.2.cmd 3 (walkProgress x.2) (walkExt x.2)) (s.dropPacket k)
    ((s.core p.from_.cid).dead = false → held → exec (.twcanComplete k) s = .next s) ∧
    ((∀ x ∈ hit, x.2.copies = 0) → (s.core p.from_.cid).dead = false → ¬held → exec (.twcanComplete k) s =
      .next (((t.bindTo (.cover k) (fun e => hit.any (fun x => e.by_ == 2 && e.num == x.1))).writeReply p.from_.cid p.from_.fref p.ret.ow
        (BitVec.ofNat 64 hit.length) false).completeAt k p.from_.cid p.from_ p.ret [])) ∧
    ((∀ x ∈ hit, x.2.copies = 0) → (s.core p.from_.cid).dead = true → exec (.twcanComplete k) s = .next (t.refuseOne p)) ∧
    ((∃ x ∈ hit, x.2.copies ≠ 0) → (s.core p.from_.cid).dead = true ∨ ¬held → exec (.twcanComplete k) s =
      .next (hit.foldl (fun u x => { u with walks := u.walks.set x.1 { x.2 with stop := true } }) s))) ∧
  (∀ (s : State) (k a n : Nat) (bs : List Byte) (poison : Bool) (p : Packet) (w : Walk), s.packet k = some p → p.pos = .ready →
    p.body = .replica a bs poison n → s.walk n = some w →
    (∀ x ∈ s.net, x.1 < k → x.2.dst = p.dst → x.2.lo / 8 = p.lo / 8 → ∀ b cs po m, x.2.body ≠ .replica b cs po m) →
    let u := ((s.dropPacket k).keepOlds a bs.length).writeBytes (hbmKey a) bs
    (s.channelFor p = false → exec (.replicaWriteApply k) s = .next s) ∧
    ((∀ i, p.dst ≠ .port i) → s.migrating a bs.length = true → exec (.replicaWriteApply k) s = .next s) ∧
    (s.channelFor p = true → ((∃ i, p.dst = .port i) ∨ s.migrating a bs.length = false) →
    ((∀ i, p.dst ≠ .port i) → exec (.replicaWriteApply k) s =
      .next ((if poison then u.addPoison (hbmKey a) bs.length else u).setWalk n { w with copies := w.copies - 1 })) ∧
    (∀ i, p.dst = .port i → i ∈ s.mgmt.up → i ∈ s.mgmt.back →
      exec (.replicaWriteApply k) s = .next ((s.dropPacket k).setWalk n { w with copies := w.copies - 1 })) ∧
    (∀ i, p.dst = .port i → (i ∉ s.mgmt.up ∨ i ∉ s.mgmt.back) → w.stop = false → exec (.replicaWriteApply k) s =
      .next (((s.dropPacket k).dropWalk n w).failCmd w.cmd 0x38 (walkProgress w) (walkExt w))))) ∧
  (∀ (s : State) (a n : Nat), s.migrating a n = true ↔ ∃ x ∈ s.parts, x.2.mig.state = 1 ∧ x.2.mig.held = true ∧
    overlaps x.2.mig.src 65536 a n = true)

/-- O53. From R256 to R266, in part: a core whose stepd waits for nothing more, though answers may still be on their way, is done with its step, tells the cores that pace on it and serves the
requests it holds; it advances by one step when done, free and allowed by the counts it knows; a notice with a larger finished count
replaces the known pair. A step load is answered with the entry's bytes where the step is finished, fails with code 0x18 where it is
stale, and is held or returned where it is early; a step query is answered or held; an early request of an instance that is being ended is
discarded; a returned request leaves again. What a step load reads is the newest bytes that the stepd of its step passes, or later or unordered ones (R246). The state of a paced instance that started beside a firing takes effect when both contexts are free. A finished step passes its firing's
accesses and what the firing acquired to those whom the owner answers (R263 to R265).
The model's own choices in it: log entries 7, 16, 74 (that deferral), and log entry 15 (a stepd of another firing that is still pending has no more effect once the
step is done). -/
def Obligations.StepsAtWork : Prop :=
  (∀ (s : State) (cid fid n : Nat), Claims.opened s cid → s.paceSettled cid = true → (s.core cid).done = false → (fid, n) ∈ (s.core cid).stepds →
    s.unperformed fid cid n = false →
    exec (.stepdDone cid fid) s =
      .next ((((s.passStep cid fid).modCore cid (fun c => { c with done := true, stepds := [] })).sendNotices cid).serveHeld cid)) ∧
  (∀ (s : State) (cid fid n : Nat) (a : Nat), (s.core cid).stepds = [(fid, n)] → s.unperformed fid cid n = false →
    (s.passStep cid fid).olderAt a = (s.olderAt a).map (fun e => if e.fid = fid ∧ e.by_ ≤ 1 ∧ e.num ≤ n ∨ e.bound.contains (.firing fid) = true then
      { e with bound := .step cid (s.core cid).stp.toNat :: e.bound } else e)) ∧
  (∀ (s : State) (fid cid n : Nat), s.unperformed fid cid n =
    ({ s with net := s.net.filter (fun x => match x.2.body with | .reply .. => false | .oldValues _ => false | _ => true) } : State).beforePending
      fid cid n) ∧
  (∀ (s : State) (cid : Nat) (x : Pace), (s.core cid).pace = some x → Claims.opened s cid → s.paceSettled cid = true → (s.core cid).done = true →
    (s.core cid).ctx0.busy = false → (s.core cid).ctx1.busy = false →
    let fin := fun q => finCount ((s.core cid).known.get (0, false) q)
    (∀ q ∈ s.atOffsets (s.partOf cid) cid x.dep, (s.core cid).stp.toNat + 1 ≤ fin q) →
    (∀ q ∈ s.atOffsets (s.partOf cid) cid x.watch, (s.core cid).stp.toNat + 3 ≤ fin q + x.depth) →
    exec (.stepAdvance cid) s =
      .next ((((s.modPart (s.partOf cid) (fun q => { q with quiesced := false })).modCore cid (fun c => { c with stp := c.stp + 1, done := false })).sendNotices
        cid).serveHeld cid)) ∧
  (∀ (s : State) (cid : Nat) (x : Pace), (s.core cid).pace = some x →
    let fin := fun q => finCount ((s.core cid).known.get (0, false) q)
    ((s.core cid).done = false ∨ (∃ q ∈ s.atOffsets (s.partOf cid) cid x.dep, fin q < (s.core cid).stp.toNat + 1)) →
    exec (.stepAdvance cid) s = .next s) ∧
  (∀ (s : State) (k cid src : Nat) (stp : Word) (done : Bool) (p : Packet), Claims.arrived s k p → p.dst = .core cid → Claims.opened s cid →
    p.body = .notice src stp done → s.paceSettled cid = true →
    let old := finCount ((s.core cid).known.get (0, false) src)
    (old < finCount (stp, done) → exec (.stepNotice k) s =
      .next ((s.dropPacket k).modCore cid (fun c => { c with known := c.known.set src (stp, done) }))) ∧
    (finCount (stp, done) ≤ old → exec (.stepNotice k) s = .next ((s.dropPacket k).modCore cid id))) ∧
  (∀ (s : State) (k owner z q es off D : Nat) (u : Bool) (p : Packet), Claims.arrived s k p → p.dst = .core owner → Claims.opened s owner →
    s.paceSettled owner = true → p.body = .ldst z u q es off → s.depthOf p = some D →
    let c := s.core owner
    let f := finCount (c.stp, c.done)
    let key := coreKey owner (off + q % D * (8 * 2 ^ es))
    let r := State.stepReader k p owner q
    (q < f → c.stp.toNat < q + D → exec (.ldstRequest k) s =
      .next ((((s.dropPacket k).saw r key z).bindTo (.cover s.seq) (fun e => e.bound.contains (.step owner q))).sendReply p.dst p
        (extend z u (s.seenN r key z)) (s.poisoned key z))) ∧
    (q < f → q + D ≤ c.stp.toNat → exec (.ldstRequest k) s = .next ((s.dropPacket k).failCmd p.cmd 0x18 0 [])) ∧
    (f ≤ q → s.stopping p.from_.inst = true → exec (.ldstRequest k) s = .next ((s.dropPacket k).finishCmd p.cmd 0 0 [])) ∧
    (f ≤ q → s.stopping p.from_.inst = false → c.heldq.length < 64 → exec (.ldstRequest k) s =
      .next ((s.setPacket k { p with pos := .kept }).modCore owner (fun c => { c with heldq := c.heldq ++ [k] }))) ∧
    (f ≤ q → s.stopping p.from_.inst = false → 64 ≤ c.heldq.length → exec (.ldstRequest k) s = .next (s.setPacket k { p with pos := .returned }))) ∧
  (∀ (s : State) (k owner q : Nat) (p : Packet), Claims.arrived s k p → p.dst = .core owner → Claims.opened s owner → p.body = .stepq q →
    s.paceSettled owner = true →
    let c := s.core owner
    (q ≤ c.stp.toNat → exec (.stepqRequest k) s = .next (((s.dropPacket k).bindTo (.cover s.seq) (fun e => e.bound.any (fun x =>
      match x with | .step o n => o == owner && decide (n < q) | _ => false))).sendReply p.dst p
      (BitVec.ofNat 64 (c.stp.toNat % 2 ^ 63 + (if c.done then 2 ^ 63 else 0))) false)) ∧
    (c.stp.toNat < q → s.stopping p.from_.inst = true → exec (.stepqRequest k) s = .next ((s.dropPacket k).finishCmd p.cmd 0 0 [])) ∧
    (c.stp.toNat < q → s.stopping p.from_.inst = false → c.heldq.length < 64 → exec (.stepqRequest k) s =
      .next ((s.setPacket k { p with pos := .kept }).modCore owner (fun c => { c with heldq := c.heldq ++ [k] })))) ∧
  (∀ (s : State) (k owner z q es off : Nat) (u : Bool) (p : Packet), Claims.arrived s k p → p.dst = .core owner → Claims.opened s owner →
    s.paceSettled owner = true → p.body = .ldst z u q es off → s.depthOf p = none →
    exec (.ldstRequest k) s = .next ((s.dropPacket k).finishCmd p.cmd 0 0 [])) ∧
  (∀ (s : State) (cid : Nat) (x : Option Pace), (s.core cid).nextPace = some x →
    ((s.core cid).ctx0.busy = true ∨ (s.core cid).ctx1.busy = true → s.settlePace cid = s) ∧
    ((s.core cid).ctx0.busy = false → (s.core cid).ctx1.busy = false → s.settlePace cid =
      (s.unbind (fun y => match y with | .step c _ => c == cid | _ => false)).modCore cid (fun c => { c with
        stp := 0, done := false, known := [], stepds := [], pace := x, nextPace := none }))) ∧
  (∀ (s : State) (k : Nat) (p : Packet), s.packet k = some p → p.pos = .returned → exec (.stepRequestResend k) s =
    .next (s.setPacket k { p with gen := s.mgmt.gen, splice := 64, pos := if direct p.src p.dst then .ready else .sender }))

/-- O54. From R267 to R277, in part: the sequencer serves a request in its turn. A tableau is taken over where no record is in a stage or judged, a
sample where a tableau stands and the record is not at work; else code 0x31. A held record begins stage 1; a completed stage is
followed by the next, or by the judgement; sqrd answers with the field. A stage is formed from the arrays with its time and
signalled; a poisoned array fails the record with code 0x21; the decision writes w: a rejected step of a held sample keeps t and counts, and an accepted last one ends at t_end with y and w exchanged.
The sequencer reads an image or an array as its request's or its record's reader, the newest bytes or earlier ones where R246 permits it, and what it
read stays read (R250); a sqstep or sqstage passes its firing's writes to the work on its record.
The model's own choices in it: log entries 7 (that mechanism), 17, 18 and 68 (a NaN in stage 1, arrays that overlap, element writes). -/
def Obligations.SolverAtWork : Prop :=
  (∀ (s : State) (k clid : Nat) (p : Packet), s.packet k = some p → p.dst = .seqr clid → s.seqrTurn k clid p = true →
    let t := s.dropPacket k
    let rd := State.imageReader k p
    (∀ addr, p.body = .sqtab addr →
      ((∀ x ∈ (s.cluster clid).recs, x.2.st ≠ 2 ∧ x.2.st ≠ 3) → s.poisoned (coreKey p.from_.cid addr) 384 = false →
        (∀ tb, s.tableauAt rd (coreKey p.from_.cid addr) = some tb → exec (.sqtabServe k) s =
          .next (((t.saw rd (coreKey p.from_.cid addr) 384).modCluster clid (fun c => { c with tab := some tb })).complete p.dst p.from_ p.ret p.cmd 1)) ∧
        (s.tableauAt rd (coreKey p.from_.cid addr) = none → exec (.sqtabServe k) s =
          .next ((t.saw rd (coreKey p.from_.cid addr) 384).failCmd p.cmd 0x31 0 []))) ∧
      ((∃ x ∈ (s.cluster clid).recs, x.2.st = 2 ∨ x.2.st = 3) → exec (.sqtabServe k) s = .next (t.failCmd p.cmd 0x31 0 []))) ∧
    (∀ addr r, p.body = .sqinit addr r →
      let o := (s.cluster clid).recs.get Sample.init r
      ((s.cluster clid).tab = none ∨ o.st = 2 ∨ o.st = 3 → exec (.sqinitServe k) s = .next (t.failCmd p.cmd 0x31 0 [])) ∧
      (∀ tb x, (s.cluster clid).tab = some tb → o.st ≠ 2 → o.st ≠ 3 → s.poisoned (coreKey p.from_.cid addr) 128 = false →
        s.sampleAt rd (coreKey p.from_.cid addr) tb.s p.from_.part p.from_ = .ok x →
        exec (.sqinitServe k) s = .next (((t.saw rd (coreKey p.from_.cid addr) 128).setSample clid r x).complete p.dst p.from_ p.ret p.cmd 1))) ∧
    (∀ r, p.body = .sqstep r →
      let x := (s.cluster clid).recs.get Sample.init r
      (x.st = 1 → exec (.sqstepServe k) s = .next ((t.passSample k clid r p).setSample clid r
        { x with st := 2, stage := 1, forming := true, from_ := p.from_ })) ∧
      (x.st ≠ 1 → exec (.sqstepServe k) s = .next (t.faultRequest p.from_ 0x31))) ∧
    (∀ r i tb, p.body = .sqstage r i → (s.cluster clid).tab = some tb →
      let x := (s.cluster clid).recs.get Sample.init r
      (x.st = 2 → x.stage = i → i < tb.s → exec (.sqstageServe k) s =
        .next ((t.passSample k clid r p).setSample clid r { x with stage := i + 1, forming := true, from_ := p.from_ })) ∧
      (x.st = 2 → x.stage = i → tb.s ≤ i → exec (.sqstageServe k) s =
        .next ((t.passSample k clid r p).setSample clid r { x with st := 3, stage := 0, from_ := p.from_ })) ∧
      (x.st ≠ 2 ∨ x.stage ≠ i → exec (.sqstageServe k) s = .next (t.faultRequest p.from_ 0x31))) ∧
    (∀ r sel, p.body = .sqrd r sel → exec (.sqrdServe k) s =
      .next (t.sendReply p.dst p (State.sqField ((s.cluster clid).recs.get Sample.init r) sel) false))) ∧
  (∀ (s : State) (clid r : Nat) (tb : Tableau), (s.cluster clid).tab = some tb →
    let x := (s.cluster clid).recs.get Sample.init r
    (x.forming = true → s.stagePoison clid x (x.stage - 1) = false →
      let ts := roundFp32 (XReal.add (decodeFp32 x.t) (XReal.mul (decodeFp32 (tb.c.getD (x.stage - 1) 0)) (decodeFp32 x.h)) 0) 0
      let cs := (List.range (x.stage - 1)).map (fun j => tb.a.getD (7 * (x.stage - 1) + j) 0)
      exec (.stageFormed clid r) s = .next (((((s.sawArrays clid r x (x.stage - 1)).putArray clid x.za (s.formArray clid r x cs)).setSample clid r
        { x with forming := false, ts := ts }).modPart x.from_.part (fun q => { q with quiesced := false })).sendSignal (.seqr clid) x.from_ (x.srefs.getD 0 0) 1 1 2)) ∧
    (x.forming = true → s.stagePoison clid x (x.stage - 1) = true → exec (.stageFormed clid r) s =
      .next ((s.setSample clid r { x with st := 5, stage := 0, forming := false }).faultRequest x.from_ 0x21)) ∧
    (x.st = 3 → s.stagePoison clid x tb.s = true → exec (.stepDecision clid r) s =
      .next ((s.setSample clid r { x with st := 5, stage := 0, forming := false }).faultRequest x.from_ 0x21)) ∧
    (x.st = 3 → s.stagePoison clid x tb.s = false →
      let y := s.arrayAt clid r x.ya x.n
      let w := s.formArray clid r x tb.b
      let yh := s.formArray clid r x tb.bh
      let err := errNorm x.n ((List.range x.n).map (fun e => errRatio x.atol x.rtol (y.getD e 0) (w.getD e 0) (yh.getD e 0)))
      let h0 := fpMul x.h (stepFactor tb err) 0
      XReal.le (decodeFp32 err) (XReal.ofInt 1) = false →
      let last := endTest x.t x.t h0 x.tend
      let h := if last then fpSub x.tend x.t 0 else h0
      (decodeFp32 h).isZero = false → fin32 h = true → x.hold = true →
      exec (.stepDecision clid r) s = .next (((((s.sawArrays clid r x tb.s).putArray clid x.wa w).setSample clid r
        { x with h := h, last := last, err := err, nrej := State.satCount x.nrej, st := 1 }).modPart x.from_.part
        (fun q => { q with quiesced := false })).sendSignal (.seqr clid) x.from_ (x.srefs.getD 2 0) 1 1 2)) ∧
    (x.st = 3 → s.stagePoison clid x tb.s = false → x.last = true → x.nh = 0 →
      let y := s.arrayAt clid r x.ya x.n
      let w := s.formArray clid r x tb.b
      let yh := s.formArray clid r x tb.bh
      let err := errNorm x.n ((List.range x.n).map (fun e => errRatio x.atol x.rtol (y.getD e 0) (w.getD e 0) (yh.getD e 0)))
      let h0 := fpMul x.h (stepFactor tb err) 0
      XReal.le (decodeFp32 err) (XReal.ofInt 1) = true → XReal.eq (decodeFp32 x.tend) (decodeFp32 x.tend) = true →
      let last := endTest x.t x.tend h0 x.tend
      exec (.stepDecision clid r) s = .next (((((s.sawArrays clid r x tb.s).putArray clid x.wa w).setSample clid r
        { x with h := if last then fpSub x.tend x.tend 0 else h0, last := last, err := err, ya := x.wa, wa := x.ya, t := x.tend
                 nacc := State.satCount x.nacc, st := 4 }).modPart x.from_.part
        (fun q => { q with quiesced := false })).sendSignal (.seqr clid) x.from_ (x.srefs.getD 3 0) 1 1 2)))

namespace Sys2Proof.Claims

/-- What a launch waits for before it starts (R287, R292, R345): it is in the pool, its partition runs, and the clocks of a reserved
partition's dies are pinned. -/
def pooled (s : State) (i : Inst) : Prop :=
  i.state = 0 ∧ i.arrived = true ∧ s.partRuns i.part = true ∧
    (partRsv s.mgmt.region i.part = true → ∀ x ∈ s.shares i.part, (s.die x.1).pinned = true)
/-- A running launch ends without a waiting gcan: its record, the pins of its leases, its completion signal, which releases its instance's
writes, its host record, which shows
them to the host (R288, R302, R311); its partition is not quiescent in that cycle (R369). -/
def ended (s : State) (k : Nat) (i : Inst) (reason : Nat) : State :=
  let s1 := (State.unpin { s with
    insts := s.insts.set k { i with state := 2, reason := reason, ended := s.seq, waiters := [], stopping := 0 }
    seq := s.seq + 1 }).modPart i.part (fun q => { q with quiesced := false })
  let s2 := match i.comp with
    | none => s1
    | some 0 => s1
    | some r => (s1.bindTo (.cover s1.seq) (fun e => e.inst == k)).sendSignal (.launch i.die)
        { fref := 0, cid := 0, fid := 0, pc := 0, inst := k, part := i.part } r 1 1 3
  if i.host then (s2.bindTo .host (fun e => e.inst == k)).writeRecord i.part i.record i.handle i.tag reason else s2
/-- No table entry has come for the launch agent of a launch (R318). -/
def noEntry (s : State) (k : Nat) : Prop := ∀ x ∈ s.net, State.isLaunchTable x.2 k = true → s.tableReady x.2 = false
/-- A launch that ends at its start does so once its completion record has its turn, and else waits (R287, R330). -/
def fails (s : State) (k : Nat) (i : Inst) (code : Code) (o : Out) : Prop :=
  (s.recordTurn i = none → o = .next s) ∧ ∀ t, s.recordTurn i = some t → o = .next (t.failStart k i code)
/-- Nothing holds up a launch but its leases: its descriptors are valid, no paced instance is before it, and a record is free (R287, R292). -/
def unheld (s : State) (i : Inst) (g : Graph) : Prop :=
  s.descsOk i.part g = true ∧ (g.pace = none ∨ s.pacedLive i.part = false) ∧ s.makeRoom i.part i.die ≠ none

end Sys2Proof.Claims

/-- O55. From R284 to R303, R345, R382, in part: a launch request waits in the pool; a launch whose conditions hold starts, and one whose descriptors
are not valid ends with a record of code 0x22; its agent reads the table entries of its own die in memory, in turns of its own, asks for those of another by a
packet, and starts it where every lease is resident, or reads anew; the sections of a host launch are copied by writes of at most 8 bytes, one at a time;
a launch that waits for its partition, its pace or a record reads the entries anew;
then the agent of the root core's die takes a frame there, writes the arguments and fires
slot 0, to which it passes what the launch passes; an instance without frames, entries, commands and accesses has completed, and one that is being ended waits for
the write-backs of its frames and the completion signals of its commands; the completion record of a host launch takes a turn; credits are lent to the cluster with the fewest;
gquery and gcan are answered; the ring's registers and entries, with the depth and limit of a host launch (R293); images, whose code then
stands in the code stores of the partition's clusters (R284), and placement entries; forecast and clock; a telemetry reading,
in which a pinned die stands at 650 mV and 1,800 MHz.
The model's own choices in it: log entries 7, 8, 34, 24 (a launch agent's access takes its cycles), 25 (entries of another die are read anew), 70, 33 (an image load replaces
the image and the placement entries), 60 (where the descriptors stand), 63 (the copy goes on), 71 (what runs while a commit drains), 69 (a ring entry is read in one step), 77 (the sections are copied before a frame is looked for) and 79 (a
ring that a commit has left outside the partition is not read). -/
def Obligations.LaunchesAtWork : Prop :=
  (∀ (s : State) (n k : Nat) (p : Packet) (i : Inst), Claims.arrived s n p → p.body = .launch k → s.inst k = some i →
    exec (.launchRequest n) s = .next (((s.bindTo (.inst k) (fun e => passesOwn n p e || passesOn p e)).dropPacket n).setInst k
      { i with arrived := true })) ∧
  (∀ (s : State) (k : Nat) (i : Inst) (g : Graph), s.inst k = some i → s.graphOf k = some g → Claims.pooled s i → Claims.noEntry s k →
    (s.descsOk i.part g = false → Claims.fails s k i 0x22 (exec (.instanceStart k) s)) ∧
    (s.descsOk i.part g = true → (g.pace ≠ none ∧ s.pacedLive i.part = true) ∨ s.makeRoom i.part i.die = none →
      exec (.instanceStart k) s = .next (s.setInst k { i with tabs := [] })) ∧
    (Claims.unheld s i g → s.leaseTurn i g = none → exec (.instanceStart k) s = .next s) ∧
    (∀ r, Claims.unheld s i g → s.leaseTurn i g = some r → let u := r.sawLeases i g
      (∀ a, s.leasesSeen i g = .error a → (∀ x ∈ s.net, State.isLaunchTable x.2 k = false) →
        ∃ q, q.body = .tableRead k a ∧ q.src = .launch i.die ∧ q.dst = State.pageLoc a ∧ q.bulk = true ∧
          exec (.instanceStart k) s = .next (u.send q)) ∧
      (s.leasesSeen i g = .ok false ∨ s.leasesSeen i g = .ok true ∧ s.leasesResident i.part g = false →
        exec (.instanceStart k) s = .next (u.setInst k { i with tabs := [] })) ∧
      (∀ v, s.leasesSeen i g = .ok true → s.leasesResident i.part g = true → u.makeRoom i.part i.die = some v →
        (s.splicesPass i.part g = false → Claims.fails u k i 0x15 (exec (.instanceStart k) s)) ∧
        (s.splicesPass i.part g = true →
          let owed := if i.host then v.sectionWrites i.part g else []
          exec (.instanceStart k) s = .next ((((v.setInst k { i with state := 1, cast := [], copy := owed, tabs := [] }).startPace i.part g).unquiet
            i.part).castAt i.die k))))) ∧
  (∀ (s : State) (k : Nat) (i : Inst) (g : Graph), s.inst k = some i → s.graphOf k = some g → Claims.noEntry s k → i.state = 0 → i.arrived = true →
    (s.partRuns i.part = false ∨ partRsv s.mgmt.region i.part = true ∧ ∃ x ∈ s.shares i.part, (s.die x.1).pinned = false) →
    exec (.instanceStart k) s = .next (s.setInst k { i with tabs := [] })) ∧
  (∀ (s : State) (i : Inst), (i.host = true → i.record ≠ 0 → s.recordTurn i = s.agentAccess (i.record % 2 ^ 40) 100) ∧
    (i.host = false ∨ i.record = 0 → s.recordTurn i = some s)) ∧
  (∀ (s : State) (i : Inst) (a : Nat), (a / 2 ^ 36 = i.die →
      s.launchEntry i a = .ok (s.seenW (State.launchReader (State.instKey i.part i.handle)) (hbmKey a))) ∧
    (a / 2 ^ 36 ≠ i.die → (∀ x ∈ i.tabs, x.1 ≠ a) → s.launchEntry i a = .error a) ∧
    (∀ v l, a / 2 ^ 36 ≠ i.die → i.tabs = (a, v) :: l → s.launchEntry i a = .ok v)) ∧
  (∀ (s : State) (n k a : Nat) (v : Word) (p : Packet), s.net.find? (fun x => State.isLaunchTable x.2 k && s.tableReady x.2) = some (n, p) →
    (p.body = .tableRead k a → ∃ q, q.body = .tableWord k a (s.seenW (State.launchReader k) (hbmKey a)) ∧ q.src = p.dst ∧ q.dst = p.src ∧
      exec (.instanceStart k) s = .next (((s.dropPacket n).saw (State.launchReader k) (hbmKey a) 8).send q)) ∧
    (∀ i, p.body = .tableWord k a v → s.inst k = some i → exec (.instanceStart k) s =
      .next ((s.dropPacket n).setInst k { i with tabs := i.tabs.set a v }))) ∧
  (∀ (s t : State) (l : Loc), s.agentTurn l = some t → t.mem = s.mem ∧ t.poison = s.poison ∧ t.net = s.net ∧ t.cores = s.cores ∧
    t.insts = s.insts ∧ t.parts = s.parts ∧ t.clusters = s.clusters ∧ t.cmds = s.cmds ∧ t.mgmt = s.mgmt) ∧
  (∀ (s : State) (k : Nat) (i : Inst) (g : Graph), s.inst k = some i → s.graphOf k = some g → i.state = 1 → i.copy ≠ [] → Claims.noEntry s k →
    ∃ n x, n < i.copy.length ∧ i.copy[n]? = some x ∧ (s.agentTurn (s.unitOf x.1) = none → exec (.instanceStart k) s = .next s) ∧
      ∀ t, s.agentTurn (s.unitOf x.1) = some t →
        exec (.instanceStart k) s = .next (((t.writeBytes x.1 x.2).setInst k { i with copy := i.copy.eraseIdx n }).castAt i.die k)) ∧
  (∀ (k : Nat) (bs : List Byte), (∀ x ∈ State.wordPieces k bs, x.2.length ≤ 8 ∧ (x.2 ≠ [] → (x.1 + x.2.length - 1) / 8 = x.1 / 8)) ∧
    (State.wordPieces k bs).flatMap (fun x => x.2) = bs) ∧
  (∀ (s : State) (d k f : Nat) (i : Inst) (g : Graph), s.inst k = some i → i.state = 1 → i.started = false → d ∉ i.cast →
    (∃ x ∈ s.shares i.part, x.1 = d) → s.graphOf k = some g → i.copy = [] →
    let root := s.place i.part g.root i.key
    (dieOf root ≠ d → exec (.launchMulticast d k) s = .next (s.setInst k { i with cast := i.cast ++ [d] })) ∧
    (dieOf root = d → i.stopping = 0 → s.rootTurn i root = none → exec (.launchMulticast d k) s = .next s) ∧
    (∀ r, dieOf root = d → i.stopping = 0 → s.rootTurn i root = some r → (s.core root).dead = true → exec (.launchMulticast d k) s =
      .next (r.failStart k { i with cast := i.cast ++ [d], started := true } 0x38)) ∧
    (∀ r, dieOf root = d → i.stopping = 0 → s.rootTurn i root = some r → (s.core root).dead = false → s.takeFrame root = none →
      exec (.launchMulticast d k) s = .next (r.failStart k { i with cast := i.cast ++ [d], started := true } 0x13)) ∧
    (∀ r, dieOf root = d → i.stopping = 0 → s.rootTurn i root = some r → (s.core root).dead = false → s.takeFrame root = some f →
      let own := { inst := k, depth := i.depth, limit := i.limit }
      let t := ((r.setInst k { i with cast := i.cast ++ [d], started := true }).freshFrame root f).writeFrame root f g.root (BitVec.ofNat 64 (i.comp.getD 0)) own []
      let u := (List.range i.args.length).foldl (fun v j => v.writeW (t.frameKey root f + 80 + 8 * j) (i.args.getD j 0)) t
      exec (.launchMulticast d k) s = .next ((u.bindTo (.slot root f 0) (fun e => e.bound.contains (.inst k))).signalSlot root f 0 (u.slotKey root f 0) (decide (4096 ≤ f))
        [{ val := 0, bytes := 0, fire := true, source := 3
           from_ := { fref := 0, cid := 0, fid := 0, pc := 0, inst := k, part := i.part } }]))) ∧
  (∀ (s : State) (i : Inst) (root : Nat),
    ((s.core root).dead = true ∨ s.takeFrame root = none → s.rootTurn i root = (s.agentTurn (.core root)).bind (fun t => t.recordTurn i)) ∧
    (∀ f, (s.core root).dead = false → s.takeFrame root = some f → s.rootTurn i root = (s.agentTurn (.core root)).bind (fun t => t.frameTurn root f))) ∧
  (∀ (s : State) (k : Nat) (i : Inst), s.inst k = some i → i.state = 1 → i.started = true → i.waiters = [] → s.isPaced k = false →
    ((∀ x ∈ s.cmds, x.2.from_.inst ≠ k) →
      (∀ x ∈ s.net, x.2.from_.inst = k → x.2.outb = false ∧ ∀ a bs po n, x.2.body ≠ .replica a bs po n) → i.stopping = 0 → s.holdsFrame k = false →
      s.hasEntry0 k = false → (s.recordTurn i = none → exec (.instanceEnd k) s = .next s) ∧
        ∀ t, s.recordTurn i = some t → exec (.instanceEnd k) s = .next (Claims.ended t k i 0)) ∧
    ((∀ x ∈ s.cmds, x.2.from_.inst ≠ k) →
      (∀ x ∈ s.net, x.2.from_.inst = k → x.2.outb = false ∧ (∀ a bs po n, x.2.body ≠ .replica a bs po n) ∧
        ∀ r v b fire, x.2.body ≠ .signal r v b fire 1) → i.stopping ≠ 0 → s.inWriteBackOf k = false →
      ∀ t, s.recordTurn i = some t → exec (.instanceEnd k) s = .next ((t.freeFrames k).endInst k i i.stopping)) ∧
    (i.stopping ≠ 0 → s.inWriteBackOf k = true → exec (.instanceEnd k) s = .next s) ∧
    (∀ n p r v b fire, i.stopping ≠ 0 → (n, p) ∈ s.net → p.from_.inst = k → p.body = .signal r v b fire 1 →
      exec (.instanceEnd k) s = .next s) ∧
    ((∃ x ∈ s.cmds, x.2.from_.inst = k) → exec (.instanceEnd k) s = .next s)) ∧
  (∀ (s : State) (d p k : Nat), k ∈ s.clustersOf p d → s.poolFree p d ≠ 0 → (s.cluster k).need = true → (s.cluster k).credit < 32 →
    (∀ j ∈ s.clustersOf p d, (s.cluster j).need = true → (s.cluster j).credit < 32 →
      (s.cluster k).credit < (s.cluster j).credit ∨ (s.cluster k).credit = (s.cluster j).credit ∧ k ≤ j) →
    exec (.creditLend d p) s = .next (s.modCluster k (fun c => { c with credit := c.credit + 1, need := decide (c.credit + 1 < 32) }))) ∧
  (∀ (s : State) (d p : Nat), (∀ k ∈ s.clustersOf p d, (s.cluster k).need = false ∨ 32 ≤ (s.cluster k).credit) →
    exec (.creditLend d p) s = .next s) ∧
  (∀ (s : State) (n : Nat) (h : Word) (p : Packet), Claims.arrived s n p → p.body = .gquery h →
    exec (.gqueryRequest n) s = .next ((s.dropPacket n).sendReply p.dst p (s.queryWord (State.instKey p.from_.part h)) false)) ∧
  (∀ (s : State) (k : Nat) (i : Inst), (s.inst k = none → s.queryWord k = 3) ∧ (s.inst k = some i → i.state < 2 →
    s.queryWord k = BitVec.ofNat 64 (i.state + 16 * i.depth)) ∧ (s.inst k = some i → i.state = 2 →
    s.queryWord k = BitVec.ofNat 64 (2 + 4 * i.reason + 16 * i.depth))) ∧
  (∀ (s : State) (n : Nat) (h : Word) (p : Packet), Claims.arrived s n p → p.body = .gcan h →
    let k := State.instKey p.from_.part h
    (s.inst k = none → exec (.gcanRequest n) s = .next ((s.dropPacket n).sendReply p.dst p 0 false)) ∧
    (∀ i, s.inst k = some i → i.state = 2 → exec (.gcanRequest n) s = .next ((s.dropPacket n).sendReply p.dst p 0 false)) ∧
    (∀ i, s.inst k = some i → i.state = 0 → s.recordTurn i = none → exec (.gcanRequest n) s = .next s) ∧
    (∀ i t, s.inst k = some i → i.state = 0 → s.recordTurn i = some t → exec (.gcanRequest n) s =
      .next (((t.dropPacket n).endInst k i 2).sendReply p.dst p 1 false)) ∧
    (∀ i, s.inst k = some i → i.state = 1 → p.from_.inst ≠ k → exec (.gcanRequest n) s =
      .next (((s.setPacket n { p with pos := .kept }).setInst k { i with waiters := i.waiters ++ [n] }).stopInst k 2))) ∧
  (∀ (s : State) (p : Nat) (v : Word), s.partExists p = true → let t := s.part p
    (t.subHead = t.subTail → v.toNat % 4096 = 0 → s.hbmIn p v.toNat = true → exec (.subqBase p v) s =
      .next (s.modPart p (fun t => { t with subBase := v }))) ∧
    (t.subHead ≠ t.subTail ∨ v.toNat % 4096 ≠ 0 → exec (.subqBase p v) s = .next (s.modPart p (fun t => { t with cfgerr := true }))) ∧
    (t.subHead = t.subTail → 4 ≤ v.toNat % 32 → v.toNat % 32 ≤ 16 → exec (.subqLog p v) s =
      .next (s.modPart p (fun t => { t with subLog := v.toNat % 32 }))) ∧
    (t.subHead ≠ t.subTail ∨ v.toNat % 32 < 4 ∨ 16 < v.toNat % 32 → exec (.subqLog p v) s =
      .next (s.modPart p (fun t => { t with cfgerr := true }))) ∧
    ((BitVec.setWidth 32 v - t.subHead).toNat ≤ 2 ^ t.subLog → exec (.subqTail p v) s =
      .next (s.modPart p (fun t => { t with subTail := BitVec.setWidth 32 v }))) ∧
    (2 ^ t.subLog < (BitVec.setWidth 32 v - t.subHead).toNat → exec (.subqTail p v) s =
      .next (s.modPart p (fun t => { t with overflow := true })))) ∧
  (∀ (s : State) (p : Nat), s.partRuns p = true → (s.part p).subHead ≠ (s.part p).subTail →
    s.hbmIn p (s.part p).subBase.toNat = false → exec (.submissionEntryRead p) s = .next s) ∧
  (∀ (s : State) (p : Nat), s.partRuns p = true → (s.part p).subHead ≠ (s.part p).subTail → s.hbmIn p (s.part p).subBase.toNat = true →
    let k := hbmKey (s.headAddr p)
    let w := s.readW k
    let d := s.firstDie p
    let rec_ := (s.readW (k + 64)).toNat
    let read := s.agentRead (s.headAddr p) 100
    let turn := if s.malformed p w = true ∧ rec_ ≠ 0 then read.bind (fun t => t.agentAccess (rec_ % 2 ^ 40) 100) else read
    (turn = none → exec (.submissionEntryRead p) s = .next s) ∧
    (∀ u, turn = some u → s.malformed p w = true → exec (.submissionEntryRead p) s = .next ((((u.publish k 128).modPart p (fun t => { t with
      badpk := true })).modPart p (fun t => { t with subHead := t.subHead + 1 })).writeRecord p (s.readW (k + 64)).toNat 0 (s.readW (k + 72)) 3)) ∧
    (s.malformed p w = false → s.poolFree p d = 0 → exec (.submissionEntryRead p) s = .next s) ∧
    (turn ≠ none → s.malformed p w = false → s.poolFree p d ≠ 0 → ∃ t i, exec (.submissionEntryRead p) s = .next t ∧
      (t.part p).subHead = (s.part p).subHead + 1 ∧ (t.part p).hostSeq = (s.part p).hostSeq + 1 ∧
      t.insts = s.insts.set (State.instKey p (mkHandle (s.part p).hostSeq 127 d)) i ∧ i.part = p ∧ i.graph = w.toNat % 2 ^ 16 ∧
      i.key = s.readW (k + 8) ∧ i.args.length = w.toNat / 2 ^ 16 % 8 ∧ (∀ j, j < w.toNat / 2 ^ 16 % 8 → i.args.getD j 0 = s.readW (k + 16 + 8 * j)) ∧
      i.depth = 0 ∧ (∀ im g, (s.part p).image = some im → im.graphs[w.toNat % 2 ^ 16]? = some g → i.limit = g.depth) ∧
      i.state = 0 ∧ i.arrived = true ∧ i.host = true ∧ i.record = (s.readW (k + 64)).toNat ∧ i.tag = s.readW (k + 72) ∧
      i.die = d ∧ t.mem = s.mem)) ∧
  (∀ (s : State) (p : Nat) (im : Image), s.partExists p = true →
    (131072 < im.code.length → exec (.imageLoad p im) s = .next s) ∧
    (im.code.length ≤ 131072 → ∃ t, exec (.imageLoad p im) s = .next t ∧ (t.part p).image = some im ∧ (t.part p).place = [] ∧
      (t.part p).descs = im.descs ∧ (t.part p).descBase = some (s.descPlace p (Config.descBase s.tick)) ∧ t.cores = s.cores ∧ t.net = s.net ∧
      t.insts = s.insts ∧ t.poison = s.poison ∧ (memWf s.mem = true →
        let takes := fun k => (∃ x ∈ s.shares p, k ∈ s.clustersOf p x.1) ∧
          (s.mgmt.drain = true → State.clusterOfQuarters (s.part p).clearing k = false)
        (∀ k j, takes k → j < im.code.length → t.readN (codeKey k (4 * j)) 4 = (im.code.getD j 0).toNat) ∧
        ∀ a, (∀ k j, takes k → j < im.code.length → a < codeKey k (4 * j) ∨ codeKey k (4 * j) + 4 ≤ a) → t.byte a = s.byte a))) ∧
  (∀ (s : State) (p cb : Nat) (w0 w1 : Word), s.partExists p = true → cb < s.blockCount p →
    (s.anyLive p = false → s.placeOk p w0 = true → exec (.placementEntryWrite p cb w0 w1) s =
      .next (s.modPart p (fun t => { t with place := t.place.set cb (w0 &&& 0x0000FFFFFFFF0F03, w1) }))) ∧
    (s.anyLive p = true ∨ w0.toNat % 4 = 3 → exec (.placementEntryWrite p cb w0 w1) s = .next s)) ∧
  (∀ (s : State) (d : Nat), s.mgmt.ok = false →
    exec (.forecast d) s = .next s ∧ exec (.telemetryUpdate d) s = .next s ∧ exec (.clockPinned d) s = .next s) ∧
  (∀ (s : State) (d : Nat), s.mgmt.ok = true →
    exec (.forecast d) s = .next (s.modDie d (fun x => { x with forecast :=
      ((s.cores.filter (fun y => dieOf y.1 == d)).map (fun y => y.2.ready.length)).sum +
        (s.insts.filter (fun y => y.2.die == d && y.2.state == 0)).length })) ∧
    (∃ v, exec (.telemetryUpdate d) s = .next (s.modDie d (fun x => { x with tele := v })) ∧
      (v.toNat / 2 ^ 48 % 2 = 1 ↔ (s.die d).pinned = true) ∧ (v.toNat / 2 ^ 49 = 1 ↔ (s.die d).trip = true) ∧
      ((s.die d).pinned = true → v.toNat / 2 ^ 16 % 2 ^ 12 = 650 ∧ v.toNat / 2 ^ 28 % 2 ^ 12 = 1800)) ∧
    exec (.clockPinned d) s = .next (s.modDie d (fun x => { x with pinned := dieRsv s.mgmt.region d })))

namespace Sys2Proof.Claims

/-- A migration's work goes on to the die of an address: a state in which its packet leaves (R314, R318). -/
def handsOn (v : State) (p src a stage off : Nat) (bs : List Byte) (pois : List Nat) (o : Out) : Prop :=
  ∃ r, r.body = .migrate stage off bs pois ∧ r.src = .agent (src / 2 ^ 36) ∧ r.dst = .agent (a / 2 ^ 36) ∧ r.from_.part = p ∧ o = .next (v.send r)
/-- A partition's migration has stopped with a cause (R313). -/
def stops (s : State) (p cause : Nat) : State := s.modPart p (fun t => { t with mig := { t.mig with state := 3, cause := cause, held := false } })

end Sys2Proof.Claims

/-- O56. From R6, R184, R313, R314, R323, R335, R338 to R341, R349 to R355, R360, in part: a commit is refused while one drains or where the shadow
tables break the rules, and otherwise makes them current as the next generation; a die reports once no packet of the old generation
is on it, and the retiring table goes once the partitions that lose something have nothing under way; a gained share is cleared with the commit, or where its die stays with its former holder until the drain's end then, its code stores at that end; spill, migration, reduction and fault-area registers take a value that their rules
allow; a migration goes from die agent to die agent, through the checks of its causes, the copy of its page piece by piece and its entry, and ends with the entry at the destination, or, where the copy aborts, as it was; a save and a restore go core by
core, and that of the last core changes the partition's state, with its dies noted at a save, and sends its interrupt; word 0 of a port entry
takes a write that clears v at any time, and one that sets v only while v = 0 and for a partition and a die of it that exist; a peer's write lands through a live port.
The model's own choices in it: log entries 7, 9, 24 (the turns), 28, 33, 38, 40, 55 (SPILL_FRAMES above 4,096 is ignored), 72 (a migration's packets
and its abort), 78 (a peer's write waits, and without a slot reference signals nothing) and 79 (when a gained share is cleared, and which bases are
kept). -/
def Obligations.PartitionsAtWork : Prop :=
  (∀ (s : State) (v : Word), v.getLsbD 0 = true → s.mgmt.ok = true →
    (s.mgmt.drain = true → exec (.commit v) s = .next (s.modMgmt (fun m => { m with cbusy := true }))) ∧
    (s.mgmt.drain = false → tablesOk s.mgmt = false → exec (.commit v) s = .next (s.modMgmt (fun m => { m with cbad := true }))) ∧
    (s.mgmt.drain = false → tablesOk s.mgmt = true → ∃ t, exec (.commit v) s = .next t ∧ t.mgmt.gen = s.mgmt.gen + 1 ∧ t.mgmt.drain = true ∧
      t.mgmt.region = s.mgmt.regionSh ∧ t.mgmt.regionOld = s.mgmt.region ∧ t.mgmt.conn = s.mgmt.connSh ∧ t.mgmt.connOld = s.mgmt.conn ∧
      t.mgmt.regionSh = s.mgmt.regionSh ∧ t.mgmt.connSh = s.mgmt.connSh ∧
      (∀ a, State.keyInQuarters (t.gainedShares false) a = true → t.byte a = 0 ∧ t.poison.contains a = false) ∧
      (∀ c, inShares (t.gainedShares false) c = true → (t.core c).ready = [] ∧ (t.core c).tiles = [] ∧ (t.core c).stp = 0) ∧
      ((∀ p, p < 64 → quartersLost s.mgmt.region s.mgmt.regionSh p = []) →
        (∀ a, State.keyInQuarters (t.gainedShares false) a = false → t.byte a = s.byte a) ∧
        ∀ c, inShares (t.gainedShares false) c = false → t.core c = s.core c))) ∧
  (∀ (s : State) (kept : Bool) (y : Nat × Nat), y ∈ s.gainedShares kept ↔ (∃ x ∈ s.parts, y ∈ x.2.clearing) ∧
    (kept = true ↔ s.mgmt.drain = true ∧ keepsHolders (s.mgmt.regionOld.get 0 y.1) (s.mgmt.region.get 0 y.1) = false)) ∧
  (∀ (s : State) (d : Nat), s.mgmt.drain = true → s.mgmt.ok = true →
    (s.oldPacketOn d = true → exec (.drainMessage d) s = .next s) ∧
    (∀ e, e < 16 → e ≠ d → s.oldPacketOn d = false → (s.die e).drained = false →
      exec (.drainMessage d) s = .next (s.modDie d (fun x => { x with drained := true }))) ∧
    ((∀ e, e < 16 ∨ e = d → s.oldPacketOn e = false) → (∀ e, e < 16 → e ≠ d → (s.die e).drained = true) →
      (∀ x ∈ s.insts, x.2.state ≠ 1) → (∀ p, p < 64 → quartersLost s.mgmt.regionOld s.mgmt.region p ≠ [] →
        (∀ x ∈ s.net, x.2.from_.part ≠ p) ∧ ∀ y ∈ s.trigs, y.2.part ≠ some p) →
      ∃ t, exec (.drainMessage d) s = .next t ∧ t.mgmt.drain = false ∧ t.mgmt.regionOld = [] ∧
        (∀ r ∈ t.faults, r ∈ s.faults ∧ partDies s.mgmt.region r.part ≠ []) ∧
        t.mgmt.region = s.mgmt.region ∧ t.mgmt.gen = s.mgmt.gen ∧
        (∀ c, inShares (s.gainedShares true) c = true → (t.core c).ready = [] ∧ (t.core c).tiles = [] ∧ (t.core c).stp = 0) ∧
        (∀ c, inShares (s.gainedShares true) c = false → t.core c = s.core c) ∧
        (∀ a, State.keyInQuarters (s.gainedShares true) a = true → t.poison.contains a = false ∧ (a / 2 ^ 60 < 4 → t.byte a = 0)) ∧
        (∀ a, State.keyInQuarters (s.gainedShares true) a = false → t.poison.contains a = s.poison.contains a) ∧
        (∀ p, t.partExists p = true → (t.part p).faBaseOk = ((s.part p).faBaseOk && t.hbmIn p (s.part p).faBase.toNat) ∧
          (t.part p).spillBase = (s.part p).spillBase.filter (fun y => (t.shares p).any (fun z => z.1 == y.1) &&
            t.spillFits p y.1 y.2.toNat (s.part p).spill)) ∧
        ((∀ x ∈ s.parts, ∀ im, x.2.image = some im → im.code.length ≤ 131072) → ∀ a,
          State.codeInQuarters (s.parts.flatMap (fun x => x.2.clearing)) a = false → State.keyInQuarters (s.gainedShares true) a = false →
          t.byte a = s.byte a) ∧
        ((∀ x ∈ s.parts, x.2.image = none) → ∀ x ∈ s.parts, s.partExists x.1 = true → ∀ a, State.codeInQuarters x.2.clearing a = true → t.byte a = 0))) ∧
  (∀ (s : State) (p : Nat), (s.part p).clearing ≠ [] →
    (s.mgmt.drain = false → exec (.clearingComplete p) s = .next (s.modPart p (fun t => { t with clearing := [] }))) ∧
    (s.mgmt.drain = true → exec (.clearingComplete p) s = .next s)) ∧
  (∀ (s : State) (p d : Nat) (v : Word), s.partExists p = true → s.anyLive p = false →
    (v.toNat % 8192 ≤ 4096 → (∀ x ∈ (s.part p).spillBase, s.spillFits p x.1 x.2.toNat (v.toNat % 8192) = true) →
      exec (.spillFrames p v) s = .next (s.modPart p (fun t => { t with spill := v.toNat % 8192 }))) ∧
    (4096 < v.toNat % 8192 → exec (.spillFrames p v) s = .next (s.modPart p (fun t => { t with spillErr := true }))) ∧
    ((∀ x ∈ s.shares p, x.1 ≠ d) → exec (.spillBase p d v) s = .next (s.modPart p (fun t => { t with spillErr := true }))) ∧
    (let a := v.toNat % 2 ^ 40
     (∃ x ∈ s.shares p, x.1 = d) → a % 4096 = 0 → a / 2 ^ 36 = d → s.spillFits p d a (s.part p).spill = true →
      exec (.spillBase p d v) s = .next (s.modPart p (fun t => { t with spillBase := t.spillBase.set d (BitVec.ofNat 64 a) })))) ∧
  (∀ (s : State) (p : Nat) (v : Word), s.partExists p = true → v.getLsbD 0 = true →
    let m := (s.part p).mig
    (m.state = 1 → exec (.migGo p v) s = .next s) ∧
    (m.state ≠ 1 → State.rootAddr (tensOf (s.descOf p m.tid)) m.tile = none → exec (.migGo p v) s =
      .next (s.modPart p (fun t => { t with mig := { m with state := 3, cause := 1, npois := 0 } }))) ∧
    (∀ ra, m.state ≠ 1 → State.rootAddr (tensOf (s.descOf p m.tid)) m.tile = some ra → Claims.handsOn (s.modPart p (fun t => { t with
      mig := { m with state := 1, cause := 0, npois := 0, run := m.tile, entry := ra, src := 0, dest := m.dst * 2 ^ 36 + m.page * 2 ^ 16
                      held := false } })) p ra ra 0 0 [] [] (exec (.migGo p v) s))) ∧
  (∀ (s : State) (p : Nat), (∀ x ∈ s.net, State.migHere p x.2 = false) → exec (.migrationComplete p) s = .next s) ∧
  (∀ (s : State) (p k stage off : Nat) (bs : List Byte) (pois : List Nat) (q : Packet), s.net.find? (fun x => State.migHere p x.2) = some (k, q) →
    q.body = .migrate stage off bs pois →
    let m := (s.part p).mig
    let t := s.dropPacket k
    let o := exec (.migrationComplete p) s
    let w := s.readW (hbmKey m.entry)
    (stage = 0 ∨ stage = 1 → t.agentRead m.entry 101 = none → o = .next s) ∧
    (∀ u, stage = 0 → t.agentRead m.entry 101 = some u → let v := u.publish (hbmKey m.entry) 8
      (s.leafAddr p w m.run = none → o = .next (Claims.stops v p 1)) ∧
      (∀ a, s.leafAddr p w m.run = some a →
        Claims.handsOn (v.modPart p (fun x => { x with mig := { x.mig with entry := a } })) p m.entry a 1 0 [] [] o)) ∧
    (∀ u, stage = 1 → t.agentRead m.entry 101 = some u → let v := u.publish (hbmKey m.entry) 8
      (s.pageOf p w = none → o = .next (Claims.stops v p 1)) ∧
      (∀ pg repl, s.pageOf p w = some (pg, repl) →
        (s.hbmIn p m.dest = false → o = .next (Claims.stops v p 2)) ∧
        (s.hbmIn p m.dest = true → repl = true → o = .next (Claims.stops v p 3)) ∧
        (s.hbmIn p m.dest = true → repl = false → pg = m.dest → o = .next (Claims.stops v p 4)) ∧
        (s.hbmIn p m.dest = true → repl = false → pg ≠ m.dest → Claims.handsOn ((v.writeW (hbmKey m.entry) (w ||| 4)).modPart p (fun x => { x with
          mig := { x.mig with src := pg, held := true } })) p m.entry pg 2 0 [] [] o))) ∧
    (stage = 2 → s.writesPending m.src = true → o = .next s) ∧
    (stage = 2 → s.writesPending m.src = false →
      (Config.copyAborts s.tick = true → Claims.handsOn t p m.src m.entry 5 0 [] [] o) ∧
      (Config.copyAborts s.tick = false → 65536 ≤ off → Claims.handsOn t p m.src m.entry 4 0 [] [] o) ∧
      (Config.copyAborts s.tick = false → off < 65536 →
        (t.agentRead m.src 101 = none → o = .next s) ∧
        ∀ u, t.agentRead m.src 101 = some u → let key := hbmKey (m.src + off)
          Claims.handsOn (u.publish key 256) p m.src m.dest 3 off (s.readBytes key 256)
            ((List.range 32).filter (fun j => s.poisoned (key + 8 * j) 8)) o)) ∧
    (stage = 3 → (t.dieAgentTurn m.dest = none → o = .next s) ∧
      ∀ u, t.dieAgentTurn m.dest = some u → let key := hbmKey (m.dest + off)
        Claims.handsOn ((pois.foldl (fun v j => v.addPoison (key + 8 * j) 8) (u.writeBytes key bs)).modPart p (fun x => { x with
          mig := { x.mig with npois := min (x.mig.npois + pois.length) 65535 } })) p m.dest m.src 2 (off + 256) [] [] o) ∧
    (stage = 4 ∨ stage = 5 → t.dieAgentTurn m.entry = none → o = .next s) ∧
    (∀ u, stage = 4 → t.dieAgentTurn m.entry = some u → ∃ v, o = .next v ∧ (v.part p).mig = { m with state := 2, held := false } ∧
      (memWf s.mem = true → v.readW (hbmKey m.entry) = BitVec.ofNat 64 (1 + m.dest / 2 ^ 36 * 2 ^ 16 + m.dest / 2 ^ 16 % 2 ^ 20 * 2 ^ 20) ∧
        ∀ a, (a < hbmKey m.entry ∨ hbmKey m.entry + 8 ≤ a) → v.byte a = s.byte a) ∧
      (∀ x ∈ v.walks, ∀ r ∈ x.2.trans, r.page ≠ m.src) ∧ (∀ d, ∀ c ∈ (v.die d).cache, c.addr ≠ m.entry) ∧ v.cores = s.cores) ∧
    (∀ u, stage = 5 → t.dieAgentTurn m.entry = some u → o = .next (Claims.stops (u.writeW (hbmKey m.entry) (w &&& ~~~(4 : Word))) p 0))) ∧
  (∀ (s : State) (p d i j : Nat) (v : Word), s.ordIndex p d i = some j → let o := (s.die d).ord.get Ord.init j
    let put := fun o => s.modDie d (fun x => { x with ord := x.ord.set j o })
    (o.armed = false → exec (.ordAddr p d i v) s = .next (put { o with addr := v })) ∧
    (o.armed = true → exec (.ordAddr p d i v) s = .next s ∧ exec (.ordN p d i v) s = .next s) ∧
    (o.armed = false → exec (.ordN p d i v) s = .next (put { o with n := v.toNat % 8192 })) ∧
    (∀ key, v.getLsbD 13 = true → o.armed = false → o.n ≠ 0 → o.addr.toNat % 4 = 0 → s.ordWord d j o.addr = some key →
      (s.armedFor d key = none → exec (.ordArm p d i v) s = .next (put { o with armed := true })) ∧
      (s.armedFor d key ≠ none → exec (.ordArm p d i v) s = .next s)) ∧
    (v.getLsbD 13 = false → o.armed = true → o.got = [] → ∃ t, exec (.ordArm p d i v) s = .next t ∧
      (t.die d).ord.get Ord.init j = { o with armed := false } ∧ t.mem = s.mem ∧ t.net = s.net)) ∧
  (∀ (s : State) (p : Nat) (v : Word), s.partExists p = true →
    (v.toNat % 2 ^ 40 % 4096 = 0 → s.hbmIn p (v.toNat % 2 ^ 40) = true → exec (.faBase p v) s =
      .next (s.modPart p (fun t => { t with faBase := BitVec.ofNat 64 (v.toNat % 2 ^ 40), faBaseOk := true }))) ∧
    (6 ≤ v.toNat % 32 → v.toNat % 32 ≤ 20 → exec (.faLog p v) s =
      .next (s.modPart p (fun t => { t with faLog := v.toNat % 32, faLogOk := true }))) ∧
    (v.toNat % 32 < 6 ∨ 20 < v.toNat % 32 → exec (.faLog p v) s = .next s)) ∧
  (∀ (s : State) (p : Nat), s.partExists p = true →
    (s.partState p = 0 → partRsv s.mgmt.region p = false →
      (∀ x ∈ s.shares p, ((s.part p).saveBase.get 0 x.1).toNat / 2 ^ 36 = x.1 ∧ ((s.part p).saveBase.get 0 x.1).toNat % 2 ^ 16 = 0) →
      exec (.preempt p) s = .next (s.modPart p (fun t => { t with state := 1 }))) ∧
    (s.partState p ≠ 0 ∨ partRsv s.mgmt.region p = true → exec (.preempt p) s = .next (s.modPart p (fun t => { t with refused := true }))) ∧
    (s.partState p = 3 → partRsv s.mgmt.region p = false → s.shares p = (s.part p).savedAs →
      exec (.resume p) s = .next (s.modPart p (fun t => { t with state := 4 }))) ∧
    (s.partState p ≠ 3 ∨ partRsv s.mgmt.region p = true ∨ s.shares p ≠ (s.part p).savedAs →
      exec (.resume p) s = .next (s.modPart p (fun t => { t with refused := true })))) ∧
  (∀ (s : State) (cid e : Nat), let p := s.partOf cid
    s.coreIn p cid = true →
    ((s.part p).state = 1 ∨ (s.part p).state = 2 → (s.core cid).saved = false → s.coreQuiet cid = true →
      (let u := (s.modCore cid (fun c => { c with saved := true })).modPart p (fun t => { t with state := 2 })
       (u.cores.filter (fun x => x.2.saved && u.coreIn p x.1)).length ≠ u.partSize p → exec (.coreSave cid) s = .next u) ∧
      (let u := (s.modCore cid (fun c => { c with saved := true })).modPart p (fun t => { t with state := 2 })
       (u.cores.filter (fun x => x.2.saved && u.coreIn p x.1)).length = u.partSize p →
        (u.saveTurns p = none → exec (.coreSave cid) s = .next s) ∧ (u.saveTurns p ≠ none → ∃ t, exec (.coreSave cid) s = .next t ∧
        (t.part p).state = 3 ∧ (t.part p).savedAs = s.shares p ∧ t.core cid = { s.core cid with saved := true } ∧
        t.msi = (if (s.part p).cint then (1 + p) :: s.msi else s.msi) ∧ t.net = s.net ∧ t.cmds = s.cmds ∧ t.insts = s.insts ∧
        ∀ a, (∀ x ∈ s.shares p, ∀ j, j < s.saveSize p → a ≠ hbmKey (((s.part p).saveBase.get 0 x.1).toNat + j)) → t.byte a = s.byte a))) ∧
    ((s.core cid).saved = false → s.coreQuiet cid = false → exec (.coreSave cid) s = .next s) ∧
    ((s.part p).state = 4 → (s.core cid).saved = true → let read := s.agentRead ((s.part p).saveBase.get 0 (dieOf cid)).toNat 101
      (read = none → exec (.coreRestore cid) s = .next s) ∧
      ∀ r, read = some r → let u := r.modCore cid (fun c => { c with saved := false })
        (e ≠ cid → (s.core e).saved = true → s.coreIn p e = true → exec (.coreRestore cid) s = .next u) ∧
        (let v := u.modPart p (fun t => { t with state := 0 })
         (∀ x ∈ u.cores, u.coreIn p x.1 = true → x.2.saved = false) →
          exec (.coreRestore cid) s = .next (if (s.part p).cint then { v with msi := (1 + p) :: v.msi } else v)))) ∧
  (∀ (s : State) (p : Nat), s.saveTurns p = (s.shares p).foldl (fun (o : Option State) x =>
    o.bind (fun t => t.dieAgentTurn ((s.part p).saveBase.get 0 x.1).toNat)) (some s)) ∧
  (∀ (s : State) (i : Nat) (v : Word), i < 32 → let e := s.mgmt.ports.get (0, 0) i
    (v.getLsbD 0 = false → exec (.portEntryWrite i 0 v) s =
      .next (s.modMgmt (fun m => { m with ports := m.ports.set i (v &&& 0x0FFFFFFF, e.2) }))) ∧
    (v.getLsbD 0 = true → e.1.getLsbD 0 = true ∨ s.partExists (v.toNat / 2 % 64) = false ∨
      (∀ x ∈ s.shares (v.toNat / 2 % 64), x.1 ≠ v.toNat / 128 % 16) → exec (.portEntryWrite i 0 v) s = .next s) ∧
    (v.getLsbD 0 = true → e.1.getLsbD 0 = false → s.partExists (v.toNat / 2 % 64) = true →
      (∃ x ∈ s.shares (v.toNat / 2 % 64), x.1 = v.toNat / 128 % 16) → exec (.portEntryWrite i 0 v) s =
      .next (s.modMgmt (fun m => { m with ports := m.ports.set i (v &&& 0x0FFFFFFF, e.2) }))) ∧
    exec (.portEntryWrite i 1 v) s = .next (s.modMgmt (fun m => { m with ports := m.ports.set i (e.1, v &&& 0x7FFFFFFFF) })) ∧
    (∀ a b, exec (.opticalLinkState i (a, b)) s = .next (s.modMgmt (fun m => { m with
      up := if a then insertNat i m.up else m.up.filter (· != i)
      back := if b then insertNat i m.back else m.back.filter (· != i) })))) ∧
  (∀ (s : State) (i addr : Nat) (bs : List Byte), let e := s.mgmt.ports.get (0, 0) i
    let p := e.1.toNat / 2 % 64
    let d := e.1.toNat / 128 % 16
    (e.1.getLsbD 0 = true → i ∈ s.mgmt.up → i ∈ s.mgmt.back → s.partExists p = true → (s.part p).clearing = [] → bs ≠ [] → addr % 2 ^ 36 + bs.length ≤ 2 ^ 36 →
      (∀ x ∈ s.shares p, x.1 = d) → s.replicaBusy p addr bs.length = false → s.migrating (d * 2 ^ 36 + addr % 2 ^ 36) bs.length = false →
      let t := (s.keepOlds (d * 2 ^ 36 + addr % 2 ^ 36) bs.length).writeBytes (hbmKey (d * 2 ^ 36 + addr % 2 ^ 36)) bs
      (s.srefOk p e.2.toNat = true → exec (.peerReplicaWrite i addr (bs, [])) s = .next ((t.modPart p (fun q => { q with quiesced := false })).sendSignal
        (.agent d) { fref := 0, cid := d * 25600, fid := 0, pc := 0, inst := 0, part := p } e.2.toNat 1 bs.length 4)) ∧
      (s.srefOk p e.2.toNat = false → exec (.peerReplicaWrite i addr (bs, [])) s = .next t)) ∧
    ((i ∉ s.mgmt.up ∨ i ∉ s.mgmt.back ∨ (s.part p).clearing ≠ [] ∨ s.migrating (d * 2 ^ 36 + addr % 2 ^ 36) bs.length = true) → exec (.peerReplicaWrite i addr (bs, [])) s = .next s))

/-- O57. From R345, R361 to R370, R373, in part: a record whose commands are all final is written, in a turn of the die agent's at the fault area, and settled: the fault area takes its eight words at
the head, or counts the record as lost where its registers are not accepted or it is full, and the instance stops where its graph has no
policy, or its handler's frame takes the record and
fires; a trigger takes its number where it enters the root, which fences may hold up, and reaches each block once, in root order, and the block latches its snapshot with the trigger's number; a snap is answered after the last; an idle cell is gated and wakes; a quiet
partition is recorded once for each live instance; at a thermal trip every core of the die is dead, at a core reset that core, with both
contexts free and a record of code 0x38 for every instance with a frame on it; a packet for a dead core is refused with code 0x38; slot-unit
words that cannot be read give their owner, or every instance with a frame on the core, a record of code 0x21; one flipped bit of a word is
counted as corrected, and more poison the word and are counted as uncorrectable. While every die stays in reset none of this happens,
and a core that fails has its mark alone.
The model's own choices in it: log entries 8, 9, 35, 37, 48, 3 (the contexts of a dead core hold the values of R41), 24 (the turns at the fault area
and at the image of a handler's spilled frame), 36 (a record whose
extensions do not all fit is lost), 47 (the marks of failed hardware) and 80 (a thermal trip resets the cores alone). -/
def Obligations.FaultsAtWork : Prop :=
  (∀ (s : State) (n : Nat) (r : FaultRec), s.faults[n]? = some r →
    (∀ u, s.faultTurn r.part = some u → (∀ c ∈ r.cmds, c.2.isSome = true) →
      let t := { u with faults := s.faults.eraseIdx n }
      let t := if r.own = 0 then t else t.dropCmd r.own
      (t.handlerTurn r = none → exec (.faultRecordWrite n) s = .next s) ∧
      ∀ v, t.handlerTurn r = some v → exec (.faultRecordWrite n) s = .next (v.settleFault r)) ∧
    (s.faultTurn r.part = none → exec (.faultRecordWrite n) s = .next s) ∧
    ((∃ c ∈ r.cmds, c.2 = none) → exec (.faultRecordWrite n) s = .next s)) ∧
  (∀ (s : State) (p : Nat), let q := s.part p
    let a := (q.faBase.toNat + 64 * (q.faHead.toNat % 2 ^ q.faLog)) % 2 ^ 40
    (q.faBaseOk = false ∨ q.faLogOk = false → s.faultTurn p = some s) ∧
    (q.faBaseOk = true → q.faLogOk = true → s.faultTurn p = if s.addrOpen a then s.takeTurn (a / 2 ^ 36) (State.outputOf (State.pageLoc a)) 101 else none)) ∧
  (∀ (s : State) (r : FaultRec), (s.handlerFrame r = none → s.handlerTurn r = some s) ∧
    (∀ cb cid f, s.handlerFrame r = some (cb, cid, f) → s.handlerTurn r = s.frameTurn cid f ∧ cid = s.handlerCore r cb ∧
      s.takeFrame cid = some f ∧ (s.graphOf r.inst).bind (·.policy) = some cb)) ∧
  (∀ (s : State) (r : FaultRec) (i : Inst), s.inst r.inst = some i → r.acts = true →
    (i.state ≠ 1 ∨ i.stopping ≠ 0 → s.settleFault r = s.writeFault r 2) ∧
    (i.state = 1 → i.stopping = 0 →
      ((s.graphOf r.inst).bind (·.policy) = none → s.settleFault r = (s.writeFault r 0).stopInst r.inst 1) ∧
      (∀ cb, (s.graphOf r.inst).bind (·.policy) = some cb → r.code = 0x20 ∨ r.cb = some cb → s.settleFault r = (s.writeFault r 0).stopInst r.inst 1) ∧
      (∀ cb f, (s.graphOf r.inst).bind (·.policy) = some cb → r.code ≠ 0x20 → r.cb ≠ some cb → (s.core (s.handlerCore r cb)).dead = false →
        s.takeFrame (s.handlerCore r cb) = some f → s.settleFault r = (s.fireHandler r cb (s.handlerCore r cb) f).writeFault r 1) ∧
      (∀ cb, (s.graphOf r.inst).bind (·.policy) = some cb → (s.core (s.handlerCore r cb)).dead = true ∨ s.takeFrame (s.handlerCore r cb) = none →
        s.settleFault r = (s.writeFault r 0).stopInst r.inst 1))) ∧
  (∀ (s : State) (r : FaultRec) (action : Nat), let q := s.part r.part
    (q.faBaseOk = false ∨ q.faLogOk = false ∨ 2 ^ q.faLog < (q.faHead - q.faTail).toNat + 1 + (State.extRecords r).length →
      s.writeFault r action = s.modPart r.part (fun x => { x with faLost := x.faLost + 1 })) ∧
    (q.faBaseOk = true → q.faLogOk = true → State.extRecords r = [] → (q.faHead - q.faTail).toNat + 1 ≤ 2 ^ q.faLog → memWf s.mem = true →
      q.faBase.toNat + 64 * 2 ^ q.faLog ≤ 2 ^ 40 →
      let key := hbmKey (q.faBase.toNat + 64 * (q.faHead.toNat % 2 ^ q.faLog))
      let t := s.writeFault r action
      (t.part r.part).faHead = q.faHead + 1 ∧ (∀ j, j < 8 → t.readW (key + 8 * j) = (State.recordWords r action q.faHead).getD j 0) ∧
        (∀ a, (a < key ∨ key + 64 ≤ a) → t.byte a = s.byte a) ∧ t.cores = s.cores ∧ t.net = s.net)) ∧
  (∀ (s : State) (v : Word), (v.getLsbD 0 = false → exec (.snapTrig v) s = .next s) ∧
    (v.getLsbD 0 = true → ∃ g, g.seq = s.mgmt.snapSeq + 1 ∧ g.root = s.seq + 1 ∧ g.part = none ∧ g.reached = [] ∧ g.fences = [] ∧ exec (.snapTrig v) s =
      .next { s with mgmt := { s.mgmt with snapSeq := s.mgmt.snapSeq + 1 }, trigs := s.trigs.set s.seq g, seq := s.seq + 2 })) ∧
  (∀ (s : State) (n : Nat) (g : Trig), s.packet n = none → s.walks.find? (fun x => x.1 == n) = none →
    s.trigs.find? (fun x => x.1 == n) = some (n, g) → g.root = 0 →
    (s.fencesLeft g.from_ g.fences = [] → exec (.fenceRelease n) s = .next { s with
      mgmt := { s.mgmt with snapSeq := s.mgmt.snapSeq + 1 }, seq := s.seq + 1
      trigs := s.trigs.set n { g with fences := [], seq := s.mgmt.snapSeq + 1, root := s.seq } }) ∧
    (s.fencesLeft g.from_ g.fences ≠ [] → exec (.fenceRelease n) s =
      .next { s with trigs := s.trigs.set n { g with fences := s.fencesLeft g.from_ g.fences } })) ∧
  (∀ (s : State) (n cid f w : Nat) (b : SnapBlock) (o : Bool), s.mgmt.ok = false → exec (.snapshotTriggerArrival n b) s = .next s ∧
    exec (.thermalTrip n) s = .next s ∧ exec (.uncorrectableError cid f o) s = .next s ∧ exec (.softError n w) s = .next s ∧
    (cid < 409600 → ∃ t, exec (.coreReset cid) s = .next t ∧ (t.core cid) = { s.core cid with bad := true } ∧ t.faults = s.faults ∧ t.mem = s.mem ∧
      ∀ c, c ≠ cid → t.core c = s.core c)) ∧
  (∀ (s : State) (n : Nat) (b : SnapBlock) (g : Trig), s.mgmt.ok = true → s.trigs.find? (fun x => x.1 == n) = some (n, g) → s.trigHits g.part b = true → b ∉ g.reached →
    (g.root ≠ 0 → (∀ x ∈ s.trigs, x.2.root ≠ 0 → x.2.root < g.root → s.trigHits x.2.part b = true → b ∈ x.2.reached) →
      ∃ t, exec (.snapshotTriggerArrival n b) s = .next t ∧ t.trigs = s.trigs.set n { g with reached := b :: g.reached } ∧ t.mem = s.mem ∧ t.net = s.net ∧
      (∀ c, b = .core c → (t.core c).snap = { seq := g.seq, valid := true, cyc := (s.core c).cyc, occ := (s.core c).ready.length
                                              ctxs := (if (s.core c).ctx0.busy then 1 else 0) + (if (s.core c).ctx1.busy then 2 else 0)
                                              mq := (s.core c).mq.length, stp := (s.core c).stp.setWidth 32 }) ∧
      (∀ d, let x := (t.die d).snaps.get Snap.init
        (b = .dieAgent d → (x 0).seq = g.seq ∧ (x 0).valid = true) ∧ (b = .launchAgent d → (x 1).seq = g.seq ∧ (x 1).valid = true) ∧
        (b = .power d → (x 2).seq = g.seq ∧ (x 2).valid = true) ∧
        (∀ i, b = .link d i → (x (8 + i)).seq = g.seq ∧ (x (8 + i)).valid = true)) ∧
      (∀ k, let x := (t.cluster k).snaps.get Snap.init
        (∀ e, b = .engine k e → (x e).seq = g.seq ∧ (x e).valid = true) ∧ (b = .sequencer k → (x 4).seq = g.seq ∧ (x 4).valid = true))) ∧
    (g.root = 0 ∨ (∃ x ∈ s.trigs, x.2.root ≠ 0 ∧ x.2.root < g.root ∧ s.trigHits x.2.part b = true ∧ b ∉ x.2.reached) →
      exec (.snapshotTriggerArrival n b) s = .next s)) ∧
  (∀ (s : State) (n : Nat) (g : Trig), s.trigs.find? (fun x => x.1 == n) = some (n, g) →
    ((∀ b ∈ s.trigBlocks g.part, b ∈ g.reached) →
      (g.part = none ∨ g.ret.ow = 0 ∧ g.ret.slot = none → exec (.snapComplete n) s = .next { s with trigs := s.trigs.erase n }) ∧
      (g.part ≠ none → g.ret.ow ≠ 0 ∨ g.ret.slot ≠ none → ∃ p, exec (.snapComplete n) s = .next (State.send { s with trigs := s.trigs.erase n } p) ∧
        p.body = .reply (g.seq.setWidth 64) false ∧ p.dst = .core g.from_.cid ∧ p.ret = g.ret ∧ p.cmd = g.cmd)) ∧
    ((∃ b ∈ s.trigBlocks g.part, b ∉ g.reached) → exec (.snapComplete n) s = .next s)) ∧
  (∀ (s : State) (cell : Nat), cell < 51200 →
    (s.cellIdle cell = true → (s.part (s.cellPart cell)).gate = true → s.partExists (s.cellPart cell) = true →
      dieRsv s.mgmt.region (cell / 3200) = false → exec (.cellGate cell) s = .next (s.setCell cell { s.cell cell with gated := true })) ∧
    (s.cellIdle cell = false ∨ dieRsv s.mgmt.region (cell / 3200) = true → exec (.cellGate cell) s = .next s) ∧
    ((s.cell cell).gated = true → exec (.cellWake cell) s = .next (s.setCell cell { s.cell cell with gated := false }))) ∧
  (∀ (s : State) (p : Nat), s.partExists p = true →
    (s.quiet p = true → (s.part p).quiesced = false → ∃ t rs, exec (.quiescence p) s = .next t ∧ t.faults = s.faults ++ rs ∧ (t.part p).quiesced = true ∧
      rs.map (fun r => r.inst) = (s.insts.filter (fun x => x.2.part == p && x.2.state == 1)).map (fun x => x.1) ∧
      (∀ r ∈ rs, r.kind = 5 ∧ r.code = 0 ∧ r.part = p) ∧ t.mem = s.mem ∧ t.cores = s.cores) ∧
    (s.quiet p = true → (s.part p).quiesced = true → exec (.quiescence p) s = .next s) ∧
    (s.quiet p = false → exec (.quiescence p) s = .next (s.modPart p (fun q => { q with quiesced := false })))) ∧
  (∀ (s : State) (d : Nat), d < 16 → s.mgmt.ok = true → ∃ t, exec (.thermalTrip d) s = .next t ∧ (t.die d).trip = true ∧
    (∀ i, i < 25600 → let c := d * 25600 + i
      (t.core c).dead = true ∧ ((s.core c).dead = false → (t.core c).ctx0 = Ctx.init ∧ (t.core c).ctx1 = Ctx.init ∧
        ∀ x ∈ s.instsOn c, ∃ r ∈ t.faults, r.kind = 3 ∧ r.code = 0x38 ∧ r.inst = x.1)) ∧
    ∀ c, dieOf c ≠ d → t.core c = s.core c) ∧
  (∀ (s : State) (cid : Nat), cid < 409600 → (s.core cid).dead = false → s.mgmt.ok = true → ∃ t, exec (.coreReset cid) s = .next t ∧
    (t.core cid).dead = true ∧ (t.core cid).ctx0 = Ctx.init ∧ (t.core cid).ctx1 = Ctx.init ∧ (t.core cid).mq = [] ∧ (t.core cid).bad = true ∧
    (∀ h, h = State.hardwareAt s.mgmt.repair cid → h ≠ 8 → h ∈ (t.cluster (clidOf cid)).bad) ∧
    (∀ x ∈ s.instsOn cid, ∃ r ∈ t.faults, r.kind = 3 ∧ r.code = 0x38 ∧ r.inst = x.1 ∧ r.f = x.2) ∧ ∀ c, c ≠ cid → t.core c = s.core c) ∧
  (∀ (s : State) (k c : Nat) (p : Packet), s.packet k = some p → State.targetCid p = some c → p.pos = .ready → (s.core c).dead = true →
    ((∀ n st tl es, p.body ≠ .moves n st tl es) → (∀ op z b d x xs, p.body ≠ .atomic op z b d (x :: xs)) → (∀ l bs sc m, p.body ≠ .tile l bs sc m) →
      (p.cmd ≠ 0 → exec (.packetRefused k) s = .next ((s.dropPacket k).failCmd p.cmd 0x38 0 [])) ∧
      (p.cmd = 0 → ∃ r, exec (.packetRefused k) s = .next ((s.dropPacket k).addFault r) ∧ r.kind = 6 ∧ r.code = 0x38 ∧ r.inst = p.from_.inst ∧
        r.w2 = BitVec.ofNat 64 p.from_.fref)) ∧
    (∀ n st tl es w, p.body = .moves n st tl es → s.walk n = some w →
      exec (.packetRefused k) s = .next (((s.dropPacket k).dropWalk n w).failCmd w.cmd 0x38 (walkProgress w) (walkExt w))) ∧
    (∀ op z b d x xs, p.body = .atomic op z b d (x :: xs) → exec (.packetRefused k) s =
      .next ((s.partsOf (x :: xs)).foldl (fun t y => (t.dropPacket y.1).refuseOne y.2) (s.dropPacket k))) ∧
    (∀ l bs sc m a, p.body = .tile l bs sc m → p.src = .core a → exec (.packetRefused k) s =
      .next (((s.dropPacket k).dropMcmd a m).refuseOne p))) ∧
  (∀ (s : State) (cid f : Nat), s.mgmt.ok = true → let k := s.ownerOf cid f
    let t := s.modCore cid (fun c => { c with eccUe := if c.eccUe = BitVec.allOnes 32 then c.eccUe else c.eccUe + 1 })
    ((∀ x ∈ s.instsOn cid, x.1 ≠ k) → exec (.uncorrectableError cid f true) s = .next t) ∧
    (∀ i, (∃ x ∈ s.instsOn cid, x.1 = k) → s.inst k = some i → ∃ r, exec (.uncorrectableError cid f true) s = .next (t.addFault r) ∧
      r.kind = 3 ∧ r.code = 0x21 ∧ r.part = i.part ∧ r.inst = k ∧ r.handle = i.handle ∧ r.w2 = BitVec.ofNat 64 (mkFref cid f) ∧ r.acts = true) ∧
    (∃ u rs, exec (.uncorrectableError cid f false) s = .next u ∧ u.faults = s.faults ++ rs ∧ u.cores = t.cores ∧ u.mem = s.mem ∧
      rs.map (fun r => (r.inst, r.f)) = s.instsOn cid ∧ ∀ r ∈ rs, r.kind = 3 ∧ r.code = 0x21)) ∧
  (∀ (s : State) (key n : Nat), s.mgmt.ok = true → let w := key / 8 * 8
    let off := w % 2 ^ 60
    let cid := off / 2 ^ 17
    let up := fun c : BitVec 32 => if c = BitVec.allOnes 32 then c else c + 1
    (key < 2 ^ 60 → exec (.softError key 1) s = .next (s.modCore cid (fun c => { c with eccCe := up c.eccCe }))) ∧
    (key < 2 ^ 60 → 2 ≤ n → s.slotFrame cid (off % 2 ^ 17) = none → exec (.softError key n) s =
      .next ((s.modCore cid (fun c => { c with eccUe := up c.eccUe })).addPoison w 8)) ∧
    (∀ f, key < 2 ^ 60 → 2 ≤ n → s.slotFrame cid (off % 2 ^ 17) = some f → ∃ t, exec (.uncorrectableError cid f true) s = .next t ∧
      exec (.softError key n) s = .next (t.addPoison w 8)) ∧
    (2 ^ 60 ≤ key → key < 4 * 2 ^ 60 →
      let d := if key / 2 ^ 60 = 1 then off / 2 ^ 22 / 100 else if key / 2 ^ 60 = 2 then off / 2 ^ 28 else off / 2 ^ 36
      exec (.softError key 1) s = .next (s.modDie d (fun x => { x with eccCe := up x.eccCe })) ∧
      (2 ≤ n → exec (.softError key n) s = .next ((s.modDie d (fun x => { x with eccUe := up x.eccUe })).addPoison w 8))))

/-- O58. From R9, R317 to R333, R344, R347, R348, R352, R375 to R381, and the fabric, in part: a module reset boots the active image where it is
accepted, else the other, else none; Freit's commands one at a time with their results; the register windows and device memory as
the host reads and writes them, and a partition's tensor descriptors there, an access taking its turn at the channel group's output and a write waiting while its page is migrated, and a read giving the newest bytes or, where R246 permits it, earlier ones; a
packet for a saved core is applied to its image; and a packet's way: to an output port of its
router, over a link flit by flit to the next router or its end, into its splice where there is room and out of it in order, and over a
crossbar to its unit or, for another die, to its link controller: the
asker whose input stands first in the output's order, which then goes to its end, and under a reservation only the owner of the cycle; a step notice crosses a die edge on the
control wavelength, whatever the edge's entry says; a channel starts the first request that it may, under a reservation one of the owner of the
window that ends within it (R344).
The model's own choices in it: log entries 7 (the older bytes that a host read may give), 8, 9, 26, 41, 43, 44, 45, 24 (the mirror's outputs have the inputs 0 to 103 too, and the turns of agents), 40 (the image of a
saved core is its state with the mark lifted), 60 (where the descriptors stand), 72 (a host write waits for a migration), 75 (Freit's commands run
while every die stays in reset, and the poison of mailbox words is not looked at) and 76 (a host write stores the bit mig as it is written). -/
def Obligations.ServiceAndFabric : Prop :=
  (∀ (s : State), let a := s.mgmt.active % 2
    let img := s.slotImage a
    (imageCause img s.mgmt.floor.toNat = 0 → ∃ t, exec .moduleReset s = .next t ∧ t.mgmt.ok = true ∧ t.mgmt.slot = a ∧ t.mgmt.cause = 0 ∧
      t.mgmt.ver = BitVec.ofNat 32 (fieldOf img 8 4) ∧ t.mgmt.floor = s.mgmt.floor ∧ t.mgmt.active = s.mgmt.active ∧ t.net = [] ∧ t.parts = [] ∧
      t.insts = [] ∧ t.faults = [] ∧ t.walks = [] ∧ t.cmds = [] ∧ t.dies = [] ∧ t.mem = s.mem) ∧
    (imageCause img s.mgmt.floor.toNat ≠ 0 → imageCause (s.slotImage (1 - a)) s.mgmt.floor.toNat = 0 →
      ∃ t, exec .moduleReset s = .next t ∧ t.mgmt.ok = true ∧ t.mgmt.slot = 1 - a ∧ t.mgmt.cause = imageCause img s.mgmt.floor.toNat) ∧
    (imageCause img s.mgmt.floor.toNat ≠ 0 → imageCause (s.slotImage (1 - a)) s.mgmt.floor.toNat ≠ 0 →
      ∃ t, exec .moduleReset s = .next t ∧ t.mgmt.ok = false ∧ t.mgmt.cause = imageCause img s.mgmt.floor.toNat)) ∧
  (∀ (s : State), s.mgmt.cmd ≠ 0 → let t := s.modMgmt (fun m => { m with busyErr := true })
    exec .mgCmdLoad s = .next t ∧ exec .mgCmdActivate s = .next t ∧ exec .mgCmdFloor s = .next t ∧ exec .mgCmdQuote s = .next t ∧
    exec .freitCommandDone s = .next (s.modMgmt (fun m => { m with cmd := 0, res := m.resNext }))) ∧
  (∀ (s : State), s.mgmt.cmd = 0 →
    exec .mgCmdFloor s = .next (s.modMgmt (fun m => { m with
      floor := if m.floor.toNat < m.ver.toNat then m.ver else m.floor, cmd := 3, resNext := 0 })) ∧
    (let other := 1 - s.mgmt.active % 2
     (imageCause (s.slotImage other) s.mgmt.floor.toNat = 0 → exec .mgCmdActivate s =
       .next (s.modMgmt (fun m => { m with active := other, cmd := 2, resNext := 0 }))) ∧
     (imageCause (s.slotImage other) s.mgmt.floor.toNat ≠ 0 → exec .mgCmdActivate s = .next (s.modMgmt (fun m => { m with cmd := 2, resNext := 1 })))) ∧
    (∀ h img, s.mailboxData 64 = some h → headerOk h = true → s.mailboxData (fieldOf h 16 8) = some img →
      (imageCause img s.mgmt.floor.toNat = 0 → exec .mgCmdLoad s = .next ((State.writeBytes { s with
        mem := memClear s.mem (freitKey (1 - s.mgmt.active % 2) 0) (2 ^ 64), older := (s.sawMailbox (fieldOf h 16 8)).older } (freitKey (1 - s.mgmt.active % 2) 0) img).modMgmt
          (fun m => { m with cmd := 1, resNext := 0 }))) ∧
      (imageCause img s.mgmt.floor.toNat ≠ 0 → exec .mgCmdLoad s =
        .next ((s.sawMailbox (fieldOf h 16 8)).modMgmt (fun m => { m with cmd := 1, resNext := 1 })))) ∧
    (∀ nonce, s.mailboxData 32 = some nonce → let q := s.quoteBytes nonce
      (∀ ps, s.mailboxPages (State.mailboxSpan (64 + q.length)) s.mgmt.mbox.toNat = some ps → exec .mgCmdQuote s =
        .next (((s.sawMailbox 32).writeMailbox ps q).modMgmt (fun m => { m with cmd := 4, resNext := 0 }))) ∧
      (s.mailboxPages (State.mailboxSpan (64 + q.length)) s.mgmt.mbox.toNat = none → exec .mgCmdQuote s =
        .next ((s.sawMailbox 32).modMgmt (fun m => { m with cmd := 4, resNext := 2 }))))) ∧
  (∀ (s : State) (n : Nat), s.sawMailbox n = { s with older := (s.sawMailbox n).older } ∧
    (∀ e ∈ (s.sawMailbox n).older, e ∈ s.older) ∧
    ∀ ps, s.mailboxPages (State.mailboxSpan n) s.mgmt.mbox.toNat = some ps → ∀ a ∈ ps, ∀ e ∈ (s.sawMailbox n).older,
      overlaps e.key 8 (hbmKey a) 4096 = false) ∧
  (∀ (s : State) (off n : Nat) (v : Word), (n = 1 ∨ n = 2 ∨ n = 4 ∨ n = 8) → off % n = 0 → off < 2 ^ 40 → s.mgmt.ok = true →
    s.hostWaits off = false →
    (s.inSaveArea off = false → s.hostTurn off = none → exec (.hostWrite 2 off n v) s = .next s ∧ exec (.hostRead 2 off n) s = .next s) ∧
    (s.migrating off n = true → exec (.hostWrite 2 off n v) s = .next s) ∧
    (∀ t, s.inSaveArea off = false → s.migrating off n = false → s.descAt off = none → s.hostTurn off = some t →
      exec (.hostWrite 2 off n v) s = .next ((t.keepOlds off n).writeN (hbmKey off) n (v.toNat % 2 ^ (8 * n)))) ∧
    (∀ t, s.inSaveArea off = false → s.descAt off = none → s.hostReadTurn off = some t → exec (.hostRead 2 off n) s =
      .next { t.saw State.hostReader (hbmKey off) n with hostData := (BitVec.ofNat 64 (s.seenN State.hostReader (hbmKey off) n), s.poisoned (hbmKey off) n) }) ∧
    (∀ p tid j t, s.inSaveArea off = false → s.migrating off n = false → s.descAt off = some (p, tid, j) → s.hostTurn off = some t →
      exec (.hostWrite 2 off n v) s = .next (t.modPart p (fun q => { q with descs := q.descs.set tid ((List.range 8).map (fun i =>
        if i = j then BitVec.ofNat 64 (setBits (s.descWord p tid i).toNat (8 * (off % 8)) (8 * n) v.toNat) else s.descWord p tid i)) }))) ∧
    (∀ p tid j t, s.inSaveArea off = false → s.descAt off = some (p, tid, j) → s.hostReadTurn off = some t → exec (.hostRead 2 off n) s =
      .next { t with hostData := (BitVec.ofNat 64 (bits (s.descWord p tid j).toNat (8 * (off % 8)) (8 * n)), false) }) ∧
    (s.inSaveArea off = true → exec (.hostWrite 2 off n v) s = .next s ∧ exec (.hostRead 2 off n) s = .next { s with hostData := (0, false) })) ∧
  (∀ (s : State) (p tid : Nat), tid < 65536 → (s.descWord p tid 0).toNat % 2 ^ 16 = tid) ∧
  (∀ (s t : State) (die out input : Nat), (s.takeTurn die out input = some t → t = s.granted die out input) ∧
    (dieRsv s.mgmt.region die = false → (∀ x ∈ s.net, s.asks die out x.2 = false) → s.takeTurn die out input = some (s.granted die out input))) ∧
  (∀ (s : State) (a input cid i : Nat), let out := 32 + a / 2 ^ 16 % 32 / 2
    let img := (s.overflowPtr cid + 256 * i) % 2 ^ 40
    (s.addrOpen a = false → s.agentAccess a input = none) ∧
    (s.addrOpen a = true → s.agentAccess a input = s.takeTurn (a / 2 ^ 36) out input) ∧
    s.agentRead a input = (s.agentAccess a input).bind (fun t => t.takeTurn (a / 2 ^ 36) (input + 64) out) ∧
    s.hostTurn a = s.agentAccess a 102 ∧ s.hostReadTurn a = s.agentRead a 102 ∧ s.dieAgentTurn a = s.agentAccess a 101 ∧
    s.imageTurn cid i = s.agentAccess img 101 ∧ s.imageRead cid i = s.agentRead img 101) ∧
  (∀ (s : State) (a d ch q : Nat), s.addrOpen a = s.channelOpen (a / 2 ^ 36) (a / 2 ^ 16 % 32) (a % 2 ^ 36 / 2 ^ 34) ∧
    (dieRsv s.mgmt.region d = false → s.channelOpen d ch q = true) ∧
    (dieRsv s.mgmt.region d = true → let c := (s.die d).hcyc.get 0 ch
      (s.channelOpen d ch q = true ↔ (isSplit (s.mgmt.region.get 0 d) = true → c % 128 / 32 = q) ∧ c % 32 + Config.freeBeats ch ≤ 32))) ∧
  (∀ (s : State) (die out input : Nat), let t := s.granted die out input
    t.mem = s.mem ∧ t.net = s.net ∧ t.cores = s.cores ∧ t.parts = s.parts ∧ (t.die die).xbar.get [] out =
      (State.inputOrder (s.die die) out).filter (· != input) ++ [input] ∧ (s.die die).xcyc.get 0 out < (t.die die).xcyc.get 0 out) ∧
  (∀ (s : State) (off : Nat) (v : Word), off % 8 = 0 → off < 2 ^ 24 → s.readReg off < 2 ^ 64 →
    exec (.hostWrite 0 off 8 v) s = .next (s.writeReg off v) ∧
    exec (.hostRead 0 off 8) s = .next { s with hostData := (BitVec.ofNat 64 (s.readReg off), false) }) ∧
  (∀ (s : State) (d : Nat) (v : Word), d < 16 → exec (.hostWrite 0 (0x100 + 8 * d) 4 v) s = .next (s.modMgmt (fun m => { m with
    regionSh := m.regionSh.set d (BitVec.ofNat 64 (setBits (m.regionSh.get 0 d).toNat 0 32 v.toNat)) }))) ∧
  (∀ (s : State) (off : Nat) (v : Word),
    (off < 0x10000 → exec (.registerWrite off v) s = .next (s.plainModule off v)) ∧
    (exec (.registerWrite 0x010 v) s = .next (s.modMgmt (fun m => { m with cbusy := m.cbusy && !(v.getLsbD 0), cbad := m.cbad && !(v.getLsbD 1) }))) ∧
    (∀ d, d < 16 → exec (.registerWrite (0x100 + 8 * d) v) s = .next (s.modMgmt (fun m => { m with regionSh := m.regionSh.set d v }))) ∧
    (∀ p, p < 64 → s.mgmt.ok = true → s.partExists p = true →
      exec (.registerWrite (0x100000 + 0x10000 * p + 0x618) v) s = .next (s.modPart p (fun t => { t with faTail := v.setWidth 32 })))) ∧
  (∀ (s : State) (n cid : Nat) (p : Packet), s.packet n = some p → p.dst = .core cid → (s.core cid).saved = true →
    exec (.savedPacketApply n) s = .next (((s.modCore cid (fun c => { c with saved := false })).applyPacket cid n p).modCore cid
      (fun c => { c with saved := true }))) ∧
  (∀ (s : State) (k a b : Nat) (p : Packet), s.packet k = some p → p.src = .core a → p.dst = .core b → a ≠ b → dieOf a = dieOf b → p.pos = .sender →
    p.rel = false → p.fences = [] → ∃ t, let q := { p with gen := s.mgmt.gen }
      let r := s.routePort q a b (modX a) (modY a) (s.vcBase q)
      let ov := if State.onControl p = true ∧ (State.edgeEntry (modX a) (modY a) r.1).isSome = true then r.2 + 32 else r.2
      exec (.routerHop k) s = .next t ∧ t.net = s.net.set k { q with pos := .link (modX a) (modY a) 4 (s.vcBase q) r.1 ov 0 } ∧
      k ∈ (t.link (linkKey (modX a) (modY a) r.1)).q.get [] ov ∧ t.mem = s.mem ∧ t.cores = s.cores) ∧
  (∀ (s : State) (k a b x y inp vc : Nat) (p : Packet), s.packet k = some p → p.src = .core a → p.dst = .core b → a ≠ b →
    p.pos = .router x y inp vc → ∃ t q, let r := s.routePort p a b x y vc
      let ov := if State.onControl p = true ∧ (State.edgeEntry x y r.1).isSome = true then r.2 + 32 else r.2
      exec (.routerHop k) s = .next t ∧ t.net = s.net.set k q ∧ q = { p with pos := .link x y inp vc r.1 ov 0 } ∧
      k ∈ (t.link (linkKey x y r.1)).q.get [] ov ∧ t.mem = s.mem ∧ t.cores = s.cores) ∧
  (∀ (s : State) (x y port v k a b inp vc sent : Nat) (l : List Nat) (p : Packet), State.edgeEntry x y port = none → v ∈ [0, 1, 2, 3, 9, 11] →
    let key := linkKey x y port
    (∀ u, u ≠ v → (s.link key).q.get [] u = []) → (s.link key).q.get [] v = k :: l → s.packet k = some p → p.src = .core a → p.dst = .core b → a ≠ b →
    p.pos = .link x y inp vc port v sent →
    (sent + 1 < flitsOf p → (sent ≠ 0 ∨ routerAt x y port = (modX b, modY b) ∨ 0 < s.freeSlots x y port v) →
      ∃ t, exec (.linkFlitSend x y port) s = .next t ∧ t.net = s.net.set k { p with pos := .link x y inp vc port v (sent + 1) } ∧
        (t.link key).q = (s.link key).q ∧ (s.link key).cyc < (t.link key).cyc ∧ t.mem = s.mem) ∧
    (flitsOf p ≤ sent + 1 → routerAt x y port = (modX b, modY b) → ∃ t, exec (.linkFlitSend x y port) s = .next t ∧
      t.net = s.net.set k { p with pos := if p.splice = 64 then .ready else .ingress } ∧ (t.link key).q.get [] v = l ∧ t.mem = s.mem) ∧
    (flitsOf p ≤ sent + 1 → routerAt x y port ≠ (modX b, modY b) → (sent ≠ 0 ∨ 0 < s.freeSlots x y port v) →
      ∃ t, exec (.linkFlitSend x y port) s = .next t ∧
        t.net = s.net.set k { p with pos := .router (routerAt x y port).1 (routerAt x y port).2 (opposite port) v } ∧
        (t.link key).q.get [] v = l ∧ t.mem = s.mem)) ∧
  (∀ (s : State) (x y port i v k a b inp vc src : Nat) (stp : Word) (done : Bool) (l : List Nat) (p : Packet),
    State.edgeEntry x y port = some i → v ∈ [32, 33, 36, 37, 41, 45] →
    let key := linkKey x y port
    (∀ u, u ≠ v → (s.link key).q.get [] u = []) → (s.link key).q.get [] v = k :: l → s.packet k = some p → p.src = .core a → p.dst = .core b → a ≠ b →
    p.body = .notice src stp done → p.bulk = false → p.pos = .link x y inp vc port v 0 →
    (routerAt x y port = (modX b, modY b) → p.splice = 64 → ∃ t, exec (.linkFlitSend x y port) s = .next t ∧
      t.net = s.net.set k { p with pos := .ready } ∧ (t.link key).q.get [] v = l ∧ t.mem = s.mem) ∧
    (routerAt x y port ≠ (modX b, modY b) → 0 < s.freeSlots x y port v → ∃ t, exec (.linkFlitSend x y port) s = .next t ∧
      t.net = s.net.set k { p with pos := .router (routerAt x y port).1 (routerAt x y port).2 (opposite port) (v % 32) } ∧
      (t.link key).q.get [] v = l ∧ t.mem = s.mem)) ∧
  (∀ (s : State) (x y port : Nat), (∀ v, (s.link (linkKey x y port)).q.get [] v = []) →
    ∃ t, exec (.linkFlitSend x y port) s = .next t ∧ t.net = s.net ∧ (t.link (linkKey x y port)).q = (s.link (linkKey x y port)).q ∧
      (s.link (linkKey x y port)).cyc < (t.link (linkKey x y port)).cyc ∧ t.mem = s.mem) ∧
  (∀ (s : State) (k i : Nat) (e : SpliceSt) (p : Packet), s.packet k = some p → State.atController p = true →
    locDie p.src ≠ locDie p.dst → (∀ op z b d, p.body ≠ .atomic op z b d []) → s.spliceOf p = some i →
    (s.part p.from_.part).splices.find? (fun x => x.1 == i) = some (i, e) →
    (e.depth ≤ e.held → exec (.spliceEgressEnter k) s =
      .next (if p.pos = .sender then s.setPacket k { p with pos := .egress, gen := s.mgmt.gen } else s)) ∧
    (e.held < e.depth → ∃ t q, exec (.spliceEgressEnter k) s = .next t ∧ t.net = s.net.set k q ∧ q.splice = i ∧
      q.gen = (if p.pos = .sender then s.mgmt.gen else p.gen) ∧ q.body = p.body ∧ (t.part p.from_.part).splices = (s.part p.from_.part).splices.set i { e with held := e.held + 1, order := e.order ++ [k] })) ∧
  (∀ (s : State) (p i k : Nat) (e : SpliceSt) (q : Packet) (l : List Nat), i ≠ 64 → (s.part p).splices.find? (fun x => x.1 == i) = some (i, e) →
    e.order = k :: l → s.packet k = some q →
    (q.pos = .ingress ∨ q.pos = .crossing ∧ s.crossOpen q = true → exec (.spliceIngressDeliver p i) s = .next ((s.deliver k q).modPart p (fun u => { u with
      splices := u.splices.set i { e with held := e.held - 1, order := l } }))) ∧
    (q.pos ≠ .ingress → q.pos ≠ .crossing → exec (.spliceIngressDeliver p i) s = .next s)) ∧
  (∀ (s : State) (d out : Nat),
    (∀ l m i k p, State.inputOrder (s.die d) out = l ++ i :: m → (∀ x ∈ s.asking d out, s.inputOf x.2 out ∉ l) →
      ((s.asking d out).filter (fun x => s.inputOf x.2 out == i)).head? = some (k, p) → ∃ t q, exec (.crossbarGrant d out) s = .next t ∧
      t.net = s.net.set k q ∧ (locDie p.dst = d → q.pos = .ready) ∧ (locDie p.dst ≠ d → q.pos = .egress) ∧ q.body = p.body ∧
      (t.die d).xbar.get [] out = (l ++ i :: m).filter (· != i) ++ [i] ∧ t.mem = s.mem) ∧
    (s.asking d out = [] → ∃ t, exec (.crossbarGrant d out) s = .next t ∧ t.net = s.net ∧ t.mem = s.mem) ∧
    ((∀ o, (s.die d).xbar.find? (fun x => x.1 == out) ≠ some (out, o)) → State.inputOrder (s.die d) out = List.range 104) ∧
    (∀ x, x ∈ s.asking d out ↔ x ∈ s.net ∧ s.asks d out x.2 = true ∧ s.ownsCycle d out (s.turnOf d x.2) = true) ∧
    (∀ o, let c := (s.die d).xcyc.get 0 out
      (dieRsv s.mgmt.region d = false → s.ownsCycle d out o = true) ∧
      (dieRsv s.mgmt.region d = true → isSplit (s.mgmt.region.get 0 d) = true → State.sharedOutput out = true →
        (s.ownsCycle d out o = true ↔ if c % 5 = 4 then o = 4 else o = c % 5)) ∧
      (dieRsv s.mgmt.region d = true → isSplit (s.mgmt.region.get 0 d) = false → (s.ownsCycle d out o = true ↔ (c % 5 = 4 ↔ o = 4))))) ∧
  (∀ (s : State) (d ch : Nat) (r : HbmReq) (w : Walk),
    (s.die d).hbmq.find? (fun x => x.ch == ch && s.channelOpen d ch x.quarter) = some r → s.walk r.walk = some w → ∃ t, exec (.hbmRequestStart d ch) s = .next t ∧
      (t.die d).hbmq = (s.die d).hbmq.erase r ∧ t.walks = s.walks.set r.walk { w with
        trans := w.trans.map (fun x => if x.tile = r.tile then { x with started := true } else x) } ∧ t.net = s.net ∧ t.mem = s.mem) ∧
  (∀ (s : State) (d ch : Nat), (∀ r ∈ (s.die d).hbmq, r.ch = ch → s.channelOpen d ch r.quarter = false) → ∃ t,
    exec (.hbmRequestStart d ch) s = .next t ∧ (t.die d).hbmq = (s.die d).hbmq ∧ (s.die d).hcyc.get 0 ch < (t.die d).hcyc.get 0 ch ∧
      t.walks = s.walks ∧ t.net = s.net ∧ t.mem = s.mem)

/-- O59. The memory keeps its canonical form, keys rising and no byte 0 listed, whatever the machine does: every step from a state with
it leads to a state with it (the model's own invariant; it is what lets a byte that was written be read back). -/
def Obligations.MemoryCanonical : Prop :=
  ∀ (s t : State), memWf s.mem = true → step s = .next t → memWf t.mem = true

/-- O60. After reset the memory is in its canonical form with every byte 0 (log entry 2) and nothing poisoned; no packet, command, walk,
instance or fault is in flight; every core is as R6 leaves it, free and with empty queues, tiles, ports and snapshots, its contexts with the register values of R41 (log
entry 3); the
region table holds no partition, every connection entry is 0xFFFF (R322), the generation and the snapshot number are 0, no commit
drains, and every crossbar output has the ascending order (R331). -/
def Obligations.ResetValues : Prop :=
  let s := State.reset
  memWf s.mem = true ∧ (∀ a, s.byte a = 0) ∧ s.poison = [] ∧ s.net = [] ∧ s.cmds = [] ∧ s.walks = [] ∧ s.insts = [] ∧ s.faults = [] ∧ s.trigs = [] ∧
  (∀ c, (s.core c).ctx0 = Ctx.init ∧ (s.core c).ctx1 = Ctx.init ∧ (s.core c).cyc = 0 ∧ (s.core c).conflicts = 0 ∧ (s.core c).stp = 0 ∧
    (s.core c).done = false ∧ (s.core c).ready = [] ∧ (s.core c).mq = [] ∧ (s.core c).eccCe = 0 ∧ (s.core c).eccUe = 0 ∧ (s.core c).dead = false ∧
    (s.core c).snap.valid = false ∧ (∀ t i j, State.entry (s.core c) t i j = Spool.zero) ∧
    (∀ d, (s.core c).inq.get [] d = [] ∧ (s.core c).outq.get [] d = [])) ∧
  (∀ r, Ctx.init.s.get 0 r = 0) ∧ Ctx.init.p = 0 ∧ (∀ r, Ctx.init.v.get Lane.zero r = Lane.zero) ∧ (∀ r, Ctx.init.k.get 0 r = 0) ∧
  (∀ r, Ctx.init.y.get Spool.zero r = Spool.zero) ∧ Ctx.init.grant = 0 ∧
  (∀ p, s.partExists p = false) ∧ (∀ i, s.mgmt.conn.get 0xFFFF i = 0xFFFF ∧ s.connFor 0 i = 0xFFFF) ∧ s.mgmt.gen = 0 ∧ s.mgmt.drain = false ∧
  s.mgmt.cbusy = false ∧ s.mgmt.cbad = false ∧ s.mgmt.snapSeq = 0 ∧ s.mgmt.cmd = 0 ∧
  (∀ d out, ((s.die d).xbar.find? (fun x => x.1 == out)) = none) ∧ (∀ d, (s.die d).trip = false) ∧ (∀ c, (s.cell c).ptr = 0 ∧ (s.cell c).gated = false)
end

