-- ==== Sys2Proof/Laws/Tables.lean ====
section
/-! SUPPORT. Laws of the finite tables: what a read gives after a write or an erasure. -/

namespace Sys2Proof

variable {α : Type}

/-- A key reads as the value last written to it. -/
@[simp] theorem Tbl.get_set_same (d v : α) (t : Tbl α) (i : Nat) : (t.set i v).get d i = v := by
  induction t with
  | nil => simp [Tbl.set, Tbl.get]
  | cons c t ih =>
    obtain ⟨k, w⟩ := c
    unfold Tbl.set
    split
    · simp [Tbl.get, *]
    · split
      · simp [Tbl.get]
      · rename_i h _
        simp [Tbl.get, h, ih]

/-- A write of one key changes no other. -/
theorem Tbl.get_set_other (d v : α) (t : Tbl α) (i j : Nat) (h : j ≠ i) : (t.set i v).get d j = t.get d j := by
  induction t with
  | nil => simp [Tbl.set, Tbl.get, h]
  | cons c t ih =>
    obtain ⟨k, w⟩ := c
    unfold Tbl.set
    split
    · rename_i hk
      subst hk
      simp [Tbl.get, h]
    · split
      · simp [Tbl.get, h]
      · simp only [Tbl.get, ih]

/-- A second setting of a key replaces the first. -/
theorem Tbl.set_set (t : Tbl α) (i : Nat) (v w : α) : (t.set i v).set i w = t.set i w := by
  induction t with
  | nil => simp [Tbl.set]
  | cons c t ih =>
    obtain ⟨k, u⟩ := c
    by_cases h : i = k
    · subst h; simp [Tbl.set]
    · by_cases h2 : i < k
      · simp [Tbl.set, h, h2]
      · simp [Tbl.set, h, h2, ih]

/-- An erased key reads as the default. -/
@[simp] theorem Tbl.get_erase_same (d : α) (t : Tbl α) (i : Nat) : (t.erase i).get d i = d := by
  induction t with
  | nil => rfl
  | cons c t ih =>
    obtain ⟨k, w⟩ := c
    by_cases h : k = i
    · simpa [Tbl.erase, h] using ih
    · simp only [Tbl.erase, List.filter_cons, ne_eq, h, not_false_eq_true, decide_true, if_true, Tbl.get]
      rw [if_neg (fun e => h e.symm)]
      exact ih

end Sys2Proof
end

