-- ==== Sys2Proof/Laws/State.lean ====
section
/-! SUPPORT. What each update of the state leaves alone, field by field. -/

namespace Sys2Proof.Machine

@[simp] theorem State.writeN_cores (s : State) (k n v : Nat) : (s.writeN k n v).cores = s.cores := rfl
@[simp] theorem State.writeN_cells (s : State) (k n v : Nat) : (s.writeN k n v).cells = s.cells := rfl
@[simp] theorem State.writeN_clusters (s : State) (k n v : Nat) : (s.writeN k n v).clusters = s.clusters := rfl
@[simp] theorem State.writeN_dies (s : State) (k n v : Nat) : (s.writeN k n v).dies = s.dies := rfl
@[simp] theorem State.writeN_parts (s : State) (k n v : Nat) : (s.writeN k n v).parts = s.parts := rfl
@[simp] theorem State.writeN_insts (s : State) (k n v : Nat) : (s.writeN k n v).insts = s.insts := rfl
@[simp] theorem State.writeN_cmds (s : State) (k n v : Nat) : (s.writeN k n v).cmds = s.cmds := rfl
@[simp] theorem State.writeN_net (s : State) (k n v : Nat) : (s.writeN k n v).net = s.net := rfl
@[simp] theorem State.writeN_walks (s : State) (k n v : Nat) : (s.writeN k n v).walks = s.walks := rfl
@[simp] theorem State.writeN_faults (s : State) (k n v : Nat) : (s.writeN k n v).faults = s.faults := rfl
@[simp] theorem State.writeN_trigs (s : State) (k n v : Nat) : (s.writeN k n v).trigs = s.trigs := rfl
@[simp] theorem State.writeN_links (s : State) (k n v : Nat) : (s.writeN k n v).links = s.links := rfl
@[simp] theorem State.writeN_mgmt (s : State) (k n v : Nat) : (s.writeN k n v).mgmt = s.mgmt := rfl
@[simp] theorem State.writeN_msi (s : State) (k n v : Nat) : (s.writeN k n v).msi = s.msi := rfl
@[simp] theorem State.writeN_hostData (s : State) (k n v : Nat) : (s.writeN k n v).hostData = s.hostData := rfl
@[simp] theorem State.writeN_cur (s : State) (k n v : Nat) : (s.writeN k n v).cur = s.cur := rfl
@[simp] theorem State.writeN_seq (s : State) (k n v : Nat) : (s.writeN k n v).seq = s.seq := rfl
@[simp] theorem State.writeN_tick (s : State) (k n v : Nat) : (s.writeN k n v).tick = s.tick := rfl
@[simp] theorem State.writeN_sched (s : State) (k n v : Nat) : (s.writeN k n v).sched = s.sched := rfl
@[simp] theorem State.writeW_cores (s : State) (k : Nat) (v : Word) : (s.writeW k v).cores = s.cores := rfl
@[simp] theorem State.writeW_cells (s : State) (k : Nat) (v : Word) : (s.writeW k v).cells = s.cells := rfl
@[simp] theorem State.writeW_clusters (s : State) (k : Nat) (v : Word) : (s.writeW k v).clusters = s.clusters := rfl
@[simp] theorem State.writeW_dies (s : State) (k : Nat) (v : Word) : (s.writeW k v).dies = s.dies := rfl
@[simp] theorem State.writeW_parts (s : State) (k : Nat) (v : Word) : (s.writeW k v).parts = s.parts := rfl
@[simp] theorem State.writeW_insts (s : State) (k : Nat) (v : Word) : (s.writeW k v).insts = s.insts := rfl
@[simp] theorem State.writeW_cmds (s : State) (k : Nat) (v : Word) : (s.writeW k v).cmds = s.cmds := rfl
@[simp] theorem State.writeW_net (s : State) (k : Nat) (v : Word) : (s.writeW k v).net = s.net := rfl
@[simp] theorem State.writeW_walks (s : State) (k : Nat) (v : Word) : (s.writeW k v).walks = s.walks := rfl
@[simp] theorem State.writeW_faults (s : State) (k : Nat) (v : Word) : (s.writeW k v).faults = s.faults := rfl
@[simp] theorem State.writeW_trigs (s : State) (k : Nat) (v : Word) : (s.writeW k v).trigs = s.trigs := rfl
@[simp] theorem State.writeW_links (s : State) (k : Nat) (v : Word) : (s.writeW k v).links = s.links := rfl
@[simp] theorem State.writeW_mgmt (s : State) (k : Nat) (v : Word) : (s.writeW k v).mgmt = s.mgmt := rfl
@[simp] theorem State.writeW_msi (s : State) (k : Nat) (v : Word) : (s.writeW k v).msi = s.msi := rfl
@[simp] theorem State.writeW_hostData (s : State) (k : Nat) (v : Word) : (s.writeW k v).hostData = s.hostData := rfl
@[simp] theorem State.writeW_cur (s : State) (k : Nat) (v : Word) : (s.writeW k v).cur = s.cur := rfl
@[simp] theorem State.writeW_seq (s : State) (k : Nat) (v : Word) : (s.writeW k v).seq = s.seq := rfl
@[simp] theorem State.writeW_tick (s : State) (k : Nat) (v : Word) : (s.writeW k v).tick = s.tick := rfl
@[simp] theorem State.writeW_sched (s : State) (k : Nat) (v : Word) : (s.writeW k v).sched = s.sched := rfl
@[simp] theorem State.writeBytes_cores (s : State) (k : Nat) (bs : List Byte) : (s.writeBytes k bs).cores = s.cores := rfl
@[simp] theorem State.writeBytes_cells (s : State) (k : Nat) (bs : List Byte) : (s.writeBytes k bs).cells = s.cells := rfl
@[simp] theorem State.writeBytes_clusters (s : State) (k : Nat) (bs : List Byte) : (s.writeBytes k bs).clusters = s.clusters := rfl
@[simp] theorem State.writeBytes_dies (s : State) (k : Nat) (bs : List Byte) : (s.writeBytes k bs).dies = s.dies := rfl
@[simp] theorem State.writeBytes_parts (s : State) (k : Nat) (bs : List Byte) : (s.writeBytes k bs).parts = s.parts := rfl
@[simp] theorem State.writeBytes_insts (s : State) (k : Nat) (bs : List Byte) : (s.writeBytes k bs).insts = s.insts := rfl
@[simp] theorem State.writeBytes_cmds (s : State) (k : Nat) (bs : List Byte) : (s.writeBytes k bs).cmds = s.cmds := rfl
@[simp] theorem State.writeBytes_net (s : State) (k : Nat) (bs : List Byte) : (s.writeBytes k bs).net = s.net := rfl
@[simp] theorem State.writeBytes_walks (s : State) (k : Nat) (bs : List Byte) : (s.writeBytes k bs).walks = s.walks := rfl
@[simp] theorem State.writeBytes_faults (s : State) (k : Nat) (bs : List Byte) : (s.writeBytes k bs).faults = s.faults := rfl
@[simp] theorem State.writeBytes_trigs (s : State) (k : Nat) (bs : List Byte) : (s.writeBytes k bs).trigs = s.trigs := rfl
@[simp] theorem State.writeBytes_links (s : State) (k : Nat) (bs : List Byte) : (s.writeBytes k bs).links = s.links := rfl
@[simp] theorem State.writeBytes_mgmt (s : State) (k : Nat) (bs : List Byte) : (s.writeBytes k bs).mgmt = s.mgmt := rfl
@[simp] theorem State.writeBytes_msi (s : State) (k : Nat) (bs : List Byte) : (s.writeBytes k bs).msi = s.msi := rfl
@[simp] theorem State.writeBytes_hostData (s : State) (k : Nat) (bs : List Byte) : (s.writeBytes k bs).hostData = s.hostData := rfl
@[simp] theorem State.writeBytes_cur (s : State) (k : Nat) (bs : List Byte) : (s.writeBytes k bs).cur = s.cur := rfl
@[simp] theorem State.writeBytes_seq (s : State) (k : Nat) (bs : List Byte) : (s.writeBytes k bs).seq = s.seq := rfl
@[simp] theorem State.writeBytes_tick (s : State) (k : Nat) (bs : List Byte) : (s.writeBytes k bs).tick = s.tick := rfl
@[simp] theorem State.writeBytes_sched (s : State) (k : Nat) (bs : List Byte) : (s.writeBytes k bs).sched = s.sched := rfl
@[simp] theorem State.storeN_cores (s : State) (w : Writer) (k n v : Nat) : (s.storeN w k n v).cores = s.cores := rfl
@[simp] theorem State.storeN_cells (s : State) (w : Writer) (k n v : Nat) : (s.storeN w k n v).cells = s.cells := rfl
@[simp] theorem State.storeN_clusters (s : State) (w : Writer) (k n v : Nat) : (s.storeN w k n v).clusters = s.clusters := rfl
@[simp] theorem State.storeN_dies (s : State) (w : Writer) (k n v : Nat) : (s.storeN w k n v).dies = s.dies := rfl
@[simp] theorem State.storeN_parts (s : State) (w : Writer) (k n v : Nat) : (s.storeN w k n v).parts = s.parts := rfl
@[simp] theorem State.storeN_insts (s : State) (w : Writer) (k n v : Nat) : (s.storeN w k n v).insts = s.insts := rfl
@[simp] theorem State.storeN_cmds (s : State) (w : Writer) (k n v : Nat) : (s.storeN w k n v).cmds = s.cmds := rfl
@[simp] theorem State.storeN_net (s : State) (w : Writer) (k n v : Nat) : (s.storeN w k n v).net = s.net := rfl
@[simp] theorem State.storeN_walks (s : State) (w : Writer) (k n v : Nat) : (s.storeN w k n v).walks = s.walks := rfl
@[simp] theorem State.storeN_faults (s : State) (w : Writer) (k n v : Nat) : (s.storeN w k n v).faults = s.faults := rfl
@[simp] theorem State.storeN_trigs (s : State) (w : Writer) (k n v : Nat) : (s.storeN w k n v).trigs = s.trigs := rfl
@[simp] theorem State.storeN_links (s : State) (w : Writer) (k n v : Nat) : (s.storeN w k n v).links = s.links := rfl
@[simp] theorem State.storeN_mgmt (s : State) (w : Writer) (k n v : Nat) : (s.storeN w k n v).mgmt = s.mgmt := rfl
@[simp] theorem State.storeN_msi (s : State) (w : Writer) (k n v : Nat) : (s.storeN w k n v).msi = s.msi := rfl
@[simp] theorem State.storeN_hostData (s : State) (w : Writer) (k n v : Nat) : (s.storeN w k n v).hostData = s.hostData := rfl
@[simp] theorem State.storeN_cur (s : State) (w : Writer) (k n v : Nat) : (s.storeN w k n v).cur = s.cur := rfl
@[simp] theorem State.storeN_seq (s : State) (w : Writer) (k n v : Nat) : (s.storeN w k n v).seq = s.seq := rfl
@[simp] theorem State.storeN_tick (s : State) (w : Writer) (k n v : Nat) : (s.storeN w k n v).tick = s.tick := rfl
@[simp] theorem State.storeN_sched (s : State) (w : Writer) (k n v : Nat) : (s.storeN w k n v).sched = s.sched := rfl
@[simp] theorem State.publish_mem (s : State) (k n : Nat) : (s.publish k n).mem = s.mem := rfl
@[simp] theorem State.publish_poison (s : State) (k n : Nat) : (s.publish k n).poison = s.poison := rfl
@[simp] theorem State.publish_heads (s : State) (k n : Nat) : (s.publish k n).heads = s.heads := rfl
@[simp] theorem State.publish_cores (s : State) (k n : Nat) : (s.publish k n).cores = s.cores := rfl
@[simp] theorem State.publish_cells (s : State) (k n : Nat) : (s.publish k n).cells = s.cells := rfl
@[simp] theorem State.publish_clusters (s : State) (k n : Nat) : (s.publish k n).clusters = s.clusters := rfl
@[simp] theorem State.publish_dies (s : State) (k n : Nat) : (s.publish k n).dies = s.dies := rfl
@[simp] theorem State.publish_parts (s : State) (k n : Nat) : (s.publish k n).parts = s.parts := rfl
@[simp] theorem State.publish_insts (s : State) (k n : Nat) : (s.publish k n).insts = s.insts := rfl
@[simp] theorem State.publish_cmds (s : State) (k n : Nat) : (s.publish k n).cmds = s.cmds := rfl
@[simp] theorem State.publish_net (s : State) (k n : Nat) : (s.publish k n).net = s.net := rfl
@[simp] theorem State.publish_walks (s : State) (k n : Nat) : (s.publish k n).walks = s.walks := rfl
@[simp] theorem State.publish_faults (s : State) (k n : Nat) : (s.publish k n).faults = s.faults := rfl
@[simp] theorem State.publish_trigs (s : State) (k n : Nat) : (s.publish k n).trigs = s.trigs := rfl
@[simp] theorem State.publish_links (s : State) (k n : Nat) : (s.publish k n).links = s.links := rfl
@[simp] theorem State.publish_mgmt (s : State) (k n : Nat) : (s.publish k n).mgmt = s.mgmt := rfl
@[simp] theorem State.publish_msi (s : State) (k n : Nat) : (s.publish k n).msi = s.msi := rfl
@[simp] theorem State.publish_hostData (s : State) (k n : Nat) : (s.publish k n).hostData = s.hostData := rfl
@[simp] theorem State.publish_cur (s : State) (k n : Nat) : (s.publish k n).cur = s.cur := rfl
@[simp] theorem State.publish_seq (s : State) (k n : Nat) : (s.publish k n).seq = s.seq := rfl
@[simp] theorem State.publish_tick (s : State) (k n : Nat) : (s.publish k n).tick = s.tick := rfl
@[simp] theorem State.publish_sched (s : State) (k n : Nat) : (s.publish k n).sched = s.sched := rfl
@[simp] theorem State.saw_mem (s : State) (r : Reader) (k n : Nat) : (s.saw r k n).mem = s.mem := rfl
@[simp] theorem State.saw_poison (s : State) (r : Reader) (k n : Nat) : (s.saw r k n).poison = s.poison := rfl
@[simp] theorem State.saw_heads (s : State) (r : Reader) (k n : Nat) : (s.saw r k n).heads = s.heads := rfl
@[simp] theorem State.saw_cores (s : State) (r : Reader) (k n : Nat) : (s.saw r k n).cores = s.cores := rfl
@[simp] theorem State.saw_cells (s : State) (r : Reader) (k n : Nat) : (s.saw r k n).cells = s.cells := rfl
@[simp] theorem State.saw_clusters (s : State) (r : Reader) (k n : Nat) : (s.saw r k n).clusters = s.clusters := rfl
@[simp] theorem State.saw_dies (s : State) (r : Reader) (k n : Nat) : (s.saw r k n).dies = s.dies := rfl
@[simp] theorem State.saw_parts (s : State) (r : Reader) (k n : Nat) : (s.saw r k n).parts = s.parts := rfl
@[simp] theorem State.saw_insts (s : State) (r : Reader) (k n : Nat) : (s.saw r k n).insts = s.insts := rfl
@[simp] theorem State.saw_cmds (s : State) (r : Reader) (k n : Nat) : (s.saw r k n).cmds = s.cmds := rfl
@[simp] theorem State.saw_net (s : State) (r : Reader) (k n : Nat) : (s.saw r k n).net = s.net := rfl
@[simp] theorem State.saw_walks (s : State) (r : Reader) (k n : Nat) : (s.saw r k n).walks = s.walks := rfl
@[simp] theorem State.saw_faults (s : State) (r : Reader) (k n : Nat) : (s.saw r k n).faults = s.faults := rfl
@[simp] theorem State.saw_trigs (s : State) (r : Reader) (k n : Nat) : (s.saw r k n).trigs = s.trigs := rfl
@[simp] theorem State.saw_links (s : State) (r : Reader) (k n : Nat) : (s.saw r k n).links = s.links := rfl
@[simp] theorem State.saw_mgmt (s : State) (r : Reader) (k n : Nat) : (s.saw r k n).mgmt = s.mgmt := rfl
@[simp] theorem State.saw_msi (s : State) (r : Reader) (k n : Nat) : (s.saw r k n).msi = s.msi := rfl
@[simp] theorem State.saw_hostData (s : State) (r : Reader) (k n : Nat) : (s.saw r k n).hostData = s.hostData := rfl
@[simp] theorem State.saw_cur (s : State) (r : Reader) (k n : Nat) : (s.saw r k n).cur = s.cur := rfl
@[simp] theorem State.saw_seq (s : State) (r : Reader) (k n : Nat) : (s.saw r k n).seq = s.seq := rfl
@[simp] theorem State.saw_tick (s : State) (r : Reader) (k n : Nat) : (s.saw r k n).tick = s.tick := rfl
@[simp] theorem State.saw_sched (s : State) (r : Reader) (k n : Nat) : (s.saw r k n).sched = s.sched := rfl
@[simp] theorem State.bindTo_mem (s : State) (x : Party) (q : Older → Bool) : (s.bindTo x q).mem = s.mem := rfl
@[simp] theorem State.bindTo_poison (s : State) (x : Party) (q : Older → Bool) : (s.bindTo x q).poison = s.poison := rfl
@[simp] theorem State.bindTo_heads (s : State) (x : Party) (q : Older → Bool) : (s.bindTo x q).heads = s.heads := rfl
@[simp] theorem State.bindTo_cores (s : State) (x : Party) (q : Older → Bool) : (s.bindTo x q).cores = s.cores := rfl
@[simp] theorem State.bindTo_cells (s : State) (x : Party) (q : Older → Bool) : (s.bindTo x q).cells = s.cells := rfl
@[simp] theorem State.bindTo_clusters (s : State) (x : Party) (q : Older → Bool) : (s.bindTo x q).clusters = s.clusters := rfl
@[simp] theorem State.bindTo_dies (s : State) (x : Party) (q : Older → Bool) : (s.bindTo x q).dies = s.dies := rfl
@[simp] theorem State.bindTo_parts (s : State) (x : Party) (q : Older → Bool) : (s.bindTo x q).parts = s.parts := rfl
@[simp] theorem State.bindTo_insts (s : State) (x : Party) (q : Older → Bool) : (s.bindTo x q).insts = s.insts := rfl
@[simp] theorem State.bindTo_cmds (s : State) (x : Party) (q : Older → Bool) : (s.bindTo x q).cmds = s.cmds := rfl
@[simp] theorem State.bindTo_net (s : State) (x : Party) (q : Older → Bool) : (s.bindTo x q).net = s.net := rfl
@[simp] theorem State.bindTo_walks (s : State) (x : Party) (q : Older → Bool) : (s.bindTo x q).walks = s.walks := rfl
@[simp] theorem State.bindTo_faults (s : State) (x : Party) (q : Older → Bool) : (s.bindTo x q).faults = s.faults := rfl
@[simp] theorem State.bindTo_trigs (s : State) (x : Party) (q : Older → Bool) : (s.bindTo x q).trigs = s.trigs := rfl
@[simp] theorem State.bindTo_links (s : State) (x : Party) (q : Older → Bool) : (s.bindTo x q).links = s.links := rfl
@[simp] theorem State.bindTo_mgmt (s : State) (x : Party) (q : Older → Bool) : (s.bindTo x q).mgmt = s.mgmt := rfl
@[simp] theorem State.bindTo_msi (s : State) (x : Party) (q : Older → Bool) : (s.bindTo x q).msi = s.msi := rfl
@[simp] theorem State.bindTo_hostData (s : State) (x : Party) (q : Older → Bool) : (s.bindTo x q).hostData = s.hostData := rfl
@[simp] theorem State.bindTo_cur (s : State) (x : Party) (q : Older → Bool) : (s.bindTo x q).cur = s.cur := rfl
@[simp] theorem State.bindTo_seq (s : State) (x : Party) (q : Older → Bool) : (s.bindTo x q).seq = s.seq := rfl
@[simp] theorem State.bindTo_tick (s : State) (x : Party) (q : Older → Bool) : (s.bindTo x q).tick = s.tick := rfl
@[simp] theorem State.bindTo_sched (s : State) (x : Party) (q : Older → Bool) : (s.bindTo x q).sched = s.sched := rfl
@[simp] theorem State.unbind_mem (s : State) (q : Party → Bool) : (s.unbind q).mem = s.mem := rfl
@[simp] theorem State.unbind_poison (s : State) (q : Party → Bool) : (s.unbind q).poison = s.poison := rfl
@[simp] theorem State.unbind_heads (s : State) (q : Party → Bool) : (s.unbind q).heads = s.heads := rfl
@[simp] theorem State.unbind_cores (s : State) (q : Party → Bool) : (s.unbind q).cores = s.cores := rfl
@[simp] theorem State.unbind_cells (s : State) (q : Party → Bool) : (s.unbind q).cells = s.cells := rfl
@[simp] theorem State.unbind_clusters (s : State) (q : Party → Bool) : (s.unbind q).clusters = s.clusters := rfl
@[simp] theorem State.unbind_dies (s : State) (q : Party → Bool) : (s.unbind q).dies = s.dies := rfl
@[simp] theorem State.unbind_parts (s : State) (q : Party → Bool) : (s.unbind q).parts = s.parts := rfl
@[simp] theorem State.unbind_insts (s : State) (q : Party → Bool) : (s.unbind q).insts = s.insts := rfl
@[simp] theorem State.unbind_cmds (s : State) (q : Party → Bool) : (s.unbind q).cmds = s.cmds := rfl
@[simp] theorem State.unbind_net (s : State) (q : Party → Bool) : (s.unbind q).net = s.net := rfl
@[simp] theorem State.unbind_walks (s : State) (q : Party → Bool) : (s.unbind q).walks = s.walks := rfl
@[simp] theorem State.unbind_faults (s : State) (q : Party → Bool) : (s.unbind q).faults = s.faults := rfl
@[simp] theorem State.unbind_trigs (s : State) (q : Party → Bool) : (s.unbind q).trigs = s.trigs := rfl
@[simp] theorem State.unbind_links (s : State) (q : Party → Bool) : (s.unbind q).links = s.links := rfl
@[simp] theorem State.unbind_mgmt (s : State) (q : Party → Bool) : (s.unbind q).mgmt = s.mgmt := rfl
@[simp] theorem State.unbind_msi (s : State) (q : Party → Bool) : (s.unbind q).msi = s.msi := rfl
@[simp] theorem State.unbind_hostData (s : State) (q : Party → Bool) : (s.unbind q).hostData = s.hostData := rfl
@[simp] theorem State.unbind_cur (s : State) (q : Party → Bool) : (s.unbind q).cur = s.cur := rfl
@[simp] theorem State.unbind_seq (s : State) (q : Party → Bool) : (s.unbind q).seq = s.seq := rfl
@[simp] theorem State.unbind_tick (s : State) (q : Party → Bool) : (s.unbind q).tick = s.tick := rfl
@[simp] theorem State.unbind_sched (s : State) (q : Party → Bool) : (s.unbind q).sched = s.sched := rfl
@[simp] theorem State.hand_mem (s : State) (x y : Party) : (s.hand x y).mem = s.mem := rfl
@[simp] theorem State.hand_poison (s : State) (x y : Party) : (s.hand x y).poison = s.poison := rfl
@[simp] theorem State.hand_heads (s : State) (x y : Party) : (s.hand x y).heads = s.heads := rfl
@[simp] theorem State.hand_cores (s : State) (x y : Party) : (s.hand x y).cores = s.cores := rfl
@[simp] theorem State.hand_cells (s : State) (x y : Party) : (s.hand x y).cells = s.cells := rfl
@[simp] theorem State.hand_clusters (s : State) (x y : Party) : (s.hand x y).clusters = s.clusters := rfl
@[simp] theorem State.hand_dies (s : State) (x y : Party) : (s.hand x y).dies = s.dies := rfl
@[simp] theorem State.hand_parts (s : State) (x y : Party) : (s.hand x y).parts = s.parts := rfl
@[simp] theorem State.hand_insts (s : State) (x y : Party) : (s.hand x y).insts = s.insts := rfl
@[simp] theorem State.hand_cmds (s : State) (x y : Party) : (s.hand x y).cmds = s.cmds := rfl
@[simp] theorem State.hand_net (s : State) (x y : Party) : (s.hand x y).net = s.net := rfl
@[simp] theorem State.hand_walks (s : State) (x y : Party) : (s.hand x y).walks = s.walks := rfl
@[simp] theorem State.hand_faults (s : State) (x y : Party) : (s.hand x y).faults = s.faults := rfl
@[simp] theorem State.hand_trigs (s : State) (x y : Party) : (s.hand x y).trigs = s.trigs := rfl
@[simp] theorem State.hand_links (s : State) (x y : Party) : (s.hand x y).links = s.links := rfl
@[simp] theorem State.hand_mgmt (s : State) (x y : Party) : (s.hand x y).mgmt = s.mgmt := rfl
@[simp] theorem State.hand_msi (s : State) (x y : Party) : (s.hand x y).msi = s.msi := rfl
@[simp] theorem State.hand_hostData (s : State) (x y : Party) : (s.hand x y).hostData = s.hostData := rfl
@[simp] theorem State.hand_cur (s : State) (x y : Party) : (s.hand x y).cur = s.cur := rfl
@[simp] theorem State.hand_seq (s : State) (x y : Party) : (s.hand x y).seq = s.seq := rfl
@[simp] theorem State.hand_tick (s : State) (x y : Party) : (s.hand x y).tick = s.tick := rfl
@[simp] theorem State.hand_sched (s : State) (x y : Party) : (s.hand x y).sched = s.sched := rfl
@[simp] theorem State.addPoison_mem (s : State) (k n : Nat) : (s.addPoison k n).mem = s.mem := rfl
@[simp] theorem State.addPoison_older (s : State) (k n : Nat) : (s.addPoison k n).older = s.older := rfl
@[simp] theorem State.addPoison_heads (s : State) (k n : Nat) : (s.addPoison k n).heads = s.heads := rfl
@[simp] theorem State.addPoison_cores (s : State) (k n : Nat) : (s.addPoison k n).cores = s.cores := rfl
@[simp] theorem State.addPoison_cells (s : State) (k n : Nat) : (s.addPoison k n).cells = s.cells := rfl
@[simp] theorem State.addPoison_clusters (s : State) (k n : Nat) : (s.addPoison k n).clusters = s.clusters := rfl
@[simp] theorem State.addPoison_dies (s : State) (k n : Nat) : (s.addPoison k n).dies = s.dies := rfl
@[simp] theorem State.addPoison_parts (s : State) (k n : Nat) : (s.addPoison k n).parts = s.parts := rfl
@[simp] theorem State.addPoison_insts (s : State) (k n : Nat) : (s.addPoison k n).insts = s.insts := rfl
@[simp] theorem State.addPoison_cmds (s : State) (k n : Nat) : (s.addPoison k n).cmds = s.cmds := rfl
@[simp] theorem State.addPoison_net (s : State) (k n : Nat) : (s.addPoison k n).net = s.net := rfl
@[simp] theorem State.addPoison_walks (s : State) (k n : Nat) : (s.addPoison k n).walks = s.walks := rfl
@[simp] theorem State.addPoison_faults (s : State) (k n : Nat) : (s.addPoison k n).faults = s.faults := rfl
@[simp] theorem State.addPoison_trigs (s : State) (k n : Nat) : (s.addPoison k n).trigs = s.trigs := rfl
@[simp] theorem State.addPoison_links (s : State) (k n : Nat) : (s.addPoison k n).links = s.links := rfl
@[simp] theorem State.addPoison_mgmt (s : State) (k n : Nat) : (s.addPoison k n).mgmt = s.mgmt := rfl
@[simp] theorem State.addPoison_msi (s : State) (k n : Nat) : (s.addPoison k n).msi = s.msi := rfl
@[simp] theorem State.addPoison_hostData (s : State) (k n : Nat) : (s.addPoison k n).hostData = s.hostData := rfl
@[simp] theorem State.addPoison_cur (s : State) (k n : Nat) : (s.addPoison k n).cur = s.cur := rfl
@[simp] theorem State.addPoison_seq (s : State) (k n : Nat) : (s.addPoison k n).seq = s.seq := rfl
@[simp] theorem State.addPoison_tick (s : State) (k n : Nat) : (s.addPoison k n).tick = s.tick := rfl
@[simp] theorem State.addPoison_sched (s : State) (k n : Nat) : (s.addPoison k n).sched = s.sched := rfl
@[simp] theorem State.clearWritten_mem (s : State) (rs : List (Nat × Nat)) : (s.clearWritten rs).mem = s.mem := rfl
@[simp] theorem State.clearWritten_older (s : State) (rs : List (Nat × Nat)) : (s.clearWritten rs).older = s.older := rfl
@[simp] theorem State.clearWritten_heads (s : State) (rs : List (Nat × Nat)) : (s.clearWritten rs).heads = s.heads := rfl
@[simp] theorem State.clearWritten_cores (s : State) (rs : List (Nat × Nat)) : (s.clearWritten rs).cores = s.cores := rfl
@[simp] theorem State.clearWritten_cells (s : State) (rs : List (Nat × Nat)) : (s.clearWritten rs).cells = s.cells := rfl
@[simp] theorem State.clearWritten_clusters (s : State) (rs : List (Nat × Nat)) : (s.clearWritten rs).clusters = s.clusters := rfl
@[simp] theorem State.clearWritten_dies (s : State) (rs : List (Nat × Nat)) : (s.clearWritten rs).dies = s.dies := rfl
@[simp] theorem State.clearWritten_parts (s : State) (rs : List (Nat × Nat)) : (s.clearWritten rs).parts = s.parts := rfl
@[simp] theorem State.clearWritten_insts (s : State) (rs : List (Nat × Nat)) : (s.clearWritten rs).insts = s.insts := rfl
@[simp] theorem State.clearWritten_cmds (s : State) (rs : List (Nat × Nat)) : (s.clearWritten rs).cmds = s.cmds := rfl
@[simp] theorem State.clearWritten_net (s : State) (rs : List (Nat × Nat)) : (s.clearWritten rs).net = s.net := rfl
@[simp] theorem State.clearWritten_walks (s : State) (rs : List (Nat × Nat)) : (s.clearWritten rs).walks = s.walks := rfl
@[simp] theorem State.clearWritten_faults (s : State) (rs : List (Nat × Nat)) : (s.clearWritten rs).faults = s.faults := rfl
@[simp] theorem State.clearWritten_trigs (s : State) (rs : List (Nat × Nat)) : (s.clearWritten rs).trigs = s.trigs := rfl
@[simp] theorem State.clearWritten_links (s : State) (rs : List (Nat × Nat)) : (s.clearWritten rs).links = s.links := rfl
@[simp] theorem State.clearWritten_mgmt (s : State) (rs : List (Nat × Nat)) : (s.clearWritten rs).mgmt = s.mgmt := rfl
@[simp] theorem State.clearWritten_msi (s : State) (rs : List (Nat × Nat)) : (s.clearWritten rs).msi = s.msi := rfl
@[simp] theorem State.clearWritten_hostData (s : State) (rs : List (Nat × Nat)) : (s.clearWritten rs).hostData = s.hostData := rfl
@[simp] theorem State.clearWritten_cur (s : State) (rs : List (Nat × Nat)) : (s.clearWritten rs).cur = s.cur := rfl
@[simp] theorem State.clearWritten_seq (s : State) (rs : List (Nat × Nat)) : (s.clearWritten rs).seq = s.seq := rfl
@[simp] theorem State.clearWritten_tick (s : State) (rs : List (Nat × Nat)) : (s.clearWritten rs).tick = s.tick := rfl
@[simp] theorem State.clearWritten_sched (s : State) (rs : List (Nat × Nat)) : (s.clearWritten rs).sched = s.sched := rfl
@[simp] theorem State.setCore_mem (s : State) (cid : Nat) (c : Core) : (s.setCore cid c).mem = s.mem := rfl
@[simp] theorem State.setCore_poison (s : State) (cid : Nat) (c : Core) : (s.setCore cid c).poison = s.poison := rfl
@[simp] theorem State.setCore_older (s : State) (cid : Nat) (c : Core) : (s.setCore cid c).older = s.older := rfl
@[simp] theorem State.setCore_heads (s : State) (cid : Nat) (c : Core) : (s.setCore cid c).heads = s.heads := rfl
@[simp] theorem State.setCore_cells (s : State) (cid : Nat) (c : Core) : (s.setCore cid c).cells = s.cells := rfl
@[simp] theorem State.setCore_clusters (s : State) (cid : Nat) (c : Core) : (s.setCore cid c).clusters = s.clusters := rfl
@[simp] theorem State.setCore_dies (s : State) (cid : Nat) (c : Core) : (s.setCore cid c).dies = s.dies := rfl
@[simp] theorem State.setCore_parts (s : State) (cid : Nat) (c : Core) : (s.setCore cid c).parts = s.parts := rfl
@[simp] theorem State.setCore_insts (s : State) (cid : Nat) (c : Core) : (s.setCore cid c).insts = s.insts := rfl
@[simp] theorem State.setCore_cmds (s : State) (cid : Nat) (c : Core) : (s.setCore cid c).cmds = s.cmds := rfl
@[simp] theorem State.setCore_net (s : State) (cid : Nat) (c : Core) : (s.setCore cid c).net = s.net := rfl
@[simp] theorem State.setCore_walks (s : State) (cid : Nat) (c : Core) : (s.setCore cid c).walks = s.walks := rfl
@[simp] theorem State.setCore_faults (s : State) (cid : Nat) (c : Core) : (s.setCore cid c).faults = s.faults := rfl
@[simp] theorem State.setCore_trigs (s : State) (cid : Nat) (c : Core) : (s.setCore cid c).trigs = s.trigs := rfl
@[simp] theorem State.setCore_links (s : State) (cid : Nat) (c : Core) : (s.setCore cid c).links = s.links := rfl
@[simp] theorem State.setCore_mgmt (s : State) (cid : Nat) (c : Core) : (s.setCore cid c).mgmt = s.mgmt := rfl
@[simp] theorem State.setCore_msi (s : State) (cid : Nat) (c : Core) : (s.setCore cid c).msi = s.msi := rfl
@[simp] theorem State.setCore_hostData (s : State) (cid : Nat) (c : Core) : (s.setCore cid c).hostData = s.hostData := rfl
@[simp] theorem State.setCore_cur (s : State) (cid : Nat) (c : Core) : (s.setCore cid c).cur = s.cur := rfl
@[simp] theorem State.setCore_seq (s : State) (cid : Nat) (c : Core) : (s.setCore cid c).seq = s.seq := rfl
@[simp] theorem State.setCore_tick (s : State) (cid : Nat) (c : Core) : (s.setCore cid c).tick = s.tick := rfl
@[simp] theorem State.setCore_sched (s : State) (cid : Nat) (c : Core) : (s.setCore cid c).sched = s.sched := rfl
@[simp] theorem State.modCore_mem (s : State) (cid : Nat) (g : Core → Core) : (s.modCore cid g).mem = s.mem := rfl
@[simp] theorem State.modCore_poison (s : State) (cid : Nat) (g : Core → Core) : (s.modCore cid g).poison = s.poison := rfl
@[simp] theorem State.modCore_older (s : State) (cid : Nat) (g : Core → Core) : (s.modCore cid g).older = s.older := rfl
@[simp] theorem State.modCore_heads (s : State) (cid : Nat) (g : Core → Core) : (s.modCore cid g).heads = s.heads := rfl
@[simp] theorem State.modCore_cells (s : State) (cid : Nat) (g : Core → Core) : (s.modCore cid g).cells = s.cells := rfl
@[simp] theorem State.modCore_clusters (s : State) (cid : Nat) (g : Core → Core) : (s.modCore cid g).clusters = s.clusters := rfl
@[simp] theorem State.modCore_dies (s : State) (cid : Nat) (g : Core → Core) : (s.modCore cid g).dies = s.dies := rfl
@[simp] theorem State.modCore_parts (s : State) (cid : Nat) (g : Core → Core) : (s.modCore cid g).parts = s.parts := rfl
@[simp] theorem State.modCore_insts (s : State) (cid : Nat) (g : Core → Core) : (s.modCore cid g).insts = s.insts := rfl
@[simp] theorem State.modCore_cmds (s : State) (cid : Nat) (g : Core → Core) : (s.modCore cid g).cmds = s.cmds := rfl
@[simp] theorem State.modCore_net (s : State) (cid : Nat) (g : Core → Core) : (s.modCore cid g).net = s.net := rfl
@[simp] theorem State.modCore_walks (s : State) (cid : Nat) (g : Core → Core) : (s.modCore cid g).walks = s.walks := rfl
@[simp] theorem State.modCore_faults (s : State) (cid : Nat) (g : Core → Core) : (s.modCore cid g).faults = s.faults := rfl
@[simp] theorem State.modCore_trigs (s : State) (cid : Nat) (g : Core → Core) : (s.modCore cid g).trigs = s.trigs := rfl
@[simp] theorem State.modCore_links (s : State) (cid : Nat) (g : Core → Core) : (s.modCore cid g).links = s.links := rfl
@[simp] theorem State.modCore_mgmt (s : State) (cid : Nat) (g : Core → Core) : (s.modCore cid g).mgmt = s.mgmt := rfl
@[simp] theorem State.modCore_msi (s : State) (cid : Nat) (g : Core → Core) : (s.modCore cid g).msi = s.msi := rfl
@[simp] theorem State.modCore_hostData (s : State) (cid : Nat) (g : Core → Core) : (s.modCore cid g).hostData = s.hostData := rfl
@[simp] theorem State.modCore_cur (s : State) (cid : Nat) (g : Core → Core) : (s.modCore cid g).cur = s.cur := rfl
@[simp] theorem State.modCore_seq (s : State) (cid : Nat) (g : Core → Core) : (s.modCore cid g).seq = s.seq := rfl
@[simp] theorem State.modCore_tick (s : State) (cid : Nat) (g : Core → Core) : (s.modCore cid g).tick = s.tick := rfl
@[simp] theorem State.modCore_sched (s : State) (cid : Nat) (g : Core → Core) : (s.modCore cid g).sched = s.sched := rfl
@[simp] theorem State.setCell_mem (s : State) (i : Nat) (c : Cell) : (s.setCell i c).mem = s.mem := rfl
@[simp] theorem State.setCell_poison (s : State) (i : Nat) (c : Cell) : (s.setCell i c).poison = s.poison := rfl
@[simp] theorem State.setCell_older (s : State) (i : Nat) (c : Cell) : (s.setCell i c).older = s.older := rfl
@[simp] theorem State.setCell_heads (s : State) (i : Nat) (c : Cell) : (s.setCell i c).heads = s.heads := rfl
@[simp] theorem State.setCell_cores (s : State) (i : Nat) (c : Cell) : (s.setCell i c).cores = s.cores := rfl
@[simp] theorem State.setCell_clusters (s : State) (i : Nat) (c : Cell) : (s.setCell i c).clusters = s.clusters := rfl
@[simp] theorem State.setCell_dies (s : State) (i : Nat) (c : Cell) : (s.setCell i c).dies = s.dies := rfl
@[simp] theorem State.setCell_parts (s : State) (i : Nat) (c : Cell) : (s.setCell i c).parts = s.parts := rfl
@[simp] theorem State.setCell_insts (s : State) (i : Nat) (c : Cell) : (s.setCell i c).insts = s.insts := rfl
@[simp] theorem State.setCell_cmds (s : State) (i : Nat) (c : Cell) : (s.setCell i c).cmds = s.cmds := rfl
@[simp] theorem State.setCell_net (s : State) (i : Nat) (c : Cell) : (s.setCell i c).net = s.net := rfl
@[simp] theorem State.setCell_walks (s : State) (i : Nat) (c : Cell) : (s.setCell i c).walks = s.walks := rfl
@[simp] theorem State.setCell_faults (s : State) (i : Nat) (c : Cell) : (s.setCell i c).faults = s.faults := rfl
@[simp] theorem State.setCell_trigs (s : State) (i : Nat) (c : Cell) : (s.setCell i c).trigs = s.trigs := rfl
@[simp] theorem State.setCell_links (s : State) (i : Nat) (c : Cell) : (s.setCell i c).links = s.links := rfl
@[simp] theorem State.setCell_mgmt (s : State) (i : Nat) (c : Cell) : (s.setCell i c).mgmt = s.mgmt := rfl
@[simp] theorem State.setCell_msi (s : State) (i : Nat) (c : Cell) : (s.setCell i c).msi = s.msi := rfl
@[simp] theorem State.setCell_hostData (s : State) (i : Nat) (c : Cell) : (s.setCell i c).hostData = s.hostData := rfl
@[simp] theorem State.setCell_cur (s : State) (i : Nat) (c : Cell) : (s.setCell i c).cur = s.cur := rfl
@[simp] theorem State.setCell_seq (s : State) (i : Nat) (c : Cell) : (s.setCell i c).seq = s.seq := rfl
@[simp] theorem State.setCell_tick (s : State) (i : Nat) (c : Cell) : (s.setCell i c).tick = s.tick := rfl
@[simp] theorem State.setCell_sched (s : State) (i : Nat) (c : Cell) : (s.setCell i c).sched = s.sched := rfl
@[simp] theorem State.modCluster_mem (s : State) (i : Nat) (g : Cluster → Cluster) : (s.modCluster i g).mem = s.mem := rfl
@[simp] theorem State.modCluster_poison (s : State) (i : Nat) (g : Cluster → Cluster) : (s.modCluster i g).poison = s.poison := rfl
@[simp] theorem State.modCluster_older (s : State) (i : Nat) (g : Cluster → Cluster) : (s.modCluster i g).older = s.older := rfl
@[simp] theorem State.modCluster_heads (s : State) (i : Nat) (g : Cluster → Cluster) : (s.modCluster i g).heads = s.heads := rfl
@[simp] theorem State.modCluster_cores (s : State) (i : Nat) (g : Cluster → Cluster) : (s.modCluster i g).cores = s.cores := rfl
@[simp] theorem State.modCluster_cells (s : State) (i : Nat) (g : Cluster → Cluster) : (s.modCluster i g).cells = s.cells := rfl
@[simp] theorem State.modCluster_dies (s : State) (i : Nat) (g : Cluster → Cluster) : (s.modCluster i g).dies = s.dies := rfl
@[simp] theorem State.modCluster_parts (s : State) (i : Nat) (g : Cluster → Cluster) : (s.modCluster i g).parts = s.parts := rfl
@[simp] theorem State.modCluster_insts (s : State) (i : Nat) (g : Cluster → Cluster) : (s.modCluster i g).insts = s.insts := rfl
@[simp] theorem State.modCluster_cmds (s : State) (i : Nat) (g : Cluster → Cluster) : (s.modCluster i g).cmds = s.cmds := rfl
@[simp] theorem State.modCluster_net (s : State) (i : Nat) (g : Cluster → Cluster) : (s.modCluster i g).net = s.net := rfl
@[simp] theorem State.modCluster_walks (s : State) (i : Nat) (g : Cluster → Cluster) : (s.modCluster i g).walks = s.walks := rfl
@[simp] theorem State.modCluster_faults (s : State) (i : Nat) (g : Cluster → Cluster) : (s.modCluster i g).faults = s.faults := rfl
@[simp] theorem State.modCluster_trigs (s : State) (i : Nat) (g : Cluster → Cluster) : (s.modCluster i g).trigs = s.trigs := rfl
@[simp] theorem State.modCluster_links (s : State) (i : Nat) (g : Cluster → Cluster) : (s.modCluster i g).links = s.links := rfl
@[simp] theorem State.modCluster_mgmt (s : State) (i : Nat) (g : Cluster → Cluster) : (s.modCluster i g).mgmt = s.mgmt := rfl
@[simp] theorem State.modCluster_msi (s : State) (i : Nat) (g : Cluster → Cluster) : (s.modCluster i g).msi = s.msi := rfl
@[simp] theorem State.modCluster_hostData (s : State) (i : Nat) (g : Cluster → Cluster) : (s.modCluster i g).hostData = s.hostData := rfl
@[simp] theorem State.modCluster_cur (s : State) (i : Nat) (g : Cluster → Cluster) : (s.modCluster i g).cur = s.cur := rfl
@[simp] theorem State.modCluster_seq (s : State) (i : Nat) (g : Cluster → Cluster) : (s.modCluster i g).seq = s.seq := rfl
@[simp] theorem State.modCluster_tick (s : State) (i : Nat) (g : Cluster → Cluster) : (s.modCluster i g).tick = s.tick := rfl
@[simp] theorem State.modCluster_sched (s : State) (i : Nat) (g : Cluster → Cluster) : (s.modCluster i g).sched = s.sched := rfl
@[simp] theorem State.modDie_mem (s : State) (i : Nat) (g : Die → Die) : (s.modDie i g).mem = s.mem := rfl
@[simp] theorem State.modDie_poison (s : State) (i : Nat) (g : Die → Die) : (s.modDie i g).poison = s.poison := rfl
@[simp] theorem State.modDie_older (s : State) (i : Nat) (g : Die → Die) : (s.modDie i g).older = s.older := rfl
@[simp] theorem State.modDie_heads (s : State) (i : Nat) (g : Die → Die) : (s.modDie i g).heads = s.heads := rfl
@[simp] theorem State.modDie_cores (s : State) (i : Nat) (g : Die → Die) : (s.modDie i g).cores = s.cores := rfl
@[simp] theorem State.modDie_cells (s : State) (i : Nat) (g : Die → Die) : (s.modDie i g).cells = s.cells := rfl
@[simp] theorem State.modDie_clusters (s : State) (i : Nat) (g : Die → Die) : (s.modDie i g).clusters = s.clusters := rfl
@[simp] theorem State.modDie_parts (s : State) (i : Nat) (g : Die → Die) : (s.modDie i g).parts = s.parts := rfl
@[simp] theorem State.modDie_insts (s : State) (i : Nat) (g : Die → Die) : (s.modDie i g).insts = s.insts := rfl
@[simp] theorem State.modDie_cmds (s : State) (i : Nat) (g : Die → Die) : (s.modDie i g).cmds = s.cmds := rfl
@[simp] theorem State.modDie_net (s : State) (i : Nat) (g : Die → Die) : (s.modDie i g).net = s.net := rfl
@[simp] theorem State.modDie_walks (s : State) (i : Nat) (g : Die → Die) : (s.modDie i g).walks = s.walks := rfl
@[simp] theorem State.modDie_faults (s : State) (i : Nat) (g : Die → Die) : (s.modDie i g).faults = s.faults := rfl
@[simp] theorem State.modDie_trigs (s : State) (i : Nat) (g : Die → Die) : (s.modDie i g).trigs = s.trigs := rfl
@[simp] theorem State.modDie_links (s : State) (i : Nat) (g : Die → Die) : (s.modDie i g).links = s.links := rfl
@[simp] theorem State.modDie_mgmt (s : State) (i : Nat) (g : Die → Die) : (s.modDie i g).mgmt = s.mgmt := rfl
@[simp] theorem State.modDie_msi (s : State) (i : Nat) (g : Die → Die) : (s.modDie i g).msi = s.msi := rfl
@[simp] theorem State.modDie_hostData (s : State) (i : Nat) (g : Die → Die) : (s.modDie i g).hostData = s.hostData := rfl
@[simp] theorem State.modDie_cur (s : State) (i : Nat) (g : Die → Die) : (s.modDie i g).cur = s.cur := rfl
@[simp] theorem State.modDie_seq (s : State) (i : Nat) (g : Die → Die) : (s.modDie i g).seq = s.seq := rfl
@[simp] theorem State.modDie_tick (s : State) (i : Nat) (g : Die → Die) : (s.modDie i g).tick = s.tick := rfl
@[simp] theorem State.modDie_sched (s : State) (i : Nat) (g : Die → Die) : (s.modDie i g).sched = s.sched := rfl
@[simp] theorem State.modPart_mem (s : State) (p : Nat) (g : Part → Part) : (s.modPart p g).mem = s.mem := rfl
@[simp] theorem State.modPart_poison (s : State) (p : Nat) (g : Part → Part) : (s.modPart p g).poison = s.poison := rfl
@[simp] theorem State.modPart_older (s : State) (p : Nat) (g : Part → Part) : (s.modPart p g).older = s.older := rfl
@[simp] theorem State.modPart_heads (s : State) (p : Nat) (g : Part → Part) : (s.modPart p g).heads = s.heads := rfl
@[simp] theorem State.modPart_cores (s : State) (p : Nat) (g : Part → Part) : (s.modPart p g).cores = s.cores := rfl
@[simp] theorem State.modPart_cells (s : State) (p : Nat) (g : Part → Part) : (s.modPart p g).cells = s.cells := rfl
@[simp] theorem State.modPart_clusters (s : State) (p : Nat) (g : Part → Part) : (s.modPart p g).clusters = s.clusters := rfl
@[simp] theorem State.modPart_dies (s : State) (p : Nat) (g : Part → Part) : (s.modPart p g).dies = s.dies := rfl
@[simp] theorem State.modPart_insts (s : State) (p : Nat) (g : Part → Part) : (s.modPart p g).insts = s.insts := rfl
@[simp] theorem State.modPart_cmds (s : State) (p : Nat) (g : Part → Part) : (s.modPart p g).cmds = s.cmds := rfl
@[simp] theorem State.modPart_net (s : State) (p : Nat) (g : Part → Part) : (s.modPart p g).net = s.net := rfl
@[simp] theorem State.modPart_walks (s : State) (p : Nat) (g : Part → Part) : (s.modPart p g).walks = s.walks := rfl
@[simp] theorem State.modPart_faults (s : State) (p : Nat) (g : Part → Part) : (s.modPart p g).faults = s.faults := rfl
@[simp] theorem State.modPart_trigs (s : State) (p : Nat) (g : Part → Part) : (s.modPart p g).trigs = s.trigs := rfl
@[simp] theorem State.modPart_links (s : State) (p : Nat) (g : Part → Part) : (s.modPart p g).links = s.links := rfl
@[simp] theorem State.modPart_mgmt (s : State) (p : Nat) (g : Part → Part) : (s.modPart p g).mgmt = s.mgmt := rfl
@[simp] theorem State.modPart_msi (s : State) (p : Nat) (g : Part → Part) : (s.modPart p g).msi = s.msi := rfl
@[simp] theorem State.modPart_hostData (s : State) (p : Nat) (g : Part → Part) : (s.modPart p g).hostData = s.hostData := rfl
@[simp] theorem State.modPart_cur (s : State) (p : Nat) (g : Part → Part) : (s.modPart p g).cur = s.cur := rfl
@[simp] theorem State.modPart_seq (s : State) (p : Nat) (g : Part → Part) : (s.modPart p g).seq = s.seq := rfl
@[simp] theorem State.modPart_tick (s : State) (p : Nat) (g : Part → Part) : (s.modPart p g).tick = s.tick := rfl
@[simp] theorem State.modPart_sched (s : State) (p : Nat) (g : Part → Part) : (s.modPart p g).sched = s.sched := rfl
@[simp] theorem State.modMgmt_mem (s : State) (g : Module → Module) : (s.modMgmt g).mem = s.mem := rfl
@[simp] theorem State.modMgmt_poison (s : State) (g : Module → Module) : (s.modMgmt g).poison = s.poison := rfl
@[simp] theorem State.modMgmt_older (s : State) (g : Module → Module) : (s.modMgmt g).older = s.older := rfl
@[simp] theorem State.modMgmt_heads (s : State) (g : Module → Module) : (s.modMgmt g).heads = s.heads := rfl
@[simp] theorem State.modMgmt_cores (s : State) (g : Module → Module) : (s.modMgmt g).cores = s.cores := rfl
@[simp] theorem State.modMgmt_cells (s : State) (g : Module → Module) : (s.modMgmt g).cells = s.cells := rfl
@[simp] theorem State.modMgmt_clusters (s : State) (g : Module → Module) : (s.modMgmt g).clusters = s.clusters := rfl
@[simp] theorem State.modMgmt_dies (s : State) (g : Module → Module) : (s.modMgmt g).dies = s.dies := rfl
@[simp] theorem State.modMgmt_parts (s : State) (g : Module → Module) : (s.modMgmt g).parts = s.parts := rfl
@[simp] theorem State.modMgmt_insts (s : State) (g : Module → Module) : (s.modMgmt g).insts = s.insts := rfl
@[simp] theorem State.modMgmt_cmds (s : State) (g : Module → Module) : (s.modMgmt g).cmds = s.cmds := rfl
@[simp] theorem State.modMgmt_net (s : State) (g : Module → Module) : (s.modMgmt g).net = s.net := rfl
@[simp] theorem State.modMgmt_walks (s : State) (g : Module → Module) : (s.modMgmt g).walks = s.walks := rfl
@[simp] theorem State.modMgmt_faults (s : State) (g : Module → Module) : (s.modMgmt g).faults = s.faults := rfl
@[simp] theorem State.modMgmt_trigs (s : State) (g : Module → Module) : (s.modMgmt g).trigs = s.trigs := rfl
@[simp] theorem State.modMgmt_links (s : State) (g : Module → Module) : (s.modMgmt g).links = s.links := rfl
@[simp] theorem State.modMgmt_msi (s : State) (g : Module → Module) : (s.modMgmt g).msi = s.msi := rfl
@[simp] theorem State.modMgmt_hostData (s : State) (g : Module → Module) : (s.modMgmt g).hostData = s.hostData := rfl
@[simp] theorem State.modMgmt_cur (s : State) (g : Module → Module) : (s.modMgmt g).cur = s.cur := rfl
@[simp] theorem State.modMgmt_seq (s : State) (g : Module → Module) : (s.modMgmt g).seq = s.seq := rfl
@[simp] theorem State.modMgmt_tick (s : State) (g : Module → Module) : (s.modMgmt g).tick = s.tick := rfl
@[simp] theorem State.modMgmt_sched (s : State) (g : Module → Module) : (s.modMgmt g).sched = s.sched := rfl
@[simp] theorem State.setCtx_mem (s : State) (k : Ctx) : (s.setCtx k).mem = s.mem := rfl
@[simp] theorem State.setCtx_poison (s : State) (k : Ctx) : (s.setCtx k).poison = s.poison := rfl
@[simp] theorem State.setCtx_older (s : State) (k : Ctx) : (s.setCtx k).older = s.older := rfl
@[simp] theorem State.setCtx_heads (s : State) (k : Ctx) : (s.setCtx k).heads = s.heads := rfl
@[simp] theorem State.setCtx_cells (s : State) (k : Ctx) : (s.setCtx k).cells = s.cells := rfl
@[simp] theorem State.setCtx_clusters (s : State) (k : Ctx) : (s.setCtx k).clusters = s.clusters := rfl
@[simp] theorem State.setCtx_dies (s : State) (k : Ctx) : (s.setCtx k).dies = s.dies := rfl
@[simp] theorem State.setCtx_parts (s : State) (k : Ctx) : (s.setCtx k).parts = s.parts := rfl
@[simp] theorem State.setCtx_insts (s : State) (k : Ctx) : (s.setCtx k).insts = s.insts := rfl
@[simp] theorem State.setCtx_cmds (s : State) (k : Ctx) : (s.setCtx k).cmds = s.cmds := rfl
@[simp] theorem State.setCtx_net (s : State) (k : Ctx) : (s.setCtx k).net = s.net := rfl
@[simp] theorem State.setCtx_walks (s : State) (k : Ctx) : (s.setCtx k).walks = s.walks := rfl
@[simp] theorem State.setCtx_faults (s : State) (k : Ctx) : (s.setCtx k).faults = s.faults := rfl
@[simp] theorem State.setCtx_trigs (s : State) (k : Ctx) : (s.setCtx k).trigs = s.trigs := rfl
@[simp] theorem State.setCtx_links (s : State) (k : Ctx) : (s.setCtx k).links = s.links := rfl
@[simp] theorem State.setCtx_mgmt (s : State) (k : Ctx) : (s.setCtx k).mgmt = s.mgmt := rfl
@[simp] theorem State.setCtx_msi (s : State) (k : Ctx) : (s.setCtx k).msi = s.msi := rfl
@[simp] theorem State.setCtx_hostData (s : State) (k : Ctx) : (s.setCtx k).hostData = s.hostData := rfl
@[simp] theorem State.setCtx_cur (s : State) (k : Ctx) : (s.setCtx k).cur = s.cur := rfl
@[simp] theorem State.setCtx_seq (s : State) (k : Ctx) : (s.setCtx k).seq = s.seq := rfl
@[simp] theorem State.setCtx_tick (s : State) (k : Ctx) : (s.setCtx k).tick = s.tick := rfl
@[simp] theorem State.setCtx_sched (s : State) (k : Ctx) : (s.setCtx k).sched = s.sched := rfl
@[simp] theorem State.modCtx_mem (s : State) (g : Ctx → Ctx) : (s.modCtx g).mem = s.mem := rfl
@[simp] theorem State.modCtx_poison (s : State) (g : Ctx → Ctx) : (s.modCtx g).poison = s.poison := rfl
@[simp] theorem State.modCtx_older (s : State) (g : Ctx → Ctx) : (s.modCtx g).older = s.older := rfl
@[simp] theorem State.modCtx_heads (s : State) (g : Ctx → Ctx) : (s.modCtx g).heads = s.heads := rfl
@[simp] theorem State.modCtx_cells (s : State) (g : Ctx → Ctx) : (s.modCtx g).cells = s.cells := rfl
@[simp] theorem State.modCtx_clusters (s : State) (g : Ctx → Ctx) : (s.modCtx g).clusters = s.clusters := rfl
@[simp] theorem State.modCtx_dies (s : State) (g : Ctx → Ctx) : (s.modCtx g).dies = s.dies := rfl
@[simp] theorem State.modCtx_parts (s : State) (g : Ctx → Ctx) : (s.modCtx g).parts = s.parts := rfl
@[simp] theorem State.modCtx_insts (s : State) (g : Ctx → Ctx) : (s.modCtx g).insts = s.insts := rfl
@[simp] theorem State.modCtx_cmds (s : State) (g : Ctx → Ctx) : (s.modCtx g).cmds = s.cmds := rfl
@[simp] theorem State.modCtx_net (s : State) (g : Ctx → Ctx) : (s.modCtx g).net = s.net := rfl
@[simp] theorem State.modCtx_walks (s : State) (g : Ctx → Ctx) : (s.modCtx g).walks = s.walks := rfl
@[simp] theorem State.modCtx_faults (s : State) (g : Ctx → Ctx) : (s.modCtx g).faults = s.faults := rfl
@[simp] theorem State.modCtx_trigs (s : State) (g : Ctx → Ctx) : (s.modCtx g).trigs = s.trigs := rfl
@[simp] theorem State.modCtx_links (s : State) (g : Ctx → Ctx) : (s.modCtx g).links = s.links := rfl
@[simp] theorem State.modCtx_mgmt (s : State) (g : Ctx → Ctx) : (s.modCtx g).mgmt = s.mgmt := rfl
@[simp] theorem State.modCtx_msi (s : State) (g : Ctx → Ctx) : (s.modCtx g).msi = s.msi := rfl
@[simp] theorem State.modCtx_hostData (s : State) (g : Ctx → Ctx) : (s.modCtx g).hostData = s.hostData := rfl
@[simp] theorem State.modCtx_cur (s : State) (g : Ctx → Ctx) : (s.modCtx g).cur = s.cur := rfl
@[simp] theorem State.modCtx_seq (s : State) (g : Ctx → Ctx) : (s.modCtx g).seq = s.seq := rfl
@[simp] theorem State.modCtx_tick (s : State) (g : Ctx → Ctx) : (s.modCtx g).tick = s.tick := rfl
@[simp] theorem State.modCtx_sched (s : State) (g : Ctx → Ctx) : (s.modCtx g).sched = s.sched := rfl
@[simp] theorem State.modCur_mem (s : State) (g : Core → Core) : (s.modCur g).mem = s.mem := rfl
@[simp] theorem State.modCur_poison (s : State) (g : Core → Core) : (s.modCur g).poison = s.poison := rfl
@[simp] theorem State.modCur_older (s : State) (g : Core → Core) : (s.modCur g).older = s.older := rfl
@[simp] theorem State.modCur_heads (s : State) (g : Core → Core) : (s.modCur g).heads = s.heads := rfl
@[simp] theorem State.modCur_cells (s : State) (g : Core → Core) : (s.modCur g).cells = s.cells := rfl
@[simp] theorem State.modCur_clusters (s : State) (g : Core → Core) : (s.modCur g).clusters = s.clusters := rfl
@[simp] theorem State.modCur_dies (s : State) (g : Core → Core) : (s.modCur g).dies = s.dies := rfl
@[simp] theorem State.modCur_parts (s : State) (g : Core → Core) : (s.modCur g).parts = s.parts := rfl
@[simp] theorem State.modCur_insts (s : State) (g : Core → Core) : (s.modCur g).insts = s.insts := rfl
@[simp] theorem State.modCur_cmds (s : State) (g : Core → Core) : (s.modCur g).cmds = s.cmds := rfl
@[simp] theorem State.modCur_net (s : State) (g : Core → Core) : (s.modCur g).net = s.net := rfl
@[simp] theorem State.modCur_walks (s : State) (g : Core → Core) : (s.modCur g).walks = s.walks := rfl
@[simp] theorem State.modCur_faults (s : State) (g : Core → Core) : (s.modCur g).faults = s.faults := rfl
@[simp] theorem State.modCur_trigs (s : State) (g : Core → Core) : (s.modCur g).trigs = s.trigs := rfl
@[simp] theorem State.modCur_links (s : State) (g : Core → Core) : (s.modCur g).links = s.links := rfl
@[simp] theorem State.modCur_mgmt (s : State) (g : Core → Core) : (s.modCur g).mgmt = s.mgmt := rfl
@[simp] theorem State.modCur_msi (s : State) (g : Core → Core) : (s.modCur g).msi = s.msi := rfl
@[simp] theorem State.modCur_hostData (s : State) (g : Core → Core) : (s.modCur g).hostData = s.hostData := rfl
@[simp] theorem State.modCur_cur (s : State) (g : Core → Core) : (s.modCur g).cur = s.cur := rfl
@[simp] theorem State.modCur_seq (s : State) (g : Core → Core) : (s.modCur g).seq = s.seq := rfl
@[simp] theorem State.modCur_tick (s : State) (g : Core → Core) : (s.modCur g).tick = s.tick := rfl
@[simp] theorem State.modCur_sched (s : State) (g : Core → Core) : (s.modCur g).sched = s.sched := rfl
@[simp] theorem State.endFiring_mem (s : State) : (s.endFiring).mem = s.mem := rfl
@[simp] theorem State.endFiring_poison (s : State) : (s.endFiring).poison = s.poison := rfl
@[simp] theorem State.endFiring_older (s : State) : (s.endFiring).older = s.older := rfl
@[simp] theorem State.endFiring_heads (s : State) : (s.endFiring).heads = s.heads := rfl
@[simp] theorem State.endFiring_cells (s : State) : (s.endFiring).cells = s.cells := rfl
@[simp] theorem State.endFiring_clusters (s : State) : (s.endFiring).clusters = s.clusters := rfl
@[simp] theorem State.endFiring_dies (s : State) : (s.endFiring).dies = s.dies := rfl
@[simp] theorem State.endFiring_parts (s : State) : (s.endFiring).parts = s.parts := rfl
@[simp] theorem State.endFiring_insts (s : State) : (s.endFiring).insts = s.insts := rfl
@[simp] theorem State.endFiring_cmds (s : State) : (s.endFiring).cmds = s.cmds := rfl
@[simp] theorem State.endFiring_net (s : State) : (s.endFiring).net = s.net := rfl
@[simp] theorem State.endFiring_walks (s : State) : (s.endFiring).walks = s.walks := rfl
@[simp] theorem State.endFiring_faults (s : State) : (s.endFiring).faults = s.faults := rfl
@[simp] theorem State.endFiring_trigs (s : State) : (s.endFiring).trigs = s.trigs := rfl
@[simp] theorem State.endFiring_links (s : State) : (s.endFiring).links = s.links := rfl
@[simp] theorem State.endFiring_mgmt (s : State) : (s.endFiring).mgmt = s.mgmt := rfl
@[simp] theorem State.endFiring_msi (s : State) : (s.endFiring).msi = s.msi := rfl
@[simp] theorem State.endFiring_hostData (s : State) : (s.endFiring).hostData = s.hostData := rfl
@[simp] theorem State.endFiring_cur (s : State) : (s.endFiring).cur = s.cur := rfl
@[simp] theorem State.endFiring_seq (s : State) : (s.endFiring).seq = s.seq := rfl
@[simp] theorem State.endFiring_tick (s : State) : (s.endFiring).tick = s.tick := rfl
@[simp] theorem State.endFiring_sched (s : State) : (s.endFiring).sched = s.sched := rfl
@[simp] theorem State.countIssue_mem (s : State) (len : Nat) : (s.countIssue len).mem = s.mem := rfl
@[simp] theorem State.countIssue_poison (s : State) (len : Nat) : (s.countIssue len).poison = s.poison := rfl
@[simp] theorem State.countIssue_older (s : State) (len : Nat) : (s.countIssue len).older = s.older := rfl
@[simp] theorem State.countIssue_heads (s : State) (len : Nat) : (s.countIssue len).heads = s.heads := rfl
@[simp] theorem State.countIssue_cells (s : State) (len : Nat) : (s.countIssue len).cells = s.cells := rfl
@[simp] theorem State.countIssue_clusters (s : State) (len : Nat) : (s.countIssue len).clusters = s.clusters := rfl
@[simp] theorem State.countIssue_dies (s : State) (len : Nat) : (s.countIssue len).dies = s.dies := rfl
@[simp] theorem State.countIssue_parts (s : State) (len : Nat) : (s.countIssue len).parts = s.parts := rfl
@[simp] theorem State.countIssue_insts (s : State) (len : Nat) : (s.countIssue len).insts = s.insts := rfl
@[simp] theorem State.countIssue_cmds (s : State) (len : Nat) : (s.countIssue len).cmds = s.cmds := rfl
@[simp] theorem State.countIssue_net (s : State) (len : Nat) : (s.countIssue len).net = s.net := rfl
@[simp] theorem State.countIssue_walks (s : State) (len : Nat) : (s.countIssue len).walks = s.walks := rfl
@[simp] theorem State.countIssue_faults (s : State) (len : Nat) : (s.countIssue len).faults = s.faults := rfl
@[simp] theorem State.countIssue_trigs (s : State) (len : Nat) : (s.countIssue len).trigs = s.trigs := rfl
@[simp] theorem State.countIssue_links (s : State) (len : Nat) : (s.countIssue len).links = s.links := rfl
@[simp] theorem State.countIssue_mgmt (s : State) (len : Nat) : (s.countIssue len).mgmt = s.mgmt := rfl
@[simp] theorem State.countIssue_msi (s : State) (len : Nat) : (s.countIssue len).msi = s.msi := rfl
@[simp] theorem State.countIssue_hostData (s : State) (len : Nat) : (s.countIssue len).hostData = s.hostData := rfl
@[simp] theorem State.countIssue_cur (s : State) (len : Nat) : (s.countIssue len).cur = s.cur := rfl
@[simp] theorem State.countIssue_seq (s : State) (len : Nat) : (s.countIssue len).seq = s.seq := rfl
@[simp] theorem State.countIssue_tick (s : State) (len : Nat) : (s.countIssue len).tick = s.tick := rfl
@[simp] theorem State.countIssue_sched (s : State) (len : Nat) : (s.countIssue len).sched = s.sched := rfl
@[simp] theorem State.send_mem (s : State) (p : Packet) : (s.send p).mem = s.mem := rfl
@[simp] theorem State.send_poison (s : State) (p : Packet) : (s.send p).poison = s.poison := rfl
@[simp] theorem State.send_older (s : State) (p : Packet) : (s.send p).older = s.older := rfl
@[simp] theorem State.send_heads (s : State) (p : Packet) : (s.send p).heads = s.heads := rfl
@[simp] theorem State.send_cores (s : State) (p : Packet) : (s.send p).cores = s.cores := rfl
@[simp] theorem State.send_cells (s : State) (p : Packet) : (s.send p).cells = s.cells := rfl
@[simp] theorem State.send_clusters (s : State) (p : Packet) : (s.send p).clusters = s.clusters := rfl
@[simp] theorem State.send_dies (s : State) (p : Packet) : (s.send p).dies = s.dies := rfl
@[simp] theorem State.send_parts (s : State) (p : Packet) : (s.send p).parts = (s.unquiet p.from_.part).parts := rfl
/-- A partition that is not quiescent keeps all that is kept for it. -/
@[simp] theorem State.unquiet_of_busy (s : State) (p : Nat) (h : (s.part p).quiesced = false) : s.unquiet p = s := by
  simp [State.unquiet, h]
@[simp] theorem State.send_insts (s : State) (p : Packet) : (s.send p).insts = s.insts := rfl
@[simp] theorem State.send_cmds (s : State) (p : Packet) : (s.send p).cmds = s.cmds := rfl
@[simp] theorem State.send_walks (s : State) (p : Packet) : (s.send p).walks = s.walks := rfl
@[simp] theorem State.send_faults (s : State) (p : Packet) : (s.send p).faults = s.faults := rfl
@[simp] theorem State.send_trigs (s : State) (p : Packet) : (s.send p).trigs = s.trigs := rfl
@[simp] theorem State.send_links (s : State) (p : Packet) : (s.send p).links = s.links := rfl
@[simp] theorem State.send_mgmt (s : State) (p : Packet) : (s.send p).mgmt = s.mgmt := rfl
@[simp] theorem State.send_msi (s : State) (p : Packet) : (s.send p).msi = s.msi := rfl
@[simp] theorem State.send_hostData (s : State) (p : Packet) : (s.send p).hostData = s.hostData := rfl
@[simp] theorem State.send_cur (s : State) (p : Packet) : (s.send p).cur = s.cur := rfl
@[simp] theorem State.send_tick (s : State) (p : Packet) : (s.send p).tick = s.tick := rfl
@[simp] theorem State.send_sched (s : State) (p : Packet) : (s.send p).sched = s.sched := rfl
@[simp] theorem State.dropPacket_mem (s : State) (k : Nat) : (s.dropPacket k).mem = s.mem := rfl
@[simp] theorem State.dropPacket_poison (s : State) (k : Nat) : (s.dropPacket k).poison = s.poison := rfl
@[simp] theorem State.dropPacket_older (s : State) (k : Nat) : (s.dropPacket k).older = s.older := rfl
@[simp] theorem State.dropPacket_heads (s : State) (k : Nat) : (s.dropPacket k).heads = s.heads := rfl
@[simp] theorem State.dropPacket_cores (s : State) (k : Nat) : (s.dropPacket k).cores = s.cores := rfl
@[simp] theorem State.dropPacket_cells (s : State) (k : Nat) : (s.dropPacket k).cells = s.cells := rfl
@[simp] theorem State.dropPacket_clusters (s : State) (k : Nat) : (s.dropPacket k).clusters = s.clusters := rfl
@[simp] theorem State.dropPacket_dies (s : State) (k : Nat) : (s.dropPacket k).dies = s.dies := rfl
@[simp] theorem State.dropPacket_parts (s : State) (k : Nat) : (s.dropPacket k).parts = s.parts := rfl
@[simp] theorem State.dropPacket_insts (s : State) (k : Nat) : (s.dropPacket k).insts = s.insts := rfl
@[simp] theorem State.dropPacket_cmds (s : State) (k : Nat) : (s.dropPacket k).cmds = s.cmds := rfl
@[simp] theorem State.dropPacket_walks (s : State) (k : Nat) : (s.dropPacket k).walks = s.walks := rfl
@[simp] theorem State.dropPacket_faults (s : State) (k : Nat) : (s.dropPacket k).faults = s.faults := rfl
@[simp] theorem State.dropPacket_trigs (s : State) (k : Nat) : (s.dropPacket k).trigs = s.trigs := rfl
@[simp] theorem State.dropPacket_links (s : State) (k : Nat) : (s.dropPacket k).links = s.links := rfl
@[simp] theorem State.dropPacket_mgmt (s : State) (k : Nat) : (s.dropPacket k).mgmt = s.mgmt := rfl
@[simp] theorem State.dropPacket_msi (s : State) (k : Nat) : (s.dropPacket k).msi = s.msi := rfl
@[simp] theorem State.dropPacket_hostData (s : State) (k : Nat) : (s.dropPacket k).hostData = s.hostData := rfl
@[simp] theorem State.dropPacket_cur (s : State) (k : Nat) : (s.dropPacket k).cur = s.cur := rfl
@[simp] theorem State.dropPacket_seq (s : State) (k : Nat) : (s.dropPacket k).seq = s.seq := rfl
@[simp] theorem State.dropPacket_tick (s : State) (k : Nat) : (s.dropPacket k).tick = s.tick := rfl
@[simp] theorem State.dropPacket_sched (s : State) (k : Nat) : (s.dropPacket k).sched = s.sched := rfl
@[simp] theorem State.setPacket_mem (s : State) (k : Nat) (p : Packet) : (s.setPacket k p).mem = s.mem := rfl
@[simp] theorem State.setPacket_poison (s : State) (k : Nat) (p : Packet) : (s.setPacket k p).poison = s.poison := rfl
@[simp] theorem State.setPacket_older (s : State) (k : Nat) (p : Packet) : (s.setPacket k p).older = s.older := rfl
@[simp] theorem State.setPacket_heads (s : State) (k : Nat) (p : Packet) : (s.setPacket k p).heads = s.heads := rfl
@[simp] theorem State.setPacket_cores (s : State) (k : Nat) (p : Packet) : (s.setPacket k p).cores = s.cores := rfl
@[simp] theorem State.setPacket_cells (s : State) (k : Nat) (p : Packet) : (s.setPacket k p).cells = s.cells := rfl
@[simp] theorem State.setPacket_clusters (s : State) (k : Nat) (p : Packet) : (s.setPacket k p).clusters = s.clusters := rfl
@[simp] theorem State.setPacket_dies (s : State) (k : Nat) (p : Packet) : (s.setPacket k p).dies = s.dies := rfl
@[simp] theorem State.setPacket_parts (s : State) (k : Nat) (p : Packet) : (s.setPacket k p).parts = s.parts := rfl
@[simp] theorem State.setPacket_insts (s : State) (k : Nat) (p : Packet) : (s.setPacket k p).insts = s.insts := rfl
@[simp] theorem State.setPacket_cmds (s : State) (k : Nat) (p : Packet) : (s.setPacket k p).cmds = s.cmds := rfl
@[simp] theorem State.setPacket_walks (s : State) (k : Nat) (p : Packet) : (s.setPacket k p).walks = s.walks := rfl
@[simp] theorem State.setPacket_faults (s : State) (k : Nat) (p : Packet) : (s.setPacket k p).faults = s.faults := rfl
@[simp] theorem State.setPacket_trigs (s : State) (k : Nat) (p : Packet) : (s.setPacket k p).trigs = s.trigs := rfl
@[simp] theorem State.setPacket_links (s : State) (k : Nat) (p : Packet) : (s.setPacket k p).links = s.links := rfl
@[simp] theorem State.setPacket_mgmt (s : State) (k : Nat) (p : Packet) : (s.setPacket k p).mgmt = s.mgmt := rfl
@[simp] theorem State.setPacket_msi (s : State) (k : Nat) (p : Packet) : (s.setPacket k p).msi = s.msi := rfl
@[simp] theorem State.setPacket_hostData (s : State) (k : Nat) (p : Packet) : (s.setPacket k p).hostData = s.hostData := rfl
@[simp] theorem State.setPacket_cur (s : State) (k : Nat) (p : Packet) : (s.setPacket k p).cur = s.cur := rfl
@[simp] theorem State.setPacket_seq (s : State) (k : Nat) (p : Packet) : (s.setPacket k p).seq = s.seq := rfl
@[simp] theorem State.setPacket_tick (s : State) (k : Nat) (p : Packet) : (s.setPacket k p).tick = s.tick := rfl
@[simp] theorem State.setPacket_sched (s : State) (k : Nat) (p : Packet) : (s.setPacket k p).sched = s.sched := rfl

@[simp] theorem State.noted_mem (s : State) (w : Writer) (k n : Nat) (t : State) : (s.noted w k n t).mem = t.mem := rfl
@[simp] theorem State.noted_poison (s : State) (w : Writer) (k n : Nat) (t : State) : (s.noted w k n t).poison = t.poison := rfl
@[simp] theorem State.noted_heads (s : State) (w : Writer) (k n : Nat) (t : State) : (s.noted w k n t).heads = t.heads := rfl
@[simp] theorem State.noted_cores (s : State) (w : Writer) (k n : Nat) (t : State) : (s.noted w k n t).cores = t.cores := rfl
@[simp] theorem State.noted_cells (s : State) (w : Writer) (k n : Nat) (t : State) : (s.noted w k n t).cells = t.cells := rfl
@[simp] theorem State.noted_clusters (s : State) (w : Writer) (k n : Nat) (t : State) : (s.noted w k n t).clusters = t.clusters := rfl
@[simp] theorem State.noted_dies (s : State) (w : Writer) (k n : Nat) (t : State) : (s.noted w k n t).dies = t.dies := rfl
@[simp] theorem State.noted_parts (s : State) (w : Writer) (k n : Nat) (t : State) : (s.noted w k n t).parts = t.parts := rfl
@[simp] theorem State.noted_insts (s : State) (w : Writer) (k n : Nat) (t : State) : (s.noted w k n t).insts = t.insts := rfl
@[simp] theorem State.noted_cmds (s : State) (w : Writer) (k n : Nat) (t : State) : (s.noted w k n t).cmds = t.cmds := rfl
@[simp] theorem State.noted_net (s : State) (w : Writer) (k n : Nat) (t : State) : (s.noted w k n t).net = t.net := rfl
@[simp] theorem State.noted_walks (s : State) (w : Writer) (k n : Nat) (t : State) : (s.noted w k n t).walks = t.walks := rfl
@[simp] theorem State.noted_faults (s : State) (w : Writer) (k n : Nat) (t : State) : (s.noted w k n t).faults = t.faults := rfl
@[simp] theorem State.noted_trigs (s : State) (w : Writer) (k n : Nat) (t : State) : (s.noted w k n t).trigs = t.trigs := rfl
@[simp] theorem State.noted_links (s : State) (w : Writer) (k n : Nat) (t : State) : (s.noted w k n t).links = t.links := rfl
@[simp] theorem State.noted_mgmt (s : State) (w : Writer) (k n : Nat) (t : State) : (s.noted w k n t).mgmt = t.mgmt := rfl
@[simp] theorem State.noted_msi (s : State) (w : Writer) (k n : Nat) (t : State) : (s.noted w k n t).msi = t.msi := rfl
@[simp] theorem State.noted_hostData (s : State) (w : Writer) (k n : Nat) (t : State) : (s.noted w k n t).hostData = t.hostData := rfl
@[simp] theorem State.noted_cur (s : State) (w : Writer) (k n : Nat) (t : State) : (s.noted w k n t).cur = t.cur := rfl
@[simp] theorem State.noted_seq (s : State) (w : Writer) (k n : Nat) (t : State) : (s.noted w k n t).seq = t.seq := rfl
@[simp] theorem State.noted_tick (s : State) (w : Writer) (k n : Nat) (t : State) : (s.noted w k n t).tick = t.tick := rfl
@[simp] theorem State.noted_sched (s : State) (w : Writer) (k n : Nat) (t : State) : (s.noted w k n t).sched = t.sched := rfl

/-- The memory after a write. -/
@[simp] theorem State.writeN_mem (s : State) (k n v : Nat) : (s.writeN k n v).mem = memWriteN s.mem k n v := rfl
@[simp] theorem State.writeW_mem (s : State) (k : Nat) (v : Word) : (s.writeW k v).mem = memWriteN s.mem k 8 v.toNat := rfl
@[simp] theorem State.writeBytes_mem (s : State) (k : Nat) (bs : List Byte) :
    (s.writeBytes k bs).mem = memWriteN s.mem k bs.length (State.natOfBytes bs) := rfl

/-- A unit reads as it was last set. -/
@[simp] theorem State.core_setCore (s : State) (cid : Nat) (c : Core) : (s.setCore cid c).core cid = c := Tbl.get_set_same ..
@[simp] theorem State.core_modCore (s : State) (cid : Nat) (g : Core → Core) : (s.modCore cid g).core cid = g (s.core cid) := Tbl.get_set_same ..
@[simp] theorem State.core_modCur (s : State) (g : Core → Core) : (s.modCur g).core s.cur.1 = g (s.core s.cur.1) := Tbl.get_set_same ..
@[simp] theorem State.cell_setCell (s : State) (i : Nat) (c : Cell) : (s.setCell i c).cell i = c := Tbl.get_set_same ..
@[simp] theorem State.cluster_modCluster (s : State) (i : Nat) (g : Cluster → Cluster) : (s.modCluster i g).cluster i = g (s.cluster i) := Tbl.get_set_same ..
@[simp] theorem State.die_modDie (s : State) (i : Nat) (g : Die → Die) : (s.modDie i g).die i = g (s.die i) := Tbl.get_set_same ..
@[simp] theorem State.part_modPart (s : State) (p : Nat) (g : Part → Part) : (s.modPart p g).part p = g (s.part p) := Tbl.get_set_same ..
@[simp] theorem State.mgmt_modMgmt (s : State) (g : Module → Module) : (s.modMgmt g).mgmt = g s.mgmt := rfl

/-- Setting one unit leaves the others. -/
theorem State.core_setCore_other (s : State) (cid d : Nat) (c : Core) (h : d ≠ cid) : (s.setCore cid c).core d = s.core d :=
  Tbl.get_set_other _ _ _ _ _ h
theorem State.core_modCore_other (s : State) (cid d : Nat) (g : Core → Core) (h : d ≠ cid) : (s.modCore cid g).core d = s.core d :=
  Tbl.get_set_other _ _ _ _ _ h
theorem State.part_modPart_other (s : State) (p q : Nat) (g : Part → Part) (h : q ≠ p) : (s.modPart p g).part q = s.part q :=
  Tbl.get_set_other _ _ _ _ _ h
theorem State.die_modDie_other (s : State) (i j : Nat) (g : Die → Die) (h : j ≠ i) : (s.modDie i g).die j = s.die j :=
  Tbl.get_set_other _ _ _ _ _ h
theorem State.cluster_modCluster_other (s : State) (i j : Nat) (g : Cluster → Cluster) (h : j ≠ i) :
    (s.modCluster i g).cluster j = s.cluster j := Tbl.get_set_other _ _ _ _ _ h

/-- A context of a core reads as it was last set. -/
@[simp] theorem State.ctxOf_setCtxOf (c : Core) (x : Nat) (k : Ctx) : State.ctxOf (State.setCtxOf c x k) x = k := by
  unfold State.ctxOf State.setCtxOf; split <;> rfl
/-- The context that issues reads as it was last set. -/
@[simp] theorem State.ctx_setCtx (s : State) (k : Ctx) : (s.setCtx k).ctx = k := by simp [State.ctx, State.setCtx]
@[simp] theorem State.ctx_modCtx (s : State) (g : Ctx → Ctx) : (s.modCtx g).ctx = g s.ctx := by simp [State.modCtx]
/-- The issue of an instruction leaves what its guard reads. -/
theorem State.ctx_countIssue (s : State) (len : Nat) : (s.countIssue len).ctx =
    { s.ctx with issued := s.ctx.issued + 1, ipc := s.ctx.pc, pc := s.ctx.pc + BitVec.ofNat 64 len } := by
  have h : (s.modCur (fun c => { c with cyc := c.cyc + 1 + Config.freeWait s.tick, last := s.cur.2 })).ctx = s.ctx := by
    unfold State.ctx
    simp only [State.modCur_cur, State.core_modCur]
    unfold State.ctxOf
    split <;> rfl
  unfold State.countIssue
  rw [State.ctx_modCtx, h]

end Sys2Proof.Machine
end

