-- ==== Sys2Proof/Laws/Issue.lean ====
section
/-! SUPPORT. What the issue of an instruction can do: nothing where its guard is false, its body's effect, or a fault. -/

namespace Sys2Proof.Machine

/-- The issue of an instruction leaves what its guard reads. -/
@[simp] theorem guardHolds_countIssue (g : BitVec 4) (s : State) (len : Nat) :
    guardHolds g (s.countIssue len).ctx = guardHolds g s.ctx := by simp [guardHolds, State.ctx_countIssue]

/-- Guard p0 not negated always holds (R81). -/
@[simp] theorem guardHolds_zero (k : Ctx) : guardHolds 0 k = true := by simp [guardHolds]

/-- An instruction whose guard is false counts as issued and does nothing else (R81). -/
theorem issue_skip {len : Nat} {g : BitVec 4} {s : State} {body : State → Except Code State} (h : guardHolds g s.ctx = false) :
    issue len g s body = .next (s.countIssue len) := by simp [issue, h]

/-- An instruction whose body meets no fault has its effect. -/
theorem issue_ok {len : Nat} {g : BitVec 4} {s t : State} {body : State → Except Code State} (h : guardHolds g s.ctx = true)
    (hb : body (s.countIssue len) = .ok t) : issue len g s body = .next t := by simp [issue, h, hb]

/-- An instruction whose body meets a fault ends the firing with its code (R40). -/
theorem issue_error {len : Nat} {g : BitVec 4} {s : State} {body : State → Except Code State} {c : Code}
    (h : guardHolds g s.ctx = true) (hb : body (s.countIssue len) = .error c) :
    issue len g s body = .next ((s.countIssue len).takeFault c 0) := by simp [issue, h, hb]

/-- The issue of an instruction answers a next state, and one of three. -/
theorem issue_cases (len : Nat) (g : BitVec 4) (s : State) (body : State → Except Code State) :
    (guardHolds g s.ctx = false ∧ issue len g s body = .next (s.countIssue len)) ∨
    (∃ t, guardHolds g s.ctx = true ∧ body (s.countIssue len) = .ok t ∧ issue len g s body = .next t) ∨
    (∃ c, guardHolds g s.ctx = true ∧ body (s.countIssue len) = .error c ∧
      issue len g s body = .next ((s.countIssue len).takeFault c 0)) := by
  cases hg : guardHolds g s.ctx with
  | false => exact .inl ⟨rfl, issue_skip hg⟩
  | true =>
    cases hb : body (s.countIssue len) with
    | ok t => exact .inr (.inl ⟨t, rfl, rfl, issue_ok hg hb⟩)
    | error c => exact .inr (.inr ⟨c, rfl, rfl, issue_error hg hb⟩)

/-- A test that holds passes. -/
@[simp] theorem need_true (c : Code) : need true c = .ok () := rfl
/-- A test that fails faults with its code. -/
@[simp] theorem need_false (c : Code) : need false c = .error c := rfl
/-- A test passes only where it holds. -/
theorem need_ok {b : Bool} {c : Code} {u : Unit} (h : need b c = .ok u) : b = true := by cases b <;> simp_all [need]

/-- A computation that answers, and one that faults, at the head of a sequence. -/
@[simp] theorem ok_bind {α β : Type} (a : α) (g : α → Except Code β) : ((Except.ok a : Except Code α) >>= g) = g a := rfl
@[simp] theorem error_bind {α β : Type} (c : Code) (g : α → Except Code β) : ((Except.error c : Except Code α) >>= g) = .error c := rfl
/-- A sequence answers where its head answers and the rest does. -/
theorem bind_ok {α β : Type} {x : Except Code α} {g : α → Except Code β} {b : β} (h : (x >>= g) = .ok b) :
    ∃ a, x = .ok a ∧ g a = .ok b := by
  cases x with
  | ok a => exact ⟨a, rfl, h⟩
  | error c => simp at h

end Sys2Proof.Machine
end

