-- ==== Sys2Proof/Laws/Memory.lean ====
section
/-! SUPPORT. Laws of the byte list of memory: a byte reads as it was last written, a write leaves every other byte, and every
operation keeps the canonical form. -/

namespace Sys2Proof.Machine

/-- The keys of a canonical list lie above a bound. -/
def above (lo : Nat) : List Host.Cell → Prop
  | [] => True
  | c :: _ => lo < c.1

/-- The canonical form, by its head. -/
theorem memWf_cons (c : Host.Cell) (t : List Host.Cell) : memWf (c :: t) = true ↔ c.2 ≠ 0 ∧ above c.1 t ∧ memWf t = true := by
  cases t with
  | nil => simp [memWf, above]
  | cons d t => simp [memWf, above, and_assoc]

/-- The rest of a canonical list is canonical. -/
theorem memWf_tail {c : Host.Cell} {t : List Host.Cell} (h : memWf (c :: t) = true) : memWf t = true := ((memWf_cons c t).1 h).2.2

/-- A lower bound may be lowered. -/
theorem above_mono {a b : Nat} {l : List Host.Cell} (h : above b l) (hab : a ≤ b) : above a l := by
  cases l with
  | nil => trivial
  | cons c t => exact Nat.lt_of_le_of_lt hab h

/-- Every key of a canonical list lies above a bound that its head lies above. -/
theorem above_mem {lo : Nat} {l : List Host.Cell} (hw : memWf l = true) (h : above lo l) : ∀ c ∈ l, lo < c.1 := by
  induction l generalizing lo with
  | nil => simp
  | cons c t ih =>
    intro x hx
    have hc := (memWf_cons c t).1 hw
    rcases List.mem_cons.1 hx with rfl | hx
    · exact h
    · exact Nat.lt_trans h (ih hc.2.2 hc.2.1 x hx)

/-- A canonical list lies above a bound that all its keys lie above. -/
theorem above_of_mem {lo : Nat} {l : List Host.Cell} (h : ∀ c ∈ l, lo < c.1) : above lo l := by
  cases l with
  | nil => trivial
  | cons c t => exact h c (List.mem_cons_self ..)

/-- A written list lies above a bound that the list and the key lie above. -/
theorem above_memWrite {lo i : Nat} {b : Byte} {l : List Host.Cell} (hw : memWf l = true) (h : above lo l) (hi : lo < i) :
    above lo (memWrite l i b) := by
  cases l with
  | nil => unfold memWrite; split <;> simp_all [above]
  | cons c t =>
    obtain ⟨k, v⟩ := c
    have hc := (memWf_cons (k, v) t).1 hw
    have hk : lo < k := h
    have ht : above lo t := above_mono hc.2.1 (Nat.le_of_lt hk)
    unfold memWrite
    repeat' split
    all_goals first | exact ht | exact hk | exact hi

/-- One byte written keeps the canonical form. -/
theorem memWf_memWrite {l : List Host.Cell} (i : Nat) (b : Byte) (h : memWf l = true) : memWf (memWrite l i b) = true := by
  induction l with
  | nil => unfold memWrite; split <;> simp_all [memWf]
  | cons c t ih =>
    obtain ⟨k, v⟩ := c
    have hc := (memWf_cons (k, v) t).1 h
    unfold memWrite
    split
    · split
      · exact hc.2.2
      · exact (memWf_cons _ _).2 ⟨by assumption, hc.2.1, hc.2.2⟩
    · split
      · split
        · exact h
        · exact (memWf_cons _ _).2 ⟨by assumption, by assumption, h⟩
      · exact (memWf_cons _ _).2 ⟨hc.1, above_memWrite hc.2.2 hc.2.1 (by show k < i; omega), ih hc.2.2⟩

/-- Bytes written keep the canonical form. -/
theorem memWf_memWriteN (n : Nat) : ∀ {l : List Host.Cell} (k v : Nat), memWf l = true → memWf (memWriteN l k n v) = true := by
  induction n with
  | zero => intro l k v h; exact h
  | succ n ih => intro l k v h; exact ih _ _ (memWf_memWrite _ _ h)

/-- Cells left out keep the canonical form. -/
theorem memWf_filter (p : Host.Cell → Bool) {l : List Host.Cell} (h : memWf l = true) : memWf (l.filter p) = true := by
  induction l with
  | nil => rfl
  | cons c t ih =>
    have hc := (memWf_cons c t).1 h
    rw [List.filter_cons]
    split
    · refine (memWf_cons _ _).2 ⟨hc.1, above_of_mem (fun x hx => ?_), ih hc.2.2⟩
      exact above_mem hc.2.2 hc.2.1 x (List.mem_of_mem_filter hx)
    · exact ih hc.2.2

/-- Clearing a range keeps the canonical form. -/
theorem memWf_memClear (lo len : Nat) {l : List Host.Cell} (h : memWf l = true) : memWf (memClear l lo len) = true := memWf_filter _ h

/-- A byte that no cell lists reads as 0. -/
theorem memRead_of_above {l : List Host.Cell} {i : Nat} (hw : memWf l = true) (h : above i l) : memRead l i = 0 := by
  induction l with
  | nil => rfl
  | cons c t ih =>
    obtain ⟨k, v⟩ := c
    have hc := (memWf_cons (k, v) t).1 hw
    have hk : i < k := h
    unfold memRead
    rw [if_neg (Nat.ne_of_lt hk)]
    exact ih hc.2.2 (above_mono hc.2.1 (Nat.le_of_lt hk))

/-- A byte reads as it was last written. -/
theorem memRead_memWrite_same {l : List Host.Cell} (i : Nat) (b : Byte) (h : memWf l = true) : memRead (memWrite l i b) i = b := by
  induction l with
  | nil => unfold memWrite; split <;> simp_all [memRead]
  | cons c t ih =>
    obtain ⟨k, v⟩ := c
    have hc := (memWf_cons (k, v) t).1 h
    unfold memWrite
    split
    · rename_i hk
      subst hk
      split
      · rename_i hb; rw [hb]; exact memRead_of_above hc.2.2 hc.2.1
      · simp [memRead]
    · rename_i hk
      split
      · rename_i hlt
        split
        · rename_i hb; rw [hb]; exact memRead_of_above h (show i < k from hlt)
        · simp [memRead]
      · simp [memRead, hk, ih hc.2.2]

/-- A write of one byte leaves every other. -/
theorem memRead_memWrite_other (l : List Host.Cell) (i j : Nat) (b : Byte) (hj : j ≠ i) : memRead (memWrite l i b) j = memRead l j := by
  induction l with
  | nil => unfold memWrite; split <;> simp_all [memRead]
  | cons c t ih =>
    obtain ⟨k, v⟩ := c
    unfold memWrite
    split
    · rename_i hk
      subst hk
      split <;> simp [memRead, hj]
    · split
      · split <;> simp [memRead, hj]
      · simp [memRead, ih]

/-- A write of n bytes leaves every byte outside them. -/
theorem memRead_memWriteN_other (n : Nat) : ∀ (l : List Host.Cell) (k v j : Nat), (j < k ∨ k + n ≤ j) →
    memRead (memWriteN l k n v) j = memRead l j := by
  induction n with
  | zero => intros; rfl
  | succ n ih =>
    intro l k v j h
    unfold memWriteN
    rw [ih _ _ _ _ (by omega)]
    exact memRead_memWrite_other _ _ _ _ (by omega)

/-- The bytes of a write read as the digits of its value. -/
theorem memRead_memWriteN_same (n : Nat) : ∀ {l : List Host.Cell} (k v j : Nat), memWf l = true → k ≤ j → j < k + n →
    memRead (memWriteN l k n v) j = BitVec.ofNat 8 (v / 256 ^ (j - k)) := by
  induction n with
  | zero => intros; omega
  | succ n ih =>
    intro l k v j hw h1 h2
    unfold memWriteN
    by_cases hj : j = k
    · subst hj
      rw [memRead_memWriteN_other _ _ _ _ _ (by omega), memRead_memWrite_same _ _ hw]
      simp
    · rw [ih _ _ _ (memWf_memWrite _ _ hw) (by omega) (by omega), Nat.div_div_eq_div_mul]
      congr 2
      rw [show j - k = (j - (k + 1)) + 1 by omega, pow_succ, Nat.mul_comm]

/-- n bytes read as the value written to them. -/
theorem memReadN_memWriteN_same (n : Nat) : ∀ {l : List Host.Cell} (k v : Nat), memWf l = true →
    memReadN (memWriteN l k n v) k n = v % 256 ^ n := by
  induction n with
  | zero => intro l k v _; simp [memReadN, Nat.mod_one]
  | succ n ih =>
    intro l k v hw
    unfold memReadN memWriteN
    rw [ih _ _ (memWf_memWrite _ _ hw), memRead_memWriteN_other _ _ _ _ _ (by omega), memRead_memWrite_same _ _ hw]
    rw [BitVec.toNat_ofNat, pow_succ' 256 n, Nat.mod_mul (x := v) (a := 256)]

/-- n bytes outside a write read as before. -/
theorem memReadN_memWriteN_other (n : Nat) : ∀ (l : List Host.Cell) (k m v j : Nat), (j + n ≤ k ∨ k + m ≤ j) →
    memReadN (memWriteN l k m v) j n = memReadN l j n := by
  induction n with
  | zero => intros; rfl
  | succ n ih =>
    intro l k m v j h
    unfold memReadN
    rw [ih _ _ _ _ _ (by omega), memRead_memWriteN_other _ _ _ _ _ (by omega)]

end Sys2Proof.Machine
end

