-- ==== Sys2Proof/Laws/Canonical.lean ====
section
/-! SUPPORT. Every operation of the machine keeps the canonical form of memory. -/

set_option Elab.async false

namespace Sys2Proof.Machine

/-- A choice of states with the form has it. -/
theorem wf_ite {c : Prop} [Decidable c] {a b : State} (ha : memWf a.mem = true) (hb : memWf b.mem = true) :
    memWf (if c then a else b).mem = true := by split <;> assumption

theorem wf_pureS {s u : State} (e : (pure s : Except Code State) = .ok u) (h : memWf s.mem = true) : memWf u.mem = true := by cases e; exact h
theorem wf_okS {s u : State} (e : (.ok s : Except Code State) = .ok u) (h : memWf s.mem = true) : memWf u.mem = true := by cases e; exact h
theorem wf_pureR {w : Word} {s : State} {r : Word × State} (e : (pure (w, s) : Except Code (Word × State)) = .ok r) (h : memWf s.mem = true) :
    memWf r.2.mem = true := by cases e; exact h
theorem wf_okR {w : Word} {s : State} {r : Word × State} (e : (.ok (w, s) : Except Code (Word × State)) = .ok r) (h : memWf s.mem = true) :
    memWf r.2.mem = true := by cases e; exact h
theorem wf_error {α : Type} {c : Code} {u : α} {p : Prop} (e : (.error c : Except Code α) = .ok u) : p := by cases e
/-- What an optional result satisfies, by its choices. -/
theorem opt_ite {α : Type} {p : α → Prop} {c : Prop} [Decidable c] {a b : Option α} (ha : ∀ x, a = some x → p x) (hb : ∀ x, b = some x → p x) :
    ∀ x, (if c then a else b) = some x → p x := by split <;> assumption

/-- A fold of operations that keep the form keeps it. -/
theorem wf_foldl {α : Type} (l : List α) (g : State → α → State) (hg : ∀ t a, memWf t.mem = true → memWf (g t a).mem = true) (s : State)
    (h : memWf s.mem = true) : memWf (l.foldl g s).mem = true := by
  induction l generalizing s with
  | nil => exact h
  | cons a l ih => exact ih _ (hg _ _ h)
/-- The same of operations that may answer nothing. -/
theorem wf_bindFold {α : Type} (l : List α) (g : State → α → Option State) (hg : ∀ t a u, g t a = some u → memWf t.mem = true → memWf u.mem = true)
    (o : Option State) (h : ∀ t, o = some t → memWf t.mem = true) :
    ∀ u, l.foldl (fun (o : Option State) a => o.bind (fun t => g t a)) o = some u → memWf u.mem = true := by
  induction l generalizing o with
  | nil => exact h
  | cons a l ih =>
    refine ih _ (fun t e => ?_)
    obtain ⟨x, hx, e⟩ := Option.bind_eq_some_iff.1 e
    exact hg _ _ _ e (h _ hx)

theorem wf_writeN (s : State) (k n v : Nat) (hw : memWf s.mem = true) : memWf (State.writeN s k n v).mem = true := by
  unfold State.writeN
  try dsimp only
  repeat' (first | with_reducible assumption | with_reducible apply memWf_memWriteN )

theorem wf_writeW (s : State) (k : Nat) (v : Word) (hw : memWf s.mem = true) : memWf (State.writeW s k v).mem = true := by
  unfold State.writeW
  try dsimp only
  repeat' (first | with_reducible assumption | with_reducible apply wf_writeN  )

theorem wf_writeBytes (s : State) (k : Nat) (bs : List Byte) (hw : memWf s.mem = true) : memWf (State.writeBytes s k bs).mem = true := by
  unfold State.writeBytes
  try dsimp only
  repeat' (first | with_reducible assumption | with_reducible apply wf_writeN  )

theorem wf_clearWritten (s : State) (rs : List (Nat × Nat)) (hw : memWf s.mem = true) : memWf (State.clearWritten s rs).mem = true := by
  unfold State.clearWritten
  try dsimp only
  repeat' (first | with_reducible assumption   )

theorem wf_addPoison (s : State) (k n : Nat) (hw : memWf s.mem = true) : memWf (State.addPoison s k n).mem = true := by
  unfold State.addPoison
  try dsimp only
  repeat' (first | with_reducible assumption  )

theorem wf_saw (s : State) (r : Reader) (k n : Nat) (hw : memWf s.mem = true) : memWf (State.saw s r k n).mem = true := by
  unfold State.saw
  try dsimp only
  repeat' (first | with_reducible assumption  )

theorem wf_publish (s : State) (k n : Nat) (hw : memWf s.mem = true) : memWf (State.publish s k n).mem = true := by
  unfold State.publish
  try dsimp only
  repeat' (first | with_reducible assumption   )

theorem wf_noted (s : State) (w : Writer) (k n : Nat) (t : State) (ht : memWf t.mem = true) : memWf (s.noted w k n t).mem = true := ht

theorem wf_notedLanes (s : State) (w : Writer) (ks : List Nat) (t : State) (ht : memWf t.mem = true) : memWf (s.notedLanes w ks t).mem = true := ht

theorem wf_storeN (s : State) (w : Writer) (k n v : Nat) (hw : memWf s.mem = true) : memWf (State.storeN s w k n v).mem = true := by
  unfold State.storeN
  try dsimp only
  repeat' (first | with_reducible assumption | with_reducible apply wf_noted | with_reducible apply wf_writeN  )

theorem wf_bindTo (s : State) (x : Party) (q : Older → Bool) (hw : memWf s.mem = true) : memWf (State.bindTo s x q).mem = true := by
  unfold State.bindTo
  try dsimp only
  repeat' (first | with_reducible assumption   )

theorem wf_unbind (s : State) (q : Party → Bool) (hw : memWf s.mem = true) : memWf (State.unbind s q).mem = true := by
  unfold State.unbind
  try dsimp only
  repeat' (first | with_reducible assumption   )

theorem wf_hand (s : State) (x y : Party) (hw : memWf s.mem = true) : memWf (State.hand s x y).mem = true := by
  unfold State.hand
  try dsimp only
  repeat' (first | with_reducible assumption   )

theorem wf_setCore (s : State) (cid : Nat) (c : Core) (hw : memWf s.mem = true) : memWf (State.setCore s cid c).mem = true := by
  unfold State.setCore
  try dsimp only
  repeat' (first | with_reducible assumption   )

theorem wf_modCore (s : State) (cid : Nat) (g : Core → Core) (hw : memWf s.mem = true) : memWf (State.modCore s cid g).mem = true := by
  unfold State.modCore
  try dsimp only
  repeat' (first | with_reducible assumption | with_reducible apply wf_setCore  )

theorem wf_setCell (s : State) (i : Nat) (c : Cell) (hw : memWf s.mem = true) : memWf (State.setCell s i c).mem = true := by
  unfold State.setCell
  try dsimp only
  repeat' (first | with_reducible assumption   )

theorem wf_modCluster (s : State) (i : Nat) (g : Cluster → Cluster) (hw : memWf s.mem = true) : memWf (State.modCluster s i g).mem = true := by
  unfold State.modCluster
  try dsimp only
  repeat' (first | with_reducible assumption   )

theorem wf_modDie (s : State) (i : Nat) (g : Die → Die) (hw : memWf s.mem = true) : memWf (State.modDie s i g).mem = true := by
  unfold State.modDie
  try dsimp only
  repeat' (first | with_reducible assumption   )

theorem wf_modPart (s : State) (p : Nat) (g : Part → Part) (hw : memWf s.mem = true) : memWf (State.modPart s p g).mem = true := by
  unfold State.modPart
  try dsimp only
  repeat' (first | with_reducible assumption   )

theorem wf_modMgmt (s : State) (g : Module → Module) (hw : memWf s.mem = true) : memWf (State.modMgmt s g).mem = true := by
  unfold State.modMgmt
  try dsimp only
  repeat' (first | with_reducible assumption   )

theorem wf_setCtx (s : State) (k : Ctx) (hw : memWf s.mem = true) : memWf (State.setCtx s k).mem = true := by
  unfold State.setCtx
  try dsimp only
  repeat' (first | with_reducible assumption | with_reducible apply wf_modCore  )

theorem wf_modCtx (s : State) (g : Ctx → Ctx) (hw : memWf s.mem = true) : memWf (State.modCtx s g).mem = true := by
  unfold State.modCtx
  try dsimp only
  repeat' (first | with_reducible assumption | with_reducible apply wf_setCtx  )

theorem wf_modCur (s : State) (g : Core → Core) (hw : memWf s.mem = true) : memWf (State.modCur s g).mem = true := by
  unfold State.modCur
  try dsimp only
  repeat' (first | with_reducible assumption | with_reducible apply wf_modCore  )

theorem wf_setInst (s : State) (k : Nat) (i : Inst) (hw : memWf s.mem = true) : memWf (State.setInst s k i).mem = true := by
  unfold State.setInst
  try dsimp only
  repeat' (first | with_reducible assumption   )

theorem wf_modInst (s : State) (k : Nat) (g : Inst → Inst) (hw : memWf s.mem = true) : memWf (State.modInst s k g).mem = true := by
  unfold State.modInst
  try dsimp only
  repeat' (first | with_reducible assumption | with_reducible apply wf_setInst  | with_reducible apply memWf_memWriteN | with_reducible apply memWf_memClear | with_reducible apply memWf_filter | with_reducible apply wf_ite | split)

theorem wf_addFault (s : State) (r : FaultRec) (hw : memWf s.mem = true) : memWf (State.addFault s r).mem = true := by
  unfold State.addFault
  try dsimp only
  repeat' (first | with_reducible assumption   )

theorem wf_dropAsync (s : State) (fref : Nat) (hw : memWf s.mem = true) : memWf (State.dropAsync s fref).mem = true := by
  unfold State.dropAsync
  try dsimp only
  repeat' (first | with_reducible assumption | with_reducible apply wf_writeW  )

theorem wf_newCmd (s : State) (major minor : Nat) (hw : memWf s.mem = true) : memWf (s.newCmd major minor).1.mem = true :=
  wf_writeW _ _ _ hw
theorem wf_newCmd_eq {s t : State} {major minor n : Nat} (e : s.newCmd major minor = (t, n)) (hw : memWf s.mem = true) : memWf t.mem = true := by
  cases e; exact wf_newCmd _ _ _ hw

theorem wf_dropCmd (s : State) (id : Nat) (hw : memWf s.mem = true) : memWf (State.dropCmd s id).mem = true := by
  unfold State.dropCmd
  try dsimp only
  repeat' (first | with_reducible assumption | with_reducible apply wf_dropAsync  | with_reducible apply memWf_memWriteN | with_reducible apply memWf_memClear | with_reducible apply memWf_filter | with_reducible apply wf_ite | split)

theorem wf_finishCmd (s : State) (id outcome progress : Nat) (ext : List Nat) (hw : memWf s.mem = true) : memWf (State.finishCmd s id outcome progress ext).mem = true := by
  unfold State.finishCmd
  try dsimp only
  repeat' (first | with_reducible assumption | with_reducible apply wf_dropCmd  | with_reducible apply memWf_memWriteN | with_reducible apply memWf_memClear | with_reducible apply memWf_filter | with_reducible apply wf_ite | split)

theorem wf_failCmd (s : State) (id : Nat) (code : BitVec 8) (progress : Nat) (ext : List Nat) (hw : memWf s.mem = true) : memWf (State.failCmd s id code progress ext).mem = true := by
  unfold State.failCmd
  try dsimp only
  repeat' (first | with_reducible assumption | with_reducible apply wf_addFault  | with_reducible apply memWf_memWriteN | with_reducible apply memWf_memClear | with_reducible apply memWf_filter | with_reducible apply wf_ite | split)

theorem wf_faultRequest (s : State) (i : Issuer) (code : BitVec 8) (hw : memWf s.mem = true) : memWf (State.faultRequest s i code).mem = true := by
  unfold State.faultRequest
  try dsimp only
  repeat' (first | with_reducible assumption | with_reducible apply wf_addFault  )

theorem wf_faultFor (s : State) (i : Issuer) (cmd : Nat) (code : BitVec 8) (hw : memWf s.mem = true) : memWf (State.faultFor s i cmd code).mem = true := by
  unfold State.faultFor
  try dsimp only
  repeat' (first | with_reducible assumption | with_reducible apply wf_faultRequest | with_reducible apply wf_failCmd | with_reducible apply memWf_memWriteN | with_reducible apply memWf_memClear | with_reducible apply memWf_filter | with_reducible apply wf_ite )

theorem wf_endFiring (s : State) (hw : memWf s.mem = true) : memWf (State.endFiring s).mem = true := by
  unfold State.endFiring
  try dsimp only
  repeat' (first | with_reducible assumption | with_reducible apply wf_setCtx  )

theorem wf_takeFault (s : State) (code : BitVec 8) (aux : Nat) (hw : memWf s.mem = true) : memWf (State.takeFault s code aux).mem = true := by
  unfold State.takeFault
  try dsimp only
  repeat' (first | with_reducible assumption | with_reducible apply wf_endFiring | with_reducible apply wf_addFault  )

theorem wf_countIssue (s : State) (len : Nat) (hw : memWf s.mem = true) : memWf (State.countIssue s len).mem = true := by
  unfold State.countIssue
  try dsimp only
  repeat' (first | with_reducible assumption | with_reducible apply wf_modCur | with_reducible apply wf_modCtx  )

theorem wf_unquiet (s : State) (p : Nat) (hw : memWf s.mem = true) : memWf (State.unquiet s p).mem = true := by
  unfold State.unquiet
  try dsimp only
  repeat' (first | with_reducible assumption   )

theorem wf_send (s0 : State) (p : Packet) (hw : memWf s0.mem = true) : memWf (State.send s0 p).mem = true := by
  unfold State.send
  try dsimp only
  repeat' (first | with_reducible assumption | with_reducible apply wf_unquiet  )

theorem wf_sendSignal (s : State) (src : Loc) (i : Issuer) (sref val bytes source : Nat) (hw : memWf s.mem = true) : memWf (State.sendSignal s src i sref val bytes source).mem = true := by
  unfold State.sendSignal
  try dsimp only
  repeat' (first | with_reducible assumption | with_reducible apply wf_send  )

theorem wf_complete (s : State) (src : Loc) (i : Issuer) (r : Ret) (cmd progress : Nat) (hw : memWf s.mem = true) : memWf (State.complete s src i r cmd progress).mem = true := by
  unfold State.complete
  try dsimp only
  repeat' (first | with_reducible assumption | with_reducible apply wf_sendSignal | with_reducible apply wf_finishCmd  | with_reducible apply memWf_memWriteN | with_reducible apply memWf_memClear | with_reducible apply memWf_filter | with_reducible apply wf_ite | split)

theorem wf_keepFor (s : State) (cmd : Nat) (q : Older → Bool) (hw : memWf s.mem = true) : memWf (State.keepFor s cmd q).mem = true := by
  unfold State.keepFor
  try dsimp only
  repeat' (first | with_reducible assumption | with_reducible apply wf_bindTo | with_reducible apply memWf_memWriteN | with_reducible apply memWf_memClear | with_reducible apply memWf_filter | with_reducible apply wf_ite )

theorem wf_completeFor (s : State) (q : Older → Bool) (src : Loc) (i : Issuer) (r : Ret) (cmd progress : Nat) (hw : memWf s.mem = true) : memWf (State.completeFor s q src i r cmd progress).mem = true := by
  unfold State.completeFor
  try dsimp only
  repeat' (first | with_reducible assumption | with_reducible apply wf_keepFor | with_reducible apply wf_complete | with_reducible apply wf_bindTo | with_reducible apply memWf_memWriteN | with_reducible apply memWf_memClear | with_reducible apply memWf_filter | with_reducible apply wf_ite )

theorem wf_sendReply (s : State) (src : Loc) (p : Packet) (v : Word) (poison : Bool) (hw : memWf s.mem = true) : memWf (State.sendReply s src p v poison).mem = true := by
  unfold State.sendReply
  try dsimp only
  repeat' (first | with_reducible assumption | with_reducible apply wf_send  )

theorem wf_dropPacket (s : State) (k : Nat) (hw : memWf s.mem = true) : memWf (State.dropPacket s k).mem = true := by
  unfold State.dropPacket
  try dsimp only
  repeat' (first | with_reducible assumption   )

theorem wf_setPacket (s : State) (k : Nat) (p : Packet) (hw : memWf s.mem = true) : memWf (State.setPacket s k p).mem = true := by
  unfold State.setPacket
  try dsimp only
  repeat' (first | with_reducible assumption   )

theorem wf_slotFault (s : State) (cid f k : Nat) (code : Code) (sigs : List Sig) (n v : Nat) (hw : memWf s.mem = true) : memWf (State.slotFault s cid f k code sigs n v).mem = true := by
  unfold State.slotFault
  try dsimp only
  repeat' (first | with_reducible assumption | with_reducible apply wf_addFault  )

theorem wf_enqueue (s : State) (cid f k level : Nat) (image : Bool) (hw : memWf s.mem = true) : memWf (State.enqueue s cid f k level image).mem = true := by
  unfold State.enqueue
  try dsimp only
  repeat' (first | with_reducible assumption | with_reducible apply wf_modCore | with_reducible apply wf_hand  )

theorem wf_reachZero (s : State) (cid f k key : Nat) (image : Bool) (hw : memWf s.mem = true) : memWf (State.reachZero s cid f k key image).mem = true := by
  unfold State.reachZero
  try dsimp only
  repeat' (first | with_reducible assumption | with_reducible apply wf_enqueue | with_reducible apply wf_writeW | with_reducible apply memWf_memWriteN | with_reducible apply memWf_memClear | with_reducible apply memWf_filter | with_reducible apply wf_ite )

theorem wf_signalSlot (s : State) (cid f k key : Nat) (image : Bool) (sigs : List Sig) (hw : memWf s.mem = true) :
    memWf (s.signalSlot cid f k key image sigs).mem = true := by
  unfold State.signalSlot
  extract_lets w W V
  clear_value w W V
  split
  · exact hw
  split
  · exact wf_foldl _ _ (fun t g h => wf_slotFault _ _ _ _ _ _ _ _ h) _ hw
  split
  · exact wf_slotFault _ _ _ _ _ _ _ _ (wf_writeW _ _ _ hw)
  split
  · exact wf_reachZero _ _ _ _ _ _ (wf_writeW _ _ _ hw)
  · exact wf_writeW _ _ _ hw

theorem wf_armSlot (s : State) (cid f k key : Nat) (image : Bool) (w : Word) (sigs : List Sig) (hw : memWf s.mem = true) : memWf (State.armSlot s cid f k key image w sigs).mem = true := by
  unfold State.armSlot
  try dsimp only
  repeat' (first | with_reducible assumption | with_reducible apply wf_signalSlot | with_reducible apply wf_reachZero | with_reducible apply wf_slotFault | with_reducible apply wf_writeW | with_reducible apply memWf_memWriteN | with_reducible apply memWf_memClear | with_reducible apply memWf_filter | with_reducible apply wf_ite )

theorem wf_freshSlot (s : State) (cid f k : Nat) (hw : memWf s.mem = true) : memWf (State.freshSlot s cid f k).mem = true := by
  unfold State.freshSlot
  try dsimp only
  repeat' (first | with_reducible assumption | with_reducible apply wf_unbind  )

theorem wf_freshFrame (s : State) (cid f : Nat) (hw : memWf s.mem = true) : memWf (State.freshFrame s cid f).mem = true := by
  unfold State.freshFrame
  try dsimp only
  repeat' (first | with_reducible assumption | with_reducible apply wf_freshSlot | (apply wf_foldl; intro _ _ _) )

theorem wf_passArming (s : State) (cid f k n : Nat) (p : Packet) (hw : memWf s.mem = true) : memWf (State.passArming s cid f k n p).mem = true := by
  unfold State.passArming
  try dsimp only
  repeat' (first | with_reducible assumption | with_reducible apply wf_freshSlot | with_reducible apply wf_bindTo  )

theorem wf_gatherAt (s : State) (cid f k : Nat) (ks : List Nat) (hw : memWf s.mem = true) : memWf (State.gatherAt s cid f k ks).mem = true := by
  unfold State.gatherAt
  try dsimp only
  repeat' (first | with_reducible assumption | with_reducible apply wf_bindTo  )

theorem wf_copyRange (s : State) (dst src n : Nat) (hw : memWf s.mem = true) : memWf (State.copyRange s dst src n).mem = true := by
  unfold State.copyRange
  try dsimp only
  repeat' (first | with_reducible assumption | with_reducible apply wf_publish | with_reducible apply wf_addPoison | with_reducible apply wf_writeBytes | (apply wf_foldl; intro _ _ _) | with_reducible apply memWf_memWriteN | with_reducible apply memWf_memClear | with_reducible apply memWf_filter | with_reducible apply wf_ite )

theorem wf_settlePace (s : State) (cid : Nat) (hw : memWf s.mem = true) : memWf (State.settlePace s cid).mem = true := by
  unfold State.settlePace
  try dsimp only
  repeat' (first | with_reducible assumption | with_reducible apply wf_modCore | with_reducible apply wf_unbind  | with_reducible apply memWf_memWriteN | with_reducible apply memWf_memClear | with_reducible apply memWf_filter | with_reducible apply wf_ite | split)

theorem wf_writeFrame (s : State) (cid f cb : Nat) (parent : Word) (o : Own) (sigs : List (Nat × Sig)) (hw : memWf s.mem = true) : memWf (State.writeFrame s cid f cb parent o sigs).mem = true := by
  unfold State.writeFrame
  try dsimp only
  repeat' (first | with_reducible assumption | with_reducible apply wf_armSlot | with_reducible apply wf_modCore | with_reducible apply wf_writeW | (apply wf_foldl; intro _ _ _) )

theorem wf_readS {s : State} {r : BitVec 6} {u_ : Word × State} (e : State.readS s r = .ok u_) (hw : memWf s.mem = true) : memWf u_.2.mem = true := by
  unfold State.readS at e
  try dsimp only at e
  repeat' (first | (with_reducible replace e := bind_ok e; obtain ⟨_, _, e⟩ := e) | split at e)
  all_goals repeat' (first | with_reducible assumption | exact wf_error e | refine wf_pureS (by assumption) ?_ | refine wf_okS (by assumption) ?_ | refine wf_pureR (by assumption) ?_ | refine wf_okR (by assumption) ?_ | refine wf_newCmd_eq (by assumption) ?_ | with_reducible apply wf_modCur  )

theorem wf_writeS {s : State} {r : BitVec 6} {v : Word} {u_ : State} (e : State.writeS s r v = .ok u_) (hw : memWf s.mem = true) : memWf u_.mem = true := by
  unfold State.writeS at e
  try dsimp only at e
  repeat' (first | (with_reducible replace e := bind_ok e; obtain ⟨_, _, e⟩ := e) | split at e)
  all_goals repeat' (first | with_reducible assumption | exact wf_error e | refine wf_pureS (by assumption) ?_ | refine wf_okS (by assumption) ?_ | refine wf_pureR (by assumption) ?_ | refine wf_okR (by assumption) ?_ | refine wf_newCmd_eq (by assumption) ?_ | with_reducible apply wf_modCur | with_reducible apply wf_modCtx  )

theorem wf_readAB {s : State} {f : WForm} {u_ : Word × Word × State} (e : State.readAB s f = .ok u_) (hw : memWf s.mem = true) :
    memWf u_.2.2.mem = true := by
  unfold State.readAB at e
  obtain ⟨⟨a, s1⟩, e1, e⟩ := bind_ok e
  obtain ⟨⟨b, s2⟩, e2, e⟩ := bind_ok e
  cases e
  exact wf_readS e2 (wf_readS e1 hw)

theorem wf_writeP (s : State) (n : Nat) (b : Bool) (hw : memWf s.mem = true) : memWf (State.writeP s n b).mem = true := by
  unfold State.writeP
  try dsimp only
  repeat' (first | with_reducible assumption | with_reducible apply wf_modCtx | with_reducible apply memWf_memWriteN | with_reducible apply memWf_memClear | with_reducible apply memWf_filter | with_reducible apply wf_ite )

theorem wf_writeK (s : State) (n : Nat) (v : BitVec 32) (hw : memWf s.mem = true) : memWf (State.writeK s n v).mem = true := by
  unfold State.writeK
  try dsimp only
  repeat' (first | with_reducible assumption | with_reducible apply wf_modCtx | with_reducible apply memWf_memWriteN | with_reducible apply memWf_memClear | with_reducible apply memWf_filter | with_reducible apply wf_ite )

theorem wf_writeY (s : State) (n : Nat) (v : Spool) (hw : memWf s.mem = true) : memWf (State.writeY s n v).mem = true := by
  unfold State.writeY
  try dsimp only
  repeat' (first | with_reducible assumption | with_reducible apply wf_modCtx  )

theorem wf_writeV (s : State) (r : BitVec 6) (i : Nat) (v : Lane) (hw : memWf s.mem = true) : memWf (State.writeV s r i v).mem = true := by
  unfold State.writeV
  try dsimp only
  repeat' (first | with_reducible assumption | with_reducible apply wf_modCtx  )

theorem wf_writeWsp (s : State) (n i : Nat) (v : Spool) (hw : memWf s.mem = true) : memWf (State.writeWsp s n i v).mem = true := by
  unfold State.writeWsp
  try dsimp only
  repeat' (first | with_reducible assumption | with_reducible apply wf_modCtx  )

theorem wf_granted (s : State) (die out input : Nat) (hw : memWf s.mem = true) : memWf (State.granted s die out input).mem = true := by
  unfold State.granted
  try dsimp only
  repeat' (first | with_reducible assumption | with_reducible apply wf_modDie  )

theorem wf_takeTurn {s t : State} {die o i : Nat} (e : s.takeTurn die o i = some t) (hw : memWf s.mem = true) : memWf t.mem = true := by
  unfold State.takeTurn at e
  split at e
  · cases e; exact wf_granted _ _ _ _ hw
  · cases e

theorem wf_agentAccess {s t : State} {a i : Nat} (e : s.agentAccess a i = some t) (hw : memWf s.mem = true) : memWf t.mem = true := by
  unfold State.agentAccess at e
  split at e
  · exact wf_takeTurn e hw
  · cases e

theorem wf_agentRead {s t : State} {a i : Nat} (e : s.agentRead a i = some t) (hw : memWf s.mem = true) : memWf t.mem = true := by
  obtain ⟨u, h, e⟩ := Option.bind_eq_some_iff.1 e
  exact wf_takeTurn e (wf_agentAccess h hw)

theorem wf_dieAgentTurn {s t : State} {a : Nat} (e : s.dieAgentTurn a = some t) (hw : memWf s.mem = true) : memWf t.mem = true := wf_agentAccess e hw

theorem wf_imageTurn {s t : State} {cid i : Nat} (e : s.imageTurn cid i = some t) (hw : memWf s.mem = true) : memWf t.mem = true := wf_agentAccess e hw

theorem wf_imageRead {s t : State} {cid i : Nat} (e : s.imageRead cid i = some t) (hw : memWf s.mem = true) : memWf t.mem = true := wf_agentRead e hw

theorem wf_frameTurn {s t : State} {cid f : Nat} (e : s.frameTurn cid f = some t) (hw : memWf s.mem = true) : memWf t.mem = true := by
  unfold State.frameTurn at e
  split at e
  · cases e; exact hw
  · exact wf_imageTurn e hw

theorem wf_unmark (s : State) (cid f k : Nat) (hw : memWf s.mem = true) : memWf (State.unmark s cid f k).mem = true := by
  unfold State.unmark
  try dsimp only
  repeat' (first | with_reducible assumption | with_reducible apply wf_reachZero | with_reducible apply wf_modCore | with_reducible apply memWf_memWriteN | with_reducible apply memWf_memClear | with_reducible apply memWf_filter | with_reducible apply wf_ite )

theorem wf_startFiring (s : State) (cid x frame : Nat) (e : Ready) (hw : memWf s.mem = true) : memWf (State.startFiring s cid x frame e).mem = true := by
  unfold State.startFiring
  try dsimp only
  repeat' (first | with_reducible assumption | with_reducible apply wf_modPart | with_reducible apply wf_modCore  )

theorem wf_forget (s : State) (cid : Nat) (gone : List Ready) (hw : memWf s.mem = true) : memWf (State.forget s cid gone).mem = true := by
  unfold State.forget
  try dsimp only
  repeat' (first | with_reducible assumption | with_reducible apply wf_modCore | with_reducible apply memWf_memWriteN | with_reducible apply memWf_memClear | with_reducible apply memWf_filter | with_reducible apply wf_ite )

theorem wf_discardFreed (s : State) (cid : Nat) (hw : memWf s.mem = true) : memWf (State.discardFreed s cid).mem = true := by
  unfold State.discardFreed
  try dsimp only
  repeat' (first | with_reducible assumption | with_reducible apply wf_forget | with_reducible apply memWf_memWriteN | with_reducible apply memWf_memClear | with_reducible apply memWf_filter | with_reducible apply wf_ite )

theorem wf_dispatch (s0 : State) (cid x : Nat) (hw : memWf s0.mem = true) : memWf (State.dispatch s0 cid x).mem = true := by
  unfold State.dispatch
  try dsimp only
  repeat' (first | with_reducible assumption | with_reducible apply wf_discardFreed | with_reducible apply wf_startFiring | with_reducible apply wf_unmark | with_reducible apply wf_settlePace | with_reducible apply wf_modCore | with_reducible apply wf_hand  | with_reducible apply memWf_memWriteN | with_reducible apply memWf_memClear | with_reducible apply memWf_filter | with_reducible apply wf_ite | split)

theorem wf_writeReply (s : State) (cid : Nat) (fref ow : Nat) (v : Word) (poison : Bool) (hw : memWf s.mem = true) : memWf (State.writeReply s cid fref ow v poison).mem = true := by
  unfold State.writeReply
  try dsimp only
  repeat' (first | with_reducible assumption | with_reducible apply wf_addPoison | with_reducible apply wf_writeW | with_reducible apply memWf_memWriteN | with_reducible apply memWf_memClear | with_reducible apply memWf_filter | with_reducible apply wf_ite )

theorem wf_endCmd (s : State) (k : Nat) (p : Packet) (hw : memWf s.mem = true) : memWf (State.endCmd s k p).mem = true := by
  unfold State.endCmd
  try dsimp only
  repeat' (first | with_reducible assumption | with_reducible apply wf_keepFor | with_reducible apply wf_finishCmd  )

theorem wf_takePkt (s : State) (k : Nat) (hw : memWf s.mem = true) : memWf (State.takePkt s k).mem = true := by
  unfold State.takePkt
  try dsimp only
  repeat' (first | with_reducible assumption | with_reducible apply wf_endCmd | with_reducible apply wf_writeReply | with_reducible apply wf_dropPacket  | with_reducible apply memWf_memWriteN | with_reducible apply memWf_memClear | with_reducible apply memWf_filter | with_reducible apply wf_ite | split)

theorem wf_takeAll (s : State) (ks : List Nat) (hw : memWf s.mem = true) : memWf (State.takeAll s ks).mem = true := by
  unfold State.takeAll
  try dsimp only
  repeat' (first | with_reducible assumption | with_reducible apply wf_takePkt | (apply wf_foldl; intro _ _ _) )

theorem wf_signalArrival (s : State) (cid f k : Nat) (ks : List Nat) (hw : memWf s.mem = true) : memWf (State.signalArrival s cid f k ks).mem = true := by
  unfold State.signalArrival
  try dsimp only
  repeat' (first | with_reducible assumption | with_reducible apply wf_takeAll | with_reducible apply wf_gatherAt | with_reducible apply wf_signalSlot  | with_reducible apply memWf_memWriteN | with_reducible apply memWf_memClear | with_reducible apply memWf_filter | with_reducible apply wf_ite | split)

theorem wf_allocAt (s : State) (cid f : Nat) (p : Packet) (cb parent : Nat) (sigs : List (Nat × Sig)) (hw : memWf s.mem = true) : memWf (State.allocAt s cid f p cb parent sigs).mem = true := by
  unfold State.allocAt
  try dsimp only
  repeat' (first | with_reducible assumption | with_reducible apply wf_writeFrame | with_reducible apply wf_sendReply  )

theorem wf_gatherFrame (s : State) (cid f : Nat) (ks : List Nat) (hw : memWf s.mem = true) : memWf (State.gatherFrame s cid f ks).mem = true := by
  unfold State.gatherFrame
  try dsimp only
  repeat' (first | with_reducible assumption | with_reducible apply wf_gatherAt | with_reducible apply wf_freshFrame | (apply wf_foldl; intro _ _ _) )

theorem wf_allocationRequest (s : State) (k : Nat) (same : List Nat) (hw : memWf s.mem = true) : memWf (s.allocationRequest k same).mem = true := by
  unfold State.allocationRequest
  dsimp only
  repeat' split
  all_goals first
    | exact hw
    | exact wf_failCmd _ _ _ _ _ (wf_dropPacket _ _ hw)
    | next h => exact wf_allocAt _ _ _ _ _ _ _ (wf_takeAll _ _ (wf_dropPacket _ _ (wf_gatherFrame _ _ _ _ (wf_frameTurn h hw))))

theorem wf_armAt (s : State) (cid f : Nat) (image : Bool) (p : Packet) (sref : Nat) (w : Word) (sigs : List Sig) (hw : memWf s.mem = true) : memWf (State.armAt s cid f image p sref w sigs).mem = true := by
  unfold State.armAt
  try dsimp only
  repeat' (first | with_reducible assumption | with_reducible apply wf_armSlot | with_reducible apply wf_signalSlot | with_reducible apply wf_faultRequest | with_reducible apply memWf_memWriteN | with_reducible apply memWf_memClear | with_reducible apply memWf_filter | with_reducible apply wf_ite )

theorem wf_armingRequest (s : State) (k : Nat) (same : List Nat) (hw : memWf s.mem = true) : memWf (State.armingRequest s k same).mem = true := by
  unfold State.armingRequest
  try dsimp only
  repeat' (first | with_reducible assumption | with_reducible apply wf_armAt | with_reducible apply wf_takeAll | with_reducible apply wf_gatherAt | with_reducible apply wf_passArming | with_reducible apply wf_dropPacket  | with_reducible apply memWf_memWriteN | with_reducible apply memWf_memClear | with_reducible apply memWf_filter | with_reducible apply wf_ite | split)

theorem wf_clearFrame (s : State) (key : Nat) (hw : memWf s.mem = true) : memWf (State.clearFrame s key).mem = true := by
  unfold State.clearFrame
  try dsimp only
  repeat' (first | with_reducible assumption | with_reducible apply wf_writeW | (apply wf_foldl; intro _ _ _) )

theorem wf_freeAt (s : State) (cid f : Nat) (p : Packet) (hw : memWf s.mem = true) : memWf (State.freeAt s cid f p).mem = true := by
  unfold State.freeAt
  try dsimp only
  repeat' (first | with_reducible assumption | with_reducible apply wf_clearFrame | with_reducible apply wf_discardFreed | with_reducible apply wf_faultRequest | with_reducible apply wf_modCore | with_reducible apply memWf_memWriteN | with_reducible apply memWf_memClear | with_reducible apply memWf_filter | with_reducible apply wf_ite )

theorem wf_freeRequest (s : State) (k : Nat) (hw : memWf s.mem = true) : memWf (State.freeRequest s k).mem = true := by
  unfold State.freeRequest
  try dsimp only
  repeat' (first | with_reducible assumption | with_reducible apply wf_freeAt | with_reducible apply wf_dropPacket  | with_reducible apply memWf_memWriteN | with_reducible apply memWf_memClear | with_reducible apply memWf_filter | with_reducible apply wf_ite | split)

theorem wf_stfAt (s : State) (w : Writer) (cid f u : Nat) (v : Word) (hw : memWf s.mem = true) : memWf (State.stfAt s w cid f u v).mem = true := by
  unfold State.stfAt
  try dsimp only
  repeat' (first | with_reducible assumption | with_reducible apply wf_storeN  )

theorem wf_stfRequest (s : State) (k : Nat) (hw : memWf s.mem = true) : memWf (State.stfRequest s k).mem = true := by
  unfold State.stfRequest
  try dsimp only
  repeat' (first | with_reducible assumption | with_reducible apply wf_stfAt | with_reducible apply wf_dropPacket  | with_reducible apply memWf_memWriteN | with_reducible apply memWf_memClear | with_reducible apply memWf_filter | with_reducible apply wf_ite | split)

theorem wf_ldfAt (s : State) (k cid f u : Nat) (src : Loc) (p : Packet) (hw : memWf s.mem = true) : memWf (State.ldfAt s k cid f u src p).mem = true := by
  unfold State.ldfAt
  try dsimp only
  repeat' (first | with_reducible assumption | with_reducible apply wf_sendReply | with_reducible apply wf_failCmd | with_reducible apply wf_saw | with_reducible apply memWf_memWriteN | with_reducible apply memWf_memClear | with_reducible apply memWf_filter | with_reducible apply wf_ite )

theorem wf_ldfRequest (s : State) (k : Nat) (hw : memWf s.mem = true) : memWf (State.ldfRequest s k).mem = true := by
  unfold State.ldfRequest
  try dsimp only
  repeat' (first | with_reducible assumption | with_reducible apply wf_ldfAt | with_reducible apply wf_dropPacket  | with_reducible apply memWf_memWriteN | with_reducible apply memWf_memClear | with_reducible apply memWf_filter | with_reducible apply wf_ite | split)

theorem wf_completeAt (s : State) (k cid : Nat) (i : Issuer) (r : Ret) (same : List Nat) (hw : memWf s.mem = true) : memWf (State.completeAt s k cid i r same).mem = true := by
  unfold State.completeAt
  try dsimp only
  repeat' (first | with_reducible assumption | with_reducible apply wf_takeAll | with_reducible apply wf_gatherAt | with_reducible apply wf_signalSlot | with_reducible apply wf_sendSignal | with_reducible apply wf_hand | with_reducible apply wf_bindTo  | with_reducible apply memWf_memWriteN | with_reducible apply memWf_memClear | with_reducible apply memWf_filter | with_reducible apply wf_ite | split)

theorem wf_replyArrival (s : State) (k : Nat) (same : List Nat) (hw : memWf s.mem = true) : memWf (State.replyArrival s k same).mem = true := by
  unfold State.replyArrival
  try dsimp only
  repeat' (first | with_reducible assumption | with_reducible apply wf_completeAt | with_reducible apply wf_writeReply | with_reducible apply wf_dropPacket | with_reducible apply wf_keepFor | with_reducible apply wf_finishCmd  | with_reducible apply memWf_memWriteN | with_reducible apply memWf_memClear | with_reducible apply memWf_filter | with_reducible apply wf_ite | split)

theorem wf_applyFrameRequest (s : State) (k cid f : Nat) (image : Bool) (src : Loc) (p : Packet) (hw : memWf s.mem = true) : memWf (State.applyFrameRequest s k cid f image src p).mem = true := by
  unfold State.applyFrameRequest
  try dsimp only
  repeat' (first | with_reducible assumption | with_reducible apply wf_ldfAt | with_reducible apply wf_stfAt | with_reducible apply wf_freeAt | with_reducible apply wf_armAt | with_reducible apply wf_signalSlot  | with_reducible apply memWf_memWriteN | with_reducible apply memWf_memClear | with_reducible apply memWf_filter | with_reducible apply wf_ite | split)

theorem wf_gatherRequest (s : State) (k cid f : Nat) (p : Packet) (hw : memWf s.mem = true) : memWf (State.gatherRequest s k cid f p).mem = true := by
  unfold State.gatherRequest
  try dsimp only
  repeat' (first | with_reducible assumption | with_reducible apply wf_gatherAt | with_reducible apply wf_passArming  | with_reducible apply memWf_memWriteN | with_reducible apply memWf_memClear | with_reducible apply memWf_filter | with_reducible apply wf_ite | split)

theorem wf_fillStart (s0 : State) (cid : Nat) (hw : memWf s0.mem = true) : memWf (State.fillStart s0 cid).mem = true := by
  unfold State.fillStart
  try dsimp only
  repeat' (first | with_reducible assumption | with_reducible apply wf_discardFreed | with_reducible apply wf_modCore  | with_reducible apply memWf_memWriteN | with_reducible apply memWf_memClear | with_reducible apply memWf_filter | with_reducible apply wf_ite | split)

theorem wf_writeBackStart (s : State) (cid j : Nat) (hw : memWf s.mem = true) : memWf (State.writeBackStart s cid j).mem = true := by
  unfold State.writeBackStart
  try dsimp only
  repeat' (first | with_reducible assumption | with_reducible apply wf_modCore | with_reducible apply memWf_memWriteN | with_reducible apply memWf_memClear | with_reducible apply memWf_filter | with_reducible apply wf_ite )

theorem wf_falloc {f : WForm} {s0 : State} {u_ : State} (e : State.falloc f s0 = .ok u_) (hw : memWf s0.mem = true) : memWf u_.mem = true := by
  unfold State.falloc at e
  try dsimp only at e
  repeat' (first | (with_reducible replace e := bind_ok e; obtain ⟨_, _, e⟩ := e) | split at e)
  all_goals repeat' (first | with_reducible assumption | exact wf_error e | refine wf_readS (by assumption) ?_ | refine wf_pureS (by assumption) ?_ | refine wf_okS (by assumption) ?_ | refine wf_pureR (by assumption) ?_ | refine wf_okR (by assumption) ?_ | refine wf_newCmd_eq (by assumption) ?_ | refine wf_readS (by assumption) ?_ | with_reducible apply wf_send | with_reducible apply wf_newCmd )

theorem wf_ffree {f : WForm} {s0 : State} {u_ : State} (e : State.ffree f s0 = .ok u_) (hw : memWf s0.mem = true) : memWf u_.mem = true := by
  unfold State.ffree at e
  try dsimp only at e
  repeat' (first | (with_reducible replace e := bind_ok e; obtain ⟨_, _, e⟩ := e) | split at e)
  all_goals repeat' (first | with_reducible assumption | exact wf_error e | refine wf_readS (by assumption) ?_ | refine wf_pureS (by assumption) ?_ )

theorem wf_sarm {f : WForm} {s0 : State} {u_ : State} (e : State.sarm f s0 = .ok u_) (hw : memWf s0.mem = true) : memWf u_.mem = true := by
  unfold State.sarm at e
  try dsimp only at e
  repeat' (first | (with_reducible replace e := bind_ok e; obtain ⟨_, _, e⟩ := e) | split at e)
  all_goals repeat' (first | with_reducible assumption | exact wf_error e | refine wf_readAB (by assumption) ?_ | refine wf_readS (by assumption) ?_ | refine wf_pureS (by assumption) ?_ )

theorem wf_signalTo {s : State} {a : Word} {sem scope val bytes : Nat} {fire : Bool} {u_ : State} (e : State.signalTo s a sem scope val bytes fire = .ok u_) (hw : memWf s.mem = true) : memWf u_.mem = true := by
  unfold State.signalTo at e
  try dsimp only at e
  repeat' (first | (with_reducible replace e := bind_ok e; obtain ⟨_, _, e⟩ := e) | split at e)
  all_goals repeat' (first | with_reducible assumption | exact wf_error e | refine wf_pureS (by assumption) ?_ | refine wf_okS (by assumption) ?_ | refine wf_pureR (by assumption) ?_ | refine wf_okR (by assumption) ?_ | refine wf_newCmd_eq (by assumption) ?_ | with_reducible apply wf_send  )

theorem wf_sig {f : WForm} {imm : Nat} {s0 : State} {u_ : State} (e : State.sig f imm s0 = .ok u_) (hw : memWf s0.mem = true) : memWf u_.mem = true := by
  unfold State.sig at e
  try dsimp only at e
  repeat' (first | (with_reducible replace e := bind_ok e; obtain ⟨_, _, e⟩ := e) | split at e)
  all_goals repeat' (first | with_reducible assumption | exact wf_error e | refine wf_signalTo (by assumption) ?_ | refine wf_readS (by assumption) ?_ | refine wf_pureS (by assumption) ?_ )

theorem wf_sigv {f : WForm} {s0 : State} {u_ : State} (e : State.sigv f s0 = .ok u_) (hw : memWf s0.mem = true) : memWf u_.mem = true := by
  unfold State.sigv at e
  try dsimp only at e
  repeat' (first | (with_reducible replace e := bind_ok e; obtain ⟨_, _, e⟩ := e) | split at e)
  all_goals repeat' (first | with_reducible assumption | exact wf_error e | refine wf_signalTo (by assumption) ?_ | refine wf_readAB (by assumption) ?_ | refine wf_readS (by assumption) ?_ | refine wf_pureS (by assumption) ?_ )

theorem wf_sigb {f : WForm} {s0 : State} {u_ : State} (e : State.sigb f s0 = .ok u_) (hw : memWf s0.mem = true) : memWf u_.mem = true := by
  unfold State.sigb at e
  try dsimp only at e
  repeat' (first | (with_reducible replace e := bind_ok e; obtain ⟨_, _, e⟩ := e) | split at e)
  all_goals repeat' (first | with_reducible assumption | exact wf_error e | refine wf_readAB (by assumption) ?_ | refine wf_readS (by assumption) ?_ | refine wf_pureS (by assumption) ?_ )

theorem wf_fireSlot {f : WForm} {s0 : State} {u_ : State} (e : State.fireSlot f s0 = .ok u_) (hw : memWf s0.mem = true) : memWf u_.mem = true := by
  unfold State.fireSlot at e
  try dsimp only at e
  repeat' (first | (with_reducible replace e := bind_ok e; obtain ⟨_, _, e⟩ := e) | split at e)
  all_goals repeat' (first | with_reducible assumption | exact wf_error e | refine wf_signalTo (by assumption) ?_ | refine wf_readS (by assumption) ?_ | refine wf_pureS (by assumption) ?_ )

theorem wf_sget {f : WForm} {s0 : State} {u_ : State} (e : State.sget f s0 = .ok u_) (hw : memWf s0.mem = true) : memWf u_.mem = true := by
  unfold State.sget at e
  try dsimp only at e
  repeat' (first | (with_reducible replace e := bind_ok e; obtain ⟨_, _, e⟩ := e) | split at e)
  all_goals repeat' (first | with_reducible assumption | exact wf_error e | refine wf_writeS (by assumption) ?_ | refine wf_readS (by assumption) ?_ )

theorem wf_ldf {f : WForm} {s0 : State} {u_ : State} (e : State.ldf f s0 = .ok u_) (hw : memWf s0.mem = true) : memWf u_.mem = true := by
  unfold State.ldf at e
  try dsimp only at e
  repeat' (first | (with_reducible replace e := bind_ok e; obtain ⟨_, _, e⟩ := e) | split at e)
  all_goals repeat' (first | with_reducible assumption | exact wf_error e | refine wf_readS (by assumption) ?_ | refine wf_pureS (by assumption) ?_ | refine wf_okS (by assumption) ?_ | refine wf_pureR (by assumption) ?_ | refine wf_okR (by assumption) ?_ | refine wf_newCmd_eq (by assumption) ?_ | refine wf_readS (by assumption) ?_ | with_reducible apply wf_send | with_reducible apply wf_newCmd )

theorem wf_stf {f : WForm} {s0 : State} {u_ : State} (e : State.stf f s0 = .ok u_) (hw : memWf s0.mem = true) : memWf u_.mem = true := by
  unfold State.stf at e
  try dsimp only at e
  repeat' (first | (with_reducible replace e := bind_ok e; obtain ⟨_, _, e⟩ := e) | split at e)
  all_goals repeat' (first | with_reducible assumption | exact wf_error e | refine wf_readAB (by assumption) ?_ | refine wf_readS (by assumption) ?_ | refine wf_pureS (by assumption) ?_ | refine wf_okS (by assumption) ?_ | refine wf_pureR (by assumption) ?_ | refine wf_okR (by assumption) ?_ | refine wf_newCmd_eq (by assumption) ?_ | with_reducible apply wf_stfAt )

theorem wf_ring {op : Nat} {f : WForm} {s0 : State} {u_ : State} (e : State.ring op f s0 = .ok u_) (hw : memWf s0.mem = true) : memWf u_.mem = true := by
  unfold State.ring at e
  try dsimp only at e
  repeat' (first | (with_reducible replace e := bind_ok e; obtain ⟨_, _, e⟩ := e) | split at e)
  all_goals repeat' (first | with_reducible assumption | exact wf_error e | refine wf_readS (by assumption) ?_ | refine wf_pureS (by assumption) ?_ | refine wf_okS (by assumption) ?_ | refine wf_pureR (by assumption) ?_ | refine wf_okR (by assumption) ?_ | refine wf_newCmd_eq (by assumption) ?_ | refine wf_readS (by assumption) ?_ | with_reducible apply wf_send | with_reducible apply wf_newCmd )

theorem wf_ringOp (s : State) (key op n sz : Nat) (base : Word) (hw : memWf s.mem = true) : memWf (s.ringOp key op n sz base).1.mem = true := by
  unfold State.ringOp
  dsimp only
  repeat' split
  all_goals repeat' (first | with_reducible assumption | with_reducible apply wf_writeW)

theorem wf_ringPass (s : State) (k op : Nat) (ok : Bool) (p : Packet) (hw : memWf s.mem = true) : memWf (State.ringPass s k op ok p).mem = true := by
  unfold State.ringPass
  try dsimp only
  repeat' (first | with_reducible assumption | refine wf_ring (by assumption) ?_ | with_reducible apply wf_unbind | with_reducible apply wf_bindTo  | with_reducible apply memWf_memWriteN | with_reducible apply memWf_memClear | with_reducible apply memWf_filter | with_reducible apply wf_ite | split)

theorem wf_ringRequest (s : State) (k : Nat) (hw : memWf s.mem = true) : memWf (State.ringRequest s k).mem = true := by
  unfold State.ringRequest
  try dsimp only
  repeat' (first | with_reducible assumption | with_reducible apply wf_ringPass | with_reducible apply wf_ringOp | refine wf_ring (by assumption) ?_ | with_reducible apply wf_dropPacket | with_reducible apply wf_sendReply | with_reducible apply wf_publish  | with_reducible apply memWf_memWriteN | with_reducible apply memWf_memClear | with_reducible apply memWf_filter | with_reducible apply wf_ite | split)

theorem wf_loaded (s : State) (x : Word) (z : Nat) (hw : memWf s.mem = true) : memWf (State.loaded s x z).mem = true := by
  unfold State.loaded
  try dsimp only
  repeat' (first | with_reducible assumption | with_reducible apply wf_saw  )

theorem wf_storeCore {s : State} {x : Word} {z : Nat} {v : Word} {u_ : State} (e : State.storeCore s x z v = .ok u_) (hw : memWf s.mem = true) : memWf u_.mem = true := by
  unfold State.storeCore at e
  try dsimp only at e
  repeat' (first | (with_reducible replace e := bind_ok e; obtain ⟨_, _, e⟩ := e) | split at e)
  all_goals repeat' (first | with_reducible assumption | exact wf_error e | refine wf_pureS (by assumption) ?_ | refine wf_okS (by assumption) ?_ | refine wf_pureR (by assumption) ?_ | refine wf_okR (by assumption) ?_ | refine wf_newCmd_eq (by assumption) ?_ | with_reducible apply wf_storeN  )

theorem wf_ld {f : WForm} {imm : Word} {s0 : State} {u_ : State} (e : State.ld f imm s0 = .ok u_) (hw : memWf s0.mem = true) : memWf u_.mem = true := by
  unfold State.ld at e
  try dsimp only at e
  repeat' (first | (with_reducible replace e := bind_ok e; obtain ⟨_, _, e⟩ := e) | split at e)
  all_goals repeat' (first | with_reducible assumption | exact wf_error e | refine wf_writeS (by assumption) ?_ | refine wf_readS (by assumption) ?_ )

theorem wf_st {f : WForm} {imm : Word} {s0 : State} {u_ : State} (e : State.st f imm s0 = .ok u_) (hw : memWf s0.mem = true) : memWf u_.mem = true := by
  unfold State.st at e
  try dsimp only at e
  repeat' (first | (with_reducible replace e := bind_ok e; obtain ⟨_, _, e⟩ := e) | split at e)
  all_goals repeat' (first | with_reducible assumption | exact wf_error e | refine wf_storeCore (by assumption) ?_ | refine wf_readS (by assumption) ?_ | refine wf_pureS (by assumption) ?_ | refine wf_okS (by assumption) ?_ | refine wf_pureR (by assumption) ?_ | refine wf_okR (by assumption) ?_ | refine wf_newCmd_eq (by assumption) ?_ | refine wf_storeCore (by assumption) ?_ | refine wf_readS (by assumption) ?_ | with_reducible apply wf_modCur | with_reducible apply wf_storeN  )

theorem wf_ldrm {f : WForm} {s0 : State} {u_ : State} (e : State.ldrm f s0 = .ok u_) (hw : memWf s0.mem = true) : memWf u_.mem = true := by
  unfold State.ldrm at e
  try dsimp only at e
  repeat' (first | (with_reducible replace e := bind_ok e; obtain ⟨_, _, e⟩ := e) | split at e)
  all_goals repeat' (first | with_reducible assumption | exact wf_error e | refine wf_readS (by assumption) ?_ | refine wf_pureS (by assumption) ?_ | refine wf_okS (by assumption) ?_ | refine wf_pureR (by assumption) ?_ | refine wf_okR (by assumption) ?_ | refine wf_newCmd_eq (by assumption) ?_ | refine wf_readS (by assumption) ?_ | with_reducible apply wf_send | with_reducible apply wf_newCmd )

theorem wf_strm {f : WForm} {s0 : State} {u_ : State} (e : State.strm f s0 = .ok u_) (hw : memWf s0.mem = true) : memWf u_.mem = true := by
  unfold State.strm at e
  try dsimp only at e
  repeat' (first | (with_reducible replace e := bind_ok e; obtain ⟨_, _, e⟩ := e) | split at e)
  all_goals repeat' (first | with_reducible assumption | exact wf_error e | refine wf_readAB (by assumption) ?_ | refine wf_readS (by assumption) ?_ | refine wf_pureS (by assumption) ?_ | refine wf_okS (by assumption) ?_ | refine wf_pureR (by assumption) ?_ | refine wf_okR (by assumption) ?_ | refine wf_newCmd_eq (by assumption) ?_ | refine wf_readAB (by assumption) ?_ | refine wf_readS (by assumption) ?_ | with_reducible apply wf_send | with_reducible apply wf_newCmd )

theorem wf_atomicIssue {op : Nat} {f : WForm} {a d c : Word} {b : BitVec 256} {s : State} {u_ : State} (e : State.atomicIssue op f a d c b s = .ok u_) (hw : memWf s.mem = true) : memWf u_.mem = true := by
  unfold State.atomicIssue at e
  try dsimp only at e
  repeat' (first | (with_reducible replace e := bind_ok e; obtain ⟨_, _, e⟩ := e) | split at e)
  all_goals repeat' (first | with_reducible assumption | exact wf_error e | refine wf_pureS (by assumption) ?_ | refine wf_okS (by assumption) ?_ | refine wf_pureR (by assumption) ?_ | refine wf_okR (by assumption) ?_ | refine wf_newCmd_eq (by assumption) ?_ | with_reducible apply wf_send | with_reducible apply wf_newCmd  )

theorem wf_atomic {op : Nat} {f : WForm} {s0 : State} {u_ : State} (e : State.atomic op f s0 = .ok u_) (hw : memWf s0.mem = true) : memWf u_.mem = true := by
  unfold State.atomic at e
  try dsimp only at e
  repeat' (first | (with_reducible replace e := bind_ok e; obtain ⟨_, _, e⟩ := e) | split at e)
  all_goals repeat' (first | with_reducible assumption | exact wf_error e | refine wf_atomicIssue (by assumption) ?_ | refine wf_readAB (by assumption) ?_ | refine wf_readS (by assumption) ?_ | refine wf_pureS (by assumption) ?_ | refine wf_okS (by assumption) ?_ | refine wf_pureR (by assumption) ?_ | refine wf_okR (by assumption) ?_ | refine wf_newCmd_eq (by assumption) ?_ | refine wf_atomicIssue (by assumption) ?_ | refine wf_readAB (by assumption) ?_ | refine wf_readS (by assumption) ?_ | with_reducible apply wf_send )

theorem wf_aspadd {f : WForm} {s0 : State} {u_ : State} (e : State.aspadd f s0 = .ok u_) (hw : memWf s0.mem = true) : memWf u_.mem = true := by
  unfold State.aspadd at e
  try dsimp only at e
  repeat' (first | (with_reducible replace e := bind_ok e; obtain ⟨_, _, e⟩ := e) | split at e)
  all_goals repeat' (first | with_reducible assumption | exact wf_error e | refine wf_atomic (by assumption) ?_ | refine wf_atomicIssue (by assumption) ?_ | refine wf_readAB (by assumption) ?_ | refine wf_readS (by assumption) ?_ | refine wf_pureS (by assumption) ?_ | refine wf_okS (by assumption) ?_ | refine wf_pureR (by assumption) ?_ | refine wf_okR (by assumption) ?_ | refine wf_newCmd_eq (by assumption) ?_ | refine wf_atomic (by assumption) ?_ | refine wf_atomicIssue (by assumption) ?_ | refine wf_readAB (by assumption) ?_ | refine wf_readS (by assumption) ?_ | with_reducible apply wf_send )

theorem wf_ldrmAt (s : State) (k : Nat) (p : Packet) (z : Nat) (u : Bool) (hw : memWf s.mem = true) : memWf (State.ldrmAt s k p z u).mem = true := by
  unfold State.ldrmAt
  try dsimp only
  repeat' (first | with_reducible assumption | with_reducible apply wf_sendReply | with_reducible apply wf_saw  )

theorem wf_leads (s : State) (k : Nat) (p : Packet) (strm : Bool) (hw : memWf s.mem = true) : memWf (State.leads s k p strm).mem = true := by
  unfold State.leads
  try dsimp only
  repeat' (first | with_reducible assumption | refine wf_strm (by assumption) ?_ | with_reducible apply wf_bindTo | with_reducible apply memWf_memWriteN | with_reducible apply memWf_memClear | with_reducible apply memWf_filter | with_reducible apply wf_ite )

theorem wf_strmAt (s : State) (k : Nat) (p : Packet) (z : Nat) (v : Word) (hw : memWf s.mem = true) : memWf (State.strmAt s k p z v).mem = true := by
  unfold State.strmAt
  try dsimp only
  repeat' (first | with_reducible assumption | with_reducible apply wf_leads | with_reducible apply wf_completeFor | with_reducible apply wf_storeN  )

theorem wf_ldrmRequest (s : State) (k : Nat) (hw : memWf s.mem = true) : memWf (State.ldrmRequest s k).mem = true := by
  unfold State.ldrmRequest
  try dsimp only
  repeat' (first | with_reducible assumption | with_reducible apply wf_ldrmAt | refine wf_ldrm (by assumption) ?_ | with_reducible apply wf_dropPacket  | with_reducible apply memWf_memWriteN | with_reducible apply memWf_memClear | with_reducible apply memWf_filter | with_reducible apply wf_ite | split)

theorem wf_strmRequest (s : State) (k : Nat) (hw : memWf s.mem = true) : memWf (State.strmRequest s k).mem = true := by
  unfold State.strmRequest
  try dsimp only
  repeat' (first | with_reducible assumption | with_reducible apply wf_strmAt | refine wf_strm (by assumption) ?_ | with_reducible apply wf_dropPacket  | with_reducible apply memWf_memWriteN | with_reducible apply memWf_memClear | with_reducible apply memWf_filter | with_reducible apply wf_ite | split)

theorem wf_atomicOrder (s : State) (k : Nat) (p : Packet) (t : State) (ht : memWf t.mem = true) : memWf (s.atomicOrder k p t).mem = true := by
  unfold State.atomicOrder
  dsimp only
  exact wf_bindTo _ _ _ (wf_leads _ _ _ _ ht)

theorem wf_atomicOn (s : State) (k : Nat) (p : Packet) (op z : Nat) (b : BitVec 256) (d : Word) (hw : memWf s.mem = true) :
    memWf (s.atomicOn k p op z b d).1.mem = true :=
  wf_atomicOrder _ _ _ _ (wf_storeN _ _ _ _ _ (wf_publish _ _ _ hw))

theorem wf_atomicReply (s : State) (k : Nat) (src : Loc) (p : Packet) (old : Word) (hw : memWf s.mem = true) : memWf (State.atomicReply s k src p old).mem = true := by
  unfold State.atomicReply
  try dsimp only
  repeat' (first | with_reducible assumption | with_reducible apply wf_sendReply | with_reducible apply wf_completeFor | with_reducible apply wf_hand | with_reducible apply memWf_memWriteN | with_reducible apply memWf_memClear | with_reducible apply memWf_filter | with_reducible apply wf_ite )

theorem wf_atomicAt (s : State) (k : Nat) (p : Packet) (op z : Nat) (b : BitVec 256) (d : Word) (hw : memWf s.mem = true) : memWf (State.atomicAt s k p op z b d).mem = true := by
  unfold State.atomicAt
  try dsimp only
  repeat' (first | with_reducible assumption | with_reducible apply wf_atomicReply | with_reducible apply wf_atomicOn | with_reducible apply wf_failCmd | with_reducible apply memWf_memWriteN | with_reducible apply memWf_memClear | with_reducible apply memWf_filter | with_reducible apply wf_ite )

theorem wf_atomicRequest (s : State) (k : Nat) (hw : memWf s.mem = true) : memWf (State.atomicRequest s k).mem = true := by
  unfold State.atomicRequest
  try dsimp only
  repeat' (first | with_reducible assumption | with_reducible apply wf_atomicAt | refine wf_atomic (by assumption) ?_ | with_reducible apply wf_dropPacket  | with_reducible apply memWf_memWriteN | with_reducible apply memWf_memClear | with_reducible apply memWf_filter | with_reducible apply wf_ite | split)

theorem wf_applyParts (l : List (Nat × Packet)) : ∀ (s : State), memWf s.mem = true →
    memWf (s.applyParts l).1.mem = true := by
  induction l with
  | nil => intro s hw; exact hw
  | cons x l ih =>
    intro s hw
    unfold State.applyParts
    split
    · exact ih _ (wf_atomicOn _ _ _ _ _ _ _ hw)
    · exact ih _ hw

theorem wf_applyAll (s : State) (key z : Nat) (ps : List (Nat × Packet)) (hw : memWf s.mem = true) : memWf (s.applyAll key z ps).1.mem = true :=
  wf_publish _ _ _ (wf_applyParts _ _ hw)

theorem wf_applyMerged (s : State) (key : Nat) (b : Body) (ps : List (Nat × Packet)) (hw : memWf s.mem = true) :
    memWf (s.applyMerged key b ps).1.mem = true := by
  unfold State.applyMerged
  split
  · refine wf_foldl _ _ (fun t y h => wf_atomicOrder _ _ _ _ h) _ ?_
    dsimp only
    exact wf_writeN _ _ _ _ hw
  · exact wf_applyAll _ _ _ _ hw
  · exact hw

theorem wf_mergedAtomicApply (s : State) (k : Nat) (hw : memWf s.mem = true) : memWf (State.mergedAtomicApply s k).mem = true := by
  unfold State.mergedAtomicApply
  try dsimp only
  repeat' (first | with_reducible assumption | with_reducible apply wf_applyMerged | refine wf_atomic (by assumption) ?_ | with_reducible apply wf_dropPacket | with_reducible apply wf_send | with_reducible apply wf_failCmd | (apply wf_foldl; intro _ _ _) | with_reducible apply memWf_memWriteN | with_reducible apply memWf_memClear | with_reducible apply memWf_filter | with_reducible apply wf_ite | split)

theorem wf_mergedReplySplit (s : State) (k : Nat) (hw : memWf s.mem = true) : memWf (State.mergedReplySplit s k).mem = true := by
  unfold State.mergedReplySplit
  try dsimp only
  repeat' (first | with_reducible assumption | with_reducible apply wf_atomicReply | with_reducible apply wf_dropPacket | (apply wf_foldl; intro _ _ _) | with_reducible apply memWf_memWriteN | with_reducible apply memWf_memClear | with_reducible apply memWf_filter | with_reducible apply wf_ite | split)

theorem wf_orderedRound (s : State) (die i : Nat) (hw : memWf s.mem = true) : memWf (State.orderedRound s die i).mem = true := by
  unfold State.orderedRound
  try dsimp only
  repeat' (first | with_reducible assumption | with_reducible apply wf_applyAll | with_reducible apply wf_atomicReply | with_reducible apply wf_dropPacket | with_reducible apply wf_failCmd | with_reducible apply wf_modDie | (apply wf_foldl; intro _ _ _) | with_reducible apply memWf_memWriteN | with_reducible apply memWf_memClear | with_reducible apply memWf_filter | with_reducible apply wf_ite | split)

theorem wf_orderedReductionRequest (s : State) (k : Nat) (hw : memWf s.mem = true) : memWf (State.orderedReductionRequest s k).mem = true := by
  unfold State.orderedReductionRequest
  try dsimp only
  repeat' (first | with_reducible assumption | with_reducible apply wf_orderedRound | refine wf_atomic (by assumption) ?_ | with_reducible apply wf_setPacket | with_reducible apply wf_modDie  | with_reducible apply memWf_memWriteN | with_reducible apply memWf_memClear | with_reducible apply memWf_filter | with_reducible apply wf_ite | split)

theorem wf_fence {f : WForm} {s : State} {u_ : State} (e : State.fence f s = .ok u_) (hw : memWf s.mem = true) : memWf u_.mem = true := by
  unfold State.fence at e
  try dsimp only at e
  repeat' (first | (with_reducible replace e := bind_ok e; obtain ⟨_, _, e⟩ := e) | split at e)
  all_goals repeat' (first | with_reducible assumption | exact wf_error e | refine wf_pureS (by assumption) ?_ | refine wf_okS (by assumption) ?_ | refine wf_pureR (by assumption) ?_ | refine wf_okR (by assumption) ?_ | refine wf_newCmd_eq (by assumption) ?_ | with_reducible apply wf_modCtx  )

theorem wf_fenced (s : State) (k : Nat) (i : Issuer) (l : List (Nat × Nat)) (hw : memWf s.mem = true) : memWf (State.fenced s k i l).mem = true := by
  unfold State.fenced
  try dsimp only
  repeat' (first | with_reducible assumption | with_reducible apply wf_bindTo  )

theorem wf_fencedSignal (s : State) (k : Nat) (p : Packet) (hw : memWf s.mem = true) : memWf (State.fencedSignal s k p).mem = true := by
  unfold State.fencedSignal
  try dsimp only
  repeat' (first | with_reducible assumption | with_reducible apply wf_bindTo  | with_reducible apply memWf_memWriteN | with_reducible apply memWf_memClear | with_reducible apply memWf_filter | with_reducible apply wf_ite | split)

theorem wf_fencedCmd (s : State) (cid k : Nat) (hw : memWf s.mem = true) : memWf (State.fencedCmd s cid k).mem = true := by
  unfold State.fencedCmd
  try dsimp only
  repeat' (first | with_reducible assumption | with_reducible apply wf_fenced  | with_reducible apply memWf_memWriteN | with_reducible apply memWf_memClear | with_reducible apply memWf_filter | with_reducible apply wf_ite | split)

theorem wf_enterRoot (s : State) (n : Nat) (hw : memWf s.mem = true) : memWf (State.enterRoot s n).mem = true := by
  unfold State.enterRoot
  try dsimp only
  repeat' (first | with_reducible assumption   | with_reducible apply memWf_memWriteN | with_reducible apply memWf_memClear | with_reducible apply memWf_filter | with_reducible apply wf_ite | split)

theorem wf_fenceRelease (s : State) (k : Nat) (hw : memWf s.mem = true) : memWf (State.fenceRelease s k).mem = true := by
  unfold State.fenceRelease
  try dsimp only
  repeat' (first | with_reducible assumption | with_reducible apply wf_enterRoot | with_reducible apply wf_fencedCmd | with_reducible apply wf_fencedSignal | with_reducible apply wf_fenced | with_reducible apply wf_setPacket | with_reducible apply wf_modCore  | with_reducible apply memWf_memWriteN | with_reducible apply memWf_memClear | with_reducible apply memWf_filter | with_reducible apply wf_ite | split)

theorem wf_releaseSignalSend (s : State) (k : Nat) (hw : memWf s.mem = true) : memWf (State.releaseSignalSend s k).mem = true := by
  unfold State.releaseSignalSend
  try dsimp only
  repeat' (first | with_reducible assumption | with_reducible apply wf_setPacket  | with_reducible apply memWf_memWriteN | with_reducible apply memWf_memClear | with_reducible apply memWf_filter | with_reducible apply wf_ite | split)

theorem wf_fp2 {g : BitVec 32 → BitVec 32 → BitVec 32} {f : WForm} {s0 : State} {u_ : State} (e : State.fp2 g f s0 = .ok u_) (hw : memWf s0.mem = true) : memWf u_.mem = true := by
  unfold State.fp2 at e
  try dsimp only at e
  repeat' (first | (with_reducible replace e := bind_ok e; obtain ⟨_, _, e⟩ := e) | split at e)
  all_goals repeat' (first | with_reducible assumption | exact wf_error e | refine wf_readAB (by assumption) ?_ | refine wf_writeS (by assumption) ?_ )

theorem wf_fp1 {g : BitVec 32 → Word} {f : WForm} {s0 : State} {u_ : State} (e : State.fp1 g f s0 = .ok u_) (hw : memWf s0.mem = true) : memWf u_.mem = true := by
  unfold State.fp1 at e
  try dsimp only at e
  repeat' (first | (with_reducible replace e := bind_ok e; obtain ⟨_, _, e⟩ := e) | split at e)
  all_goals repeat' (first | with_reducible assumption | exact wf_error e | refine wf_writeS (by assumption) ?_ | refine wf_readS (by assumption) ?_ )

theorem wf_ffmaOp {f : WForm} {s0 : State} {u_ : State} (e : State.ffmaOp f s0 = .ok u_) (hw : memWf s0.mem = true) : memWf u_.mem = true := by
  unfold State.ffmaOp at e
  try dsimp only at e
  repeat' (first | (with_reducible replace e := bind_ok e; obtain ⟨_, _, e⟩ := e) | split at e)
  all_goals repeat' (first | with_reducible assumption | exact wf_error e | refine wf_readAB (by assumption) ?_ | refine wf_writeS (by assumption) ?_ | refine wf_readS (by assumption) ?_ )

theorem wf_fcmpOp {f : WForm} {s0 : State} {u_ : State} (e : State.fcmpOp f s0 = .ok u_) (hw : memWf s0.mem = true) : memWf u_.mem = true := by
  unfold State.fcmpOp at e
  try dsimp only at e
  repeat' (first | (with_reducible replace e := bind_ok e; obtain ⟨_, _, e⟩ := e) | split at e)
  all_goals repeat' (first | with_reducible assumption | exact wf_error e | refine wf_readAB (by assumption) ?_ | refine wf_readS (by assumption) ?_ | refine wf_pureS (by assumption) ?_ | refine wf_okS (by assumption) ?_ | refine wf_pureR (by assumption) ?_ | refine wf_okR (by assumption) ?_ | refine wf_newCmd_eq (by assumption) ?_ | with_reducible apply wf_writeP )

theorem wf_tf2 {g : Nat → Nat → Nat → Nat} {f : WForm} {s0 : State} {u_ : State} (e : State.tf2 g f s0 = .ok u_) (hw : memWf s0.mem = true) : memWf u_.mem = true := by
  unfold State.tf2 at e
  try dsimp only at e
  repeat' (first | (with_reducible replace e := bind_ok e; obtain ⟨_, _, e⟩ := e) | split at e)
  all_goals repeat' (first | with_reducible assumption | exact wf_error e | refine wf_readAB (by assumption) ?_ | refine wf_writeS (by assumption) ?_ )

theorem wf_tf1 {g : Nat → Nat → Nat} {f : WForm} {s0 : State} {u_ : State} (e : State.tf1 g f s0 = .ok u_) (hw : memWf s0.mem = true) : memWf u_.mem = true := by
  unfold State.tf1 at e
  try dsimp only at e
  repeat' (first | (with_reducible replace e := bind_ok e; obtain ⟨_, _, e⟩ := e) | split at e)
  all_goals repeat' (first | with_reducible assumption | exact wf_error e | refine wf_writeS (by assumption) ?_ | refine wf_readS (by assumption) ?_ )

theorem wf_tfmaOp {f : WForm} {s0 : State} {u_ : State} (e : State.tfmaOp f s0 = .ok u_) (hw : memWf s0.mem = true) : memWf u_.mem = true := by
  unfold State.tfmaOp at e
  try dsimp only at e
  repeat' (first | (with_reducible replace e := bind_ok e; obtain ⟨_, _, e⟩ := e) | split at e)
  all_goals repeat' (first | with_reducible assumption | exact wf_error e | refine wf_readAB (by assumption) ?_ | refine wf_writeS (by assumption) ?_ | refine wf_readS (by assumption) ?_ )

theorem wf_tcmpOp {f : WForm} {s0 : State} {u_ : State} (e : State.tcmpOp f s0 = .ok u_) (hw : memWf s0.mem = true) : memWf u_.mem = true := by
  unfold State.tcmpOp at e
  try dsimp only at e
  repeat' (first | (with_reducible replace e := bind_ok e; obtain ⟨_, _, e⟩ := e) | split at e)
  all_goals repeat' (first | with_reducible assumption | exact wf_error e | refine wf_readAB (by assumption) ?_ | refine wf_readS (by assumption) ?_ | refine wf_pureS (by assumption) ?_ | refine wf_okS (by assumption) ?_ | refine wf_pureR (by assumption) ?_ | refine wf_okR (by assumption) ?_ | refine wf_newCmd_eq (by assumption) ?_ | with_reducible apply wf_writeP )

theorem wf_spzOp {f : WForm} {s : State} {u_ : State} (e : State.spzOp f s = .ok u_) (hw : memWf s.mem = true) : memWf u_.mem = true := by
  unfold State.spzOp at e
  try dsimp only at e
  repeat' (first | (with_reducible replace e := bind_ok e; obtain ⟨_, _, e⟩ := e) | split at e)
  all_goals repeat' (first | with_reducible assumption | exact wf_error e | refine wf_pureS (by assumption) ?_ | refine wf_okS (by assumption) ?_ | refine wf_pureR (by assumption) ?_ | refine wf_okR (by assumption) ?_ | refine wf_newCmd_eq (by assumption) ?_ | with_reducible apply wf_writeY  )

theorem wf_spfmaOp {sub : Bool} {f : WForm} {s0 : State} {u_ : State} (e : State.spfmaOp sub f s0 = .ok u_) (hw : memWf s0.mem = true) : memWf u_.mem = true := by
  unfold State.spfmaOp at e
  try dsimp only at e
  repeat' (first | (with_reducible replace e := bind_ok e; obtain ⟨_, _, e⟩ := e) | split at e)
  all_goals repeat' (first | with_reducible assumption | exact wf_error e | refine wf_readAB (by assumption) ?_ | refine wf_readS (by assumption) ?_ | refine wf_pureS (by assumption) ?_ )

theorem wf_spaddOp {sub : Bool} {f : WForm} {s0 : State} {u_ : State} (e : State.spaddOp sub f s0 = .ok u_) (hw : memWf s0.mem = true) : memWf u_.mem = true := by
  unfold State.spaddOp at e
  try dsimp only at e
  repeat' (first | (with_reducible replace e := bind_ok e; obtain ⟨_, _, e⟩ := e) | split at e)
  all_goals repeat' (first | with_reducible assumption | exact wf_error e | refine wf_readS (by assumption) ?_ | refine wf_pureS (by assumption) ?_ | refine wf_okS (by assumption) ?_ | refine wf_pureR (by assumption) ?_ | refine wf_okR (by assumption) ?_ | refine wf_newCmd_eq (by assumption) ?_ | with_reducible apply wf_writeY )

theorem wf_sprndOp {f : WForm} {s : State} {u_ : State} (e : State.sprndOp f s = .ok u_) (hw : memWf s.mem = true) : memWf u_.mem = true := by
  unfold State.sprndOp at e
  try dsimp only at e
  repeat' (first | (with_reducible replace e := bind_ok e; obtain ⟨_, _, e⟩ := e) | split at e)
  all_goals repeat' (first | with_reducible assumption | exact wf_error e | refine wf_writeS (by assumption) ?_ )

theorem wf_spldOp {f : WForm} {i : Word} {s0 : State} {u_ : State} (e : State.spldOp f i s0 = .ok u_) (hw : memWf s0.mem = true) : memWf u_.mem = true := by
  unfold State.spldOp at e
  try dsimp only at e
  repeat' (first | (with_reducible replace e := bind_ok e; obtain ⟨_, _, e⟩ := e) | split at e)
  all_goals repeat' (first | with_reducible assumption | exact wf_error e | refine wf_readS (by assumption) ?_ | refine wf_pureS (by assumption) ?_ )

theorem wf_spstOp {f : WForm} {i : Word} {s0 : State} {u_ : State} (e : State.spstOp f i s0 = .ok u_) (hw : memWf s0.mem = true) :
    memWf u_.mem = true := by
  unfold State.spstOp at e
  obtain ⟨⟨a, s⟩, e1, e⟩ := bind_ok e
  obtain ⟨_, -, e⟩ := bind_ok e
  obtain ⟨_, -, e⟩ := bind_ok e
  obtain ⟨_, -, e⟩ := bind_ok e
  exact wf_pureS e (wf_storeN _ _ _ _ _ (wf_readS e1 hw))

theorem wf_cvtOp {f : WForm} {s0 : State} {u_ : State} (e : State.cvtOp f s0 = .ok u_) (hw : memWf s0.mem = true) : memWf u_.mem = true := by
  unfold State.cvtOp at e
  try dsimp only at e
  repeat' (first | (with_reducible replace e := bind_ok e; obtain ⟨_, _, e⟩ := e) | split at e)
  all_goals repeat' (first | with_reducible assumption | exact wf_error e | refine wf_writeS (by assumption) ?_ | refine wf_readS (by assumption) ?_ )

theorem wf_setLanes (s : State) (d : BitVec 6) (h : Nat → Option Lane) (hw : memWf s.mem = true) : memWf (State.setLanes s d h).mem = true := by
  unfold State.setLanes
  try dsimp only
  repeat' (first | with_reducible assumption | with_reducible apply wf_modCtx )

theorem wf_setSpools (s : State) (d : BitVec 6) (h : Nat → Option Spool) (hw : memWf s.mem = true) : memWf (State.setSpools s d h).mem = true := by
  unfold State.setSpools
  try dsimp only
  repeat' (first | with_reducible assumption | with_reducible apply wf_modCtx )

theorem wf_readB {s : State} {f : WForm} {u_ : Word × State} (e : State.readB s f = .ok u_) (hw : memWf s.mem = true) : memWf u_.2.mem = true := by
  unfold State.readB at e
  try dsimp only at e
  repeat' (first | (with_reducible replace e := bind_ok e; obtain ⟨_, _, e⟩ := e) | split at e)
  all_goals repeat' (first | with_reducible assumption | exact wf_error e | refine wf_readS (by assumption) ?_ | refine wf_pureS (by assumption) ?_ | refine wf_okS (by assumption) ?_ | refine wf_pureR (by assumption) ?_ )

theorem wf_elementwise (f : WForm) (srcs : List (BitVec 6)) (h : Nat → BitVec 32) (s : State) (hw : memWf s.mem = true) : memWf (State.elementwise f srcs h s).mem = true := by
  unfold State.elementwise
  try dsimp only
  repeat' (first | with_reducible assumption | with_reducible apply wf_setLanes  )

theorem wf_vec2 {f : WForm} {readsD : Bool} {sc : Word → BitVec 32} {h : BitVec 32 → BitVec 32 → BitVec 32 → BitVec 32} {s0 : State} {u_ : State} (e : State.vec2 f readsD sc h s0 = .ok u_) (hw : memWf s0.mem = true) : memWf u_.mem = true := by
  unfold State.vec2 at e
  try dsimp only at e
  repeat' (first | (with_reducible replace e := bind_ok e; obtain ⟨_, _, e⟩ := e) | split at e)
  all_goals repeat' (first | with_reducible assumption | exact wf_error e | refine wf_readB (by assumption) ?_ | refine wf_readS (by assumption) ?_ | refine wf_pureS (by assumption) ?_ )

theorem wf_vecInt {f : WForm} {g : Nat → Nat → Nat → Int} {s : State} {u_ : State} (e : State.vecInt f g s = .ok u_) (hw : memWf s.mem = true) : memWf u_.mem = true := by
  unfold State.vecInt at e
  try dsimp only at e
  repeat' (first | (with_reducible replace e := bind_ok e; obtain ⟨_, _, e⟩ := e) | split at e)
  all_goals repeat' (first | with_reducible assumption | exact wf_error e | refine wf_vec2 (by assumption) ?_ | refine wf_readB (by assumption) ?_ | refine wf_readS (by assumption) ?_ | refine wf_pureS (by assumption) ?_ )

theorem wf_vec1 {f : WForm} {h : BitVec 32 → BitVec 32} {s : State} {u_ : State} (e : State.vec1 f h s = .ok u_) (hw : memWf s.mem = true) : memWf u_.mem = true := by
  unfold State.vec1 at e
  try dsimp only at e
  repeat' (first | (with_reducible replace e := bind_ok e; obtain ⟨_, _, e⟩ := e) | split at e)
  all_goals repeat' (first | with_reducible assumption | exact wf_error e | refine wf_pureS (by assumption) ?_ | refine wf_okS (by assumption) ?_ | refine wf_pureR (by assumption) ?_ | refine wf_okR (by assumption) ?_ | refine wf_newCmd_eq (by assumption) ?_ | with_reducible apply wf_elementwise  )

theorem wf_vec3 {f : WForm} {sc : Word → BitVec 32} {h : BitVec 32 → BitVec 32 → BitVec 32 → BitVec 32} {s0 : State} {u_ : State} (e : State.vec3 f sc h s0 = .ok u_) (hw : memWf s0.mem = true) : memWf u_.mem = true := by
  unfold State.vec3 at e
  try dsimp only at e
  repeat' (first | (with_reducible replace e := bind_ok e; obtain ⟨_, _, e⟩ := e) | split at e)
  all_goals repeat' (first | with_reducible assumption | exact wf_error e | refine wf_readB (by assumption) ?_ | refine wf_readS (by assumption) ?_ | refine wf_pureS (by assumption) ?_ )

theorem wf_vecFp {f : WForm} {g : BitVec 32 → BitVec 32 → BitVec 32} {s : State} {u_ : State} (e : State.vecFp f g s = .ok u_) (hw : memWf s.mem = true) : memWf u_.mem = true := by
  unfold State.vecFp at e
  try dsimp only at e
  repeat' (first | (with_reducible replace e := bind_ok e; obtain ⟨_, _, e⟩ := e) | split at e)
  all_goals repeat' (first | with_reducible assumption | exact wf_error e | refine wf_vec2 (by assumption) ?_ | refine wf_readB (by assumption) ?_ | refine wf_readS (by assumption) ?_ | refine wf_pureS (by assumption) ?_ )

theorem wf_vecReal {f : WForm} {g : XReal → XReal} {s : State} {u_ : State} (e : State.vecReal f g s = .ok u_) (hw : memWf s.mem = true) : memWf u_.mem = true := by
  unfold State.vecReal at e
  try dsimp only at e
  repeat' (first | (with_reducible replace e := bind_ok e; obtain ⟨_, _, e⟩ := e) | split at e)
  all_goals repeat' (first | with_reducible assumption | exact wf_error e | refine wf_vec1 (by assumption) ?_ | refine wf_pureS (by assumption) ?_ | refine wf_okS (by assumption) ?_ | refine wf_pureR (by assumption) ?_ | refine wf_okR (by assumption) ?_ | refine wf_newCmd_eq (by assumption) ?_ | refine wf_vec1 (by assumption) ?_ | with_reducible apply wf_elementwise  )

theorem wf_vecTf {f : WForm} {g : Nat → Nat → Nat → Nat} {s : State} {u_ : State} (e : State.vecTf f g s = .ok u_) (hw : memWf s.mem = true) : memWf u_.mem = true := by
  unfold State.vecTf at e
  try dsimp only at e
  repeat' (first | (with_reducible replace e := bind_ok e; obtain ⟨_, _, e⟩ := e) | split at e)
  all_goals repeat' (first | with_reducible assumption | exact wf_error e | refine wf_vec2 (by assumption) ?_ | refine wf_readB (by assumption) ?_ | refine wf_readS (by assumption) ?_ | refine wf_pureS (by assumption) ?_ )

theorem wf_lclaimOp {f : WForm} {s : State} {u_ : State} (e : State.lclaimOp f s = .ok u_) (hw : memWf s.mem = true) : memWf u_.mem = true := by
  unfold State.lclaimOp at e
  try dsimp only at e
  repeat' (first | (with_reducible replace e := bind_ok e; obtain ⟨_, _, e⟩ := e) | split at e)
  all_goals repeat' (first | with_reducible assumption | exact wf_error e | refine wf_writeS (by assumption) ?_ | refine wf_pureS (by assumption) ?_ | refine wf_okS (by assumption) ?_ | refine wf_pureR (by assumption) ?_ | refine wf_okR (by assumption) ?_ | refine wf_newCmd_eq (by assumption) ?_ | refine wf_writeS (by assumption) ?_ | with_reducible apply wf_modCur | with_reducible apply wf_modCtx | with_reducible apply wf_setCell  )

theorem wf_lrelOp {s : State} {u_ : State} (e : State.lrelOp s = .ok u_) (hw : memWf s.mem = true) : memWf u_.mem = true := by
  unfold State.lrelOp at e
  try dsimp only at e
  repeat' (first | (with_reducible replace e := bind_ok e; obtain ⟨_, _, e⟩ := e) | split at e)
  all_goals repeat' (first | with_reducible assumption | exact wf_error e | refine wf_pureS (by assumption) ?_ | refine wf_okS (by assumption) ?_ | refine wf_pureR (by assumption) ?_ | refine wf_okR (by assumption) ?_ | refine wf_newCmd_eq (by assumption) ?_ | with_reducible apply wf_modCtx  )

theorem wf_lcountOp {f : WForm} {s : State} {u_ : State} (e : State.lcountOp f s = .ok u_) (hw : memWf s.mem = true) : memWf u_.mem = true := by
  unfold State.lcountOp at e
  try dsimp only at e
  repeat' (first | (with_reducible replace e := bind_ok e; obtain ⟨_, _, e⟩ := e) | split at e)
  all_goals repeat' (first | with_reducible assumption | exact wf_error e | refine wf_writeS (by assumption) ?_ )

theorem wf_vspzOp {f : WForm} {s : State} {u_ : State} (e : State.vspzOp f s = .ok u_) (hw : memWf s.mem = true) : memWf u_.mem = true := by
  unfold State.vspzOp at e
  try dsimp only at e
  repeat' (first | (with_reducible replace e := bind_ok e; obtain ⟨_, _, e⟩ := e) | split at e)
  all_goals repeat' (first | with_reducible assumption | exact wf_error e | refine wf_pureS (by assumption) ?_ | refine wf_okS (by assumption) ?_ | refine wf_pureR (by assumption) ?_ | refine wf_okR (by assumption) ?_ | refine wf_newCmd_eq (by assumption) ?_ | with_reducible apply wf_setSpools  )

theorem wf_vspfmaOp {f : WForm} {s0 : State} {u_ : State} (e : State.vspfmaOp f s0 = .ok u_) (hw : memWf s0.mem = true) : memWf u_.mem = true := by
  unfold State.vspfmaOp at e
  try dsimp only at e
  repeat' (first | (with_reducible replace e := bind_ok e; obtain ⟨_, _, e⟩ := e) | split at e)
  all_goals repeat' (first | with_reducible assumption | exact wf_error e | refine wf_readB (by assumption) ?_ | refine wf_readS (by assumption) ?_ | refine wf_pureS (by assumption) ?_ )

theorem wf_vsprndOp {f : WForm} {s : State} {u_ : State} (e : State.vsprndOp f s = .ok u_) (hw : memWf s.mem = true) : memWf u_.mem = true := by
  unfold State.vsprndOp at e
  try dsimp only at e
  repeat' (first | (with_reducible replace e := bind_ok e; obtain ⟨_, _, e⟩ := e) | split at e)
  all_goals repeat' (first | with_reducible assumption | exact wf_error e | refine wf_pureS (by assumption) ?_ | refine wf_okS (by assumption) ?_ | refine wf_pureR (by assumption) ?_ | refine wf_okR (by assumption) ?_ | refine wf_newCmd_eq (by assumption) ?_ | with_reducible apply wf_setLanes  )

theorem wf_setMask (s : State) (d : BitVec 6) (h : Nat → Option Bool) (hw : memWf s.mem = true) : memWf (State.setMask s d h).mem = true := by
  unfold State.setMask
  try dsimp only
  repeat' (first | with_reducible assumption | with_reducible apply wf_writeK )

theorem wf_vcmpOp {f : WForm} {g : BitVec 32 → BitVec 32 → Bool} {s0 : State} {u_ : State} (e : State.vcmpOp f g s0 = .ok u_) (hw : memWf s0.mem = true) : memWf u_.mem = true := by
  unfold State.vcmpOp at e
  try dsimp only at e
  repeat' (first | (with_reducible replace e := bind_ok e; obtain ⟨_, _, e⟩ := e) | split at e)
  all_goals repeat' (first | with_reducible assumption | exact wf_error e | refine wf_readB (by assumption) ?_ | refine wf_readS (by assumption) ?_ | refine wf_pureS (by assumption) ?_ | refine wf_okS (by assumption) ?_ | refine wf_pureR (by assumption) ?_ | refine wf_okR (by assumption) ?_ | refine wf_newCmd_eq (by assumption) ?_ | with_reducible apply wf_setMask )

theorem wf_vselOp {f : WForm} {s0 : State} {u_ : State} (e : State.vselOp f s0 = .ok u_) (hw : memWf s0.mem = true) : memWf u_.mem = true := by
  unfold State.vselOp at e
  try dsimp only at e
  repeat' (first | (with_reducible replace e := bind_ok e; obtain ⟨_, _, e⟩ := e) | split at e)
  all_goals repeat' (first | with_reducible assumption | exact wf_error e | refine wf_readB (by assumption) ?_ | refine wf_readS (by assumption) ?_ | refine wf_pureS (by assumption) ?_ )

theorem wf_maskOp {g : BitVec 32 → BitVec 32 → BitVec 32} {f : WForm} {s : State} {u_ : State} (e : State.maskOp g f s = .ok u_) (hw : memWf s.mem = true) : memWf u_.mem = true := by
  unfold State.maskOp at e
  try dsimp only at e
  repeat' (first | (with_reducible replace e := bind_ok e; obtain ⟨_, _, e⟩ := e) | split at e)
  all_goals repeat' (first | with_reducible assumption | exact wf_error e | refine wf_pureS (by assumption) ?_ | refine wf_okS (by assumption) ?_ | refine wf_pureR (by assumption) ?_ | refine wf_okR (by assumption) ?_ | refine wf_newCmd_eq (by assumption) ?_ | with_reducible apply wf_writeK  )

theorem wf_ksetOp {f : WForm} {s0 : State} {u_ : State} (e : State.ksetOp f s0 = .ok u_) (hw : memWf s0.mem = true) : memWf u_.mem = true := by
  unfold State.ksetOp at e
  try dsimp only at e
  repeat' (first | (with_reducible replace e := bind_ok e; obtain ⟨_, _, e⟩ := e) | split at e)
  all_goals repeat' (first | with_reducible assumption | exact wf_error e | refine wf_readS (by assumption) ?_ | refine wf_pureS (by assumption) ?_ | refine wf_okS (by assumption) ?_ | refine wf_pureR (by assumption) ?_ | refine wf_okR (by assumption) ?_ | refine wf_newCmd_eq (by assumption) ?_ | with_reducible apply wf_writeK )

theorem wf_kgetOp {f : WForm} {s : State} {u_ : State} (e : State.kgetOp f s = .ok u_) (hw : memWf s.mem = true) : memWf u_.mem = true := by
  unfold State.kgetOp at e
  try dsimp only at e
  repeat' (first | (with_reducible replace e := bind_ok e; obtain ⟨_, _, e⟩ := e) | split at e)
  all_goals repeat' (first | with_reducible assumption | exact wf_error e | refine wf_writeS (by assumption) ?_ )

theorem wf_vcvtOp {f : WForm} {s0 : State} {u_ : State} (e : State.vcvtOp f s0 = .ok u_) (hw : memWf s0.mem = true) : memWf u_.mem = true := by
  unfold State.vcvtOp at e
  try dsimp only at e
  repeat' (first | (with_reducible replace e := bind_ok e; obtain ⟨_, _, e⟩ := e) | split at e)
  all_goals repeat' (first | with_reducible assumption | exact wf_error e | refine wf_readS (by assumption) ?_ | refine wf_pureS (by assumption) ?_ )

theorem wf_vpackOp {f : WForm} {s : State} {u_ : State} (e : State.vpackOp f s = .ok u_) (hw : memWf s.mem = true) : memWf u_.mem = true := by
  unfold State.vpackOp at e
  try dsimp only at e
  repeat' (first | (with_reducible replace e := bind_ok e; obtain ⟨_, _, e⟩ := e) | split at e)
  all_goals repeat' (first | with_reducible assumption | exact wf_error e | refine wf_pureS (by assumption) ?_ | refine wf_okS (by assumption) ?_ | refine wf_pureR (by assumption) ?_ | refine wf_okR (by assumption) ?_ | refine wf_newCmd_eq (by assumption) ?_ | with_reducible apply wf_setLanes )

theorem wf_vunpackOp {f : WForm} {s : State} {u_ : State} (e : State.vunpackOp f s = .ok u_) (hw : memWf s.mem = true) : memWf u_.mem = true := by
  unfold State.vunpackOp at e
  try dsimp only at e
  repeat' (first | (with_reducible replace e := bind_ok e; obtain ⟨_, _, e⟩ := e) | split at e)
  all_goals repeat' (first | with_reducible assumption | exact wf_error e | refine wf_pureS (by assumption) ?_ | refine wf_okS (by assumption) ?_ | refine wf_pureR (by assumption) ?_ | refine wf_okR (by assumption) ?_ | refine wf_newCmd_eq (by assumption) ?_ | with_reducible apply wf_setLanes  )

theorem wf_vbcastOp {f : WForm} {s0 : State} {u_ : State} (e : State.vbcastOp f s0 = .ok u_) (hw : memWf s0.mem = true) : memWf u_.mem = true := by
  unfold State.vbcastOp at e
  try dsimp only at e
  repeat' (first | (with_reducible replace e := bind_ok e; obtain ⟨_, _, e⟩ := e) | split at e)
  all_goals repeat' (first | with_reducible assumption | exact wf_error e | refine wf_readS (by assumption) ?_ | refine wf_pureS (by assumption) ?_ )

theorem wf_vextOp {f : WForm} {s0 : State} {u_ : State} (e : State.vextOp f s0 = .ok u_) (hw : memWf s0.mem = true) : memWf u_.mem = true := by
  unfold State.vextOp at e
  try dsimp only at e
  repeat' (first | (with_reducible replace e := bind_ok e; obtain ⟨_, _, e⟩ := e) | split at e)
  all_goals repeat' (first | with_reducible assumption | exact wf_error e | refine wf_writeS (by assumption) ?_ | refine wf_readS (by assumption) ?_ | refine wf_pureS (by assumption) ?_ )

theorem wf_vpermOp {f : WForm} {s0 : State} {u_ : State} (e : State.vpermOp f s0 = .ok u_) (hw : memWf s0.mem = true) : memWf u_.mem = true := by
  unfold State.vpermOp at e
  try dsimp only at e
  repeat' (first | (with_reducible replace e := bind_ok e; obtain ⟨_, _, e⟩ := e) | split at e)
  all_goals repeat' (first | with_reducible assumption | exact wf_error e | refine wf_readS (by assumption) ?_ | refine wf_pureS (by assumption) ?_ )

theorem wf_vslideOp {f : WForm} {s0 : State} {u_ : State} (e : State.vslideOp f s0 = .ok u_) (hw : memWf s0.mem = true) : memWf u_.mem = true := by
  unfold State.vslideOp at e
  try dsimp only at e
  repeat' (first | (with_reducible replace e := bind_ok e; obtain ⟨_, _, e⟩ := e) | split at e)
  all_goals repeat' (first | with_reducible assumption | exact wf_error e | refine wf_readS (by assumption) ?_ | refine wf_pureS (by assumption) ?_ )

theorem wf_vredOp {f : WForm} {s0 : State} {u_ : State} (e : State.vredOp f s0 = .ok u_) (hw : memWf s0.mem = true) : memWf u_.mem = true := by
  unfold State.vredOp at e
  try dsimp only at e
  repeat' (first | (with_reducible replace e := bind_ok e; obtain ⟨_, _, e⟩ := e) | split at e)
  all_goals repeat' (first | with_reducible assumption | exact wf_error e | refine wf_writeS (by assumption) ?_ | refine wf_readS (by assumption) ?_ | refine wf_pureS (by assumption) ?_ )

theorem wf_vscanOp {f : WForm} {s0 : State} {u_ : State} (e : State.vscanOp f s0 = .ok u_) (hw : memWf s0.mem = true) : memWf u_.mem = true := by
  unfold State.vscanOp at e
  try dsimp only at e
  repeat' (first | (with_reducible replace e := bind_ok e; obtain ⟨_, _, e⟩ := e) | split at e)
  all_goals repeat' (first | with_reducible assumption | exact wf_error e | refine wf_readS (by assumption) ?_ | refine wf_pureS (by assumption) ?_ )

theorem wf_countBanks (s : State) (as : List (Nat × Word)) (hw : memWf s.mem = true) : memWf (State.countBanks s as).mem = true := by
  unfold State.countBanks
  try dsimp only
  repeat' (first | with_reducible assumption | with_reducible apply wf_modCur  )

theorem wf_readStride {s : State} {f : WForm} {kind : Nat} {u_ : Word × State} (e : State.readStride s f kind = .ok u_) (hw : memWf s.mem = true) : memWf u_.2.mem = true := by
  unfold State.readStride at e
  try dsimp only at e
  repeat' (first | (with_reducible replace e := bind_ok e; obtain ⟨_, _, e⟩ := e) | split at e)
  all_goals repeat' (first | with_reducible assumption | exact wf_error e | refine wf_readS (by assumption) ?_ | refine wf_pureS (by assumption) ?_ | refine wf_okS (by assumption) ?_ | refine wf_pureR (by assumption) ?_ )

theorem wf_vloadOp {kind : Nat} {f : WForm} {imm : Word} {s0 : State} {u_ : State} (e : State.vloadOp kind f imm s0 = .ok u_) (hw : memWf s0.mem = true) : memWf u_.mem = true := by
  unfold State.vloadOp at e
  try dsimp only at e
  repeat' (first | (with_reducible replace e := bind_ok e; obtain ⟨_, _, e⟩ := e) | split at e)
  all_goals repeat' (first | with_reducible assumption | exact wf_error e | refine wf_readStride (by assumption) ?_ | refine wf_readS (by assumption) ?_ | refine wf_pureS (by assumption) ?_ | refine wf_okS (by assumption) ?_ | refine wf_pureR (by assumption) ?_ | refine wf_okR (by assumption) ?_ | refine wf_newCmd_eq (by assumption) ?_ | refine wf_readStride (by assumption) ?_ | with_reducible apply wf_countBanks | with_reducible apply wf_setLanes | refine wf_readS (by assumption) ?_ | with_reducible apply wf_modCur | with_reducible apply wf_saw | (apply wf_foldl; intro _ _ _) )

theorem wf_vstoreOp {kind : Nat} {f : WForm} {imm : Word} {s0 : State} {u_ : State} (e : State.vstoreOp kind f imm s0 = .ok u_) (hw : memWf s0.mem = true) : memWf u_.mem = true := by
  unfold State.vstoreOp at e
  try dsimp only at e
  repeat' (first | (with_reducible replace e := bind_ok e; obtain ⟨_, _, e⟩ := e) | split at e)
  all_goals repeat' (first | with_reducible assumption | exact wf_error e | refine wf_readStride (by assumption) ?_ | refine wf_readS (by assumption) ?_ | refine wf_pureS (by assumption) ?_ | refine wf_okS (by assumption) ?_ | refine wf_pureR (by assumption) ?_ | refine wf_okR (by assumption) ?_ | refine wf_newCmd_eq (by assumption) ?_ | refine wf_readStride (by assumption) ?_ | with_reducible apply wf_countBanks | refine wf_readS (by assumption) ?_ | with_reducible apply wf_modCur | with_reducible apply wf_notedLanes | with_reducible apply wf_writeN | (apply wf_foldl; intro _ _ _) )

theorem wf_landingMove (s : State) (cid l : Nat) (hw : memWf s.mem = true) : memWf (State.landingMove s cid l).mem = true := by
  unfold State.landingMove
  try dsimp only
  repeat' (first | with_reducible assumption | with_reducible apply wf_complete | with_reducible apply wf_modCore  | with_reducible apply memWf_memWriteN | with_reducible apply memWf_memClear | with_reducible apply memWf_filter | with_reducible apply wf_ite | split)

theorem wf_settleLatches (s : State) (op : MOp) (hw : memWf s.mem = true) : memWf (State.settleLatches s op).mem = true := by
  unfold State.settleLatches
  try dsimp only
  repeat' (first | with_reducible assumption | with_reducible apply wf_landingMove | (apply wf_foldl; intro _ _ _) | with_reducible apply memWf_memWriteN | with_reducible apply memWf_memClear | with_reducible apply memWf_filter | with_reducible apply wf_ite )

theorem wf_mEnqueue (s0 : State) (op : MOp) (cmd : Nat) (r : Ret) (hw : memWf s0.mem = true) : memWf (State.mEnqueue s0 op cmd r).mem = true := by
  unfold State.mEnqueue
  try dsimp only
  repeat' (first | with_reducible assumption | with_reducible apply wf_settleLatches | with_reducible apply wf_modCur  )

theorem wf_mQuiet {s : State} {op : MOp} {u_ : State} (e : State.mQuiet s op = .ok u_) (hw : memWf s.mem = true) : memWf u_.mem = true := by
  unfold State.mQuiet at e
  try dsimp only at e
  repeat' (first | (with_reducible replace e := bind_ok e; obtain ⟨_, _, e⟩ := e) | split at e)
  all_goals repeat' (first | with_reducible assumption | exact wf_error e | refine wf_pureS (by assumption) ?_ | refine wf_okS (by assumption) ?_ | refine wf_pureR (by assumption) ?_ | refine wf_okR (by assumption) ?_ | refine wf_newCmd_eq (by assumption) ?_ | with_reducible apply wf_mEnqueue  )

theorem wf_mAsync {s : State} {op : MOp} {minor : Nat} {slot : Option Nat} {bytes : Nat} {u_ : State} (e : State.mAsync s op minor slot bytes = .ok u_) (hw : memWf s.mem = true) : memWf u_.mem = true := by
  unfold State.mAsync at e
  try dsimp only at e
  repeat' (first | (with_reducible replace e := bind_ok e; obtain ⟨_, _, e⟩ := e) | split at e)
  all_goals repeat' (first | with_reducible assumption | exact wf_error e | refine wf_pureS (by assumption) ?_ | refine wf_okS (by assumption) ?_ | refine wf_pureR (by assumption) ?_ | refine wf_okR (by assumption) ?_ | refine wf_newCmd_eq (by assumption) ?_ | with_reducible apply wf_mEnqueue | with_reducible apply wf_newCmd  )

theorem wf_mfmtOp {f : WForm} {s : State} {u_ : State} (e : State.mfmtOp f s = .ok u_) (hw : memWf s.mem = true) : memWf u_.mem = true := by
  unfold State.mfmtOp at e
  try dsimp only at e
  repeat' (first | (with_reducible replace e := bind_ok e; obtain ⟨_, _, e⟩ := e) | split at e)
  all_goals repeat' (first | with_reducible assumption | exact wf_error e | refine wf_mQuiet (by assumption) ?_ | refine wf_pureS (by assumption) ?_ | refine wf_okS (by assumption) ?_ | refine wf_pureR (by assumption) ?_ | refine wf_okR (by assumption) ?_ | refine wf_newCmd_eq (by assumption) ?_ | refine wf_mQuiet (by assumption) ?_ | with_reducible apply wf_mEnqueue | with_reducible apply wf_modCur  )

theorem wf_msclOp {f : WForm} {imm : Word} {s0 : State} {u_ : State} (e : State.msclOp f imm s0 = .ok u_) (hw : memWf s0.mem = true) : memWf u_.mem = true := by
  unfold State.msclOp at e
  try dsimp only at e
  repeat' (first | (with_reducible replace e := bind_ok e; obtain ⟨_, _, e⟩ := e) | split at e)
  all_goals repeat' (first | with_reducible assumption | exact wf_error e | refine wf_mQuiet (by assumption) ?_ | refine wf_readS (by assumption) ?_ | refine wf_pureS (by assumption) ?_ | refine wf_okS (by assumption) ?_ | refine wf_pureR (by assumption) ?_ | refine wf_okR (by assumption) ?_ | refine wf_newCmd_eq (by assumption) ?_ | refine wf_mQuiet (by assumption) ?_ | with_reducible apply wf_mEnqueue )

theorem wf_mlbOp {f : WForm} {imm : Word} {s0 : State} {u_ : State} (e : State.mlbOp f imm s0 = .ok u_) (hw : memWf s0.mem = true) : memWf u_.mem = true := by
  unfold State.mlbOp at e
  try dsimp only at e
  repeat' (first | (with_reducible replace e := bind_ok e; obtain ⟨_, _, e⟩ := e) | split at e)
  all_goals repeat' (first | with_reducible assumption | exact wf_error e | refine wf_mAsync (by assumption) ?_ | refine wf_readS (by assumption) ?_ | refine wf_pureS (by assumption) ?_ | refine wf_okS (by assumption) ?_ | refine wf_pureR (by assumption) ?_ | refine wf_okR (by assumption) ?_ | refine wf_newCmd_eq (by assumption) ?_ | refine wf_mAsync (by assumption) ?_ | with_reducible apply wf_mEnqueue )

theorem wf_mmaOp {f : WForm} {imm : Word} {s0 : State} {u_ : State} (e : State.mmaOp f imm s0 = .ok u_) (hw : memWf s0.mem = true) : memWf u_.mem = true := by
  unfold State.mmaOp at e
  try dsimp only at e
  repeat' (first | (with_reducible replace e := bind_ok e; obtain ⟨_, _, e⟩ := e) | split at e)
  all_goals repeat' (first | with_reducible assumption | exact wf_error e | refine wf_mAsync (by assumption) ?_ | refine wf_readS (by assumption) ?_ | refine wf_pureS (by assumption) ?_ | refine wf_okS (by assumption) ?_ | refine wf_pureR (by assumption) ?_ | refine wf_okR (by assumption) ?_ | refine wf_newCmd_eq (by assumption) ?_ | refine wf_mAsync (by assumption) ?_ | with_reducible apply wf_mEnqueue )

theorem wf_mrotOp {f : WForm} {s0 : State} {u_ : State} (e : State.mrotOp f s0 = .ok u_) (hw : memWf s0.mem = true) : memWf u_.mem = true := by
  unfold State.mrotOp at e
  try dsimp only at e
  repeat' (first | (with_reducible replace e := bind_ok e; obtain ⟨_, _, e⟩ := e) | split at e)
  all_goals repeat' (first | with_reducible assumption | exact wf_error e | refine wf_mAsync (by assumption) ?_ | refine wf_readS (by assumption) ?_ | refine wf_pureS (by assumption) ?_ | refine wf_okS (by assumption) ?_ | refine wf_pureR (by assumption) ?_ | refine wf_okR (by assumption) ?_ | refine wf_newCmd_eq (by assumption) ?_ | refine wf_mAsync (by assumption) ?_ | with_reducible apply wf_mEnqueue )

theorem wf_mzeroOp {f : WForm} {s : State} {u_ : State} (e : State.mzeroOp f s = .ok u_) (hw : memWf s.mem = true) : memWf u_.mem = true := by
  unfold State.mzeroOp at e
  try dsimp only at e
  repeat' (first | (with_reducible replace e := bind_ok e; obtain ⟨_, _, e⟩ := e) | split at e)
  all_goals repeat' (first | with_reducible assumption | exact wf_error e | refine wf_mQuiet (by assumption) ?_ | refine wf_pureS (by assumption) ?_ | refine wf_okS (by assumption) ?_ | refine wf_pureR (by assumption) ?_ | refine wf_okR (by assumption) ?_ | refine wf_newCmd_eq (by assumption) ?_ | refine wf_mQuiet (by assumption) ?_ | with_reducible apply wf_mEnqueue  )

theorem wf_mdrainOp {f : WForm} {s0 : State} {u_ : State} (e : State.mdrainOp f s0 = .ok u_) (hw : memWf s0.mem = true) : memWf u_.mem = true := by
  unfold State.mdrainOp at e
  try dsimp only at e
  repeat' (first | (with_reducible replace e := bind_ok e; obtain ⟨_, _, e⟩ := e) | split at e)
  all_goals repeat' (first | with_reducible assumption | exact wf_error e | refine wf_mAsync (by assumption) ?_ | refine wf_readS (by assumption) ?_ | refine wf_pureS (by assumption) ?_ | refine wf_okS (by assumption) ?_ | refine wf_pureR (by assumption) ?_ | refine wf_okR (by assumption) ?_ | refine wf_newCmd_eq (by assumption) ?_ | refine wf_mAsync (by assumption) ?_ | with_reducible apply wf_mEnqueue )

theorem wf_mrowOp {f : WForm} {s0 : State} {u_ : State} (e : State.mrowOp f s0 = .ok u_) (hw : memWf s0.mem = true) : memWf u_.mem = true := by
  unfold State.mrowOp at e
  try dsimp only at e
  repeat' (first | (with_reducible replace e := bind_ok e; obtain ⟨_, _, e⟩ := e) | split at e)
  all_goals repeat' (first | with_reducible assumption | exact wf_error e | refine wf_readS (by assumption) ?_ | refine wf_pureS (by assumption) ?_ | refine wf_okS (by assumption) ?_ | refine wf_pureR (by assumption) ?_ | refine wf_okR (by assumption) ?_ | refine wf_newCmd_eq (by assumption) ?_ | with_reducible apply wf_setLanes | with_reducible apply wf_writeP )

theorem wf_modMcmd (s : State) (cid m : Nat) (g : MCmd → MCmd) (hw : memWf s.mem = true) : memWf (State.modMcmd s cid m g).mem = true := by
  unfold State.modMcmd
  try dsimp only
  repeat' (first | with_reducible assumption | with_reducible apply wf_modCore  )

theorem wf_dropMcmd (s : State) (cid m : Nat) (hw : memWf s.mem = true) : memWf (State.dropMcmd s cid m).mem = true := by
  unfold State.dropMcmd
  try dsimp only
  repeat' (first | with_reducible assumption | with_reducible apply wf_modCore  )

theorem wf_matrixStart (s : State) (cid m : Nat) (hw : memWf s.mem = true) : memWf (State.matrixStart s cid m).mem = true := by
  unfold State.matrixStart
  try dsimp only
  repeat' (first | with_reducible assumption | with_reducible apply wf_modMcmd | with_reducible apply wf_setPacket | with_reducible apply wf_send | with_reducible apply wf_saw  | with_reducible apply memWf_memWriteN | with_reducible apply memWf_memClear | with_reducible apply memWf_filter | with_reducible apply wf_ite | split)

theorem wf_matrixEffect (s : State) (cid : Nat) (x : MCmd) (bytes : List Byte) (hw : memWf s.mem = true) : memWf (State.matrixEffect s cid x bytes).mem = true := by
  unfold State.matrixEffect
  try dsimp only
  repeat' (first | with_reducible assumption | with_reducible apply wf_modCore  | with_reducible apply memWf_memWriteN | with_reducible apply memWf_memClear | with_reducible apply memWf_filter | with_reducible apply wf_ite | split)

theorem wf_sourceSeen (s : State) (cid : Nat) (x : MCmd) (hw : memWf s.mem = true) : memWf (State.sourceSeen s cid x).mem = true := by
  unfold State.sourceSeen
  try dsimp only
  repeat' (first | with_reducible assumption | with_reducible apply wf_publish | (apply wf_foldl; intro _ _ _) | with_reducible apply memWf_memWriteN | with_reducible apply memWf_memClear | with_reducible apply memWf_filter | with_reducible apply wf_ite )

theorem wf_matrixComplete (s : State) (cid : Nat) (x : MCmd) (hw : memWf s.mem = true) : memWf (State.matrixComplete s cid x).mem = true := by
  unfold State.matrixComplete
  try dsimp only
  repeat' (first | with_reducible assumption | with_reducible apply wf_completeFor | with_reducible apply wf_complete  | with_reducible apply memWf_memWriteN | with_reducible apply memWf_memClear | with_reducible apply memWf_filter | with_reducible apply wf_ite | split)

theorem wf_matrixFinish (s : State) (cid m : Nat) (hw : memWf s.mem = true) : memWf (State.matrixFinish s cid m).mem = true := by
  unfold State.matrixFinish
  try dsimp only
  repeat' (first | with_reducible assumption | with_reducible apply wf_matrixComplete | with_reducible apply wf_sourceSeen | with_reducible apply wf_matrixEffect | with_reducible apply wf_dropMcmd | with_reducible apply wf_faultFor  | with_reducible apply memWf_memWriteN | with_reducible apply memWf_memClear | with_reducible apply memWf_filter | with_reducible apply wf_ite | split)

theorem wf_mdrainRow (s : State) (cid m : Nat) (hw : memWf s.mem = true) : memWf (State.mdrainRow s cid m).mem = true := by
  unfold State.mdrainRow
  try dsimp only
  repeat' (first | with_reducible assumption | with_reducible apply wf_modMcmd | with_reducible apply wf_sendSignal | with_reducible apply wf_modCore | with_reducible apply wf_bindTo | with_reducible apply wf_noted | with_reducible apply wf_clearWritten | with_reducible apply wf_writeN | (apply wf_foldl; intro _ _ _) | with_reducible apply memWf_memWriteN | with_reducible apply memWf_memClear | with_reducible apply memWf_filter | with_reducible apply wf_ite | split)

theorem wf_mrotLands (s : State) (k : Nat) (hw : memWf s.mem = true) : memWf (State.mrotLands s k).mem = true := by
  unfold State.mrotLands
  try dsimp only
  repeat' (first | with_reducible assumption | with_reducible apply wf_modMcmd | with_reducible apply wf_dropPacket | with_reducible apply wf_modCore  | with_reducible apply memWf_memWriteN | with_reducible apply memWf_memClear | with_reducible apply memWf_filter | with_reducible apply wf_ite | split)

theorem wf_keepOlds (s : State) (a len : Nat) (hw : memWf s.mem = true) : memWf (State.keepOlds s a len).mem = true := by
  unfold State.keepOlds
  try dsimp only
  repeat' (first | with_reducible assumption | with_reducible apply wf_modPart | (apply wf_foldl; intro _ _ _) | with_reducible apply memWf_memWriteN | with_reducible apply memWf_memClear | with_reducible apply memWf_filter | with_reducible apply wf_ite )

theorem wf_unpin (s : State) (hw : memWf s.mem = true) : memWf (State.unpin s).mem = true := by
  unfold State.unpin
  try dsimp only
  repeat' (first | with_reducible assumption   )

theorem wf_queueWalk (s : State) (kind : Nat) (w : Walk) (hw : memWf s.mem = true) : memWf (State.queueWalk s kind w).mem = true := by
  unfold State.queueWalk
  try dsimp only
  repeat' (first | with_reducible assumption | with_reducible apply wf_newCmd | with_reducible apply wf_modCluster  )

theorem wf_walkIssue {kind : Nat} {f : WForm} {s0 : State} {u_ : State} (e : State.walkIssue kind f s0 = .ok u_) (hw : memWf s0.mem = true) : memWf u_.mem = true := by
  unfold State.walkIssue at e
  try dsimp only at e
  repeat' (first | (with_reducible replace e := bind_ok e; obtain ⟨_, _, e⟩ := e) | split at e)
  all_goals repeat' (first | with_reducible assumption | exact wf_error e | refine wf_readS (by assumption) ?_ | refine wf_pureS (by assumption) ?_ | refine wf_okS (by assumption) ?_ | refine wf_pureR (by assumption) ?_ | refine wf_okR (by assumption) ?_ | refine wf_newCmd_eq (by assumption) ?_ | with_reducible apply wf_queueWalk )

theorem wf_twcan {f : WForm} {s0 : State} {u_ : State} (e : State.twcan f s0 = .ok u_) (hw : memWf s0.mem = true) : memWf u_.mem = true := by
  unfold State.twcan at e
  try dsimp only at e
  repeat' (first | (with_reducible replace e := bind_ok e; obtain ⟨_, _, e⟩ := e) | split at e)
  all_goals repeat' (first | with_reducible assumption | exact wf_error e | refine wf_readS (by assumption) ?_ | refine wf_pureS (by assumption) ?_ )

theorem wf_setWalk (s : State) (n : Nat) (w : Walk) (hw : memWf s.mem = true) : memWf (State.setWalk s n w).mem = true := by
  unfold State.setWalk
  try dsimp only
  repeat' (first | with_reducible assumption   )

theorem wf_walkStart (s : State) (clid n : Nat) (hw : memWf s.mem = true) : memWf (State.walkStart s clid n).mem = true := by
  unfold State.walkStart
  try dsimp only
  repeat' (first | with_reducible assumption | with_reducible apply wf_setWalk | with_reducible apply wf_modCluster  | with_reducible apply memWf_memWriteN | with_reducible apply memWf_memClear | with_reducible apply memWf_filter | with_reducible apply wf_ite | split)

theorem wf_dropWalk (s : State) (n : Nat) (w : Walk) (hw : memWf s.mem = true) : memWf (State.dropWalk s n w).mem = true := by
  unfold State.dropWalk
  try dsimp only
  repeat' (first | with_reducible assumption | with_reducible apply wf_modCluster  )

theorem wf_walkFault (s : State) (n : Nat) (w : Walk) (code : Code) (hw : memWf s.mem = true) : memWf (State.walkFault s n w code).mem = true := by
  unfold State.walkFault
  try dsimp only
  repeat' (first | with_reducible assumption | with_reducible apply wf_dropWalk | with_reducible apply wf_failCmd  )

theorem wf_sawEntry (s : State) (n : Nat) (w : Walk) (a : Nat) (hw : memWf s.mem = true) : memWf (State.sawEntry s n w a).mem = true := by
  unfold State.sawEntry
  try dsimp only
  repeat' (first | with_reducible assumption | with_reducible apply wf_saw | with_reducible apply memWf_memWriteN | with_reducible apply memWf_memClear | with_reducible apply memWf_filter | with_reducible apply wf_ite )

theorem wf_askTable (s : State) (n : Nat) (w : Walk) (a : Nat) (hw : memWf s.mem = true) : memWf (State.askTable s n w a).mem = true := by
  unfold State.askTable
  try dsimp only
  repeat' (first | with_reducible assumption | with_reducible apply wf_send | with_reducible apply memWf_memWriteN | with_reducible apply memWf_memClear | with_reducible apply memWf_filter | with_reducible apply wf_ite )

theorem wf_tableArrive (s : State) (k : Nat) (p : Packet) (hw : memWf s.mem = true) : memWf (State.tableArrive s k p).mem = true := by
  unfold State.tableArrive
  try dsimp only
  repeat' (first | with_reducible assumption | with_reducible apply wf_setWalk | with_reducible apply wf_dropPacket | with_reducible apply wf_send | with_reducible apply wf_modDie | with_reducible apply wf_saw  | with_reducible apply memWf_memWriteN | with_reducible apply memWf_memClear | with_reducible apply memWf_filter | with_reducible apply wf_ite | split)

theorem wf_keepEntry (s : State) (die : Nat) (c : Cached) (hw : memWf s.mem = true) : memWf (State.keepEntry s die c).mem = true := by
  unfold State.keepEntry
  try dsimp only
  repeat' (first | with_reducible assumption | with_reducible apply wf_modDie | with_reducible apply memWf_memWriteN | with_reducible apply memWf_memClear | with_reducible apply memWf_filter | with_reducible apply wf_ite )

theorem wf_pageEntry {s t : State} {n : Nat} {w : Walk} {tid : Nat} {x : Tens} {tl choice : Nat} {c : Option Cached}
    (e : s.pageEntry n w tid x tl choice = .ok (t, c)) (hw : memWf s.mem = true) : memWf t.mem = true := by
  unfold State.pageEntry at e
  dsimp only at e
  repeat' (first | split at e | cases e)
  all_goals first
    | exact hw
    | exact wf_askTable _ _ _ _ hw
    | exact wf_askTable _ _ _ _ (wf_sawEntry _ _ _ _ hw)
    | exact wf_sawEntry _ _ _ _ (wf_sawEntry _ _ _ _ hw)

theorem wf_pageEntryError {s t : State} {n : Nat} {w : Walk} {tid : Nat} {x : Tens} {tl choice : Nat} {c : Code}
    (e : s.pageEntry n w tid x tl choice = .error (t, c)) (hw : memWf s.mem = true) : memWf t.mem = true := by
  unfold State.pageEntry at e
  dsimp only at e
  repeat' (first | split at e | cases e)
  all_goals first
    | exact hw
    | exact wf_sawEntry _ _ _ _ hw

theorem wf_translate (s : State) (n tile : Nat) (w : Walk) (c : Cached) (hw : memWf s.mem = true) : memWf (State.translate s n tile w c).mem = true := by
  unfold State.translate
  try dsimp only
  repeat' (first | with_reducible assumption | with_reducible apply wf_keepEntry | with_reducible apply wf_walkFault | with_reducible apply wf_setWalk | with_reducible apply wf_send | with_reducible apply wf_modDie  | with_reducible apply memWf_memWriteN | with_reducible apply memWf_memClear | with_reducible apply memWf_filter | with_reducible apply wf_ite | split)

theorem wf_walkTranslation (s : State) (n tile choice : Nat) (hw : memWf s.mem = true) : memWf (s.walkTranslation n tile choice).mem = true := by
  unfold State.walkTranslation
  dsimp only
  repeat' split
  all_goals first
    | exact hw
    | exact wf_tableArrive _ _ _ hw
    | exact wf_walkFault _ _ _ _ (wf_pageEntryError (by assumption) hw)
    | exact wf_pageEntry (by assumption) hw
    | exact wf_translate _ _ _ _ _ (wf_pageEntry (by assumption) hw)

theorem wf_writeBits (s : State) (key off n v : Nat) (hw : memWf s.mem = true) : memWf (State.writeBits s key off n v).mem = true := by
  unfold State.writeBits
  try dsimp only
  repeat' (first | with_reducible assumption | with_reducible apply wf_writeN  )

theorem wf_carry (s : State) (n : Nat) (w : Walk) (lo hi : Nat) (poison : Bool) (hw : memWf s.mem = true) :
    memWf (s.carry n w lo hi poison).1.mem = true := by
  unfold State.carry
  exact wf_foldl _ _ (fun _ _ h => wf_send _ _ h) _ hw

theorem wf_carryPoison (s : State) (k len : Nat) (pois : List Bool) (hw : memWf s.mem = true) : memWf (State.carryPoison s k len pois).mem = true := by
  unfold State.carryPoison
  try dsimp only
  repeat' (first | with_reducible assumption | with_reducible apply wf_addPoison | (apply wf_foldl; intro _ _ _) | with_reducible apply memWf_memWriteN | with_reducible apply memWf_memClear | with_reducible apply memWf_filter | with_reducible apply wf_ite )

theorem wf_putElem (s : State) (n : Nat) (w : Walk) (key off nb : Nat) (x : Elem) (hw : memWf s.mem = true) : memWf (State.putElem s n w key off nb x).mem = true := by
  unfold State.putElem
  try dsimp only
  repeat' (first | with_reducible assumption | with_reducible apply wf_carryPoison | with_reducible apply wf_writeBits | with_reducible apply wf_noted | with_reducible apply wf_writeN | with_reducible apply memWf_memWriteN | with_reducible apply memWf_memClear | with_reducible apply memWf_filter | with_reducible apply wf_ite )

theorem wf_sawLatched (s : State) (n : Nat) (w v : Walk) (hw : memWf s.mem = true) : memWf (State.sawLatched s n w v).mem = true := by
  unfold State.sawLatched
  try dsimp only
  repeat' (first | with_reducible assumption | with_reducible apply wf_saw | (apply wf_foldl; intro _ _ _) )

theorem wf_startMoves (s : State) (n : Nat) (w : Walk) (ms : List Nat) (hw : memWf s.mem = true) : memWf (State.startMoves s n w ms).mem = true := by
  unfold State.startMoves
  try dsimp only
  repeat' (first | with_reducible assumption | with_reducible apply wf_walkFault | with_reducible apply wf_setWalk | with_reducible apply wf_send | (apply wf_foldl; intro _ _ _) | with_reducible apply memWf_memWriteN | with_reducible apply memWf_memClear | with_reducible apply memWf_filter | with_reducible apply wf_ite | split)

theorem wf_movesRead (s : State) (k n : Nat) (p : Packet) (w : Walk) (tile : Nat) (es : List Elem) (hw : memWf s.mem = true) : memWf (State.movesRead s k n p w tile es).mem = true := by
  unfold State.movesRead
  try dsimp only
  repeat' (first | with_reducible assumption | with_reducible apply wf_sawLatched | with_reducible apply wf_setWalk | with_reducible apply wf_dropPacket | with_reducible apply wf_send | (apply wf_foldl; intro _ _ _) | with_reducible apply memWf_memWriteN | with_reducible apply memWf_memClear | with_reducible apply memWf_filter | with_reducible apply wf_ite | split)

theorem wf_movesPass (s : State) (k n : Nat) (w : Walk) (tile : Nat) (es : List Elem) (hw : memWf s.mem = true) : memWf (State.movesPass s k n w tile es).mem = true := by
  unfold State.movesPass
  try dsimp only
  repeat' (first | with_reducible assumption | with_reducible apply wf_walkFault | refine wf_st (by assumption) ?_ | with_reducible apply wf_dropPacket | with_reducible apply wf_send | (apply wf_foldl; intro _ _ _) | with_reducible apply memWf_memWriteN | with_reducible apply memWf_memClear | with_reducible apply memWf_filter | with_reducible apply wf_ite | split)

theorem wf_putAll (s : State) (n : Nat) (w : Walk) (nb : Nat) (l : List (Nat × Nat × Elem)) (hw : memWf s.mem = true) : memWf (State.putAll s n w nb l).mem = true := by
  unfold State.putAll
  try dsimp only
  repeat' (first | with_reducible assumption | with_reducible apply wf_putElem | with_reducible apply wf_clearWritten | (apply wf_foldl; intro _ _ _) )

theorem wf_carryAll (s : State) (n : Nat) (w : Walk) (l : List (Nat × Nat × List Bool)) (hw : memWf s.mem = true) :
    memWf (s.carryAll n w l).1.mem = true := by
  have h : ∀ (l : List (Nat × Nat × Bool)) (u : State × Nat), memWf u.1.mem = true → memWf (l.foldl (fun (u : State × Nat) r =>
      ((u.1.carry n w r.1 r.2.1 r.2.2).1, u.2 + (u.1.carry n w r.1 r.2.1 r.2.2).2)) u).1.mem = true := by
    intro l
    induction l with
    | nil => intro u hu; exact hu
    | cons y l ih => intro u hu; exact ih _ (wf_carry _ _ _ _ _ _ hu)
  exact h _ _ hw

theorem wf_writeTensor (s : State) (k n : Nat) (w : Walk) (tile : Nat) (r : Trans) (es : List Elem) (hw : memWf s.mem = true) :
    memWf (s.writeTensor k n w tile r es).mem = true := by
  unfold State.writeTensor
  extract_lets scale nb later place live spans t u
  split
  · exact hw
  · have ht : memWf t.mem = true := wf_putAll _ _ _ _ _ (wf_foldl _ _ (fun _ _ h => wf_keepOlds _ _ _ h) _ (wf_dropPacket _ _ hw))
    have hu : memWf u.1.mem = true := by
      unfold u
      split
      · exact wf_carryAll _ _ _ _ ht
      · exact ht
    exact wf_setWalk _ _ _ hu

theorem wf_writeSpad (s : State) (k n : Nat) (w : Walk) (es : List Elem) (hw : memWf s.mem = true) : memWf (State.writeSpad s k n w es).mem = true := by
  unfold State.writeSpad
  try dsimp only
  repeat' (first | with_reducible assumption | with_reducible apply wf_putAll | with_reducible apply wf_setWalk | with_reducible apply wf_dropPacket )

theorem wf_movesWrite (s : State) (k n : Nat) (w : Walk) (tile : Nat) (es : List Elem) (hw : memWf s.mem = true) : memWf (State.movesWrite s k n w tile es).mem = true := by
  unfold State.movesWrite
  try dsimp only
  repeat' (first | with_reducible assumption | with_reducible apply wf_writeSpad | with_reducible apply wf_writeTensor  | with_reducible apply memWf_memWriteN | with_reducible apply memWf_memClear | with_reducible apply memWf_filter | with_reducible apply wf_ite | split)

theorem wf_movesArrive (s : State) (k : Nat) (p : Packet) (hw : memWf s.mem = true) : memWf (State.movesArrive s k p).mem = true := by
  unfold State.movesArrive
  try dsimp only
  repeat' (first | with_reducible assumption | with_reducible apply wf_movesWrite | with_reducible apply wf_movesPass | with_reducible apply wf_movesRead | with_reducible apply wf_dropPacket  | with_reducible apply memWf_memWriteN | with_reducible apply memWf_memClear | with_reducible apply memWf_filter | with_reducible apply wf_ite | split)

theorem wf_walkMove (s : State) (n : Nat) (ms : List Nat) (hw : memWf s.mem = true) : memWf (State.walkMove s n ms).mem = true := by
  unfold State.walkMove
  try dsimp only
  repeat' (first | with_reducible assumption | with_reducible apply wf_movesArrive | with_reducible apply wf_startMoves  | with_reducible apply memWf_memWriteN | with_reducible apply memWf_memClear | with_reducible apply memWf_filter | with_reducible apply wf_ite | split)

theorem wf_dimensionEndSignal (s : State) (n j r t : Nat) (hw : memWf s.mem = true) : memWf (State.dimensionEndSignal s n j r t).mem = true := by
  unfold State.dimensionEndSignal
  try dsimp only
  repeat' (first | with_reducible assumption | with_reducible apply wf_setWalk | refine wf_sig (by assumption) ?_ | with_reducible apply wf_sendSignal | with_reducible apply wf_bindTo  | with_reducible apply memWf_memWriteN | with_reducible apply memWf_memClear | with_reducible apply memWf_filter | with_reducible apply wf_ite | split)

theorem wf_finalSignal (s : State) (n : Nat) (hw : memWf s.mem = true) : memWf (State.finalSignal s n).mem = true := by
  unfold State.finalSignal
  try dsimp only
  repeat' (first | with_reducible assumption | with_reducible apply wf_dropWalk | with_reducible apply wf_setWalk | with_reducible apply wf_sendSignal | with_reducible apply wf_finishCmd | with_reducible apply wf_bindTo  | with_reducible apply memWf_memWriteN | with_reducible apply memWf_memClear | with_reducible apply memWf_filter | with_reducible apply wf_ite | split)

theorem wf_refusedFault (s : State) (p : Packet) (hw : memWf s.mem = true) : memWf (State.refusedFault s p).mem = true := by
  unfold State.refusedFault
  try dsimp only
  repeat' (first | with_reducible assumption | with_reducible apply wf_addFault  )

theorem wf_refuseOne (s : State) (p : Packet) (hw : memWf s.mem = true) : memWf (State.refuseOne s p).mem = true := by
  unfold State.refuseOne
  try dsimp only
  repeat' (first | with_reducible assumption | with_reducible apply wf_refusedFault | with_reducible apply wf_failCmd | with_reducible apply memWf_memWriteN | with_reducible apply memWf_memClear | with_reducible apply memWf_filter | with_reducible apply wf_ite )

theorem wf_twcanComplete (s : State) (k : Nat) (hw : memWf s.mem = true) : memWf (State.twcanComplete s k).mem = true := by
  unfold State.twcanComplete
  try dsimp only
  repeat' (first | with_reducible assumption | with_reducible apply wf_refuseOne | with_reducible apply wf_dropWalk | with_reducible apply wf_setWalk | refine wf_twcan (by assumption) ?_ | with_reducible apply wf_completeAt | with_reducible apply wf_writeReply | with_reducible apply wf_dropPacket | with_reducible apply wf_finishCmd | with_reducible apply wf_bindTo | (apply wf_foldl; intro _ _ _) | with_reducible apply memWf_memWriteN | with_reducible apply memWf_memClear | with_reducible apply memWf_filter | with_reducible apply wf_ite | split)

theorem wf_replicaWriteApply (s : State) (k : Nat) (hw : memWf s.mem = true) : memWf (State.replicaWriteApply s k).mem = true := by
  unfold State.replicaWriteApply
  try dsimp only
  repeat' (first | with_reducible assumption | with_reducible apply wf_walkFault | with_reducible apply wf_setWalk | with_reducible apply wf_keepOlds | with_reducible apply wf_dropPacket | with_reducible apply wf_addPoison | with_reducible apply wf_writeBytes  | with_reducible apply memWf_memWriteN | with_reducible apply memWf_memClear | with_reducible apply memWf_filter | with_reducible apply wf_ite | split)

theorem wf_routerHop (s : State) (k : Nat) (hw : memWf s.mem = true) : memWf (State.routerHop s k).mem = true := by
  unfold State.routerHop
  try dsimp only
  repeat' (first | with_reducible assumption   | with_reducible apply memWf_memWriteN | with_reducible apply memWf_memClear | with_reducible apply memWf_filter | with_reducible apply wf_ite | split)

theorem wf_sendFlit (s : State) (x y port : Nat) (order : List Nat) (hw : memWf s.mem = true) : memWf (State.sendFlit s x y port order).mem = true := by
  unfold State.sendFlit
  try dsimp only
  repeat' (first | with_reducible assumption | with_reducible apply wf_setPacket  | with_reducible apply memWf_memWriteN | with_reducible apply memWf_memClear | with_reducible apply memWf_filter | with_reducible apply wf_ite | split)

theorem wf_linkFlitSend (s : State) (x y port : Nat) (hw : memWf s.mem = true) : memWf (State.linkFlitSend s x y port).mem = true := by
  unfold State.linkFlitSend
  try dsimp only
  repeat' (first | with_reducible assumption | with_reducible apply wf_sendFlit | with_reducible apply memWf_memWriteN | with_reducible apply memWf_memClear | with_reducible apply memWf_filter | with_reducible apply wf_ite )

theorem wf_takeEntry (s : State) (k : Nat) (p : Packet) (hw : memWf s.mem = true) : memWf (State.takeEntry s k p).mem = true := by
  unfold State.takeEntry
  try dsimp only
  repeat' (first | with_reducible assumption | with_reducible apply wf_setPacket | with_reducible apply wf_modPart  | with_reducible apply memWf_memWriteN | with_reducible apply memWf_memClear | with_reducible apply memWf_filter | with_reducible apply wf_ite | split)

theorem wf_spliceEgressEnter (s : State) (k : Nat) (hw : memWf s.mem = true) : memWf (State.spliceEgressEnter s k).mem = true := by
  unfold State.spliceEgressEnter
  try dsimp only
  repeat' (first | with_reducible assumption | with_reducible apply wf_takeEntry | refine wf_atomic (by assumption) ?_ | with_reducible apply wf_setPacket | (apply wf_foldl; intro _ _ _) | with_reducible apply memWf_memWriteN | with_reducible apply memWf_memClear | with_reducible apply memWf_filter | with_reducible apply wf_ite | split)

theorem wf_deliver (s : State) (k : Nat) (p : Packet) (hw : memWf s.mem = true) : memWf (State.deliver s k p).mem = true := by
  unfold State.deliver
  try dsimp only
  repeat' (first | with_reducible assumption | with_reducible apply wf_setPacket  )

theorem wf_spliceIngressDeliver (s : State) (p i : Nat) (hw : memWf s.mem = true) : memWf (State.spliceIngressDeliver s p i).mem = true := by
  unfold State.spliceIngressDeliver
  try dsimp only
  repeat' (first | with_reducible assumption | with_reducible apply wf_deliver | with_reducible apply wf_modPart  | with_reducible apply memWf_memWriteN | with_reducible apply memWf_memClear | with_reducible apply memWf_filter | with_reducible apply wf_ite | split)

theorem wf_crossbarGrant (s : State) (die out : Nat) (hw : memWf s.mem = true) : memWf (State.crossbarGrant s die out).mem = true := by
  unfold State.crossbarGrant
  try dsimp only
  repeat' (first | with_reducible assumption | with_reducible apply wf_granted | with_reducible apply wf_setPacket | with_reducible apply wf_modDie  | with_reducible apply memWf_memWriteN | with_reducible apply memWf_memClear | with_reducible apply memWf_filter | with_reducible apply wf_ite | split)

theorem wf_hbmRequestStart (s : State) (die ch : Nat) (hw : memWf s.mem = true) : memWf (State.hbmRequestStart s die ch).mem = true := by
  unfold State.hbmRequestStart
  try dsimp only
  repeat' (first | with_reducible assumption | with_reducible apply wf_setWalk | with_reducible apply wf_modDie  | with_reducible apply memWf_memWriteN | with_reducible apply memWf_memClear | with_reducible apply memWf_filter | with_reducible apply wf_ite | split)

theorem wf_spilledRequestApply (s : State) (k : Nat) (hw : memWf s.mem = true) : memWf (s.spilledRequestApply k).mem = true := by
  unfold State.spilledRequestApply
  dsimp only
  repeat' split
  all_goals first
    | exact hw
    | exact wf_setPacket _ _ _ hw
    | next h => exact wf_applyFrameRequest _ _ _ _ _ _ _ (wf_dropPacket _ _ (wf_gatherRequest _ _ _ _ _ (wf_imageRead h hw)))

theorem wf_filled (s : State) (cid : Nat) (hw : memWf s.mem = true) : memWf (State.filled s cid).mem = true := by
  unfold State.filled
  try dsimp only
  repeat' (first | with_reducible assumption | with_reducible apply wf_copyRange | with_reducible apply wf_modCore | with_reducible apply wf_writeW  | with_reducible apply memWf_memWriteN | with_reducible apply memWf_memClear | with_reducible apply memWf_filter | with_reducible apply wf_ite | split)

theorem wf_fillComplete (s : State) (cid : Nat) (hw : memWf s.mem = true) : memWf (s.fillComplete cid).mem = true := by
  unfold State.fillComplete
  repeat' split
  all_goals first
    | exact hw
    | next h => exact wf_filled _ _ (wf_imageRead h hw)

theorem wf_writtenBack (s : State) (cid j : Nat) (hw : memWf s.mem = true) : memWf (State.writtenBack s cid j).mem = true := by
  unfold State.writtenBack
  try dsimp only
  repeat' (first | with_reducible assumption | with_reducible apply wf_copyRange | with_reducible apply wf_modCore | with_reducible apply wf_writeW | (apply wf_foldl; intro _ _ _) )

theorem wf_writeBackComplete (s : State) (cid j : Nat) (hw : memWf s.mem = true) : memWf (s.writeBackComplete cid j).mem = true := by
  unfold State.writeBackComplete
  dsimp only
  split
  · split
    · exact hw
    · next h => exact wf_writtenBack _ _ _ (wf_imageTurn h hw)
  · exact hw

theorem wf_portWordArrival (s : State) (cid dir : Nat) (hw : memWf s.mem = true) : memWf (State.portWordArrival s cid dir).mem = true := by
  unfold State.portWordArrival
  try dsimp only
  repeat' (first | with_reducible assumption | with_reducible apply wf_modCore  | with_reducible apply memWf_memWriteN | with_reducible apply memWf_memClear | with_reducible apply memWf_filter | with_reducible apply wf_ite | split)

theorem wf_packetRefused (s : State) (k : Nat) (hw : memWf s.mem = true) : memWf (State.packetRefused s k).mem = true := by
  unfold State.packetRefused
  try dsimp only
  repeat' (first | with_reducible assumption | with_reducible apply wf_refuseOne | with_reducible apply wf_walkFault | with_reducible apply wf_dropMcmd | refine wf_atomic (by assumption) ?_ | with_reducible apply wf_dropPacket | (apply wf_foldl; intro _ _ _) | with_reducible apply memWf_memWriteN | with_reducible apply memWf_memClear | with_reducible apply memWf_filter | with_reducible apply wf_ite | split)

theorem wf_makeRoom {s t : State} {p d : Nat} (e : s.makeRoom p d = some t) (hw : memWf s.mem = true) : memWf t.mem = true := by
  unfold State.makeRoom at e
  split at e
  · cases e; exact hw
  · rw [Option.map_eq_some_iff] at e
    obtain ⟨_, _, rfl⟩ := e
    exact hw

theorem wf_interrupt (s : State) (p : Nat) (hw : memWf s.mem = true) : memWf (State.interrupt s p).mem = true := by
  unfold State.interrupt
  try dsimp only
  repeat' (first | with_reducible assumption | with_reducible apply memWf_memWriteN | with_reducible apply memWf_memClear | with_reducible apply memWf_filter | with_reducible apply wf_ite )

theorem wf_writeRecord (s : State) (p addr : Nat) (handle tag : Word) (reason : Nat) (hw : memWf s.mem = true) : memWf (State.writeRecord s p addr handle tag reason).mem = true := by
  unfold State.writeRecord
  try dsimp only
  repeat' (first | with_reducible assumption | with_reducible apply wf_interrupt | with_reducible apply wf_writeW | with_reducible apply memWf_memWriteN | with_reducible apply memWf_memClear | with_reducible apply memWf_filter | with_reducible apply wf_ite )

theorem wf_recordTurn {s t : State} {i : Inst} (e : s.recordTurn i = some t) (hw : memWf s.mem = true) : memWf t.mem = true := by
  unfold State.recordTurn at e
  split at e
  · exact wf_agentAccess e hw
  · cases e; exact hw

theorem wf_mapCores (s : State) (g : Nat → Core → Core) (hw : memWf s.mem = true) : memWf (State.mapCores s g).mem = true := by
  unfold State.mapCores
  try dsimp only
  repeat' (first | with_reducible assumption   )

theorem wf_dropPace (s : State) (p : Nat) (hw : memWf s.mem = true) : memWf (State.dropPace s p).mem = true := by
  unfold State.dropPace
  try dsimp only
  repeat' (first | with_reducible assumption | with_reducible apply wf_mapCores  )

theorem wf_endRecord (s : State) (k : Nat) (i : Inst) (reason : Nat) (hw : memWf s.mem = true) : memWf (s.endRecord k i reason).mem = true := by
  unfold State.endRecord
  dsimp only
  repeat' split
  · next h => have := wf_makeRoom h hw; exact this
  · exact hw
  · exact wf_unpin _ hw

theorem wf_endInst (s : State) (k : Nat) (i : Inst) (reason : Nat) (hw : memWf s.mem = true) : memWf (State.endInst s k i reason).mem = true := by
  unfold State.endInst
  try dsimp only
  repeat' (first | with_reducible assumption | with_reducible apply wf_endRecord | with_reducible apply wf_dropPace | with_reducible apply wf_writeRecord | with_reducible apply wf_dropPacket | with_reducible apply wf_sendReply | with_reducible apply wf_sendSignal | with_reducible apply wf_modPart | with_reducible apply wf_bindTo | (apply wf_foldl; intro _ _ _) | with_reducible apply memWf_memWriteN | with_reducible apply memWf_memClear | with_reducible apply memWf_filter | with_reducible apply wf_ite | split)

theorem wf_dropHeld (s : State) (k : Nat) (hw : memWf s.mem = true) : memWf (State.dropHeld s k).mem = true := by
  unfold State.dropHeld
  try dsimp only
  repeat' (first | with_reducible assumption | with_reducible apply wf_mapCores | with_reducible apply wf_dropPacket | with_reducible apply wf_finishCmd | (apply wf_foldl; intro _ _ _) | with_reducible apply memWf_memWriteN | with_reducible apply memWf_memClear | with_reducible apply memWf_filter | with_reducible apply wf_ite | split)

theorem wf_stopInst (s : State) (k n : Nat) (hw : memWf s.mem = true) : memWf (State.stopInst s k n).mem = true := by
  unfold State.stopInst
  try dsimp only
  repeat' (first | with_reducible assumption | with_reducible apply wf_dropHeld | with_reducible apply wf_mapCores | with_reducible apply wf_setInst  | with_reducible apply memWf_memWriteN | with_reducible apply memWf_memClear | with_reducible apply memWf_filter | with_reducible apply wf_ite | split)

theorem wf_freeFrames (s : State) (k : Nat) (hw : memWf s.mem = true) : memWf (State.freeFrames s k).mem = true := by
  unfold State.freeFrames
  try dsimp only
  repeat' (first | with_reducible assumption | with_reducible apply wf_mapCores | with_reducible apply wf_clearFrame | (apply wf_foldl; intro _ _ _) | with_reducible apply memWf_memWriteN | with_reducible apply memWf_memClear | with_reducible apply memWf_filter | with_reducible apply wf_ite )

theorem wf_instanceEnd (s : State) (k : Nat) (hw : memWf s.mem = true) : memWf (State.instanceEnd s k).mem = true := by
  unfold State.instanceEnd
  try dsimp only
  repeat' (first | with_reducible assumption | with_reducible apply wf_freeFrames | with_reducible apply wf_endInst | refine wf_recordTurn (by assumption) ?_  | with_reducible apply memWf_memWriteN | with_reducible apply memWf_memClear | with_reducible apply memWf_filter | with_reducible apply wf_ite | split)

theorem wf_failStart (s : State) (k : Nat) (i : Inst) (code : Code) (hw : memWf s.mem = true) : memWf (State.failStart s k i code).mem = true := by
  unfold State.failStart
  try dsimp only
  repeat' (first | with_reducible assumption | with_reducible apply wf_endInst | with_reducible apply wf_addFault  )

theorem wf_leaseTurn {s t : State} {i : Inst} {g : Graph} (e : s.leaseTurn i g = some t) (hw : memWf s.mem = true) : memWf t.mem = true := by
  unfold State.leaseTurn at e
  dsimp only at e
  split at e
  · cases e; exact hw
  · obtain ⟨u, h, e⟩ := Option.bind_eq_some_iff.1 e
    exact wf_takeTurn e (wf_bindFold _ _ (fun _ _ _ => wf_agentAccess) _ (fun _ h => by cases h; exact hw) _ h)

theorem wf_sawLeases (s : State) (i : Inst) (g : Graph) (hw : memWf s.mem = true) : memWf (State.sawLeases s i g).mem = true := by
  unfold State.sawLeases
  try dsimp only
  repeat' (first | with_reducible assumption | with_reducible apply wf_saw | (apply wf_foldl; intro _ _ _) )

theorem wf_askLaunchEntry (s : State) (k : Nat) (i : Inst) (a : Nat) (hw : memWf s.mem = true) : memWf (State.askLaunchEntry s k i a).mem = true := by
  unfold State.askLaunchEntry
  try dsimp only
  repeat' (first | with_reducible assumption | with_reducible apply wf_send | with_reducible apply memWf_memWriteN | with_reducible apply memWf_memClear | with_reducible apply memWf_filter | with_reducible apply wf_ite )

theorem wf_launchEntryArrive (s : State) (n k : Nat) (p : Packet) (hw : memWf s.mem = true) : memWf (State.launchEntryArrive s n k p).mem = true := by
  unfold State.launchEntryArrive
  try dsimp only
  repeat' (first | with_reducible assumption | with_reducible apply wf_tableArrive | with_reducible apply wf_dropPacket | with_reducible apply wf_modInst  | with_reducible apply memWf_memWriteN | with_reducible apply memWf_memClear | with_reducible apply memWf_filter | with_reducible apply wf_ite | split)

theorem wf_dropFromLinks (s : State) (ks : List Nat) (hw : memWf s.mem = true) : memWf (State.dropFromLinks s ks).mem = true := by
  unfold State.dropFromLinks
  try dsimp only
  repeat' (first | with_reducible assumption   )

theorem wf_startPace (s : State) (p : Nat) (g : Graph) (hw : memWf s.mem = true) : memWf (State.startPace s p g).mem = true := by
  unfold State.startPace
  try dsimp only
  repeat' (first | with_reducible assumption | with_reducible apply wf_dropFromLinks | with_reducible apply wf_settlePace | with_reducible apply wf_modCore | (apply wf_foldl; intro _ _ _) | with_reducible apply memWf_memWriteN | with_reducible apply memWf_memClear | with_reducible apply memWf_filter | with_reducible apply wf_ite | split)

theorem wf_agentTurn {s t : State} {l : Loc} (e : s.agentTurn l = some t) (hw : memWf s.mem = true) : memWf t.mem = true := wf_takeTurn e hw

theorem wf_copyPiece (s : State) (k : Nat) (i : Inst) (hw : memWf s.mem = true) : memWf (State.copyPiece s k i).mem = true := by
  unfold State.copyPiece
  try dsimp only
  repeat' (first | with_reducible assumption | refine wf_agentTurn (by assumption) ?_ | with_reducible apply wf_setInst | with_reducible apply wf_writeBytes  | with_reducible apply memWf_memWriteN | with_reducible apply memWf_memClear | with_reducible apply memWf_filter | with_reducible apply wf_ite | split)

theorem wf_startRoot (s : State) (k : Nat) (i : Inst) (cid cb : Nat) (hw : memWf s.mem = true) : memWf (State.startRoot s k i cid cb).mem = true := by
  unfold State.startRoot
  try dsimp only
  repeat' (first | with_reducible assumption | with_reducible apply wf_failStart | with_reducible apply wf_writeFrame | with_reducible apply wf_freshFrame | with_reducible apply wf_signalSlot | with_reducible apply wf_setInst | with_reducible apply wf_bindTo | with_reducible apply wf_writeW | (apply wf_foldl; intro _ _ _) | with_reducible apply memWf_memWriteN | with_reducible apply memWf_memClear | with_reducible apply memWf_filter | with_reducible apply wf_ite | split)

theorem wf_rootTurn {s t : State} {i : Inst} {root : Nat} (e : s.rootTurn i root = some t) (hw : memWf s.mem = true) : memWf t.mem = true := by
  obtain ⟨u, h, e⟩ := Option.bind_eq_some_iff.1 e
  have hu := wf_agentTurn h hw
  split at e
  · exact wf_recordTurn e hu
  split at e
  · exact wf_recordTurn e hu
  · exact wf_frameTurn e hu

theorem wf_castAt (s : State) (d k : Nat) (hw : memWf s.mem = true) : memWf (State.castAt s d k).mem = true := by
  unfold State.castAt
  try dsimp only
  repeat' (first | with_reducible assumption | refine wf_rootTurn (by assumption) ?_ | with_reducible apply wf_startRoot | with_reducible apply wf_setInst  | with_reducible apply memWf_memWriteN | with_reducible apply memWf_memClear | with_reducible apply memWf_filter | with_reducible apply wf_ite | split)

theorem wf_forgetTabs (s : State) (k : Nat) (hw : memWf s.mem = true) : memWf (State.forgetTabs s k).mem = true := by
  unfold State.forgetTabs
  try dsimp only
  repeat' (first | with_reducible assumption | with_reducible apply wf_modInst  )

theorem wf_failAtStart (s : State) (k : Nat) (i : Inst) (code : Code) (hw : memWf s.mem = true) : memWf (State.failAtStart s k i code).mem = true := by
  unfold State.failAtStart
  try dsimp only
  repeat' (first | with_reducible assumption | with_reducible apply wf_failStart | refine wf_recordTurn (by assumption) ?_  | with_reducible apply memWf_memWriteN | with_reducible apply memWf_memClear | with_reducible apply memWf_filter | with_reducible apply wf_ite | split)

theorem wf_beginInst (s : State) (k : Nat) (i : Inst) (g : Graph) (hw : memWf s.mem = true) : memWf (State.beginInst s k i g).mem = true := by
  unfold State.beginInst
  try dsimp only
  repeat' (first | with_reducible assumption | with_reducible apply wf_castAt | with_reducible apply wf_startPace | with_reducible apply wf_unquiet | with_reducible apply wf_setInst  )

theorem wf_instanceStart (s : State) (k : Nat) (hw : memWf s.mem = true) : memWf (State.instanceStart s k).mem = true := by
  unfold State.instanceStart
  try dsimp only
  repeat' (first | with_reducible assumption | with_reducible apply wf_beginInst | with_reducible apply wf_failAtStart | with_reducible apply wf_forgetTabs | with_reducible apply wf_castAt | with_reducible apply wf_copyPiece | with_reducible apply wf_launchEntryArrive | with_reducible apply wf_askLaunchEntry | with_reducible apply wf_sawLeases | refine wf_leaseTurn (by assumption) ?_ | refine wf_makeRoom (by assumption) ?_  | with_reducible apply memWf_memWriteN | with_reducible apply memWf_memClear | with_reducible apply memWf_filter | with_reducible apply wf_ite | split)

theorem wf_launchRequest (s : State) (n : Nat) (hw : memWf s.mem = true) : memWf (State.launchRequest s n).mem = true := by
  unfold State.launchRequest
  try dsimp only
  repeat' (first | with_reducible assumption | with_reducible apply wf_dropPacket | with_reducible apply wf_modInst | with_reducible apply wf_bindTo  | with_reducible apply memWf_memWriteN | with_reducible apply memWf_memClear | with_reducible apply memWf_filter | with_reducible apply wf_ite | split)

theorem wf_creditLend (s : State) (d p : Nat) (hw : memWf s.mem = true) : memWf (State.creditLend s d p).mem = true := by
  unfold State.creditLend
  try dsimp only
  repeat' (first | with_reducible assumption | with_reducible apply wf_modCluster | (apply wf_foldl; intro _ _ _) | with_reducible apply memWf_memWriteN | with_reducible apply memWf_memClear | with_reducible apply memWf_filter | with_reducible apply wf_ite | split)

theorem wf_glaunch {f : WForm} {s0 : State} {u_ : State} (e : State.glaunch f s0 = .ok u_) (hw : memWf s0.mem = true) : memWf u_.mem = true := by
  unfold State.glaunch at e
  try dsimp only at e
  repeat' (first | (with_reducible replace e := bind_ok e; obtain ⟨_, _, e⟩ := e) | split at e)
  all_goals repeat' (first | with_reducible assumption | exact wf_error e | refine wf_writeS (by assumption) ?_ | refine wf_readS (by assumption) ?_ | refine wf_pureS (by assumption) ?_ | refine wf_okS (by assumption) ?_ | refine wf_pureR (by assumption) ?_ | refine wf_okR (by assumption) ?_ | refine wf_newCmd_eq (by assumption) ?_ | with_reducible apply wf_writeP )

theorem wf_askRecord {minor : Nat} {f : WForm} {s0 : State} {u_ : State} (e : State.askRecord minor f s0 = .ok u_) (hw : memWf s0.mem = true) : memWf u_.mem = true := by
  unfold State.askRecord at e
  try dsimp only at e
  repeat' (first | (with_reducible replace e := bind_ok e; obtain ⟨_, _, e⟩ := e) | split at e)
  all_goals repeat' (first | with_reducible assumption | exact wf_error e | refine wf_readS (by assumption) ?_ | refine wf_pureS (by assumption) ?_ | refine wf_okS (by assumption) ?_ | refine wf_pureR (by assumption) ?_ | refine wf_okR (by assumption) ?_ | refine wf_newCmd_eq (by assumption) ?_ | refine wf_readS (by assumption) ?_ | with_reducible apply wf_send | with_reducible apply wf_newCmd )

theorem wf_gqueryRequest (s : State) (n : Nat) (hw : memWf s.mem = true) : memWf (State.gqueryRequest s n).mem = true := by
  unfold State.gqueryRequest
  try dsimp only
  repeat' (first | with_reducible assumption | with_reducible apply wf_dropPacket | with_reducible apply wf_sendReply  | with_reducible apply memWf_memWriteN | with_reducible apply memWf_memClear | with_reducible apply memWf_filter | with_reducible apply wf_ite | split)

theorem wf_gcanRequest (s : State) (n : Nat) (hw : memWf s.mem = true) : memWf (State.gcanRequest s n).mem = true := by
  unfold State.gcanRequest
  try dsimp only
  repeat' (first | with_reducible assumption | with_reducible apply wf_stopInst | with_reducible apply wf_endInst | refine wf_recordTurn (by assumption) ?_ | with_reducible apply wf_setPacket | with_reducible apply wf_dropPacket | with_reducible apply wf_sendReply | with_reducible apply wf_finishCmd | with_reducible apply wf_setInst  | with_reducible apply memWf_memWriteN | with_reducible apply memWf_memClear | with_reducible apply memWf_filter | with_reducible apply wf_ite | split)

theorem wf_subqBase (s : State) (p : Nat) (v : Word) (hw : memWf s.mem = true) : memWf (State.subqBase s p v).mem = true := by
  unfold State.subqBase
  try dsimp only
  repeat' (first | with_reducible assumption | with_reducible apply wf_modPart | with_reducible apply memWf_memWriteN | with_reducible apply memWf_memClear | with_reducible apply memWf_filter | with_reducible apply wf_ite )

theorem wf_subqLog (s : State) (p : Nat) (v : Word) (hw : memWf s.mem = true) : memWf (State.subqLog s p v).mem = true := by
  unfold State.subqLog
  try dsimp only
  repeat' (first | with_reducible assumption | with_reducible apply wf_modPart | with_reducible apply memWf_memWriteN | with_reducible apply memWf_memClear | with_reducible apply memWf_filter | with_reducible apply wf_ite )

theorem wf_subqTail (s : State) (p : Nat) (v : Word) (hw : memWf s.mem = true) : memWf (State.subqTail s p v).mem = true := by
  unfold State.subqTail
  try dsimp only
  repeat' (first | with_reducible assumption | with_reducible apply wf_modPart | with_reducible apply memWf_memWriteN | with_reducible apply memWf_memClear | with_reducible apply memWf_filter | with_reducible apply wf_ite )

theorem wf_consume (s : State) (p : Nat) (hw : memWf s.mem = true) : memWf (State.consume s p).mem = true := by
  unfold State.consume
  try dsimp only
  repeat' (first | with_reducible assumption | with_reducible apply wf_modPart  )

theorem wf_badEntry (s : State) (p : Nat) (hw : memWf s.mem = true) : memWf (State.badEntry s p).mem = true := by
  unfold State.badEntry
  try dsimp only
  repeat' (first | with_reducible assumption | with_reducible apply wf_consume | with_reducible apply wf_writeRecord | with_reducible apply wf_modPart | with_reducible apply wf_publish  )

theorem wf_goodEntry (s : State) (p : Nat) (hw : memWf s.mem = true) : memWf (State.goodEntry s p).mem = true := by
  unfold State.goodEntry
  try dsimp only
  repeat' (first | with_reducible assumption | with_reducible apply wf_consume | with_reducible apply wf_setInst | with_reducible apply wf_modPart | with_reducible apply wf_publish  )

theorem wf_entryTurn {s t : State} {p : Nat} {bad : Bool} (e : s.entryTurn p bad = some t) (hw : memWf s.mem = true) : memWf t.mem = true := by
  unfold State.entryTurn at e
  obtain ⟨u, h, e⟩ := Option.bind_eq_some_iff.1 e
  split at e
  · exact wf_agentAccess e (wf_agentRead h hw)
  · cases e; exact wf_agentRead h hw

theorem wf_submissionEntryRead (s : State) (p : Nat) (hw : memWf s.mem = true) : memWf (s.submissionEntryRead p).mem = true := by
  unfold State.submissionEntryRead
  dsimp only
  split
  · exact hw
  split
  · exact hw
  · next h =>
    split
    · exact wf_badEntry _ _ (wf_entryTurn h hw)
    · exact wf_goodEntry _ _ (wf_entryTurn h hw)

theorem wf_loadCode (s : State) (ks : List Nat) (code : List (BitVec 32)) (hw : memWf s.mem = true) : memWf (State.loadCode s ks code).mem = true := by
  unfold State.loadCode
  try dsimp only
  repeat' (first | with_reducible assumption | (apply wf_foldl; intro _ _ _) | with_reducible apply memWf_memWriteN )

theorem wf_imageLoad (s : State) (p : Nat) (im : Image) (hw : memWf s.mem = true) : memWf (State.imageLoad s p im).mem = true := by
  unfold State.imageLoad
  try dsimp only
  repeat' (first | with_reducible assumption | with_reducible apply wf_loadCode | with_reducible apply wf_modPart | with_reducible apply memWf_memWriteN | with_reducible apply memWf_memClear | with_reducible apply memWf_filter | with_reducible apply wf_ite )

theorem wf_placementEntryWrite (s : State) (p cb : Nat) (w0 w1 : Word) (hw : memWf s.mem = true) : memWf (State.placementEntryWrite s p cb w0 w1).mem = true := by
  unfold State.placementEntryWrite
  try dsimp only
  repeat' (first | with_reducible assumption | with_reducible apply wf_modPart | with_reducible apply memWf_memWriteN | with_reducible apply memWf_memClear | with_reducible apply memWf_filter | with_reducible apply wf_ite )

theorem wf_onDie (s : State) (d : Nat) (g : Die → Die) (hw : memWf s.mem = true) : memWf (State.onDie s d g).mem = true := by
  unfold State.onDie
  try dsimp only
  repeat' (first | with_reducible assumption | with_reducible apply wf_modDie | with_reducible apply memWf_memWriteN | with_reducible apply memWf_memClear | with_reducible apply memWf_filter | with_reducible apply wf_ite )

theorem wf_evict (s : State) (p : Nat) (hw : memWf s.mem = true) : memWf (State.evict s p).mem = true := by
  unfold State.evict
  try dsimp only
  repeat' (first | with_reducible assumption | with_reducible apply wf_badEntry | with_reducible apply wf_consume | with_reducible apply wf_stopInst | with_reducible apply wf_endInst | with_reducible apply wf_mapCores | with_reducible apply wf_writeRecord | with_reducible apply wf_interrupt | with_reducible apply wf_modPart | (apply wf_foldl; intro _ _ _) | with_reducible apply memWf_memWriteN | with_reducible apply memWf_memClear | with_reducible apply memWf_filter | with_reducible apply wf_ite )

theorem wf_commitPart (s : State) (p : Nat) (hw : memWf s.mem = true) : memWf (State.commitPart s p).mem = true := by
  unfold State.commitPart
  try dsimp only
  repeat' (first | with_reducible assumption | with_reducible apply wf_evict | with_reducible apply wf_modPart | with_reducible apply memWf_memWriteN | with_reducible apply memWf_memClear | with_reducible apply memWf_filter | with_reducible apply wf_ite )

theorem wf_clearShares (s : State) (sh : List (Nat × Nat)) (hw : memWf s.mem = true) : memWf (State.clearShares s sh).mem = true := by
  unfold State.clearShares
  try dsimp only
  repeat' (first | with_reducible assumption | refine wf_atomic (by assumption) ?_ | with_reducible apply memWf_memWriteN | with_reducible apply memWf_memClear | with_reducible apply memWf_filter )

theorem wf_commit (s : State) (v : Word) (hw : memWf s.mem = true) : memWf (State.commit s v).mem = true := by
  unfold State.commit
  try dsimp only
  repeat' (first | with_reducible assumption | with_reducible apply wf_clearShares | with_reducible apply wf_commitPart | with_reducible apply wf_modMgmt | with_reducible apply wf_modDie | (apply wf_foldl; intro _ _ _) | with_reducible apply memWf_memWriteN | with_reducible apply memWf_memClear | with_reducible apply memWf_filter | with_reducible apply wf_ite )

theorem wf_freshCode (s : State) (hw : memWf s.mem = true) : memWf (State.freshCode s).mem = true := by
  unfold State.freshCode
  try dsimp only
  repeat' (first | with_reducible assumption | with_reducible apply wf_loadCode | (apply wf_foldl; intro _ _ _) | with_reducible apply memWf_memWriteN | with_reducible apply memWf_memClear | with_reducible apply memWf_filter | with_reducible apply wf_ite | split)

theorem wf_freshDescs (s : State) (hw : memWf s.mem = true) : memWf (State.freshDescs s).mem = true := by
  unfold State.freshDescs
  try dsimp only
  repeat' (first | with_reducible assumption   )

theorem wf_freshBases (s : State) (hw : memWf s.mem = true) : memWf (State.freshBases s).mem = true := by
  unfold State.freshBases
  try dsimp only
  repeat' (first | with_reducible assumption   )

theorem wf_retire (s0 : State) (hw : memWf s0.mem = true) : memWf (State.retire s0).mem = true := by
  unfold State.retire
  try dsimp only
  repeat' (first | with_reducible assumption | with_reducible apply wf_freshBases | with_reducible apply wf_freshDescs | with_reducible apply wf_freshCode | with_reducible apply wf_clearShares | with_reducible apply wf_modMgmt  )

theorem wf_drainMessage (s : State) (d : Nat) (hw : memWf s.mem = true) : memWf (State.drainMessage s d).mem = true := by
  unfold State.drainMessage
  try dsimp only
  repeat' (first | with_reducible assumption | with_reducible apply wf_retire | with_reducible apply wf_modDie | with_reducible apply memWf_memWriteN | with_reducible apply memWf_memClear | with_reducible apply memWf_filter | with_reducible apply wf_ite )

theorem wf_clearingComplete (s : State) (p : Nat) (hw : memWf s.mem = true) : memWf (State.clearingComplete s p).mem = true := by
  unfold State.clearingComplete
  try dsimp only
  repeat' (first | with_reducible assumption | with_reducible apply wf_modPart | with_reducible apply memWf_memWriteN | with_reducible apply memWf_memClear | with_reducible apply memWf_filter | with_reducible apply wf_ite )

theorem wf_spillFrames (s : State) (p : Nat) (v : Word) (hw : memWf s.mem = true) : memWf (State.spillFrames s p v).mem = true := by
  unfold State.spillFrames
  try dsimp only
  repeat' (first | with_reducible assumption | with_reducible apply wf_modPart | with_reducible apply memWf_memWriteN | with_reducible apply memWf_memClear | with_reducible apply memWf_filter | with_reducible apply wf_ite )

theorem wf_spillBase (s : State) (p d : Nat) (v : Word) (hw : memWf s.mem = true) : memWf (State.spillBase s p d v).mem = true := by
  unfold State.spillBase
  try dsimp only
  repeat' (first | with_reducible assumption | with_reducible apply wf_modPart | with_reducible apply memWf_memWriteN | with_reducible apply memWf_memClear | with_reducible apply memWf_filter | with_reducible apply wf_ite )

theorem wf_migSend (s : State) (p src a stage off : Nat) (bs : List Byte) (pois : List Nat) (hw : memWf s.mem = true) : memWf (State.migSend s p src a stage off bs pois).mem = true := by
  unfold State.migSend
  try dsimp only
  repeat' (first | with_reducible assumption | with_reducible apply wf_send  )

theorem wf_migStop (s : State) (p cause : Nat) (hw : memWf s.mem = true) : memWf (State.migStop s p cause).mem = true := by
  unfold State.migStop
  try dsimp only
  repeat' (first | with_reducible assumption | with_reducible apply wf_modPart  )

theorem wf_migGo (s : State) (p : Nat) (v : Word) (hw : memWf s.mem = true) : memWf (State.migGo s p v).mem = true := by
  unfold State.migGo
  try dsimp only
  repeat' (first | with_reducible assumption | with_reducible apply wf_migSend | with_reducible apply wf_modPart  | with_reducible apply memWf_memWriteN | with_reducible apply memWf_memClear | with_reducible apply memWf_filter | with_reducible apply wf_ite | split)

theorem wf_migRoot {s t : State} {p : Nat} (e : s.migRoot p = some t) (hw : memWf s.mem = true) : memWf t.mem = true := by
  obtain ⟨u, h, rfl⟩ := Option.map_eq_some_iff.1 e
  have hu := wf_agentRead h hw
  dsimp only
  split
  · exact wf_migStop _ _ _ (wf_publish _ _ _ hu)
  · exact wf_migSend _ _ _ _ _ _ _ _ (wf_modPart _ _ _ (wf_publish _ _ _ hu))

theorem wf_migEntry {s t : State} {p : Nat} (e : s.migEntry p = some t) (hw : memWf s.mem = true) : memWf t.mem = true := by
  obtain ⟨u, h, rfl⟩ := Option.map_eq_some_iff.1 e
  have hu := wf_publish _ (hbmKey (s.part p).mig.entry) 8 (wf_agentRead h hw)
  dsimp only
  repeat' split
  all_goals first
    | exact wf_migStop _ _ _ hu
    | exact wf_migSend _ _ _ _ _ _ _ _ (wf_modPart _ _ _ (wf_writeW _ _ _ hu))

theorem wf_migRead {s t : State} {p off : Nat} {copied : Bool} (e : s.migRead p off copied = some t) (hw : memWf s.mem = true) :
    memWf t.mem = true := by
  unfold State.migRead at e
  dsimp only at e
  repeat' split at e
  · cases e
  · cases e; exact wf_migSend _ _ _ _ _ _ _ _ hw
  · cases e; exact wf_migSend _ _ _ _ _ _ _ _ hw
  · obtain ⟨u, h, rfl⟩ := Option.map_eq_some_iff.1 e
    exact wf_migSend _ _ _ _ _ _ _ _ (wf_publish _ _ _ (wf_agentRead h hw))

theorem wf_migWrite {s t : State} {p off : Nat} {bs : List Byte} {pois : List Nat} (e : s.migWrite p off bs pois = some t)
    (hw : memWf s.mem = true) : memWf t.mem = true := by
  obtain ⟨u, h, rfl⟩ := Option.map_eq_some_iff.1 e
  exact wf_migSend _ _ _ _ _ _ _ _ (wf_modPart _ _ _ (wf_foldl _ _ (fun t w h => wf_addPoison _ _ _ h) _ (wf_writeBytes _ _ _ (wf_dieAgentTurn h hw))))

theorem wf_migFinish {s t : State} {p : Nat} (e : s.migFinish p = some t) (hw : memWf s.mem = true) : memWf t.mem = true := by
  obtain ⟨u, h, rfl⟩ := Option.map_eq_some_iff.1 e
  refine wf_modPart _ _ _ ?_
  exact wf_writeW _ _ _ (wf_dieAgentTurn h hw)

theorem wf_migAbort {s t : State} {p : Nat} (e : s.migAbort p = some t) (hw : memWf s.mem = true) : memWf t.mem = true := by
  obtain ⟨u, h, rfl⟩ := Option.map_eq_some_iff.1 e
  exact wf_migStop _ _ _ (wf_writeW _ _ _ (wf_dieAgentTurn h hw))

theorem wf_migrationComplete (s : State) (p : Nat) (copied : Bool) (hw : memWf s.mem = true) :
    memWf (s.migrationComplete p copied).mem = true := by
  unfold State.migrationComplete
  have hd : ∀ (o : Option State), (∀ t, o = some t → memWf t.mem = true) → memWf (o.getD s).mem = true := by
    intro o ho
    cases o with
    | none => exact hw
    | some t => exact ho t rfl
  split
  · exact hw
  dsimp only
  split
  · next k _ _ _ _ _ _ _ _ =>
    have hk := wf_dropPacket s k hw
    refine hd _ (fun t e => ?_)
    split at e
    · exact wf_migRoot e hk
    · exact wf_migEntry e hk
    · exact wf_migRead e hk
    · exact wf_migWrite e hk
    · exact wf_migFinish e hk
    · exact wf_migAbort e hk
  · exact hw

theorem wf_setOrd (s : State) (d j : Nat) (o : Ord) (hw : memWf s.mem = true) : memWf (State.setOrd s d j o).mem = true := by
  unfold State.setOrd
  try dsimp only
  repeat' (first | with_reducible assumption | with_reducible apply wf_modDie  )

theorem wf_ordAddr (s : State) (p d i : Nat) (v : Word) (hw : memWf s.mem = true) : memWf (State.ordAddr s p d i v).mem = true := by
  unfold State.ordAddr
  try dsimp only
  repeat' (first | with_reducible assumption | with_reducible apply wf_setOrd  | with_reducible apply memWf_memWriteN | with_reducible apply memWf_memClear | with_reducible apply memWf_filter | with_reducible apply wf_ite | split)

theorem wf_ordN (s : State) (p d i : Nat) (v : Word) (hw : memWf s.mem = true) : memWf (State.ordN s p d i v).mem = true := by
  unfold State.ordN
  try dsimp only
  repeat' (first | with_reducible assumption | with_reducible apply wf_setOrd  | with_reducible apply memWf_memWriteN | with_reducible apply memWf_memClear | with_reducible apply memWf_filter | with_reducible apply wf_ite | split)

theorem wf_ordArm (s : State) (p d i : Nat) (v : Word) (hw : memWf s.mem = true) : memWf (State.ordArm s p d i v).mem = true := by
  unfold State.ordArm
  try dsimp only
  repeat' (first | with_reducible assumption | with_reducible apply wf_setOrd | with_reducible apply wf_orderedRound | with_reducible apply wf_modPart  | with_reducible apply memWf_memWriteN | with_reducible apply memWf_memClear | with_reducible apply memWf_filter | with_reducible apply wf_ite | split)

theorem wf_faBase (s : State) (p : Nat) (v : Word) (hw : memWf s.mem = true) : memWf (State.faBase s p v).mem = true := by
  unfold State.faBase
  try dsimp only
  repeat' (first | with_reducible assumption | with_reducible apply wf_modPart | with_reducible apply memWf_memWriteN | with_reducible apply memWf_memClear | with_reducible apply memWf_filter | with_reducible apply wf_ite )

theorem wf_faLog (s : State) (p : Nat) (v : Word) (hw : memWf s.mem = true) : memWf (State.faLog s p v).mem = true := by
  unfold State.faLog
  try dsimp only
  repeat' (first | with_reducible assumption | with_reducible apply wf_modPart | with_reducible apply memWf_memWriteN | with_reducible apply memWf_memClear | with_reducible apply memWf_filter | with_reducible apply wf_ite )

theorem wf_preempt (s : State) (p : Nat) (hw : memWf s.mem = true) : memWf (State.preempt s p).mem = true := by
  unfold State.preempt
  try dsimp only
  repeat' (first | with_reducible assumption | with_reducible apply wf_modPart | with_reducible apply memWf_memWriteN | with_reducible apply memWf_memClear | with_reducible apply memWf_filter | with_reducible apply wf_ite )

theorem wf_resume (s : State) (p : Nat) (hw : memWf s.mem = true) : memWf (State.resume s p).mem = true := by
  unfold State.resume
  try dsimp only
  repeat' (first | with_reducible assumption | with_reducible apply wf_modPart | with_reducible apply memWf_memWriteN | with_reducible apply memWf_memClear | with_reducible apply memWf_filter | with_reducible apply wf_ite )

theorem wf_saveTurns {s t : State} {p : Nat} (e : s.saveTurns p = some t) (hw : memWf s.mem = true) : memWf t.mem = true :=
  wf_bindFold _ (fun t (x : Nat × Nat) => t.dieAgentTurn (s.saveAddr p x.1)) (fun _ _ _ => wf_dieAgentTurn) _ (fun _ h => by cases h; exact hw) _ e

theorem wf_writeSaveAreas (s : State) (p : Nat) (hw : memWf s.mem = true) : memWf (State.writeSaveAreas s p).mem = true := by
  unfold State.writeSaveAreas
  try dsimp only
  repeat' (first | with_reducible assumption | with_reducible apply wf_writeN | (apply wf_foldl; intro _ _ _) )

theorem wf_coreSave (s : State) (cid : Nat) (hw : memWf s.mem = true) : memWf (State.coreSave s cid).mem = true := by
  unfold State.coreSave
  try dsimp only
  repeat' (first | with_reducible assumption | with_reducible apply wf_writeSaveAreas | refine wf_saveTurns (by assumption) ?_ | with_reducible apply wf_interrupt | refine wf_st (by assumption) ?_ | with_reducible apply wf_modPart | with_reducible apply wf_modCore  | with_reducible apply memWf_memWriteN | with_reducible apply memWf_memClear | with_reducible apply memWf_filter | with_reducible apply wf_ite | split)

theorem wf_coreRestore (s : State) (cid : Nat) (hw : memWf s.mem = true) : memWf (State.coreRestore s cid).mem = true := by
  unfold State.coreRestore
  try dsimp only
  repeat' (first | with_reducible assumption | with_reducible apply wf_interrupt | refine wf_agentRead (by assumption) ?_ | with_reducible apply wf_modPart | with_reducible apply wf_modCore  | with_reducible apply memWf_memWriteN | with_reducible apply memWf_memClear | with_reducible apply memWf_filter | with_reducible apply wf_ite | split)

theorem wf_portEntryWrite (s : State) (i word : Nat) (v : Word) (hw : memWf s.mem = true) : memWf (State.portEntryWrite s i word v).mem = true := by
  unfold State.portEntryWrite
  try dsimp only
  repeat' (first | with_reducible assumption | with_reducible apply wf_modMgmt | with_reducible apply memWf_memWriteN | with_reducible apply memWf_memClear | with_reducible apply memWf_filter | with_reducible apply wf_ite )

theorem wf_opticalLinkState (s : State) (i : Nat) (up back : Bool) (hw : memWf s.mem = true) : memWf (State.opticalLinkState s i up back).mem = true := by
  unfold State.opticalLinkState
  try dsimp only
  repeat' (first | with_reducible assumption | with_reducible apply wf_modMgmt | with_reducible apply memWf_memWriteN | with_reducible apply memWf_memClear | with_reducible apply memWf_filter | with_reducible apply wf_ite )

theorem wf_peerReplicaWrite (s : State) (i addr : Nat) (bs : List Byte) (poison : List Nat) (hw : memWf s.mem = true) : memWf (State.peerReplicaWrite s i addr bs poison).mem = true := by
  unfold State.peerReplicaWrite
  try dsimp only
  repeat' (first | with_reducible assumption | with_reducible apply wf_keepOlds | with_reducible apply wf_sendSignal | with_reducible apply wf_modPart | with_reducible apply wf_addPoison | with_reducible apply wf_writeBytes | (apply wf_foldl; intro _ _ _) | with_reducible apply memWf_memWriteN | with_reducible apply memWf_memClear | with_reducible apply memWf_filter | with_reducible apply wf_ite )

theorem wf_putRecords (p : Nat) (l : List (List Word)) : ∀ (s : State), memWf s.mem = true → memWf (s.putRecords p l).mem = true := by
  induction l with
  | nil => intro s hw; exact hw
  | cons ws l ih =>
    intro s hw
    unfold State.putRecords
    refine ih _ (wf_modPart _ _ _ ?_)
    exact wf_foldl _ _ (fun t j h => wf_writeW t _ _ h) _ hw

theorem wf_writeFault (s : State) (r : FaultRec) (action : Nat) (hw : memWf s.mem = true) : memWf (s.writeFault r action).mem = true := by
  unfold State.writeFault
  dsimp only
  split
  · exact wf_modPart _ _ _ hw
  · exact wf_putRecords _ _ _ hw

theorem wf_fireHandler (s : State) (r : FaultRec) (cb cid f : Nat) (hw : memWf s.mem = true) : memWf (State.fireHandler s r cb cid f).mem = true := by
  unfold State.fireHandler
  try dsimp only
  repeat' (first | with_reducible assumption | with_reducible apply wf_writeFrame | with_reducible apply wf_freshFrame | with_reducible apply wf_signalSlot | with_reducible apply wf_bindTo | with_reducible apply wf_writeW | (apply wf_foldl; intro _ _ _) )

theorem wf_handlerTurn {s t : State} {r : FaultRec} (e : s.handlerTurn r = some t) (hw : memWf s.mem = true) : memWf t.mem = true := by
  unfold State.handlerTurn at e
  split at e
  · exact wf_frameTurn e hw
  · cases e; exact hw

theorem wf_settleFault (s : State) (r : FaultRec) (hw : memWf s.mem = true) : memWf (State.settleFault s r).mem = true := by
  unfold State.settleFault
  try dsimp only
  repeat' (first | with_reducible assumption | with_reducible apply wf_fireHandler | with_reducible apply wf_writeFault | with_reducible apply wf_stopInst  | with_reducible apply memWf_memWriteN | with_reducible apply memWf_memClear | with_reducible apply memWf_filter | with_reducible apply wf_ite | split)

theorem wf_faultTurn {s t : State} {p : Nat} (e : s.faultTurn p = some t) (hw : memWf s.mem = true) : memWf t.mem = true := by
  unfold State.faultTurn at e
  dsimp only at e
  split at e
  · exact wf_dieAgentTurn e hw
  · cases e; exact hw

theorem wf_faultRecordWrite (s : State) (n : Nat) (hw : memWf s.mem = true) : memWf (s.faultRecordWrite n).mem = true := by
  unfold State.faultRecordWrite
  dsimp only
  repeat' split
  all_goals first
    | exact hw
    | next h _ _ hv =>
      refine wf_settleFault _ _ (wf_handlerTurn hv ?_)
      split
      · exact (wf_faultTurn h hw : memWf (State.mem _) = true)
      · exact wf_dropCmd _ _ (wf_faultTurn h hw : memWf (State.mem _) = true)

theorem wf_raiseTrig (s : State) (part : Option Nat) (r : Ret) (i : Issuer) (cmd : Nat) (fences : List (Nat × Nat)) (hw : memWf s.mem = true) : memWf (State.raiseTrig s part r i cmd fences).mem = true := by
  unfold State.raiseTrig
  try dsimp only
  repeat' (first | with_reducible assumption | with_reducible apply wf_enterRoot  )

theorem wf_snapTrig (s : State) (v : Word) (hw : memWf s.mem = true) : memWf (State.snapTrig s v).mem = true := by
  unfold State.snapTrig
  try dsimp only
  repeat' (first | with_reducible assumption | with_reducible apply wf_raiseTrig | with_reducible apply memWf_memWriteN | with_reducible apply memWf_memClear | with_reducible apply memWf_filter | with_reducible apply wf_ite )

theorem wf_latch (s : State) (n : BitVec 16) (b : SnapBlock) (hw : memWf s.mem = true) : memWf (State.latch s n b).mem = true := by
  unfold State.latch
  try dsimp only
  repeat' (first | with_reducible assumption | with_reducible apply wf_modDie | with_reducible apply wf_modCluster | with_reducible apply wf_modCore  | with_reducible apply memWf_memWriteN | with_reducible apply memWf_memClear | with_reducible apply memWf_filter | with_reducible apply wf_ite | split)

theorem wf_snapshotTriggerArrival (s : State) (n : Nat) (b : SnapBlock) (hw : memWf s.mem = true) : memWf (State.snapshotTriggerArrival s n b).mem = true := by
  unfold State.snapshotTriggerArrival
  try dsimp only
  repeat' (first | with_reducible assumption | with_reducible apply wf_latch  | with_reducible apply memWf_memWriteN | with_reducible apply memWf_memClear | with_reducible apply memWf_filter | with_reducible apply wf_ite | split)

theorem wf_snapComplete (s : State) (n : Nat) (hw : memWf s.mem = true) : memWf (State.snapComplete s n).mem = true := by
  unfold State.snapComplete
  try dsimp only
  repeat' (first | with_reducible assumption | with_reducible apply wf_sendReply  | with_reducible apply memWf_memWriteN | with_reducible apply memWf_memClear | with_reducible apply memWf_filter | with_reducible apply wf_ite | split)

theorem wf_cellGate (s : State) (cell : Nat) (hw : memWf s.mem = true) : memWf (State.cellGate s cell).mem = true := by
  unfold State.cellGate
  try dsimp only
  repeat' (first | with_reducible assumption | with_reducible apply wf_setCell | with_reducible apply memWf_memWriteN | with_reducible apply memWf_memClear | with_reducible apply memWf_filter | with_reducible apply wf_ite )

theorem wf_cellWake (s : State) (cell : Nat) (hw : memWf s.mem = true) : memWf (State.cellWake s cell).mem = true := by
  unfold State.cellWake
  try dsimp only
  repeat' (first | with_reducible assumption | with_reducible apply wf_setCell | with_reducible apply memWf_memWriteN | with_reducible apply memWf_memClear | with_reducible apply memWf_filter | with_reducible apply wf_ite )

theorem wf_quiescence (s : State) (p : Nat) (hw : memWf s.mem = true) : memWf (State.quiescence s p).mem = true := by
  unfold State.quiescence
  try dsimp only
  repeat' (first | with_reducible assumption | with_reducible apply wf_addFault | with_reducible apply wf_modPart | (apply wf_foldl; intro _ _ _) | with_reducible apply memWf_memWriteN | with_reducible apply memWf_memClear | with_reducible apply memWf_filter | with_reducible apply wf_ite )

theorem wf_instFault (s : State) (k cid f : Nat) (code : Code) (hw : memWf s.mem = true) : memWf (State.instFault s k cid f code).mem = true := by
  unfold State.instFault
  try dsimp only
  repeat' (first | with_reducible assumption | with_reducible apply wf_addFault  | with_reducible apply memWf_memWriteN | with_reducible apply memWf_memClear | with_reducible apply memWf_filter | with_reducible apply wf_ite | split)

theorem wf_killCore (s : State) (cid : Nat) (hw : memWf s.mem = true) : memWf (State.killCore s cid).mem = true := by
  unfold State.killCore
  try dsimp only
  repeat' (first | with_reducible assumption | with_reducible apply wf_dropPacket | with_reducible apply wf_failCmd | with_reducible apply wf_finishCmd | with_reducible apply wf_modPart | with_reducible apply wf_modCore | (apply wf_foldl; intro _ _ _) | with_reducible apply memWf_memWriteN | with_reducible apply memWf_memClear | with_reducible apply memWf_filter | with_reducible apply wf_ite | split)

theorem wf_coreReset (s : State) (cid : Nat) (hw : memWf s.mem = true) : memWf (State.coreReset s cid).mem = true := by
  unfold State.coreReset
  try dsimp only
  repeat' (first | with_reducible assumption | with_reducible apply wf_killCore | with_reducible apply wf_instFault | with_reducible apply wf_modCluster | with_reducible apply wf_modCore | (apply wf_foldl; intro _ _ _) | with_reducible apply memWf_memWriteN | with_reducible apply memWf_memClear | with_reducible apply memWf_filter | with_reducible apply wf_ite )

theorem wf_thermalTrip (s : State) (d : Nat) (hw : memWf s.mem = true) : memWf (State.thermalTrip s d).mem = true := by
  unfold State.thermalTrip
  try dsimp only
  repeat' (first | with_reducible assumption | with_reducible apply wf_killCore | with_reducible apply wf_instFault | with_reducible apply wf_modDie | (apply wf_foldl; intro _ _ _) | with_reducible apply memWf_memWriteN | with_reducible apply memWf_memClear | with_reducible apply memWf_filter | with_reducible apply wf_ite )

theorem wf_uncorrectableError (s : State) (cid f : Nat) (ownerRead : Bool) (hw : memWf s.mem = true) : memWf (State.uncorrectableError s cid f ownerRead).mem = true := by
  unfold State.uncorrectableError
  try dsimp only
  repeat' (first | with_reducible assumption | with_reducible apply wf_instFault | with_reducible apply wf_modCore | (apply wf_foldl; intro _ _ _) | with_reducible apply memWf_memWriteN | with_reducible apply memWf_memClear | with_reducible apply memWf_filter | with_reducible apply wf_ite )

theorem wf_softError (s : State) (key n : Nat) (hw : memWf s.mem = true) : memWf (State.softError s key n).mem = true := by
  unfold State.softError
  try dsimp only
  repeat' (first | with_reducible assumption | with_reducible apply wf_uncorrectableError | with_reducible apply wf_modDie | with_reducible apply wf_modCore | with_reducible apply wf_addPoison  | with_reducible apply memWf_memWriteN | with_reducible apply memWf_memClear | with_reducible apply memWf_filter | with_reducible apply wf_ite | split)

theorem wf_sysr {f : WForm} {s : State} {u_ : State} (e : State.sysr f s = .ok u_) (hw : memWf s.mem = true) : memWf u_.mem = true := by
  unfold State.sysr at e
  try dsimp only at e
  repeat' (first | (with_reducible replace e := bind_ok e; obtain ⟨_, _, e⟩ := e) | split at e)
  all_goals repeat' (first | with_reducible assumption | exact wf_error e | refine wf_writeS (by assumption) ?_ )

theorem wf_sysw {f : WForm} {s0 : State} {u_ : State} (e : State.sysw f s0 = .ok u_) (hw : memWf s0.mem = true) : memWf u_.mem = true := by
  unfold State.sysw at e
  try dsimp only at e
  repeat' (first | (with_reducible replace e := bind_ok e; obtain ⟨_, _, e⟩ := e) | split at e)
  all_goals repeat' (first | with_reducible assumption | exact wf_error e | refine wf_readS (by assumption) ?_ | refine wf_pureS (by assumption) ?_ )

theorem wf_brk {f : WForm} {s0 : State} {u_ : State} (e : State.brk f s0 = .ok u_) (hw : memWf s0.mem = true) : memWf u_.mem = true := by
  unfold State.brk at e
  try dsimp only at e
  repeat' (first | (with_reducible replace e := bind_ok e; obtain ⟨_, _, e⟩ := e) | split at e)
  all_goals repeat' (first | with_reducible assumption | exact wf_error e | refine wf_readAB (by assumption) ?_ | refine wf_readS (by assumption) ?_ | refine wf_pureS (by assumption) ?_ )

theorem wf_snap {f : WForm} {s0 : State} {u_ : State} (e : State.snap f s0 = .ok u_) (hw : memWf s0.mem = true) : memWf u_.mem = true := by
  unfold State.snap at e
  try dsimp only at e
  repeat' (first | (with_reducible replace e := bind_ok e; obtain ⟨_, _, e⟩ := e) | split at e)
  all_goals repeat' (first | with_reducible assumption | exact wf_error e | refine wf_readS (by assumption) ?_ | refine wf_pureS (by assumption) ?_ | refine wf_okS (by assumption) ?_ | refine wf_pureR (by assumption) ?_ | refine wf_okR (by assumption) ?_ | refine wf_newCmd_eq (by assumption) ?_ | with_reducible apply wf_raiseTrig | refine wf_readS (by assumption) ?_ | with_reducible apply wf_newCmd )

theorem wf_sendNotices (s : State) (cid : Nat) (hw : memWf s.mem = true) : memWf (State.sendNotices s cid).mem = true := by
  unfold State.sendNotices
  try dsimp only
  repeat' (first | with_reducible assumption | with_reducible apply wf_send | (apply wf_foldl; intro _ _ _) | with_reducible apply memWf_memWriteN | with_reducible apply memWf_memClear | with_reducible apply memWf_filter | with_reducible apply wf_ite | split)

theorem wf_stepNotice (s : State) (k : Nat) (hw : memWf s.mem = true) : memWf (State.stepNotice s k).mem = true := by
  unfold State.stepNotice
  try dsimp only
  repeat' (first | with_reducible assumption | with_reducible apply wf_settlePace | with_reducible apply wf_dropPacket | with_reducible apply wf_modCore  | with_reducible apply memWf_memWriteN | with_reducible apply memWf_memClear | with_reducible apply memWf_filter | with_reducible apply wf_ite | split)

theorem wf_answerLdst (s : State) (k : Nat) (p : Packet) (owner D : Nat) (hw : memWf s.mem = true) : memWf (State.answerLdst s k p owner D).mem = true := by
  unfold State.answerLdst
  try dsimp only
  repeat' (first | with_reducible assumption | with_reducible apply wf_dropPacket | with_reducible apply wf_sendReply | with_reducible apply wf_bindTo | with_reducible apply wf_saw  | with_reducible apply memWf_memWriteN | with_reducible apply memWf_memClear | with_reducible apply memWf_filter | with_reducible apply wf_ite | split)

theorem wf_answerStepq (s : State) (k : Nat) (p : Packet) (owner q : Nat) (hw : memWf s.mem = true) : memWf (State.answerStepq s k p owner q).mem = true := by
  unfold State.answerStepq
  try dsimp only
  repeat' (first | with_reducible assumption | with_reducible apply wf_dropPacket | with_reducible apply wf_sendReply | with_reducible apply wf_bindTo  )

theorem wf_discard (s : State) (k : Nat) (p : Packet) (hw : memWf s.mem = true) : memWf (State.discard s k p).mem = true := by
  unfold State.discard
  try dsimp only
  repeat' (first | with_reducible assumption | with_reducible apply wf_dropPacket | with_reducible apply wf_finishCmd  )

theorem wf_serveOne (s : State) (owner k : Nat) (hw : memWf s.mem = true) : memWf (State.serveOne s owner k).mem = true := by
  unfold State.serveOne
  try dsimp only
  repeat' (first | with_reducible assumption | with_reducible apply wf_discard | with_reducible apply wf_answerStepq | with_reducible apply wf_answerLdst | with_reducible apply wf_modCore  | with_reducible apply memWf_memWriteN | with_reducible apply memWf_memClear | with_reducible apply memWf_filter | with_reducible apply wf_ite | split)

theorem wf_serveHeld (s : State) (owner : Nat) (hw : memWf s.mem = true) : memWf (State.serveHeld s owner).mem = true := by
  unfold State.serveHeld
  try dsimp only
  repeat' (first | with_reducible assumption | with_reducible apply wf_serveOne | (apply wf_foldl; intro _ _ _) )

theorem wf_holdStep (s : State) (owner k : Nat) (p : Packet) (hw : memWf s.mem = true) : memWf (State.holdStep s owner k p).mem = true := by
  unfold State.holdStep
  try dsimp only
  repeat' (first | with_reducible assumption | with_reducible apply wf_setPacket | with_reducible apply wf_modCore | with_reducible apply memWf_memWriteN | with_reducible apply memWf_memClear | with_reducible apply memWf_filter | with_reducible apply wf_ite )

theorem wf_mustWait (s : State) (owner k : Nat) (p : Packet) (hw : memWf s.mem = true) : memWf (State.mustWait s owner k p).mem = true := by
  unfold State.mustWait
  try dsimp only
  repeat' (first | with_reducible assumption | with_reducible apply wf_holdStep | with_reducible apply wf_discard | with_reducible apply memWf_memWriteN | with_reducible apply memWf_memClear | with_reducible apply memWf_filter | with_reducible apply wf_ite )

theorem wf_ldstRequest (s0 : State) (k : Nat) (hw : memWf s0.mem = true) : memWf (State.ldstRequest s0 k).mem = true := by
  unfold State.ldstRequest
  try dsimp only
  repeat' (first | with_reducible assumption | with_reducible apply wf_mustWait | with_reducible apply wf_discard | with_reducible apply wf_answerLdst | with_reducible apply wf_settlePace | with_reducible apply wf_dropPacket | with_reducible apply wf_failCmd  | with_reducible apply memWf_memWriteN | with_reducible apply memWf_memClear | with_reducible apply memWf_filter | with_reducible apply wf_ite | split)

theorem wf_stepqRequest (s0 : State) (k : Nat) (hw : memWf s0.mem = true) : memWf (State.stepqRequest s0 k).mem = true := by
  unfold State.stepqRequest
  try dsimp only
  repeat' (first | with_reducible assumption | with_reducible apply wf_mustWait | with_reducible apply wf_answerStepq | with_reducible apply wf_settlePace  | with_reducible apply memWf_memWriteN | with_reducible apply memWf_memClear | with_reducible apply memWf_filter | with_reducible apply wf_ite | split)

theorem wf_stepResend (s : State) (k : Nat) (hw : memWf s.mem = true) : memWf (State.stepResend s k).mem = true := by
  unfold State.stepResend
  try dsimp only
  repeat' (first | with_reducible assumption | with_reducible apply wf_setPacket  | with_reducible apply memWf_memWriteN | with_reducible apply memWf_memClear | with_reducible apply memWf_filter | with_reducible apply wf_ite | split)

theorem wf_passStep (s : State) (cid fid : Nat) (hw : memWf s.mem = true) : memWf (State.passStep s cid fid).mem = true := by
  unfold State.passStep
  try dsimp only
  repeat' (first | with_reducible assumption | with_reducible apply wf_bindTo )

theorem wf_stepdDone (s : State) (cid fid : Nat) (hw : memWf s.mem = true) : memWf (State.stepdDone s cid fid).mem = true := by
  unfold State.stepdDone
  try dsimp only
  repeat' (first | with_reducible assumption | with_reducible apply wf_passStep | with_reducible apply wf_serveHeld | with_reducible apply wf_sendNotices | with_reducible apply wf_modCore | with_reducible apply memWf_memWriteN | with_reducible apply memWf_memClear | with_reducible apply memWf_filter | with_reducible apply wf_ite )

theorem wf_stepAdvance (s : State) (cid : Nat) (hw : memWf s.mem = true) : memWf (State.stepAdvance s cid).mem = true := by
  unfold State.stepAdvance
  try dsimp only
  repeat' (first | with_reducible assumption | with_reducible apply wf_serveHeld | with_reducible apply wf_sendNotices | with_reducible apply wf_modPart | with_reducible apply wf_modCore | with_reducible apply memWf_memWriteN | with_reducible apply memWf_memClear | with_reducible apply memWf_filter | with_reducible apply wf_ite )

theorem wf_stepdOp {s : State} {u_ : State} (e : State.stepdOp s = .ok u_) (hw : memWf s.mem = true) : memWf u_.mem = true := by
  unfold State.stepdOp at e
  try dsimp only at e
  repeat' (first | (with_reducible replace e := bind_ok e; obtain ⟨_, _, e⟩ := e) | split at e)
  all_goals repeat' (first | with_reducible assumption | exact wf_error e | refine wf_pureS (by assumption) ?_ | refine wf_okS (by assumption) ?_ | refine wf_pureR (by assumption) ?_ | refine wf_okR (by assumption) ?_ | refine wf_newCmd_eq (by assumption) ?_ | with_reducible apply wf_modCur  )

theorem wf_ldstOp {f : WForm} {s0 : State} {u_ : State} (e : State.ldstOp f s0 = .ok u_) (hw : memWf s0.mem = true) : memWf u_.mem = true := by
  unfold State.ldstOp at e
  try dsimp only at e
  repeat' (first | (with_reducible replace e := bind_ok e; obtain ⟨_, _, e⟩ := e) | split at e)
  all_goals repeat' (first | with_reducible assumption | exact wf_error e | refine wf_readAB (by assumption) ?_ | refine wf_readS (by assumption) ?_ | refine wf_pureS (by assumption) ?_ | refine wf_okS (by assumption) ?_ | refine wf_pureR (by assumption) ?_ | refine wf_okR (by assumption) ?_ | refine wf_newCmd_eq (by assumption) ?_ | refine wf_readAB (by assumption) ?_ | refine wf_readS (by assumption) ?_ | with_reducible apply wf_send | with_reducible apply wf_newCmd )

theorem wf_stepqOp {f : WForm} {s0 : State} {u_ : State} (e : State.stepqOp f s0 = .ok u_) (hw : memWf s0.mem = true) : memWf u_.mem = true := by
  unfold State.stepqOp at e
  try dsimp only at e
  repeat' (first | (with_reducible replace e := bind_ok e; obtain ⟨_, _, e⟩ := e) | split at e)
  all_goals repeat' (first | with_reducible assumption | exact wf_error e | refine wf_readAB (by assumption) ?_ | refine wf_readS (by assumption) ?_ | refine wf_pureS (by assumption) ?_ | refine wf_okS (by assumption) ?_ | refine wf_pureR (by assumption) ?_ | refine wf_okR (by assumption) ?_ | refine wf_newCmd_eq (by assumption) ?_ | refine wf_readAB (by assumption) ?_ | refine wf_readS (by assumption) ?_ | with_reducible apply wf_send | with_reducible apply wf_newCmd )

theorem wf_binOp {g : Word → Word → Word} {f : WForm} {s0 : State} {u_ : State} (e : State.binOp g f s0 = .ok u_) (hw : memWf s0.mem = true) : memWf u_.mem = true := by
  unfold State.binOp at e
  try dsimp only at e
  repeat' (first | (with_reducible replace e := bind_ok e; obtain ⟨_, _, e⟩ := e) | split at e)
  all_goals repeat' (first | with_reducible assumption | exact wf_error e | refine wf_readAB (by assumption) ?_ | refine wf_writeS (by assumption) ?_ )

theorem wf_unOp {g : Word → Word} {f : WForm} {s0 : State} {u_ : State} (e : State.unOp g f s0 = .ok u_) (hw : memWf s0.mem = true) : memWf u_.mem = true := by
  unfold State.unOp at e
  try dsimp only at e
  repeat' (first | (with_reducible replace e := bind_ok e; obtain ⟨_, _, e⟩ := e) | split at e)
  all_goals repeat' (first | with_reducible assumption | exact wf_error e | refine wf_writeS (by assumption) ?_ | refine wf_readS (by assumption) ?_ )

theorem wf_binsOp {f : WForm} {s0 : State} {u_ : State} (e : State.binsOp f s0 = .ok u_) (hw : memWf s0.mem = true) : memWf u_.mem = true := by
  unfold State.binsOp at e
  try dsimp only at e
  repeat' (first | (with_reducible replace e := bind_ok e; obtain ⟨_, _, e⟩ := e) | split at e)
  all_goals repeat' (first | with_reducible assumption | exact wf_error e | refine wf_writeS (by assumption) ?_ | refine wf_readS (by assumption) ?_ )

theorem wf_cmpOp {f : WForm} {s0 : State} {u_ : State} (e : State.cmpOp f s0 = .ok u_) (hw : memWf s0.mem = true) : memWf u_.mem = true := by
  unfold State.cmpOp at e
  try dsimp only at e
  repeat' (first | (with_reducible replace e := bind_ok e; obtain ⟨_, _, e⟩ := e) | split at e)
  all_goals repeat' (first | with_reducible assumption | exact wf_error e | refine wf_readAB (by assumption) ?_ | refine wf_readS (by assumption) ?_ | refine wf_pureS (by assumption) ?_ | refine wf_okS (by assumption) ?_ | refine wf_pureR (by assumption) ?_ | refine wf_okR (by assumption) ?_ | refine wf_newCmd_eq (by assumption) ?_ | with_reducible apply wf_writeP )

theorem wf_cmpiOp {f : WForm} {y : Word} {s0 : State} {u_ : State} (e : State.cmpiOp f y s0 = .ok u_) (hw : memWf s0.mem = true) : memWf u_.mem = true := by
  unfold State.cmpiOp at e
  try dsimp only at e
  repeat' (first | (with_reducible replace e := bind_ok e; obtain ⟨_, _, e⟩ := e) | split at e)
  all_goals repeat' (first | with_reducible assumption | exact wf_error e | refine wf_readS (by assumption) ?_ | refine wf_pureS (by assumption) ?_ | refine wf_okS (by assumption) ?_ | refine wf_pureR (by assumption) ?_ | refine wf_okR (by assumption) ?_ | refine wf_newCmd_eq (by assumption) ?_ | with_reducible apply wf_writeP )

theorem wf_predOp {g : Bool → Bool → Bool} {f : WForm} {s : State} {u_ : State} (e : State.predOp g f s = .ok u_) (hw : memWf s.mem = true) : memWf u_.mem = true := by
  unfold State.predOp at e
  try dsimp only at e
  repeat' (first | (with_reducible replace e := bind_ok e; obtain ⟨_, _, e⟩ := e) | split at e)
  all_goals repeat' (first | with_reducible assumption | exact wf_error e | refine wf_pureS (by assumption) ?_ | refine wf_okS (by assumption) ?_ | refine wf_pureR (by assumption) ?_ | refine wf_okR (by assumption) ?_ | refine wf_newCmd_eq (by assumption) ?_ | with_reducible apply wf_writeP  )

theorem wf_psetOp {f : WForm} {s0 : State} {u_ : State} (e : State.psetOp f s0 = .ok u_) (hw : memWf s0.mem = true) : memWf u_.mem = true := by
  unfold State.psetOp at e
  try dsimp only at e
  repeat' (first | (with_reducible replace e := bind_ok e; obtain ⟨_, _, e⟩ := e) | split at e)
  all_goals repeat' (first | with_reducible assumption | exact wf_error e | refine wf_readS (by assumption) ?_ | refine wf_pureS (by assumption) ?_ )

theorem wf_pgetOp {f : WForm} {s : State} {u_ : State} (e : State.pgetOp f s = .ok u_) (hw : memWf s.mem = true) : memWf u_.mem = true := by
  unfold State.pgetOp at e
  try dsimp only at e
  repeat' (first | (with_reducible replace e := bind_ok e; obtain ⟨_, _, e⟩ := e) | split at e)
  all_goals repeat' (first | with_reducible assumption | exact wf_error e | refine wf_writeS (by assumption) ?_ )

theorem wf_selOp {f : WForm} {s0 : State} {u_ : State} (e : State.selOp f s0 = .ok u_) (hw : memWf s0.mem = true) : memWf u_.mem = true := by
  unfold State.selOp at e
  try dsimp only at e
  repeat' (first | (with_reducible replace e := bind_ok e; obtain ⟨_, _, e⟩ := e) | split at e)
  all_goals repeat' (first | with_reducible assumption | exact wf_error e | refine wf_readAB (by assumption) ?_ | refine wf_writeS (by assumption) ?_ )

theorem wf_leaOp {f : WForm} {i : Word} {s0 : State} {u_ : State} (e : State.leaOp f i s0 = .ok u_) (hw : memWf s0.mem = true) : memWf u_.mem = true := by
  unfold State.leaOp at e
  try dsimp only at e
  repeat' (first | (with_reducible replace e := bind_ok e; obtain ⟨_, _, e⟩ := e) | split at e)
  all_goals repeat' (first | with_reducible assumption | exact wf_error e | refine wf_readAB (by assumption) ?_ | refine wf_writeS (by assumption) ?_ )

theorem wf_rdcycOp {f : WForm} {s : State} {u_ : State} (e : State.rdcycOp f s = .ok u_) (hw : memWf s.mem = true) : memWf u_.mem = true := by
  unfold State.rdcycOp at e
  try dsimp only at e
  repeat' (first | (with_reducible replace e := bind_ok e; obtain ⟨_, _, e⟩ := e) | split at e)
  all_goals repeat' (first | with_reducible assumption | exact wf_error e | refine wf_writeS (by assumption) ?_ )

theorem wf_rdcntOp {f : WForm} {s : State} {u_ : State} (e : State.rdcntOp f s = .ok u_) (hw : memWf s.mem = true) : memWf u_.mem = true := by
  unfold State.rdcntOp at e
  try dsimp only at e
  repeat' (first | (with_reducible replace e := bind_ok e; obtain ⟨_, _, e⟩ := e) | split at e)
  all_goals repeat' (first | with_reducible assumption | exact wf_error e | refine wf_writeS (by assumption) ?_ | refine wf_pureS (by assumption) ?_ | refine wf_okS (by assumption) ?_ | refine wf_pureR (by assumption) ?_ | refine wf_okR (by assumption) ?_ | refine wf_newCmd_eq (by assumption) ?_ | refine wf_writeS (by assumption) ?_ | with_reducible apply wf_modCur )

theorem wf_jump {t : Word} {s : State} {u_ : State} (e : State.jump t s = .ok u_) (hw : memWf s.mem = true) : memWf u_.mem = true := by
  unfold State.jump at e
  try dsimp only at e
  repeat' (first | (with_reducible replace e := bind_ok e; obtain ⟨_, _, e⟩ := e) | split at e)
  all_goals repeat' (first | with_reducible assumption | exact wf_error e | refine wf_pureS (by assumption) ?_ | refine wf_okS (by assumption) ?_ | refine wf_pureR (by assumption) ?_ | refine wf_okR (by assumption) ?_ | refine wf_newCmd_eq (by assumption) ?_ | with_reducible apply wf_modCtx  )

theorem wf_brOp {i : Word} {s : State} {u_ : State} (e : State.brOp i s = .ok u_) (hw : memWf s.mem = true) : memWf u_.mem = true := by
  unfold State.brOp at e
  try dsimp only at e
  repeat' (first | (with_reducible replace e := bind_ok e; obtain ⟨_, _, e⟩ := e) | split at e)
  all_goals repeat' (first | with_reducible assumption | exact wf_error e | refine wf_jump (by assumption) ?_ | refine wf_pureS (by assumption) ?_ | refine wf_okS (by assumption) ?_ | refine wf_pureR (by assumption) ?_ | refine wf_okR (by assumption) ?_ | refine wf_newCmd_eq (by assumption) ?_ | refine wf_jump (by assumption) ?_ | with_reducible apply wf_modCtx  )

theorem wf_brxOp {f : WForm} {s0 : State} {u_ : State} (e : State.brxOp f s0 = .ok u_) (hw : memWf s0.mem = true) : memWf u_.mem = true := by
  unfold State.brxOp at e
  try dsimp only at e
  repeat' (first | (with_reducible replace e := bind_ok e; obtain ⟨_, _, e⟩ := e) | split at e)
  all_goals repeat' (first | with_reducible assumption | exact wf_error e | refine wf_jump (by assumption) ?_ | refine wf_readS (by assumption) ?_ | refine wf_pureS (by assumption) ?_ )

theorem wf_callOp {i : Word} {s : State} {u_ : State} (e : State.callOp i s = .ok u_) (hw : memWf s.mem = true) : memWf u_.mem = true := by
  unfold State.callOp at e
  try dsimp only at e
  repeat' (first | (with_reducible replace e := bind_ok e; obtain ⟨_, _, e⟩ := e) | split at e)
  all_goals repeat' (first | with_reducible assumption | exact wf_error e | refine wf_jump (by assumption) ?_ | refine wf_pureS (by assumption) ?_ | refine wf_okS (by assumption) ?_ | refine wf_pureR (by assumption) ?_ | refine wf_okR (by assumption) ?_ | refine wf_newCmd_eq (by assumption) ?_ | refine wf_jump (by assumption) ?_ | with_reducible apply wf_modCtx  )

theorem wf_retOp {s : State} {u_ : State} (e : State.retOp s = .ok u_) (hw : memWf s.mem = true) : memWf u_.mem = true := by
  unfold State.retOp at e
  try dsimp only at e
  repeat' (first | (with_reducible replace e := bind_ok e; obtain ⟨_, _, e⟩ := e) | split at e)
  all_goals repeat' (first | with_reducible assumption | exact wf_error e | refine wf_jump (by assumption) ?_ | refine wf_pureS (by assumption) ?_ | refine wf_okS (by assumption) ?_ | refine wf_pureR (by assumption) ?_ | refine wf_okR (by assumption) ?_ | refine wf_newCmd_eq (by assumption) ?_ | refine wf_jump (by assumption) ?_ | with_reducible apply wf_modCtx  )

theorem wf_endOp {s : State} {u_ : State} (e : State.endOp s = .ok u_) (hw : memWf s.mem = true) : memWf u_.mem = true := by
  unfold State.endOp at e
  try dsimp only at e
  repeat' (first | (with_reducible replace e := bind_ok e; obtain ⟨_, _, e⟩ := e) | split at e)
  all_goals repeat' (first | with_reducible assumption | exact wf_error e | refine wf_pureS (by assumption) ?_ | refine wf_okS (by assumption) ?_ | refine wf_pureR (by assumption) ?_ | refine wf_okR (by assumption) ?_ | refine wf_newCmd_eq (by assumption) ?_ | with_reducible apply wf_endFiring  )

theorem wf_moduleReset (s : State) (hw : memWf s.mem = true) : memWf (State.moduleReset s).mem = true := by
  unfold State.moduleReset
  try dsimp only
  repeat' (first | with_reducible assumption   )

theorem wf_sawMailbox (s : State) (n : Nat) (hw : memWf s.mem = true) : memWf (State.sawMailbox s n).mem = true := by
  unfold State.sawMailbox
  try dsimp only
  repeat' (first | with_reducible assumption | with_reducible apply wf_publish | (apply wf_foldl; intro _ _ _) )

theorem wf_freitStart (s : State) (n : Nat) (work : State → State × Nat)
    (hg : memWf (work s).1.mem = true) (hw : memWf s.mem = true) : memWf (s.freitStart n work).mem = true := by
  unfold State.freitStart
  split
  · exact wf_modMgmt _ _ hw
  · exact wf_modMgmt _ _ hg

theorem wf_loadImage (s : State) (hw : memWf s.mem = true) : memWf s.loadImage.1.mem = true := by
  unfold State.loadImage
  try dsimp only
  repeat' (first | with_reducible assumption | with_reducible apply wf_writeBytes | with_reducible apply memWf_memClear | with_reducible apply wf_sawMailbox | split)

theorem wf_activateSlot (s : State) (hw : memWf s.mem = true) : memWf s.activateSlot.1.mem = true := by
  unfold State.activateSlot
  try dsimp only
  split <;> exact hw

theorem wf_raiseFloor (s : State) (hw : memWf s.mem = true) : memWf s.raiseFloor.1.mem = true := by
  unfold State.raiseFloor
  try dsimp only
  exact hw

theorem wf_writeMailbox (s : State) (pages : List Nat) (q : List Byte) (hw : memWf s.mem = true) : memWf (State.writeMailbox s pages q).mem = true := by
  unfold State.writeMailbox
  try dsimp only
  repeat' (first | with_reducible assumption | with_reducible apply wf_writeBytes | (apply wf_foldl; intro _ _ _) | with_reducible apply memWf_memWriteN | with_reducible apply memWf_memClear | with_reducible apply memWf_filter | with_reducible apply wf_ite )

theorem wf_putQuote (s : State) (q : List Byte) (hw : memWf s.mem = true) : memWf (s.putQuote q).1.mem = true := by
  unfold State.putQuote
  split
  · exact hw
  · exact wf_writeMailbox _ _ _ hw

theorem wf_writeQuote (s : State) (hw : memWf s.mem = true) : memWf s.writeQuote.1.mem = true := by
  unfold State.writeQuote
  split
  · exact wf_sawMailbox _ _ hw
  · exact wf_putQuote _ _ (wf_sawMailbox _ _ hw)

theorem wf_freitDone (s : State) (hw : memWf s.mem = true) : memWf (State.freitDone s).mem = true := by
  unfold State.freitDone
  try dsimp only
  repeat' (first | with_reducible assumption | with_reducible apply wf_modMgmt | with_reducible apply memWf_memWriteN | with_reducible apply memWf_memClear | with_reducible apply memWf_filter | with_reducible apply wf_ite )

theorem wf_mgCmd (s : State) (v : Word) (hw : memWf s.mem = true) : memWf (State.mgCmd s v).mem = true := by
  unfold State.mgCmd
  try dsimp only
  repeat' (first | with_reducible assumption | with_reducible apply wf_writeQuote | with_reducible apply wf_raiseFloor | with_reducible apply wf_activateSlot | with_reducible apply wf_loadImage | with_reducible apply wf_freitStart | with_reducible apply wf_modMgmt  | with_reducible apply memWf_memWriteN | with_reducible apply memWf_memClear | with_reducible apply memWf_filter | with_reducible apply wf_ite | split)

theorem wf_plainModule (s : State) (off : Nat) (v : Word) (hw : memWf s.mem = true) : memWf (State.plainModule s off v).mem = true := by
  unfold State.plainModule
  try dsimp only
  repeat' (first | with_reducible assumption | with_reducible apply wf_modMgmt | with_reducible apply memWf_memWriteN | with_reducible apply memWf_memClear | with_reducible apply memWf_filter | with_reducible apply wf_ite )

theorem wf_plainPart (s : State) (p off : Nat) (v : Word) (hw : memWf s.mem = true) : memWf (State.plainPart s p off v).mem = true := by
  unfold State.plainPart
  try dsimp only
  repeat' (first | with_reducible assumption | with_reducible apply wf_modPart | with_reducible apply memWf_memWriteN | with_reducible apply memWf_memClear | with_reducible apply memWf_filter | with_reducible apply wf_ite )

theorem wf_plainWrite (s : State) (off : Nat) (v : Word) (hw : memWf s.mem = true) : memWf (State.plainWrite s off v).mem = true := by
  unfold State.plainWrite
  try dsimp only
  repeat' (first | with_reducible assumption | with_reducible apply wf_plainPart | with_reducible apply wf_plainModule | with_reducible apply memWf_memWriteN | with_reducible apply memWf_memClear | with_reducible apply memWf_filter | with_reducible apply wf_ite )

theorem wf_writeModule (s : State) (off : Nat) (v : Word) (hw : memWf s.mem = true) : memWf (State.writeModule s off v).mem = true := by
  unfold State.writeModule
  try dsimp only
  repeat' (first | with_reducible assumption | with_reducible apply wf_plainModule | with_reducible apply wf_mgCmd | with_reducible apply wf_snapTrig | with_reducible apply wf_portEntryWrite | with_reducible apply wf_commit | with_reducible apply memWf_memWriteN | with_reducible apply memWf_memClear | with_reducible apply memWf_filter | with_reducible apply wf_ite )

theorem wf_writePart (s : State) (p off : Nat) (v : Word) (hw : memWf s.mem = true) : memWf (State.writePart s p off v).mem = true := by
  unfold State.writePart
  try dsimp only
  repeat' (first | with_reducible assumption | with_reducible apply wf_plainPart | with_reducible apply wf_resume | with_reducible apply wf_preempt | with_reducible apply wf_faLog | with_reducible apply wf_faBase | with_reducible apply wf_ordArm | with_reducible apply wf_ordN | with_reducible apply wf_ordAddr | with_reducible apply wf_migGo | with_reducible apply wf_spillBase | with_reducible apply wf_spillFrames | with_reducible apply wf_subqTail | with_reducible apply wf_subqLog | with_reducible apply wf_subqBase | with_reducible apply memWf_memWriteN | with_reducible apply memWf_memClear | with_reducible apply memWf_filter | with_reducible apply wf_ite )

theorem wf_writeReg (s : State) (off : Nat) (v : Word) (hw : memWf s.mem = true) : memWf (State.writeReg s off v).mem = true := by
  unfold State.writeReg
  try dsimp only
  repeat' (first | with_reducible assumption | with_reducible apply wf_writePart | with_reducible apply wf_writeModule | with_reducible apply memWf_memWriteN | with_reducible apply memWf_memClear | with_reducible apply memWf_filter | with_reducible apply wf_ite )

theorem wf_deviceWrite (s : State) (a n v : Nat) (hw : memWf s.mem = true) : memWf (State.deviceWrite s a n v).mem = true := by
  unfold State.deviceWrite
  try dsimp only
  repeat' (first | with_reducible assumption | with_reducible apply wf_keepOlds | with_reducible apply wf_modPart | with_reducible apply wf_writeN  | with_reducible apply memWf_memWriteN | with_reducible apply memWf_memClear | with_reducible apply memWf_filter | with_reducible apply wf_ite | split)

theorem wf_hostTurn {s t : State} {a : Nat} (e : s.hostTurn a = some t) (hw : memWf s.mem = true) : memWf t.mem = true := wf_agentAccess e hw

theorem wf_hostReadTurn {s t : State} {a : Nat} (e : s.hostReadTurn a = some t) (hw : memWf s.mem = true) : memWf t.mem = true := wf_agentRead e hw

theorem wf_hostWrite (s : State) (bar off n : Nat) (v : Word) (hw : memWf s.mem = true) : memWf (State.hostWrite s bar off n v).mem = true := by
  unfold State.hostWrite
  try dsimp only
  repeat' (first | with_reducible assumption | refine wf_hostTurn (by assumption) ?_ | with_reducible apply wf_deviceWrite | with_reducible apply wf_writeReg  | with_reducible apply memWf_memWriteN | with_reducible apply memWf_memClear | with_reducible apply memWf_filter | with_reducible apply wf_ite | split)

theorem wf_hostRead (s : State) (bar off n : Nat) (hw : memWf s.mem = true) : memWf (s.hostRead bar off n).mem = true := by
  unfold State.hostRead
  repeat' split
  all_goals first
    | exact hw
    | next h _ _ _ => have := wf_hostReadTurn h hw; exact this
    | next h _ _ => have := wf_hostReadTurn h hw; exact this


theorem wf_applyPacket (s : State) (cid n : Nat) (p : Packet) (hw : memWf s.mem = true) : memWf (State.applyPacket s cid n p).mem = true := by
  unfold State.applyPacket
  try dsimp only
  repeat' (first | with_reducible assumption | with_reducible apply wf_stepqRequest | with_reducible apply wf_ldstRequest | with_reducible apply wf_stepNotice | with_reducible apply wf_movesArrive | with_reducible apply wf_mrotLands | with_reducible apply wf_orderedReductionRequest | with_reducible apply wf_mergedAtomicApply | with_reducible apply wf_atomicRequest | with_reducible apply wf_strmRequest | with_reducible apply wf_ldrmRequest | refine wf_atomic (by assumption) ?_ | refine wf_strm (by assumption) ?_ | refine wf_ldrm (by assumption) ?_ | with_reducible apply wf_ringRequest | refine wf_ring (by assumption) ?_ | refine wf_stf (by assumption) ?_ | refine wf_ldf (by assumption) ?_ | with_reducible apply wf_replyArrival | with_reducible apply wf_ldfRequest | with_reducible apply wf_stfRequest | with_reducible apply wf_freeRequest | with_reducible apply wf_armingRequest | with_reducible apply wf_allocationRequest | with_reducible apply wf_signalArrival  | with_reducible apply memWf_memWriteN | with_reducible apply memWf_memClear | with_reducible apply memWf_filter | with_reducible apply wf_ite | split)

theorem wf_savedPacketApply (s : State) (n : Nat) (hw : memWf s.mem = true) : memWf (State.savedPacketApply s n).mem = true := by
  unfold State.savedPacketApply
  try dsimp only
  repeat' (first | with_reducible assumption | with_reducible apply wf_applyPacket | with_reducible apply wf_modCore  | with_reducible apply memWf_memWriteN | with_reducible apply memWf_memClear | with_reducible apply memWf_filter | with_reducible apply wf_ite | split)

theorem wf_setSample (s : State) (clid r : Nat) (x : Sample) (hw : memWf s.mem = true) : memWf (State.setSample s clid r x).mem = true := by
  unfold State.setSample
  try dsimp only
  repeat' (first | with_reducible assumption | with_reducible apply wf_modCluster  )

theorem wf_sqtabServe (s : State) (k : Nat) (hw : memWf s.mem = true) : memWf (State.sqtabServe s k).mem = true := by
  unfold State.sqtabServe
  try dsimp only
  repeat' (first | with_reducible assumption | refine wf_st (by assumption) ?_ | with_reducible apply wf_dropPacket | with_reducible apply wf_complete | with_reducible apply wf_failCmd | with_reducible apply wf_modCluster | with_reducible apply wf_saw  | with_reducible apply memWf_memWriteN | with_reducible apply memWf_memClear | with_reducible apply memWf_filter | with_reducible apply wf_ite | split)

theorem wf_sqinitServe (s : State) (k : Nat) (hw : memWf s.mem = true) : memWf (State.sqinitServe s k).mem = true := by
  unfold State.sqinitServe
  try dsimp only
  repeat' (first | with_reducible assumption | with_reducible apply wf_setSample | refine wf_st (by assumption) ?_ | with_reducible apply wf_dropPacket | with_reducible apply wf_complete | with_reducible apply wf_failCmd | with_reducible apply wf_saw  | with_reducible apply memWf_memWriteN | with_reducible apply memWf_memClear | with_reducible apply memWf_filter | with_reducible apply wf_ite | split)

theorem wf_passSample (s : State) (k clid r : Nat) (p : Packet) (hw : memWf s.mem = true) : memWf (State.passSample s k clid r p).mem = true := by
  unfold State.passSample
  try dsimp only
  repeat' (first | with_reducible assumption | with_reducible apply wf_bindTo  )

theorem wf_sqstepServe (s : State) (k : Nat) (hw : memWf s.mem = true) : memWf (State.sqstepServe s k).mem = true := by
  unfold State.sqstepServe
  try dsimp only
  repeat' (first | with_reducible assumption | with_reducible apply wf_passSample | with_reducible apply wf_setSample | refine wf_st (by assumption) ?_ | with_reducible apply wf_dropPacket | with_reducible apply wf_faultFor  | with_reducible apply memWf_memWriteN | with_reducible apply memWf_memClear | with_reducible apply memWf_filter | with_reducible apply wf_ite | split)

theorem wf_sqstageServe (s : State) (k : Nat) (hw : memWf s.mem = true) : memWf (State.sqstageServe s k).mem = true := by
  unfold State.sqstageServe
  try dsimp only
  repeat' (first | with_reducible assumption | with_reducible apply wf_passSample | with_reducible apply wf_setSample | refine wf_st (by assumption) ?_ | with_reducible apply wf_dropPacket | with_reducible apply wf_faultFor  | with_reducible apply memWf_memWriteN | with_reducible apply memWf_memClear | with_reducible apply memWf_filter | with_reducible apply wf_ite | split)

theorem wf_sqrdServe (s : State) (k : Nat) (hw : memWf s.mem = true) : memWf (State.sqrdServe s k).mem = true := by
  unfold State.sqrdServe
  try dsimp only
  repeat' (first | with_reducible assumption | with_reducible apply wf_dropPacket | with_reducible apply wf_sendReply  | with_reducible apply memWf_memWriteN | with_reducible apply memWf_memClear | with_reducible apply memWf_filter | with_reducible apply wf_ite | split)

theorem wf_sawArrays (s : State) (clid r : Nat) (x : Sample) (m : Nat) (hw : memWf s.mem = true) : memWf (State.sawArrays s clid r x m).mem = true := by
  unfold State.sawArrays
  try dsimp only
  repeat' (first | with_reducible assumption | with_reducible apply wf_saw | (apply wf_foldl; intro _ _ _) )

theorem wf_putArray (s : State) (clid addr : Nat) (xs : List (BitVec 32)) (hw : memWf s.mem = true) : memWf (State.putArray s clid addr xs).mem = true := by
  unfold State.putArray
  try dsimp only
  repeat' (first | with_reducible assumption | with_reducible apply wf_writeN | (apply wf_foldl; intro _ _ _) )

theorem wf_seqrSignal (s : State) (clid : Nat) (x : Sample) (n : Nat) (hw : memWf s.mem = true) : memWf (State.seqrSignal s clid x n).mem = true := by
  unfold State.seqrSignal
  try dsimp only
  repeat' (first | with_reducible assumption | with_reducible apply wf_sendSignal | with_reducible apply wf_modPart  )

theorem wf_seqrFault (s : State) (clid r : Nat) (x : Sample) (code : Code) (hw : memWf s.mem = true) : memWf (State.seqrFault s clid r x code).mem = true := by
  unfold State.seqrFault
  try dsimp only
  repeat' (first | with_reducible assumption | with_reducible apply wf_setSample | refine wf_st (by assumption) ?_ | with_reducible apply wf_faultFor  )

theorem wf_stageFormed (s : State) (clid r : Nat) (hw : memWf s.mem = true) : memWf (State.stageFormed s clid r).mem = true := by
  unfold State.stageFormed
  try dsimp only
  repeat' (first | with_reducible assumption | with_reducible apply wf_seqrFault | with_reducible apply wf_seqrSignal | with_reducible apply wf_putArray | with_reducible apply wf_sawArrays | with_reducible apply wf_setSample  | with_reducible apply memWf_memWriteN | with_reducible apply memWf_memClear | with_reducible apply memWf_filter | with_reducible apply wf_ite | split)

theorem wf_stepDecision (s : State) (clid r : Nat) (hw : memWf s.mem = true) : memWf (State.stepDecision s clid r).mem = true := by
  unfold State.stepDecision
  try dsimp only
  repeat' (first | with_reducible assumption | with_reducible apply wf_seqrFault | with_reducible apply wf_seqrSignal | with_reducible apply wf_putArray | with_reducible apply wf_sawArrays | with_reducible apply wf_setSample | refine wf_st (by assumption) ?_  | with_reducible apply memWf_memWriteN | with_reducible apply memWf_memClear | with_reducible apply memWf_filter | with_reducible apply wf_ite | split)

theorem wf_seqrSend (s : State) (minor : Nat) (body : Body) (r : Ret) (hw : memWf s.mem = true) : memWf (State.seqrSend s minor body r).mem = true := by
  unfold State.seqrSend
  try dsimp only
  repeat' (first | with_reducible assumption | with_reducible apply wf_send | with_reducible apply wf_newCmd  )

theorem wf_sqtabOp {f : WForm} {s0 : State} {u_ : State} (e : State.sqtabOp f s0 = .ok u_) (hw : memWf s0.mem = true) : memWf u_.mem = true := by
  unfold State.sqtabOp at e
  try dsimp only at e
  repeat' (first | (with_reducible replace e := bind_ok e; obtain ⟨_, _, e⟩ := e) | split at e)
  all_goals repeat' (first | with_reducible assumption | exact wf_error e | refine wf_readS (by assumption) ?_ | refine wf_pureS (by assumption) ?_ | refine wf_okS (by assumption) ?_ | refine wf_pureR (by assumption) ?_ | refine wf_okR (by assumption) ?_ | refine wf_newCmd_eq (by assumption) ?_ | with_reducible apply wf_seqrSend )

theorem wf_sqinitOp {f : WForm} {s0 : State} {u_ : State} (e : State.sqinitOp f s0 = .ok u_) (hw : memWf s0.mem = true) : memWf u_.mem = true := by
  unfold State.sqinitOp at e
  try dsimp only at e
  repeat' (first | (with_reducible replace e := bind_ok e; obtain ⟨_, _, e⟩ := e) | split at e)
  all_goals repeat' (first | with_reducible assumption | exact wf_error e | refine wf_readAB (by assumption) ?_ | refine wf_readS (by assumption) ?_ | refine wf_pureS (by assumption) ?_ | refine wf_okS (by assumption) ?_ | refine wf_pureR (by assumption) ?_ | refine wf_okR (by assumption) ?_ | refine wf_newCmd_eq (by assumption) ?_ | with_reducible apply wf_seqrSend )

theorem wf_sqgoOp {stage : Bool} {f : WForm} {s0 : State} {u_ : State} (e : State.sqgoOp stage f s0 = .ok u_) (hw : memWf s0.mem = true) : memWf u_.mem = true := by
  unfold State.sqgoOp at e
  try dsimp only at e
  repeat' (first | (with_reducible replace e := bind_ok e; obtain ⟨_, _, e⟩ := e) | split at e)
  all_goals repeat' (first | with_reducible assumption | exact wf_error e | refine wf_readS (by assumption) ?_ | refine wf_pureS (by assumption) ?_ )

theorem wf_sqrdOp {f : WForm} {s0 : State} {u_ : State} (e : State.sqrdOp f s0 = .ok u_) (hw : memWf s0.mem = true) : memWf u_.mem = true := by
  unfold State.sqrdOp at e
  try dsimp only at e
  repeat' (first | (with_reducible replace e := bind_ok e; obtain ⟨_, _, e⟩ := e) | split at e)
  all_goals repeat' (first | with_reducible assumption | exact wf_error e | refine wf_readS (by assumption) ?_ | refine wf_pureS (by assumption) ?_ | refine wf_okS (by assumption) ?_ | refine wf_pureR (by assumption) ?_ | refine wf_okR (by assumption) ?_ | refine wf_newCmd_eq (by assumption) ?_ | with_reducible apply wf_seqrSend )

theorem wf_withFetchWord (s : State) (nbits w : Nat) (hw : memWf s.mem = true) : memWf (State.withFetchWord s nbits w).mem = true := by
  unfold State.withFetchWord
  try dsimp only
  repeat' (first | with_reducible assumption | with_reducible apply wf_setCell | with_reducible apply wf_setCore | with_reducible apply memWf_memWriteN )

end Sys2Proof.Machine
end

