-- ==== Sys2Proof/Laws/Dispatch.lean ====
section
/-! SUPPORT. The arms of exec as equations, one for each constructor. -/

namespace Sys2Proof.Machine

@[simp] theorem exec_moduleReset : ∀ s, exec (.moduleReset) s = execModuleReset s := fun _ => rfl
@[simp] theorem exec_imageLoad : ∀ p img s, exec (.imageLoad p img) s = execImageLoad p img s := fun _ _ _ => rfl
@[simp] theorem exec_illegalPattern : ∀ code s, exec (.illegalPattern code) s = execIllegalPattern code s := fun _ _ => rfl
@[simp] theorem exec_dispatch : ∀ cid ctx s, exec (.dispatch cid ctx) s = execDispatch cid ctx s := fun _ _ _ => rfl
@[simp] theorem exec_signalArrival : ∀ cid f slot pkts s, exec (.signalArrival cid f slot pkts) s = execSignalArrival cid f slot pkts s := fun _ _ _ _ _ => rfl
@[simp] theorem exec_allocationRequest : ∀ pkt same s, exec (.allocationRequest pkt same) s = execAllocationRequest pkt same s := fun _ _ _ => rfl
@[simp] theorem exec_armingRequest : ∀ pkt same s, exec (.armingRequest pkt same) s = execArmingRequest pkt same s := fun _ _ _ => rfl
@[simp] theorem exec_freeRequest : ∀ pkt s, exec (.freeRequest pkt) s = execFreeRequest pkt s := fun _ _ => rfl
@[simp] theorem exec_stfRequest : ∀ pkt s, exec (.stfRequest pkt) s = execStfRequest pkt s := fun _ _ => rfl
@[simp] theorem exec_ldfRequest : ∀ pkt s, exec (.ldfRequest pkt) s = execLdfRequest pkt s := fun _ _ => rfl
@[simp] theorem exec_replyArrival : ∀ pkt same s, exec (.replyArrival pkt same) s = execReplyArrival pkt same s := fun _ _ _ => rfl
@[simp] theorem exec_spilledRequestApply : ∀ pkt s, exec (.spilledRequestApply pkt) s = execSpilledRequestApply pkt s := fun _ _ => rfl
@[simp] theorem exec_fill : ∀ cid s, exec (.fill cid) s = execFill cid s := fun _ _ => rfl
@[simp] theorem exec_writeBackStart : ∀ cid f s, exec (.writeBackStart cid f) s = execWriteBackStart cid f s := fun _ _ _ => rfl
@[simp] theorem exec_writeBackComplete : ∀ cid f s, exec (.writeBackComplete cid f) s = execWriteBackComplete cid f s := fun _ _ _ => rfl
@[simp] theorem exec_matrixCommandStart : ∀ cid m s, exec (.matrixCommandStart cid m) s = execMatrixCommandStart cid m s := fun _ _ _ => rfl
@[simp] theorem exec_matrixCommandFinish : ∀ cid m s, exec (.matrixCommandFinish cid m) s = execMatrixCommandFinish cid m s := fun _ _ _ => rfl
@[simp] theorem exec_mdrainRow : ∀ cid m s, exec (.mdrainRow cid m) s = execMdrainRow cid m s := fun _ _ _ => rfl
@[simp] theorem exec_mrotTileLands : ∀ pkt s, exec (.mrotTileLands pkt) s = execMrotTileLands pkt s := fun _ _ => rfl
@[simp] theorem exec_landingMove : ∀ cid latch s, exec (.landingMove cid latch) s = execLandingMove cid latch s := fun _ _ _ => rfl
@[simp] theorem exec_portWordArrival : ∀ cid dir s, exec (.portWordArrival cid dir) s = execPortWordArrival cid dir s := fun _ _ _ => rfl
@[simp] theorem exec_ldrmRequest : ∀ pkt s, exec (.ldrmRequest pkt) s = execLdrmRequest pkt s := fun _ _ => rfl
@[simp] theorem exec_strmRequest : ∀ pkt s, exec (.strmRequest pkt) s = execStrmRequest pkt s := fun _ _ => rfl
@[simp] theorem exec_atomicRequest : ∀ pkt s, exec (.atomicRequest pkt) s = execAtomicRequest pkt s := fun _ _ => rfl
@[simp] theorem exec_ringRequest : ∀ pkt s, exec (.ringRequest pkt) s = execRingRequest pkt s := fun _ _ => rfl
@[simp] theorem exec_fenceRelease : ∀ pkt s, exec (.fenceRelease pkt) s = execFenceRelease pkt s := fun _ _ => rfl
@[simp] theorem exec_releaseSignalSend : ∀ pkt s, exec (.releaseSignalSend pkt) s = execReleaseSignalSend pkt s := fun _ _ => rfl
@[simp] theorem exec_walkStart : ∀ clid w s, exec (.walkStart clid w) s = execWalkStart clid w s := fun _ _ _ => rfl
@[simp] theorem exec_walkTranslation : ∀ w tile choice s, exec (.walkTranslation w tile choice) s = execWalkTranslation w tile choice s := fun _ _ _ _ => rfl
@[simp] theorem exec_walkMove : ∀ w moves s, exec (.walkMove w moves) s = execWalkMove w moves s := fun _ _ _ => rfl
@[simp] theorem exec_dimensionEndSignal : ∀ w level run target s, exec (.dimensionEndSignal w level run target) s = execDimensionEndSignal w level run target s := fun _ _ _ _ _ => rfl
@[simp] theorem exec_finalSignal : ∀ w s, exec (.finalSignal w) s = execFinalSignal w s := fun _ _ => rfl
@[simp] theorem exec_twcanComplete : ∀ pkt s, exec (.twcanComplete pkt) s = execTwcanComplete pkt s := fun _ _ => rfl
@[simp] theorem exec_stepdDone : ∀ cid fid s, exec (.stepdDone cid fid) s = execStepdDone cid fid s := fun _ _ _ => rfl
@[simp] theorem exec_stepAdvance : ∀ cid s, exec (.stepAdvance cid) s = execStepAdvance cid s := fun _ _ => rfl
@[simp] theorem exec_stepNotice : ∀ pkt s, exec (.stepNotice pkt) s = execStepNotice pkt s := fun _ _ => rfl
@[simp] theorem exec_ldstRequest : ∀ pkt s, exec (.ldstRequest pkt) s = execLdstRequest pkt s := fun _ _ => rfl
@[simp] theorem exec_stepqRequest : ∀ pkt s, exec (.stepqRequest pkt) s = execStepqRequest pkt s := fun _ _ => rfl
@[simp] theorem exec_stepRequestResend : ∀ pkt s, exec (.stepRequestResend pkt) s = execStepRequestResend pkt s := fun _ _ => rfl
@[simp] theorem exec_sqtabServe : ∀ pkt s, exec (.sqtabServe pkt) s = execSqtabServe pkt s := fun _ _ => rfl
@[simp] theorem exec_sqinitServe : ∀ pkt s, exec (.sqinitServe pkt) s = execSqinitServe pkt s := fun _ _ => rfl
@[simp] theorem exec_sqstepServe : ∀ pkt s, exec (.sqstepServe pkt) s = execSqstepServe pkt s := fun _ _ => rfl
@[simp] theorem exec_sqstageServe : ∀ pkt s, exec (.sqstageServe pkt) s = execSqstageServe pkt s := fun _ _ => rfl
@[simp] theorem exec_sqrdServe : ∀ pkt s, exec (.sqrdServe pkt) s = execSqrdServe pkt s := fun _ _ => rfl
@[simp] theorem exec_stageFormed : ∀ clid r s, exec (.stageFormed clid r) s = execStageFormed clid r s := fun _ _ _ => rfl
@[simp] theorem exec_stepDecision : ∀ clid r s, exec (.stepDecision clid r) s = execStepDecision clid r s := fun _ _ _ => rfl
@[simp] theorem exec_launchRequest : ∀ pkt s, exec (.launchRequest pkt) s = execLaunchRequest pkt s := fun _ _ => rfl
@[simp] theorem exec_instanceStart : ∀ handle s, exec (.instanceStart handle) s = execInstanceStart handle s := fun _ _ => rfl
@[simp] theorem exec_launchMulticast : ∀ die handle s, exec (.launchMulticast die handle) s = execLaunchMulticast die handle s := fun _ _ _ => rfl
@[simp] theorem exec_instanceEnd : ∀ handle s, exec (.instanceEnd handle) s = execInstanceEnd handle s := fun _ _ => rfl
@[simp] theorem exec_creditLend : ∀ die p s, exec (.creditLend die p) s = execCreditLend die p s := fun _ _ _ => rfl
@[simp] theorem exec_gqueryRequest : ∀ pkt s, exec (.gqueryRequest pkt) s = execGqueryRequest pkt s := fun _ _ => rfl
@[simp] theorem exec_gcanRequest : ∀ pkt s, exec (.gcanRequest pkt) s = execGcanRequest pkt s := fun _ _ => rfl
@[simp] theorem exec_subqBase : ∀ p v s, exec (.subqBase p v) s = execSubqBase p v s := fun _ _ _ => rfl
@[simp] theorem exec_subqLog : ∀ p v s, exec (.subqLog p v) s = execSubqLog p v s := fun _ _ _ => rfl
@[simp] theorem exec_subqTail : ∀ p v s, exec (.subqTail p v) s = execSubqTail p v s := fun _ _ _ => rfl
@[simp] theorem exec_submissionEntryRead : ∀ p s, exec (.submissionEntryRead p) s = execSubmissionEntryRead p s := fun _ _ => rfl
@[simp] theorem exec_forecast : ∀ die s, exec (.forecast die) s = execForecast die s := fun _ _ => rfl
@[simp] theorem exec_telemetryUpdate : ∀ die s, exec (.telemetryUpdate die) s = execTelemetryUpdate die s := fun _ _ => rfl
@[simp] theorem exec_placementEntryWrite : ∀ p cb w0 w1 s, exec (.placementEntryWrite p cb w0 w1) s = execPlacementEntryWrite p cb w0 w1 s := fun _ _ _ _ _ => rfl
@[simp] theorem exec_spillFrames : ∀ p v s, exec (.spillFrames p v) s = execSpillFrames p v s := fun _ _ _ => rfl
@[simp] theorem exec_spillBase : ∀ p d v s, exec (.spillBase p d v) s = execSpillBase p d v s := fun _ _ _ _ => rfl
@[simp] theorem exec_migGo : ∀ p v s, exec (.migGo p v) s = execMigGo p v s := fun _ _ _ => rfl
@[simp] theorem exec_migrationComplete : ∀ p s, exec (.migrationComplete p) s = execMigrationComplete p s := fun _ _ => rfl
@[simp] theorem exec_commit : ∀ v s, exec (.commit v) s = execCommit v s := fun _ _ => rfl
@[simp] theorem exec_drainMessage : ∀ die s, exec (.drainMessage die) s = execDrainMessage die s := fun _ _ => rfl
@[simp] theorem exec_clearingComplete : ∀ p s, exec (.clearingComplete p) s = execClearingComplete p s := fun _ _ => rfl
@[simp] theorem exec_preempt : ∀ p s, exec (.preempt p) s = execPreempt p s := fun _ _ => rfl
@[simp] theorem exec_resume : ∀ p s, exec (.resume p) s = execResume p s := fun _ _ => rfl
@[simp] theorem exec_coreSave : ∀ cid s, exec (.coreSave cid) s = execCoreSave cid s := fun _ _ => rfl
@[simp] theorem exec_savedPacketApply : ∀ pkt s, exec (.savedPacketApply pkt) s = execSavedPacketApply pkt s := fun _ _ => rfl
@[simp] theorem exec_coreRestore : ∀ cid s, exec (.coreRestore cid) s = execCoreRestore cid s := fun _ _ => rfl
@[simp] theorem exec_ordArm : ∀ p d n v s, exec (.ordArm p d n v) s = execOrdArm p d n v s := fun _ _ _ _ _ => rfl
@[simp] theorem exec_ordAddr : ∀ p d n v s, exec (.ordAddr p d n v) s = execOrdAddr p d n v s := fun _ _ _ _ _ => rfl
@[simp] theorem exec_ordN : ∀ p d n v s, exec (.ordN p d n v) s = execOrdN p d n v s := fun _ _ _ _ _ => rfl
@[simp] theorem exec_orderedReductionRequest : ∀ pkt s, exec (.orderedReductionRequest pkt) s = execOrderedReductionRequest pkt s := fun _ _ => rfl
@[simp] theorem exec_faBase : ∀ p v s, exec (.faBase p v) s = execFaBase p v s := fun _ _ _ => rfl
@[simp] theorem exec_faLog : ∀ p v s, exec (.faLog p v) s = execFaLog p v s := fun _ _ _ => rfl
@[simp] theorem exec_faultRecordWrite : ∀ n s, exec (.faultRecordWrite n) s = execFaultRecordWrite n s := fun _ _ => rfl
@[simp] theorem exec_snapTrig : ∀ v s, exec (.snapTrig v) s = execSnapTrig v s := fun _ _ => rfl
@[simp] theorem exec_snapshotTriggerArrival : ∀ trig block s, exec (.snapshotTriggerArrival trig block) s = execSnapshotTriggerArrival trig block s := fun _ _ _ => rfl
@[simp] theorem exec_snapComplete : ∀ trig s, exec (.snapComplete trig) s = execSnapComplete trig s := fun _ _ => rfl
@[simp] theorem exec_mgCmdLoad : ∀ s, exec (.mgCmdLoad) s = execMgCmdLoad s := fun _ => rfl
@[simp] theorem exec_mgCmdActivate : ∀ s, exec (.mgCmdActivate) s = execMgCmdActivate s := fun _ => rfl
@[simp] theorem exec_mgCmdFloor : ∀ s, exec (.mgCmdFloor) s = execMgCmdFloor s := fun _ => rfl
@[simp] theorem exec_mgCmdQuote : ∀ s, exec (.mgCmdQuote) s = execMgCmdQuote s := fun _ => rfl
@[simp] theorem exec_freitCommandDone : ∀ s, exec (.freitCommandDone) s = execFreitCommandDone s := fun _ => rfl
@[simp] theorem exec_portEntryWrite : ∀ port word v s, exec (.portEntryWrite port word v) s = execPortEntryWrite port word v s := fun _ _ _ _ => rfl
@[simp] theorem exec_opticalLinkState : ∀ port up s, exec (.opticalLinkState port up) s = execOpticalLinkState port up s := fun _ _ _ => rfl
@[simp] theorem exec_peerReplicaWrite : ∀ port addr bytes s, exec (.peerReplicaWrite port addr bytes) s = execPeerReplicaWrite port addr bytes s := fun _ _ _ _ => rfl
@[simp] theorem exec_replicaWriteApply : ∀ pkt s, exec (.replicaWriteApply pkt) s = execReplicaWriteApply pkt s := fun _ _ => rfl
@[simp] theorem exec_hostWrite : ∀ bar off n v s, exec (.hostWrite bar off n v) s = execHostWrite bar off n v s := fun _ _ _ _ _ => rfl
@[simp] theorem exec_hostRead : ∀ bar off n s, exec (.hostRead bar off n) s = execHostRead bar off n s := fun _ _ _ _ => rfl
@[simp] theorem exec_cellGate : ∀ cell s, exec (.cellGate cell) s = execCellGate cell s := fun _ _ => rfl
@[simp] theorem exec_cellWake : ∀ cell s, exec (.cellWake cell) s = execCellWake cell s := fun _ _ => rfl
@[simp] theorem exec_quiescence : ∀ p s, exec (.quiescence p) s = execQuiescence p s := fun _ _ => rfl
@[simp] theorem exec_thermalTrip : ∀ die s, exec (.thermalTrip die) s = execThermalTrip die s := fun _ _ => rfl
@[simp] theorem exec_coreReset : ∀ cid s, exec (.coreReset cid) s = execCoreReset cid s := fun _ _ => rfl
@[simp] theorem exec_packetRefused : ∀ pkt s, exec (.packetRefused pkt) s = execPacketRefused pkt s := fun _ _ => rfl
@[simp] theorem exec_uncorrectableError : ∀ cid f ownerRead s, exec (.uncorrectableError cid f ownerRead) s = execUncorrectableError cid f ownerRead s := fun _ _ _ _ => rfl
@[simp] theorem exec_routerHop : ∀ pkt s, exec (.routerHop pkt) s = execRouterHop pkt s := fun _ _ => rfl
@[simp] theorem exec_linkFlitSend : ∀ x y port s, exec (.linkFlitSend x y port) s = execLinkFlitSend x y port s := fun _ _ _ _ => rfl
@[simp] theorem exec_crossbarGrant : ∀ die out s, exec (.crossbarGrant die out) s = execCrossbarGrant die out s := fun _ _ _ => rfl
@[simp] theorem exec_hbmRequestStart : ∀ die ch s, exec (.hbmRequestStart die ch) s = execHbmRequestStart die ch s := fun _ _ _ => rfl
@[simp] theorem exec_spliceEgressEnter : ∀ pkt s, exec (.spliceEgressEnter pkt) s = execSpliceEgressEnter pkt s := fun _ _ => rfl
@[simp] theorem exec_spliceIngressDeliver : ∀ p splice s, exec (.spliceIngressDeliver p splice) s = execSpliceIngressDeliver p splice s := fun _ _ _ => rfl
@[simp] theorem exec_mergedAtomicApply : ∀ pkt s, exec (.mergedAtomicApply pkt) s = execMergedAtomicApply pkt s := fun _ _ => rfl
@[simp] theorem exec_mergedReplySplit : ∀ pkt s, exec (.mergedReplySplit pkt) s = execMergedReplySplit pkt s := fun _ _ => rfl
@[simp] theorem exec_registerWrite : ∀ off v s, exec (.registerWrite off v) s = execRegisterWrite off v s := fun _ _ _ => rfl
@[simp] theorem exec_addC : ∀ f s, exec (.addC f) s = execAddC f s := fun _ _ => rfl
@[simp] theorem exec_add : ∀ f s, exec (.add f) s = execAdd f s := fun _ _ => rfl
@[simp] theorem exec_subC : ∀ f s, exec (.subC f) s = execSubC f s := fun _ _ => rfl
@[simp] theorem exec_sub : ∀ f s, exec (.sub f) s = execSub f s := fun _ _ => rfl
@[simp] theorem exec_mul : ∀ f s, exec (.mul f) s = execMul f s := fun _ _ => rfl
@[simp] theorem exec_mulh : ∀ f s, exec (.mulh f) s = execMulh f s := fun _ _ => rfl
@[simp] theorem exec_mulhu : ∀ f s, exec (.mulhu f) s = execMulhu f s := fun _ _ => rfl
@[simp] theorem exec_div : ∀ f s, exec (.div f) s = execDiv f s := fun _ _ => rfl
@[simp] theorem exec_divu : ∀ f s, exec (.divu f) s = execDivu f s := fun _ _ => rfl
@[simp] theorem exec_rem : ∀ f s, exec (.rem f) s = execRem f s := fun _ _ => rfl
@[simp] theorem exec_remu : ∀ f s, exec (.remu f) s = execRemu f s := fun _ _ => rfl
@[simp] theorem exec_andC : ∀ f s, exec (.andC f) s = execAndC f s := fun _ _ => rfl
@[simp] theorem exec_and : ∀ f s, exec (.and f) s = execAnd f s := fun _ _ => rfl
@[simp] theorem exec_orC : ∀ f s, exec (.orC f) s = execOrC f s := fun _ _ => rfl
@[simp] theorem exec_or : ∀ f s, exec (.or f) s = execOr f s := fun _ _ => rfl
@[simp] theorem exec_xorC : ∀ f s, exec (.xorC f) s = execXorC f s := fun _ _ => rfl
@[simp] theorem exec_xor : ∀ f s, exec (.xor f) s = execXor f s := fun _ _ => rfl
@[simp] theorem exec_andn : ∀ f s, exec (.andn f) s = execAndn f s := fun _ _ => rfl
@[simp] theorem exec_shlC : ∀ f s, exec (.shlC f) s = execShlC f s := fun _ _ => rfl
@[simp] theorem exec_shl : ∀ f s, exec (.shl f) s = execShl f s := fun _ _ => rfl
@[simp] theorem exec_shrC : ∀ f s, exec (.shrC f) s = execShrC f s := fun _ _ => rfl
@[simp] theorem exec_shr : ∀ f s, exec (.shr f) s = execShr f s := fun _ _ => rfl
@[simp] theorem exec_sarC : ∀ f s, exec (.sarC f) s = execSarC f s := fun _ _ => rfl
@[simp] theorem exec_sar : ∀ f s, exec (.sar f) s = execSar f s := fun _ _ => rfl
@[simp] theorem exec_rol : ∀ f s, exec (.rol f) s = execRol f s := fun _ _ => rfl
@[simp] theorem exec_min : ∀ f s, exec (.min f) s = execMin f s := fun _ _ => rfl
@[simp] theorem exec_max : ∀ f s, exec (.max f) s = execMax f s := fun _ _ => rfl
@[simp] theorem exec_minu : ∀ f s, exec (.minu f) s = execMinu f s := fun _ _ => rfl
@[simp] theorem exec_maxu : ∀ f s, exec (.maxu f) s = execMaxu f s := fun _ _ => rfl
@[simp] theorem exec_addi : ∀ f s, exec (.addi f) s = execAddi f s := fun _ _ => rfl
@[simp] theorem exec_addiX : ∀ f s, exec (.addiX f) s = execAddiX f s := fun _ _ => rfl
@[simp] theorem exec_andi : ∀ f s, exec (.andi f) s = execAndi f s := fun _ _ => rfl
@[simp] theorem exec_andiX : ∀ f s, exec (.andiX f) s = execAndiX f s := fun _ _ => rfl
@[simp] theorem exec_ori : ∀ f s, exec (.ori f) s = execOri f s := fun _ _ => rfl
@[simp] theorem exec_oriX : ∀ f s, exec (.oriX f) s = execOriX f s := fun _ _ => rfl
@[simp] theorem exec_xori : ∀ f s, exec (.xori f) s = execXori f s := fun _ _ => rfl
@[simp] theorem exec_xoriX : ∀ f s, exec (.xoriX f) s = execXoriX f s := fun _ _ => rfl
@[simp] theorem exec_shli : ∀ f s, exec (.shli f) s = execShli f s := fun _ _ => rfl
@[simp] theorem exec_shliX : ∀ f s, exec (.shliX f) s = execShliX f s := fun _ _ => rfl
@[simp] theorem exec_shri : ∀ f s, exec (.shri f) s = execShri f s := fun _ _ => rfl
@[simp] theorem exec_shriX : ∀ f s, exec (.shriX f) s = execShriX f s := fun _ _ => rfl
@[simp] theorem exec_sari : ∀ f s, exec (.sari f) s = execSari f s := fun _ _ => rfl
@[simp] theorem exec_sariX : ∀ f s, exec (.sariX f) s = execSariX f s := fun _ _ => rfl
@[simp] theorem exec_muli : ∀ f s, exec (.muli f) s = execMuli f s := fun _ _ => rfl
@[simp] theorem exec_muliX : ∀ f s, exec (.muliX f) s = execMuliX f s := fun _ _ => rfl
@[simp] theorem exec_clz : ∀ f s, exec (.clz f) s = execClz f s := fun _ _ => rfl
@[simp] theorem exec_ctz : ∀ f s, exec (.ctz f) s = execCtz f s := fun _ _ => rfl
@[simp] theorem exec_popc : ∀ f s, exec (.popc f) s = execPopc f s := fun _ _ => rfl
@[simp] theorem exec_brev : ∀ f s, exec (.brev f) s = execBrev f s := fun _ _ => rfl
@[simp] theorem exec_bext : ∀ f s, exec (.bext f) s = execBext f s := fun _ _ => rfl
@[simp] theorem exec_bins : ∀ f s, exec (.bins f) s = execBins f s := fun _ _ => rfl
@[simp] theorem exec_sext : ∀ f s, exec (.sext f) s = execSext f s := fun _ _ => rfl
@[simp] theorem exec_zext : ∀ f s, exec (.zext f) s = execZext f s := fun _ _ => rfl
@[simp] theorem exec_cmp : ∀ f s, exec (.cmp f) s = execCmp f s := fun _ _ => rfl
@[simp] theorem exec_cmpi : ∀ f s, exec (.cmpi f) s = execCmpi f s := fun _ _ => rfl
@[simp] theorem exec_cmpiX : ∀ f s, exec (.cmpiX f) s = execCmpiX f s := fun _ _ => rfl
@[simp] theorem exec_pand : ∀ f s, exec (.pand f) s = execPand f s := fun _ _ => rfl
@[simp] theorem exec_por : ∀ f s, exec (.por f) s = execPor f s := fun _ _ => rfl
@[simp] theorem exec_pxor : ∀ f s, exec (.pxor f) s = execPxor f s := fun _ _ => rfl
@[simp] theorem exec_pnot : ∀ f s, exec (.pnot f) s = execPnot f s := fun _ _ => rfl
@[simp] theorem exec_pset : ∀ f s, exec (.pset f) s = execPset f s := fun _ _ => rfl
@[simp] theorem exec_pget : ∀ f s, exec (.pget f) s = execPget f s := fun _ _ => rfl
@[simp] theorem exec_sel : ∀ f s, exec (.sel f) s = execSel f s := fun _ _ => rfl
@[simp] theorem exec_lea : ∀ f s, exec (.lea f) s = execLea f s := fun _ _ => rfl
@[simp] theorem exec_leaX : ∀ f s, exec (.leaX f) s = execLeaX f s := fun _ _ => rfl
@[simp] theorem exec_nopC : ∀ f s, exec (.nopC f) s = execNopC f s := fun _ _ => rfl
@[simp] theorem exec_nop : ∀ f s, exec (.nop f) s = execNop f s := fun _ _ => rfl
@[simp] theorem exec_hint : ∀ f s, exec (.hint f) s = execHint f s := fun _ _ => rfl
@[simp] theorem exec_hintX : ∀ f s, exec (.hintX f) s = execHintX f s := fun _ _ => rfl
@[simp] theorem exec_rdcyc : ∀ f s, exec (.rdcyc f) s = execRdcyc f s := fun _ _ => rfl
@[simp] theorem exec_rdcnt : ∀ f s, exec (.rdcnt f) s = execRdcnt f s := fun _ _ => rfl
@[simp] theorem exec_br : ∀ f s, exec (.br f) s = execBr f s := fun _ _ => rfl
@[simp] theorem exec_brX : ∀ f s, exec (.brX f) s = execBrX f s := fun _ _ => rfl
@[simp] theorem exec_brx : ∀ f s, exec (.brx f) s = execBrx f s := fun _ _ => rfl
@[simp] theorem exec_call : ∀ f s, exec (.call f) s = execCall f s := fun _ _ => rfl
@[simp] theorem exec_callX : ∀ f s, exec (.callX f) s = execCallX f s := fun _ _ => rfl
@[simp] theorem exec_ret : ∀ f s, exec (.ret f) s = execRet f s := fun _ _ => rfl
@[simp] theorem exec_endC : ∀ f s, exec (.endC f) s = execEndC f s := fun _ _ => rfl
@[simp] theorem exec_endW : ∀ f s, exec (.endW f) s = execEndW f s := fun _ _ => rfl
@[simp] theorem exec_fadd : ∀ f s, exec (.fadd f) s = execFadd f s := fun _ _ => rfl
@[simp] theorem exec_fsub : ∀ f s, exec (.fsub f) s = execFsub f s := fun _ _ => rfl
@[simp] theorem exec_fmul : ∀ f s, exec (.fmul f) s = execFmul f s := fun _ _ => rfl
@[simp] theorem exec_ffma : ∀ f s, exec (.ffma f) s = execFfma f s := fun _ _ => rfl
@[simp] theorem exec_fdiv : ∀ f s, exec (.fdiv f) s = execFdiv f s := fun _ _ => rfl
@[simp] theorem exec_fsqrt : ∀ f s, exec (.fsqrt f) s = execFsqrt f s := fun _ _ => rfl
@[simp] theorem exec_fmin : ∀ f s, exec (.fmin f) s = execFmin f s := fun _ _ => rfl
@[simp] theorem exec_fmax : ∀ f s, exec (.fmax f) s = execFmax f s := fun _ _ => rfl
@[simp] theorem exec_fabs : ∀ f s, exec (.fabs f) s = execFabs f s := fun _ _ => rfl
@[simp] theorem exec_fneg : ∀ f s, exec (.fneg f) s = execFneg f s := fun _ _ => rfl
@[simp] theorem exec_fcmp : ∀ f s, exec (.fcmp f) s = execFcmp f s := fun _ _ => rfl
@[simp] theorem exec_fclass : ∀ f s, exec (.fclass f) s = execFclass f s := fun _ _ => rfl
@[simp] theorem exec_tadd : ∀ f s, exec (.tadd f) s = execTadd f s := fun _ _ => rfl
@[simp] theorem exec_tsub : ∀ f s, exec (.tsub f) s = execTsub f s := fun _ _ => rfl
@[simp] theorem exec_tmul : ∀ f s, exec (.tmul f) s = execTmul f s := fun _ _ => rfl
@[simp] theorem exec_tfma : ∀ f s, exec (.tfma f) s = execTfma f s := fun _ _ => rfl
@[simp] theorem exec_tdiv : ∀ f s, exec (.tdiv f) s = execTdiv f s := fun _ _ => rfl
@[simp] theorem exec_tsqrt : ∀ f s, exec (.tsqrt f) s = execTsqrt f s := fun _ _ => rfl
@[simp] theorem exec_tmin : ∀ f s, exec (.tmin f) s = execTmin f s := fun _ _ => rfl
@[simp] theorem exec_tmax : ∀ f s, exec (.tmax f) s = execTmax f s := fun _ _ => rfl
@[simp] theorem exec_tabs : ∀ f s, exec (.tabs f) s = execTabs f s := fun _ _ => rfl
@[simp] theorem exec_tneg : ∀ f s, exec (.tneg f) s = execTneg f s := fun _ _ => rfl
@[simp] theorem exec_tcmp : ∀ f s, exec (.tcmp f) s = execTcmp f s := fun _ _ => rfl
@[simp] theorem exec_spz : ∀ f s, exec (.spz f) s = execSpz f s := fun _ _ => rfl
@[simp] theorem exec_spfma : ∀ f s, exec (.spfma f) s = execSpfma f s := fun _ _ => rfl
@[simp] theorem exec_spfms : ∀ f s, exec (.spfms f) s = execSpfms f s := fun _ _ => rfl
@[simp] theorem exec_spadd : ∀ f s, exec (.spadd f) s = execSpadd f s := fun _ _ => rfl
@[simp] theorem exec_spsub : ∀ f s, exec (.spsub f) s = execSpsub f s := fun _ _ => rfl
@[simp] theorem exec_sprnd : ∀ f s, exec (.sprnd f) s = execSprnd f s := fun _ _ => rfl
@[simp] theorem exec_spld : ∀ f s, exec (.spld f) s = execSpld f s := fun _ _ => rfl
@[simp] theorem exec_spldX : ∀ f s, exec (.spldX f) s = execSpldX f s := fun _ _ => rfl
@[simp] theorem exec_spst : ∀ f s, exec (.spst f) s = execSpst f s := fun _ _ => rfl
@[simp] theorem exec_spstX : ∀ f s, exec (.spstX f) s = execSpstX f s := fun _ _ => rfl
@[simp] theorem exec_cvt : ∀ f s, exec (.cvt f) s = execCvt f s := fun _ _ => rfl
@[simp] theorem exec_lclaim : ∀ f s, exec (.lclaim f) s = execLclaim f s := fun _ _ => rfl
@[simp] theorem exec_lrel : ∀ f s, exec (.lrel f) s = execLrel f s := fun _ _ => rfl
@[simp] theorem exec_lcount : ∀ f s, exec (.lcount f) s = execLcount f s := fun _ _ => rfl
@[simp] theorem exec_vadd : ∀ f s, exec (.vadd f) s = execVadd f s := fun _ _ => rfl
@[simp] theorem exec_vsub : ∀ f s, exec (.vsub f) s = execVsub f s := fun _ _ => rfl
@[simp] theorem exec_vmul : ∀ f s, exec (.vmul f) s = execVmul f s := fun _ _ => rfl
@[simp] theorem exec_vmulh : ∀ f s, exec (.vmulh f) s = execVmulh f s := fun _ _ => rfl
@[simp] theorem exec_vmad : ∀ f s, exec (.vmad f) s = execVmad f s := fun _ _ => rfl
@[simp] theorem exec_vmin : ∀ f s, exec (.vmin f) s = execVmin f s := fun _ _ => rfl
@[simp] theorem exec_vmax : ∀ f s, exec (.vmax f) s = execVmax f s := fun _ _ => rfl
@[simp] theorem exec_vabs : ∀ f s, exec (.vabs f) s = execVabs f s := fun _ _ => rfl
@[simp] theorem exec_vand : ∀ f s, exec (.vand f) s = execVand f s := fun _ _ => rfl
@[simp] theorem exec_vor : ∀ f s, exec (.vor f) s = execVor f s := fun _ _ => rfl
@[simp] theorem exec_vxor : ∀ f s, exec (.vxor f) s = execVxor f s := fun _ _ => rfl
@[simp] theorem exec_vshl : ∀ f s, exec (.vshl f) s = execVshl f s := fun _ _ => rfl
@[simp] theorem exec_vshr : ∀ f s, exec (.vshr f) s = execVshr f s := fun _ _ => rfl
@[simp] theorem exec_vsar : ∀ f s, exec (.vsar f) s = execVsar f s := fun _ _ => rfl
@[simp] theorem exec_vrshr : ∀ f s, exec (.vrshr f) s = execVrshr f s := fun _ _ => rfl
@[simp] theorem exec_vsat : ∀ f s, exec (.vsat f) s = execVsat f s := fun _ _ => rfl
@[simp] theorem exec_vclamp : ∀ f s, exec (.vclamp f) s = execVclamp f s := fun _ _ => rfl
@[simp] theorem exec_vdot4 : ∀ f s, exec (.vdot4 f) s = execVdot4 f s := fun _ _ => rfl
@[simp] theorem exec_vdot2 : ∀ f s, exec (.vdot2 f) s = execVdot2 f s := fun _ _ => rfl
@[simp] theorem exec_vfadd : ∀ f s, exec (.vfadd f) s = execVfadd f s := fun _ _ => rfl
@[simp] theorem exec_vfsub : ∀ f s, exec (.vfsub f) s = execVfsub f s := fun _ _ => rfl
@[simp] theorem exec_vfmul : ∀ f s, exec (.vfmul f) s = execVfmul f s := fun _ _ => rfl
@[simp] theorem exec_vffma : ∀ f s, exec (.vffma f) s = execVffma f s := fun _ _ => rfl
@[simp] theorem exec_vfmin : ∀ f s, exec (.vfmin f) s = execVfmin f s := fun _ _ => rfl
@[simp] theorem exec_vfmax : ∀ f s, exec (.vfmax f) s = execVfmax f s := fun _ _ => rfl
@[simp] theorem exec_vfabs : ∀ f s, exec (.vfabs f) s = execVfabs f s := fun _ _ => rfl
@[simp] theorem exec_vfneg : ∀ f s, exec (.vfneg f) s = execVfneg f s := fun _ _ => rfl
@[simp] theorem exec_vexp2 : ∀ f s, exec (.vexp2 f) s = execVexp2 f s := fun _ _ => rfl
@[simp] theorem exec_vlog2 : ∀ f s, exec (.vlog2 f) s = execVlog2 f s := fun _ _ => rfl
@[simp] theorem exec_vrcp : ∀ f s, exec (.vrcp f) s = execVrcp f s := fun _ _ => rfl
@[simp] theorem exec_vrsqrt : ∀ f s, exec (.vrsqrt f) s = execVrsqrt f s := fun _ _ => rfl
@[simp] theorem exec_vsqrt : ∀ f s, exec (.vsqrt f) s = execVsqrt f s := fun _ _ => rfl
@[simp] theorem exec_vdiv : ∀ f s, exec (.vdiv f) s = execVdiv f s := fun _ _ => rfl
@[simp] theorem exec_vtadd : ∀ f s, exec (.vtadd f) s = execVtadd f s := fun _ _ => rfl
@[simp] theorem exec_vtsub : ∀ f s, exec (.vtsub f) s = execVtsub f s := fun _ _ => rfl
@[simp] theorem exec_vtmul : ∀ f s, exec (.vtmul f) s = execVtmul f s := fun _ _ => rfl
@[simp] theorem exec_vtfma : ∀ f s, exec (.vtfma f) s = execVtfma f s := fun _ _ => rfl
@[simp] theorem exec_vtmin : ∀ f s, exec (.vtmin f) s = execVtmin f s := fun _ _ => rfl
@[simp] theorem exec_vtmax : ∀ f s, exec (.vtmax f) s = execVtmax f s := fun _ _ => rfl
@[simp] theorem exec_vspz : ∀ f s, exec (.vspz f) s = execVspz f s := fun _ _ => rfl
@[simp] theorem exec_vspfma : ∀ f s, exec (.vspfma f) s = execVspfma f s := fun _ _ => rfl
@[simp] theorem exec_vsprnd : ∀ f s, exec (.vsprnd f) s = execVsprnd f s := fun _ _ => rfl
@[simp] theorem exec_vcmp : ∀ f s, exec (.vcmp f) s = execVcmp f s := fun _ _ => rfl
@[simp] theorem exec_vfcmp : ∀ f s, exec (.vfcmp f) s = execVfcmp f s := fun _ _ => rfl
@[simp] theorem exec_vtcmp : ∀ f s, exec (.vtcmp f) s = execVtcmp f s := fun _ _ => rfl
@[simp] theorem exec_vsel : ∀ f s, exec (.vsel f) s = execVsel f s := fun _ _ => rfl
@[simp] theorem exec_kand : ∀ f s, exec (.kand f) s = execKand f s := fun _ _ => rfl
@[simp] theorem exec_kor : ∀ f s, exec (.kor f) s = execKor f s := fun _ _ => rfl
@[simp] theorem exec_kxor : ∀ f s, exec (.kxor f) s = execKxor f s := fun _ _ => rfl
@[simp] theorem exec_knot : ∀ f s, exec (.knot f) s = execKnot f s := fun _ _ => rfl
@[simp] theorem exec_kset : ∀ f s, exec (.kset f) s = execKset f s := fun _ _ => rfl
@[simp] theorem exec_kget : ∀ f s, exec (.kget f) s = execKget f s := fun _ _ => rfl
@[simp] theorem exec_vcvt : ∀ f s, exec (.vcvt f) s = execVcvt f s := fun _ _ => rfl
@[simp] theorem exec_vpack : ∀ f s, exec (.vpack f) s = execVpack f s := fun _ _ => rfl
@[simp] theorem exec_vunpack : ∀ f s, exec (.vunpack f) s = execVunpack f s := fun _ _ => rfl
@[simp] theorem exec_vbcast : ∀ f s, exec (.vbcast f) s = execVbcast f s := fun _ _ => rfl
@[simp] theorem exec_vext : ∀ f s, exec (.vext f) s = execVext f s := fun _ _ => rfl
@[simp] theorem exec_vperm : ∀ f s, exec (.vperm f) s = execVperm f s := fun _ _ => rfl
@[simp] theorem exec_vslide : ∀ f s, exec (.vslide f) s = execVslide f s := fun _ _ => rfl
@[simp] theorem exec_vred : ∀ f s, exec (.vred f) s = execVred f s := fun _ _ => rfl
@[simp] theorem exec_vscan : ∀ f s, exec (.vscan f) s = execVscan f s := fun _ _ => rfl
@[simp] theorem exec_vld : ∀ f s, exec (.vld f) s = execVld f s := fun _ _ => rfl
@[simp] theorem exec_vldX : ∀ f s, exec (.vldX f) s = execVldX f s := fun _ _ => rfl
@[simp] theorem exec_vst : ∀ f s, exec (.vst f) s = execVst f s := fun _ _ => rfl
@[simp] theorem exec_vstX : ∀ f s, exec (.vstX f) s = execVstX f s := fun _ _ => rfl
@[simp] theorem exec_vlds : ∀ f s, exec (.vlds f) s = execVlds f s := fun _ _ => rfl
@[simp] theorem exec_vldsX : ∀ f s, exec (.vldsX f) s = execVldsX f s := fun _ _ => rfl
@[simp] theorem exec_vsts : ∀ f s, exec (.vsts f) s = execVsts f s := fun _ _ => rfl
@[simp] theorem exec_vstsX : ∀ f s, exec (.vstsX f) s = execVstsX f s := fun _ _ => rfl
@[simp] theorem exec_vldx : ∀ f s, exec (.vldx f) s = execVldx f s := fun _ _ => rfl
@[simp] theorem exec_vldxX : ∀ f s, exec (.vldxX f) s = execVldxX f s := fun _ _ => rfl
@[simp] theorem exec_vstx : ∀ f s, exec (.vstx f) s = execVstx f s := fun _ _ => rfl
@[simp] theorem exec_vstxX : ∀ f s, exec (.vstxX f) s = execVstxX f s := fun _ _ => rfl
@[simp] theorem exec_mfmt : ∀ f s, exec (.mfmt f) s = execMfmt f s := fun _ _ => rfl
@[simp] theorem exec_mscl : ∀ f s, exec (.mscl f) s = execMscl f s := fun _ _ => rfl
@[simp] theorem exec_msclX : ∀ f s, exec (.msclX f) s = execMsclX f s := fun _ _ => rfl
@[simp] theorem exec_mlb : ∀ f s, exec (.mlb f) s = execMlb f s := fun _ _ => rfl
@[simp] theorem exec_mlbX : ∀ f s, exec (.mlbX f) s = execMlbX f s := fun _ _ => rfl
@[simp] theorem exec_mma : ∀ f s, exec (.mma f) s = execMma f s := fun _ _ => rfl
@[simp] theorem exec_mmaX : ∀ f s, exec (.mmaX f) s = execMmaX f s := fun _ _ => rfl
@[simp] theorem exec_mrot : ∀ f s, exec (.mrot f) s = execMrot f s := fun _ _ => rfl
@[simp] theorem exec_mzero : ∀ f s, exec (.mzero f) s = execMzero f s := fun _ _ => rfl
@[simp] theorem exec_mdrain : ∀ f s, exec (.mdrain f) s = execMdrain f s := fun _ _ => rfl
@[simp] theorem exec_mrow : ∀ f s, exec (.mrow f) s = execMrow f s := fun _ _ => rfl
@[simp] theorem exec_falloc : ∀ f s, exec (.falloc f) s = execFalloc f s := fun _ _ => rfl
@[simp] theorem exec_ffree : ∀ f s, exec (.ffree f) s = execFfree f s := fun _ _ => rfl
@[simp] theorem exec_sarm : ∀ f s, exec (.sarm f) s = execSarm f s := fun _ _ => rfl
@[simp] theorem exec_sig : ∀ f s, exec (.sig f) s = execSig f s := fun _ _ => rfl
@[simp] theorem exec_sigX : ∀ f s, exec (.sigX f) s = execSigX f s := fun _ _ => rfl
@[simp] theorem exec_sigv : ∀ f s, exec (.sigv f) s = execSigv f s := fun _ _ => rfl
@[simp] theorem exec_sigb : ∀ f s, exec (.sigb f) s = execSigb f s := fun _ _ => rfl
@[simp] theorem exec_fire : ∀ f s, exec (.fire f) s = execFire f s := fun _ _ => rfl
@[simp] theorem exec_sget : ∀ f s, exec (.sget f) s = execSget f s := fun _ _ => rfl
@[simp] theorem exec_ldf : ∀ f s, exec (.ldf f) s = execLdf f s := fun _ _ => rfl
@[simp] theorem exec_stf : ∀ f s, exec (.stf f) s = execStf f s := fun _ _ => rfl
@[simp] theorem exec_rinit : ∀ f s, exec (.rinit f) s = execRinit f s := fun _ _ => rfl
@[simp] theorem exec_racq : ∀ f s, exec (.racq f) s = execRacq f s := fun _ _ => rfl
@[simp] theorem exec_rcom : ∀ f s, exec (.rcom f) s = execRcom f s := fun _ _ => rfl
@[simp] theorem exec_rpeek : ∀ f s, exec (.rpeek f) s = execRpeek f s := fun _ _ => rfl
@[simp] theorem exec_rrel : ∀ f s, exec (.rrel f) s = execRrel f s := fun _ _ => rfl
@[simp] theorem exec_ldC : ∀ f s, exec (.ldC f) s = execLdC f s := fun _ _ => rfl
@[simp] theorem exec_ld : ∀ f s, exec (.ld f) s = execLd f s := fun _ _ => rfl
@[simp] theorem exec_ldX : ∀ f s, exec (.ldX f) s = execLdX f s := fun _ _ => rfl
@[simp] theorem exec_stC : ∀ f s, exec (.stC f) s = execStC f s := fun _ _ => rfl
@[simp] theorem exec_st : ∀ f s, exec (.st f) s = execSt f s := fun _ _ => rfl
@[simp] theorem exec_stX : ∀ f s, exec (.stX f) s = execStX f s := fun _ _ => rfl
@[simp] theorem exec_ldrm : ∀ f s, exec (.ldrm f) s = execLdrm f s := fun _ _ => rfl
@[simp] theorem exec_strm : ∀ f s, exec (.strm f) s = execStrm f s := fun _ _ => rfl
@[simp] theorem exec_aadd : ∀ f s, exec (.aadd f) s = execAadd f s := fun _ _ => rfl
@[simp] theorem exec_amin : ∀ f s, exec (.amin f) s = execAmin f s := fun _ _ => rfl
@[simp] theorem exec_amax : ∀ f s, exec (.amax f) s = execAmax f s := fun _ _ => rfl
@[simp] theorem exec_aminu : ∀ f s, exec (.aminu f) s = execAminu f s := fun _ _ => rfl
@[simp] theorem exec_amaxu : ∀ f s, exec (.amaxu f) s = execAmaxu f s := fun _ _ => rfl
@[simp] theorem exec_aand : ∀ f s, exec (.aand f) s = execAand f s := fun _ _ => rfl
@[simp] theorem exec_aor : ∀ f s, exec (.aor f) s = execAor f s := fun _ _ => rfl
@[simp] theorem exec_axor : ∀ f s, exec (.axor f) s = execAxor f s := fun _ _ => rfl
@[simp] theorem exec_aswp : ∀ f s, exec (.aswp f) s = execAswp f s := fun _ _ => rfl
@[simp] theorem exec_acas : ∀ f s, exec (.acas f) s = execAcas f s := fun _ _ => rfl
@[simp] theorem exec_afadd : ∀ f s, exec (.afadd f) s = execAfadd f s := fun _ _ => rfl
@[simp] theorem exec_aspadd : ∀ f s, exec (.aspadd f) s = execAspadd f s := fun _ _ => rfl
@[simp] theorem exec_fence : ∀ f s, exec (.fence f) s = execFence f s := fun _ _ => rfl
@[simp] theorem exec_twld : ∀ f s, exec (.twld f) s = execTwld f s := fun _ _ => rfl
@[simp] theorem exec_twst : ∀ f s, exec (.twst f) s = execTwst f s := fun _ _ => rfl
@[simp] theorem exec_twmc : ∀ f s, exec (.twmc f) s = execTwmc f s := fun _ _ => rfl
@[simp] theorem exec_twg : ∀ f s, exec (.twg f) s = execTwg f s := fun _ _ => rfl
@[simp] theorem exec_tws : ∀ f s, exec (.tws f) s = execTws f s := fun _ _ => rfl
@[simp] theorem exec_twq : ∀ f s, exec (.twq f) s = execTwq f s := fun _ _ => rfl
@[simp] theorem exec_twcan : ∀ f s, exec (.twcan f) s = execTwcan f s := fun _ _ => rfl
@[simp] theorem exec_stepd : ∀ f s, exec (.stepd f) s = execStepd f s := fun _ _ => rfl
@[simp] theorem exec_ldst : ∀ f s, exec (.ldst f) s = execLdst f s := fun _ _ => rfl
@[simp] theorem exec_stepq : ∀ f s, exec (.stepq f) s = execStepq f s := fun _ _ => rfl
@[simp] theorem exec_sqtab : ∀ f s, exec (.sqtab f) s = execSqtab f s := fun _ _ => rfl
@[simp] theorem exec_sqinit : ∀ f s, exec (.sqinit f) s = execSqinit f s := fun _ _ => rfl
@[simp] theorem exec_sqstage : ∀ f s, exec (.sqstage f) s = execSqstage f s := fun _ _ => rfl
@[simp] theorem exec_sqstep : ∀ f s, exec (.sqstep f) s = execSqstep f s := fun _ _ => rfl
@[simp] theorem exec_sqrd : ∀ f s, exec (.sqrd f) s = execSqrd f s := fun _ _ => rfl
@[simp] theorem exec_glaunch : ∀ f s, exec (.glaunch f) s = execGlaunch f s := fun _ _ => rfl
@[simp] theorem exec_gquery : ∀ f s, exec (.gquery f) s = execGquery f s := fun _ _ => rfl
@[simp] theorem exec_gcan : ∀ f s, exec (.gcan f) s = execGcan f s := fun _ _ => rfl
@[simp] theorem exec_sysr : ∀ f s, exec (.sysr f) s = execSysr f s := fun _ _ => rfl
@[simp] theorem exec_sysw : ∀ f s, exec (.sysw f) s = execSysw f s := fun _ _ => rfl
@[simp] theorem exec_trap : ∀ f s, exec (.trap f) s = execTrap f s := fun _ _ => rfl
@[simp] theorem exec_trapX : ∀ f s, exec (.trapX f) s = execTrapX f s := fun _ _ => rfl
@[simp] theorem exec_brk : ∀ f s, exec (.brk f) s = execBrk f s := fun _ _ => rfl
@[simp] theorem exec_snap : ∀ f s, exec (.snap f) s = execSnap f s := fun _ _ => rfl
@[simp] theorem exec_clockPinned : ∀ die s, exec (.clockPinned die) s = execClockPinned die s := fun _ _ => rfl
@[simp] theorem exec_softError : ∀ key bits s, exec (.softError key bits) s = execSoftError key bits s := fun _ _ _ => rfl
@[simp] theorem exec_fillComplete : ∀ cid s, exec (.fillComplete cid) s = execFillComplete cid s := fun _ _ => rfl

end Sys2Proof.Machine
end

