-- ==== Sys2Proof/Laws/Issues.lean ====
section
/-! SUPPORT. Every instruction issues (R40, R81): an event alone does not. -/

set_option Elab.async false

namespace Sys2Proof.Laws

open Machine

/-- How an instruction of a length and a guard issues: it counts, and where its guard is true it has an effect; it never stops. -/
def Issues (i : Instr) (len : Nat) (g : BitVec 4) : Prop :=
  ∃ effect : State → State, ∀ s, exec i s = .next (if guardHolds g s.ctx then effect (s.countIssue len) else s.countIssue len)

/-- What is the issue of a body issues. -/
theorem issues_of {i : Instr} {len : Nat} {g : BitVec 4} (body : State → Except Code State) (h : ∀ s, exec i s = issue len g s body) :
    Issues i len g := by
  refine ⟨fun s => match body s with | .ok t => t | .error c => s.takeFault c 0, fun s => ?_⟩
  rw [h]; unfold issue; simp only [guardHolds_countIssue]
  split
  · split <;> simp_all
  · rfl

/-- trap issues too: its effect is the fault that it takes (R373). -/
theorem trap_issues {len : Nat} {g : BitVec 4} (n : Nat) {i : Instr} (h : ∀ s, exec i s = trapWith len g n s) : Issues i len g := by
  refine ⟨fun s => s.takeFault 0x3F n, fun s => ?_⟩
  rw [h]; unfold trapWith; simp [guardHolds_countIssue]; try (split <;> rfl)

/-- Every instruction of the C, W or X form issues. -/
def IssueLaw (i : Instr) : Prop :=
  match encOf i with
  | .c _ _ _ => Issues i 4 0
  | .w _ _ f => Issues i 8 f.guard
  | .x _ _ f => Issues i 12 f.guard
  | .event => True

theorem issues_moduleReset : IssueLaw .moduleReset := trivial
theorem issues_imageLoad : ∀ p img, IssueLaw (.imageLoad p img) := fun _ _ => trivial
theorem issues_illegalPattern : ∀ code, IssueLaw (.illegalPattern code) := fun _ => trivial
theorem issues_dispatch : ∀ cid ctx, IssueLaw (.dispatch cid ctx) := fun _ _ => trivial
theorem issues_signalArrival : ∀ cid f slot pkts, IssueLaw (.signalArrival cid f slot pkts) := fun _ _ _ _ => trivial
theorem issues_allocationRequest : ∀ pkt same, IssueLaw (.allocationRequest pkt same) := fun _ _ => trivial
theorem issues_armingRequest : ∀ pkt same, IssueLaw (.armingRequest pkt same) := fun _ _ => trivial
theorem issues_freeRequest : ∀ pkt, IssueLaw (.freeRequest pkt) := fun _ => trivial
theorem issues_stfRequest : ∀ pkt, IssueLaw (.stfRequest pkt) := fun _ => trivial
theorem issues_ldfRequest : ∀ pkt, IssueLaw (.ldfRequest pkt) := fun _ => trivial
theorem issues_replyArrival : ∀ pkt same, IssueLaw (.replyArrival pkt same) := fun _ _ => trivial
theorem issues_spilledRequestApply : ∀ pkt, IssueLaw (.spilledRequestApply pkt) := fun _ => trivial
theorem issues_fill : ∀ cid, IssueLaw (.fill cid) := fun _ => trivial
theorem issues_writeBackStart : ∀ cid f, IssueLaw (.writeBackStart cid f) := fun _ _ => trivial
theorem issues_writeBackComplete : ∀ cid f, IssueLaw (.writeBackComplete cid f) := fun _ _ => trivial
theorem issues_matrixCommandStart : ∀ cid m, IssueLaw (.matrixCommandStart cid m) := fun _ _ => trivial
theorem issues_matrixCommandFinish : ∀ cid m, IssueLaw (.matrixCommandFinish cid m) := fun _ _ => trivial
theorem issues_mdrainRow : ∀ cid m, IssueLaw (.mdrainRow cid m) := fun _ _ => trivial
theorem issues_mrotTileLands : ∀ pkt, IssueLaw (.mrotTileLands pkt) := fun _ => trivial
theorem issues_landingMove : ∀ cid latch, IssueLaw (.landingMove cid latch) := fun _ _ => trivial
theorem issues_portWordArrival : ∀ cid dir, IssueLaw (.portWordArrival cid dir) := fun _ _ => trivial
theorem issues_ldrmRequest : ∀ pkt, IssueLaw (.ldrmRequest pkt) := fun _ => trivial
theorem issues_strmRequest : ∀ pkt, IssueLaw (.strmRequest pkt) := fun _ => trivial
theorem issues_atomicRequest : ∀ pkt, IssueLaw (.atomicRequest pkt) := fun _ => trivial
theorem issues_ringRequest : ∀ pkt, IssueLaw (.ringRequest pkt) := fun _ => trivial
theorem issues_fenceRelease : ∀ pkt, IssueLaw (.fenceRelease pkt) := fun _ => trivial
theorem issues_releaseSignalSend : ∀ pkt, IssueLaw (.releaseSignalSend pkt) := fun _ => trivial
theorem issues_walkStart : ∀ clid w, IssueLaw (.walkStart clid w) := fun _ _ => trivial
theorem issues_walkTranslation : ∀ w tile choice, IssueLaw (.walkTranslation w tile choice) := fun _ _ _ => trivial
theorem issues_walkMove : ∀ w moves, IssueLaw (.walkMove w moves) := fun _ _ => trivial
theorem issues_dimensionEndSignal : ∀ w level run target, IssueLaw (.dimensionEndSignal w level run target) := fun _ _ _ _ => trivial
theorem issues_finalSignal : ∀ w, IssueLaw (.finalSignal w) := fun _ => trivial
theorem issues_twcanComplete : ∀ pkt, IssueLaw (.twcanComplete pkt) := fun _ => trivial
theorem issues_stepdDone : ∀ cid fid, IssueLaw (.stepdDone cid fid) := fun _ _ => trivial
theorem issues_stepAdvance : ∀ cid, IssueLaw (.stepAdvance cid) := fun _ => trivial
theorem issues_stepNotice : ∀ pkt, IssueLaw (.stepNotice pkt) := fun _ => trivial
theorem issues_ldstRequest : ∀ pkt, IssueLaw (.ldstRequest pkt) := fun _ => trivial
theorem issues_stepqRequest : ∀ pkt, IssueLaw (.stepqRequest pkt) := fun _ => trivial
theorem issues_stepRequestResend : ∀ pkt, IssueLaw (.stepRequestResend pkt) := fun _ => trivial
theorem issues_sqtabServe : ∀ pkt, IssueLaw (.sqtabServe pkt) := fun _ => trivial
theorem issues_sqinitServe : ∀ pkt, IssueLaw (.sqinitServe pkt) := fun _ => trivial
theorem issues_sqstepServe : ∀ pkt, IssueLaw (.sqstepServe pkt) := fun _ => trivial
theorem issues_sqstageServe : ∀ pkt, IssueLaw (.sqstageServe pkt) := fun _ => trivial
theorem issues_sqrdServe : ∀ pkt, IssueLaw (.sqrdServe pkt) := fun _ => trivial
theorem issues_stageFormed : ∀ clid r, IssueLaw (.stageFormed clid r) := fun _ _ => trivial
theorem issues_stepDecision : ∀ clid r, IssueLaw (.stepDecision clid r) := fun _ _ => trivial
theorem issues_launchRequest : ∀ pkt, IssueLaw (.launchRequest pkt) := fun _ => trivial
theorem issues_instanceStart : ∀ handle, IssueLaw (.instanceStart handle) := fun _ => trivial
theorem issues_launchMulticast : ∀ die handle, IssueLaw (.launchMulticast die handle) := fun _ _ => trivial
theorem issues_instanceEnd : ∀ handle, IssueLaw (.instanceEnd handle) := fun _ => trivial
theorem issues_creditLend : ∀ die p, IssueLaw (.creditLend die p) := fun _ _ => trivial
theorem issues_gqueryRequest : ∀ pkt, IssueLaw (.gqueryRequest pkt) := fun _ => trivial
theorem issues_gcanRequest : ∀ pkt, IssueLaw (.gcanRequest pkt) := fun _ => trivial
theorem issues_subqBase : ∀ p v, IssueLaw (.subqBase p v) := fun _ _ => trivial
theorem issues_subqLog : ∀ p v, IssueLaw (.subqLog p v) := fun _ _ => trivial
theorem issues_subqTail : ∀ p v, IssueLaw (.subqTail p v) := fun _ _ => trivial
theorem issues_submissionEntryRead : ∀ p, IssueLaw (.submissionEntryRead p) := fun _ => trivial
theorem issues_forecast : ∀ die, IssueLaw (.forecast die) := fun _ => trivial
theorem issues_telemetryUpdate : ∀ die, IssueLaw (.telemetryUpdate die) := fun _ => trivial
theorem issues_placementEntryWrite : ∀ p cb w0 w1, IssueLaw (.placementEntryWrite p cb w0 w1) := fun _ _ _ _ => trivial
theorem issues_spillFrames : ∀ p v, IssueLaw (.spillFrames p v) := fun _ _ => trivial
theorem issues_spillBase : ∀ p d v, IssueLaw (.spillBase p d v) := fun _ _ _ => trivial
theorem issues_migGo : ∀ p v, IssueLaw (.migGo p v) := fun _ _ => trivial
theorem issues_migrationComplete : ∀ p, IssueLaw (.migrationComplete p) := fun _ => trivial
theorem issues_commit : ∀ v, IssueLaw (.commit v) := fun _ => trivial
theorem issues_drainMessage : ∀ die, IssueLaw (.drainMessage die) := fun _ => trivial
theorem issues_clearingComplete : ∀ p, IssueLaw (.clearingComplete p) := fun _ => trivial
theorem issues_preempt : ∀ p, IssueLaw (.preempt p) := fun _ => trivial
theorem issues_resume : ∀ p, IssueLaw (.resume p) := fun _ => trivial
theorem issues_coreSave : ∀ cid, IssueLaw (.coreSave cid) := fun _ => trivial
theorem issues_savedPacketApply : ∀ pkt, IssueLaw (.savedPacketApply pkt) := fun _ => trivial
theorem issues_coreRestore : ∀ cid, IssueLaw (.coreRestore cid) := fun _ => trivial
theorem issues_ordArm : ∀ p d n v, IssueLaw (.ordArm p d n v) := fun _ _ _ _ => trivial
theorem issues_ordAddr : ∀ p d n v, IssueLaw (.ordAddr p d n v) := fun _ _ _ _ => trivial
theorem issues_ordN : ∀ p d n v, IssueLaw (.ordN p d n v) := fun _ _ _ _ => trivial
theorem issues_orderedReductionRequest : ∀ pkt, IssueLaw (.orderedReductionRequest pkt) := fun _ => trivial
theorem issues_faBase : ∀ p v, IssueLaw (.faBase p v) := fun _ _ => trivial
theorem issues_faLog : ∀ p v, IssueLaw (.faLog p v) := fun _ _ => trivial
theorem issues_faultRecordWrite : ∀ n, IssueLaw (.faultRecordWrite n) := fun _ => trivial
theorem issues_snapTrig : ∀ v, IssueLaw (.snapTrig v) := fun _ => trivial
theorem issues_snapshotTriggerArrival : ∀ trig block, IssueLaw (.snapshotTriggerArrival trig block) := fun _ _ => trivial
theorem issues_snapComplete : ∀ trig, IssueLaw (.snapComplete trig) := fun _ => trivial
theorem issues_mgCmdLoad : IssueLaw .mgCmdLoad := trivial
theorem issues_mgCmdActivate : IssueLaw .mgCmdActivate := trivial
theorem issues_mgCmdFloor : IssueLaw .mgCmdFloor := trivial
theorem issues_mgCmdQuote : IssueLaw .mgCmdQuote := trivial
theorem issues_freitCommandDone : IssueLaw .freitCommandDone := trivial
theorem issues_portEntryWrite : ∀ port word v, IssueLaw (.portEntryWrite port word v) := fun _ _ _ => trivial
theorem issues_opticalLinkState : ∀ port up, IssueLaw (.opticalLinkState port up) := fun _ _ => trivial
theorem issues_peerReplicaWrite : ∀ port addr bytes, IssueLaw (.peerReplicaWrite port addr bytes) := fun _ _ _ => trivial
theorem issues_replicaWriteApply : ∀ pkt, IssueLaw (.replicaWriteApply pkt) := fun _ => trivial
theorem issues_hostWrite : ∀ bar off n v, IssueLaw (.hostWrite bar off n v) := fun _ _ _ _ => trivial
theorem issues_hostRead : ∀ bar off n, IssueLaw (.hostRead bar off n) := fun _ _ _ => trivial
theorem issues_cellGate : ∀ cell, IssueLaw (.cellGate cell) := fun _ => trivial
theorem issues_cellWake : ∀ cell, IssueLaw (.cellWake cell) := fun _ => trivial
theorem issues_quiescence : ∀ p, IssueLaw (.quiescence p) := fun _ => trivial
theorem issues_thermalTrip : ∀ die, IssueLaw (.thermalTrip die) := fun _ => trivial
theorem issues_coreReset : ∀ cid, IssueLaw (.coreReset cid) := fun _ => trivial
theorem issues_packetRefused : ∀ pkt, IssueLaw (.packetRefused pkt) := fun _ => trivial
theorem issues_uncorrectableError : ∀ cid f ownerRead, IssueLaw (.uncorrectableError cid f ownerRead) := fun _ _ _ => trivial
theorem issues_routerHop : ∀ pkt, IssueLaw (.routerHop pkt) := fun _ => trivial
theorem issues_linkFlitSend : ∀ x y port, IssueLaw (.linkFlitSend x y port) := fun _ _ _ => trivial
theorem issues_crossbarGrant : ∀ die out, IssueLaw (.crossbarGrant die out) := fun _ _ => trivial
theorem issues_hbmRequestStart : ∀ die ch, IssueLaw (.hbmRequestStart die ch) := fun _ _ => trivial
theorem issues_spliceEgressEnter : ∀ pkt, IssueLaw (.spliceEgressEnter pkt) := fun _ => trivial
theorem issues_spliceIngressDeliver : ∀ p splice, IssueLaw (.spliceIngressDeliver p splice) := fun _ _ => trivial
theorem issues_mergedAtomicApply : ∀ pkt, IssueLaw (.mergedAtomicApply pkt) := fun _ => trivial
theorem issues_mergedReplySplit : ∀ pkt, IssueLaw (.mergedReplySplit pkt) := fun _ => trivial
theorem issues_registerWrite : ∀ off v, IssueLaw (.registerWrite off v) := fun _ _ => trivial
theorem issues_addC : ∀ f, IssueLaw (.addC f) := fun f => issues_of (State.binOp (· + ·) f.toW) (fun _ => rfl)
theorem issues_add : ∀ f, IssueLaw (.add f) := fun f => issues_of (State.binOp (· + ·) f) (fun _ => rfl)
theorem issues_subC : ∀ f, IssueLaw (.subC f) := fun f => issues_of (State.binOp (· - ·) f.toW) (fun _ => rfl)
theorem issues_sub : ∀ f, IssueLaw (.sub f) := fun f => issues_of (State.binOp (· - ·) f) (fun _ => rfl)
theorem issues_mul : ∀ f, IssueLaw (.mul f) := fun f => issues_of (State.binOp (· * ·) f) (fun _ => rfl)
theorem issues_mulh : ∀ f, IssueLaw (.mulh f) := fun f => issues_of (State.binOp mulHigh f) (fun _ => rfl)
theorem issues_mulhu : ∀ f, IssueLaw (.mulhu f) := fun f => issues_of (State.binOp mulHighU f) (fun _ => rfl)
theorem issues_div : ∀ f, IssueLaw (.div f) := fun f => issues_of (State.binOp divS f) (fun _ => rfl)
theorem issues_divu : ∀ f, IssueLaw (.divu f) := fun f => issues_of (State.binOp divU f) (fun _ => rfl)
theorem issues_rem : ∀ f, IssueLaw (.rem f) := fun f => issues_of (State.binOp remS f) (fun _ => rfl)
theorem issues_remu : ∀ f, IssueLaw (.remu f) := fun f => issues_of (State.binOp remU f) (fun _ => rfl)
theorem issues_andC : ∀ f, IssueLaw (.andC f) := fun f => issues_of (State.binOp (· &&& ·) f.toW) (fun _ => rfl)
theorem issues_and : ∀ f, IssueLaw (.and f) := fun f => issues_of (State.binOp (· &&& ·) f) (fun _ => rfl)
theorem issues_orC : ∀ f, IssueLaw (.orC f) := fun f => issues_of (State.binOp (· ||| ·) f.toW) (fun _ => rfl)
theorem issues_or : ∀ f, IssueLaw (.or f) := fun f => issues_of (State.binOp (· ||| ·) f) (fun _ => rfl)
theorem issues_xorC : ∀ f, IssueLaw (.xorC f) := fun f => issues_of (State.binOp (· ^^^ ·) f.toW) (fun _ => rfl)
theorem issues_xor : ∀ f, IssueLaw (.xor f) := fun f => issues_of (State.binOp (· ^^^ ·) f) (fun _ => rfl)
theorem issues_andn : ∀ f, IssueLaw (.andn f) := fun f => issues_of (State.binOp (fun a b => a &&& ~~~b) f) (fun _ => rfl)
theorem issues_shlC : ∀ f, IssueLaw (.shlC f) := fun f => issues_of (State.binOp shlW f.toW) (fun _ => rfl)
theorem issues_shl : ∀ f, IssueLaw (.shl f) := fun f => issues_of (State.binOp shlW f) (fun _ => rfl)
theorem issues_shrC : ∀ f, IssueLaw (.shrC f) := fun f => issues_of (State.binOp shrW f.toW) (fun _ => rfl)
theorem issues_shr : ∀ f, IssueLaw (.shr f) := fun f => issues_of (State.binOp shrW f) (fun _ => rfl)
theorem issues_sarC : ∀ f, IssueLaw (.sarC f) := fun f => issues_of (State.binOp sarW f.toW) (fun _ => rfl)
theorem issues_sar : ∀ f, IssueLaw (.sar f) := fun f => issues_of (State.binOp sarW f) (fun _ => rfl)
theorem issues_rol : ∀ f, IssueLaw (.rol f) := fun f => issues_of (State.binOp rolW f) (fun _ => rfl)
theorem issues_min : ∀ f, IssueLaw (.min f) := fun f => issues_of (State.binOp (fun a b => if b.slt a then b else a) f) (fun _ => rfl)
theorem issues_max : ∀ f, IssueLaw (.max f) := fun f => issues_of (State.binOp (fun a b => if a.slt b then b else a) f) (fun _ => rfl)
theorem issues_minu : ∀ f, IssueLaw (.minu f) := fun f => issues_of (State.binOp (fun a b => if b.ult a then b else a) f) (fun _ => rfl)
theorem issues_maxu : ∀ f, IssueLaw (.maxu f) := fun f => issues_of (State.binOp (fun a b => if a.ult b then b else a) f) (fun _ => rfl)
theorem issues_addi : ∀ f, IssueLaw (.addi f) := fun f => issues_of (State.unOp (· + f.imm) f) (fun _ => rfl)
theorem issues_addiX : ∀ f, IssueLaw (.addiX f) := fun f => issues_of (State.unOp (· + f.imm) f.toW) (fun _ => rfl)
theorem issues_andi : ∀ f, IssueLaw (.andi f) := fun f => issues_of (State.unOp (· &&& f.imm) f) (fun _ => rfl)
theorem issues_andiX : ∀ f, IssueLaw (.andiX f) := fun f => issues_of (State.unOp (· &&& f.imm) f.toW) (fun _ => rfl)
theorem issues_ori : ∀ f, IssueLaw (.ori f) := fun f => issues_of (State.unOp (· ||| f.imm) f) (fun _ => rfl)
theorem issues_oriX : ∀ f, IssueLaw (.oriX f) := fun f => issues_of (State.unOp (· ||| f.imm) f.toW) (fun _ => rfl)
theorem issues_xori : ∀ f, IssueLaw (.xori f) := fun f => issues_of (State.unOp (· ^^^ f.imm) f) (fun _ => rfl)
theorem issues_xoriX : ∀ f, IssueLaw (.xoriX f) := fun f => issues_of (State.unOp (· ^^^ f.imm) f.toW) (fun _ => rfl)
theorem issues_shli : ∀ f, IssueLaw (.shli f) := fun f => issues_of (State.unOp (fun a => shlW a f.imm) f) (fun _ => rfl)
theorem issues_shliX : ∀ f, IssueLaw (.shliX f) := fun f => issues_of (State.unOp (fun a => shlW a f.imm) f.toW) (fun _ => rfl)
theorem issues_shri : ∀ f, IssueLaw (.shri f) := fun f => issues_of (State.unOp (fun a => shrW a f.imm) f) (fun _ => rfl)
theorem issues_shriX : ∀ f, IssueLaw (.shriX f) := fun f => issues_of (State.unOp (fun a => shrW a f.imm) f.toW) (fun _ => rfl)
theorem issues_sari : ∀ f, IssueLaw (.sari f) := fun f => issues_of (State.unOp (fun a => sarW a f.imm) f) (fun _ => rfl)
theorem issues_sariX : ∀ f, IssueLaw (.sariX f) := fun f => issues_of (State.unOp (fun a => sarW a f.imm) f.toW) (fun _ => rfl)
theorem issues_muli : ∀ f, IssueLaw (.muli f) := fun f => issues_of (State.unOp (· * f.imm) f) (fun _ => rfl)
theorem issues_muliX : ∀ f, IssueLaw (.muliX f) := fun f => issues_of (State.unOp (· * f.imm) f.toW) (fun _ => rfl)
theorem issues_clz : ∀ f, IssueLaw (.clz f) := fun f => issues_of (State.unOp (fun a => BitVec.ofNat 64 (leadZeros a 64)) f) (fun _ => rfl)
theorem issues_ctz : ∀ f, IssueLaw (.ctz f) := fun f => issues_of (State.unOp (fun a => BitVec.ofNat 64 (trailZeros a 0 64)) f) (fun _ => rfl)
theorem issues_popc : ∀ f, IssueLaw (.popc f) := fun f => issues_of (State.unOp (fun a => BitVec.ofNat 64 (popCount a)) f) (fun _ => rfl)
theorem issues_brev : ∀ f, IssueLaw (.brev f) := fun f => issues_of (State.unOp bitReverse f) (fun _ => rfl)
theorem issues_bext : ∀ f, IssueLaw (.bext f) := fun f => issues_of (State.unOp (fun a => bitExtract a f.pos f.len) f) (fun _ => rfl)
theorem issues_bins : ∀ f, IssueLaw (.bins f) := fun f => issues_of (State.binsOp f) (fun _ => rfl)
theorem issues_sext : ∀ f, IssueLaw (.sext f) := fun f => issues_of (State.unOp (fun a => signExtendN a (f.fld 14 6 + 1)) f) (fun _ => rfl)
theorem issues_zext : ∀ f, IssueLaw (.zext f) := fun f => issues_of (State.unOp (fun a => zeroExtendN a (f.fld 14 6 + 1)) f) (fun _ => rfl)
theorem issues_cmp : ∀ f, IssueLaw (.cmp f) := fun f => issues_of (State.cmpOp f) (fun _ => rfl)
theorem issues_cmpi : ∀ f, IssueLaw (.cmpi f) := fun f => issues_of (State.cmpiOp f f.imm) (fun _ => rfl)
theorem issues_cmpiX : ∀ f, IssueLaw (.cmpiX f) := fun f => issues_of (State.cmpiOp f.toW f.imm) (fun _ => rfl)
theorem issues_pand : ∀ f, IssueLaw (.pand f) := fun f => issues_of (State.predOp and f) (fun _ => rfl)
theorem issues_por : ∀ f, IssueLaw (.por f) := fun f => issues_of (State.predOp or f) (fun _ => rfl)
theorem issues_pxor : ∀ f, IssueLaw (.pxor f) := fun f => issues_of (State.predOp xor f) (fun _ => rfl)
theorem issues_pnot : ∀ f, IssueLaw (.pnot f) := fun f => issues_of (State.predOp (fun a _ => !a) f) (fun _ => rfl)
theorem issues_pset : ∀ f, IssueLaw (.pset f) := fun f => issues_of (State.psetOp f) (fun _ => rfl)
theorem issues_pget : ∀ f, IssueLaw (.pget f) := fun f => issues_of (State.pgetOp f) (fun _ => rfl)
theorem issues_sel : ∀ f, IssueLaw (.sel f) := fun f => issues_of (State.selOp f) (fun _ => rfl)
theorem issues_lea : ∀ f, IssueLaw (.lea f) := fun f => issues_of (State.leaOp f f.imm) (fun _ => rfl)
theorem issues_leaX : ∀ f, IssueLaw (.leaX f) := fun f => issues_of (State.leaOp f.toW f.imm) (fun _ => rfl)
theorem issues_nopC : ∀ f, IssueLaw (.nopC f) := fun _ => issues_of .ok (fun _ => rfl)
theorem issues_nop : ∀ f, IssueLaw (.nop f) := fun _ => issues_of .ok (fun _ => rfl)
theorem issues_hint : ∀ f, IssueLaw (.hint f) := fun _ => issues_of .ok (fun _ => rfl)
theorem issues_hintX : ∀ f, IssueLaw (.hintX f) := fun _ => issues_of .ok (fun _ => rfl)
theorem issues_rdcyc : ∀ f, IssueLaw (.rdcyc f) := fun f => issues_of (State.rdcycOp f) (fun _ => rfl)
theorem issues_rdcnt : ∀ f, IssueLaw (.rdcnt f) := fun f => issues_of (State.rdcntOp f) (fun _ => rfl)
theorem issues_br : ∀ f, IssueLaw (.br f) := fun f => issues_of (State.brOp f.imm) (fun _ => rfl)
theorem issues_brX : ∀ f, IssueLaw (.brX f) := fun f => issues_of (State.brOp f.imm) (fun _ => rfl)
theorem issues_brx : ∀ f, IssueLaw (.brx f) := fun f => issues_of (State.brxOp f) (fun _ => rfl)
theorem issues_call : ∀ f, IssueLaw (.call f) := fun f => issues_of (State.callOp f.imm) (fun _ => rfl)
theorem issues_callX : ∀ f, IssueLaw (.callX f) := fun f => issues_of (State.callOp f.imm) (fun _ => rfl)
theorem issues_ret : ∀ f, IssueLaw (.ret f) := fun _ => issues_of State.retOp (fun _ => rfl)
theorem issues_endC : ∀ f, IssueLaw (.endC f) := fun _ => issues_of State.endOp (fun _ => rfl)
theorem issues_endW : ∀ f, IssueLaw (.endW f) := fun _ => issues_of State.endOp (fun _ => rfl)
theorem issues_fadd : ∀ f, IssueLaw (.fadd f) := fun f => issues_of (State.fp2 (fun a b => fpAdd a b (State.fpRm f)) f) (fun _ => rfl)
theorem issues_fsub : ∀ f, IssueLaw (.fsub f) := fun f => issues_of (State.fp2 (fun a b => fpSub a b (State.fpRm f)) f) (fun _ => rfl)
theorem issues_fmul : ∀ f, IssueLaw (.fmul f) := fun f => issues_of (State.fp2 (fun a b => fpMul a b (State.fpRm f)) f) (fun _ => rfl)
theorem issues_ffma : ∀ f, IssueLaw (.ffma f) := fun f => issues_of (State.ffmaOp f) (fun _ => rfl)
theorem issues_fdiv : ∀ f, IssueLaw (.fdiv f) := fun f => issues_of (State.fp2 (fun a b => fpDiv a b (State.fpRm f)) f) (fun _ => rfl)
theorem issues_fsqrt : ∀ f, IssueLaw (.fsqrt f) := fun f => issues_of (State.fp1 (fun a => (fpSqrt a (State.fpRm f)).setWidth 64) f) (fun _ => rfl)
theorem issues_fmin : ∀ f, IssueLaw (.fmin f) := fun f => issues_of (State.fp2 fpMin f) (fun _ => rfl)
theorem issues_fmax : ∀ f, IssueLaw (.fmax f) := fun f => issues_of (State.fp2 fpMax f) (fun _ => rfl)
theorem issues_fabs : ∀ f, IssueLaw (.fabs f) := fun f => issues_of (State.fp1 (fun a => (fpAbs a).setWidth 64) f) (fun _ => rfl)
theorem issues_fneg : ∀ f, IssueLaw (.fneg f) := fun f => issues_of (State.fp1 (fun a => (fpNeg a).setWidth 64) f) (fun _ => rfl)
theorem issues_fcmp : ∀ f, IssueLaw (.fcmp f) := fun f => issues_of (State.fcmpOp f) (fun _ => rfl)
theorem issues_fclass : ∀ f, IssueLaw (.fclass f) := fun f => issues_of (State.fp1 fpClass f) (fun _ => rfl)
theorem issues_tadd : ∀ f, IssueLaw (.tadd f) := fun f => issues_of (State.tf2 (fun t => tfOp2 t (fun x y => XReal.add x y 0)) f) (fun _ => rfl)
theorem issues_tsub : ∀ f, IssueLaw (.tsub f) := fun f => issues_of (State.tf2 (fun t => tfOp2 t (fun x y => XReal.add x y.neg 0)) f) (fun _ => rfl)
theorem issues_tmul : ∀ f, IssueLaw (.tmul f) := fun f => issues_of (State.tf2 (fun t => tfOp2 t XReal.mul) f) (fun _ => rfl)
theorem issues_tfma : ∀ f, IssueLaw (.tfma f) := fun f => issues_of (State.tfmaOp f) (fun _ => rfl)
theorem issues_tdiv : ∀ f, IssueLaw (.tdiv f) := fun f => issues_of (State.tf2 (fun t => tfOp2 t XReal.div) f) (fun _ => rfl)
theorem issues_tsqrt : ∀ f, IssueLaw (.tsqrt f) := fun f => issues_of (State.tf1 (fun t a => encTf t (decTf t a).sqrt) f) (fun _ => rfl)
theorem issues_tmin : ∀ f, IssueLaw (.tmin f) := fun f => issues_of (State.tf2 (fun t a b => if tfInt t b < tfInt t a then b else a) f) (fun _ => rfl)
theorem issues_tmax : ∀ f, IssueLaw (.tmax f) := fun f => issues_of (State.tf2 (fun t a b => if tfInt t a < tfInt t b then b else a) f) (fun _ => rfl)
theorem issues_tabs : ∀ f, IssueLaw (.tabs f) := fun f => issues_of (State.tf1 (fun t a => if tfInt t a < 0 then tfNeg t a else a) f) (fun _ => rfl)
theorem issues_tneg : ∀ f, IssueLaw (.tneg f) := fun f => issues_of (State.tf1 tfNeg f) (fun _ => rfl)
theorem issues_tcmp : ∀ f, IssueLaw (.tcmp f) := fun f => issues_of (State.tcmpOp f) (fun _ => rfl)
theorem issues_spz : ∀ f, IssueLaw (.spz f) := fun f => issues_of (State.spzOp f) (fun _ => rfl)
theorem issues_spfma : ∀ f, IssueLaw (.spfma f) := fun f => issues_of (State.spfmaOp false f) (fun _ => rfl)
theorem issues_spfms : ∀ f, IssueLaw (.spfms f) := fun f => issues_of (State.spfmaOp true f) (fun _ => rfl)
theorem issues_spadd : ∀ f, IssueLaw (.spadd f) := fun f => issues_of (State.spaddOp false f) (fun _ => rfl)
theorem issues_spsub : ∀ f, IssueLaw (.spsub f) := fun f => issues_of (State.spaddOp true f) (fun _ => rfl)
theorem issues_sprnd : ∀ f, IssueLaw (.sprnd f) := fun f => issues_of (State.sprndOp f) (fun _ => rfl)
theorem issues_spld : ∀ f, IssueLaw (.spld f) := fun f => issues_of (State.spldOp f f.imm) (fun _ => rfl)
theorem issues_spldX : ∀ f, IssueLaw (.spldX f) := fun f => issues_of (State.spldOp f.toW f.imm) (fun _ => rfl)
theorem issues_spst : ∀ f, IssueLaw (.spst f) := fun f => issues_of (State.spstOp f f.imm) (fun _ => rfl)
theorem issues_spstX : ∀ f, IssueLaw (.spstX f) := fun f => issues_of (State.spstOp f.toW f.imm) (fun _ => rfl)
theorem issues_cvt : ∀ f, IssueLaw (.cvt f) := fun f => issues_of (State.cvtOp f) (fun _ => rfl)
theorem issues_lclaim : ∀ f, IssueLaw (.lclaim f) := fun f => issues_of (State.lclaimOp f) (fun _ => rfl)
theorem issues_lrel : ∀ f, IssueLaw (.lrel f) := fun _ => issues_of (State.lrelOp) (fun _ => rfl)
theorem issues_lcount : ∀ f, IssueLaw (.lcount f) := fun f => issues_of (State.lcountOp f) (fun _ => rfl)
theorem issues_vadd : ∀ f, IssueLaw (.vadd f) := fun f => issues_of (State.vecInt f (fun _ a b => (a : Int) + b)) (fun _ => rfl)
theorem issues_vsub : ∀ f, IssueLaw (.vsub f) := fun f => issues_of (State.vecInt f (fun _ a b => (a : Int) - b)) (fun _ => rfl)
theorem issues_vmul : ∀ f, IssueLaw (.vmul f) := fun f => issues_of (State.vecInt f (fun _ a b => (a : Int) * b)) (fun _ => rfl)
theorem issues_vmulh : ∀ f, IssueLaw (.vmulh f) := fun f => issues_of (State.vecInt f (fun w a b => elemRead w f.uBit a * elemRead w f.uBit b / 2 ^ w)) (fun _ => rfl)
theorem issues_vmad : ∀ f, IssueLaw (.vmad f) := fun f => issues_of (State.vec2 f true (splat f.width) (fun d a b => laneOf f.width (fun e => (elemOf f.width d e : Int) + elemOf f.width a e * elemOf f.width b e))) (fun _ => rfl)
theorem issues_vmin : ∀ f, IssueLaw (.vmin f) := fun f => issues_of (State.vecInt f (fun w a b => min (elemRead w f.uBit a) (elemRead w f.uBit b))) (fun _ => rfl)
theorem issues_vmax : ∀ f, IssueLaw (.vmax f) := fun f => issues_of (State.vecInt f (fun w a b => max (elemRead w f.uBit a) (elemRead w f.uBit b))) (fun _ => rfl)
theorem issues_vabs : ∀ f, IssueLaw (.vabs f) := fun f => issues_of (State.vec1 f (fun a => laneOf f.width (fun e => (elemInt f.width (elemOf f.width a e)).natAbs))) (fun _ => rfl)
theorem issues_vand : ∀ f, IssueLaw (.vand f) := fun f => issues_of (State.vec2 f false State.low32 (fun _ a b => a &&& b)) (fun _ => rfl)
theorem issues_vor : ∀ f, IssueLaw (.vor f) := fun f => issues_of (State.vec2 f false State.low32 (fun _ a b => a ||| b)) (fun _ => rfl)
theorem issues_vxor : ∀ f, IssueLaw (.vxor f) := fun f => issues_of (State.vec2 f false State.low32 (fun _ a b => a ^^^ b)) (fun _ => rfl)
theorem issues_vshl : ∀ f, IssueLaw (.vshl f) := fun f => issues_of (State.vecInt f (fun w a b => (a : Int) * 2 ^ (b % w))) (fun _ => rfl)
theorem issues_vshr : ∀ f, IssueLaw (.vshr f) := fun f => issues_of (State.vecInt f (fun w a b => (a : Int) / 2 ^ (b % w))) (fun _ => rfl)
theorem issues_vsar : ∀ f, IssueLaw (.vsar f) := fun f => issues_of (State.vecInt f (fun w a b => elemInt w a / 2 ^ (b % w))) (fun _ => rfl)
theorem issues_vrshr : ∀ f, IssueLaw (.vrshr f) := fun f => issues_of (State.vecInt f (fun w a b => roundShift w f.uBit a b)) (fun _ => rfl)
theorem issues_vsat : ∀ f, IssueLaw (.vsat f) := fun f => issues_of (State.vec1 f (fun a => laneOf f.width (fun e => satElem f.width f.c.toNat f.uBit (elemOf f.width a e)))) (fun _ => rfl)
theorem issues_vclamp : ∀ f, IssueLaw (.vclamp f) := fun f => issues_of (State.vec3 f (splat f.width) (fun a b c => laneOf f.width (fun e => min (max (elemRead f.width f.uBit (elemOf f.width a e)) (elemRead f.width f.uBit (elemOf f.width b e))) (elemRead f.width f.uBit (elemOf f.width c e))))) (fun _ => rfl)
theorem issues_vdot4 : ∀ f, IssueLaw (.vdot4 f) := fun f => issues_of (State.vec2 f true State.low32 (dot 8 f.uBit (f.op == 1))) (fun _ => rfl)
theorem issues_vdot2 : ∀ f, IssueLaw (.vdot2 f) := fun f => issues_of (State.vec2 f true State.low32 (dot 16 f.uBit (f.op == 1))) (fun _ => rfl)
theorem issues_vfadd : ∀ f, IssueLaw (.vfadd f) := fun f => issues_of (State.vecFp f (fun a b => fpAdd a b f.rm)) (fun _ => rfl)
theorem issues_vfsub : ∀ f, IssueLaw (.vfsub f) := fun f => issues_of (State.vecFp f (fun a b => fpSub a b f.rm)) (fun _ => rfl)
theorem issues_vfmul : ∀ f, IssueLaw (.vfmul f) := fun f => issues_of (State.vecFp f (fun a b => fpMul a b f.rm)) (fun _ => rfl)
theorem issues_vffma : ∀ f, IssueLaw (.vffma f) := fun f => issues_of (State.vec3 f State.low32 (fun a b c => fpFma a b c f.rm)) (fun _ => rfl)
theorem issues_vfmin : ∀ f, IssueLaw (.vfmin f) := fun f => issues_of (State.vecFp f fpMin) (fun _ => rfl)
theorem issues_vfmax : ∀ f, IssueLaw (.vfmax f) := fun f => issues_of (State.vecFp f fpMax) (fun _ => rfl)
theorem issues_vfabs : ∀ f, IssueLaw (.vfabs f) := fun f => issues_of (State.vec1 f fpAbs) (fun _ => rfl)
theorem issues_vfneg : ∀ f, IssueLaw (.vfneg f) := fun f => issues_of (State.vec1 f fpNeg) (fun _ => rfl)
theorem issues_vexp2 : ∀ f, IssueLaw (.vexp2 f) := fun f => issues_of (State.vecReal f XReal.exp2) (fun _ => rfl)
theorem issues_vlog2 : ∀ f, IssueLaw (.vlog2 f) := fun f => issues_of (State.vecReal f XReal.log2) (fun _ => rfl)
theorem issues_vrcp : ∀ f, IssueLaw (.vrcp f) := fun f => issues_of (State.vecReal f (fun x => XReal.div (XReal.ofInt 1) x)) (fun _ => rfl)
theorem issues_vrsqrt : ∀ f, IssueLaw (.vrsqrt f) := fun f => issues_of (State.vecReal f XReal.rsqrt) (fun _ => rfl)
theorem issues_vsqrt : ∀ f, IssueLaw (.vsqrt f) := fun f => issues_of (State.vecReal f XReal.sqrt) (fun _ => rfl)
theorem issues_vdiv : ∀ f, IssueLaw (.vdiv f) := fun f => issues_of (State.vecFp f (fun a b => fpDiv a b f.rm)) (fun _ => rfl)
theorem issues_vtadd : ∀ f, IssueLaw (.vtadd f) := fun f => issues_of (State.vecTf f (fun t => tfOp2 t (fun x y => XReal.add x y 0))) (fun _ => rfl)
theorem issues_vtsub : ∀ f, IssueLaw (.vtsub f) := fun f => issues_of (State.vecTf f (fun t => tfOp2 t (fun x y => XReal.add x y.neg 0))) (fun _ => rfl)
theorem issues_vtmul : ∀ f, IssueLaw (.vtmul f) := fun f => issues_of (State.vecTf f (fun t => tfOp2 t XReal.mul)) (fun _ => rfl)
theorem issues_vtfma : ∀ f, IssueLaw (.vtfma f) := fun f => issues_of (State.vec3 f State.low32 (fun a b c => tfLane f.ew (tfFma f.ew a.toNat b.toNat c.toNat))) (fun _ => rfl)
theorem issues_vtmin : ∀ f, IssueLaw (.vtmin f) := fun f => issues_of (State.vecTf f (fun t a b => if tfInt t b < tfInt t a then b else a)) (fun _ => rfl)
theorem issues_vtmax : ∀ f, IssueLaw (.vtmax f) := fun f => issues_of (State.vecTf f (fun t a b => if tfInt t a < tfInt t b then b else a)) (fun _ => rfl)
theorem issues_vspz : ∀ f, IssueLaw (.vspz f) := fun f => issues_of (State.vspzOp f) (fun _ => rfl)
theorem issues_vspfma : ∀ f, IssueLaw (.vspfma f) := fun f => issues_of (State.vspfmaOp f) (fun _ => rfl)
theorem issues_vsprnd : ∀ f, IssueLaw (.vsprnd f) := fun f => issues_of (State.vsprndOp f) (fun _ => rfl)
theorem issues_vcmp : ∀ f, IssueLaw (.vcmp f) := fun f => issues_of (State.vcmpOp f (fun a b => intCond f.op (a.signExtend 64) (b.signExtend 64))) (fun _ => rfl)
theorem issues_vfcmp : ∀ f, IssueLaw (.vfcmp f) := fun f => issues_of (State.vcmpOp f (fun a b => fpCond f.op (decodeFp32 a) (decodeFp32 b))) (fun _ => rfl)
theorem issues_vtcmp : ∀ f, IssueLaw (.vtcmp f) := fun f => issues_of (State.vcmpOp f (fun a b => tfCond f.op (tfInt f.ew a.toNat) (tfInt f.ew b.toNat))) (fun _ => rfl)
theorem issues_vsel : ∀ f, IssueLaw (.vsel f) := fun f => issues_of (State.vselOp f) (fun _ => rfl)
theorem issues_kand : ∀ f, IssueLaw (.kand f) := fun f => issues_of (State.maskOp (· &&& ·) f) (fun _ => rfl)
theorem issues_kor : ∀ f, IssueLaw (.kor f) := fun f => issues_of (State.maskOp (· ||| ·) f) (fun _ => rfl)
theorem issues_kxor : ∀ f, IssueLaw (.kxor f) := fun f => issues_of (State.maskOp (· ^^^ ·) f) (fun _ => rfl)
theorem issues_knot : ∀ f, IssueLaw (.knot f) := fun f => issues_of (State.maskOp (fun a _ => ~~~a) f) (fun _ => rfl)
theorem issues_kset : ∀ f, IssueLaw (.kset f) := fun f => issues_of (State.ksetOp f) (fun _ => rfl)
theorem issues_kget : ∀ f, IssueLaw (.kget f) := fun f => issues_of (State.kgetOp f) (fun _ => rfl)
theorem issues_vcvt : ∀ f, IssueLaw (.vcvt f) := fun f => issues_of (State.vcvtOp f) (fun _ => rfl)
theorem issues_vpack : ∀ f, IssueLaw (.vpack f) := fun f => issues_of (State.vpackOp f) (fun _ => rfl)
theorem issues_vunpack : ∀ f, IssueLaw (.vunpack f) := fun f => issues_of (State.vunpackOp f) (fun _ => rfl)
theorem issues_vbcast : ∀ f, IssueLaw (.vbcast f) := fun f => issues_of (State.vbcastOp f) (fun _ => rfl)
theorem issues_vext : ∀ f, IssueLaw (.vext f) := fun f => issues_of (State.vextOp f) (fun _ => rfl)
theorem issues_vperm : ∀ f, IssueLaw (.vperm f) := fun f => issues_of (State.vpermOp f) (fun _ => rfl)
theorem issues_vslide : ∀ f, IssueLaw (.vslide f) := fun f => issues_of (State.vslideOp f) (fun _ => rfl)
theorem issues_vred : ∀ f, IssueLaw (.vred f) := fun f => issues_of (State.vredOp f) (fun _ => rfl)
theorem issues_vscan : ∀ f, IssueLaw (.vscan f) := fun f => issues_of (State.vscanOp f) (fun _ => rfl)
theorem issues_vld : ∀ f, IssueLaw (.vld f) := fun f => issues_of (State.vloadOp 0 f f.imm) (fun _ => rfl)
theorem issues_vldX : ∀ f, IssueLaw (.vldX f) := fun f => issues_of (State.vloadOp 0 f.toW f.imm) (fun _ => rfl)
theorem issues_vst : ∀ f, IssueLaw (.vst f) := fun f => issues_of (State.vstoreOp 0 f f.imm) (fun _ => rfl)
theorem issues_vstX : ∀ f, IssueLaw (.vstX f) := fun f => issues_of (State.vstoreOp 0 f.toW f.imm) (fun _ => rfl)
theorem issues_vlds : ∀ f, IssueLaw (.vlds f) := fun f => issues_of (State.vloadOp 1 f f.imm) (fun _ => rfl)
theorem issues_vldsX : ∀ f, IssueLaw (.vldsX f) := fun f => issues_of (State.vloadOp 1 f.toW f.imm) (fun _ => rfl)
theorem issues_vsts : ∀ f, IssueLaw (.vsts f) := fun f => issues_of (State.vstoreOp 1 f f.imm) (fun _ => rfl)
theorem issues_vstsX : ∀ f, IssueLaw (.vstsX f) := fun f => issues_of (State.vstoreOp 1 f.toW f.imm) (fun _ => rfl)
theorem issues_vldx : ∀ f, IssueLaw (.vldx f) := fun f => issues_of (State.vloadOp 2 f f.imm) (fun _ => rfl)
theorem issues_vldxX : ∀ f, IssueLaw (.vldxX f) := fun f => issues_of (State.vloadOp 2 f.toW f.imm) (fun _ => rfl)
theorem issues_vstx : ∀ f, IssueLaw (.vstx f) := fun f => issues_of (State.vstoreOp 2 f f.imm) (fun _ => rfl)
theorem issues_vstxX : ∀ f, IssueLaw (.vstxX f) := fun f => issues_of (State.vstoreOp 2 f.toW f.imm) (fun _ => rfl)
theorem issues_mfmt : ∀ f, IssueLaw (.mfmt f) := fun f => issues_of (State.mfmtOp f) (fun _ => rfl)
theorem issues_mscl : ∀ f, IssueLaw (.mscl f) := fun f => issues_of (State.msclOp f f.imm) (fun _ => rfl)
theorem issues_msclX : ∀ f, IssueLaw (.msclX f) := fun f => issues_of (State.msclOp f.toW f.imm) (fun _ => rfl)
theorem issues_mlb : ∀ f, IssueLaw (.mlb f) := fun f => issues_of (State.mlbOp f f.imm) (fun _ => rfl)
theorem issues_mlbX : ∀ f, IssueLaw (.mlbX f) := fun f => issues_of (State.mlbOp f.toW f.imm) (fun _ => rfl)
theorem issues_mma : ∀ f, IssueLaw (.mma f) := fun f => issues_of (State.mmaOp f f.imm) (fun _ => rfl)
theorem issues_mmaX : ∀ f, IssueLaw (.mmaX f) := fun f => issues_of (State.mmaOp f.toW f.imm) (fun _ => rfl)
theorem issues_mrot : ∀ f, IssueLaw (.mrot f) := fun f => issues_of (State.mrotOp f) (fun _ => rfl)
theorem issues_mzero : ∀ f, IssueLaw (.mzero f) := fun f => issues_of (State.mzeroOp f) (fun _ => rfl)
theorem issues_mdrain : ∀ f, IssueLaw (.mdrain f) := fun f => issues_of (State.mdrainOp f) (fun _ => rfl)
theorem issues_mrow : ∀ f, IssueLaw (.mrow f) := fun f => issues_of (State.mrowOp f) (fun _ => rfl)
theorem issues_falloc : ∀ f, IssueLaw (.falloc f) := fun f => issues_of (State.falloc f) (fun _ => rfl)
theorem issues_ffree : ∀ f, IssueLaw (.ffree f) := fun f => issues_of (State.ffree f) (fun _ => rfl)
theorem issues_sarm : ∀ f, IssueLaw (.sarm f) := fun f => issues_of (State.sarm f) (fun _ => rfl)
theorem issues_sig : ∀ f, IssueLaw (.sig f) := fun f => issues_of (State.sig f f.sub.toNat) (fun _ => rfl)
theorem issues_sigX : ∀ f, IssueLaw (.sigX f) := fun f => issues_of (State.sig f.toW f.lit.toNat) (fun _ => rfl)
theorem issues_sigv : ∀ f, IssueLaw (.sigv f) := fun f => issues_of (State.sigv f) (fun _ => rfl)
theorem issues_sigb : ∀ f, IssueLaw (.sigb f) := fun f => issues_of (State.sigb f) (fun _ => rfl)
theorem issues_fire : ∀ f, IssueLaw (.fire f) := fun f => issues_of (State.fireSlot f) (fun _ => rfl)
theorem issues_sget : ∀ f, IssueLaw (.sget f) := fun f => issues_of (State.sget f) (fun _ => rfl)
theorem issues_ldf : ∀ f, IssueLaw (.ldf f) := fun f => issues_of (State.ldf f) (fun _ => rfl)
theorem issues_stf : ∀ f, IssueLaw (.stf f) := fun f => issues_of (State.stf f) (fun _ => rfl)
theorem issues_rinit : ∀ f, IssueLaw (.rinit f) := fun f => issues_of (State.ring 0 f) (fun _ => rfl)
theorem issues_racq : ∀ f, IssueLaw (.racq f) := fun f => issues_of (State.ring 1 f) (fun _ => rfl)
theorem issues_rcom : ∀ f, IssueLaw (.rcom f) := fun f => issues_of (State.ring 2 f) (fun _ => rfl)
theorem issues_rpeek : ∀ f, IssueLaw (.rpeek f) := fun f => issues_of (State.ring 3 f) (fun _ => rfl)
theorem issues_rrel : ∀ f, IssueLaw (.rrel f) := fun f => issues_of (State.ring 4 f) (fun _ => rfl)
theorem issues_ldC : ∀ f, IssueLaw (.ldC f) := fun f => issues_of
  (fun s => do
    let (a, s) ← s.readS f.a
    let v ← s.loadCore (a + BitVec.ofNat 64 (8 * f.b.toNat)) 8 false
    (s.loaded (a + BitVec.ofNat 64 (8 * f.b.toNat)) 8).writeS f.d v) (fun _ => rfl)
theorem issues_ld : ∀ f, IssueLaw (.ld f) := fun f => issues_of (State.ld f f.imm) (fun _ => rfl)
theorem issues_ldX : ∀ f, IssueLaw (.ldX f) := fun f => issues_of (State.ld f.toW f.imm) (fun _ => rfl)
theorem issues_stC : ∀ f, IssueLaw (.stC f) := fun f => issues_of
  (fun s => do
    let (a, s) ← s.readS f.a
    let (d, s) ← s.readS f.d
    s.storeCore (a + BitVec.ofNat 64 (8 * f.b.toNat)) 8 d) (fun _ => rfl)
theorem issues_st : ∀ f, IssueLaw (.st f) := fun f => issues_of (State.st f f.imm) (fun _ => rfl)
theorem issues_stX : ∀ f, IssueLaw (.stX f) := fun f => issues_of (State.st f.toW f.imm) (fun _ => rfl)
theorem issues_ldrm : ∀ f, IssueLaw (.ldrm f) := fun f => issues_of (State.ldrm f) (fun _ => rfl)
theorem issues_strm : ∀ f, IssueLaw (.strm f) := fun f => issues_of (State.strm f) (fun _ => rfl)
theorem issues_aadd : ∀ f, IssueLaw (.aadd f) := fun f => issues_of (State.atomic 0 f) (fun _ => rfl)
theorem issues_amin : ∀ f, IssueLaw (.amin f) := fun f => issues_of (State.atomic 1 f) (fun _ => rfl)
theorem issues_amax : ∀ f, IssueLaw (.amax f) := fun f => issues_of (State.atomic 2 f) (fun _ => rfl)
theorem issues_aminu : ∀ f, IssueLaw (.aminu f) := fun f => issues_of (State.atomic 3 f) (fun _ => rfl)
theorem issues_amaxu : ∀ f, IssueLaw (.amaxu f) := fun f => issues_of (State.atomic 4 f) (fun _ => rfl)
theorem issues_aand : ∀ f, IssueLaw (.aand f) := fun f => issues_of (State.atomic 5 f) (fun _ => rfl)
theorem issues_aor : ∀ f, IssueLaw (.aor f) := fun f => issues_of (State.atomic 6 f) (fun _ => rfl)
theorem issues_axor : ∀ f, IssueLaw (.axor f) := fun f => issues_of (State.atomic 7 f) (fun _ => rfl)
theorem issues_aswp : ∀ f, IssueLaw (.aswp f) := fun f => issues_of (State.atomic 8 f) (fun _ => rfl)
theorem issues_acas : ∀ f, IssueLaw (.acas f) := fun f => issues_of (State.atomic 9 f) (fun _ => rfl)
theorem issues_afadd : ∀ f, IssueLaw (.afadd f) := fun f => issues_of (State.atomic 10 f) (fun _ => rfl)
theorem issues_aspadd : ∀ f, IssueLaw (.aspadd f) := fun f => issues_of (State.aspadd f) (fun _ => rfl)
theorem issues_fence : ∀ f, IssueLaw (.fence f) := fun f => issues_of (State.fence f) (fun _ => rfl)
theorem issues_twld : ∀ f, IssueLaw (.twld f) := fun f => issues_of (State.walkIssue 0 f) (fun _ => rfl)
theorem issues_twst : ∀ f, IssueLaw (.twst f) := fun f => issues_of (State.walkIssue 1 f) (fun _ => rfl)
theorem issues_twmc : ∀ f, IssueLaw (.twmc f) := fun f => issues_of (State.walkIssue 2 f) (fun _ => rfl)
theorem issues_twg : ∀ f, IssueLaw (.twg f) := fun f => issues_of (State.walkIssue 3 f) (fun _ => rfl)
theorem issues_tws : ∀ f, IssueLaw (.tws f) := fun f => issues_of (State.walkIssue 4 f) (fun _ => rfl)
theorem issues_twq : ∀ f, IssueLaw (.twq f) := fun f => issues_of (State.walkIssue 5 f) (fun _ => rfl)
theorem issues_twcan : ∀ f, IssueLaw (.twcan f) := fun f => issues_of (State.twcan f) (fun _ => rfl)
theorem issues_stepd : ∀ f, IssueLaw (.stepd f) := fun _ => issues_of State.stepdOp (fun _ => rfl)
theorem issues_ldst : ∀ f, IssueLaw (.ldst f) := fun f => issues_of (State.ldstOp f) (fun _ => rfl)
theorem issues_stepq : ∀ f, IssueLaw (.stepq f) := fun f => issues_of (State.stepqOp f) (fun _ => rfl)
theorem issues_sqtab : ∀ f, IssueLaw (.sqtab f) := fun f => issues_of (State.sqtabOp f) (fun _ => rfl)
theorem issues_sqinit : ∀ f, IssueLaw (.sqinit f) := fun f => issues_of (State.sqinitOp f) (fun _ => rfl)
theorem issues_sqstage : ∀ f, IssueLaw (.sqstage f) := fun f => issues_of (State.sqgoOp true f) (fun _ => rfl)
theorem issues_sqstep : ∀ f, IssueLaw (.sqstep f) := fun f => issues_of (State.sqgoOp false f) (fun _ => rfl)
theorem issues_sqrd : ∀ f, IssueLaw (.sqrd f) := fun f => issues_of (State.sqrdOp f) (fun _ => rfl)
theorem issues_glaunch : ∀ f, IssueLaw (.glaunch f) := fun f => issues_of (State.glaunch f) (fun _ => rfl)
theorem issues_gquery : ∀ f, IssueLaw (.gquery f) := fun f => issues_of (State.askRecord 1 f) (fun _ => rfl)
theorem issues_gcan : ∀ f, IssueLaw (.gcan f) := fun f => issues_of (State.askRecord 2 f) (fun _ => rfl)
theorem issues_sysr : ∀ f, IssueLaw (.sysr f) := fun f => issues_of (State.sysr f) (fun _ => rfl)
theorem issues_sysw : ∀ f, IssueLaw (.sysw f) := fun f => issues_of (State.sysw f) (fun _ => rfl)
theorem issues_trap : ∀ f, IssueLaw (.trap f) := fun _ => trap_issues _ (fun _ => rfl)
theorem issues_trapX : ∀ f, IssueLaw (.trapX f) := fun _ => trap_issues _ (fun _ => rfl)
theorem issues_brk : ∀ f, IssueLaw (.brk f) := fun f => issues_of (State.brk f) (fun _ => rfl)
theorem issues_snap : ∀ f, IssueLaw (.snap f) := fun f => issues_of (State.snap f) (fun _ => rfl)
theorem issues_clockPinned : ∀ die, IssueLaw (.clockPinned die) := fun _ => trivial
theorem issues_softError : ∀ key bits, IssueLaw (.softError key bits) := fun _ _ => trivial
theorem issues_fillComplete : ∀ cid, IssueLaw (.fillComplete cid) := fun _ => trivial

end Sys2Proof.Laws
end

