-- ==== Sys2Proof/Laws/Keeps.lean ====
section
/-! SUPPORT. Every instruction and every event keeps the canonical form of memory: one lemma per row, over those of the
operations that it is made of. -/

set_option Elab.async false

namespace Sys2Proof.Machine

/-- A row whose next states keep the canonical form of memory. -/
def Keeps (i : Instr) : Prop := ∀ s u, exec i s = .next u → memWf s.mem = true → memWf u.mem = true

/-- An instruction keeps the form where its body does. -/
theorem wf_issue {len : Nat} {g : BitVec 4} {s u : State} {body : State → Except Code State}
    (h : ∀ t v, body t = .ok v → memWf t.mem = true → memWf v.mem = true) (e : issue len g s body = .next u)
    (hw : memWf s.mem = true) : memWf u.mem = true := by
  have hc : memWf (s.countIssue len).mem = true := wf_countIssue _ _ hw
  rcases issue_cases len g s body with ⟨_, e'⟩ | ⟨t, _, hb, e'⟩ | ⟨c, _, _, e'⟩ <;> rw [e'] at e <;> cases e
  · exact hc
  · exact h _ _ hb hc
  · exact wf_takeFault _ _ _ hc

theorem keeps_moduleReset : Keeps .moduleReset := by
  intro s u e hw
  rw [exec_moduleReset] at e; unfold execModuleReset at e
  cases e
  apply wf_moduleReset
  exact hw

theorem keeps_imageLoad : ∀ p img, Keeps (.imageLoad p img) := by
  intro p img s u e hw
  rw [exec_imageLoad] at e; unfold execImageLoad at e
  cases e
  apply wf_imageLoad
  exact hw

theorem keeps_illegalPattern : ∀ code, Keeps (.illegalPattern code) := by
  intro code s u e hw
  rw [exec_illegalPattern] at e; unfold execIllegalPattern at e
  cases e
  exact wf_takeFault _ _ _ (wf_modCtx _ _ hw)

theorem keeps_dispatch : ∀ cid ctx, Keeps (.dispatch cid ctx) := by
  intro cid ctx s u e hw
  rw [exec_dispatch] at e; unfold execDispatch at e
  cases e
  apply wf_dispatch
  exact hw

theorem keeps_signalArrival : ∀ cid f slot pkts, Keeps (.signalArrival cid f slot pkts) := by
  intro cid f slot pkts s u e hw
  rw [exec_signalArrival] at e; unfold execSignalArrival at e
  cases e
  apply wf_signalArrival
  exact hw

theorem keeps_allocationRequest : ∀ pkt same, Keeps (.allocationRequest pkt same) := by
  intro pkt same s u e hw
  rw [exec_allocationRequest] at e; unfold execAllocationRequest at e
  cases e
  apply wf_allocationRequest
  exact hw

theorem keeps_armingRequest : ∀ pkt same, Keeps (.armingRequest pkt same) := by
  intro pkt same s u e hw
  rw [exec_armingRequest] at e; unfold execArmingRequest at e
  cases e
  apply wf_armingRequest
  exact hw

theorem keeps_freeRequest : ∀ pkt, Keeps (.freeRequest pkt) := by
  intro pkt s u e hw
  rw [exec_freeRequest] at e; unfold execFreeRequest at e
  cases e
  apply wf_freeRequest
  exact hw

theorem keeps_stfRequest : ∀ pkt, Keeps (.stfRequest pkt) := by
  intro pkt s u e hw
  rw [exec_stfRequest] at e; unfold execStfRequest at e
  cases e
  apply wf_stfRequest
  exact hw

theorem keeps_ldfRequest : ∀ pkt, Keeps (.ldfRequest pkt) := by
  intro pkt s u e hw
  rw [exec_ldfRequest] at e; unfold execLdfRequest at e
  cases e
  apply wf_ldfRequest
  exact hw

theorem keeps_replyArrival : ∀ pkt same, Keeps (.replyArrival pkt same) := by
  intro pkt same s u e hw
  rw [exec_replyArrival] at e; unfold execReplyArrival at e
  cases e
  apply wf_replyArrival
  exact hw

theorem keeps_spilledRequestApply : ∀ pkt, Keeps (.spilledRequestApply pkt) := by
  intro pkt s u e hw
  rw [exec_spilledRequestApply] at e; unfold execSpilledRequestApply at e
  cases e
  apply wf_spilledRequestApply
  exact hw

theorem keeps_fill : ∀ cid, Keeps (.fill cid) := by
  intro cid s u e hw
  rw [exec_fill] at e; unfold execFill at e
  cases e
  apply wf_fillStart
  exact hw

theorem keeps_writeBackStart : ∀ cid f, Keeps (.writeBackStart cid f) := by
  intro cid f s u e hw
  rw [exec_writeBackStart] at e; unfold execWriteBackStart at e
  cases e
  apply wf_writeBackStart
  exact hw

theorem keeps_writeBackComplete : ∀ cid f, Keeps (.writeBackComplete cid f) := by
  intro cid f s u e hw
  rw [exec_writeBackComplete] at e; unfold execWriteBackComplete at e
  cases e
  apply wf_writeBackComplete
  exact hw

theorem keeps_matrixCommandStart : ∀ cid m, Keeps (.matrixCommandStart cid m) := by
  intro cid m s u e hw
  rw [exec_matrixCommandStart] at e; unfold execMatrixCommandStart at e
  cases e
  apply wf_matrixStart
  exact hw

theorem keeps_matrixCommandFinish : ∀ cid m, Keeps (.matrixCommandFinish cid m) := by
  intro cid m s u e hw
  rw [exec_matrixCommandFinish] at e; unfold execMatrixCommandFinish at e
  cases e
  apply wf_matrixFinish
  exact hw

theorem keeps_mdrainRow : ∀ cid m, Keeps (.mdrainRow cid m) := by
  intro cid m s u e hw
  rw [exec_mdrainRow] at e; unfold execMdrainRow at e
  cases e
  apply wf_mdrainRow
  exact hw

theorem keeps_mrotTileLands : ∀ pkt, Keeps (.mrotTileLands pkt) := by
  intro pkt s u e hw
  rw [exec_mrotTileLands] at e; unfold execMrotTileLands at e
  cases e
  apply wf_mrotLands
  exact hw

theorem keeps_landingMove : ∀ cid latch, Keeps (.landingMove cid latch) := by
  intro cid latch s u e hw
  rw [exec_landingMove] at e; unfold execLandingMove at e
  cases e
  apply wf_landingMove
  exact hw

theorem keeps_portWordArrival : ∀ cid dir, Keeps (.portWordArrival cid dir) := by
  intro cid dir s u e hw
  rw [exec_portWordArrival] at e; unfold execPortWordArrival at e
  cases e
  apply wf_portWordArrival
  exact hw

theorem keeps_ldrmRequest : ∀ pkt, Keeps (.ldrmRequest pkt) := by
  intro pkt s u e hw
  rw [exec_ldrmRequest] at e; unfold execLdrmRequest at e
  cases e
  apply wf_ldrmRequest
  exact hw

theorem keeps_strmRequest : ∀ pkt, Keeps (.strmRequest pkt) := by
  intro pkt s u e hw
  rw [exec_strmRequest] at e; unfold execStrmRequest at e
  cases e
  apply wf_strmRequest
  exact hw

theorem keeps_atomicRequest : ∀ pkt, Keeps (.atomicRequest pkt) := by
  intro pkt s u e hw
  rw [exec_atomicRequest] at e; unfold execAtomicRequest at e
  cases e
  apply wf_atomicRequest
  exact hw

theorem keeps_ringRequest : ∀ pkt, Keeps (.ringRequest pkt) := by
  intro pkt s u e hw
  rw [exec_ringRequest] at e; unfold execRingRequest at e
  cases e
  apply wf_ringRequest
  exact hw

theorem keeps_fenceRelease : ∀ pkt, Keeps (.fenceRelease pkt) := by
  intro pkt s u e hw
  rw [exec_fenceRelease] at e; unfold execFenceRelease at e
  cases e
  apply wf_fenceRelease
  exact hw

theorem keeps_releaseSignalSend : ∀ pkt, Keeps (.releaseSignalSend pkt) := by
  intro pkt s u e hw
  rw [exec_releaseSignalSend] at e; unfold execReleaseSignalSend at e
  cases e
  apply wf_releaseSignalSend
  exact hw

theorem keeps_walkStart : ∀ clid w, Keeps (.walkStart clid w) := by
  intro clid w s u e hw
  rw [exec_walkStart] at e; unfold execWalkStart at e
  cases e
  apply wf_walkStart
  exact hw

theorem keeps_walkTranslation : ∀ w tile choice, Keeps (.walkTranslation w tile choice) := by
  intro w tile choice s u e hw
  rw [exec_walkTranslation] at e; unfold execWalkTranslation at e
  cases e
  apply wf_walkTranslation
  exact hw

theorem keeps_walkMove : ∀ w moves, Keeps (.walkMove w moves) := by
  intro w moves s u e hw
  rw [exec_walkMove] at e; unfold execWalkMove at e
  cases e
  apply wf_walkMove
  exact hw

theorem keeps_dimensionEndSignal : ∀ w level run target, Keeps (.dimensionEndSignal w level run target) := by
  intro w level run target s u e hw
  rw [exec_dimensionEndSignal] at e; unfold execDimensionEndSignal at e
  cases e
  apply wf_dimensionEndSignal
  exact hw

theorem keeps_finalSignal : ∀ w, Keeps (.finalSignal w) := by
  intro w s u e hw
  rw [exec_finalSignal] at e; unfold execFinalSignal at e
  cases e
  apply wf_finalSignal
  exact hw

theorem keeps_twcanComplete : ∀ pkt, Keeps (.twcanComplete pkt) := by
  intro pkt s u e hw
  rw [exec_twcanComplete] at e; unfold execTwcanComplete at e
  cases e
  apply wf_twcanComplete
  exact hw

theorem keeps_stepdDone : ∀ cid fid, Keeps (.stepdDone cid fid) := by
  intro cid fid s u e hw
  rw [exec_stepdDone] at e; unfold execStepdDone at e
  cases e
  apply wf_stepdDone
  exact hw

theorem keeps_stepAdvance : ∀ cid, Keeps (.stepAdvance cid) := by
  intro cid s u e hw
  rw [exec_stepAdvance] at e; unfold execStepAdvance at e
  cases e
  apply wf_stepAdvance
  exact hw

theorem keeps_stepNotice : ∀ pkt, Keeps (.stepNotice pkt) := by
  intro pkt s u e hw
  rw [exec_stepNotice] at e; unfold execStepNotice at e
  cases e
  apply wf_stepNotice
  exact hw

theorem keeps_ldstRequest : ∀ pkt, Keeps (.ldstRequest pkt) := by
  intro pkt s u e hw
  rw [exec_ldstRequest] at e; unfold execLdstRequest at e
  cases e
  apply wf_ldstRequest
  exact hw

theorem keeps_stepqRequest : ∀ pkt, Keeps (.stepqRequest pkt) := by
  intro pkt s u e hw
  rw [exec_stepqRequest] at e; unfold execStepqRequest at e
  cases e
  apply wf_stepqRequest
  exact hw

theorem keeps_stepRequestResend : ∀ pkt, Keeps (.stepRequestResend pkt) := by
  intro pkt s u e hw
  rw [exec_stepRequestResend] at e; unfold execStepRequestResend at e
  cases e
  apply wf_stepResend
  exact hw

theorem keeps_sqtabServe : ∀ pkt, Keeps (.sqtabServe pkt) := by
  intro pkt s u e hw
  rw [exec_sqtabServe] at e; unfold execSqtabServe at e
  cases e
  apply wf_sqtabServe
  exact hw

theorem keeps_sqinitServe : ∀ pkt, Keeps (.sqinitServe pkt) := by
  intro pkt s u e hw
  rw [exec_sqinitServe] at e; unfold execSqinitServe at e
  cases e
  apply wf_sqinitServe
  exact hw

theorem keeps_sqstepServe : ∀ pkt, Keeps (.sqstepServe pkt) := by
  intro pkt s u e hw
  rw [exec_sqstepServe] at e; unfold execSqstepServe at e
  cases e
  apply wf_sqstepServe
  exact hw

theorem keeps_sqstageServe : ∀ pkt, Keeps (.sqstageServe pkt) := by
  intro pkt s u e hw
  rw [exec_sqstageServe] at e; unfold execSqstageServe at e
  cases e
  apply wf_sqstageServe
  exact hw

theorem keeps_sqrdServe : ∀ pkt, Keeps (.sqrdServe pkt) := by
  intro pkt s u e hw
  rw [exec_sqrdServe] at e; unfold execSqrdServe at e
  cases e
  apply wf_sqrdServe
  exact hw

theorem keeps_stageFormed : ∀ clid r, Keeps (.stageFormed clid r) := by
  intro clid r s u e hw
  rw [exec_stageFormed] at e; unfold execStageFormed at e
  cases e
  apply wf_stageFormed
  exact hw

theorem keeps_stepDecision : ∀ clid r, Keeps (.stepDecision clid r) := by
  intro clid r s u e hw
  rw [exec_stepDecision] at e; unfold execStepDecision at e
  cases e
  apply wf_stepDecision
  exact hw

theorem keeps_launchRequest : ∀ pkt, Keeps (.launchRequest pkt) := by
  intro pkt s u e hw
  rw [exec_launchRequest] at e; unfold execLaunchRequest at e
  cases e
  apply wf_launchRequest
  exact hw

theorem keeps_instanceStart : ∀ handle, Keeps (.instanceStart handle) := by
  intro handle s u e hw
  rw [exec_instanceStart] at e; unfold execInstanceStart at e
  cases e
  apply wf_instanceStart
  exact hw

theorem keeps_launchMulticast : ∀ die handle, Keeps (.launchMulticast die handle) := by
  intro die handle s u e hw
  rw [exec_launchMulticast] at e; unfold execLaunchMulticast at e
  cases e
  apply wf_castAt
  exact hw

theorem keeps_instanceEnd : ∀ handle, Keeps (.instanceEnd handle) := by
  intro handle s u e hw
  rw [exec_instanceEnd] at e; unfold execInstanceEnd at e
  cases e
  apply wf_instanceEnd
  exact hw

theorem keeps_creditLend : ∀ die p, Keeps (.creditLend die p) := by
  intro die p s u e hw
  rw [exec_creditLend] at e; unfold execCreditLend at e
  cases e
  apply wf_creditLend
  exact hw

theorem keeps_gqueryRequest : ∀ pkt, Keeps (.gqueryRequest pkt) := by
  intro pkt s u e hw
  rw [exec_gqueryRequest] at e; unfold execGqueryRequest at e
  cases e
  apply wf_gqueryRequest
  exact hw

theorem keeps_gcanRequest : ∀ pkt, Keeps (.gcanRequest pkt) := by
  intro pkt s u e hw
  rw [exec_gcanRequest] at e; unfold execGcanRequest at e
  cases e
  apply wf_gcanRequest
  exact hw

theorem keeps_subqBase : ∀ p v, Keeps (.subqBase p v) := by
  intro p v s u e hw
  rw [exec_subqBase] at e; unfold execSubqBase at e
  cases e
  apply wf_subqBase
  exact hw

theorem keeps_subqLog : ∀ p v, Keeps (.subqLog p v) := by
  intro p v s u e hw
  rw [exec_subqLog] at e; unfold execSubqLog at e
  cases e
  apply wf_subqLog
  exact hw

theorem keeps_subqTail : ∀ p v, Keeps (.subqTail p v) := by
  intro p v s u e hw
  rw [exec_subqTail] at e; unfold execSubqTail at e
  cases e
  apply wf_subqTail
  exact hw

theorem keeps_submissionEntryRead : ∀ p, Keeps (.submissionEntryRead p) := by
  intro p s u e hw
  rw [exec_submissionEntryRead] at e; unfold execSubmissionEntryRead at e
  cases e
  apply wf_submissionEntryRead
  exact hw

theorem keeps_forecast : ∀ die, Keeps (.forecast die) := by
  intro die s u e hw
  rw [exec_forecast] at e; unfold execForecast at e
  cases e
  apply wf_onDie
  exact hw

theorem keeps_telemetryUpdate : ∀ die, Keeps (.telemetryUpdate die) := by
  intro die s u e hw
  rw [exec_telemetryUpdate] at e; unfold execTelemetryUpdate at e
  cases e
  apply wf_onDie
  exact hw

theorem keeps_placementEntryWrite : ∀ p cb w0 w1, Keeps (.placementEntryWrite p cb w0 w1) := by
  intro p cb w0 w1 s u e hw
  rw [exec_placementEntryWrite] at e; unfold execPlacementEntryWrite at e
  cases e
  apply wf_placementEntryWrite
  exact hw

theorem keeps_spillFrames : ∀ p v, Keeps (.spillFrames p v) := by
  intro p v s u e hw
  rw [exec_spillFrames] at e; unfold execSpillFrames at e
  cases e
  apply wf_spillFrames
  exact hw

theorem keeps_spillBase : ∀ p d v, Keeps (.spillBase p d v) := by
  intro p d v s u e hw
  rw [exec_spillBase] at e; unfold execSpillBase at e
  cases e
  apply wf_spillBase
  exact hw

theorem keeps_migGo : ∀ p v, Keeps (.migGo p v) := by
  intro p v s u e hw
  rw [exec_migGo] at e; unfold execMigGo at e
  cases e
  apply wf_migGo
  exact hw

theorem keeps_migrationComplete : ∀ p, Keeps (.migrationComplete p) := by
  intro p s u e hw
  rw [exec_migrationComplete] at e; unfold execMigrationComplete at e
  cases e
  apply wf_migrationComplete
  exact hw

theorem keeps_commit : ∀ v, Keeps (.commit v) := by
  intro v s u e hw
  rw [exec_commit] at e; unfold execCommit at e
  cases e
  apply wf_commit
  exact hw

theorem keeps_drainMessage : ∀ die, Keeps (.drainMessage die) := by
  intro die s u e hw
  rw [exec_drainMessage] at e; unfold execDrainMessage at e
  cases e
  apply wf_drainMessage
  exact hw

theorem keeps_clearingComplete : ∀ p, Keeps (.clearingComplete p) := by
  intro p s u e hw
  rw [exec_clearingComplete] at e; unfold execClearingComplete at e
  cases e
  apply wf_clearingComplete
  exact hw

theorem keeps_preempt : ∀ p, Keeps (.preempt p) := by
  intro p s u e hw
  rw [exec_preempt] at e; unfold execPreempt at e
  cases e
  apply wf_preempt
  exact hw

theorem keeps_resume : ∀ p, Keeps (.resume p) := by
  intro p s u e hw
  rw [exec_resume] at e; unfold execResume at e
  cases e
  apply wf_resume
  exact hw

theorem keeps_coreSave : ∀ cid, Keeps (.coreSave cid) := by
  intro cid s u e hw
  rw [exec_coreSave] at e; unfold execCoreSave at e
  cases e
  apply wf_coreSave
  exact hw

theorem keeps_savedPacketApply : ∀ pkt, Keeps (.savedPacketApply pkt) := by
  intro pkt s u e hw
  rw [exec_savedPacketApply] at e; unfold execSavedPacketApply at e
  cases e
  apply wf_savedPacketApply
  exact hw

theorem keeps_coreRestore : ∀ cid, Keeps (.coreRestore cid) := by
  intro cid s u e hw
  rw [exec_coreRestore] at e; unfold execCoreRestore at e
  cases e
  apply wf_coreRestore
  exact hw

theorem keeps_ordArm : ∀ p d n v, Keeps (.ordArm p d n v) := by
  intro p d n v s u e hw
  rw [exec_ordArm] at e; unfold execOrdArm at e
  cases e
  apply wf_ordArm
  exact hw

theorem keeps_ordAddr : ∀ p d n v, Keeps (.ordAddr p d n v) := by
  intro p d n v s u e hw
  rw [exec_ordAddr] at e; unfold execOrdAddr at e
  cases e
  apply wf_ordAddr
  exact hw

theorem keeps_ordN : ∀ p d n v, Keeps (.ordN p d n v) := by
  intro p d n v s u e hw
  rw [exec_ordN] at e; unfold execOrdN at e
  cases e
  apply wf_ordN
  exact hw

theorem keeps_orderedReductionRequest : ∀ pkt, Keeps (.orderedReductionRequest pkt) := by
  intro pkt s u e hw
  rw [exec_orderedReductionRequest] at e; unfold execOrderedReductionRequest at e
  cases e
  apply wf_orderedReductionRequest
  exact hw

theorem keeps_faBase : ∀ p v, Keeps (.faBase p v) := by
  intro p v s u e hw
  rw [exec_faBase] at e; unfold execFaBase at e
  cases e
  apply wf_faBase
  exact hw

theorem keeps_faLog : ∀ p v, Keeps (.faLog p v) := by
  intro p v s u e hw
  rw [exec_faLog] at e; unfold execFaLog at e
  cases e
  apply wf_faLog
  exact hw

theorem keeps_faultRecordWrite : ∀ n, Keeps (.faultRecordWrite n) := by
  intro n s u e hw
  rw [exec_faultRecordWrite] at e; unfold execFaultRecordWrite at e
  cases e
  apply wf_faultRecordWrite
  exact hw

theorem keeps_snapTrig : ∀ v, Keeps (.snapTrig v) := by
  intro v s u e hw
  rw [exec_snapTrig] at e; unfold execSnapTrig at e
  cases e
  apply wf_snapTrig
  exact hw

theorem keeps_snapshotTriggerArrival : ∀ trig block, Keeps (.snapshotTriggerArrival trig block) := by
  intro trig block s u e hw
  rw [exec_snapshotTriggerArrival] at e; unfold execSnapshotTriggerArrival at e
  cases e
  apply wf_snapshotTriggerArrival
  exact hw

theorem keeps_snapComplete : ∀ trig, Keeps (.snapComplete trig) := by
  intro trig s u e hw
  rw [exec_snapComplete] at e; unfold execSnapComplete at e
  cases e
  apply wf_snapComplete
  exact hw

theorem keeps_mgCmdLoad : Keeps .mgCmdLoad := by
  intro s u e hw
  rw [exec_mgCmdLoad] at e; unfold execMgCmdLoad at e
  cases e
  exact wf_freitStart _ _ _ (wf_loadImage _ hw) hw

theorem keeps_mgCmdActivate : Keeps .mgCmdActivate := by
  intro s u e hw
  rw [exec_mgCmdActivate] at e; unfold execMgCmdActivate at e
  cases e
  exact wf_freitStart _ _ _ (wf_activateSlot _ hw) hw

theorem keeps_mgCmdFloor : Keeps .mgCmdFloor := by
  intro s u e hw
  rw [exec_mgCmdFloor] at e; unfold execMgCmdFloor at e
  cases e
  exact wf_freitStart _ _ _ (wf_raiseFloor _ hw) hw

theorem keeps_mgCmdQuote : Keeps .mgCmdQuote := by
  intro s u e hw
  rw [exec_mgCmdQuote] at e; unfold execMgCmdQuote at e
  cases e
  exact wf_freitStart _ _ _ (wf_writeQuote _ hw) hw

theorem keeps_freitCommandDone : Keeps .freitCommandDone := by
  intro s u e hw
  rw [exec_freitCommandDone] at e; unfold execFreitCommandDone at e
  cases e
  apply wf_freitDone
  exact hw

theorem keeps_portEntryWrite : ∀ port word v, Keeps (.portEntryWrite port word v) := by
  intro port word v s u e hw
  rw [exec_portEntryWrite] at e; unfold execPortEntryWrite at e
  cases e
  apply wf_portEntryWrite
  exact hw

theorem keeps_opticalLinkState : ∀ port up, Keeps (.opticalLinkState port up) := by
  intro port up s u e hw
  rw [exec_opticalLinkState] at e; unfold execOpticalLinkState at e
  cases e
  apply wf_opticalLinkState
  exact hw

theorem keeps_peerReplicaWrite : ∀ port addr bytes, Keeps (.peerReplicaWrite port addr bytes) := by
  intro port addr bytes s u e hw
  rw [exec_peerReplicaWrite] at e; unfold execPeerReplicaWrite at e
  cases e
  apply wf_peerReplicaWrite
  exact hw

theorem keeps_replicaWriteApply : ∀ pkt, Keeps (.replicaWriteApply pkt) := by
  intro pkt s u e hw
  rw [exec_replicaWriteApply] at e; unfold execReplicaWriteApply at e
  cases e
  apply wf_replicaWriteApply
  exact hw

theorem keeps_hostWrite : ∀ bar off n v, Keeps (.hostWrite bar off n v) := by
  intro bar off n v s u e hw
  rw [exec_hostWrite] at e; unfold execHostWrite at e
  cases e
  apply wf_hostWrite
  exact hw

theorem keeps_hostRead : ∀ bar off n, Keeps (.hostRead bar off n) := by
  intro bar off n s u e hw
  rw [exec_hostRead] at e; unfold execHostRead at e
  cases e
  apply wf_hostRead
  exact hw

theorem keeps_cellGate : ∀ cell, Keeps (.cellGate cell) := by
  intro cell s u e hw
  rw [exec_cellGate] at e; unfold execCellGate at e
  cases e
  apply wf_cellGate
  exact hw

theorem keeps_cellWake : ∀ cell, Keeps (.cellWake cell) := by
  intro cell s u e hw
  rw [exec_cellWake] at e; unfold execCellWake at e
  cases e
  apply wf_cellWake
  exact hw

theorem keeps_quiescence : ∀ p, Keeps (.quiescence p) := by
  intro p s u e hw
  rw [exec_quiescence] at e; unfold execQuiescence at e
  cases e
  apply wf_quiescence
  exact hw

theorem keeps_thermalTrip : ∀ die, Keeps (.thermalTrip die) := by
  intro die s u e hw
  rw [exec_thermalTrip] at e; unfold execThermalTrip at e
  cases e
  apply wf_thermalTrip
  exact hw

theorem keeps_coreReset : ∀ cid, Keeps (.coreReset cid) := by
  intro cid s u e hw
  rw [exec_coreReset] at e; unfold execCoreReset at e
  cases e
  apply wf_coreReset
  exact hw

theorem keeps_packetRefused : ∀ pkt, Keeps (.packetRefused pkt) := by
  intro pkt s u e hw
  rw [exec_packetRefused] at e; unfold execPacketRefused at e
  cases e
  apply wf_packetRefused
  exact hw

theorem keeps_uncorrectableError : ∀ cid f ownerRead, Keeps (.uncorrectableError cid f ownerRead) := by
  intro cid f ownerRead s u e hw
  rw [exec_uncorrectableError] at e; unfold execUncorrectableError at e
  cases e
  apply wf_uncorrectableError
  exact hw

theorem keeps_routerHop : ∀ pkt, Keeps (.routerHop pkt) := by
  intro pkt s u e hw
  rw [exec_routerHop] at e; unfold execRouterHop at e
  cases e
  apply wf_routerHop
  exact hw

theorem keeps_linkFlitSend : ∀ x y port, Keeps (.linkFlitSend x y port) := by
  intro x y port s u e hw
  rw [exec_linkFlitSend] at e; unfold execLinkFlitSend at e
  cases e
  apply wf_linkFlitSend
  exact hw

theorem keeps_crossbarGrant : ∀ die out, Keeps (.crossbarGrant die out) := by
  intro die out s u e hw
  rw [exec_crossbarGrant] at e; unfold execCrossbarGrant at e
  cases e
  apply wf_crossbarGrant
  exact hw

theorem keeps_hbmRequestStart : ∀ die ch, Keeps (.hbmRequestStart die ch) := by
  intro die ch s u e hw
  rw [exec_hbmRequestStart] at e; unfold execHbmRequestStart at e
  cases e
  apply wf_hbmRequestStart
  exact hw

theorem keeps_spliceEgressEnter : ∀ pkt, Keeps (.spliceEgressEnter pkt) := by
  intro pkt s u e hw
  rw [exec_spliceEgressEnter] at e; unfold execSpliceEgressEnter at e
  cases e
  apply wf_spliceEgressEnter
  exact hw

theorem keeps_spliceIngressDeliver : ∀ p splice, Keeps (.spliceIngressDeliver p splice) := by
  intro p splice s u e hw
  rw [exec_spliceIngressDeliver] at e; unfold execSpliceIngressDeliver at e
  cases e
  apply wf_spliceIngressDeliver
  exact hw

theorem keeps_mergedAtomicApply : ∀ pkt, Keeps (.mergedAtomicApply pkt) := by
  intro pkt s u e hw
  rw [exec_mergedAtomicApply] at e; unfold execMergedAtomicApply at e
  cases e
  apply wf_mergedAtomicApply
  exact hw

theorem keeps_mergedReplySplit : ∀ pkt, Keeps (.mergedReplySplit pkt) := by
  intro pkt s u e hw
  rw [exec_mergedReplySplit] at e; unfold execMergedReplySplit at e
  cases e
  apply wf_mergedReplySplit
  exact hw

theorem keeps_registerWrite : ∀ off v, Keeps (.registerWrite off v) := by
  intro off v s u e hw
  rw [exec_registerWrite] at e; unfold execRegisterWrite at e
  cases e
  apply wf_plainWrite
  exact hw

theorem keeps_addC : ∀ f, Keeps (.addC f) := by
  intro f s u e hw
  rw [exec_addC] at e; unfold execAddC at e
  exact wf_issue (fun t v e hw => wf_binOp e hw) e hw

theorem keeps_add : ∀ f, Keeps (.add f) := by
  intro f s u e hw
  rw [exec_add] at e; unfold execAdd at e
  exact wf_issue (fun t v e hw => wf_binOp e hw) e hw

theorem keeps_subC : ∀ f, Keeps (.subC f) := by
  intro f s u e hw
  rw [exec_subC] at e; unfold execSubC at e
  exact wf_issue (fun t v e hw => wf_binOp e hw) e hw

theorem keeps_sub : ∀ f, Keeps (.sub f) := by
  intro f s u e hw
  rw [exec_sub] at e; unfold execSub at e
  exact wf_issue (fun t v e hw => wf_binOp e hw) e hw

theorem keeps_mul : ∀ f, Keeps (.mul f) := by
  intro f s u e hw
  rw [exec_mul] at e; unfold execMul at e
  exact wf_issue (fun t v e hw => wf_binOp e hw) e hw

theorem keeps_mulh : ∀ f, Keeps (.mulh f) := by
  intro f s u e hw
  rw [exec_mulh] at e; unfold execMulh at e
  exact wf_issue (fun t v e hw => wf_binOp e hw) e hw

theorem keeps_mulhu : ∀ f, Keeps (.mulhu f) := by
  intro f s u e hw
  rw [exec_mulhu] at e; unfold execMulhu at e
  exact wf_issue (fun t v e hw => wf_binOp e hw) e hw

theorem keeps_div : ∀ f, Keeps (.div f) := by
  intro f s u e hw
  rw [exec_div] at e; unfold execDiv at e
  exact wf_issue (fun t v e hw => wf_binOp e hw) e hw

theorem keeps_divu : ∀ f, Keeps (.divu f) := by
  intro f s u e hw
  rw [exec_divu] at e; unfold execDivu at e
  exact wf_issue (fun t v e hw => wf_binOp e hw) e hw

theorem keeps_rem : ∀ f, Keeps (.rem f) := by
  intro f s u e hw
  rw [exec_rem] at e; unfold execRem at e
  exact wf_issue (fun t v e hw => wf_binOp e hw) e hw

theorem keeps_remu : ∀ f, Keeps (.remu f) := by
  intro f s u e hw
  rw [exec_remu] at e; unfold execRemu at e
  exact wf_issue (fun t v e hw => wf_binOp e hw) e hw

theorem keeps_andC : ∀ f, Keeps (.andC f) := by
  intro f s u e hw
  rw [exec_andC] at e; unfold execAndC at e
  exact wf_issue (fun t v e hw => wf_binOp e hw) e hw

theorem keeps_and : ∀ f, Keeps (.and f) := by
  intro f s u e hw
  rw [exec_and] at e; unfold execAnd at e
  exact wf_issue (fun t v e hw => wf_binOp e hw) e hw

theorem keeps_orC : ∀ f, Keeps (.orC f) := by
  intro f s u e hw
  rw [exec_orC] at e; unfold execOrC at e
  exact wf_issue (fun t v e hw => wf_binOp e hw) e hw

theorem keeps_or : ∀ f, Keeps (.or f) := by
  intro f s u e hw
  rw [exec_or] at e; unfold execOr at e
  exact wf_issue (fun t v e hw => wf_binOp e hw) e hw

theorem keeps_xorC : ∀ f, Keeps (.xorC f) := by
  intro f s u e hw
  rw [exec_xorC] at e; unfold execXorC at e
  exact wf_issue (fun t v e hw => wf_binOp e hw) e hw

theorem keeps_xor : ∀ f, Keeps (.xor f) := by
  intro f s u e hw
  rw [exec_xor] at e; unfold execXor at e
  exact wf_issue (fun t v e hw => wf_binOp e hw) e hw

theorem keeps_andn : ∀ f, Keeps (.andn f) := by
  intro f s u e hw
  rw [exec_andn] at e; unfold execAndn at e
  exact wf_issue (fun t v e hw => wf_binOp e hw) e hw

theorem keeps_shlC : ∀ f, Keeps (.shlC f) := by
  intro f s u e hw
  rw [exec_shlC] at e; unfold execShlC at e
  exact wf_issue (fun t v e hw => wf_binOp e hw) e hw

theorem keeps_shl : ∀ f, Keeps (.shl f) := by
  intro f s u e hw
  rw [exec_shl] at e; unfold execShl at e
  exact wf_issue (fun t v e hw => wf_binOp e hw) e hw

theorem keeps_shrC : ∀ f, Keeps (.shrC f) := by
  intro f s u e hw
  rw [exec_shrC] at e; unfold execShrC at e
  exact wf_issue (fun t v e hw => wf_binOp e hw) e hw

theorem keeps_shr : ∀ f, Keeps (.shr f) := by
  intro f s u e hw
  rw [exec_shr] at e; unfold execShr at e
  exact wf_issue (fun t v e hw => wf_binOp e hw) e hw

theorem keeps_sarC : ∀ f, Keeps (.sarC f) := by
  intro f s u e hw
  rw [exec_sarC] at e; unfold execSarC at e
  exact wf_issue (fun t v e hw => wf_binOp e hw) e hw

theorem keeps_sar : ∀ f, Keeps (.sar f) := by
  intro f s u e hw
  rw [exec_sar] at e; unfold execSar at e
  exact wf_issue (fun t v e hw => wf_binOp e hw) e hw

theorem keeps_rol : ∀ f, Keeps (.rol f) := by
  intro f s u e hw
  rw [exec_rol] at e; unfold execRol at e
  exact wf_issue (fun t v e hw => wf_binOp e hw) e hw

theorem keeps_min : ∀ f, Keeps (.min f) := by
  intro f s u e hw
  rw [exec_min] at e; unfold execMin at e
  exact wf_issue (fun t v e hw => wf_binOp e hw) e hw

theorem keeps_max : ∀ f, Keeps (.max f) := by
  intro f s u e hw
  rw [exec_max] at e; unfold execMax at e
  exact wf_issue (fun t v e hw => wf_binOp e hw) e hw

theorem keeps_minu : ∀ f, Keeps (.minu f) := by
  intro f s u e hw
  rw [exec_minu] at e; unfold execMinu at e
  exact wf_issue (fun t v e hw => wf_binOp e hw) e hw

theorem keeps_maxu : ∀ f, Keeps (.maxu f) := by
  intro f s u e hw
  rw [exec_maxu] at e; unfold execMaxu at e
  exact wf_issue (fun t v e hw => wf_binOp e hw) e hw

theorem keeps_addi : ∀ f, Keeps (.addi f) := by
  intro f s u e hw
  rw [exec_addi] at e; unfold execAddi at e
  exact wf_issue (fun t v e hw => wf_unOp e hw) e hw

theorem keeps_addiX : ∀ f, Keeps (.addiX f) := by
  intro f s u e hw
  rw [exec_addiX] at e; unfold execAddiX at e
  exact wf_issue (fun t v e hw => wf_unOp e hw) e hw

theorem keeps_andi : ∀ f, Keeps (.andi f) := by
  intro f s u e hw
  rw [exec_andi] at e; unfold execAndi at e
  exact wf_issue (fun t v e hw => wf_unOp e hw) e hw

theorem keeps_andiX : ∀ f, Keeps (.andiX f) := by
  intro f s u e hw
  rw [exec_andiX] at e; unfold execAndiX at e
  exact wf_issue (fun t v e hw => wf_unOp e hw) e hw

theorem keeps_ori : ∀ f, Keeps (.ori f) := by
  intro f s u e hw
  rw [exec_ori] at e; unfold execOri at e
  exact wf_issue (fun t v e hw => wf_unOp e hw) e hw

theorem keeps_oriX : ∀ f, Keeps (.oriX f) := by
  intro f s u e hw
  rw [exec_oriX] at e; unfold execOriX at e
  exact wf_issue (fun t v e hw => wf_unOp e hw) e hw

theorem keeps_xori : ∀ f, Keeps (.xori f) := by
  intro f s u e hw
  rw [exec_xori] at e; unfold execXori at e
  exact wf_issue (fun t v e hw => wf_unOp e hw) e hw

theorem keeps_xoriX : ∀ f, Keeps (.xoriX f) := by
  intro f s u e hw
  rw [exec_xoriX] at e; unfold execXoriX at e
  exact wf_issue (fun t v e hw => wf_unOp e hw) e hw

theorem keeps_shli : ∀ f, Keeps (.shli f) := by
  intro f s u e hw
  rw [exec_shli] at e; unfold execShli at e
  exact wf_issue (fun t v e hw => wf_unOp e hw) e hw

theorem keeps_shliX : ∀ f, Keeps (.shliX f) := by
  intro f s u e hw
  rw [exec_shliX] at e; unfold execShliX at e
  exact wf_issue (fun t v e hw => wf_unOp e hw) e hw

theorem keeps_shri : ∀ f, Keeps (.shri f) := by
  intro f s u e hw
  rw [exec_shri] at e; unfold execShri at e
  exact wf_issue (fun t v e hw => wf_unOp e hw) e hw

theorem keeps_shriX : ∀ f, Keeps (.shriX f) := by
  intro f s u e hw
  rw [exec_shriX] at e; unfold execShriX at e
  exact wf_issue (fun t v e hw => wf_unOp e hw) e hw

theorem keeps_sari : ∀ f, Keeps (.sari f) := by
  intro f s u e hw
  rw [exec_sari] at e; unfold execSari at e
  exact wf_issue (fun t v e hw => wf_unOp e hw) e hw

theorem keeps_sariX : ∀ f, Keeps (.sariX f) := by
  intro f s u e hw
  rw [exec_sariX] at e; unfold execSariX at e
  exact wf_issue (fun t v e hw => wf_unOp e hw) e hw

theorem keeps_muli : ∀ f, Keeps (.muli f) := by
  intro f s u e hw
  rw [exec_muli] at e; unfold execMuli at e
  exact wf_issue (fun t v e hw => wf_unOp e hw) e hw

theorem keeps_muliX : ∀ f, Keeps (.muliX f) := by
  intro f s u e hw
  rw [exec_muliX] at e; unfold execMuliX at e
  exact wf_issue (fun t v e hw => wf_unOp e hw) e hw

theorem keeps_clz : ∀ f, Keeps (.clz f) := by
  intro f s u e hw
  rw [exec_clz] at e; unfold execClz at e
  exact wf_issue (fun t v e hw => wf_unOp e hw) e hw

theorem keeps_ctz : ∀ f, Keeps (.ctz f) := by
  intro f s u e hw
  rw [exec_ctz] at e; unfold execCtz at e
  exact wf_issue (fun t v e hw => wf_unOp e hw) e hw

theorem keeps_popc : ∀ f, Keeps (.popc f) := by
  intro f s u e hw
  rw [exec_popc] at e; unfold execPopc at e
  exact wf_issue (fun t v e hw => wf_unOp e hw) e hw

theorem keeps_brev : ∀ f, Keeps (.brev f) := by
  intro f s u e hw
  rw [exec_brev] at e; unfold execBrev at e
  exact wf_issue (fun t v e hw => wf_unOp e hw) e hw

theorem keeps_bext : ∀ f, Keeps (.bext f) := by
  intro f s u e hw
  rw [exec_bext] at e; unfold execBext at e
  exact wf_issue (fun t v e hw => wf_unOp e hw) e hw

theorem keeps_bins : ∀ f, Keeps (.bins f) := by
  intro f s u e hw
  rw [exec_bins] at e; unfold execBins at e
  exact wf_issue (fun t v e hw => wf_binsOp e hw) e hw

theorem keeps_sext : ∀ f, Keeps (.sext f) := by
  intro f s u e hw
  rw [exec_sext] at e; unfold execSext at e
  exact wf_issue (fun t v e hw => wf_unOp e hw) e hw

theorem keeps_zext : ∀ f, Keeps (.zext f) := by
  intro f s u e hw
  rw [exec_zext] at e; unfold execZext at e
  exact wf_issue (fun t v e hw => wf_unOp e hw) e hw

theorem keeps_cmp : ∀ f, Keeps (.cmp f) := by
  intro f s u e hw
  rw [exec_cmp] at e; unfold execCmp at e
  exact wf_issue (fun t v e hw => wf_cmpOp e hw) e hw

theorem keeps_cmpi : ∀ f, Keeps (.cmpi f) := by
  intro f s u e hw
  rw [exec_cmpi] at e; unfold execCmpi at e
  exact wf_issue (fun t v e hw => wf_cmpiOp e hw) e hw

theorem keeps_cmpiX : ∀ f, Keeps (.cmpiX f) := by
  intro f s u e hw
  rw [exec_cmpiX] at e; unfold execCmpiX at e
  exact wf_issue (fun t v e hw => wf_cmpiOp e hw) e hw

theorem keeps_pand : ∀ f, Keeps (.pand f) := by
  intro f s u e hw
  rw [exec_pand] at e; unfold execPand at e
  exact wf_issue (fun t v e hw => wf_predOp e hw) e hw

theorem keeps_por : ∀ f, Keeps (.por f) := by
  intro f s u e hw
  rw [exec_por] at e; unfold execPor at e
  exact wf_issue (fun t v e hw => wf_predOp e hw) e hw

theorem keeps_pxor : ∀ f, Keeps (.pxor f) := by
  intro f s u e hw
  rw [exec_pxor] at e; unfold execPxor at e
  exact wf_issue (fun t v e hw => wf_predOp e hw) e hw

theorem keeps_pnot : ∀ f, Keeps (.pnot f) := by
  intro f s u e hw
  rw [exec_pnot] at e; unfold execPnot at e
  exact wf_issue (fun t v e hw => wf_predOp e hw) e hw

theorem keeps_pset : ∀ f, Keeps (.pset f) := by
  intro f s u e hw
  rw [exec_pset] at e; unfold execPset at e
  exact wf_issue (fun t v e hw => wf_psetOp e hw) e hw

theorem keeps_pget : ∀ f, Keeps (.pget f) := by
  intro f s u e hw
  rw [exec_pget] at e; unfold execPget at e
  exact wf_issue (fun t v e hw => wf_pgetOp e hw) e hw

theorem keeps_sel : ∀ f, Keeps (.sel f) := by
  intro f s u e hw
  rw [exec_sel] at e; unfold execSel at e
  exact wf_issue (fun t v e hw => wf_selOp e hw) e hw

theorem keeps_lea : ∀ f, Keeps (.lea f) := by
  intro f s u e hw
  rw [exec_lea] at e; unfold execLea at e
  exact wf_issue (fun t v e hw => wf_leaOp e hw) e hw

theorem keeps_leaX : ∀ f, Keeps (.leaX f) := by
  intro f s u e hw
  rw [exec_leaX] at e; unfold execLeaX at e
  exact wf_issue (fun t v e hw => wf_leaOp e hw) e hw

theorem keeps_nopC : ∀ f, Keeps (.nopC f) := by
  intro f s u e hw
  rw [exec_nopC] at e; unfold execNopC at e
  exact wf_issue (fun t v e hw => by cases e; exact hw) e hw

theorem keeps_nop : ∀ f, Keeps (.nop f) := by
  intro f s u e hw
  rw [exec_nop] at e; unfold execNop at e
  exact wf_issue (fun t v e hw => by cases e; exact hw) e hw

theorem keeps_hint : ∀ f, Keeps (.hint f) := by
  intro f s u e hw
  rw [exec_hint] at e; unfold execHint at e
  exact wf_issue (fun t v e hw => by cases e; exact hw) e hw

theorem keeps_hintX : ∀ f, Keeps (.hintX f) := by
  intro f s u e hw
  rw [exec_hintX] at e; unfold execHintX at e
  exact wf_issue (fun t v e hw => by cases e; exact hw) e hw

theorem keeps_rdcyc : ∀ f, Keeps (.rdcyc f) := by
  intro f s u e hw
  rw [exec_rdcyc] at e; unfold execRdcyc at e
  exact wf_issue (fun t v e hw => wf_rdcycOp e hw) e hw

theorem keeps_rdcnt : ∀ f, Keeps (.rdcnt f) := by
  intro f s u e hw
  rw [exec_rdcnt] at e; unfold execRdcnt at e
  exact wf_issue (fun t v e hw => wf_rdcntOp e hw) e hw

theorem keeps_br : ∀ f, Keeps (.br f) := by
  intro f s u e hw
  rw [exec_br] at e; unfold execBr at e
  exact wf_issue (fun t v e hw => wf_brOp e hw) e hw

theorem keeps_brX : ∀ f, Keeps (.brX f) := by
  intro f s u e hw
  rw [exec_brX] at e; unfold execBrX at e
  exact wf_issue (fun t v e hw => wf_brOp e hw) e hw

theorem keeps_brx : ∀ f, Keeps (.brx f) := by
  intro f s u e hw
  rw [exec_brx] at e; unfold execBrx at e
  exact wf_issue (fun t v e hw => wf_brxOp e hw) e hw

theorem keeps_call : ∀ f, Keeps (.call f) := by
  intro f s u e hw
  rw [exec_call] at e; unfold execCall at e
  exact wf_issue (fun t v e hw => wf_callOp e hw) e hw

theorem keeps_callX : ∀ f, Keeps (.callX f) := by
  intro f s u e hw
  rw [exec_callX] at e; unfold execCallX at e
  exact wf_issue (fun t v e hw => wf_callOp e hw) e hw

theorem keeps_ret : ∀ f, Keeps (.ret f) := by
  intro f s u e hw
  rw [exec_ret] at e; unfold execRet at e
  exact wf_issue (fun t v e hw => wf_retOp e hw) e hw

theorem keeps_endC : ∀ f, Keeps (.endC f) := by
  intro f s u e hw
  rw [exec_endC] at e; unfold execEndC at e
  exact wf_issue (fun t v e hw => wf_endOp e hw) e hw

theorem keeps_endW : ∀ f, Keeps (.endW f) := by
  intro f s u e hw
  rw [exec_endW] at e; unfold execEndW at e
  exact wf_issue (fun t v e hw => wf_endOp e hw) e hw

theorem keeps_fadd : ∀ f, Keeps (.fadd f) := by
  intro f s u e hw
  rw [exec_fadd] at e; unfold execFadd at e
  exact wf_issue (fun t v e hw => wf_fp2 e hw) e hw

theorem keeps_fsub : ∀ f, Keeps (.fsub f) := by
  intro f s u e hw
  rw [exec_fsub] at e; unfold execFsub at e
  exact wf_issue (fun t v e hw => wf_fp2 e hw) e hw

theorem keeps_fmul : ∀ f, Keeps (.fmul f) := by
  intro f s u e hw
  rw [exec_fmul] at e; unfold execFmul at e
  exact wf_issue (fun t v e hw => wf_fp2 e hw) e hw

theorem keeps_ffma : ∀ f, Keeps (.ffma f) := by
  intro f s u e hw
  rw [exec_ffma] at e; unfold execFfma at e
  exact wf_issue (fun t v e hw => wf_ffmaOp e hw) e hw

theorem keeps_fdiv : ∀ f, Keeps (.fdiv f) := by
  intro f s u e hw
  rw [exec_fdiv] at e; unfold execFdiv at e
  exact wf_issue (fun t v e hw => wf_fp2 e hw) e hw

theorem keeps_fsqrt : ∀ f, Keeps (.fsqrt f) := by
  intro f s u e hw
  rw [exec_fsqrt] at e; unfold execFsqrt at e
  exact wf_issue (fun t v e hw => wf_fp1 e hw) e hw

theorem keeps_fmin : ∀ f, Keeps (.fmin f) := by
  intro f s u e hw
  rw [exec_fmin] at e; unfold execFmin at e
  exact wf_issue (fun t v e hw => wf_fp2 e hw) e hw

theorem keeps_fmax : ∀ f, Keeps (.fmax f) := by
  intro f s u e hw
  rw [exec_fmax] at e; unfold execFmax at e
  exact wf_issue (fun t v e hw => wf_fp2 e hw) e hw

theorem keeps_fabs : ∀ f, Keeps (.fabs f) := by
  intro f s u e hw
  rw [exec_fabs] at e; unfold execFabs at e
  exact wf_issue (fun t v e hw => wf_fp1 e hw) e hw

theorem keeps_fneg : ∀ f, Keeps (.fneg f) := by
  intro f s u e hw
  rw [exec_fneg] at e; unfold execFneg at e
  exact wf_issue (fun t v e hw => wf_fp1 e hw) e hw

theorem keeps_fcmp : ∀ f, Keeps (.fcmp f) := by
  intro f s u e hw
  rw [exec_fcmp] at e; unfold execFcmp at e
  exact wf_issue (fun t v e hw => wf_fcmpOp e hw) e hw

theorem keeps_fclass : ∀ f, Keeps (.fclass f) := by
  intro f s u e hw
  rw [exec_fclass] at e; unfold execFclass at e
  exact wf_issue (fun t v e hw => wf_fp1 e hw) e hw

theorem keeps_tadd : ∀ f, Keeps (.tadd f) := by
  intro f s u e hw
  rw [exec_tadd] at e; unfold execTadd at e
  exact wf_issue (fun t v e hw => wf_tf2 e hw) e hw

theorem keeps_tsub : ∀ f, Keeps (.tsub f) := by
  intro f s u e hw
  rw [exec_tsub] at e; unfold execTsub at e
  exact wf_issue (fun t v e hw => wf_tf2 e hw) e hw

theorem keeps_tmul : ∀ f, Keeps (.tmul f) := by
  intro f s u e hw
  rw [exec_tmul] at e; unfold execTmul at e
  exact wf_issue (fun t v e hw => wf_tf2 e hw) e hw

theorem keeps_tfma : ∀ f, Keeps (.tfma f) := by
  intro f s u e hw
  rw [exec_tfma] at e; unfold execTfma at e
  exact wf_issue (fun t v e hw => wf_tfmaOp e hw) e hw

theorem keeps_tdiv : ∀ f, Keeps (.tdiv f) := by
  intro f s u e hw
  rw [exec_tdiv] at e; unfold execTdiv at e
  exact wf_issue (fun t v e hw => wf_tf2 e hw) e hw

theorem keeps_tsqrt : ∀ f, Keeps (.tsqrt f) := by
  intro f s u e hw
  rw [exec_tsqrt] at e; unfold execTsqrt at e
  exact wf_issue (fun t v e hw => wf_tf1 e hw) e hw

theorem keeps_tmin : ∀ f, Keeps (.tmin f) := by
  intro f s u e hw
  rw [exec_tmin] at e; unfold execTmin at e
  exact wf_issue (fun t v e hw => wf_tf2 e hw) e hw

theorem keeps_tmax : ∀ f, Keeps (.tmax f) := by
  intro f s u e hw
  rw [exec_tmax] at e; unfold execTmax at e
  exact wf_issue (fun t v e hw => wf_tf2 e hw) e hw

theorem keeps_tabs : ∀ f, Keeps (.tabs f) := by
  intro f s u e hw
  rw [exec_tabs] at e; unfold execTabs at e
  exact wf_issue (fun t v e hw => wf_tf1 e hw) e hw

theorem keeps_tneg : ∀ f, Keeps (.tneg f) := by
  intro f s u e hw
  rw [exec_tneg] at e; unfold execTneg at e
  exact wf_issue (fun t v e hw => wf_tf1 e hw) e hw

theorem keeps_tcmp : ∀ f, Keeps (.tcmp f) := by
  intro f s u e hw
  rw [exec_tcmp] at e; unfold execTcmp at e
  exact wf_issue (fun t v e hw => wf_tcmpOp e hw) e hw

theorem keeps_spz : ∀ f, Keeps (.spz f) := by
  intro f s u e hw
  rw [exec_spz] at e; unfold execSpz at e
  exact wf_issue (fun t v e hw => wf_spzOp e hw) e hw

theorem keeps_spfma : ∀ f, Keeps (.spfma f) := by
  intro f s u e hw
  rw [exec_spfma] at e; unfold execSpfma at e
  exact wf_issue (fun t v e hw => wf_spfmaOp e hw) e hw

theorem keeps_spfms : ∀ f, Keeps (.spfms f) := by
  intro f s u e hw
  rw [exec_spfms] at e; unfold execSpfms at e
  exact wf_issue (fun t v e hw => wf_spfmaOp e hw) e hw

theorem keeps_spadd : ∀ f, Keeps (.spadd f) := by
  intro f s u e hw
  rw [exec_spadd] at e; unfold execSpadd at e
  exact wf_issue (fun t v e hw => wf_spaddOp e hw) e hw

theorem keeps_spsub : ∀ f, Keeps (.spsub f) := by
  intro f s u e hw
  rw [exec_spsub] at e; unfold execSpsub at e
  exact wf_issue (fun t v e hw => wf_spaddOp e hw) e hw

theorem keeps_sprnd : ∀ f, Keeps (.sprnd f) := by
  intro f s u e hw
  rw [exec_sprnd] at e; unfold execSprnd at e
  exact wf_issue (fun t v e hw => wf_sprndOp e hw) e hw

theorem keeps_spld : ∀ f, Keeps (.spld f) := by
  intro f s u e hw
  rw [exec_spld] at e; unfold execSpld at e
  exact wf_issue (fun t v e hw => wf_spldOp e hw) e hw

theorem keeps_spldX : ∀ f, Keeps (.spldX f) := by
  intro f s u e hw
  rw [exec_spldX] at e; unfold execSpldX at e
  exact wf_issue (fun t v e hw => wf_spldOp e hw) e hw

theorem keeps_spst : ∀ f, Keeps (.spst f) := by
  intro f s u e hw
  rw [exec_spst] at e; unfold execSpst at e
  exact wf_issue (fun t v e hw => wf_spstOp e hw) e hw

theorem keeps_spstX : ∀ f, Keeps (.spstX f) := by
  intro f s u e hw
  rw [exec_spstX] at e; unfold execSpstX at e
  exact wf_issue (fun t v e hw => wf_spstOp e hw) e hw

theorem keeps_cvt : ∀ f, Keeps (.cvt f) := by
  intro f s u e hw
  rw [exec_cvt] at e; unfold execCvt at e
  exact wf_issue (fun t v e hw => wf_cvtOp e hw) e hw

theorem keeps_lclaim : ∀ f, Keeps (.lclaim f) := by
  intro f s u e hw
  rw [exec_lclaim] at e; unfold execLclaim at e
  exact wf_issue (fun t v e hw => wf_lclaimOp e hw) e hw

theorem keeps_lrel : ∀ f, Keeps (.lrel f) := by
  intro f s u e hw
  rw [exec_lrel] at e; unfold execLrel at e
  exact wf_issue (fun t v e hw => wf_lrelOp e hw) e hw

theorem keeps_lcount : ∀ f, Keeps (.lcount f) := by
  intro f s u e hw
  rw [exec_lcount] at e; unfold execLcount at e
  exact wf_issue (fun t v e hw => wf_lcountOp e hw) e hw

theorem keeps_vadd : ∀ f, Keeps (.vadd f) := by
  intro f s u e hw
  rw [exec_vadd] at e; unfold execVadd at e
  exact wf_issue (fun t v e hw => wf_vecInt e hw) e hw

theorem keeps_vsub : ∀ f, Keeps (.vsub f) := by
  intro f s u e hw
  rw [exec_vsub] at e; unfold execVsub at e
  exact wf_issue (fun t v e hw => wf_vecInt e hw) e hw

theorem keeps_vmul : ∀ f, Keeps (.vmul f) := by
  intro f s u e hw
  rw [exec_vmul] at e; unfold execVmul at e
  exact wf_issue (fun t v e hw => wf_vecInt e hw) e hw

theorem keeps_vmulh : ∀ f, Keeps (.vmulh f) := by
  intro f s u e hw
  rw [exec_vmulh] at e; unfold execVmulh at e
  exact wf_issue (fun t v e hw => wf_vecInt e hw) e hw

theorem keeps_vmad : ∀ f, Keeps (.vmad f) := by
  intro f s u e hw
  rw [exec_vmad] at e; unfold execVmad at e
  exact wf_issue (fun t v e hw => wf_vec2 e hw) e hw

theorem keeps_vmin : ∀ f, Keeps (.vmin f) := by
  intro f s u e hw
  rw [exec_vmin] at e; unfold execVmin at e
  exact wf_issue (fun t v e hw => wf_vecInt e hw) e hw

theorem keeps_vmax : ∀ f, Keeps (.vmax f) := by
  intro f s u e hw
  rw [exec_vmax] at e; unfold execVmax at e
  exact wf_issue (fun t v e hw => wf_vecInt e hw) e hw

theorem keeps_vabs : ∀ f, Keeps (.vabs f) := by
  intro f s u e hw
  rw [exec_vabs] at e; unfold execVabs at e
  exact wf_issue (fun t v e hw => wf_vec1 e hw) e hw

theorem keeps_vand : ∀ f, Keeps (.vand f) := by
  intro f s u e hw
  rw [exec_vand] at e; unfold execVand at e
  exact wf_issue (fun t v e hw => wf_vec2 e hw) e hw

theorem keeps_vor : ∀ f, Keeps (.vor f) := by
  intro f s u e hw
  rw [exec_vor] at e; unfold execVor at e
  exact wf_issue (fun t v e hw => wf_vec2 e hw) e hw

theorem keeps_vxor : ∀ f, Keeps (.vxor f) := by
  intro f s u e hw
  rw [exec_vxor] at e; unfold execVxor at e
  exact wf_issue (fun t v e hw => wf_vec2 e hw) e hw

theorem keeps_vshl : ∀ f, Keeps (.vshl f) := by
  intro f s u e hw
  rw [exec_vshl] at e; unfold execVshl at e
  exact wf_issue (fun t v e hw => wf_vecInt e hw) e hw

theorem keeps_vshr : ∀ f, Keeps (.vshr f) := by
  intro f s u e hw
  rw [exec_vshr] at e; unfold execVshr at e
  exact wf_issue (fun t v e hw => wf_vecInt e hw) e hw

theorem keeps_vsar : ∀ f, Keeps (.vsar f) := by
  intro f s u e hw
  rw [exec_vsar] at e; unfold execVsar at e
  exact wf_issue (fun t v e hw => wf_vecInt e hw) e hw

theorem keeps_vrshr : ∀ f, Keeps (.vrshr f) := by
  intro f s u e hw
  rw [exec_vrshr] at e; unfold execVrshr at e
  exact wf_issue (fun t v e hw => wf_vecInt e hw) e hw

theorem keeps_vsat : ∀ f, Keeps (.vsat f) := by
  intro f s u e hw
  rw [exec_vsat] at e; unfold execVsat at e
  exact wf_issue (fun t v e hw => wf_vec1 e hw) e hw

theorem keeps_vclamp : ∀ f, Keeps (.vclamp f) := by
  intro f s u e hw
  rw [exec_vclamp] at e; unfold execVclamp at e
  exact wf_issue (fun t v e hw => wf_vec3 e hw) e hw

theorem keeps_vdot4 : ∀ f, Keeps (.vdot4 f) := by
  intro f s u e hw
  rw [exec_vdot4] at e; unfold execVdot4 at e
  exact wf_issue (fun t v e hw => wf_vec2 e hw) e hw

theorem keeps_vdot2 : ∀ f, Keeps (.vdot2 f) := by
  intro f s u e hw
  rw [exec_vdot2] at e; unfold execVdot2 at e
  exact wf_issue (fun t v e hw => wf_vec2 e hw) e hw

theorem keeps_vfadd : ∀ f, Keeps (.vfadd f) := by
  intro f s u e hw
  rw [exec_vfadd] at e; unfold execVfadd at e
  exact wf_issue (fun t v e hw => wf_vecFp e hw) e hw

theorem keeps_vfsub : ∀ f, Keeps (.vfsub f) := by
  intro f s u e hw
  rw [exec_vfsub] at e; unfold execVfsub at e
  exact wf_issue (fun t v e hw => wf_vecFp e hw) e hw

theorem keeps_vfmul : ∀ f, Keeps (.vfmul f) := by
  intro f s u e hw
  rw [exec_vfmul] at e; unfold execVfmul at e
  exact wf_issue (fun t v e hw => wf_vecFp e hw) e hw

theorem keeps_vffma : ∀ f, Keeps (.vffma f) := by
  intro f s u e hw
  rw [exec_vffma] at e; unfold execVffma at e
  exact wf_issue (fun t v e hw => wf_vec3 e hw) e hw

theorem keeps_vfmin : ∀ f, Keeps (.vfmin f) := by
  intro f s u e hw
  rw [exec_vfmin] at e; unfold execVfmin at e
  exact wf_issue (fun t v e hw => wf_vecFp e hw) e hw

theorem keeps_vfmax : ∀ f, Keeps (.vfmax f) := by
  intro f s u e hw
  rw [exec_vfmax] at e; unfold execVfmax at e
  exact wf_issue (fun t v e hw => wf_vecFp e hw) e hw

theorem keeps_vfabs : ∀ f, Keeps (.vfabs f) := by
  intro f s u e hw
  rw [exec_vfabs] at e; unfold execVfabs at e
  exact wf_issue (fun t v e hw => wf_vec1 e hw) e hw

theorem keeps_vfneg : ∀ f, Keeps (.vfneg f) := by
  intro f s u e hw
  rw [exec_vfneg] at e; unfold execVfneg at e
  exact wf_issue (fun t v e hw => wf_vec1 e hw) e hw

theorem keeps_vexp2 : ∀ f, Keeps (.vexp2 f) := by
  intro f s u e hw
  rw [exec_vexp2] at e; unfold execVexp2 at e
  exact wf_issue (fun t v e hw => wf_vecReal e hw) e hw

theorem keeps_vlog2 : ∀ f, Keeps (.vlog2 f) := by
  intro f s u e hw
  rw [exec_vlog2] at e; unfold execVlog2 at e
  exact wf_issue (fun t v e hw => wf_vecReal e hw) e hw

theorem keeps_vrcp : ∀ f, Keeps (.vrcp f) := by
  intro f s u e hw
  rw [exec_vrcp] at e; unfold execVrcp at e
  exact wf_issue (fun t v e hw => wf_vecReal e hw) e hw

theorem keeps_vrsqrt : ∀ f, Keeps (.vrsqrt f) := by
  intro f s u e hw
  rw [exec_vrsqrt] at e; unfold execVrsqrt at e
  exact wf_issue (fun t v e hw => wf_vecReal e hw) e hw

theorem keeps_vsqrt : ∀ f, Keeps (.vsqrt f) := by
  intro f s u e hw
  rw [exec_vsqrt] at e; unfold execVsqrt at e
  exact wf_issue (fun t v e hw => wf_vecReal e hw) e hw

theorem keeps_vdiv : ∀ f, Keeps (.vdiv f) := by
  intro f s u e hw
  rw [exec_vdiv] at e; unfold execVdiv at e
  exact wf_issue (fun t v e hw => wf_vecFp e hw) e hw

theorem keeps_vtadd : ∀ f, Keeps (.vtadd f) := by
  intro f s u e hw
  rw [exec_vtadd] at e; unfold execVtadd at e
  exact wf_issue (fun t v e hw => wf_vecTf e hw) e hw

theorem keeps_vtsub : ∀ f, Keeps (.vtsub f) := by
  intro f s u e hw
  rw [exec_vtsub] at e; unfold execVtsub at e
  exact wf_issue (fun t v e hw => wf_vecTf e hw) e hw

theorem keeps_vtmul : ∀ f, Keeps (.vtmul f) := by
  intro f s u e hw
  rw [exec_vtmul] at e; unfold execVtmul at e
  exact wf_issue (fun t v e hw => wf_vecTf e hw) e hw

theorem keeps_vtfma : ∀ f, Keeps (.vtfma f) := by
  intro f s u e hw
  rw [exec_vtfma] at e; unfold execVtfma at e
  exact wf_issue (fun t v e hw => wf_vec3 e hw) e hw

theorem keeps_vtmin : ∀ f, Keeps (.vtmin f) := by
  intro f s u e hw
  rw [exec_vtmin] at e; unfold execVtmin at e
  exact wf_issue (fun t v e hw => wf_vecTf e hw) e hw

theorem keeps_vtmax : ∀ f, Keeps (.vtmax f) := by
  intro f s u e hw
  rw [exec_vtmax] at e; unfold execVtmax at e
  exact wf_issue (fun t v e hw => wf_vecTf e hw) e hw

theorem keeps_vspz : ∀ f, Keeps (.vspz f) := by
  intro f s u e hw
  rw [exec_vspz] at e; unfold execVspz at e
  exact wf_issue (fun t v e hw => wf_vspzOp e hw) e hw

theorem keeps_vspfma : ∀ f, Keeps (.vspfma f) := by
  intro f s u e hw
  rw [exec_vspfma] at e; unfold execVspfma at e
  exact wf_issue (fun t v e hw => wf_vspfmaOp e hw) e hw

theorem keeps_vsprnd : ∀ f, Keeps (.vsprnd f) := by
  intro f s u e hw
  rw [exec_vsprnd] at e; unfold execVsprnd at e
  exact wf_issue (fun t v e hw => wf_vsprndOp e hw) e hw

theorem keeps_vcmp : ∀ f, Keeps (.vcmp f) := by
  intro f s u e hw
  rw [exec_vcmp] at e; unfold execVcmp at e
  exact wf_issue (fun t v e hw => wf_vcmpOp e hw) e hw

theorem keeps_vfcmp : ∀ f, Keeps (.vfcmp f) := by
  intro f s u e hw
  rw [exec_vfcmp] at e; unfold execVfcmp at e
  exact wf_issue (fun t v e hw => wf_vcmpOp e hw) e hw

theorem keeps_vtcmp : ∀ f, Keeps (.vtcmp f) := by
  intro f s u e hw
  rw [exec_vtcmp] at e; unfold execVtcmp at e
  exact wf_issue (fun t v e hw => wf_vcmpOp e hw) e hw

theorem keeps_vsel : ∀ f, Keeps (.vsel f) := by
  intro f s u e hw
  rw [exec_vsel] at e; unfold execVsel at e
  exact wf_issue (fun t v e hw => wf_vselOp e hw) e hw

theorem keeps_kand : ∀ f, Keeps (.kand f) := by
  intro f s u e hw
  rw [exec_kand] at e; unfold execKand at e
  exact wf_issue (fun t v e hw => wf_maskOp e hw) e hw

theorem keeps_kor : ∀ f, Keeps (.kor f) := by
  intro f s u e hw
  rw [exec_kor] at e; unfold execKor at e
  exact wf_issue (fun t v e hw => wf_maskOp e hw) e hw

theorem keeps_kxor : ∀ f, Keeps (.kxor f) := by
  intro f s u e hw
  rw [exec_kxor] at e; unfold execKxor at e
  exact wf_issue (fun t v e hw => wf_maskOp e hw) e hw

theorem keeps_knot : ∀ f, Keeps (.knot f) := by
  intro f s u e hw
  rw [exec_knot] at e; unfold execKnot at e
  exact wf_issue (fun t v e hw => wf_maskOp e hw) e hw

theorem keeps_kset : ∀ f, Keeps (.kset f) := by
  intro f s u e hw
  rw [exec_kset] at e; unfold execKset at e
  exact wf_issue (fun t v e hw => wf_ksetOp e hw) e hw

theorem keeps_kget : ∀ f, Keeps (.kget f) := by
  intro f s u e hw
  rw [exec_kget] at e; unfold execKget at e
  exact wf_issue (fun t v e hw => wf_kgetOp e hw) e hw

theorem keeps_vcvt : ∀ f, Keeps (.vcvt f) := by
  intro f s u e hw
  rw [exec_vcvt] at e; unfold execVcvt at e
  exact wf_issue (fun t v e hw => wf_vcvtOp e hw) e hw

theorem keeps_vpack : ∀ f, Keeps (.vpack f) := by
  intro f s u e hw
  rw [exec_vpack] at e; unfold execVpack at e
  exact wf_issue (fun t v e hw => wf_vpackOp e hw) e hw

theorem keeps_vunpack : ∀ f, Keeps (.vunpack f) := by
  intro f s u e hw
  rw [exec_vunpack] at e; unfold execVunpack at e
  exact wf_issue (fun t v e hw => wf_vunpackOp e hw) e hw

theorem keeps_vbcast : ∀ f, Keeps (.vbcast f) := by
  intro f s u e hw
  rw [exec_vbcast] at e; unfold execVbcast at e
  exact wf_issue (fun t v e hw => wf_vbcastOp e hw) e hw

theorem keeps_vext : ∀ f, Keeps (.vext f) := by
  intro f s u e hw
  rw [exec_vext] at e; unfold execVext at e
  exact wf_issue (fun t v e hw => wf_vextOp e hw) e hw

theorem keeps_vperm : ∀ f, Keeps (.vperm f) := by
  intro f s u e hw
  rw [exec_vperm] at e; unfold execVperm at e
  exact wf_issue (fun t v e hw => wf_vpermOp e hw) e hw

theorem keeps_vslide : ∀ f, Keeps (.vslide f) := by
  intro f s u e hw
  rw [exec_vslide] at e; unfold execVslide at e
  exact wf_issue (fun t v e hw => wf_vslideOp e hw) e hw

theorem keeps_vred : ∀ f, Keeps (.vred f) := by
  intro f s u e hw
  rw [exec_vred] at e; unfold execVred at e
  exact wf_issue (fun t v e hw => wf_vredOp e hw) e hw

theorem keeps_vscan : ∀ f, Keeps (.vscan f) := by
  intro f s u e hw
  rw [exec_vscan] at e; unfold execVscan at e
  exact wf_issue (fun t v e hw => wf_vscanOp e hw) e hw

theorem keeps_vld : ∀ f, Keeps (.vld f) := by
  intro f s u e hw
  rw [exec_vld] at e; unfold execVld at e
  exact wf_issue (fun t v e hw => wf_vloadOp e hw) e hw

theorem keeps_vldX : ∀ f, Keeps (.vldX f) := by
  intro f s u e hw
  rw [exec_vldX] at e; unfold execVldX at e
  exact wf_issue (fun t v e hw => wf_vloadOp e hw) e hw

theorem keeps_vst : ∀ f, Keeps (.vst f) := by
  intro f s u e hw
  rw [exec_vst] at e; unfold execVst at e
  exact wf_issue (fun t v e hw => wf_vstoreOp e hw) e hw

theorem keeps_vstX : ∀ f, Keeps (.vstX f) := by
  intro f s u e hw
  rw [exec_vstX] at e; unfold execVstX at e
  exact wf_issue (fun t v e hw => wf_vstoreOp e hw) e hw

theorem keeps_vlds : ∀ f, Keeps (.vlds f) := by
  intro f s u e hw
  rw [exec_vlds] at e; unfold execVlds at e
  exact wf_issue (fun t v e hw => wf_vloadOp e hw) e hw

theorem keeps_vldsX : ∀ f, Keeps (.vldsX f) := by
  intro f s u e hw
  rw [exec_vldsX] at e; unfold execVldsX at e
  exact wf_issue (fun t v e hw => wf_vloadOp e hw) e hw

theorem keeps_vsts : ∀ f, Keeps (.vsts f) := by
  intro f s u e hw
  rw [exec_vsts] at e; unfold execVsts at e
  exact wf_issue (fun t v e hw => wf_vstoreOp e hw) e hw

theorem keeps_vstsX : ∀ f, Keeps (.vstsX f) := by
  intro f s u e hw
  rw [exec_vstsX] at e; unfold execVstsX at e
  exact wf_issue (fun t v e hw => wf_vstoreOp e hw) e hw

theorem keeps_vldx : ∀ f, Keeps (.vldx f) := by
  intro f s u e hw
  rw [exec_vldx] at e; unfold execVldx at e
  exact wf_issue (fun t v e hw => wf_vloadOp e hw) e hw

theorem keeps_vldxX : ∀ f, Keeps (.vldxX f) := by
  intro f s u e hw
  rw [exec_vldxX] at e; unfold execVldxX at e
  exact wf_issue (fun t v e hw => wf_vloadOp e hw) e hw

theorem keeps_vstx : ∀ f, Keeps (.vstx f) := by
  intro f s u e hw
  rw [exec_vstx] at e; unfold execVstx at e
  exact wf_issue (fun t v e hw => wf_vstoreOp e hw) e hw

theorem keeps_vstxX : ∀ f, Keeps (.vstxX f) := by
  intro f s u e hw
  rw [exec_vstxX] at e; unfold execVstxX at e
  exact wf_issue (fun t v e hw => wf_vstoreOp e hw) e hw

theorem keeps_mfmt : ∀ f, Keeps (.mfmt f) := by
  intro f s u e hw
  rw [exec_mfmt] at e; unfold execMfmt at e
  exact wf_issue (fun t v e hw => wf_mfmtOp e hw) e hw

theorem keeps_mscl : ∀ f, Keeps (.mscl f) := by
  intro f s u e hw
  rw [exec_mscl] at e; unfold execMscl at e
  exact wf_issue (fun t v e hw => wf_msclOp e hw) e hw

theorem keeps_msclX : ∀ f, Keeps (.msclX f) := by
  intro f s u e hw
  rw [exec_msclX] at e; unfold execMsclX at e
  exact wf_issue (fun t v e hw => wf_msclOp e hw) e hw

theorem keeps_mlb : ∀ f, Keeps (.mlb f) := by
  intro f s u e hw
  rw [exec_mlb] at e; unfold execMlb at e
  exact wf_issue (fun t v e hw => wf_mlbOp e hw) e hw

theorem keeps_mlbX : ∀ f, Keeps (.mlbX f) := by
  intro f s u e hw
  rw [exec_mlbX] at e; unfold execMlbX at e
  exact wf_issue (fun t v e hw => wf_mlbOp e hw) e hw

theorem keeps_mma : ∀ f, Keeps (.mma f) := by
  intro f s u e hw
  rw [exec_mma] at e; unfold execMma at e
  exact wf_issue (fun t v e hw => wf_mmaOp e hw) e hw

theorem keeps_mmaX : ∀ f, Keeps (.mmaX f) := by
  intro f s u e hw
  rw [exec_mmaX] at e; unfold execMmaX at e
  exact wf_issue (fun t v e hw => wf_mmaOp e hw) e hw

theorem keeps_mrot : ∀ f, Keeps (.mrot f) := by
  intro f s u e hw
  rw [exec_mrot] at e; unfold execMrot at e
  exact wf_issue (fun t v e hw => wf_mrotOp e hw) e hw

theorem keeps_mzero : ∀ f, Keeps (.mzero f) := by
  intro f s u e hw
  rw [exec_mzero] at e; unfold execMzero at e
  exact wf_issue (fun t v e hw => wf_mzeroOp e hw) e hw

theorem keeps_mdrain : ∀ f, Keeps (.mdrain f) := by
  intro f s u e hw
  rw [exec_mdrain] at e; unfold execMdrain at e
  exact wf_issue (fun t v e hw => wf_mdrainOp e hw) e hw

theorem keeps_mrow : ∀ f, Keeps (.mrow f) := by
  intro f s u e hw
  rw [exec_mrow] at e; unfold execMrow at e
  exact wf_issue (fun t v e hw => wf_mrowOp e hw) e hw

theorem keeps_falloc : ∀ f, Keeps (.falloc f) := by
  intro f s u e hw
  rw [exec_falloc] at e; unfold execFalloc at e
  exact wf_issue (fun t v e hw => wf_falloc e hw) e hw

theorem keeps_ffree : ∀ f, Keeps (.ffree f) := by
  intro f s u e hw
  rw [exec_ffree] at e; unfold execFfree at e
  exact wf_issue (fun t v e hw => wf_ffree e hw) e hw

theorem keeps_sarm : ∀ f, Keeps (.sarm f) := by
  intro f s u e hw
  rw [exec_sarm] at e; unfold execSarm at e
  exact wf_issue (fun t v e hw => wf_sarm e hw) e hw

theorem keeps_sig : ∀ f, Keeps (.sig f) := by
  intro f s u e hw
  rw [exec_sig] at e; unfold execSig at e
  exact wf_issue (fun t v e hw => wf_sig e hw) e hw

theorem keeps_sigX : ∀ f, Keeps (.sigX f) := by
  intro f s u e hw
  rw [exec_sigX] at e; unfold execSigX at e
  exact wf_issue (fun t v e hw => wf_sig e hw) e hw

theorem keeps_sigv : ∀ f, Keeps (.sigv f) := by
  intro f s u e hw
  rw [exec_sigv] at e; unfold execSigv at e
  exact wf_issue (fun t v e hw => wf_sigv e hw) e hw

theorem keeps_sigb : ∀ f, Keeps (.sigb f) := by
  intro f s u e hw
  rw [exec_sigb] at e; unfold execSigb at e
  exact wf_issue (fun t v e hw => wf_sigb e hw) e hw

theorem keeps_fire : ∀ f, Keeps (.fire f) := by
  intro f s u e hw
  rw [exec_fire] at e; unfold execFire at e
  exact wf_issue (fun t v e hw => wf_fireSlot e hw) e hw

theorem keeps_sget : ∀ f, Keeps (.sget f) := by
  intro f s u e hw
  rw [exec_sget] at e; unfold execSget at e
  exact wf_issue (fun t v e hw => wf_sget e hw) e hw

theorem keeps_ldf : ∀ f, Keeps (.ldf f) := by
  intro f s u e hw
  rw [exec_ldf] at e; unfold execLdf at e
  exact wf_issue (fun t v e hw => wf_ldf e hw) e hw

theorem keeps_stf : ∀ f, Keeps (.stf f) := by
  intro f s u e hw
  rw [exec_stf] at e; unfold execStf at e
  exact wf_issue (fun t v e hw => wf_stf e hw) e hw

theorem keeps_rinit : ∀ f, Keeps (.rinit f) := by
  intro f s u e hw
  rw [exec_rinit] at e; unfold execRinit at e
  exact wf_issue (fun t v e hw => wf_ring e hw) e hw

theorem keeps_racq : ∀ f, Keeps (.racq f) := by
  intro f s u e hw
  rw [exec_racq] at e; unfold execRacq at e
  exact wf_issue (fun t v e hw => wf_ring e hw) e hw

theorem keeps_rcom : ∀ f, Keeps (.rcom f) := by
  intro f s u e hw
  rw [exec_rcom] at e; unfold execRcom at e
  exact wf_issue (fun t v e hw => wf_ring e hw) e hw

theorem keeps_rpeek : ∀ f, Keeps (.rpeek f) := by
  intro f s u e hw
  rw [exec_rpeek] at e; unfold execRpeek at e
  exact wf_issue (fun t v e hw => wf_ring e hw) e hw

theorem keeps_rrel : ∀ f, Keeps (.rrel f) := by
  intro f s u e hw
  rw [exec_rrel] at e; unfold execRrel at e
  exact wf_issue (fun t v e hw => wf_ring e hw) e hw

theorem keeps_ldC : ∀ f, Keeps (.ldC f) := by
  intro f s u e hw
  rw [exec_ldC] at e; unfold execLdC at e
  refine wf_issue (fun t v e hw => ?_) e hw
  obtain ⟨x, ex, e⟩ := bind_ok e; obtain ⟨y, ey, e⟩ := bind_ok e
  exact wf_writeS e (wf_readS ex hw)

theorem keeps_ld : ∀ f, Keeps (.ld f) := by
  intro f s u e hw
  rw [exec_ld] at e; unfold execLd at e
  exact wf_issue (fun t v e hw => wf_ld e hw) e hw

theorem keeps_ldX : ∀ f, Keeps (.ldX f) := by
  intro f s u e hw
  rw [exec_ldX] at e; unfold execLdX at e
  exact wf_issue (fun t v e hw => wf_ld e hw) e hw

theorem keeps_stC : ∀ f, Keeps (.stC f) := by
  intro f s u e hw
  rw [exec_stC] at e; unfold execStC at e
  refine wf_issue (fun t v e hw => ?_) e hw
  obtain ⟨x, ex, e⟩ := bind_ok e; obtain ⟨y, ey, e⟩ := bind_ok e
  exact wf_storeCore e (wf_readS ey (wf_readS ex hw))

theorem keeps_st : ∀ f, Keeps (.st f) := by
  intro f s u e hw
  rw [exec_st] at e; unfold execSt at e
  exact wf_issue (fun t v e hw => wf_st e hw) e hw

theorem keeps_stX : ∀ f, Keeps (.stX f) := by
  intro f s u e hw
  rw [exec_stX] at e; unfold execStX at e
  exact wf_issue (fun t v e hw => wf_st e hw) e hw

theorem keeps_ldrm : ∀ f, Keeps (.ldrm f) := by
  intro f s u e hw
  rw [exec_ldrm] at e; unfold execLdrm at e
  exact wf_issue (fun t v e hw => wf_ldrm e hw) e hw

theorem keeps_strm : ∀ f, Keeps (.strm f) := by
  intro f s u e hw
  rw [exec_strm] at e; unfold execStrm at e
  exact wf_issue (fun t v e hw => wf_strm e hw) e hw

theorem keeps_aadd : ∀ f, Keeps (.aadd f) := by
  intro f s u e hw
  rw [exec_aadd] at e; unfold execAadd at e
  exact wf_issue (fun t v e hw => wf_atomic e hw) e hw

theorem keeps_amin : ∀ f, Keeps (.amin f) := by
  intro f s u e hw
  rw [exec_amin] at e; unfold execAmin at e
  exact wf_issue (fun t v e hw => wf_atomic e hw) e hw

theorem keeps_amax : ∀ f, Keeps (.amax f) := by
  intro f s u e hw
  rw [exec_amax] at e; unfold execAmax at e
  exact wf_issue (fun t v e hw => wf_atomic e hw) e hw

theorem keeps_aminu : ∀ f, Keeps (.aminu f) := by
  intro f s u e hw
  rw [exec_aminu] at e; unfold execAminu at e
  exact wf_issue (fun t v e hw => wf_atomic e hw) e hw

theorem keeps_amaxu : ∀ f, Keeps (.amaxu f) := by
  intro f s u e hw
  rw [exec_amaxu] at e; unfold execAmaxu at e
  exact wf_issue (fun t v e hw => wf_atomic e hw) e hw

theorem keeps_aand : ∀ f, Keeps (.aand f) := by
  intro f s u e hw
  rw [exec_aand] at e; unfold execAand at e
  exact wf_issue (fun t v e hw => wf_atomic e hw) e hw

theorem keeps_aor : ∀ f, Keeps (.aor f) := by
  intro f s u e hw
  rw [exec_aor] at e; unfold execAor at e
  exact wf_issue (fun t v e hw => wf_atomic e hw) e hw

theorem keeps_axor : ∀ f, Keeps (.axor f) := by
  intro f s u e hw
  rw [exec_axor] at e; unfold execAxor at e
  exact wf_issue (fun t v e hw => wf_atomic e hw) e hw

theorem keeps_aswp : ∀ f, Keeps (.aswp f) := by
  intro f s u e hw
  rw [exec_aswp] at e; unfold execAswp at e
  exact wf_issue (fun t v e hw => wf_atomic e hw) e hw

theorem keeps_acas : ∀ f, Keeps (.acas f) := by
  intro f s u e hw
  rw [exec_acas] at e; unfold execAcas at e
  exact wf_issue (fun t v e hw => wf_atomic e hw) e hw

theorem keeps_afadd : ∀ f, Keeps (.afadd f) := by
  intro f s u e hw
  rw [exec_afadd] at e; unfold execAfadd at e
  exact wf_issue (fun t v e hw => wf_atomic e hw) e hw

theorem keeps_aspadd : ∀ f, Keeps (.aspadd f) := by
  intro f s u e hw
  rw [exec_aspadd] at e; unfold execAspadd at e
  exact wf_issue (fun t v e hw => wf_aspadd e hw) e hw

theorem keeps_fence : ∀ f, Keeps (.fence f) := by
  intro f s u e hw
  rw [exec_fence] at e; unfold execFence at e
  exact wf_issue (fun t v e hw => wf_fence e hw) e hw

theorem keeps_twld : ∀ f, Keeps (.twld f) := by
  intro f s u e hw
  rw [exec_twld] at e; unfold execTwld at e
  exact wf_issue (fun t v e hw => wf_walkIssue e hw) e hw

theorem keeps_twst : ∀ f, Keeps (.twst f) := by
  intro f s u e hw
  rw [exec_twst] at e; unfold execTwst at e
  exact wf_issue (fun t v e hw => wf_walkIssue e hw) e hw

theorem keeps_twmc : ∀ f, Keeps (.twmc f) := by
  intro f s u e hw
  rw [exec_twmc] at e; unfold execTwmc at e
  exact wf_issue (fun t v e hw => wf_walkIssue e hw) e hw

theorem keeps_twg : ∀ f, Keeps (.twg f) := by
  intro f s u e hw
  rw [exec_twg] at e; unfold execTwg at e
  exact wf_issue (fun t v e hw => wf_walkIssue e hw) e hw

theorem keeps_tws : ∀ f, Keeps (.tws f) := by
  intro f s u e hw
  rw [exec_tws] at e; unfold execTws at e
  exact wf_issue (fun t v e hw => wf_walkIssue e hw) e hw

theorem keeps_twq : ∀ f, Keeps (.twq f) := by
  intro f s u e hw
  rw [exec_twq] at e; unfold execTwq at e
  exact wf_issue (fun t v e hw => wf_walkIssue e hw) e hw

theorem keeps_twcan : ∀ f, Keeps (.twcan f) := by
  intro f s u e hw
  rw [exec_twcan] at e; unfold execTwcan at e
  exact wf_issue (fun t v e hw => wf_twcan e hw) e hw

theorem keeps_stepd : ∀ f, Keeps (.stepd f) := by
  intro f s u e hw
  rw [exec_stepd] at e; unfold execStepd at e
  exact wf_issue (fun t v e hw => wf_stepdOp e hw) e hw

theorem keeps_ldst : ∀ f, Keeps (.ldst f) := by
  intro f s u e hw
  rw [exec_ldst] at e; unfold execLdst at e
  exact wf_issue (fun t v e hw => wf_ldstOp e hw) e hw

theorem keeps_stepq : ∀ f, Keeps (.stepq f) := by
  intro f s u e hw
  rw [exec_stepq] at e; unfold execStepq at e
  exact wf_issue (fun t v e hw => wf_stepqOp e hw) e hw

theorem keeps_sqtab : ∀ f, Keeps (.sqtab f) := by
  intro f s u e hw
  rw [exec_sqtab] at e; unfold execSqtab at e
  exact wf_issue (fun t v e hw => wf_sqtabOp e hw) e hw

theorem keeps_sqinit : ∀ f, Keeps (.sqinit f) := by
  intro f s u e hw
  rw [exec_sqinit] at e; unfold execSqinit at e
  exact wf_issue (fun t v e hw => wf_sqinitOp e hw) e hw

theorem keeps_sqstage : ∀ f, Keeps (.sqstage f) := by
  intro f s u e hw
  rw [exec_sqstage] at e; unfold execSqstage at e
  exact wf_issue (fun t v e hw => wf_sqgoOp e hw) e hw

theorem keeps_sqstep : ∀ f, Keeps (.sqstep f) := by
  intro f s u e hw
  rw [exec_sqstep] at e; unfold execSqstep at e
  exact wf_issue (fun t v e hw => wf_sqgoOp e hw) e hw

theorem keeps_sqrd : ∀ f, Keeps (.sqrd f) := by
  intro f s u e hw
  rw [exec_sqrd] at e; unfold execSqrd at e
  exact wf_issue (fun t v e hw => wf_sqrdOp e hw) e hw

theorem keeps_glaunch : ∀ f, Keeps (.glaunch f) := by
  intro f s u e hw
  rw [exec_glaunch] at e; unfold execGlaunch at e
  exact wf_issue (fun t v e hw => wf_glaunch e hw) e hw

theorem keeps_gquery : ∀ f, Keeps (.gquery f) := by
  intro f s u e hw
  rw [exec_gquery] at e; unfold execGquery at e
  exact wf_issue (fun t v e hw => wf_askRecord e hw) e hw

theorem keeps_gcan : ∀ f, Keeps (.gcan f) := by
  intro f s u e hw
  rw [exec_gcan] at e; unfold execGcan at e
  exact wf_issue (fun t v e hw => wf_askRecord e hw) e hw

theorem keeps_sysr : ∀ f, Keeps (.sysr f) := by
  intro f s u e hw
  rw [exec_sysr] at e; unfold execSysr at e
  exact wf_issue (fun t v e hw => wf_sysr e hw) e hw

theorem keeps_sysw : ∀ f, Keeps (.sysw f) := by
  intro f s u e hw
  rw [exec_sysw] at e; unfold execSysw at e
  exact wf_issue (fun t v e hw => wf_sysw e hw) e hw

theorem keeps_trap : ∀ f, Keeps (.trap f) := by
  intro f s u e hw
  rw [exec_trap] at e; unfold execTrap at e
  unfold trapWith at e; dsimp only at e; split at e <;> cases e
  · exact wf_takeFault _ _ _ (wf_countIssue _ _ hw)
  · exact wf_countIssue _ _ hw

theorem keeps_trapX : ∀ f, Keeps (.trapX f) := by
  intro f s u e hw
  rw [exec_trapX] at e; unfold execTrapX at e
  unfold trapWith at e; dsimp only at e; split at e <;> cases e
  · exact wf_takeFault _ _ _ (wf_countIssue _ _ hw)
  · exact wf_countIssue _ _ hw

theorem keeps_brk : ∀ f, Keeps (.brk f) := by
  intro f s u e hw
  rw [exec_brk] at e; unfold execBrk at e
  exact wf_issue (fun t v e hw => wf_brk e hw) e hw

theorem keeps_snap : ∀ f, Keeps (.snap f) := by
  intro f s u e hw
  rw [exec_snap] at e; unfold execSnap at e
  exact wf_issue (fun t v e hw => wf_snap e hw) e hw

theorem keeps_clockPinned : ∀ die, Keeps (.clockPinned die) := by
  intro die s u e hw
  rw [exec_clockPinned] at e; unfold execClockPinned at e
  cases e
  apply wf_onDie
  exact hw

theorem keeps_softError : ∀ key bits, Keeps (.softError key bits) := by
  intro key bits s u e hw
  rw [exec_softError] at e; unfold execSoftError at e
  cases e
  apply wf_softError
  exact hw

theorem keeps_fillComplete : ∀ cid, Keeps (.fillComplete cid) := by
  intro cid s u e hw
  rw [exec_fillComplete] at e; unfold execFillComplete at e
  cases e
  apply wf_fillComplete
  exact hw

end Sys2Proof.Machine
end

