-- ==== Sys2Proof/Laws/PerInstr.lean ====
section
/-! SUPPORT. Instruction by instruction: the opcode map of R86 read backwards gives the instruction, and the check of R82 on order
classes is in the instruction's own check. -/

set_option Elab.async false

namespace Sys2Proof.Laws.OpcodeMap

/-- Where an instruction stands in the opcode map (R86), the map holds it; an instruction that takes no order class has o0 (R82),
and no instruction is the all-zero parcel (R88). -/
def Statement (i : Instr) : Prop :=
  match encOf i with
  | .c m n f => m < 64 ∧ n < 64 ∧ ((wMinors m)[n]?).isSome = true ∧ (∃ mk, cInstr m n = some mk ∧ mk f = i) ∧
      (m = 0 → n = 0 → fieldsOk i = true → ¬(f.d = 0 ∧ f.a = 0 ∧ f.b = 0))
  | .w m n f => m < 64 ∧ n < 64 ∧ (∃ mk, (wMinors m)[n]? = some mk ∧ mk f = i) ∧
      (takesOrder m n = false → fieldsOk i = true → f.ord = 0)
  | .x m n f => m < 64 ∧ n < 64 ∧ ((wMinors m)[n]?).isSome = true ∧ (∃ mk, xInstr m n = some mk ∧ mk f = i) ∧
      (takesOrder m n = false → fieldsOk i = true → f.ord = 0)
  | .event => True

theorem moduleReset : Statement (.moduleReset) := trivial
theorem imageLoad : ∀ p img, Statement (.imageLoad p img) := fun _ _ => trivial
theorem illegalPattern : ∀ code, Statement (.illegalPattern code) := fun _ => trivial
theorem dispatch : ∀ cid ctx, Statement (.dispatch cid ctx) := fun _ _ => trivial
theorem signalArrival : ∀ cid f slot pkts, Statement (.signalArrival cid f slot pkts) := fun _ _ _ _ => trivial
theorem allocationRequest : ∀ pkt same, Statement (.allocationRequest pkt same) := fun _ _ => trivial
theorem armingRequest : ∀ pkt same, Statement (.armingRequest pkt same) := fun _ _ => trivial
theorem freeRequest : ∀ pkt, Statement (.freeRequest pkt) := fun _ => trivial
theorem stfRequest : ∀ pkt, Statement (.stfRequest pkt) := fun _ => trivial
theorem ldfRequest : ∀ pkt, Statement (.ldfRequest pkt) := fun _ => trivial
theorem replyArrival : ∀ pkt same, Statement (.replyArrival pkt same) := fun _ _ => trivial
theorem spilledRequestApply : ∀ pkt, Statement (.spilledRequestApply pkt) := fun _ => trivial
theorem fill : ∀ cid, Statement (.fill cid) := fun _ => trivial
theorem writeBackStart : ∀ cid f, Statement (.writeBackStart cid f) := fun _ _ => trivial
theorem writeBackComplete : ∀ cid f, Statement (.writeBackComplete cid f) := fun _ _ => trivial
theorem matrixCommandStart : ∀ cid m, Statement (.matrixCommandStart cid m) := fun _ _ => trivial
theorem matrixCommandFinish : ∀ cid m, Statement (.matrixCommandFinish cid m) := fun _ _ => trivial
theorem mdrainRow : ∀ cid m, Statement (.mdrainRow cid m) := fun _ _ => trivial
theorem mrotTileLands : ∀ pkt, Statement (.mrotTileLands pkt) := fun _ => trivial
theorem landingMove : ∀ cid latch, Statement (.landingMove cid latch) := fun _ _ => trivial
theorem portWordArrival : ∀ cid dir, Statement (.portWordArrival cid dir) := fun _ _ => trivial
theorem ldrmRequest : ∀ pkt, Statement (.ldrmRequest pkt) := fun _ => trivial
theorem strmRequest : ∀ pkt, Statement (.strmRequest pkt) := fun _ => trivial
theorem atomicRequest : ∀ pkt, Statement (.atomicRequest pkt) := fun _ => trivial
theorem ringRequest : ∀ pkt, Statement (.ringRequest pkt) := fun _ => trivial
theorem fenceRelease : ∀ pkt, Statement (.fenceRelease pkt) := fun _ => trivial
theorem releaseSignalSend : ∀ pkt, Statement (.releaseSignalSend pkt) := fun _ => trivial
theorem walkStart : ∀ clid w, Statement (.walkStart clid w) := fun _ _ => trivial
theorem walkTranslation : ∀ w tile choice, Statement (.walkTranslation w tile choice) := fun _ _ _ => trivial
theorem walkMove : ∀ w moves, Statement (.walkMove w moves) := fun _ _ => trivial
theorem dimensionEndSignal : ∀ w level run target, Statement (.dimensionEndSignal w level run target) := fun _ _ _ _ => trivial
theorem finalSignal : ∀ w, Statement (.finalSignal w) := fun _ => trivial
theorem twcanComplete : ∀ pkt, Statement (.twcanComplete pkt) := fun _ => trivial
theorem stepdDone : ∀ cid fid, Statement (.stepdDone cid fid) := fun _ _ => trivial
theorem stepAdvance : ∀ cid, Statement (.stepAdvance cid) := fun _ => trivial
theorem stepNotice : ∀ pkt, Statement (.stepNotice pkt) := fun _ => trivial
theorem ldstRequest : ∀ pkt, Statement (.ldstRequest pkt) := fun _ => trivial
theorem stepqRequest : ∀ pkt, Statement (.stepqRequest pkt) := fun _ => trivial
theorem stepRequestResend : ∀ pkt, Statement (.stepRequestResend pkt) := fun _ => trivial
theorem sqtabServe : ∀ pkt, Statement (.sqtabServe pkt) := fun _ => trivial
theorem sqinitServe : ∀ pkt, Statement (.sqinitServe pkt) := fun _ => trivial
theorem sqstepServe : ∀ pkt, Statement (.sqstepServe pkt) := fun _ => trivial
theorem sqstageServe : ∀ pkt, Statement (.sqstageServe pkt) := fun _ => trivial
theorem sqrdServe : ∀ pkt, Statement (.sqrdServe pkt) := fun _ => trivial
theorem stageFormed : ∀ clid r, Statement (.stageFormed clid r) := fun _ _ => trivial
theorem stepDecision : ∀ clid r, Statement (.stepDecision clid r) := fun _ _ => trivial
theorem launchRequest : ∀ pkt, Statement (.launchRequest pkt) := fun _ => trivial
theorem instanceStart : ∀ handle, Statement (.instanceStart handle) := fun _ => trivial
theorem launchMulticast : ∀ die handle, Statement (.launchMulticast die handle) := fun _ _ => trivial
theorem instanceEnd : ∀ handle, Statement (.instanceEnd handle) := fun _ => trivial
theorem creditLend : ∀ die p, Statement (.creditLend die p) := fun _ _ => trivial
theorem gqueryRequest : ∀ pkt, Statement (.gqueryRequest pkt) := fun _ => trivial
theorem gcanRequest : ∀ pkt, Statement (.gcanRequest pkt) := fun _ => trivial
theorem subqBase : ∀ p v, Statement (.subqBase p v) := fun _ _ => trivial
theorem subqLog : ∀ p v, Statement (.subqLog p v) := fun _ _ => trivial
theorem subqTail : ∀ p v, Statement (.subqTail p v) := fun _ _ => trivial
theorem submissionEntryRead : ∀ p, Statement (.submissionEntryRead p) := fun _ => trivial
theorem forecast : ∀ die, Statement (.forecast die) := fun _ => trivial
theorem telemetryUpdate : ∀ die, Statement (.telemetryUpdate die) := fun _ => trivial
theorem placementEntryWrite : ∀ p cb w0 w1, Statement (.placementEntryWrite p cb w0 w1) := fun _ _ _ _ => trivial
theorem spillFrames : ∀ p v, Statement (.spillFrames p v) := fun _ _ => trivial
theorem spillBase : ∀ p d v, Statement (.spillBase p d v) := fun _ _ _ => trivial
theorem migGo : ∀ p v, Statement (.migGo p v) := fun _ _ => trivial
theorem migrationComplete : ∀ p, Statement (.migrationComplete p) := fun _ => trivial
theorem commit : ∀ v, Statement (.commit v) := fun _ => trivial
theorem drainMessage : ∀ die, Statement (.drainMessage die) := fun _ => trivial
theorem clearingComplete : ∀ p, Statement (.clearingComplete p) := fun _ => trivial
theorem preempt : ∀ p, Statement (.preempt p) := fun _ => trivial
theorem resume : ∀ p, Statement (.resume p) := fun _ => trivial
theorem coreSave : ∀ cid, Statement (.coreSave cid) := fun _ => trivial
theorem savedPacketApply : ∀ pkt, Statement (.savedPacketApply pkt) := fun _ => trivial
theorem coreRestore : ∀ cid, Statement (.coreRestore cid) := fun _ => trivial
theorem ordArm : ∀ p d n v, Statement (.ordArm p d n v) := fun _ _ _ _ => trivial
theorem ordAddr : ∀ p d n v, Statement (.ordAddr p d n v) := fun _ _ _ _ => trivial
theorem ordN : ∀ p d n v, Statement (.ordN p d n v) := fun _ _ _ _ => trivial
theorem orderedReductionRequest : ∀ pkt, Statement (.orderedReductionRequest pkt) := fun _ => trivial
theorem faBase : ∀ p v, Statement (.faBase p v) := fun _ _ => trivial
theorem faLog : ∀ p v, Statement (.faLog p v) := fun _ _ => trivial
theorem faultRecordWrite : ∀ n, Statement (.faultRecordWrite n) := fun _ => trivial
theorem snapTrig : ∀ v, Statement (.snapTrig v) := fun _ => trivial
theorem snapshotTriggerArrival : ∀ trig block, Statement (.snapshotTriggerArrival trig block) := fun _ _ => trivial
theorem snapComplete : ∀ trig, Statement (.snapComplete trig) := fun _ => trivial
theorem mgCmdLoad : Statement (.mgCmdLoad) := trivial
theorem mgCmdActivate : Statement (.mgCmdActivate) := trivial
theorem mgCmdFloor : Statement (.mgCmdFloor) := trivial
theorem mgCmdQuote : Statement (.mgCmdQuote) := trivial
theorem freitCommandDone : Statement (.freitCommandDone) := trivial
theorem portEntryWrite : ∀ port word v, Statement (.portEntryWrite port word v) := fun _ _ _ => trivial
theorem opticalLinkState : ∀ port up, Statement (.opticalLinkState port up) := fun _ _ => trivial
theorem peerReplicaWrite : ∀ port addr bytes, Statement (.peerReplicaWrite port addr bytes) := fun _ _ _ => trivial
theorem replicaWriteApply : ∀ pkt, Statement (.replicaWriteApply pkt) := fun _ => trivial
theorem hostWrite : ∀ bar off n v, Statement (.hostWrite bar off n v) := fun _ _ _ _ => trivial
theorem hostRead : ∀ bar off n, Statement (.hostRead bar off n) := fun _ _ _ => trivial
theorem cellGate : ∀ cell, Statement (.cellGate cell) := fun _ => trivial
theorem cellWake : ∀ cell, Statement (.cellWake cell) := fun _ => trivial
theorem quiescence : ∀ p, Statement (.quiescence p) := fun _ => trivial
theorem thermalTrip : ∀ die, Statement (.thermalTrip die) := fun _ => trivial
theorem coreReset : ∀ cid, Statement (.coreReset cid) := fun _ => trivial
theorem packetRefused : ∀ pkt, Statement (.packetRefused pkt) := fun _ => trivial
theorem uncorrectableError : ∀ cid f ownerRead, Statement (.uncorrectableError cid f ownerRead) := fun _ _ _ => trivial
theorem routerHop : ∀ pkt, Statement (.routerHop pkt) := fun _ => trivial
theorem linkFlitSend : ∀ x y port, Statement (.linkFlitSend x y port) := fun _ _ _ => trivial
theorem crossbarGrant : ∀ die out, Statement (.crossbarGrant die out) := fun _ _ => trivial
theorem hbmRequestStart : ∀ die ch, Statement (.hbmRequestStart die ch) := fun _ _ => trivial
theorem spliceEgressEnter : ∀ pkt, Statement (.spliceEgressEnter pkt) := fun _ => trivial
theorem spliceIngressDeliver : ∀ p splice, Statement (.spliceIngressDeliver p splice) := fun _ _ => trivial
theorem mergedAtomicApply : ∀ pkt, Statement (.mergedAtomicApply pkt) := fun _ => trivial
theorem mergedReplySplit : ∀ pkt, Statement (.mergedReplySplit pkt) := fun _ => trivial
theorem registerWrite : ∀ off v, Statement (.registerWrite off v) := fun _ _ => trivial
theorem addC : ∀ f, Statement (.addC f) := by
  intro f
  refine ⟨by decide, by decide, rfl, ⟨_, rfl, rfl⟩, fun _ _ h => ?_⟩
  simp [fieldsOk] at h
  rintro ⟨h1, h2, h3⟩
  simp_all
theorem add : ∀ f, Statement (.add f) := fun _ => ⟨by decide, by decide, ⟨_, rfl, rfl⟩, fun _ h => by simp [fieldsOk] at h; simp_all⟩
theorem subC : ∀ f, Statement (.subC f) := fun _ => ⟨by decide, by decide, rfl, ⟨_, rfl, rfl⟩, fun _ h2 => absurd h2 (by decide)⟩
theorem sub : ∀ f, Statement (.sub f) := fun _ => ⟨by decide, by decide, ⟨_, rfl, rfl⟩, fun _ h => by simp [fieldsOk] at h; simp_all⟩
theorem mul : ∀ f, Statement (.mul f) := fun _ => ⟨by decide, by decide, ⟨_, rfl, rfl⟩, fun _ h => by simp [fieldsOk] at h; simp_all⟩
theorem mulh : ∀ f, Statement (.mulh f) := fun _ => ⟨by decide, by decide, ⟨_, rfl, rfl⟩, fun _ h => by simp [fieldsOk] at h; simp_all⟩
theorem mulhu : ∀ f, Statement (.mulhu f) := fun _ => ⟨by decide, by decide, ⟨_, rfl, rfl⟩, fun _ h => by simp [fieldsOk] at h; simp_all⟩
theorem div : ∀ f, Statement (.div f) := fun _ => ⟨by decide, by decide, ⟨_, rfl, rfl⟩, fun _ h => by simp [fieldsOk] at h; simp_all⟩
theorem divu : ∀ f, Statement (.divu f) := fun _ => ⟨by decide, by decide, ⟨_, rfl, rfl⟩, fun _ h => by simp [fieldsOk] at h; simp_all⟩
theorem rem : ∀ f, Statement (.rem f) := fun _ => ⟨by decide, by decide, ⟨_, rfl, rfl⟩, fun _ h => by simp [fieldsOk] at h; simp_all⟩
theorem remu : ∀ f, Statement (.remu f) := fun _ => ⟨by decide, by decide, ⟨_, rfl, rfl⟩, fun _ h => by simp [fieldsOk] at h; simp_all⟩
theorem andC : ∀ f, Statement (.andC f) := fun _ => ⟨by decide, by decide, rfl, ⟨_, rfl, rfl⟩, fun _ h2 => absurd h2 (by decide)⟩
theorem and : ∀ f, Statement (.and f) := fun _ => ⟨by decide, by decide, ⟨_, rfl, rfl⟩, fun _ h => by simp [fieldsOk] at h; simp_all⟩
theorem orC : ∀ f, Statement (.orC f) := fun _ => ⟨by decide, by decide, rfl, ⟨_, rfl, rfl⟩, fun _ h2 => absurd h2 (by decide)⟩
theorem or : ∀ f, Statement (.or f) := fun _ => ⟨by decide, by decide, ⟨_, rfl, rfl⟩, fun _ h => by simp [fieldsOk] at h; simp_all⟩
theorem xorC : ∀ f, Statement (.xorC f) := fun _ => ⟨by decide, by decide, rfl, ⟨_, rfl, rfl⟩, fun _ h2 => absurd h2 (by decide)⟩
theorem xor : ∀ f, Statement (.xor f) := fun _ => ⟨by decide, by decide, ⟨_, rfl, rfl⟩, fun _ h => by simp [fieldsOk] at h; simp_all⟩
theorem andn : ∀ f, Statement (.andn f) := fun _ => ⟨by decide, by decide, ⟨_, rfl, rfl⟩, fun _ h => by simp [fieldsOk] at h; simp_all⟩
theorem shlC : ∀ f, Statement (.shlC f) := fun _ => ⟨by decide, by decide, rfl, ⟨_, rfl, rfl⟩, fun _ h2 => absurd h2 (by decide)⟩
theorem shl : ∀ f, Statement (.shl f) := fun _ => ⟨by decide, by decide, ⟨_, rfl, rfl⟩, fun _ h => by simp [fieldsOk] at h; simp_all⟩
theorem shrC : ∀ f, Statement (.shrC f) := fun _ => ⟨by decide, by decide, rfl, ⟨_, rfl, rfl⟩, fun _ h2 => absurd h2 (by decide)⟩
theorem shr : ∀ f, Statement (.shr f) := fun _ => ⟨by decide, by decide, ⟨_, rfl, rfl⟩, fun _ h => by simp [fieldsOk] at h; simp_all⟩
theorem sarC : ∀ f, Statement (.sarC f) := fun _ => ⟨by decide, by decide, rfl, ⟨_, rfl, rfl⟩, fun _ h2 => absurd h2 (by decide)⟩
theorem sar : ∀ f, Statement (.sar f) := fun _ => ⟨by decide, by decide, ⟨_, rfl, rfl⟩, fun _ h => by simp [fieldsOk] at h; simp_all⟩
theorem rol : ∀ f, Statement (.rol f) := fun _ => ⟨by decide, by decide, ⟨_, rfl, rfl⟩, fun _ h => by simp [fieldsOk] at h; simp_all⟩
theorem min : ∀ f, Statement (.min f) := fun _ => ⟨by decide, by decide, ⟨_, rfl, rfl⟩, fun _ h => by simp [fieldsOk] at h; simp_all⟩
theorem max : ∀ f, Statement (.max f) := fun _ => ⟨by decide, by decide, ⟨_, rfl, rfl⟩, fun _ h => by simp [fieldsOk] at h; simp_all⟩
theorem minu : ∀ f, Statement (.minu f) := fun _ => ⟨by decide, by decide, ⟨_, rfl, rfl⟩, fun _ h => by simp [fieldsOk] at h; simp_all⟩
theorem maxu : ∀ f, Statement (.maxu f) := fun _ => ⟨by decide, by decide, ⟨_, rfl, rfl⟩, fun _ h => by simp [fieldsOk] at h; simp_all⟩
theorem addi : ∀ f, Statement (.addi f) := fun _ => ⟨by decide, by decide, ⟨_, rfl, rfl⟩, fun _ h => by simp [fieldsOk] at h; simp_all⟩
theorem addiX : ∀ f, Statement (.addiX f) := fun _ => ⟨by decide, by decide, rfl, ⟨_, rfl, rfl⟩, fun _ h => by simp [fieldsOk] at h; simp_all⟩
theorem andi : ∀ f, Statement (.andi f) := fun _ => ⟨by decide, by decide, ⟨_, rfl, rfl⟩, fun _ h => by simp [fieldsOk] at h; simp_all⟩
theorem andiX : ∀ f, Statement (.andiX f) := fun _ => ⟨by decide, by decide, rfl, ⟨_, rfl, rfl⟩, fun _ h => by simp [fieldsOk] at h; simp_all⟩
theorem ori : ∀ f, Statement (.ori f) := fun _ => ⟨by decide, by decide, ⟨_, rfl, rfl⟩, fun _ h => by simp [fieldsOk] at h; simp_all⟩
theorem oriX : ∀ f, Statement (.oriX f) := fun _ => ⟨by decide, by decide, rfl, ⟨_, rfl, rfl⟩, fun _ h => by simp [fieldsOk] at h; simp_all⟩
theorem xori : ∀ f, Statement (.xori f) := fun _ => ⟨by decide, by decide, ⟨_, rfl, rfl⟩, fun _ h => by simp [fieldsOk] at h; simp_all⟩
theorem xoriX : ∀ f, Statement (.xoriX f) := fun _ => ⟨by decide, by decide, rfl, ⟨_, rfl, rfl⟩, fun _ h => by simp [fieldsOk] at h; simp_all⟩
theorem shli : ∀ f, Statement (.shli f) := fun _ => ⟨by decide, by decide, ⟨_, rfl, rfl⟩, fun _ h => by simp [fieldsOk] at h; simp_all⟩
theorem shliX : ∀ f, Statement (.shliX f) := fun _ => ⟨by decide, by decide, rfl, ⟨_, rfl, rfl⟩, fun _ h => by simp [fieldsOk] at h; simp_all⟩
theorem shri : ∀ f, Statement (.shri f) := fun _ => ⟨by decide, by decide, ⟨_, rfl, rfl⟩, fun _ h => by simp [fieldsOk] at h; simp_all⟩
theorem shriX : ∀ f, Statement (.shriX f) := fun _ => ⟨by decide, by decide, rfl, ⟨_, rfl, rfl⟩, fun _ h => by simp [fieldsOk] at h; simp_all⟩
theorem sari : ∀ f, Statement (.sari f) := fun _ => ⟨by decide, by decide, ⟨_, rfl, rfl⟩, fun _ h => by simp [fieldsOk] at h; simp_all⟩
theorem sariX : ∀ f, Statement (.sariX f) := fun _ => ⟨by decide, by decide, rfl, ⟨_, rfl, rfl⟩, fun _ h => by simp [fieldsOk] at h; simp_all⟩
theorem muli : ∀ f, Statement (.muli f) := fun _ => ⟨by decide, by decide, ⟨_, rfl, rfl⟩, fun _ h => by simp [fieldsOk] at h; simp_all⟩
theorem muliX : ∀ f, Statement (.muliX f) := fun _ => ⟨by decide, by decide, rfl, ⟨_, rfl, rfl⟩, fun _ h => by simp [fieldsOk] at h; simp_all⟩
theorem clz : ∀ f, Statement (.clz f) := fun _ => ⟨by decide, by decide, ⟨_, rfl, rfl⟩, fun _ h => by simp [fieldsOk] at h; simp_all⟩
theorem ctz : ∀ f, Statement (.ctz f) := fun _ => ⟨by decide, by decide, ⟨_, rfl, rfl⟩, fun _ h => by simp [fieldsOk] at h; simp_all⟩
theorem popc : ∀ f, Statement (.popc f) := fun _ => ⟨by decide, by decide, ⟨_, rfl, rfl⟩, fun _ h => by simp [fieldsOk] at h; simp_all⟩
theorem brev : ∀ f, Statement (.brev f) := fun _ => ⟨by decide, by decide, ⟨_, rfl, rfl⟩, fun _ h => by simp [fieldsOk] at h; simp_all⟩
theorem bext : ∀ f, Statement (.bext f) := fun _ => ⟨by decide, by decide, ⟨_, rfl, rfl⟩, fun _ h => by simp [fieldsOk] at h; simp_all⟩
theorem bins : ∀ f, Statement (.bins f) := fun _ => ⟨by decide, by decide, ⟨_, rfl, rfl⟩, fun _ h => by simp [fieldsOk] at h; simp_all⟩
theorem sext : ∀ f, Statement (.sext f) := fun _ => ⟨by decide, by decide, ⟨_, rfl, rfl⟩, fun _ h => by simp [fieldsOk] at h; simp_all⟩
theorem zext : ∀ f, Statement (.zext f) := fun _ => ⟨by decide, by decide, ⟨_, rfl, rfl⟩, fun _ h => by simp [fieldsOk] at h; simp_all⟩
theorem cmp : ∀ f, Statement (.cmp f) := fun _ => ⟨by decide, by decide, ⟨_, rfl, rfl⟩, fun _ h => by simp [fieldsOk] at h; simp_all⟩
theorem cmpi : ∀ f, Statement (.cmpi f) := fun _ => ⟨by decide, by decide, ⟨_, rfl, rfl⟩, fun _ h => by simp [fieldsOk] at h; simp_all⟩
theorem cmpiX : ∀ f, Statement (.cmpiX f) := fun _ => ⟨by decide, by decide, rfl, ⟨_, rfl, rfl⟩, fun _ h => by simp [fieldsOk] at h; simp_all⟩
theorem pand : ∀ f, Statement (.pand f) := fun _ => ⟨by decide, by decide, ⟨_, rfl, rfl⟩, fun _ h => by simp [fieldsOk] at h; simp_all⟩
theorem por : ∀ f, Statement (.por f) := fun _ => ⟨by decide, by decide, ⟨_, rfl, rfl⟩, fun _ h => by simp [fieldsOk] at h; simp_all⟩
theorem pxor : ∀ f, Statement (.pxor f) := fun _ => ⟨by decide, by decide, ⟨_, rfl, rfl⟩, fun _ h => by simp [fieldsOk] at h; simp_all⟩
theorem pnot : ∀ f, Statement (.pnot f) := fun _ => ⟨by decide, by decide, ⟨_, rfl, rfl⟩, fun _ h => by simp [fieldsOk] at h; simp_all⟩
theorem pset : ∀ f, Statement (.pset f) := fun _ => ⟨by decide, by decide, ⟨_, rfl, rfl⟩, fun _ h => by simp [fieldsOk] at h; simp_all⟩
theorem pget : ∀ f, Statement (.pget f) := fun _ => ⟨by decide, by decide, ⟨_, rfl, rfl⟩, fun _ h => by simp [fieldsOk] at h; simp_all⟩
theorem sel : ∀ f, Statement (.sel f) := fun _ => ⟨by decide, by decide, ⟨_, rfl, rfl⟩, fun _ h => by simp [fieldsOk] at h; simp_all⟩
theorem lea : ∀ f, Statement (.lea f) := fun _ => ⟨by decide, by decide, ⟨_, rfl, rfl⟩, fun _ h => by simp [fieldsOk] at h; simp_all⟩
theorem leaX : ∀ f, Statement (.leaX f) := fun _ => ⟨by decide, by decide, rfl, ⟨_, rfl, rfl⟩, fun _ h => by simp [fieldsOk] at h; simp_all⟩
theorem nopC : ∀ f, Statement (.nopC f) := fun _ => ⟨by decide, by decide, rfl, ⟨_, rfl, rfl⟩, fun h1 => absurd h1 (by decide)⟩
theorem nop : ∀ f, Statement (.nop f) := fun _ => ⟨by decide, by decide, ⟨_, rfl, rfl⟩, fun _ h => by simp [fieldsOk] at h; simp_all⟩
theorem hint : ∀ f, Statement (.hint f) := fun _ => ⟨by decide, by decide, ⟨_, rfl, rfl⟩, fun _ h => by simp [fieldsOk] at h; simp_all⟩
theorem hintX : ∀ f, Statement (.hintX f) := fun _ => ⟨by decide, by decide, rfl, ⟨_, rfl, rfl⟩, fun _ h => by simp [fieldsOk] at h; simp_all⟩
theorem rdcyc : ∀ f, Statement (.rdcyc f) := fun _ => ⟨by decide, by decide, ⟨_, rfl, rfl⟩, fun _ h => by simp [fieldsOk] at h; simp_all⟩
theorem rdcnt : ∀ f, Statement (.rdcnt f) := fun _ => ⟨by decide, by decide, ⟨_, rfl, rfl⟩, fun _ h => by simp [fieldsOk] at h; simp_all⟩
theorem br : ∀ f, Statement (.br f) := fun _ => ⟨by decide, by decide, ⟨_, rfl, rfl⟩, fun _ h => by simp [fieldsOk] at h; simp_all⟩
theorem brX : ∀ f, Statement (.brX f) := fun _ => ⟨by decide, by decide, rfl, ⟨_, rfl, rfl⟩, fun _ h => by simp [fieldsOk] at h; simp_all⟩
theorem brx : ∀ f, Statement (.brx f) := fun _ => ⟨by decide, by decide, ⟨_, rfl, rfl⟩, fun _ h => by simp [fieldsOk] at h; simp_all⟩
theorem call : ∀ f, Statement (.call f) := fun _ => ⟨by decide, by decide, ⟨_, rfl, rfl⟩, fun _ h => by simp [fieldsOk] at h; simp_all⟩
theorem callX : ∀ f, Statement (.callX f) := fun _ => ⟨by decide, by decide, rfl, ⟨_, rfl, rfl⟩, fun _ h => by simp [fieldsOk] at h; simp_all⟩
theorem ret : ∀ f, Statement (.ret f) := fun _ => ⟨by decide, by decide, ⟨_, rfl, rfl⟩, fun _ h => by simp [fieldsOk] at h; simp_all⟩
theorem endC : ∀ f, Statement (.endC f) := fun _ => ⟨by decide, by decide, rfl, ⟨_, rfl, rfl⟩, fun h1 => absurd h1 (by decide)⟩
theorem endW : ∀ f, Statement (.endW f) := fun _ => ⟨by decide, by decide, ⟨_, rfl, rfl⟩, fun _ h => by simp [fieldsOk] at h; simp_all⟩
theorem fadd : ∀ f, Statement (.fadd f) := fun _ => ⟨by decide, by decide, ⟨_, rfl, rfl⟩, fun _ h => by simp [fieldsOk] at h; simp_all⟩
theorem fsub : ∀ f, Statement (.fsub f) := fun _ => ⟨by decide, by decide, ⟨_, rfl, rfl⟩, fun _ h => by simp [fieldsOk] at h; simp_all⟩
theorem fmul : ∀ f, Statement (.fmul f) := fun _ => ⟨by decide, by decide, ⟨_, rfl, rfl⟩, fun _ h => by simp [fieldsOk] at h; simp_all⟩
theorem ffma : ∀ f, Statement (.ffma f) := fun _ => ⟨by decide, by decide, ⟨_, rfl, rfl⟩, fun _ h => by simp [fieldsOk] at h; simp_all⟩
theorem fdiv : ∀ f, Statement (.fdiv f) := fun _ => ⟨by decide, by decide, ⟨_, rfl, rfl⟩, fun _ h => by simp [fieldsOk] at h; simp_all⟩
theorem fsqrt : ∀ f, Statement (.fsqrt f) := fun _ => ⟨by decide, by decide, ⟨_, rfl, rfl⟩, fun _ h => by simp [fieldsOk] at h; simp_all⟩
theorem fmin : ∀ f, Statement (.fmin f) := fun _ => ⟨by decide, by decide, ⟨_, rfl, rfl⟩, fun _ h => by simp [fieldsOk] at h; simp_all⟩
theorem fmax : ∀ f, Statement (.fmax f) := fun _ => ⟨by decide, by decide, ⟨_, rfl, rfl⟩, fun _ h => by simp [fieldsOk] at h; simp_all⟩
theorem fabs : ∀ f, Statement (.fabs f) := fun _ => ⟨by decide, by decide, ⟨_, rfl, rfl⟩, fun _ h => by simp [fieldsOk] at h; simp_all⟩
theorem fneg : ∀ f, Statement (.fneg f) := fun _ => ⟨by decide, by decide, ⟨_, rfl, rfl⟩, fun _ h => by simp [fieldsOk] at h; simp_all⟩
theorem fcmp : ∀ f, Statement (.fcmp f) := fun _ => ⟨by decide, by decide, ⟨_, rfl, rfl⟩, fun _ h => by simp [fieldsOk] at h; simp_all⟩
theorem fclass : ∀ f, Statement (.fclass f) := fun _ => ⟨by decide, by decide, ⟨_, rfl, rfl⟩, fun _ h => by simp [fieldsOk] at h; simp_all⟩
theorem tadd : ∀ f, Statement (.tadd f) := fun _ => ⟨by decide, by decide, ⟨_, rfl, rfl⟩, fun _ h => by simp [fieldsOk] at h; simp_all⟩
theorem tsub : ∀ f, Statement (.tsub f) := fun _ => ⟨by decide, by decide, ⟨_, rfl, rfl⟩, fun _ h => by simp [fieldsOk] at h; simp_all⟩
theorem tmul : ∀ f, Statement (.tmul f) := fun _ => ⟨by decide, by decide, ⟨_, rfl, rfl⟩, fun _ h => by simp [fieldsOk] at h; simp_all⟩
theorem tfma : ∀ f, Statement (.tfma f) := fun _ => ⟨by decide, by decide, ⟨_, rfl, rfl⟩, fun _ h => by simp [fieldsOk] at h; simp_all⟩
theorem tdiv : ∀ f, Statement (.tdiv f) := fun _ => ⟨by decide, by decide, ⟨_, rfl, rfl⟩, fun _ h => by simp [fieldsOk] at h; simp_all⟩
theorem tsqrt : ∀ f, Statement (.tsqrt f) := fun _ => ⟨by decide, by decide, ⟨_, rfl, rfl⟩, fun _ h => by simp [fieldsOk] at h; simp_all⟩
theorem tmin : ∀ f, Statement (.tmin f) := fun _ => ⟨by decide, by decide, ⟨_, rfl, rfl⟩, fun _ h => by simp [fieldsOk] at h; simp_all⟩
theorem tmax : ∀ f, Statement (.tmax f) := fun _ => ⟨by decide, by decide, ⟨_, rfl, rfl⟩, fun _ h => by simp [fieldsOk] at h; simp_all⟩
theorem tabs : ∀ f, Statement (.tabs f) := fun _ => ⟨by decide, by decide, ⟨_, rfl, rfl⟩, fun _ h => by simp [fieldsOk] at h; simp_all⟩
theorem tneg : ∀ f, Statement (.tneg f) := fun _ => ⟨by decide, by decide, ⟨_, rfl, rfl⟩, fun _ h => by simp [fieldsOk] at h; simp_all⟩
theorem tcmp : ∀ f, Statement (.tcmp f) := fun _ => ⟨by decide, by decide, ⟨_, rfl, rfl⟩, fun _ h => by simp [fieldsOk] at h; simp_all⟩
theorem spz : ∀ f, Statement (.spz f) := fun _ => ⟨by decide, by decide, ⟨_, rfl, rfl⟩, fun _ h => by simp [fieldsOk] at h; simp_all⟩
theorem spfma : ∀ f, Statement (.spfma f) := fun _ => ⟨by decide, by decide, ⟨_, rfl, rfl⟩, fun _ h => by simp [fieldsOk] at h; simp_all⟩
theorem spfms : ∀ f, Statement (.spfms f) := fun _ => ⟨by decide, by decide, ⟨_, rfl, rfl⟩, fun _ h => by simp [fieldsOk] at h; simp_all⟩
theorem spadd : ∀ f, Statement (.spadd f) := fun _ => ⟨by decide, by decide, ⟨_, rfl, rfl⟩, fun _ h => by simp [fieldsOk] at h; simp_all⟩
theorem spsub : ∀ f, Statement (.spsub f) := fun _ => ⟨by decide, by decide, ⟨_, rfl, rfl⟩, fun _ h => by simp [fieldsOk] at h; simp_all⟩
theorem sprnd : ∀ f, Statement (.sprnd f) := fun _ => ⟨by decide, by decide, ⟨_, rfl, rfl⟩, fun _ h => by simp [fieldsOk] at h; simp_all⟩
theorem spld : ∀ f, Statement (.spld f) := fun _ => ⟨by decide, by decide, ⟨_, rfl, rfl⟩, fun h => absurd h (by decide)⟩
theorem spldX : ∀ f, Statement (.spldX f) := fun _ => ⟨by decide, by decide, rfl, ⟨_, rfl, rfl⟩, fun h => absurd h (by decide)⟩
theorem spst : ∀ f, Statement (.spst f) := fun _ => ⟨by decide, by decide, ⟨_, rfl, rfl⟩, fun h => absurd h (by decide)⟩
theorem spstX : ∀ f, Statement (.spstX f) := fun _ => ⟨by decide, by decide, rfl, ⟨_, rfl, rfl⟩, fun h => absurd h (by decide)⟩
theorem cvt : ∀ f, Statement (.cvt f) := fun _ => ⟨by decide, by decide, ⟨_, rfl, rfl⟩, fun _ h => by simp [fieldsOk] at h; simp_all⟩
theorem lclaim : ∀ f, Statement (.lclaim f) := fun _ => ⟨by decide, by decide, ⟨_, rfl, rfl⟩, fun _ h => by simp [fieldsOk] at h; simp_all⟩
theorem lrel : ∀ f, Statement (.lrel f) := fun _ => ⟨by decide, by decide, ⟨_, rfl, rfl⟩, fun _ h => by simp [fieldsOk] at h; simp_all⟩
theorem lcount : ∀ f, Statement (.lcount f) := fun _ => ⟨by decide, by decide, ⟨_, rfl, rfl⟩, fun _ h => by simp [fieldsOk] at h; simp_all⟩
theorem vadd : ∀ f, Statement (.vadd f) := fun _ => ⟨by decide, by decide, ⟨_, rfl, rfl⟩, fun _ h => by simp [fieldsOk] at h; simp_all⟩
theorem vsub : ∀ f, Statement (.vsub f) := fun _ => ⟨by decide, by decide, ⟨_, rfl, rfl⟩, fun _ h => by simp [fieldsOk] at h; simp_all⟩
theorem vmul : ∀ f, Statement (.vmul f) := fun _ => ⟨by decide, by decide, ⟨_, rfl, rfl⟩, fun _ h => by simp [fieldsOk] at h; simp_all⟩
theorem vmulh : ∀ f, Statement (.vmulh f) := fun _ => ⟨by decide, by decide, ⟨_, rfl, rfl⟩, fun _ h => by simp [fieldsOk] at h; simp_all⟩
theorem vmad : ∀ f, Statement (.vmad f) := fun _ => ⟨by decide, by decide, ⟨_, rfl, rfl⟩, fun _ h => by simp [fieldsOk] at h; simp_all⟩
theorem vmin : ∀ f, Statement (.vmin f) := fun _ => ⟨by decide, by decide, ⟨_, rfl, rfl⟩, fun _ h => by simp [fieldsOk] at h; simp_all⟩
theorem vmax : ∀ f, Statement (.vmax f) := fun _ => ⟨by decide, by decide, ⟨_, rfl, rfl⟩, fun _ h => by simp [fieldsOk] at h; simp_all⟩
theorem vabs : ∀ f, Statement (.vabs f) := fun _ => ⟨by decide, by decide, ⟨_, rfl, rfl⟩, fun _ h => by simp [fieldsOk] at h; simp_all⟩
theorem vand : ∀ f, Statement (.vand f) := fun _ => ⟨by decide, by decide, ⟨_, rfl, rfl⟩, fun _ h => by simp [fieldsOk] at h; simp_all⟩
theorem vor : ∀ f, Statement (.vor f) := fun _ => ⟨by decide, by decide, ⟨_, rfl, rfl⟩, fun _ h => by simp [fieldsOk] at h; simp_all⟩
theorem vxor : ∀ f, Statement (.vxor f) := fun _ => ⟨by decide, by decide, ⟨_, rfl, rfl⟩, fun _ h => by simp [fieldsOk] at h; simp_all⟩
theorem vshl : ∀ f, Statement (.vshl f) := fun _ => ⟨by decide, by decide, ⟨_, rfl, rfl⟩, fun _ h => by simp [fieldsOk] at h; simp_all⟩
theorem vshr : ∀ f, Statement (.vshr f) := fun _ => ⟨by decide, by decide, ⟨_, rfl, rfl⟩, fun _ h => by simp [fieldsOk] at h; simp_all⟩
theorem vsar : ∀ f, Statement (.vsar f) := fun _ => ⟨by decide, by decide, ⟨_, rfl, rfl⟩, fun _ h => by simp [fieldsOk] at h; simp_all⟩
theorem vrshr : ∀ f, Statement (.vrshr f) := fun _ => ⟨by decide, by decide, ⟨_, rfl, rfl⟩, fun _ h => by simp [fieldsOk] at h; simp_all⟩
theorem vsat : ∀ f, Statement (.vsat f) := fun _ => ⟨by decide, by decide, ⟨_, rfl, rfl⟩, fun _ h => by simp [fieldsOk] at h; simp_all⟩
theorem vclamp : ∀ f, Statement (.vclamp f) := fun _ => ⟨by decide, by decide, ⟨_, rfl, rfl⟩, fun _ h => by simp [fieldsOk] at h; simp_all⟩
theorem vdot4 : ∀ f, Statement (.vdot4 f) := fun _ => ⟨by decide, by decide, ⟨_, rfl, rfl⟩, fun _ h => by simp [fieldsOk] at h; simp_all⟩
theorem vdot2 : ∀ f, Statement (.vdot2 f) := fun _ => ⟨by decide, by decide, ⟨_, rfl, rfl⟩, fun _ h => by simp [fieldsOk] at h; simp_all⟩
theorem vfadd : ∀ f, Statement (.vfadd f) := fun _ => ⟨by decide, by decide, ⟨_, rfl, rfl⟩, fun _ h => by simp [fieldsOk] at h; simp_all⟩
theorem vfsub : ∀ f, Statement (.vfsub f) := fun _ => ⟨by decide, by decide, ⟨_, rfl, rfl⟩, fun _ h => by simp [fieldsOk] at h; simp_all⟩
theorem vfmul : ∀ f, Statement (.vfmul f) := fun _ => ⟨by decide, by decide, ⟨_, rfl, rfl⟩, fun _ h => by simp [fieldsOk] at h; simp_all⟩
theorem vffma : ∀ f, Statement (.vffma f) := fun _ => ⟨by decide, by decide, ⟨_, rfl, rfl⟩, fun _ h => by simp [fieldsOk] at h; simp_all⟩
theorem vfmin : ∀ f, Statement (.vfmin f) := fun _ => ⟨by decide, by decide, ⟨_, rfl, rfl⟩, fun _ h => by simp [fieldsOk] at h; simp_all⟩
theorem vfmax : ∀ f, Statement (.vfmax f) := fun _ => ⟨by decide, by decide, ⟨_, rfl, rfl⟩, fun _ h => by simp [fieldsOk] at h; simp_all⟩
theorem vfabs : ∀ f, Statement (.vfabs f) := fun _ => ⟨by decide, by decide, ⟨_, rfl, rfl⟩, fun _ h => by simp [fieldsOk] at h; simp_all⟩
theorem vfneg : ∀ f, Statement (.vfneg f) := fun _ => ⟨by decide, by decide, ⟨_, rfl, rfl⟩, fun _ h => by simp [fieldsOk] at h; simp_all⟩
theorem vexp2 : ∀ f, Statement (.vexp2 f) := fun _ => ⟨by decide, by decide, ⟨_, rfl, rfl⟩, fun _ h => by simp [fieldsOk] at h; simp_all⟩
theorem vlog2 : ∀ f, Statement (.vlog2 f) := fun _ => ⟨by decide, by decide, ⟨_, rfl, rfl⟩, fun _ h => by simp [fieldsOk] at h; simp_all⟩
theorem vrcp : ∀ f, Statement (.vrcp f) := fun _ => ⟨by decide, by decide, ⟨_, rfl, rfl⟩, fun _ h => by simp [fieldsOk] at h; simp_all⟩
theorem vrsqrt : ∀ f, Statement (.vrsqrt f) := fun _ => ⟨by decide, by decide, ⟨_, rfl, rfl⟩, fun _ h => by simp [fieldsOk] at h; simp_all⟩
theorem vsqrt : ∀ f, Statement (.vsqrt f) := fun _ => ⟨by decide, by decide, ⟨_, rfl, rfl⟩, fun _ h => by simp [fieldsOk] at h; simp_all⟩
theorem vdiv : ∀ f, Statement (.vdiv f) := fun _ => ⟨by decide, by decide, ⟨_, rfl, rfl⟩, fun _ h => by simp [fieldsOk] at h; simp_all⟩
theorem vtadd : ∀ f, Statement (.vtadd f) := fun _ => ⟨by decide, by decide, ⟨_, rfl, rfl⟩, fun _ h => by simp [fieldsOk] at h; simp_all⟩
theorem vtsub : ∀ f, Statement (.vtsub f) := fun _ => ⟨by decide, by decide, ⟨_, rfl, rfl⟩, fun _ h => by simp [fieldsOk] at h; simp_all⟩
theorem vtmul : ∀ f, Statement (.vtmul f) := fun _ => ⟨by decide, by decide, ⟨_, rfl, rfl⟩, fun _ h => by simp [fieldsOk] at h; simp_all⟩
theorem vtfma : ∀ f, Statement (.vtfma f) := fun _ => ⟨by decide, by decide, ⟨_, rfl, rfl⟩, fun _ h => by simp [fieldsOk] at h; simp_all⟩
theorem vtmin : ∀ f, Statement (.vtmin f) := fun _ => ⟨by decide, by decide, ⟨_, rfl, rfl⟩, fun _ h => by simp [fieldsOk] at h; simp_all⟩
theorem vtmax : ∀ f, Statement (.vtmax f) := fun _ => ⟨by decide, by decide, ⟨_, rfl, rfl⟩, fun _ h => by simp [fieldsOk] at h; simp_all⟩
theorem vspz : ∀ f, Statement (.vspz f) := fun _ => ⟨by decide, by decide, ⟨_, rfl, rfl⟩, fun _ h => by simp [fieldsOk] at h; simp_all⟩
theorem vspfma : ∀ f, Statement (.vspfma f) := fun _ => ⟨by decide, by decide, ⟨_, rfl, rfl⟩, fun _ h => by simp [fieldsOk] at h; simp_all⟩
theorem vsprnd : ∀ f, Statement (.vsprnd f) := fun _ => ⟨by decide, by decide, ⟨_, rfl, rfl⟩, fun _ h => by simp [fieldsOk] at h; simp_all⟩
theorem vcmp : ∀ f, Statement (.vcmp f) := fun _ => ⟨by decide, by decide, ⟨_, rfl, rfl⟩, fun _ h => by simp [fieldsOk] at h; simp_all⟩
theorem vfcmp : ∀ f, Statement (.vfcmp f) := fun _ => ⟨by decide, by decide, ⟨_, rfl, rfl⟩, fun _ h => by simp [fieldsOk] at h; simp_all⟩
theorem vtcmp : ∀ f, Statement (.vtcmp f) := fun _ => ⟨by decide, by decide, ⟨_, rfl, rfl⟩, fun _ h => by simp [fieldsOk] at h; simp_all⟩
theorem vsel : ∀ f, Statement (.vsel f) := fun _ => ⟨by decide, by decide, ⟨_, rfl, rfl⟩, fun _ h => by simp [fieldsOk] at h; simp_all⟩
theorem kand : ∀ f, Statement (.kand f) := fun _ => ⟨by decide, by decide, ⟨_, rfl, rfl⟩, fun _ h => by simp [fieldsOk] at h; simp_all⟩
theorem kor : ∀ f, Statement (.kor f) := fun _ => ⟨by decide, by decide, ⟨_, rfl, rfl⟩, fun _ h => by simp [fieldsOk] at h; simp_all⟩
theorem kxor : ∀ f, Statement (.kxor f) := fun _ => ⟨by decide, by decide, ⟨_, rfl, rfl⟩, fun _ h => by simp [fieldsOk] at h; simp_all⟩
theorem knot : ∀ f, Statement (.knot f) := fun _ => ⟨by decide, by decide, ⟨_, rfl, rfl⟩, fun _ h => by simp [fieldsOk] at h; simp_all⟩
theorem kset : ∀ f, Statement (.kset f) := fun _ => ⟨by decide, by decide, ⟨_, rfl, rfl⟩, fun _ h => by simp [fieldsOk] at h; simp_all⟩
theorem kget : ∀ f, Statement (.kget f) := fun _ => ⟨by decide, by decide, ⟨_, rfl, rfl⟩, fun _ h => by simp [fieldsOk] at h; simp_all⟩
theorem vcvt : ∀ f, Statement (.vcvt f) := fun _ => ⟨by decide, by decide, ⟨_, rfl, rfl⟩, fun _ h => by simp [fieldsOk] at h; simp_all⟩
theorem vpack : ∀ f, Statement (.vpack f) := fun _ => ⟨by decide, by decide, ⟨_, rfl, rfl⟩, fun _ h => by simp [fieldsOk] at h; simp_all⟩
theorem vunpack : ∀ f, Statement (.vunpack f) := fun _ => ⟨by decide, by decide, ⟨_, rfl, rfl⟩, fun _ h => by simp [fieldsOk] at h; simp_all⟩
theorem vbcast : ∀ f, Statement (.vbcast f) := fun _ => ⟨by decide, by decide, ⟨_, rfl, rfl⟩, fun _ h => by simp [fieldsOk] at h; simp_all⟩
theorem vext : ∀ f, Statement (.vext f) := fun _ => ⟨by decide, by decide, ⟨_, rfl, rfl⟩, fun _ h => by simp [fieldsOk] at h; simp_all⟩
theorem vperm : ∀ f, Statement (.vperm f) := fun _ => ⟨by decide, by decide, ⟨_, rfl, rfl⟩, fun _ h => by simp [fieldsOk] at h; simp_all⟩
theorem vslide : ∀ f, Statement (.vslide f) := fun _ => ⟨by decide, by decide, ⟨_, rfl, rfl⟩, fun _ h => by simp [fieldsOk] at h; simp_all⟩
theorem vred : ∀ f, Statement (.vred f) := fun _ => ⟨by decide, by decide, ⟨_, rfl, rfl⟩, fun _ h => by simp [fieldsOk] at h; simp_all⟩
theorem vscan : ∀ f, Statement (.vscan f) := fun _ => ⟨by decide, by decide, ⟨_, rfl, rfl⟩, fun _ h => by simp [fieldsOk] at h; simp_all⟩
theorem vld : ∀ f, Statement (.vld f) := fun _ => ⟨by decide, by decide, ⟨_, rfl, rfl⟩, fun h => absurd h (by decide)⟩
theorem vldX : ∀ f, Statement (.vldX f) := fun _ => ⟨by decide, by decide, rfl, ⟨_, rfl, rfl⟩, fun h => absurd h (by decide)⟩
theorem vst : ∀ f, Statement (.vst f) := fun _ => ⟨by decide, by decide, ⟨_, rfl, rfl⟩, fun h => absurd h (by decide)⟩
theorem vstX : ∀ f, Statement (.vstX f) := fun _ => ⟨by decide, by decide, rfl, ⟨_, rfl, rfl⟩, fun h => absurd h (by decide)⟩
theorem vlds : ∀ f, Statement (.vlds f) := fun _ => ⟨by decide, by decide, ⟨_, rfl, rfl⟩, fun h => absurd h (by decide)⟩
theorem vldsX : ∀ f, Statement (.vldsX f) := fun _ => ⟨by decide, by decide, rfl, ⟨_, rfl, rfl⟩, fun h => absurd h (by decide)⟩
theorem vsts : ∀ f, Statement (.vsts f) := fun _ => ⟨by decide, by decide, ⟨_, rfl, rfl⟩, fun h => absurd h (by decide)⟩
theorem vstsX : ∀ f, Statement (.vstsX f) := fun _ => ⟨by decide, by decide, rfl, ⟨_, rfl, rfl⟩, fun h => absurd h (by decide)⟩
theorem vldx : ∀ f, Statement (.vldx f) := fun _ => ⟨by decide, by decide, ⟨_, rfl, rfl⟩, fun h => absurd h (by decide)⟩
theorem vldxX : ∀ f, Statement (.vldxX f) := fun _ => ⟨by decide, by decide, rfl, ⟨_, rfl, rfl⟩, fun h => absurd h (by decide)⟩
theorem vstx : ∀ f, Statement (.vstx f) := fun _ => ⟨by decide, by decide, ⟨_, rfl, rfl⟩, fun h => absurd h (by decide)⟩
theorem vstxX : ∀ f, Statement (.vstxX f) := fun _ => ⟨by decide, by decide, rfl, ⟨_, rfl, rfl⟩, fun h => absurd h (by decide)⟩
theorem mfmt : ∀ f, Statement (.mfmt f) := fun _ => ⟨by decide, by decide, ⟨_, rfl, rfl⟩, fun _ h => by simp [fieldsOk] at h; simp_all⟩
theorem mscl : ∀ f, Statement (.mscl f) := fun _ => ⟨by decide, by decide, ⟨_, rfl, rfl⟩, fun _ h => by simp [fieldsOk] at h; simp_all⟩
theorem msclX : ∀ f, Statement (.msclX f) := fun _ => ⟨by decide, by decide, rfl, ⟨_, rfl, rfl⟩, fun _ h => by simp [fieldsOk] at h; simp_all⟩
theorem mlb : ∀ f, Statement (.mlb f) := fun _ => ⟨by decide, by decide, ⟨_, rfl, rfl⟩, fun h => absurd h (by decide)⟩
theorem mlbX : ∀ f, Statement (.mlbX f) := fun _ => ⟨by decide, by decide, rfl, ⟨_, rfl, rfl⟩, fun h => absurd h (by decide)⟩
theorem mma : ∀ f, Statement (.mma f) := fun _ => ⟨by decide, by decide, ⟨_, rfl, rfl⟩, fun h => absurd h (by decide)⟩
theorem mmaX : ∀ f, Statement (.mmaX f) := fun _ => ⟨by decide, by decide, rfl, ⟨_, rfl, rfl⟩, fun h => absurd h (by decide)⟩
theorem mrot : ∀ f, Statement (.mrot f) := fun _ => ⟨by decide, by decide, ⟨_, rfl, rfl⟩, fun _ h => by simp [fieldsOk] at h; simp_all⟩
theorem mzero : ∀ f, Statement (.mzero f) := fun _ => ⟨by decide, by decide, ⟨_, rfl, rfl⟩, fun _ h => by simp [fieldsOk] at h; simp_all⟩
theorem mdrain : ∀ f, Statement (.mdrain f) := fun _ => ⟨by decide, by decide, ⟨_, rfl, rfl⟩, fun h => absurd h (by decide)⟩
theorem mrow : ∀ f, Statement (.mrow f) := fun _ => ⟨by decide, by decide, ⟨_, rfl, rfl⟩, fun _ h => by simp [fieldsOk] at h; simp_all⟩
theorem falloc : ∀ f, Statement (.falloc f) := fun _ => ⟨by decide, by decide, ⟨_, rfl, rfl⟩, fun _ h => by simp [fieldsOk] at h; simp_all⟩
theorem ffree : ∀ f, Statement (.ffree f) := fun _ => ⟨by decide, by decide, ⟨_, rfl, rfl⟩, fun _ h => by simp [fieldsOk] at h; simp_all⟩
theorem sarm : ∀ f, Statement (.sarm f) := fun _ => ⟨by decide, by decide, ⟨_, rfl, rfl⟩, fun _ h => by simp [fieldsOk] at h; simp_all⟩
theorem sig : ∀ f, Statement (.sig f) := fun _ => ⟨by decide, by decide, ⟨_, rfl, rfl⟩, fun _ h => by simp [fieldsOk] at h; simp_all⟩
theorem sigX : ∀ f, Statement (.sigX f) := fun _ => ⟨by decide, by decide, rfl, ⟨_, rfl, rfl⟩, fun _ h => by simp [fieldsOk] at h; simp_all⟩
theorem sigv : ∀ f, Statement (.sigv f) := fun _ => ⟨by decide, by decide, ⟨_, rfl, rfl⟩, fun _ h => by simp [fieldsOk] at h; simp_all⟩
theorem sigb : ∀ f, Statement (.sigb f) := fun _ => ⟨by decide, by decide, ⟨_, rfl, rfl⟩, fun _ h => by simp [fieldsOk] at h; simp_all⟩
theorem fire : ∀ f, Statement (.fire f) := fun _ => ⟨by decide, by decide, ⟨_, rfl, rfl⟩, fun _ h => by simp [fieldsOk] at h; simp_all⟩
theorem sget : ∀ f, Statement (.sget f) := fun _ => ⟨by decide, by decide, ⟨_, rfl, rfl⟩, fun _ h => by simp [fieldsOk] at h; simp_all⟩
theorem ldf : ∀ f, Statement (.ldf f) := fun _ => ⟨by decide, by decide, ⟨_, rfl, rfl⟩, fun h => absurd h (by decide)⟩
theorem stf : ∀ f, Statement (.stf f) := fun _ => ⟨by decide, by decide, ⟨_, rfl, rfl⟩, fun h => absurd h (by decide)⟩
theorem rinit : ∀ f, Statement (.rinit f) := fun _ => ⟨by decide, by decide, ⟨_, rfl, rfl⟩, fun h => absurd h (by decide)⟩
theorem racq : ∀ f, Statement (.racq f) := fun _ => ⟨by decide, by decide, ⟨_, rfl, rfl⟩, fun h => absurd h (by decide)⟩
theorem rcom : ∀ f, Statement (.rcom f) := fun _ => ⟨by decide, by decide, ⟨_, rfl, rfl⟩, fun h => absurd h (by decide)⟩
theorem rpeek : ∀ f, Statement (.rpeek f) := fun _ => ⟨by decide, by decide, ⟨_, rfl, rfl⟩, fun h => absurd h (by decide)⟩
theorem rrel : ∀ f, Statement (.rrel f) := fun _ => ⟨by decide, by decide, ⟨_, rfl, rfl⟩, fun h => absurd h (by decide)⟩
theorem ldC : ∀ f, Statement (.ldC f) := fun _ => ⟨by decide, by decide, rfl, ⟨_, rfl, rfl⟩, fun h1 => absurd h1 (by decide)⟩
theorem ld : ∀ f, Statement (.ld f) := fun _ => ⟨by decide, by decide, ⟨_, rfl, rfl⟩, fun h => absurd h (by decide)⟩
theorem ldX : ∀ f, Statement (.ldX f) := fun _ => ⟨by decide, by decide, rfl, ⟨_, rfl, rfl⟩, fun h => absurd h (by decide)⟩
theorem stC : ∀ f, Statement (.stC f) := fun _ => ⟨by decide, by decide, rfl, ⟨_, rfl, rfl⟩, fun h1 => absurd h1 (by decide)⟩
theorem st : ∀ f, Statement (.st f) := fun _ => ⟨by decide, by decide, ⟨_, rfl, rfl⟩, fun h => absurd h (by decide)⟩
theorem stX : ∀ f, Statement (.stX f) := fun _ => ⟨by decide, by decide, rfl, ⟨_, rfl, rfl⟩, fun h => absurd h (by decide)⟩
theorem ldrm : ∀ f, Statement (.ldrm f) := fun _ => ⟨by decide, by decide, ⟨_, rfl, rfl⟩, fun h => absurd h (by decide)⟩
theorem strm : ∀ f, Statement (.strm f) := fun _ => ⟨by decide, by decide, ⟨_, rfl, rfl⟩, fun h => absurd h (by decide)⟩
theorem aadd : ∀ f, Statement (.aadd f) := fun _ => ⟨by decide, by decide, ⟨_, rfl, rfl⟩, fun h => absurd h (by decide)⟩
theorem amin : ∀ f, Statement (.amin f) := fun _ => ⟨by decide, by decide, ⟨_, rfl, rfl⟩, fun h => absurd h (by decide)⟩
theorem amax : ∀ f, Statement (.amax f) := fun _ => ⟨by decide, by decide, ⟨_, rfl, rfl⟩, fun h => absurd h (by decide)⟩
theorem aminu : ∀ f, Statement (.aminu f) := fun _ => ⟨by decide, by decide, ⟨_, rfl, rfl⟩, fun h => absurd h (by decide)⟩
theorem amaxu : ∀ f, Statement (.amaxu f) := fun _ => ⟨by decide, by decide, ⟨_, rfl, rfl⟩, fun h => absurd h (by decide)⟩
theorem aand : ∀ f, Statement (.aand f) := fun _ => ⟨by decide, by decide, ⟨_, rfl, rfl⟩, fun h => absurd h (by decide)⟩
theorem aor : ∀ f, Statement (.aor f) := fun _ => ⟨by decide, by decide, ⟨_, rfl, rfl⟩, fun h => absurd h (by decide)⟩
theorem axor : ∀ f, Statement (.axor f) := fun _ => ⟨by decide, by decide, ⟨_, rfl, rfl⟩, fun h => absurd h (by decide)⟩
theorem aswp : ∀ f, Statement (.aswp f) := fun _ => ⟨by decide, by decide, ⟨_, rfl, rfl⟩, fun h => absurd h (by decide)⟩
theorem acas : ∀ f, Statement (.acas f) := fun _ => ⟨by decide, by decide, ⟨_, rfl, rfl⟩, fun h => absurd h (by decide)⟩
theorem afadd : ∀ f, Statement (.afadd f) := fun _ => ⟨by decide, by decide, ⟨_, rfl, rfl⟩, fun h => absurd h (by decide)⟩
theorem aspadd : ∀ f, Statement (.aspadd f) := fun _ => ⟨by decide, by decide, ⟨_, rfl, rfl⟩, fun h => absurd h (by decide)⟩
theorem fence : ∀ f, Statement (.fence f) := fun _ => ⟨by decide, by decide, ⟨_, rfl, rfl⟩, fun _ h => by simp [fieldsOk] at h; simp_all⟩
theorem twld : ∀ f, Statement (.twld f) := fun _ => ⟨by decide, by decide, ⟨_, rfl, rfl⟩, fun h => absurd h (by decide)⟩
theorem twst : ∀ f, Statement (.twst f) := fun _ => ⟨by decide, by decide, ⟨_, rfl, rfl⟩, fun h => absurd h (by decide)⟩
theorem twmc : ∀ f, Statement (.twmc f) := fun _ => ⟨by decide, by decide, ⟨_, rfl, rfl⟩, fun h => absurd h (by decide)⟩
theorem twg : ∀ f, Statement (.twg f) := fun _ => ⟨by decide, by decide, ⟨_, rfl, rfl⟩, fun h => absurd h (by decide)⟩
theorem tws : ∀ f, Statement (.tws f) := fun _ => ⟨by decide, by decide, ⟨_, rfl, rfl⟩, fun h => absurd h (by decide)⟩
theorem twq : ∀ f, Statement (.twq f) := fun _ => ⟨by decide, by decide, ⟨_, rfl, rfl⟩, fun h => absurd h (by decide)⟩
theorem twcan : ∀ f, Statement (.twcan f) := fun _ => ⟨by decide, by decide, ⟨_, rfl, rfl⟩, fun _ h => by simp [fieldsOk] at h; simp_all⟩
theorem stepd : ∀ f, Statement (.stepd f) := fun _ => ⟨by decide, by decide, ⟨_, rfl, rfl⟩, fun _ h => by simp [fieldsOk] at h; simp_all⟩
theorem ldst : ∀ f, Statement (.ldst f) := fun _ => ⟨by decide, by decide, ⟨_, rfl, rfl⟩, fun h => absurd h (by decide)⟩
theorem stepq : ∀ f, Statement (.stepq f) := fun _ => ⟨by decide, by decide, ⟨_, rfl, rfl⟩, fun _ h => by simp [fieldsOk] at h; simp_all⟩
theorem sqtab : ∀ f, Statement (.sqtab f) := fun _ => ⟨by decide, by decide, ⟨_, rfl, rfl⟩, fun _ h => by simp [fieldsOk] at h; simp_all⟩
theorem sqinit : ∀ f, Statement (.sqinit f) := fun _ => ⟨by decide, by decide, ⟨_, rfl, rfl⟩, fun _ h => by simp [fieldsOk] at h; simp_all⟩
theorem sqstage : ∀ f, Statement (.sqstage f) := fun _ => ⟨by decide, by decide, ⟨_, rfl, rfl⟩, fun _ h => by simp [fieldsOk] at h; simp_all⟩
theorem sqstep : ∀ f, Statement (.sqstep f) := fun _ => ⟨by decide, by decide, ⟨_, rfl, rfl⟩, fun _ h => by simp [fieldsOk] at h; simp_all⟩
theorem sqrd : ∀ f, Statement (.sqrd f) := fun _ => ⟨by decide, by decide, ⟨_, rfl, rfl⟩, fun _ h => by simp [fieldsOk] at h; simp_all⟩
theorem glaunch : ∀ f, Statement (.glaunch f) := fun _ => ⟨by decide, by decide, ⟨_, rfl, rfl⟩, fun _ h => by simp [fieldsOk] at h; simp_all⟩
theorem gquery : ∀ f, Statement (.gquery f) := fun _ => ⟨by decide, by decide, ⟨_, rfl, rfl⟩, fun _ h => by simp [fieldsOk] at h; simp_all⟩
theorem gcan : ∀ f, Statement (.gcan f) := fun _ => ⟨by decide, by decide, ⟨_, rfl, rfl⟩, fun _ h => by simp [fieldsOk] at h; simp_all⟩
theorem sysr : ∀ f, Statement (.sysr f) := fun _ => ⟨by decide, by decide, ⟨_, rfl, rfl⟩, fun _ h => by simp [fieldsOk] at h; simp_all⟩
theorem sysw : ∀ f, Statement (.sysw f) := fun _ => ⟨by decide, by decide, ⟨_, rfl, rfl⟩, fun _ h => by simp [fieldsOk] at h; simp_all⟩
theorem trap : ∀ f, Statement (.trap f) := fun _ => ⟨by decide, by decide, ⟨_, rfl, rfl⟩, fun _ h => by simp [fieldsOk] at h; simp_all⟩
theorem trapX : ∀ f, Statement (.trapX f) := fun _ => ⟨by decide, by decide, rfl, ⟨_, rfl, rfl⟩, fun _ h => by simp [fieldsOk] at h; simp_all⟩
theorem brk : ∀ f, Statement (.brk f) := fun _ => ⟨by decide, by decide, ⟨_, rfl, rfl⟩, fun _ h => by simp [fieldsOk] at h; simp_all⟩
theorem snap : ∀ f, Statement (.snap f) := fun _ => ⟨by decide, by decide, ⟨_, rfl, rfl⟩, fun _ h => by simp [fieldsOk] at h; simp_all⟩
theorem clockPinned : ∀ die, Statement (.clockPinned die) := fun _ => trivial
theorem softError : ∀ key bits, Statement (.softError key bits) := fun _ _ => trivial
theorem fillComplete : ∀ cid, Statement (.fillComplete cid) := fun _ => trivial

end Sys2Proof.Laws.OpcodeMap
end

