-- ==== Sys2Proof/Laws/Reads.lean ====
section
/-! SUPPORT. What a read may return and what a write and an atomic leave (R246, R249, R250): once for every later proof, which then unfolds
neither the older values nor the release sequences. -/

namespace Sys2Proof.Machine

/-- A read passes no write that is ordered before it, and none beyond the last that is held. -/
theorem State.passed_le (s : State) (r : Reader) (k n a : Nat) :
    s.passed r k n a ≤ ((s.olderAt a).takeWhile (fun e => !(binds r e))).length := by
  have hp : s.passable r k n a ≤ ((s.olderAt a).takeWhile (fun e => !(binds r e))).length := by
    unfold State.passable
    split
    · have : ∀ (l : List Nat) (g : Nat → Nat) (m : Nat), l.foldl (fun m b => min m (g b)) m ≤ m := by
        intro l g
        induction l with
        | nil => intro m; exact Nat.le_refl m
        | cons b t ih => intro m; exact Nat.le_trans (ih _) (Nat.min_le_left _ _)
      exact this _ _ _
    · exact Nat.le_refl _
  refine Nat.le_trans ?_ hp
  unfold State.passed
  split
  · omega
  · next m h => rw [h]; exact Nat.le_of_lt_succ (Nat.mod_lt _ (by omega))

/-- Every write to the word is ordered before the read: it passes none. -/
theorem State.passed_of_bound (s : State) (r : Reader) (k n a : Nat) (h : ∀ e ∈ s.olderAt a, binds r e = true) : s.passed r k n a = 0 := by
  have hp := s.passed_le r k n a
  have : (s.olderAt a).takeWhile (fun e => !(binds r e)) = [] := by
    cases hl : s.olderAt a with
    | nil => rfl
    | cons e t => simp [h e (by simp [hl])]
  simpa [this] using hp

/-- A read returns the newest write to a word, or what one that is not ordered before it left over (R246). -/
theorem State.seenWord_cases (s : State) (r : Reader) (k n a : Nat) : s.seenWord r k n a = s.readN a 8 ∨
    ∃ l1 e l2, s.olderAt a = l1 ++ e :: l2 ∧ (∀ x ∈ l1 ++ [e], binds r x = false) ∧ s.seenWord r k n a = e.val := by
  have hp := s.passed_le r k n a
  unfold State.seenWord
  cases hq : s.passed r k n a with
  | zero => exact .inl rfl
  | succ i =>
    rw [hq] at hp
    have hlen := (List.takeWhile_sublist (fun e => !(binds r e)) (l := s.olderAt a)).length_le
    have hi : i < (s.olderAt a).length := by omega
    have hpre := List.takeWhile_prefix (fun e => !(binds r e)) (l := s.olderAt a)
    refine .inr ⟨(s.olderAt a).take i, (s.olderAt a)[i], (s.olderAt a).drop (i + 1), ?_, ?_, by simp [hi]⟩
    · rw [List.cons_getElem_drop_succ, List.take_append_drop]
    · intro x hx
      have ht : (s.olderAt a).take i ++ [(s.olderAt a)[i]] = (s.olderAt a).take (i + 1) := by simp
      rw [ht] at hx
      obtain ⟨t, ht'⟩ := hpre
      have : x ∈ ((s.olderAt a).takeWhile (fun e => !(binds r e))).take (i + 1) := by
        rw [← ht', List.take_append_of_le_length (by omega)] at hx; exact hx
      have := List.mem_takeWhile_imp (List.mem_of_mem_take this)
      simpa using this

/-- The little-endian number of a byte of a memory range. -/
theorem memReadN_byte (m : List Host.Cell) (n : Nat) : ∀ (k i : Nat), i < n →
    BitVec.ofNat 8 (memReadN m k n / 256 ^ i) = memRead m (k + i) := by
  induction n with
  | zero => intro k i h; omega
  | succ n ih =>
    intro k i h
    cases i with
    | zero =>
      apply BitVec.eq_of_toNat_eq
      have := (memRead m k).isLt
      simp only [memReadN, BitVec.toNat_ofNat, Nat.pow_zero, Nat.div_one, Nat.add_zero]; omega
    | succ i =>
      have hb := (memRead m k).isLt
      have e : memReadN m k (n + 1) / 256 ^ (i + 1) = memReadN m (k + 1) n / 256 ^ i := by
        rw [Nat.pow_succ', ← Nat.div_div_eq_div_mul]
        congr 1
        simp only [memReadN]; omega
      rw [e, ih (k + 1) i (by omega)]
      congr 1; omega

/-- The number of a list of bytes read from memory is the number read. -/
theorem State.natOfBytes_readBytes (s : State) (n : Nat) : ∀ k, State.natOfBytes (s.readBytes k n) = s.readN k n := by
  induction n with
  | zero => intro k; rfl
  | succ n ih =>
    intro k
    have : s.readBytes k (n + 1) = s.byte k :: s.readBytes (k + 1) n := by
      simp only [State.readBytes, List.range_succ_eq_map, List.map_cons, List.map_map, Nat.add_zero]
      congr 1
      apply List.map_congr_left
      intro i _
      show s.byte (k + (i + 1)) = s.byte (k + 1 + i)
      congr 1; omega
    rw [this]
    simp only [State.natOfBytes, ih]
    rfl

/-- A read all of whose words' writes are ordered before it returns the newest bytes. -/
theorem State.seenBytes_of_bound (s : State) (r : Reader) (k n : Nat)
    (h : ∀ e ∈ s.older, overlaps e.key 8 (k / 8 * 8) (k % 8 + n) = true → binds r e = true) : s.seenBytes r k n = s.readBytes k n := by
  unfold State.seenBytes
  split
  · rfl
  · apply List.map_congr_left
    intro i hi
    have hi : i < n := by simpa using hi
    have hz : s.passed r k n ((k + i) / 8 * 8) = 0 := by
      apply s.passed_of_bound
      intro e he
      simp only [State.olderAt, List.mem_filter, beq_iff_eq] at he
      refine h e he.1 ?_
      simp only [overlaps, Bool.and_eq_true, decide_eq_true_eq]
      omega
    simp only [State.seenWord, hz]
    have := memReadN_byte s.mem 8 ((k + i) / 8 * 8) ((k + i) % 8) (by omega)
    show BitVec.ofNat 8 (memReadN s.mem ((k + i) / 8 * 8) 8 / 256 ^ ((k + i) % 8)) = memRead s.mem (k + i)
    rw [this]
    congr 1; omega

/-- The same of a number read. -/
theorem State.seenN_of_bound (s : State) (r : Reader) (k n : Nat)
    (h : ∀ e ∈ s.older, overlaps e.key 8 (k / 8 * 8) (k % 8 + n) = true → binds r e = true) : s.seenN r k n = s.readN k n := by
  unfold State.seenN
  split
  · rfl
  · rw [s.seenBytes_of_bound r k n h, s.natOfBytes_readBytes]

/-- The aligned words of a range are different. -/
theorem wordsOf_nodup (k n : Nat) : (wordsOf k n).Nodup :=
  (List.nodup_range).map_on (fun i _ j _ h => by have h : (k / 8 + i) * 8 = (k / 8 + j) * 8 := h; omega)

/-- What a write leaves of what stood in a word of it: one older value, in front (R246). -/
theorem State.storeN_olderAt (s : State) (w : Writer) (k n v a : Nat) (ha : a ∈ wordsOf k n) : (s.storeN w k n v).olderAt a =
    s.before w a (max k a) (min (k + n) (a + 8)) (decide (n = 32 ∧ k % 32 = 0)) :: s.olderAt a := by
  have hf : ∀ (l : List Nat) (g : Nat → Older), (∀ b, (g b).key = b) → l.Nodup → a ∈ l → (l.map g).filter (fun e => e.key == a) = [g a] := by
    intro l g hg
    induction l with
    | nil => intro _ h; simp at h
    | cons b t ih =>
      intro hn hm
      rw [List.nodup_cons] at hn
      by_cases hb : b = a
      · subst hb
        have : (t.map g).filter (fun e => e.key == b) = [] := by
          simp only [List.filter_eq_nil_iff, List.mem_map, forall_exists_index, and_imp, forall_apply_eq_imp_iff₂, hg, beq_iff_eq]
          exact fun x hx hxb => hn.1 (hxb ▸ hx)
        simp [hg, this]
      · have hm : a ∈ t := by cases hm with | head => exact absurd rfl hb | tail _ h => exact h
        simp [hg, hb, ih hn.2 hm]
  simp only [State.storeN, State.noted, State.olderAt, List.filter_append]
  rw [hf _ _ (fun _ => rfl) (wordsOf_nodup k n) ha]
  rfl

/-- A plain write ends the release sequences of its bytes and no other (R249). -/
theorem State.storeN_heads (s : State) (w : Writer) (k n v : Nat) (h : Head) :
    h ∈ (s.storeN w k n v).heads ↔ h ∈ s.heads ∧ overlaps h.key h.len k n = false := by
  simp [State.storeN, State.noted, State.writeN]

/-- What a read leaves of a word's writes is of that word. -/
theorem State.leftAfter_key (s : State) (r : Reader) (k n b : Nat) : ∀ x ∈ s.leftAfter r k n b, x.key = b := by
  intro x hx
  have : x ∈ s.olderAt b := by
    unfold State.leftAfter at hx
    dsimp only at hx
    split at hx
    · exact hx
    · split at hx
      · exact hx
      · exact List.mem_of_mem_take hx
  simpa using (List.mem_filter.1 this).2

/-- Every party sees what a read has returned, or later (R246, R250): of the writes to a word, those before the one that it stopped at are
left. -/
theorem State.saw_olderAt (s : State) (r : Reader) (k n a : Nat) (ha : a ∈ wordsOf k n) :
    (s.saw r k n).olderAt a = s.leftAfter r k n a := by
  have keyOf := s.leftAfter_key r k n
  have other : ∀ (l : List Nat) (q : List Older), a ∉ l →
      (l.foldl (fun l b => s.leftAfter r k n b ++ l.filter (fun x => x.key != b)) q).filter (fun e => e.key == a) = q.filter (fun e => e.key == a) := by
    intro l
    induction l with
    | nil => intro q _; rfl
    | cons b t ih =>
      intro q hm
      simp only [List.mem_cons, not_or] at hm
      rw [List.foldl_cons, ih _ hm.2, List.filter_append, List.filter_filter]
      have h1 : (s.leftAfter r k n b).filter (fun e => e.key == a) = [] := by
        simp only [List.filter_eq_nil_iff, beq_iff_eq]
        exact fun x hx hxa => hm.1 ((hxa.symm.trans (keyOf b x hx)))
      rw [h1, List.nil_append]
      apply List.filter_congr
      intro x _
      by_cases hx : x.key = a
      · simp [hx, hm.1]
      · simp [hx]
  have main : ∀ (l : List Nat) (q : List Older), a ∈ l → l.Nodup →
      (l.foldl (fun l b => s.leftAfter r k n b ++ l.filter (fun x => x.key != b)) q).filter (fun e => e.key == a) = s.leftAfter r k n a := by
    intro l
    induction l with
    | nil => intro q h; simp at h
    | cons b t ih =>
      intro q hm hn
      rw [List.nodup_cons] at hn
      rw [List.foldl_cons]
      by_cases hb : b = a
      · subst hb
        rw [other _ _ hn.1, List.filter_append, List.filter_filter]
        have h2 : q.filter (fun x => (x.key == b) && (x.key != b)) = [] := by
          simp
        have h3 : (s.leftAfter r k n b).filter (fun e => e.key == b) = s.leftAfter r k n b := by
          rw [List.filter_eq_self]; intro x hx; simpa using keyOf b x hx
        rw [h3, h2, List.append_nil]
      · exact ih _ (by cases hm with | head => exact absurd rfl hb | tail _ h => exact h) hn.2
  exact main _ _ ha (wordsOf_nodup k n)

/-- What an atomic of the length of its operand does to the release sequences (R227, R249): those of other bytes stay, those of its own word
go on where its scope contains theirs. -/
theorem State.atomicOn_heads (s : State) (k : Nat) (p : Packet) (op z : Nat) (b : BitVec 256) (d : Word) (h : Head) (hz : p.len = z) (hk : h.num ≠ k) :
    h ∈ (s.atomicOn k p op z b d).1.heads ↔ h ∈ s.heads ∧ (overlaps h.key h.len p.lo p.len = true → continues p h = true) := by
  subst hz
  have hl : ∀ (u : State) (c : Bool), h ∈ (u.leads k p c).heads ↔ h ∈ u.heads := by
    intro u c
    unfold State.leads
    split
    · constructor
      · intro hm
        cases hm with
        | head => exact absurd rfl hk
        | tail _ hm => exact hm
      · exact fun hm => List.mem_cons_of_mem _ hm
    · rfl
  simp only [State.atomicOn, State.atomicOrder]
  show h ∈ (State.leads _ k p false).heads ↔ _
  rw [hl]
  simp only [List.mem_append, List.mem_filter, State.storeN_heads, State.publish]
  cases overlaps h.key h.len p.lo p.len <;> simp

end Sys2Proof.Machine
end

