-- ==== Sys2Proof/Laws/Registers.lean ====
section
/-! SUPPORT. What an operation on registers can change: the core that issues, cells, and the faults that wait; nothing else. -/

set_option Elab.async false

namespace Sys2Proof.Machine

/-- A state that differs from another in the issuing core, in cells, in waiting faults and in the model's counters only. -/
structure OnCore (r s : State) : Prop where
  mem : s.mem = r.mem
  poison : s.poison = r.poison
  net : s.net = r.net
  walks : s.walks = r.walks
  cmds : s.cmds = r.cmds
  insts : s.insts = r.insts
  parts : s.parts = r.parts
  clusters : s.clusters = r.clusters
  dies : s.dies = r.dies
  mgmt : s.mgmt = r.mgmt
  cur : s.cur = r.cur
  others : ∀ c, c ≠ r.cur.1 → s.core c = r.core c
  older : s.older = r.older
  heads : s.heads = r.heads

theorem OnCore.refl (s : State) : OnCore s s := ⟨rfl, rfl, rfl, rfl, rfl, rfl, rfl, rfl, rfl, rfl, rfl, fun _ _ => rfl, rfl, rfl⟩

/-- A change of the issuing core. -/
theorem own_modCur {r s : State} (g : Core → Core) (hw : OnCore r s) : OnCore r (s.modCur g) := by
  obtain ⟨h1, h2, h3, h4, h5, h6, h7, h8, h9, h10, h11, h12, h13, h14⟩ := hw
  refine ⟨h1, h2, h3, h4, h5, h6, h7, h8, h9, h10, h11, fun c hc => ?_, h13, h14⟩
  rw [← h12 c hc]
  exact Tbl.get_set_other _ _ _ _ _ (h11 ▸ hc)
/-- A change of the issuing context. -/
theorem own_setCtx {r s : State} (k : Ctx) (hw : OnCore r s) : OnCore r (s.setCtx k) := own_modCur _ hw
theorem own_modCtx {r s : State} (g : Ctx → Ctx) (hw : OnCore r s) : OnCore r (s.modCtx g) := own_setCtx _ hw
theorem own_endFiring {r s : State} (hw : OnCore r s) : OnCore r s.endFiring := own_setCtx _ hw
/-- A change of a cell. -/
theorem own_setCell {r s : State} (i : Nat) (c : Cell) (hw : OnCore r s) : OnCore r (s.setCell i c) :=
  ⟨hw.1, hw.2, hw.3, hw.4, hw.5, hw.6, hw.7, hw.8, hw.9, hw.10, hw.11, hw.12, hw.13, hw.14⟩
/-- A fault of the issuing firing (R40). -/
theorem own_takeFault {r s : State} (c : Code) (n : Nat) (hw : OnCore r s) : OnCore r (s.takeFault c n) :=
  own_endFiring ⟨hw.1, hw.2, hw.3, hw.4, hw.5, hw.6, hw.7, hw.8, hw.9, hw.10, hw.11, hw.12, hw.13, hw.14⟩
/-- The count of an issue. -/
theorem own_countIssue {r s : State} (n : Nat) (hw : OnCore r s) : OnCore r (s.countIssue n) := own_modCtx _ (own_modCur _ hw)

theorem own_pureS {r s u : State} (e : (pure s : Except Code State) = .ok u) (h : OnCore r s) : OnCore r u := by cases e; exact h
theorem own_okS {r s u : State} (e : (.ok s : Except Code State) = .ok u) (h : OnCore r s) : OnCore r u := by cases e; exact h
theorem own_pureR {r : State} {w : Word} {s : State} {u : Word × State} (e : (pure (w, s) : Except Code (Word × State)) = .ok u)
    (h : OnCore r s) : OnCore r u.2 := by cases e; exact h
theorem own_okR {r : State} {w : Word} {s : State} {u : Word × State} (e : (.ok (w, s) : Except Code (Word × State)) = .ok u)
    (h : OnCore r s) : OnCore r u.2 := by cases e; exact h
theorem own_error {α : Type} {c : Code} {u : α} {p : Prop} (e : (.error c : Except Code α) = .ok u) : p := by cases e

/-- An instruction whose body works on registers answers a next state and changes nothing else. -/
theorem own_issue {len : Nat} {g : BitVec 4} {s : State} {body : State → Except Code State}
    (h : ∀ t u, body t = .ok u → OnCore s t → OnCore s u) : ∃ u, issue len g s body = .next u ∧ OnCore s u := by
  have hc := own_countIssue len (OnCore.refl s)
  rcases issue_cases len g s body with ⟨_, e⟩ | ⟨t, _, hb, e⟩ | ⟨c, _, _, e⟩
  · exact ⟨_, e, hc⟩
  · exact ⟨_, e, h _ _ hb hc⟩
  · exact ⟨_, e, own_takeFault _ _ hc⟩

theorem own_readS {r_ : State} {s : State} {r : BitVec 6} {u_ : Word × State} (e : State.readS s r = .ok u_) (hw : OnCore r_ s) : OnCore r_ u_.2 := by
  unfold State.readS at e
  try dsimp only at e
  repeat' (first | (with_reducible replace e := bind_ok e; obtain ⟨_, _, e⟩ := e) | split at e)
  all_goals repeat' (first | with_reducible assumption | exact own_error e | refine own_pureS e ?_ | refine own_okS e ?_ | refine own_pureR e ?_ | refine own_okR e ?_ | apply own_modCtx | apply own_modCur )

theorem own_writeS {r_ : State} {s : State} {r : BitVec 6} {v : Word} {u_ : State} (e : State.writeS s r v = .ok u_) (hw : OnCore r_ s) : OnCore r_ u_ := by
  unfold State.writeS at e
  try dsimp only at e
  repeat' (first | (with_reducible replace e := bind_ok e; obtain ⟨_, _, e⟩ := e) | split at e)
  all_goals repeat' (first | with_reducible assumption | exact own_error e | refine own_pureS e ?_ | refine own_okS e ?_ | refine own_pureR e ?_ | refine own_okR e ?_ | apply own_modCtx | apply own_modCur )

theorem own_readAB {r s : State} {f : WForm} {u_ : Word × Word × State} (e : State.readAB s f = .ok u_) (hw : OnCore r s) : OnCore r u_.2.2 := by
  unfold State.readAB at e
  obtain ⟨⟨a, s1⟩, e1, e⟩ := bind_ok e
  obtain ⟨⟨b, s2⟩, e2, e⟩ := bind_ok e
  cases e
  exact own_readS e2 (own_readS e1 hw)

theorem own_writeP {r_ : State} (s : State) (n : Nat) (b : Bool) (hw : OnCore r_ s) : OnCore r_ (State.writeP s n b) := by
  unfold State.writeP
  try dsimp only
  repeat' (first | with_reducible assumption  | apply own_modCtx | apply own_modCur | apply own_setCell | split)

theorem own_writeK {r_ : State} (s : State) (n : Nat) (v : BitVec 32) (hw : OnCore r_ s) : OnCore r_ (State.writeK s n v) := by
  unfold State.writeK
  try dsimp only
  repeat' (first | with_reducible assumption  | apply own_modCtx | apply own_modCur | apply own_setCell | split)

theorem own_writeY {r_ : State} (s : State) (n : Nat) (v : Spool) (hw : OnCore r_ s) : OnCore r_ (State.writeY s n v) := by
  unfold State.writeY
  try dsimp only
  repeat' (first | with_reducible assumption | apply own_modCtx )

theorem own_fp2 {r_ : State} {g : BitVec 32 → BitVec 32 → BitVec 32} {f : WForm} {s0 : State} {u_ : State} (e : State.fp2 g f s0 = .ok u_) (hw : OnCore r_ s0) : OnCore r_ u_ := by
  unfold State.fp2 at e
  try dsimp only at e
  repeat' (first | (with_reducible replace e := bind_ok e; obtain ⟨_, _, e⟩ := e) | split at e)
  all_goals repeat' (first | with_reducible assumption | exact own_error e | refine own_pureS e ?_ | refine own_okS e ?_ | refine own_pureR e ?_ | refine own_okR e ?_ | with_reducible refine own_readAB (by assumption) ?_ | with_reducible refine own_writeS (by assumption) ?_ )

theorem own_fp1 {r_ : State} {g : BitVec 32 → Word} {f : WForm} {s0 : State} {u_ : State} (e : State.fp1 g f s0 = .ok u_) (hw : OnCore r_ s0) : OnCore r_ u_ := by
  unfold State.fp1 at e
  try dsimp only at e
  repeat' (first | (with_reducible replace e := bind_ok e; obtain ⟨_, _, e⟩ := e) | split at e)
  all_goals repeat' (first | with_reducible assumption | exact own_error e | refine own_pureS e ?_ | refine own_okS e ?_ | refine own_pureR e ?_ | refine own_okR e ?_ | with_reducible refine own_writeS (by assumption) ?_ | with_reducible refine own_readS (by assumption) ?_ )

theorem own_ffmaOp {r_ : State} {f : WForm} {s0 : State} {u_ : State} (e : State.ffmaOp f s0 = .ok u_) (hw : OnCore r_ s0) : OnCore r_ u_ := by
  unfold State.ffmaOp at e
  try dsimp only at e
  repeat' (first | (with_reducible replace e := bind_ok e; obtain ⟨_, _, e⟩ := e) | split at e)
  all_goals repeat' (first | with_reducible assumption | exact own_error e | refine own_pureS e ?_ | refine own_okS e ?_ | refine own_pureR e ?_ | refine own_okR e ?_ | with_reducible refine own_readAB (by assumption) ?_ | with_reducible refine own_writeS (by assumption) ?_ | with_reducible refine own_readS (by assumption) ?_ )

theorem own_fcmpOp {r_ : State} {f : WForm} {s0 : State} {u_ : State} (e : State.fcmpOp f s0 = .ok u_) (hw : OnCore r_ s0) : OnCore r_ u_ := by
  unfold State.fcmpOp at e
  try dsimp only at e
  repeat' (first | (with_reducible replace e := bind_ok e; obtain ⟨_, _, e⟩ := e) | split at e)
  all_goals repeat' (first | with_reducible assumption | exact own_error e | refine own_pureS e ?_ | refine own_okS e ?_ | refine own_pureR e ?_ | refine own_okR e ?_ | apply own_writeP | with_reducible refine own_readAB (by assumption) ?_ )

theorem own_tf2 {r_ : State} {g : Nat → Nat → Nat → Nat} {f : WForm} {s0 : State} {u_ : State} (e : State.tf2 g f s0 = .ok u_) (hw : OnCore r_ s0) : OnCore r_ u_ := by
  unfold State.tf2 at e
  try dsimp only at e
  repeat' (first | (with_reducible replace e := bind_ok e; obtain ⟨_, _, e⟩ := e) | split at e)
  all_goals repeat' (first | with_reducible assumption | exact own_error e | refine own_pureS e ?_ | refine own_okS e ?_ | refine own_pureR e ?_ | refine own_okR e ?_ | with_reducible refine own_readAB (by assumption) ?_ | with_reducible refine own_writeS (by assumption) ?_ )

theorem own_tf1 {r_ : State} {g : Nat → Nat → Nat} {f : WForm} {s0 : State} {u_ : State} (e : State.tf1 g f s0 = .ok u_) (hw : OnCore r_ s0) : OnCore r_ u_ := by
  unfold State.tf1 at e
  try dsimp only at e
  repeat' (first | (with_reducible replace e := bind_ok e; obtain ⟨_, _, e⟩ := e) | split at e)
  all_goals repeat' (first | with_reducible assumption | exact own_error e | refine own_pureS e ?_ | refine own_okS e ?_ | refine own_pureR e ?_ | refine own_okR e ?_ | with_reducible refine own_writeS (by assumption) ?_ | with_reducible refine own_readS (by assumption) ?_ )

theorem own_tfmaOp {r_ : State} {f : WForm} {s0 : State} {u_ : State} (e : State.tfmaOp f s0 = .ok u_) (hw : OnCore r_ s0) : OnCore r_ u_ := by
  unfold State.tfmaOp at e
  try dsimp only at e
  repeat' (first | (with_reducible replace e := bind_ok e; obtain ⟨_, _, e⟩ := e) | split at e)
  all_goals repeat' (first | with_reducible assumption | exact own_error e | refine own_pureS e ?_ | refine own_okS e ?_ | refine own_pureR e ?_ | refine own_okR e ?_ | with_reducible refine own_readAB (by assumption) ?_ | with_reducible refine own_writeS (by assumption) ?_ | with_reducible refine own_readS (by assumption) ?_ )

theorem own_tcmpOp {r_ : State} {f : WForm} {s0 : State} {u_ : State} (e : State.tcmpOp f s0 = .ok u_) (hw : OnCore r_ s0) : OnCore r_ u_ := by
  unfold State.tcmpOp at e
  try dsimp only at e
  repeat' (first | (with_reducible replace e := bind_ok e; obtain ⟨_, _, e⟩ := e) | split at e)
  all_goals repeat' (first | with_reducible assumption | exact own_error e | refine own_pureS e ?_ | refine own_okS e ?_ | refine own_pureR e ?_ | refine own_okR e ?_ | apply own_writeP | with_reducible refine own_readAB (by assumption) ?_ )

theorem own_cvtOp {r_ : State} {f : WForm} {s0 : State} {u_ : State} (e : State.cvtOp f s0 = .ok u_) (hw : OnCore r_ s0) : OnCore r_ u_ := by
  unfold State.cvtOp at e
  try dsimp only at e
  repeat' (first | (with_reducible replace e := bind_ok e; obtain ⟨_, _, e⟩ := e) | split at e)
  all_goals repeat' (first | with_reducible assumption | exact own_error e | refine own_pureS e ?_ | refine own_okS e ?_ | refine own_pureR e ?_ | refine own_okR e ?_ | with_reducible refine own_writeS (by assumption) ?_ | with_reducible refine own_readS (by assumption) ?_ )

theorem own_setLanes {r_ : State} (s : State) (d : BitVec 6) (h : Nat → Option Lane) (hw : OnCore r_ s) : OnCore r_ (State.setLanes s d h) := by
  unfold State.setLanes
  try dsimp only
  repeat' (first | with_reducible assumption | apply own_modCtx )

theorem own_setSpools {r_ : State} (s : State) (d : BitVec 6) (h : Nat → Option Spool) (hw : OnCore r_ s) : OnCore r_ (State.setSpools s d h) := by
  unfold State.setSpools
  try dsimp only
  repeat' (first | with_reducible assumption | apply own_modCtx )

theorem own_readB {r_ : State} {s : State} {f : WForm} {u_ : Word × State} (e : State.readB s f = .ok u_) (hw : OnCore r_ s) : OnCore r_ u_.2 := by
  unfold State.readB at e
  try dsimp only at e
  repeat' (first | (with_reducible replace e := bind_ok e; obtain ⟨_, _, e⟩ := e) | split at e)
  all_goals repeat' (first | with_reducible assumption | exact own_error e | refine own_pureS e ?_ | refine own_okS e ?_ | refine own_pureR e ?_ | refine own_okR e ?_ | with_reducible refine own_readS (by assumption) ?_ )

theorem own_elementwise {r_ : State} (f : WForm) (srcs : List (BitVec 6)) (h : Nat → BitVec 32) (s : State) (hw : OnCore r_ s) : OnCore r_ (State.elementwise f srcs h s) := by
  unfold State.elementwise
  try dsimp only
  repeat' (first | with_reducible assumption | apply own_setLanes )

theorem own_vec2 {r_ : State} {f : WForm} {readsD : Bool} {sc : Word → BitVec 32} {h : BitVec 32 → BitVec 32 → BitVec 32 → BitVec 32} {s0 : State} {u_ : State} (e : State.vec2 f readsD sc h s0 = .ok u_) (hw : OnCore r_ s0) : OnCore r_ u_ := by
  unfold State.vec2 at e
  try dsimp only at e
  repeat' (first | (with_reducible replace e := bind_ok e; obtain ⟨_, _, e⟩ := e) | split at e)
  all_goals repeat' (first | with_reducible assumption | exact own_error e | refine own_pureS e ?_ | refine own_okS e ?_ | refine own_pureR e ?_ | refine own_okR e ?_ | apply own_elementwise | with_reducible refine own_readB (by assumption) ?_ )

theorem own_vecInt {r_ : State} {f : WForm} {g : Nat → Nat → Nat → Int} {s : State} {u_ : State} (e : State.vecInt f g s = .ok u_) (hw : OnCore r_ s) : OnCore r_ u_ := by
  unfold State.vecInt at e
  try dsimp only at e
  repeat' (first | (with_reducible replace e := bind_ok e; obtain ⟨_, _, e⟩ := e) | split at e)
  all_goals repeat' (first | with_reducible assumption | exact own_error e | refine own_pureS e ?_ | refine own_okS e ?_ | refine own_pureR e ?_ | refine own_okR e ?_ | with_reducible refine own_vec2 (by assumption) ?_ | apply own_elementwise | with_reducible refine own_readB (by assumption) ?_ )

theorem own_vec1 {r_ : State} {f : WForm} {h : BitVec 32 → BitVec 32} {s : State} {u_ : State} (e : State.vec1 f h s = .ok u_) (hw : OnCore r_ s) : OnCore r_ u_ := by
  unfold State.vec1 at e
  try dsimp only at e
  repeat' (first | (with_reducible replace e := bind_ok e; obtain ⟨_, _, e⟩ := e) | split at e)
  all_goals repeat' (first | with_reducible assumption | exact own_error e | refine own_pureS e ?_ | refine own_okS e ?_ | refine own_pureR e ?_ | refine own_okR e ?_ | apply own_elementwise )

theorem own_vec3 {r_ : State} {f : WForm} {sc : Word → BitVec 32} {h : BitVec 32 → BitVec 32 → BitVec 32 → BitVec 32} {s0 : State} {u_ : State} (e : State.vec3 f sc h s0 = .ok u_) (hw : OnCore r_ s0) : OnCore r_ u_ := by
  unfold State.vec3 at e
  try dsimp only at e
  repeat' (first | (with_reducible replace e := bind_ok e; obtain ⟨_, _, e⟩ := e) | split at e)
  all_goals repeat' (first | with_reducible assumption | exact own_error e | refine own_pureS e ?_ | refine own_okS e ?_ | refine own_pureR e ?_ | refine own_okR e ?_ | apply own_elementwise | with_reducible refine own_readB (by assumption) ?_ )

theorem own_vecFp {r_ : State} {f : WForm} {g : BitVec 32 → BitVec 32 → BitVec 32} {s : State} {u_ : State} (e : State.vecFp f g s = .ok u_) (hw : OnCore r_ s) : OnCore r_ u_ := by
  unfold State.vecFp at e
  try dsimp only at e
  repeat' (first | (with_reducible replace e := bind_ok e; obtain ⟨_, _, e⟩ := e) | split at e)
  all_goals repeat' (first | with_reducible assumption | exact own_error e | refine own_pureS e ?_ | refine own_okS e ?_ | refine own_pureR e ?_ | refine own_okR e ?_ | with_reducible refine own_vec2 (by assumption) ?_ | apply own_elementwise | with_reducible refine own_readB (by assumption) ?_ )

theorem own_vecReal {r_ : State} {f : WForm} {g : XReal → XReal} {s : State} {u_ : State} (e : State.vecReal f g s = .ok u_) (hw : OnCore r_ s) : OnCore r_ u_ := by
  unfold State.vecReal at e
  try dsimp only at e
  repeat' (first | (with_reducible replace e := bind_ok e; obtain ⟨_, _, e⟩ := e) | split at e)
  all_goals repeat' (first | with_reducible assumption | exact own_error e | refine own_pureS e ?_ | refine own_okS e ?_ | refine own_pureR e ?_ | refine own_okR e ?_ | with_reducible refine own_vec1 (by assumption) ?_ | apply own_elementwise )

theorem own_vecTf {r_ : State} {f : WForm} {g : Nat → Nat → Nat → Nat} {s : State} {u_ : State} (e : State.vecTf f g s = .ok u_) (hw : OnCore r_ s) : OnCore r_ u_ := by
  unfold State.vecTf at e
  try dsimp only at e
  repeat' (first | (with_reducible replace e := bind_ok e; obtain ⟨_, _, e⟩ := e) | split at e)
  all_goals repeat' (first | with_reducible assumption | exact own_error e | refine own_pureS e ?_ | refine own_okS e ?_ | refine own_pureR e ?_ | refine own_okR e ?_ | with_reducible refine own_vec2 (by assumption) ?_ | apply own_elementwise | with_reducible refine own_readB (by assumption) ?_ )

theorem own_lclaimOp {r_ : State} {f : WForm} {s : State} {u_ : State} (e : State.lclaimOp f s = .ok u_) (hw : OnCore r_ s) : OnCore r_ u_ := by
  unfold State.lclaimOp at e
  try dsimp only at e
  repeat' (first | (with_reducible replace e := bind_ok e; obtain ⟨_, _, e⟩ := e) | split at e)
  all_goals repeat' (first | with_reducible assumption | exact own_error e | refine own_pureS e ?_ | refine own_okS e ?_ | refine own_pureR e ?_ | refine own_okR e ?_ | with_reducible refine own_writeS (by assumption) ?_ | apply own_modCtx | apply own_modCur | apply own_setCell )

theorem own_lrelOp {r_ : State} {s : State} {u_ : State} (e : State.lrelOp s = .ok u_) (hw : OnCore r_ s) : OnCore r_ u_ := by
  unfold State.lrelOp at e
  try dsimp only at e
  repeat' (first | (with_reducible replace e := bind_ok e; obtain ⟨_, _, e⟩ := e) | split at e)
  all_goals repeat' (first | with_reducible assumption | exact own_error e | refine own_pureS e ?_ | refine own_okS e ?_ | refine own_pureR e ?_ | refine own_okR e ?_ | apply own_modCtx )

theorem own_lcountOp {r_ : State} {f : WForm} {s : State} {u_ : State} (e : State.lcountOp f s = .ok u_) (hw : OnCore r_ s) : OnCore r_ u_ := by
  unfold State.lcountOp at e
  try dsimp only at e
  repeat' (first | (with_reducible replace e := bind_ok e; obtain ⟨_, _, e⟩ := e) | split at e)
  all_goals repeat' (first | with_reducible assumption | exact own_error e | refine own_pureS e ?_ | refine own_okS e ?_ | refine own_pureR e ?_ | refine own_okR e ?_ | with_reducible refine own_writeS (by assumption) ?_ )

theorem own_vspzOp {r_ : State} {f : WForm} {s : State} {u_ : State} (e : State.vspzOp f s = .ok u_) (hw : OnCore r_ s) : OnCore r_ u_ := by
  unfold State.vspzOp at e
  try dsimp only at e
  repeat' (first | (with_reducible replace e := bind_ok e; obtain ⟨_, _, e⟩ := e) | split at e)
  all_goals repeat' (first | with_reducible assumption | exact own_error e | refine own_pureS e ?_ | refine own_okS e ?_ | refine own_pureR e ?_ | refine own_okR e ?_ | apply own_setSpools )

theorem own_vspfmaOp {r_ : State} {f : WForm} {s0 : State} {u_ : State} (e : State.vspfmaOp f s0 = .ok u_) (hw : OnCore r_ s0) : OnCore r_ u_ := by
  unfold State.vspfmaOp at e
  try dsimp only at e
  repeat' (first | (with_reducible replace e := bind_ok e; obtain ⟨_, _, e⟩ := e) | split at e)
  all_goals repeat' (first | with_reducible assumption | exact own_error e | refine own_pureS e ?_ | refine own_okS e ?_ | refine own_pureR e ?_ | refine own_okR e ?_ | with_reducible refine own_readB (by assumption) ?_ | apply own_setSpools )

theorem own_vsprndOp {r_ : State} {f : WForm} {s : State} {u_ : State} (e : State.vsprndOp f s = .ok u_) (hw : OnCore r_ s) : OnCore r_ u_ := by
  unfold State.vsprndOp at e
  try dsimp only at e
  repeat' (first | (with_reducible replace e := bind_ok e; obtain ⟨_, _, e⟩ := e) | split at e)
  all_goals repeat' (first | with_reducible assumption | exact own_error e | refine own_pureS e ?_ | refine own_okS e ?_ | refine own_pureR e ?_ | refine own_okR e ?_ | apply own_setLanes )

theorem own_setMask {r_ : State} (s : State) (d : BitVec 6) (h : Nat → Option Bool) (hw : OnCore r_ s) : OnCore r_ (State.setMask s d h) := by
  unfold State.setMask
  try dsimp only
  repeat' (first | with_reducible assumption | apply own_writeK )

theorem own_vcmpOp {r_ : State} {f : WForm} {g : BitVec 32 → BitVec 32 → Bool} {s0 : State} {u_ : State} (e : State.vcmpOp f g s0 = .ok u_) (hw : OnCore r_ s0) : OnCore r_ u_ := by
  unfold State.vcmpOp at e
  try dsimp only at e
  repeat' (first | (with_reducible replace e := bind_ok e; obtain ⟨_, _, e⟩ := e) | split at e)
  all_goals repeat' (first | with_reducible assumption | exact own_error e | refine own_pureS e ?_ | refine own_okS e ?_ | refine own_pureR e ?_ | refine own_okR e ?_ | apply own_setMask | with_reducible refine own_readB (by assumption) ?_ )

theorem own_vselOp {r_ : State} {f : WForm} {s0 : State} {u_ : State} (e : State.vselOp f s0 = .ok u_) (hw : OnCore r_ s0) : OnCore r_ u_ := by
  unfold State.vselOp at e
  try dsimp only at e
  repeat' (first | (with_reducible replace e := bind_ok e; obtain ⟨_, _, e⟩ := e) | split at e)
  all_goals repeat' (first | with_reducible assumption | exact own_error e | refine own_pureS e ?_ | refine own_okS e ?_ | refine own_pureR e ?_ | refine own_okR e ?_ | with_reducible refine own_readB (by assumption) ?_ | apply own_setLanes )

theorem own_maskOp {r_ : State} {g : BitVec 32 → BitVec 32 → BitVec 32} {f : WForm} {s : State} {u_ : State} (e : State.maskOp g f s = .ok u_) (hw : OnCore r_ s) : OnCore r_ u_ := by
  unfold State.maskOp at e
  try dsimp only at e
  repeat' (first | (with_reducible replace e := bind_ok e; obtain ⟨_, _, e⟩ := e) | split at e)
  all_goals repeat' (first | with_reducible assumption | exact own_error e | refine own_pureS e ?_ | refine own_okS e ?_ | refine own_pureR e ?_ | refine own_okR e ?_ | apply own_writeK )

theorem own_ksetOp {r_ : State} {f : WForm} {s0 : State} {u_ : State} (e : State.ksetOp f s0 = .ok u_) (hw : OnCore r_ s0) : OnCore r_ u_ := by
  unfold State.ksetOp at e
  try dsimp only at e
  repeat' (first | (with_reducible replace e := bind_ok e; obtain ⟨_, _, e⟩ := e) | split at e)
  all_goals repeat' (first | with_reducible assumption | exact own_error e | refine own_pureS e ?_ | refine own_okS e ?_ | refine own_pureR e ?_ | refine own_okR e ?_ | apply own_writeK | with_reducible refine own_readS (by assumption) ?_ )

theorem own_kgetOp {r_ : State} {f : WForm} {s : State} {u_ : State} (e : State.kgetOp f s = .ok u_) (hw : OnCore r_ s) : OnCore r_ u_ := by
  unfold State.kgetOp at e
  try dsimp only at e
  repeat' (first | (with_reducible replace e := bind_ok e; obtain ⟨_, _, e⟩ := e) | split at e)
  all_goals repeat' (first | with_reducible assumption | exact own_error e | refine own_pureS e ?_ | refine own_okS e ?_ | refine own_pureR e ?_ | refine own_okR e ?_ | with_reducible refine own_writeS (by assumption) ?_ )

theorem own_vcvtOp {r_ : State} {f : WForm} {s0 : State} {u_ : State} (e : State.vcvtOp f s0 = .ok u_) (hw : OnCore r_ s0) : OnCore r_ u_ := by
  unfold State.vcvtOp at e
  try dsimp only at e
  repeat' (first | (with_reducible replace e := bind_ok e; obtain ⟨_, _, e⟩ := e) | split at e)
  all_goals repeat' (first | with_reducible assumption | exact own_error e | refine own_pureS e ?_ | refine own_okS e ?_ | refine own_pureR e ?_ | refine own_okR e ?_ | apply own_elementwise | with_reducible refine own_readS (by assumption) ?_ )

theorem own_vpackOp {r_ : State} {f : WForm} {s : State} {u_ : State} (e : State.vpackOp f s = .ok u_) (hw : OnCore r_ s) : OnCore r_ u_ := by
  unfold State.vpackOp at e
  try dsimp only at e
  repeat' (first | (with_reducible replace e := bind_ok e; obtain ⟨_, _, e⟩ := e) | split at e)
  all_goals repeat' (first | with_reducible assumption | exact own_error e | refine own_pureS e ?_ | refine own_okS e ?_ | refine own_pureR e ?_ | refine own_okR e ?_ | apply own_setLanes )

theorem own_vunpackOp {r_ : State} {f : WForm} {s : State} {u_ : State} (e : State.vunpackOp f s = .ok u_) (hw : OnCore r_ s) : OnCore r_ u_ := by
  unfold State.vunpackOp at e
  try dsimp only at e
  repeat' (first | (with_reducible replace e := bind_ok e; obtain ⟨_, _, e⟩ := e) | split at e)
  all_goals repeat' (first | with_reducible assumption | exact own_error e | refine own_pureS e ?_ | refine own_okS e ?_ | refine own_pureR e ?_ | refine own_okR e ?_ | apply own_setLanes )

theorem own_vbcastOp {r_ : State} {f : WForm} {s0 : State} {u_ : State} (e : State.vbcastOp f s0 = .ok u_) (hw : OnCore r_ s0) : OnCore r_ u_ := by
  unfold State.vbcastOp at e
  try dsimp only at e
  repeat' (first | (with_reducible replace e := bind_ok e; obtain ⟨_, _, e⟩ := e) | split at e)
  all_goals repeat' (first | with_reducible assumption | exact own_error e | refine own_pureS e ?_ | refine own_okS e ?_ | refine own_pureR e ?_ | refine own_okR e ?_ | apply own_setLanes | with_reducible refine own_readS (by assumption) ?_ )

theorem own_vextOp {r_ : State} {f : WForm} {s0 : State} {u_ : State} (e : State.vextOp f s0 = .ok u_) (hw : OnCore r_ s0) : OnCore r_ u_ := by
  unfold State.vextOp at e
  try dsimp only at e
  repeat' (first | (with_reducible replace e := bind_ok e; obtain ⟨_, _, e⟩ := e) | split at e)
  all_goals repeat' (first | with_reducible assumption | exact own_error e | refine own_pureS e ?_ | refine own_okS e ?_ | refine own_pureR e ?_ | refine own_okR e ?_ | with_reducible refine own_writeS (by assumption) ?_ | with_reducible refine own_readS (by assumption) ?_ )

theorem own_vpermOp {r_ : State} {f : WForm} {s0 : State} {u_ : State} (e : State.vpermOp f s0 = .ok u_) (hw : OnCore r_ s0) : OnCore r_ u_ := by
  unfold State.vpermOp at e
  try dsimp only at e
  repeat' (first | (with_reducible replace e := bind_ok e; obtain ⟨_, _, e⟩ := e) | split at e)
  all_goals repeat' (first | with_reducible assumption | exact own_error e | refine own_pureS e ?_ | refine own_okS e ?_ | refine own_pureR e ?_ | refine own_okR e ?_ | apply own_setLanes | with_reducible refine own_readS (by assumption) ?_ )

theorem own_vslideOp {r_ : State} {f : WForm} {s0 : State} {u_ : State} (e : State.vslideOp f s0 = .ok u_) (hw : OnCore r_ s0) : OnCore r_ u_ := by
  unfold State.vslideOp at e
  try dsimp only at e
  repeat' (first | (with_reducible replace e := bind_ok e; obtain ⟨_, _, e⟩ := e) | split at e)
  all_goals repeat' (first | with_reducible assumption | exact own_error e | refine own_pureS e ?_ | refine own_okS e ?_ | refine own_pureR e ?_ | refine own_okR e ?_ | apply own_setLanes | with_reducible refine own_readS (by assumption) ?_ )

theorem own_vredOp {r_ : State} {f : WForm} {s0 : State} {u_ : State} (e : State.vredOp f s0 = .ok u_) (hw : OnCore r_ s0) : OnCore r_ u_ := by
  unfold State.vredOp at e
  try dsimp only at e
  repeat' (first | (with_reducible replace e := bind_ok e; obtain ⟨_, _, e⟩ := e) | split at e)
  all_goals repeat' (first | with_reducible assumption | exact own_error e | refine own_pureS e ?_ | refine own_okS e ?_ | refine own_pureR e ?_ | refine own_okR e ?_ | apply own_writeY | with_reducible refine own_writeS (by assumption) ?_ | with_reducible refine own_readS (by assumption) ?_ )

theorem own_vscanOp {r_ : State} {f : WForm} {s0 : State} {u_ : State} (e : State.vscanOp f s0 = .ok u_) (hw : OnCore r_ s0) : OnCore r_ u_ := by
  unfold State.vscanOp at e
  try dsimp only at e
  repeat' (first | (with_reducible replace e := bind_ok e; obtain ⟨_, _, e⟩ := e) | split at e)
  all_goals repeat' (first | with_reducible assumption | exact own_error e | refine own_pureS e ?_ | refine own_okS e ?_ | refine own_pureR e ?_ | refine own_okR e ?_ | apply own_setLanes | with_reducible refine own_readS (by assumption) ?_ )

theorem own_binOp {r_ : State} {g : Word → Word → Word} {f : WForm} {s0 : State} {u_ : State} (e : State.binOp g f s0 = .ok u_) (hw : OnCore r_ s0) : OnCore r_ u_ := by
  unfold State.binOp at e
  try dsimp only at e
  repeat' (first | (with_reducible replace e := bind_ok e; obtain ⟨_, _, e⟩ := e) | split at e)
  all_goals repeat' (first | with_reducible assumption | exact own_error e | refine own_pureS e ?_ | refine own_okS e ?_ | refine own_pureR e ?_ | refine own_okR e ?_ | with_reducible refine own_readAB (by assumption) ?_ | with_reducible refine own_writeS (by assumption) ?_ )

theorem own_unOp {r_ : State} {g : Word → Word} {f : WForm} {s0 : State} {u_ : State} (e : State.unOp g f s0 = .ok u_) (hw : OnCore r_ s0) : OnCore r_ u_ := by
  unfold State.unOp at e
  try dsimp only at e
  repeat' (first | (with_reducible replace e := bind_ok e; obtain ⟨_, _, e⟩ := e) | split at e)
  all_goals repeat' (first | with_reducible assumption | exact own_error e | refine own_pureS e ?_ | refine own_okS e ?_ | refine own_pureR e ?_ | refine own_okR e ?_ | with_reducible refine own_writeS (by assumption) ?_ | with_reducible refine own_readS (by assumption) ?_ )

theorem own_binsOp {r_ : State} {f : WForm} {s0 : State} {u_ : State} (e : State.binsOp f s0 = .ok u_) (hw : OnCore r_ s0) : OnCore r_ u_ := by
  unfold State.binsOp at e
  try dsimp only at e
  repeat' (first | (with_reducible replace e := bind_ok e; obtain ⟨_, _, e⟩ := e) | split at e)
  all_goals repeat' (first | with_reducible assumption | exact own_error e | refine own_pureS e ?_ | refine own_okS e ?_ | refine own_pureR e ?_ | refine own_okR e ?_ | with_reducible refine own_writeS (by assumption) ?_ | with_reducible refine own_readS (by assumption) ?_ )

theorem own_cmpOp {r_ : State} {f : WForm} {s0 : State} {u_ : State} (e : State.cmpOp f s0 = .ok u_) (hw : OnCore r_ s0) : OnCore r_ u_ := by
  unfold State.cmpOp at e
  try dsimp only at e
  repeat' (first | (with_reducible replace e := bind_ok e; obtain ⟨_, _, e⟩ := e) | split at e)
  all_goals repeat' (first | with_reducible assumption | exact own_error e | refine own_pureS e ?_ | refine own_okS e ?_ | refine own_pureR e ?_ | refine own_okR e ?_ | apply own_writeP | with_reducible refine own_readAB (by assumption) ?_ )

theorem own_cmpiOp {r_ : State} {f : WForm} {y : Word} {s0 : State} {u_ : State} (e : State.cmpiOp f y s0 = .ok u_) (hw : OnCore r_ s0) : OnCore r_ u_ := by
  unfold State.cmpiOp at e
  try dsimp only at e
  repeat' (first | (with_reducible replace e := bind_ok e; obtain ⟨_, _, e⟩ := e) | split at e)
  all_goals repeat' (first | with_reducible assumption | exact own_error e | refine own_pureS e ?_ | refine own_okS e ?_ | refine own_pureR e ?_ | refine own_okR e ?_ | apply own_writeP | with_reducible refine own_readS (by assumption) ?_ )

theorem own_predOp {r_ : State} {g : Bool → Bool → Bool} {f : WForm} {s : State} {u_ : State} (e : State.predOp g f s = .ok u_) (hw : OnCore r_ s) : OnCore r_ u_ := by
  unfold State.predOp at e
  try dsimp only at e
  repeat' (first | (with_reducible replace e := bind_ok e; obtain ⟨_, _, e⟩ := e) | split at e)
  all_goals repeat' (first | with_reducible assumption | exact own_error e | refine own_pureS e ?_ | refine own_okS e ?_ | refine own_pureR e ?_ | refine own_okR e ?_ | apply own_writeP )

theorem own_psetOp {r_ : State} {f : WForm} {s0 : State} {u_ : State} (e : State.psetOp f s0 = .ok u_) (hw : OnCore r_ s0) : OnCore r_ u_ := by
  unfold State.psetOp at e
  try dsimp only at e
  repeat' (first | (with_reducible replace e := bind_ok e; obtain ⟨_, _, e⟩ := e) | split at e)
  all_goals repeat' (first | with_reducible assumption | exact own_error e | refine own_pureS e ?_ | refine own_okS e ?_ | refine own_pureR e ?_ | refine own_okR e ?_ | with_reducible refine own_readS (by assumption) ?_ | apply own_modCtx )

theorem own_pgetOp {r_ : State} {f : WForm} {s : State} {u_ : State} (e : State.pgetOp f s = .ok u_) (hw : OnCore r_ s) : OnCore r_ u_ := by
  unfold State.pgetOp at e
  try dsimp only at e
  repeat' (first | (with_reducible replace e := bind_ok e; obtain ⟨_, _, e⟩ := e) | split at e)
  all_goals repeat' (first | with_reducible assumption | exact own_error e | refine own_pureS e ?_ | refine own_okS e ?_ | refine own_pureR e ?_ | refine own_okR e ?_ | with_reducible refine own_writeS (by assumption) ?_ )

theorem own_selOp {r_ : State} {f : WForm} {s0 : State} {u_ : State} (e : State.selOp f s0 = .ok u_) (hw : OnCore r_ s0) : OnCore r_ u_ := by
  unfold State.selOp at e
  try dsimp only at e
  repeat' (first | (with_reducible replace e := bind_ok e; obtain ⟨_, _, e⟩ := e) | split at e)
  all_goals repeat' (first | with_reducible assumption | exact own_error e | refine own_pureS e ?_ | refine own_okS e ?_ | refine own_pureR e ?_ | refine own_okR e ?_ | with_reducible refine own_readAB (by assumption) ?_ | with_reducible refine own_writeS (by assumption) ?_ )

theorem own_leaOp {r_ : State} {f : WForm} {i : Word} {s0 : State} {u_ : State} (e : State.leaOp f i s0 = .ok u_) (hw : OnCore r_ s0) : OnCore r_ u_ := by
  unfold State.leaOp at e
  try dsimp only at e
  repeat' (first | (with_reducible replace e := bind_ok e; obtain ⟨_, _, e⟩ := e) | split at e)
  all_goals repeat' (first | with_reducible assumption | exact own_error e | refine own_pureS e ?_ | refine own_okS e ?_ | refine own_pureR e ?_ | refine own_okR e ?_ | with_reducible refine own_readAB (by assumption) ?_ | with_reducible refine own_writeS (by assumption) ?_ )

theorem own_rdcycOp {r_ : State} {f : WForm} {s : State} {u_ : State} (e : State.rdcycOp f s = .ok u_) (hw : OnCore r_ s) : OnCore r_ u_ := by
  unfold State.rdcycOp at e
  try dsimp only at e
  repeat' (first | (with_reducible replace e := bind_ok e; obtain ⟨_, _, e⟩ := e) | split at e)
  all_goals repeat' (first | with_reducible assumption | exact own_error e | refine own_pureS e ?_ | refine own_okS e ?_ | refine own_pureR e ?_ | refine own_okR e ?_ | with_reducible refine own_writeS (by assumption) ?_ )

theorem own_rdcntOp {r_ : State} {f : WForm} {s : State} {u_ : State} (e : State.rdcntOp f s = .ok u_) (hw : OnCore r_ s) : OnCore r_ u_ := by
  unfold State.rdcntOp at e
  try dsimp only at e
  repeat' (first | (with_reducible replace e := bind_ok e; obtain ⟨_, _, e⟩ := e) | split at e)
  all_goals repeat' (first | with_reducible assumption | exact own_error e | refine own_pureS e ?_ | refine own_okS e ?_ | refine own_pureR e ?_ | refine own_okR e ?_ | with_reducible refine own_writeS (by assumption) ?_ | apply own_modCtx | apply own_modCur )

theorem own_jump {r_ : State} {t : Word} {s : State} {u_ : State} (e : State.jump t s = .ok u_) (hw : OnCore r_ s) : OnCore r_ u_ := by
  unfold State.jump at e
  try dsimp only at e
  repeat' (first | (with_reducible replace e := bind_ok e; obtain ⟨_, _, e⟩ := e) | split at e)
  all_goals repeat' (first | with_reducible assumption | exact own_error e | refine own_pureS e ?_ | refine own_okS e ?_ | refine own_pureR e ?_ | refine own_okR e ?_ | apply own_modCtx )

theorem own_brOp {r_ : State} {i : Word} {s : State} {u_ : State} (e : State.brOp i s = .ok u_) (hw : OnCore r_ s) : OnCore r_ u_ := by
  unfold State.brOp at e
  try dsimp only at e
  repeat' (first | (with_reducible replace e := bind_ok e; obtain ⟨_, _, e⟩ := e) | split at e)
  all_goals repeat' (first | with_reducible assumption | exact own_error e | refine own_pureS e ?_ | refine own_okS e ?_ | refine own_pureR e ?_ | refine own_okR e ?_ | with_reducible refine own_jump (by assumption) ?_ | apply own_modCtx )

theorem own_brxOp {r_ : State} {f : WForm} {s0 : State} {u_ : State} (e : State.brxOp f s0 = .ok u_) (hw : OnCore r_ s0) : OnCore r_ u_ := by
  unfold State.brxOp at e
  try dsimp only at e
  repeat' (first | (with_reducible replace e := bind_ok e; obtain ⟨_, _, e⟩ := e) | split at e)
  all_goals repeat' (first | with_reducible assumption | exact own_error e | refine own_pureS e ?_ | refine own_okS e ?_ | refine own_pureR e ?_ | refine own_okR e ?_ | with_reducible refine own_jump (by assumption) ?_ | with_reducible refine own_readS (by assumption) ?_ | apply own_modCtx )

theorem own_callOp {r_ : State} {i : Word} {s : State} {u_ : State} (e : State.callOp i s = .ok u_) (hw : OnCore r_ s) : OnCore r_ u_ := by
  unfold State.callOp at e
  try dsimp only at e
  repeat' (first | (with_reducible replace e := bind_ok e; obtain ⟨_, _, e⟩ := e) | split at e)
  all_goals repeat' (first | with_reducible assumption | exact own_error e | refine own_pureS e ?_ | refine own_okS e ?_ | refine own_pureR e ?_ | refine own_okR e ?_ | with_reducible refine own_jump (by assumption) ?_ | apply own_modCtx )

theorem own_retOp {r_ : State} {s : State} {u_ : State} (e : State.retOp s = .ok u_) (hw : OnCore r_ s) : OnCore r_ u_ := by
  unfold State.retOp at e
  try dsimp only at e
  repeat' (first | (with_reducible replace e := bind_ok e; obtain ⟨_, _, e⟩ := e) | split at e)
  all_goals repeat' (first | with_reducible assumption | exact own_error e | refine own_pureS e ?_ | refine own_okS e ?_ | refine own_pureR e ?_ | refine own_okR e ?_ | with_reducible refine own_jump (by assumption) ?_ | apply own_modCtx )

theorem own_endOp {r_ : State} {s : State} {u_ : State} (e : State.endOp s = .ok u_) (hw : OnCore r_ s) : OnCore r_ u_ := by
  unfold State.endOp at e
  try dsimp only at e
  repeat' (first | (with_reducible replace e := bind_ok e; obtain ⟨_, _, e⟩ := e) | split at e)
  all_goals repeat' (first | with_reducible assumption | exact own_error e | refine own_pureS e ?_ | refine own_okS e ?_ | refine own_pureR e ?_ | refine own_okR e ?_ | apply own_modCtx | apply own_modCur )

theorem registers_addC : ∀ f s, ∃ u, exec (.addC f) s = .next u ∧ OnCore s u := by
  intro f s
  rw [exec_addC]
  exact own_issue (fun t u e h => own_binOp e h)

theorem registers_add : ∀ f s, ∃ u, exec (.add f) s = .next u ∧ OnCore s u := by
  intro f s
  rw [exec_add]
  exact own_issue (fun t u e h => own_binOp e h)

theorem registers_subC : ∀ f s, ∃ u, exec (.subC f) s = .next u ∧ OnCore s u := by
  intro f s
  rw [exec_subC]
  exact own_issue (fun t u e h => own_binOp e h)

theorem registers_sub : ∀ f s, ∃ u, exec (.sub f) s = .next u ∧ OnCore s u := by
  intro f s
  rw [exec_sub]
  exact own_issue (fun t u e h => own_binOp e h)

theorem registers_mul : ∀ f s, ∃ u, exec (.mul f) s = .next u ∧ OnCore s u := by
  intro f s
  rw [exec_mul]
  exact own_issue (fun t u e h => own_binOp e h)

theorem registers_mulh : ∀ f s, ∃ u, exec (.mulh f) s = .next u ∧ OnCore s u := by
  intro f s
  rw [exec_mulh]
  exact own_issue (fun t u e h => own_binOp e h)

theorem registers_mulhu : ∀ f s, ∃ u, exec (.mulhu f) s = .next u ∧ OnCore s u := by
  intro f s
  rw [exec_mulhu]
  exact own_issue (fun t u e h => own_binOp e h)

theorem registers_div : ∀ f s, ∃ u, exec (.div f) s = .next u ∧ OnCore s u := by
  intro f s
  rw [exec_div]
  exact own_issue (fun t u e h => own_binOp e h)

theorem registers_divu : ∀ f s, ∃ u, exec (.divu f) s = .next u ∧ OnCore s u := by
  intro f s
  rw [exec_divu]
  exact own_issue (fun t u e h => own_binOp e h)

theorem registers_rem : ∀ f s, ∃ u, exec (.rem f) s = .next u ∧ OnCore s u := by
  intro f s
  rw [exec_rem]
  exact own_issue (fun t u e h => own_binOp e h)

theorem registers_remu : ∀ f s, ∃ u, exec (.remu f) s = .next u ∧ OnCore s u := by
  intro f s
  rw [exec_remu]
  exact own_issue (fun t u e h => own_binOp e h)

theorem registers_andC : ∀ f s, ∃ u, exec (.andC f) s = .next u ∧ OnCore s u := by
  intro f s
  rw [exec_andC]
  exact own_issue (fun t u e h => own_binOp e h)

theorem registers_and : ∀ f s, ∃ u, exec (.and f) s = .next u ∧ OnCore s u := by
  intro f s
  rw [exec_and]
  exact own_issue (fun t u e h => own_binOp e h)

theorem registers_orC : ∀ f s, ∃ u, exec (.orC f) s = .next u ∧ OnCore s u := by
  intro f s
  rw [exec_orC]
  exact own_issue (fun t u e h => own_binOp e h)

theorem registers_or : ∀ f s, ∃ u, exec (.or f) s = .next u ∧ OnCore s u := by
  intro f s
  rw [exec_or]
  exact own_issue (fun t u e h => own_binOp e h)

theorem registers_xorC : ∀ f s, ∃ u, exec (.xorC f) s = .next u ∧ OnCore s u := by
  intro f s
  rw [exec_xorC]
  exact own_issue (fun t u e h => own_binOp e h)

theorem registers_xor : ∀ f s, ∃ u, exec (.xor f) s = .next u ∧ OnCore s u := by
  intro f s
  rw [exec_xor]
  exact own_issue (fun t u e h => own_binOp e h)

theorem registers_andn : ∀ f s, ∃ u, exec (.andn f) s = .next u ∧ OnCore s u := by
  intro f s
  rw [exec_andn]
  exact own_issue (fun t u e h => own_binOp e h)

theorem registers_shlC : ∀ f s, ∃ u, exec (.shlC f) s = .next u ∧ OnCore s u := by
  intro f s
  rw [exec_shlC]
  exact own_issue (fun t u e h => own_binOp e h)

theorem registers_shl : ∀ f s, ∃ u, exec (.shl f) s = .next u ∧ OnCore s u := by
  intro f s
  rw [exec_shl]
  exact own_issue (fun t u e h => own_binOp e h)

theorem registers_shrC : ∀ f s, ∃ u, exec (.shrC f) s = .next u ∧ OnCore s u := by
  intro f s
  rw [exec_shrC]
  exact own_issue (fun t u e h => own_binOp e h)

theorem registers_shr : ∀ f s, ∃ u, exec (.shr f) s = .next u ∧ OnCore s u := by
  intro f s
  rw [exec_shr]
  exact own_issue (fun t u e h => own_binOp e h)

theorem registers_sarC : ∀ f s, ∃ u, exec (.sarC f) s = .next u ∧ OnCore s u := by
  intro f s
  rw [exec_sarC]
  exact own_issue (fun t u e h => own_binOp e h)

theorem registers_sar : ∀ f s, ∃ u, exec (.sar f) s = .next u ∧ OnCore s u := by
  intro f s
  rw [exec_sar]
  exact own_issue (fun t u e h => own_binOp e h)

theorem registers_rol : ∀ f s, ∃ u, exec (.rol f) s = .next u ∧ OnCore s u := by
  intro f s
  rw [exec_rol]
  exact own_issue (fun t u e h => own_binOp e h)

theorem registers_min : ∀ f s, ∃ u, exec (.min f) s = .next u ∧ OnCore s u := by
  intro f s
  rw [exec_min]
  exact own_issue (fun t u e h => own_binOp e h)

theorem registers_max : ∀ f s, ∃ u, exec (.max f) s = .next u ∧ OnCore s u := by
  intro f s
  rw [exec_max]
  exact own_issue (fun t u e h => own_binOp e h)

theorem registers_minu : ∀ f s, ∃ u, exec (.minu f) s = .next u ∧ OnCore s u := by
  intro f s
  rw [exec_minu]
  exact own_issue (fun t u e h => own_binOp e h)

theorem registers_maxu : ∀ f s, ∃ u, exec (.maxu f) s = .next u ∧ OnCore s u := by
  intro f s
  rw [exec_maxu]
  exact own_issue (fun t u e h => own_binOp e h)

theorem registers_addi : ∀ f s, ∃ u, exec (.addi f) s = .next u ∧ OnCore s u := by
  intro f s
  rw [exec_addi]
  exact own_issue (fun t u e h => own_unOp e h)

theorem registers_addiX : ∀ f s, ∃ u, exec (.addiX f) s = .next u ∧ OnCore s u := by
  intro f s
  rw [exec_addiX]
  exact own_issue (fun t u e h => own_unOp e h)

theorem registers_andi : ∀ f s, ∃ u, exec (.andi f) s = .next u ∧ OnCore s u := by
  intro f s
  rw [exec_andi]
  exact own_issue (fun t u e h => own_unOp e h)

theorem registers_andiX : ∀ f s, ∃ u, exec (.andiX f) s = .next u ∧ OnCore s u := by
  intro f s
  rw [exec_andiX]
  exact own_issue (fun t u e h => own_unOp e h)

theorem registers_ori : ∀ f s, ∃ u, exec (.ori f) s = .next u ∧ OnCore s u := by
  intro f s
  rw [exec_ori]
  exact own_issue (fun t u e h => own_unOp e h)

theorem registers_oriX : ∀ f s, ∃ u, exec (.oriX f) s = .next u ∧ OnCore s u := by
  intro f s
  rw [exec_oriX]
  exact own_issue (fun t u e h => own_unOp e h)

theorem registers_xori : ∀ f s, ∃ u, exec (.xori f) s = .next u ∧ OnCore s u := by
  intro f s
  rw [exec_xori]
  exact own_issue (fun t u e h => own_unOp e h)

theorem registers_xoriX : ∀ f s, ∃ u, exec (.xoriX f) s = .next u ∧ OnCore s u := by
  intro f s
  rw [exec_xoriX]
  exact own_issue (fun t u e h => own_unOp e h)

theorem registers_shli : ∀ f s, ∃ u, exec (.shli f) s = .next u ∧ OnCore s u := by
  intro f s
  rw [exec_shli]
  exact own_issue (fun t u e h => own_unOp e h)

theorem registers_shliX : ∀ f s, ∃ u, exec (.shliX f) s = .next u ∧ OnCore s u := by
  intro f s
  rw [exec_shliX]
  exact own_issue (fun t u e h => own_unOp e h)

theorem registers_shri : ∀ f s, ∃ u, exec (.shri f) s = .next u ∧ OnCore s u := by
  intro f s
  rw [exec_shri]
  exact own_issue (fun t u e h => own_unOp e h)

theorem registers_shriX : ∀ f s, ∃ u, exec (.shriX f) s = .next u ∧ OnCore s u := by
  intro f s
  rw [exec_shriX]
  exact own_issue (fun t u e h => own_unOp e h)

theorem registers_sari : ∀ f s, ∃ u, exec (.sari f) s = .next u ∧ OnCore s u := by
  intro f s
  rw [exec_sari]
  exact own_issue (fun t u e h => own_unOp e h)

theorem registers_sariX : ∀ f s, ∃ u, exec (.sariX f) s = .next u ∧ OnCore s u := by
  intro f s
  rw [exec_sariX]
  exact own_issue (fun t u e h => own_unOp e h)

theorem registers_muli : ∀ f s, ∃ u, exec (.muli f) s = .next u ∧ OnCore s u := by
  intro f s
  rw [exec_muli]
  exact own_issue (fun t u e h => own_unOp e h)

theorem registers_muliX : ∀ f s, ∃ u, exec (.muliX f) s = .next u ∧ OnCore s u := by
  intro f s
  rw [exec_muliX]
  exact own_issue (fun t u e h => own_unOp e h)

theorem registers_clz : ∀ f s, ∃ u, exec (.clz f) s = .next u ∧ OnCore s u := by
  intro f s
  rw [exec_clz]
  exact own_issue (fun t u e h => own_unOp e h)

theorem registers_ctz : ∀ f s, ∃ u, exec (.ctz f) s = .next u ∧ OnCore s u := by
  intro f s
  rw [exec_ctz]
  exact own_issue (fun t u e h => own_unOp e h)

theorem registers_popc : ∀ f s, ∃ u, exec (.popc f) s = .next u ∧ OnCore s u := by
  intro f s
  rw [exec_popc]
  exact own_issue (fun t u e h => own_unOp e h)

theorem registers_brev : ∀ f s, ∃ u, exec (.brev f) s = .next u ∧ OnCore s u := by
  intro f s
  rw [exec_brev]
  exact own_issue (fun t u e h => own_unOp e h)

theorem registers_bext : ∀ f s, ∃ u, exec (.bext f) s = .next u ∧ OnCore s u := by
  intro f s
  rw [exec_bext]
  exact own_issue (fun t u e h => own_unOp e h)

theorem registers_bins : ∀ f s, ∃ u, exec (.bins f) s = .next u ∧ OnCore s u := by
  intro f s
  rw [exec_bins]
  exact own_issue (fun t u e h => own_binsOp e h)

theorem registers_sext : ∀ f s, ∃ u, exec (.sext f) s = .next u ∧ OnCore s u := by
  intro f s
  rw [exec_sext]
  exact own_issue (fun t u e h => own_unOp e h)

theorem registers_zext : ∀ f s, ∃ u, exec (.zext f) s = .next u ∧ OnCore s u := by
  intro f s
  rw [exec_zext]
  exact own_issue (fun t u e h => own_unOp e h)

theorem registers_cmp : ∀ f s, ∃ u, exec (.cmp f) s = .next u ∧ OnCore s u := by
  intro f s
  rw [exec_cmp]
  exact own_issue (fun t u e h => own_cmpOp e h)

theorem registers_cmpi : ∀ f s, ∃ u, exec (.cmpi f) s = .next u ∧ OnCore s u := by
  intro f s
  rw [exec_cmpi]
  exact own_issue (fun t u e h => own_cmpiOp e h)

theorem registers_cmpiX : ∀ f s, ∃ u, exec (.cmpiX f) s = .next u ∧ OnCore s u := by
  intro f s
  rw [exec_cmpiX]
  exact own_issue (fun t u e h => own_cmpiOp e h)

theorem registers_pand : ∀ f s, ∃ u, exec (.pand f) s = .next u ∧ OnCore s u := by
  intro f s
  rw [exec_pand]
  exact own_issue (fun t u e h => own_predOp e h)

theorem registers_por : ∀ f s, ∃ u, exec (.por f) s = .next u ∧ OnCore s u := by
  intro f s
  rw [exec_por]
  exact own_issue (fun t u e h => own_predOp e h)

theorem registers_pxor : ∀ f s, ∃ u, exec (.pxor f) s = .next u ∧ OnCore s u := by
  intro f s
  rw [exec_pxor]
  exact own_issue (fun t u e h => own_predOp e h)

theorem registers_pnot : ∀ f s, ∃ u, exec (.pnot f) s = .next u ∧ OnCore s u := by
  intro f s
  rw [exec_pnot]
  exact own_issue (fun t u e h => own_predOp e h)

theorem registers_pset : ∀ f s, ∃ u, exec (.pset f) s = .next u ∧ OnCore s u := by
  intro f s
  rw [exec_pset]
  exact own_issue (fun t u e h => own_psetOp e h)

theorem registers_pget : ∀ f s, ∃ u, exec (.pget f) s = .next u ∧ OnCore s u := by
  intro f s
  rw [exec_pget]
  exact own_issue (fun t u e h => own_pgetOp e h)

theorem registers_sel : ∀ f s, ∃ u, exec (.sel f) s = .next u ∧ OnCore s u := by
  intro f s
  rw [exec_sel]
  exact own_issue (fun t u e h => own_selOp e h)

theorem registers_lea : ∀ f s, ∃ u, exec (.lea f) s = .next u ∧ OnCore s u := by
  intro f s
  rw [exec_lea]
  exact own_issue (fun t u e h => own_leaOp e h)

theorem registers_leaX : ∀ f s, ∃ u, exec (.leaX f) s = .next u ∧ OnCore s u := by
  intro f s
  rw [exec_leaX]
  exact own_issue (fun t u e h => own_leaOp e h)

theorem registers_nopC : ∀ f s, ∃ u, exec (.nopC f) s = .next u ∧ OnCore s u := by
  intro f s
  rw [exec_nopC]
  exact own_issue (fun t u e h => by cases e; exact h)

theorem registers_nop : ∀ f s, ∃ u, exec (.nop f) s = .next u ∧ OnCore s u := by
  intro f s
  rw [exec_nop]
  exact own_issue (fun t u e h => by cases e; exact h)

theorem registers_hint : ∀ f s, ∃ u, exec (.hint f) s = .next u ∧ OnCore s u := by
  intro f s
  rw [exec_hint]
  exact own_issue (fun t u e h => by cases e; exact h)

theorem registers_hintX : ∀ f s, ∃ u, exec (.hintX f) s = .next u ∧ OnCore s u := by
  intro f s
  rw [exec_hintX]
  exact own_issue (fun t u e h => by cases e; exact h)

theorem registers_rdcyc : ∀ f s, ∃ u, exec (.rdcyc f) s = .next u ∧ OnCore s u := by
  intro f s
  rw [exec_rdcyc]
  exact own_issue (fun t u e h => own_rdcycOp e h)

theorem registers_rdcnt : ∀ f s, ∃ u, exec (.rdcnt f) s = .next u ∧ OnCore s u := by
  intro f s
  rw [exec_rdcnt]
  exact own_issue (fun t u e h => own_rdcntOp e h)

theorem registers_br : ∀ f s, ∃ u, exec (.br f) s = .next u ∧ OnCore s u := by
  intro f s
  rw [exec_br]
  exact own_issue (fun t u e h => own_brOp e h)

theorem registers_brX : ∀ f s, ∃ u, exec (.brX f) s = .next u ∧ OnCore s u := by
  intro f s
  rw [exec_brX]
  exact own_issue (fun t u e h => own_brOp e h)

theorem registers_brx : ∀ f s, ∃ u, exec (.brx f) s = .next u ∧ OnCore s u := by
  intro f s
  rw [exec_brx]
  exact own_issue (fun t u e h => own_brxOp e h)

theorem registers_call : ∀ f s, ∃ u, exec (.call f) s = .next u ∧ OnCore s u := by
  intro f s
  rw [exec_call]
  exact own_issue (fun t u e h => own_callOp e h)

theorem registers_callX : ∀ f s, ∃ u, exec (.callX f) s = .next u ∧ OnCore s u := by
  intro f s
  rw [exec_callX]
  exact own_issue (fun t u e h => own_callOp e h)

theorem registers_ret : ∀ f s, ∃ u, exec (.ret f) s = .next u ∧ OnCore s u := by
  intro f s
  rw [exec_ret]
  exact own_issue (fun t u e h => own_retOp e h)

theorem registers_endC : ∀ f s, ∃ u, exec (.endC f) s = .next u ∧ OnCore s u := by
  intro f s
  rw [exec_endC]
  exact own_issue (fun t u e h => own_endOp e h)

theorem registers_endW : ∀ f s, ∃ u, exec (.endW f) s = .next u ∧ OnCore s u := by
  intro f s
  rw [exec_endW]
  exact own_issue (fun t u e h => own_endOp e h)

theorem registers_fadd : ∀ f s, ∃ u, exec (.fadd f) s = .next u ∧ OnCore s u := by
  intro f s
  rw [exec_fadd]
  exact own_issue (fun t u e h => own_fp2 e h)

theorem registers_fsub : ∀ f s, ∃ u, exec (.fsub f) s = .next u ∧ OnCore s u := by
  intro f s
  rw [exec_fsub]
  exact own_issue (fun t u e h => own_fp2 e h)

theorem registers_fmul : ∀ f s, ∃ u, exec (.fmul f) s = .next u ∧ OnCore s u := by
  intro f s
  rw [exec_fmul]
  exact own_issue (fun t u e h => own_fp2 e h)

theorem registers_ffma : ∀ f s, ∃ u, exec (.ffma f) s = .next u ∧ OnCore s u := by
  intro f s
  rw [exec_ffma]
  exact own_issue (fun t u e h => own_ffmaOp e h)

theorem registers_fdiv : ∀ f s, ∃ u, exec (.fdiv f) s = .next u ∧ OnCore s u := by
  intro f s
  rw [exec_fdiv]
  exact own_issue (fun t u e h => own_fp2 e h)

theorem registers_fsqrt : ∀ f s, ∃ u, exec (.fsqrt f) s = .next u ∧ OnCore s u := by
  intro f s
  rw [exec_fsqrt]
  exact own_issue (fun t u e h => own_fp1 e h)

theorem registers_fmin : ∀ f s, ∃ u, exec (.fmin f) s = .next u ∧ OnCore s u := by
  intro f s
  rw [exec_fmin]
  exact own_issue (fun t u e h => own_fp2 e h)

theorem registers_fmax : ∀ f s, ∃ u, exec (.fmax f) s = .next u ∧ OnCore s u := by
  intro f s
  rw [exec_fmax]
  exact own_issue (fun t u e h => own_fp2 e h)

theorem registers_fabs : ∀ f s, ∃ u, exec (.fabs f) s = .next u ∧ OnCore s u := by
  intro f s
  rw [exec_fabs]
  exact own_issue (fun t u e h => own_fp1 e h)

theorem registers_fneg : ∀ f s, ∃ u, exec (.fneg f) s = .next u ∧ OnCore s u := by
  intro f s
  rw [exec_fneg]
  exact own_issue (fun t u e h => own_fp1 e h)

theorem registers_fcmp : ∀ f s, ∃ u, exec (.fcmp f) s = .next u ∧ OnCore s u := by
  intro f s
  rw [exec_fcmp]
  exact own_issue (fun t u e h => own_fcmpOp e h)

theorem registers_fclass : ∀ f s, ∃ u, exec (.fclass f) s = .next u ∧ OnCore s u := by
  intro f s
  rw [exec_fclass]
  exact own_issue (fun t u e h => own_fp1 e h)

theorem registers_tadd : ∀ f s, ∃ u, exec (.tadd f) s = .next u ∧ OnCore s u := by
  intro f s
  rw [exec_tadd]
  exact own_issue (fun t u e h => own_tf2 e h)

theorem registers_tsub : ∀ f s, ∃ u, exec (.tsub f) s = .next u ∧ OnCore s u := by
  intro f s
  rw [exec_tsub]
  exact own_issue (fun t u e h => own_tf2 e h)

theorem registers_tmul : ∀ f s, ∃ u, exec (.tmul f) s = .next u ∧ OnCore s u := by
  intro f s
  rw [exec_tmul]
  exact own_issue (fun t u e h => own_tf2 e h)

theorem registers_tfma : ∀ f s, ∃ u, exec (.tfma f) s = .next u ∧ OnCore s u := by
  intro f s
  rw [exec_tfma]
  exact own_issue (fun t u e h => own_tfmaOp e h)

theorem registers_tdiv : ∀ f s, ∃ u, exec (.tdiv f) s = .next u ∧ OnCore s u := by
  intro f s
  rw [exec_tdiv]
  exact own_issue (fun t u e h => own_tf2 e h)

theorem registers_tsqrt : ∀ f s, ∃ u, exec (.tsqrt f) s = .next u ∧ OnCore s u := by
  intro f s
  rw [exec_tsqrt]
  exact own_issue (fun t u e h => own_tf1 e h)

theorem registers_tmin : ∀ f s, ∃ u, exec (.tmin f) s = .next u ∧ OnCore s u := by
  intro f s
  rw [exec_tmin]
  exact own_issue (fun t u e h => own_tf2 e h)

theorem registers_tmax : ∀ f s, ∃ u, exec (.tmax f) s = .next u ∧ OnCore s u := by
  intro f s
  rw [exec_tmax]
  exact own_issue (fun t u e h => own_tf2 e h)

theorem registers_tabs : ∀ f s, ∃ u, exec (.tabs f) s = .next u ∧ OnCore s u := by
  intro f s
  rw [exec_tabs]
  exact own_issue (fun t u e h => own_tf1 e h)

theorem registers_tneg : ∀ f s, ∃ u, exec (.tneg f) s = .next u ∧ OnCore s u := by
  intro f s
  rw [exec_tneg]
  exact own_issue (fun t u e h => own_tf1 e h)

theorem registers_tcmp : ∀ f s, ∃ u, exec (.tcmp f) s = .next u ∧ OnCore s u := by
  intro f s
  rw [exec_tcmp]
  exact own_issue (fun t u e h => own_tcmpOp e h)

theorem registers_cvt : ∀ f s, ∃ u, exec (.cvt f) s = .next u ∧ OnCore s u := by
  intro f s
  rw [exec_cvt]
  exact own_issue (fun t u e h => own_cvtOp e h)

theorem registers_lclaim : ∀ f s, ∃ u, exec (.lclaim f) s = .next u ∧ OnCore s u := by
  intro f s
  rw [exec_lclaim]
  exact own_issue (fun t u e h => own_lclaimOp e h)

theorem registers_lrel : ∀ f s, ∃ u, exec (.lrel f) s = .next u ∧ OnCore s u := by
  intro f s
  rw [exec_lrel]
  exact own_issue (fun t u e h => own_lrelOp e h)

theorem registers_lcount : ∀ f s, ∃ u, exec (.lcount f) s = .next u ∧ OnCore s u := by
  intro f s
  rw [exec_lcount]
  exact own_issue (fun t u e h => own_lcountOp e h)

theorem registers_vadd : ∀ f s, ∃ u, exec (.vadd f) s = .next u ∧ OnCore s u := by
  intro f s
  rw [exec_vadd]
  exact own_issue (fun t u e h => own_vecInt e h)

theorem registers_vsub : ∀ f s, ∃ u, exec (.vsub f) s = .next u ∧ OnCore s u := by
  intro f s
  rw [exec_vsub]
  exact own_issue (fun t u e h => own_vecInt e h)

theorem registers_vmul : ∀ f s, ∃ u, exec (.vmul f) s = .next u ∧ OnCore s u := by
  intro f s
  rw [exec_vmul]
  exact own_issue (fun t u e h => own_vecInt e h)

theorem registers_vmulh : ∀ f s, ∃ u, exec (.vmulh f) s = .next u ∧ OnCore s u := by
  intro f s
  rw [exec_vmulh]
  exact own_issue (fun t u e h => own_vecInt e h)

theorem registers_vmad : ∀ f s, ∃ u, exec (.vmad f) s = .next u ∧ OnCore s u := by
  intro f s
  rw [exec_vmad]
  exact own_issue (fun t u e h => own_vec2 e h)

theorem registers_vmin : ∀ f s, ∃ u, exec (.vmin f) s = .next u ∧ OnCore s u := by
  intro f s
  rw [exec_vmin]
  exact own_issue (fun t u e h => own_vecInt e h)

theorem registers_vmax : ∀ f s, ∃ u, exec (.vmax f) s = .next u ∧ OnCore s u := by
  intro f s
  rw [exec_vmax]
  exact own_issue (fun t u e h => own_vecInt e h)

theorem registers_vabs : ∀ f s, ∃ u, exec (.vabs f) s = .next u ∧ OnCore s u := by
  intro f s
  rw [exec_vabs]
  exact own_issue (fun t u e h => own_vec1 e h)

theorem registers_vand : ∀ f s, ∃ u, exec (.vand f) s = .next u ∧ OnCore s u := by
  intro f s
  rw [exec_vand]
  exact own_issue (fun t u e h => own_vec2 e h)

theorem registers_vor : ∀ f s, ∃ u, exec (.vor f) s = .next u ∧ OnCore s u := by
  intro f s
  rw [exec_vor]
  exact own_issue (fun t u e h => own_vec2 e h)

theorem registers_vxor : ∀ f s, ∃ u, exec (.vxor f) s = .next u ∧ OnCore s u := by
  intro f s
  rw [exec_vxor]
  exact own_issue (fun t u e h => own_vec2 e h)

theorem registers_vshl : ∀ f s, ∃ u, exec (.vshl f) s = .next u ∧ OnCore s u := by
  intro f s
  rw [exec_vshl]
  exact own_issue (fun t u e h => own_vecInt e h)

theorem registers_vshr : ∀ f s, ∃ u, exec (.vshr f) s = .next u ∧ OnCore s u := by
  intro f s
  rw [exec_vshr]
  exact own_issue (fun t u e h => own_vecInt e h)

theorem registers_vsar : ∀ f s, ∃ u, exec (.vsar f) s = .next u ∧ OnCore s u := by
  intro f s
  rw [exec_vsar]
  exact own_issue (fun t u e h => own_vecInt e h)

theorem registers_vrshr : ∀ f s, ∃ u, exec (.vrshr f) s = .next u ∧ OnCore s u := by
  intro f s
  rw [exec_vrshr]
  exact own_issue (fun t u e h => own_vecInt e h)

theorem registers_vsat : ∀ f s, ∃ u, exec (.vsat f) s = .next u ∧ OnCore s u := by
  intro f s
  rw [exec_vsat]
  exact own_issue (fun t u e h => own_vec1 e h)

theorem registers_vclamp : ∀ f s, ∃ u, exec (.vclamp f) s = .next u ∧ OnCore s u := by
  intro f s
  rw [exec_vclamp]
  exact own_issue (fun t u e h => own_vec3 e h)

theorem registers_vdot4 : ∀ f s, ∃ u, exec (.vdot4 f) s = .next u ∧ OnCore s u := by
  intro f s
  rw [exec_vdot4]
  exact own_issue (fun t u e h => own_vec2 e h)

theorem registers_vdot2 : ∀ f s, ∃ u, exec (.vdot2 f) s = .next u ∧ OnCore s u := by
  intro f s
  rw [exec_vdot2]
  exact own_issue (fun t u e h => own_vec2 e h)

theorem registers_vfadd : ∀ f s, ∃ u, exec (.vfadd f) s = .next u ∧ OnCore s u := by
  intro f s
  rw [exec_vfadd]
  exact own_issue (fun t u e h => own_vecFp e h)

theorem registers_vfsub : ∀ f s, ∃ u, exec (.vfsub f) s = .next u ∧ OnCore s u := by
  intro f s
  rw [exec_vfsub]
  exact own_issue (fun t u e h => own_vecFp e h)

theorem registers_vfmul : ∀ f s, ∃ u, exec (.vfmul f) s = .next u ∧ OnCore s u := by
  intro f s
  rw [exec_vfmul]
  exact own_issue (fun t u e h => own_vecFp e h)

theorem registers_vffma : ∀ f s, ∃ u, exec (.vffma f) s = .next u ∧ OnCore s u := by
  intro f s
  rw [exec_vffma]
  exact own_issue (fun t u e h => own_vec3 e h)

theorem registers_vfmin : ∀ f s, ∃ u, exec (.vfmin f) s = .next u ∧ OnCore s u := by
  intro f s
  rw [exec_vfmin]
  exact own_issue (fun t u e h => own_vecFp e h)

theorem registers_vfmax : ∀ f s, ∃ u, exec (.vfmax f) s = .next u ∧ OnCore s u := by
  intro f s
  rw [exec_vfmax]
  exact own_issue (fun t u e h => own_vecFp e h)

theorem registers_vfabs : ∀ f s, ∃ u, exec (.vfabs f) s = .next u ∧ OnCore s u := by
  intro f s
  rw [exec_vfabs]
  exact own_issue (fun t u e h => own_vec1 e h)

theorem registers_vfneg : ∀ f s, ∃ u, exec (.vfneg f) s = .next u ∧ OnCore s u := by
  intro f s
  rw [exec_vfneg]
  exact own_issue (fun t u e h => own_vec1 e h)

theorem registers_vexp2 : ∀ f s, ∃ u, exec (.vexp2 f) s = .next u ∧ OnCore s u := by
  intro f s
  rw [exec_vexp2]
  exact own_issue (fun t u e h => own_vecReal e h)

theorem registers_vlog2 : ∀ f s, ∃ u, exec (.vlog2 f) s = .next u ∧ OnCore s u := by
  intro f s
  rw [exec_vlog2]
  exact own_issue (fun t u e h => own_vecReal e h)

theorem registers_vrcp : ∀ f s, ∃ u, exec (.vrcp f) s = .next u ∧ OnCore s u := by
  intro f s
  rw [exec_vrcp]
  exact own_issue (fun t u e h => own_vecReal e h)

theorem registers_vrsqrt : ∀ f s, ∃ u, exec (.vrsqrt f) s = .next u ∧ OnCore s u := by
  intro f s
  rw [exec_vrsqrt]
  exact own_issue (fun t u e h => own_vecReal e h)

theorem registers_vsqrt : ∀ f s, ∃ u, exec (.vsqrt f) s = .next u ∧ OnCore s u := by
  intro f s
  rw [exec_vsqrt]
  exact own_issue (fun t u e h => own_vecReal e h)

theorem registers_vdiv : ∀ f s, ∃ u, exec (.vdiv f) s = .next u ∧ OnCore s u := by
  intro f s
  rw [exec_vdiv]
  exact own_issue (fun t u e h => own_vecFp e h)

theorem registers_vtadd : ∀ f s, ∃ u, exec (.vtadd f) s = .next u ∧ OnCore s u := by
  intro f s
  rw [exec_vtadd]
  exact own_issue (fun t u e h => own_vecTf e h)

theorem registers_vtsub : ∀ f s, ∃ u, exec (.vtsub f) s = .next u ∧ OnCore s u := by
  intro f s
  rw [exec_vtsub]
  exact own_issue (fun t u e h => own_vecTf e h)

theorem registers_vtmul : ∀ f s, ∃ u, exec (.vtmul f) s = .next u ∧ OnCore s u := by
  intro f s
  rw [exec_vtmul]
  exact own_issue (fun t u e h => own_vecTf e h)

theorem registers_vtfma : ∀ f s, ∃ u, exec (.vtfma f) s = .next u ∧ OnCore s u := by
  intro f s
  rw [exec_vtfma]
  exact own_issue (fun t u e h => own_vec3 e h)

theorem registers_vtmin : ∀ f s, ∃ u, exec (.vtmin f) s = .next u ∧ OnCore s u := by
  intro f s
  rw [exec_vtmin]
  exact own_issue (fun t u e h => own_vecTf e h)

theorem registers_vtmax : ∀ f s, ∃ u, exec (.vtmax f) s = .next u ∧ OnCore s u := by
  intro f s
  rw [exec_vtmax]
  exact own_issue (fun t u e h => own_vecTf e h)

theorem registers_vspz : ∀ f s, ∃ u, exec (.vspz f) s = .next u ∧ OnCore s u := by
  intro f s
  rw [exec_vspz]
  exact own_issue (fun t u e h => own_vspzOp e h)

theorem registers_vspfma : ∀ f s, ∃ u, exec (.vspfma f) s = .next u ∧ OnCore s u := by
  intro f s
  rw [exec_vspfma]
  exact own_issue (fun t u e h => own_vspfmaOp e h)

theorem registers_vsprnd : ∀ f s, ∃ u, exec (.vsprnd f) s = .next u ∧ OnCore s u := by
  intro f s
  rw [exec_vsprnd]
  exact own_issue (fun t u e h => own_vsprndOp e h)

theorem registers_vcmp : ∀ f s, ∃ u, exec (.vcmp f) s = .next u ∧ OnCore s u := by
  intro f s
  rw [exec_vcmp]
  exact own_issue (fun t u e h => own_vcmpOp e h)

theorem registers_vfcmp : ∀ f s, ∃ u, exec (.vfcmp f) s = .next u ∧ OnCore s u := by
  intro f s
  rw [exec_vfcmp]
  exact own_issue (fun t u e h => own_vcmpOp e h)

theorem registers_vtcmp : ∀ f s, ∃ u, exec (.vtcmp f) s = .next u ∧ OnCore s u := by
  intro f s
  rw [exec_vtcmp]
  exact own_issue (fun t u e h => own_vcmpOp e h)

theorem registers_vsel : ∀ f s, ∃ u, exec (.vsel f) s = .next u ∧ OnCore s u := by
  intro f s
  rw [exec_vsel]
  exact own_issue (fun t u e h => own_vselOp e h)

theorem registers_kand : ∀ f s, ∃ u, exec (.kand f) s = .next u ∧ OnCore s u := by
  intro f s
  rw [exec_kand]
  exact own_issue (fun t u e h => own_maskOp e h)

theorem registers_kor : ∀ f s, ∃ u, exec (.kor f) s = .next u ∧ OnCore s u := by
  intro f s
  rw [exec_kor]
  exact own_issue (fun t u e h => own_maskOp e h)

theorem registers_kxor : ∀ f s, ∃ u, exec (.kxor f) s = .next u ∧ OnCore s u := by
  intro f s
  rw [exec_kxor]
  exact own_issue (fun t u e h => own_maskOp e h)

theorem registers_knot : ∀ f s, ∃ u, exec (.knot f) s = .next u ∧ OnCore s u := by
  intro f s
  rw [exec_knot]
  exact own_issue (fun t u e h => own_maskOp e h)

theorem registers_kset : ∀ f s, ∃ u, exec (.kset f) s = .next u ∧ OnCore s u := by
  intro f s
  rw [exec_kset]
  exact own_issue (fun t u e h => own_ksetOp e h)

theorem registers_kget : ∀ f s, ∃ u, exec (.kget f) s = .next u ∧ OnCore s u := by
  intro f s
  rw [exec_kget]
  exact own_issue (fun t u e h => own_kgetOp e h)

theorem registers_vcvt : ∀ f s, ∃ u, exec (.vcvt f) s = .next u ∧ OnCore s u := by
  intro f s
  rw [exec_vcvt]
  exact own_issue (fun t u e h => own_vcvtOp e h)

theorem registers_vpack : ∀ f s, ∃ u, exec (.vpack f) s = .next u ∧ OnCore s u := by
  intro f s
  rw [exec_vpack]
  exact own_issue (fun t u e h => own_vpackOp e h)

theorem registers_vunpack : ∀ f s, ∃ u, exec (.vunpack f) s = .next u ∧ OnCore s u := by
  intro f s
  rw [exec_vunpack]
  exact own_issue (fun t u e h => own_vunpackOp e h)

theorem registers_vbcast : ∀ f s, ∃ u, exec (.vbcast f) s = .next u ∧ OnCore s u := by
  intro f s
  rw [exec_vbcast]
  exact own_issue (fun t u e h => own_vbcastOp e h)

theorem registers_vext : ∀ f s, ∃ u, exec (.vext f) s = .next u ∧ OnCore s u := by
  intro f s
  rw [exec_vext]
  exact own_issue (fun t u e h => own_vextOp e h)

theorem registers_vperm : ∀ f s, ∃ u, exec (.vperm f) s = .next u ∧ OnCore s u := by
  intro f s
  rw [exec_vperm]
  exact own_issue (fun t u e h => own_vpermOp e h)

theorem registers_vslide : ∀ f s, ∃ u, exec (.vslide f) s = .next u ∧ OnCore s u := by
  intro f s
  rw [exec_vslide]
  exact own_issue (fun t u e h => own_vslideOp e h)

theorem registers_vred : ∀ f s, ∃ u, exec (.vred f) s = .next u ∧ OnCore s u := by
  intro f s
  rw [exec_vred]
  exact own_issue (fun t u e h => own_vredOp e h)

theorem registers_vscan : ∀ f s, ∃ u, exec (.vscan f) s = .next u ∧ OnCore s u := by
  intro f s
  rw [exec_vscan]
  exact own_issue (fun t u e h => own_vscanOp e h)

end Sys2Proof.Machine
end

