-- ==== Sys2Proof/Laws/Turns.lean ====
section
/-! SUPPORT. What a turn at an output of the crossbar can do (R330 to R332): it grants the input that asked, and leaves everything of the
machine but the dies. -/

namespace Sys2Proof.Machine

/-- A state that differs from another in its dies only. -/
def DiesOnly (s t : State) : Prop := t = { s with dies := t.dies }

theorem DiesOnly.refl (s : State) : DiesOnly s s := rfl
theorem DiesOnly.trans {s t u : State} (h : DiesOnly s t) (g : DiesOnly t u) : DiesOnly s u := by
  unfold DiesOnly at *
  rw [g, h]
/-- A step after which only the dies differ, tried where another such step succeeds. -/
theorem DiesOnly.bind {s u : State} {o : Option State} {f : State → Option State} (h : o.bind f = some u)
    (ho : ∀ t, o = some t → DiesOnly s t) (hf : ∀ t, f t = some u → DiesOnly t u) : DiesOnly s u := by
  obtain ⟨t, ht, hu⟩ := Option.bind_eq_some_iff.mp h
  exact (ho t ht).trans (hf t hu)

theorem State.granted_diesOnly (s : State) (d o i : Nat) : DiesOnly s (s.granted d o i) := rfl
/-- A turn is taken by the input that may have it, and is granted. -/
theorem State.takeTurn_some {s t : State} {d o i : Nat} (h : s.takeTurn d o i = some t) : s.ownsCycle d o 4 = true ∧ t = s.granted d o i := by
  unfold State.takeTurn at h
  split at h
  · next hc =>
    cases h
    exact ⟨by simpa using (Bool.and_eq_true_iff.mp hc).1, rfl⟩
  · cases h
/-- An access of an agent: its channel may start it, and its input is granted. -/
theorem State.agentAccess_some {s t : State} {a i : Nat} (h : s.agentAccess a i = some t) :
    s.addrOpen a = true ∧ t = s.granted (a / 2 ^ 36) (State.outputOf (State.pageLoc a)) i := by
  unfold State.agentAccess at h
  split at h
  · next ho => exact ⟨ho, (State.takeTurn_some h).2⟩
  · cases h
theorem State.takeTurn_diesOnly {s t : State} {d o i : Nat} (h : s.takeTurn d o i = some t) : DiesOnly s t := (State.takeTurn_some h).2 ▸ rfl
theorem State.agentAccess_diesOnly {s t : State} {a i : Nat} (h : s.agentAccess a i = some t) : DiesOnly s t := (State.agentAccess_some h).2 ▸ rfl
theorem State.agentRead_diesOnly {s t : State} {a i : Nat} (h : s.agentRead a i = some t) : DiesOnly s t :=
  DiesOnly.bind h (fun _ => State.agentAccess_diesOnly) (fun _ => State.takeTurn_diesOnly)
theorem State.dieAgentTurn_diesOnly {s t : State} {a : Nat} (h : s.dieAgentTurn a = some t) : DiesOnly s t := State.agentAccess_diesOnly h
theorem State.imageTurn_diesOnly {s t : State} {c i : Nat} (h : s.imageTurn c i = some t) : DiesOnly s t := State.agentAccess_diesOnly h
theorem State.imageRead_diesOnly {s t : State} {c i : Nat} (h : s.imageRead c i = some t) : DiesOnly s t := State.agentRead_diesOnly h
theorem State.frameTurn_diesOnly {s t : State} {c f : Nat} (h : s.frameTurn c f = some t) : DiesOnly s t := by
  unfold State.frameTurn at h
  split at h
  · cases h; rfl
  · exact State.imageTurn_diesOnly h

end Sys2Proof.Machine
end

