-- ==== Sys2Proof/Tests/Slice0.lean ====
section
/-! SUPPORT. The model's own tests: every row's word decodes, the worked encodings and the result tables of the manual, an ill-formed
term for each check, and for each statement concrete states and operands that meet its hypotheses, with its conclusion there. -/

set_option Elab.async false

namespace Sys2Proof.Tests
open Machine

/-- Parcels with the instructions that they decode to. -/
abbrev decodesAll (l : List (List Parcel × Instr)) : Prop := ∀ p ∈ l, decode (p.1.flatMap bytesOfParcel) = .ok p.2

theorem test_decode_major_00_a : decodesAll
  [([0x01A24500], .addC ⟨5, 9, 26⟩),
   ([0x01A24501, 0x0000008B], .add ⟨5, 9, 26, 11, 0, 2, 0, 0x0⟩),
   ([0x05A24500], .subC ⟨5, 9, 26⟩),
   ([0x05A24501, 0x0000008B], .sub ⟨5, 9, 26, 11, 0, 2, 0, 0x0⟩),
   ([0x09A24501, 0x0000008B], .mul ⟨5, 9, 26, 11, 0, 2, 0, 0x0⟩),
   ([0x0DA24501, 0x0000008B], .mulh ⟨5, 9, 26, 11, 0, 2, 0, 0x0⟩),
   ([0x11A24501, 0x0000008B], .mulhu ⟨5, 9, 26, 11, 0, 2, 0, 0x0⟩),
   ([0x15A24501, 0x0000008B], .div ⟨5, 9, 26, 11, 0, 2, 0, 0x0⟩),
   ([0x19A24501, 0x0000008B], .divu ⟨5, 9, 26, 11, 0, 2, 0, 0x0⟩),
   ([0x1DA24501, 0x0000008B], .rem ⟨5, 9, 26, 11, 0, 2, 0, 0x0⟩),
   ([0x21A24501, 0x0000008B], .remu ⟨5, 9, 26, 11, 0, 2, 0, 0x0⟩),
   ([0x25A24500], .andC ⟨5, 9, 26⟩)] := by decide +kernel

theorem test_decode_major_00_b : decodesAll
  [([0x25A24501, 0x0000008B], .and ⟨5, 9, 26, 11, 0, 2, 0, 0x0⟩),
   ([0x29A24500], .orC ⟨5, 9, 26⟩),
   ([0x29A24501, 0x0000008B], .or ⟨5, 9, 26, 11, 0, 2, 0, 0x0⟩),
   ([0x2DA24500], .xorC ⟨5, 9, 26⟩),
   ([0x2DA24501, 0x0000008B], .xor ⟨5, 9, 26, 11, 0, 2, 0, 0x0⟩),
   ([0x31A24501, 0x0000008B], .andn ⟨5, 9, 26, 11, 0, 2, 0, 0x0⟩),
   ([0x35A24500], .shlC ⟨5, 9, 26⟩),
   ([0x35A24501, 0x0000008B], .shl ⟨5, 9, 26, 11, 0, 2, 0, 0x0⟩),
   ([0x39A24500], .shrC ⟨5, 9, 26⟩),
   ([0x39A24501, 0x0000008B], .shr ⟨5, 9, 26, 11, 0, 2, 0, 0x0⟩),
   ([0x3DA24500], .sarC ⟨5, 9, 26⟩),
   ([0x3DA24501, 0x0000008B], .sar ⟨5, 9, 26, 11, 0, 2, 0, 0x0⟩)] := by decide +kernel

theorem test_decode_major_00_c : decodesAll
  [([0x41A24501, 0x0000008B], .rol ⟨5, 9, 26, 11, 0, 2, 0, 0x0⟩),
   ([0x45A24501, 0x0000008B], .min ⟨5, 9, 26, 11, 0, 2, 0, 0x0⟩),
   ([0x49A24501, 0x0000008B], .max ⟨5, 9, 26, 11, 0, 2, 0, 0x0⟩),
   ([0x4DA24501, 0x0000008B], .minu ⟨5, 9, 26, 11, 0, 2, 0, 0x0⟩),
   ([0x51A24501, 0x0000008B], .maxu ⟨5, 9, 26, 11, 0, 2, 0, 0x0⟩)] := by decide +kernel

theorem test_decode_major_01_a : decodesAll
  [([0x00024505, 0xA970C08B], .addi ⟨5, 9, 0, 11, 0, 2, 0, 0x2a5c3⟩),
   ([0x00024506, 0x0000008B, 0x23456789], .addiX ⟨5, 9, 0, 11, 0, 2, 0, 0x23456789⟩),
   ([0x04024505, 0xA970C08B], .andi ⟨5, 9, 0, 11, 0, 2, 0, 0x2a5c3⟩),
   ([0x04024506, 0x0000008B, 0x23456789], .andiX ⟨5, 9, 0, 11, 0, 2, 0, 0x23456789⟩),
   ([0x08024505, 0xA970C08B], .ori ⟨5, 9, 0, 11, 0, 2, 0, 0x2a5c3⟩),
   ([0x08024506, 0x0000008B, 0x23456789], .oriX ⟨5, 9, 0, 11, 0, 2, 0, 0x23456789⟩),
   ([0x0C024505, 0xA970C08B], .xori ⟨5, 9, 0, 11, 0, 2, 0, 0x2a5c3⟩),
   ([0x0C024506, 0x0000008B, 0x23456789], .xoriX ⟨5, 9, 0, 11, 0, 2, 0, 0x23456789⟩),
   ([0x10024505, 0x0003008B], .shli ⟨5, 9, 0, 11, 0, 2, 0, 0xc⟩),
   ([0x10024506, 0x0000008B, 0x00000034], .shliX ⟨5, 9, 0, 11, 0, 2, 0, 0x34⟩),
   ([0x14024505, 0x0003008B], .shri ⟨5, 9, 0, 11, 0, 2, 0, 0xc⟩),
   ([0x14024506, 0x0000008B, 0x00000034], .shriX ⟨5, 9, 0, 11, 0, 2, 0, 0x34⟩)] := by decide +kernel

theorem test_decode_major_01_b : decodesAll
  [([0x18024505, 0x0003008B], .sari ⟨5, 9, 0, 11, 0, 2, 0, 0xc⟩),
   ([0x18024506, 0x0000008B, 0x00000034], .sariX ⟨5, 9, 0, 11, 0, 2, 0, 0x34⟩),
   ([0x1C024505, 0xA970C08B], .muli ⟨5, 9, 0, 11, 0, 2, 0, 0x2a5c3⟩),
   ([0x1C024506, 0x0000008B, 0x23456789], .muliX ⟨5, 9, 0, 11, 0, 2, 0, 0x23456789⟩)] := by decide +kernel

theorem test_decode_major_02 : decodesAll
  [([0x00024509, 0x0000008B], .clz ⟨5, 9, 0, 11, 0, 2, 0, 0x0⟩),
   ([0x04024509, 0x0000008B], .ctz ⟨5, 9, 0, 11, 0, 2, 0, 0x0⟩),
   ([0x08024509, 0x0000008B], .popc ⟨5, 9, 0, 11, 0, 2, 0, 0x0⟩),
   ([0x0C024509, 0x0000008B], .brev ⟨5, 9, 0, 11, 0, 2, 0, 0x0⟩),
   ([0x10024509, 0x0134808B], .bext ⟨5, 9, 0, 11, 0, 2, 0, 0x4d2⟩),
   ([0x14024509, 0x0134808B], .bins ⟨5, 9, 0, 11, 0, 2, 0, 0x4d2⟩),
   ([0x18024509, 0x0003008B], .sext ⟨5, 9, 0, 11, 0, 2, 0, 0xc⟩),
   ([0x1C024509, 0x0003008B], .zext ⟨5, 9, 0, 11, 0, 2, 0, 0xc⟩)] := by decide +kernel

theorem test_decode_major_03 : decodesAll
  [([0x01A2420D, 0x0000018B], .cmp ⟨2, 9, 26, 11, 0, 2, 1, 0x0⟩),
   ([0x0402420D, 0xA970C18B], .cmpi ⟨2, 9, 0, 11, 0, 2, 1, 0x2a5c3⟩),
   ([0x0402420E, 0x0000018B, 0x23456789], .cmpiX ⟨2, 9, 0, 11, 0, 2, 1, 0x23456789⟩)] := by decide +kernel

theorem test_decode_major_04 : decodesAll
  [([0x00614211, 0x0000008B], .pand ⟨2, 5, 6, 11, 0, 2, 0, 0x0⟩),
   ([0x04614211, 0x0000008B], .por ⟨2, 5, 6, 11, 0, 2, 0, 0x0⟩),
   ([0x08614211, 0x0000008B], .pxor ⟨2, 5, 6, 11, 0, 2, 0, 0x0⟩),
   ([0x0C014211, 0x0000008B], .pnot ⟨2, 5, 0, 11, 0, 2, 0, 0x0⟩),
   ([0x10024011, 0x0000008B], .pset ⟨0, 9, 0, 11, 0, 2, 0, 0x0⟩),
   ([0x14000511, 0x0000008B], .pget ⟨5, 0, 0, 11, 0, 2, 0, 0x0⟩)] := by decide +kernel

theorem test_decode_major_05 : decodesAll
  [([0x01A24515, 0x0000038B], .sel ⟨5, 9, 26, 11, 0, 2, 3, 0x0⟩),
   ([0x05A24515, 0xA970C38B], .lea ⟨5, 9, 26, 11, 0, 2, 3, 0x2a5c3⟩),
   ([0x05A24516, 0x0000038B, 0x23456789], .leaX ⟨5, 9, 26, 11, 0, 2, 3, 0x23456789⟩)] := by decide +kernel

theorem test_decode_major_06 : decodesAll
  [([0x00000018], .nopC ⟨0, 0, 0⟩),
   ([0x00000019, 0x0000008B], .nop ⟨0, 0, 0, 11, 0, 2, 0, 0x0⟩),
   ([0x04000019, 0xA970C08B], .hint ⟨0, 0, 0, 11, 0, 2, 0, 0x2a5c3⟩),
   ([0x0400001A, 0x0000008B, 0x23456789], .hintX ⟨0, 0, 0, 11, 0, 2, 0, 0x23456789⟩),
   ([0x08000519, 0x0000008B], .rdcyc ⟨5, 0, 0, 11, 0, 2, 0, 0x0⟩),
   ([0x0C000519, 0x0000408B], .rdcnt ⟨5, 0, 0, 11, 0, 2, 0, 0x1⟩)] := by decide +kernel

theorem test_decode_major_07 : decodesAll
  [([0x0000001D, 0xA970C08B], .br ⟨0, 0, 0, 11, 0, 2, 0, 0x2a5c3⟩),
   ([0x0000001E, 0x0000008B, 0x23456789], .brX ⟨0, 0, 0, 11, 0, 2, 0, 0x23456789⟩),
   ([0x0402401D, 0x0000008B], .brx ⟨0, 9, 0, 11, 0, 2, 0, 0x0⟩),
   ([0x0800001D, 0xA970C08B], .call ⟨0, 0, 0, 11, 0, 2, 0, 0x2a5c3⟩),
   ([0x0800001E, 0x0000008B, 0x23456789], .callX ⟨0, 0, 0, 11, 0, 2, 0, 0x23456789⟩),
   ([0x0C00001D, 0x0000008B], .ret ⟨0, 0, 0, 11, 0, 2, 0, 0x0⟩),
   ([0x1000001C], .endC ⟨0, 0, 0⟩),
   ([0x1000001D, 0x0000008B], .endW ⟨0, 0, 0, 11, 0, 2, 0, 0x0⟩)] := by decide +kernel

theorem test_decode_major_10 : decodesAll
  [([0x01A24541, 0x0000408B], .fadd ⟨5, 9, 26, 11, 0, 2, 0, 0x1⟩),
   ([0x05A24541, 0x0000408B], .fsub ⟨5, 9, 26, 11, 0, 2, 0, 0x1⟩),
   ([0x09A24541, 0x0000408B], .fmul ⟨5, 9, 26, 11, 0, 2, 0, 0x1⟩),
   ([0x0DA24541, 0x0000638B], .ffma ⟨5, 9, 26, 11, 0, 2, 35, 0x1⟩),
   ([0x11A24541, 0x0000408B], .fdiv ⟨5, 9, 26, 11, 0, 2, 0, 0x1⟩),
   ([0x14024541, 0x0000408B], .fsqrt ⟨5, 9, 0, 11, 0, 2, 0, 0x1⟩),
   ([0x19A24541, 0x0000008B], .fmin ⟨5, 9, 26, 11, 0, 2, 0, 0x0⟩),
   ([0x1DA24541, 0x0000008B], .fmax ⟨5, 9, 26, 11, 0, 2, 0, 0x0⟩),
   ([0x20024541, 0x0000008B], .fabs ⟨5, 9, 0, 11, 0, 2, 0, 0x0⟩),
   ([0x24024541, 0x0000008B], .fneg ⟨5, 9, 0, 11, 0, 2, 0, 0x0⟩),
   ([0x29A24241, 0x0000018B], .fcmp ⟨2, 9, 26, 11, 0, 2, 1, 0x0⟩),
   ([0x2C024541, 0x0000008B], .fclass ⟨5, 9, 0, 11, 0, 2, 0, 0x0⟩)] := by decide +kernel

theorem test_decode_major_11 : decodesAll
  [([0x01A24545, 0x0000408B], .tadd ⟨5, 9, 26, 11, 0, 2, 0, 0x1⟩),
   ([0x05A24545, 0x0000408B], .tsub ⟨5, 9, 26, 11, 0, 2, 0, 0x1⟩),
   ([0x09A24545, 0x0000408B], .tmul ⟨5, 9, 26, 11, 0, 2, 0, 0x1⟩),
   ([0x0DA24545, 0x0000638B], .tfma ⟨5, 9, 26, 11, 0, 2, 35, 0x1⟩),
   ([0x11A24545, 0x0000408B], .tdiv ⟨5, 9, 26, 11, 0, 2, 0, 0x1⟩),
   ([0x14024545, 0x0000408B], .tsqrt ⟨5, 9, 0, 11, 0, 2, 0, 0x1⟩),
   ([0x19A24545, 0x0000408B], .tmin ⟨5, 9, 26, 11, 0, 2, 0, 0x1⟩),
   ([0x1DA24545, 0x0000408B], .tmax ⟨5, 9, 26, 11, 0, 2, 0, 0x1⟩),
   ([0x20024545, 0x0000408B], .tabs ⟨5, 9, 0, 11, 0, 2, 0, 0x1⟩),
   ([0x24024545, 0x0000408B], .tneg ⟨5, 9, 0, 11, 0, 2, 0, 0x1⟩),
   ([0x29A24245, 0x0000418B], .tcmp ⟨2, 9, 26, 11, 0, 2, 1, 0x1⟩)] := by decide +kernel

theorem test_decode_major_12 : decodesAll
  [([0x00000149, 0x0000008B], .spz ⟨1, 0, 0, 11, 0, 2, 0, 0x0⟩),
   ([0x05A24149, 0x0003008B], .spfma ⟨1, 9, 26, 11, 0, 2, 0, 0xc⟩),
   ([0x09A24149, 0x0003008B], .spfms ⟨1, 9, 26, 11, 0, 2, 0, 0xc⟩),
   ([0x0C008149, 0x0003008B], .spadd ⟨1, 2, 0, 11, 0, 2, 0, 0xc⟩),
   ([0x10008149, 0x0003008B], .spsub ⟨1, 2, 0, 11, 0, 2, 0, 0xc⟩),
   ([0x14008549, 0x0004808B], .sprnd ⟨5, 2, 0, 11, 0, 2, 0, 0x12⟩),
   ([0x18024149, 0xA970C08B], .spld ⟨1, 9, 0, 11, 0, 2, 0, 0x2a5c3⟩),
   ([0x1802414A, 0x0000008B, 0x23456789], .spldX ⟨1, 9, 0, 11, 0, 2, 0, 0x23456789⟩),
   ([0x1C024149, 0xA970C08B], .spst ⟨1, 9, 0, 11, 0, 2, 0, 0x2a5c3⟩),
   ([0x1C02414A, 0x0000008B, 0x23456789], .spstX ⟨1, 9, 0, 11, 0, 2, 0, 0x23456789⟩)] := by decide +kernel

theorem test_decode_major_13 : decodesAll
  [([0x0002454D, 0x0019008B], .cvt ⟨5, 9, 0, 11, 0, 2, 0, 0x64⟩)] := by decide +kernel

theorem test_decode_major_18 : decodesAll
  [([0x00000561, 0x0000408B], .lclaim ⟨5, 0, 0, 11, 0, 2, 0, 0x1⟩),
   ([0x04000061, 0x0000008B], .lrel ⟨0, 0, 0, 11, 0, 2, 0, 0x0⟩),
   ([0x08000561, 0x0000408B], .lcount ⟨5, 0, 0, 11, 0, 2, 0, 0x1⟩)] := by decide +kernel

theorem test_decode_major_19_a : decodesAll
  [([0x01D50365, 0x0003008B], .vadd ⟨3, 20, 29, 11, 0, 2, 0, 0xc⟩),
   ([0x05D50365, 0x0003008B], .vsub ⟨3, 20, 29, 11, 0, 2, 0, 0xc⟩),
   ([0x09D50365, 0x0003008B], .vmul ⟨3, 20, 29, 11, 0, 2, 0, 0xc⟩),
   ([0x0DD50365, 0x0019008B], .vmulh ⟨3, 20, 29, 11, 0, 2, 0, 0x64⟩),
   ([0x11D50365, 0x0003008B], .vmad ⟨3, 20, 29, 11, 0, 2, 0, 0xc⟩),
   ([0x15D50365, 0x0019008B], .vmin ⟨3, 20, 29, 11, 0, 2, 0, 0x64⟩),
   ([0x19D50365, 0x0019008B], .vmax ⟨3, 20, 29, 11, 0, 2, 0, 0x64⟩),
   ([0x1C050365, 0x0003008B], .vabs ⟨3, 20, 0, 11, 0, 2, 0, 0xc⟩),
   ([0x21D50365, 0x0003008B], .vand ⟨3, 20, 29, 11, 0, 2, 0, 0xc⟩),
   ([0x25D50365, 0x0003008B], .vor ⟨3, 20, 29, 11, 0, 2, 0, 0xc⟩),
   ([0x29D50365, 0x0003008B], .vxor ⟨3, 20, 29, 11, 0, 2, 0, 0xc⟩),
   ([0x2DD50365, 0x0003008B], .vshl ⟨3, 20, 29, 11, 0, 2, 0, 0xc⟩)] := by decide +kernel

theorem test_decode_major_19_b : decodesAll
  [([0x31D50365, 0x0003008B], .vshr ⟨3, 20, 29, 11, 0, 2, 0, 0xc⟩),
   ([0x35D50365, 0x0003008B], .vsar ⟨3, 20, 29, 11, 0, 2, 0, 0xc⟩),
   ([0x39D50365, 0x0019008B], .vrshr ⟨3, 20, 29, 11, 0, 2, 0, 0x64⟩),
   ([0x3C050365, 0x0003018B], .vsat ⟨3, 20, 0, 11, 0, 2, 1, 0xc⟩),
   ([0x41D50365, 0x00190C8B], .vclamp ⟨3, 20, 29, 11, 0, 2, 12, 0x64⟩),
   ([0x45D50365, 0x0019008B], .vdot4 ⟨3, 20, 29, 11, 0, 2, 0, 0x64⟩),
   ([0x49D50365, 0x0019008B], .vdot2 ⟨3, 20, 29, 11, 0, 2, 0, 0x64⟩)] := by decide +kernel

theorem test_decode_major_1a_a : decodesAll
  [([0x01D50369, 0x0080008B], .vfadd ⟨3, 20, 29, 11, 0, 2, 0, 0x200⟩),
   ([0x05D50369, 0x0080008B], .vfsub ⟨3, 20, 29, 11, 0, 2, 0, 0x200⟩),
   ([0x09D50369, 0x0080008B], .vfmul ⟨3, 20, 29, 11, 0, 2, 0, 0x200⟩),
   ([0x0DD50369, 0x00800C8B], .vffma ⟨3, 20, 29, 11, 0, 2, 12, 0x200⟩),
   ([0x11D50369, 0x0010C08B], .vfmin ⟨3, 20, 29, 11, 0, 2, 0, 0x43⟩),
   ([0x15D50369, 0x0010C08B], .vfmax ⟨3, 20, 29, 11, 0, 2, 0, 0x43⟩),
   ([0x18050369, 0x0000408B], .vfabs ⟨3, 20, 0, 11, 0, 2, 0, 0x1⟩),
   ([0x1C050369, 0x0000408B], .vfneg ⟨3, 20, 0, 11, 0, 2, 0, 0x1⟩),
   ([0x20050369, 0x0080008B], .vexp2 ⟨3, 20, 0, 11, 0, 2, 0, 0x200⟩),
   ([0x24050369, 0x0080008B], .vlog2 ⟨3, 20, 0, 11, 0, 2, 0, 0x200⟩),
   ([0x28050369, 0x0080008B], .vrcp ⟨3, 20, 0, 11, 0, 2, 0, 0x200⟩),
   ([0x2C050369, 0x0080008B], .vrsqrt ⟨3, 20, 0, 11, 0, 2, 0, 0x200⟩)] := by decide +kernel

theorem test_decode_major_1a_b : decodesAll
  [([0x30050369, 0x0080008B], .vsqrt ⟨3, 20, 0, 11, 0, 2, 0, 0x200⟩),
   ([0x35D50369, 0x0080008B], .vdiv ⟨3, 20, 29, 11, 0, 2, 0, 0x200⟩)] := by decide +kernel

theorem test_decode_major_1b : decodesAll
  [([0x01D5036D, 0x0003008B], .vtadd ⟨3, 20, 29, 11, 0, 2, 0, 0xc⟩),
   ([0x05D5036D, 0x0003008B], .vtsub ⟨3, 20, 29, 11, 0, 2, 0, 0xc⟩),
   ([0x09D5036D, 0x0003008B], .vtmul ⟨3, 20, 29, 11, 0, 2, 0, 0xc⟩),
   ([0x0DD5036D, 0x00030C8B], .vtfma ⟨3, 20, 29, 11, 0, 2, 12, 0xc⟩),
   ([0x11D5036D, 0x0003008B], .vtmin ⟨3, 20, 29, 11, 0, 2, 0, 0xc⟩),
   ([0x15D5036D, 0x0003008B], .vtmax ⟨3, 20, 29, 11, 0, 2, 0, 0xc⟩),
   ([0x1800016D, 0x0000408B], .vspz ⟨1, 0, 0, 11, 0, 2, 0, 0x1⟩),
   ([0x1DD5016D, 0x0010C08B], .vspfma ⟨1, 20, 29, 11, 0, 2, 0, 0x43⟩),
   ([0x2000836D, 0x0080008B], .vsprnd ⟨3, 2, 0, 11, 0, 2, 0, 0x200⟩)] := by decide +kernel

theorem test_decode_major_1c : decodesAll
  [([0x01D50271, 0x0010C08B], .vcmp ⟨2, 20, 29, 11, 0, 2, 0, 0x43⟩),
   ([0x05D50271, 0x0010C08B], .vfcmp ⟨2, 20, 29, 11, 0, 2, 0, 0x43⟩),
   ([0x09D50271, 0x0003008B], .vtcmp ⟨2, 20, 29, 11, 0, 2, 0, 0xc⟩),
   ([0x0DD50371, 0x0010C38B], .vsel ⟨3, 20, 29, 11, 0, 2, 3, 0x43⟩),
   ([0x10614271, 0x0000008B], .kand ⟨2, 5, 6, 11, 0, 2, 0, 0x0⟩),
   ([0x14614271, 0x0000008B], .kor ⟨2, 5, 6, 11, 0, 2, 0, 0x0⟩),
   ([0x18614271, 0x0000008B], .kxor ⟨2, 5, 6, 11, 0, 2, 0, 0x0⟩),
   ([0x1C014271, 0x0000008B], .knot ⟨2, 5, 0, 11, 0, 2, 0, 0x0⟩),
   ([0x20024271, 0x0000008B], .kset ⟨2, 9, 0, 11, 0, 2, 0, 0x0⟩),
   ([0x24014571, 0x0000008B], .kget ⟨5, 5, 0, 11, 0, 2, 0, 0x0⟩)] := by decide +kernel

theorem test_decode_major_1d : decodesAll
  [([0x00050375, 0x10B8C08B], .vcvt ⟨3, 20, 0, 11, 0, 2, 0, 0x42e3⟩),
   ([0x04050375, 0x001A808B], .vpack ⟨3, 20, 0, 11, 0, 2, 0, 0x6a⟩),
   ([0x08050375, 0x001A808B], .vunpack ⟨3, 20, 0, 11, 0, 2, 0, 0x6a⟩)] := by decide +kernel

theorem test_decode_major_1e : decodesAll
  [([0x00024379, 0x0000408B], .vbcast ⟨3, 9, 0, 11, 0, 2, 0, 0x1⟩),
   ([0x05A50579, 0x0050818B], .vext ⟨5, 20, 26, 11, 0, 2, 1, 0x142⟩),
   ([0x09D50379, 0x0040818B], .vperm ⟨3, 20, 29, 11, 0, 2, 1, 0x102⟩),
   ([0x0DA50379, 0x0050818B], .vslide ⟨3, 20, 26, 11, 0, 2, 1, 0x142⟩),
   ([0x10008179, 0x0840818B], .vred ⟨1, 2, 0, 11, 0, 2, 1, 0x2102⟩),
   ([0x14050379, 0x0640818B], .vscan ⟨3, 20, 0, 11, 0, 2, 1, 0x1902⟩)] := by decide +kernel

theorem test_decode_major_1f : decodesAll
  [([0x0002437D, 0xA970C38B], .vld ⟨3, 9, 0, 11, 0, 2, 3, 0x2a5c3⟩),
   ([0x0002437E, 0x0000038B, 0x23456789], .vldX ⟨3, 9, 0, 11, 0, 2, 3, 0x23456789⟩),
   ([0x0402437D, 0xA970C38B], .vst ⟨3, 9, 0, 11, 0, 2, 3, 0x2a5c3⟩),
   ([0x0402437E, 0x0000038B, 0x23456789], .vstX ⟨3, 9, 0, 11, 0, 2, 3, 0x23456789⟩),
   ([0x09A2437D, 0xA970C38B], .vlds ⟨3, 9, 26, 11, 0, 2, 3, 0x2a5c3⟩),
   ([0x09A2437E, 0x0000038B, 0x23456789], .vldsX ⟨3, 9, 26, 11, 0, 2, 3, 0x23456789⟩),
   ([0x0DA2437D, 0xA970C38B], .vsts ⟨3, 9, 26, 11, 0, 2, 3, 0x2a5c3⟩),
   ([0x0DA2437E, 0x0000038B, 0x23456789], .vstsX ⟨3, 9, 26, 11, 0, 2, 3, 0x23456789⟩),
   ([0x11D2437D, 0xA970C38B], .vldx ⟨3, 9, 29, 11, 0, 2, 3, 0x2a5c3⟩),
   ([0x11D2437E, 0x0000038B, 0x23456789], .vldxX ⟨3, 9, 29, 11, 0, 2, 3, 0x23456789⟩),
   ([0x15D2437D, 0xA970C38B], .vstx ⟨3, 9, 29, 11, 0, 2, 3, 0x2a5c3⟩),
   ([0x15D2437E, 0x0000038B, 0x23456789], .vstxX ⟨3, 9, 29, 11, 0, 2, 3, 0x23456789⟩)] := by decide +kernel

theorem test_decode_major_28 : decodesAll
  [([0x000001A1, 0x0019008B], .mfmt ⟨1, 0, 0, 11, 0, 2, 0, 0x64⟩),
   ([0x040240A1, 0xA970C18B], .mscl ⟨0, 9, 0, 11, 0, 2, 1, 0x2a5c3⟩),
   ([0x040240A2, 0x0000018B, 0x23456789], .msclX ⟨0, 9, 0, 11, 0, 2, 1, 0x23456789⟩),
   ([0x080241A1, 0xA970E38B], .mlb ⟨1, 9, 0, 11, 0, 2, 35, 0x2a5c3⟩),
   ([0x080241A2, 0x0000238B, 0x23456789], .mlbX ⟨1, 9, 0, 11, 0, 2, 35, 0x23456789⟩),
   ([0x0C1241A1, 0xA970E38B], .mma ⟨1, 9, 1, 11, 0, 2, 35, 0x2a5c3⟩),
   ([0x0C1241A2, 0x0000238B, 0x23456789], .mmaX ⟨1, 9, 1, 11, 0, 2, 35, 0x23456789⟩),
   ([0x100001A1, 0x0000238B], .mrot ⟨1, 0, 0, 11, 0, 2, 35, 0x0⟩),
   ([0x140001A1, 0x0000008B], .mzero ⟨1, 0, 0, 11, 0, 2, 0, 0x0⟩),
   ([0x180241A1, 0x1432238B], .mdrain ⟨1, 9, 0, 11, 0, 2, 35, 0x50c8⟩),
   ([0x1DA083A1, 0x0004838B], .mrow ⟨3, 2, 26, 11, 0, 2, 3, 0x12⟩)] := by decide +kernel

theorem test_decode_major_2c : decodesAll
  [([0x01A251B1, 0x0003238B], .falloc ⟨17, 9, 26, 11, 0, 2, 35, 0xc⟩),
   ([0x040240B1, 0x0000008B], .ffree ⟨0, 9, 0, 11, 0, 2, 0, 0x0⟩),
   ([0x09A240B1, 0x0003018B], .sarm ⟨0, 9, 26, 11, 0, 2, 1, 0xc⟩),
   ([0x0C0240B1, 0x0134818B], .sig ⟨0, 9, 0, 11, 0, 2, 1, 0x4d2⟩),
   ([0x0C0240B2, 0x0000018B, 0x23456789], .sigX ⟨0, 9, 0, 11, 0, 2, 1, 0x23456789⟩),
   ([0x11A240B1, 0x0000018B], .sigv ⟨0, 9, 26, 11, 0, 2, 1, 0x0⟩),
   ([0x15A251B1, 0x0000018B], .sigb ⟨17, 9, 26, 11, 0, 2, 1, 0x0⟩),
   ([0x180240B1, 0x0000018B], .fire ⟨0, 9, 0, 11, 0, 2, 1, 0x0⟩),
   ([0x1C0245B1, 0x0000008B], .sget ⟨5, 9, 0, 11, 0, 2, 0, 0x0⟩),
   ([0x200240B1, 0x00D2A38B], .ldf ⟨0, 9, 0, 11, 0, 2, 35, 0x34a⟩),
   ([0x25A240B1, 0x0003008B], .stf ⟨0, 9, 26, 11, 0, 2, 0, 0xc⟩)] := by decide +kernel

theorem test_decode_major_2d : decodesAll
  [([0x01A251B5, 0x001AA38B], .rinit ⟨17, 9, 26, 11, 0, 2, 35, 0x6a⟩),
   ([0x040240B5, 0x0003238B], .racq ⟨0, 9, 0, 11, 0, 2, 35, 0xc⟩),
   ([0x080240B5, 0x0003238B], .rcom ⟨0, 9, 0, 11, 0, 2, 35, 0xc⟩),
   ([0x0C0240B5, 0x0003238B], .rpeek ⟨0, 9, 0, 11, 0, 2, 35, 0xc⟩),
   ([0x100240B5, 0x0003238B], .rrel ⟨0, 9, 0, 11, 0, 2, 35, 0xc⟩)] := by decide +kernel

theorem test_decode_major_30 : decodesAll
  [([0x005245C0], .ldC ⟨5, 9, 5⟩),
   ([0x000245C1, 0xA970C18B], .ld ⟨5, 9, 0, 11, 0, 2, 1, 0x2a5c3⟩),
   ([0x000245C2, 0x0000018B, 0x23456789], .ldX ⟨5, 9, 0, 11, 0, 2, 1, 0x23456789⟩),
   ([0x045251C0], .stC ⟨17, 9, 5⟩),
   ([0x040251C1, 0xA970C18B], .st ⟨17, 9, 0, 11, 0, 2, 1, 0x2a5c3⟩),
   ([0x040251C2, 0x0000018B, 0x23456789], .stX ⟨17, 9, 0, 11, 0, 2, 1, 0x23456789⟩)] := by decide +kernel

theorem test_decode_major_31 : decodesAll
  [([0x000240C5, 0x001AA38B], .ldrm ⟨0, 9, 0, 11, 0, 2, 35, 0x6a⟩),
   ([0x05A240C5, 0x0000238B], .strm ⟨0, 9, 26, 11, 0, 2, 35, 0x0⟩)] := by decide +kernel

theorem test_decode_major_32 : decodesAll
  [([0x01A240C9, 0x0003238B], .aadd ⟨0, 9, 26, 11, 0, 2, 35, 0xc⟩),
   ([0x05A240C9, 0x0003238B], .amin ⟨0, 9, 26, 11, 0, 2, 35, 0xc⟩),
   ([0x09A240C9, 0x0003238B], .amax ⟨0, 9, 26, 11, 0, 2, 35, 0xc⟩),
   ([0x0DA240C9, 0x0003238B], .aminu ⟨0, 9, 26, 11, 0, 2, 35, 0xc⟩),
   ([0x11A240C9, 0x0003238B], .amaxu ⟨0, 9, 26, 11, 0, 2, 35, 0xc⟩),
   ([0x15A240C9, 0x0003238B], .aand ⟨0, 9, 26, 11, 0, 2, 35, 0xc⟩),
   ([0x19A240C9, 0x0003238B], .aor ⟨0, 9, 26, 11, 0, 2, 35, 0xc⟩),
   ([0x1DA240C9, 0x0003238B], .axor ⟨0, 9, 26, 11, 0, 2, 35, 0xc⟩),
   ([0x21A240C9, 0x0003238B], .aswp ⟨0, 9, 26, 11, 0, 2, 35, 0xc⟩),
   ([0x25A251C9, 0x0003238B], .acas ⟨17, 9, 26, 11, 0, 2, 35, 0xc⟩),
   ([0x29A240C9, 0x020B238B], .afadd ⟨0, 9, 26, 11, 0, 2, 35, 0x82c⟩),
   ([0x2C3240C9, 0x0080238B], .aspadd ⟨0, 9, 3, 11, 0, 2, 35, 0x200⟩)] := by decide +kernel

theorem test_decode_major_33 : decodesAll
  [([0x000000CD, 0x0000408B], .fence ⟨0, 0, 0, 11, 0, 2, 0, 0x1⟩)] := by decide +kernel

theorem test_decode_major_34 : decodesAll
  [([0x01A240D1, 0x0000238B], .twld ⟨0, 9, 26, 11, 0, 2, 35, 0x0⟩),
   ([0x05A240D1, 0x0000238B], .twst ⟨0, 9, 26, 11, 0, 2, 35, 0x0⟩),
   ([0x09A251D1, 0x0000238B], .twmc ⟨17, 9, 26, 11, 0, 2, 35, 0x0⟩),
   ([0x0DA241D1, 0x0003238B], .twg ⟨1, 9, 26, 11, 0, 2, 35, 0xc⟩),
   ([0x11A241D1, 0x0003238B], .tws ⟨1, 9, 26, 11, 0, 2, 35, 0xc⟩),
   ([0x15A240D1, 0x0000238B], .twq ⟨0, 9, 26, 11, 0, 2, 35, 0x0⟩),
   ([0x180240D1, 0x0003238B], .twcan ⟨0, 9, 0, 11, 0, 2, 35, 0xc⟩)] := by decide +kernel

theorem test_decode_major_38 : decodesAll
  [([0x000000E1, 0x0000008B], .stepd ⟨0, 0, 0, 11, 0, 2, 0, 0x0⟩),
   ([0x05A240E1, 0x0134A38B], .ldst ⟨0, 9, 26, 11, 0, 2, 35, 0x4d2⟩),
   ([0x09A240E1, 0x0003238B], .stepq ⟨0, 9, 26, 11, 0, 2, 35, 0xc⟩)] := by decide +kernel

theorem test_decode_major_39 : decodesAll
  [([0x000240E5, 0x0000238B], .sqtab ⟨0, 9, 0, 11, 0, 2, 35, 0x0⟩),
   ([0x05A240E5, 0x0000238B], .sqinit ⟨0, 9, 26, 11, 0, 2, 35, 0x0⟩),
   ([0x09A000E5, 0x0000408B], .sqstage ⟨0, 0, 26, 11, 0, 2, 0, 0x1⟩),
   ([0x0DA000E5, 0x0000008B], .sqstep ⟨0, 0, 26, 11, 0, 2, 0, 0x0⟩),
   ([0x11A000E5, 0x001AA38B], .sqrd ⟨0, 0, 26, 11, 0, 2, 35, 0x6a⟩)] := by decide +kernel

theorem test_decode_major_3c : decodesAll
  [([0x000245F1, 0x0000638B], .glaunch ⟨5, 9, 0, 11, 0, 2, 35, 0x1⟩),
   ([0x040240F1, 0x0003238B], .gquery ⟨0, 9, 0, 11, 0, 2, 35, 0xc⟩),
   ([0x080240F1, 0x0003238B], .gcan ⟨0, 9, 0, 11, 0, 2, 35, 0xc⟩)] := by decide +kernel

theorem test_decode_major_3e : decodesAll
  [([0x000005F9, 0x0000808B], .sysr ⟨5, 0, 0, 11, 0, 2, 0, 0x2⟩),
   ([0x040240F9, 0x0008008B], .sysw ⟨0, 9, 0, 11, 0, 2, 0, 0x20⟩),
   ([0x080000F9, 0x0134808B], .trap ⟨0, 0, 0, 11, 0, 2, 0, 0x4d2⟩),
   ([0x080000FA, 0x0000008B, 0x23456789], .trapX ⟨0, 0, 0, 11, 0, 2, 0, 0x23456789⟩),
   ([0x0DA240F9, 0x0000008B], .brk ⟨0, 9, 26, 11, 0, 2, 0, 0x0⟩),
   ([0x100000F9, 0x0003238B], .snap ⟨0, 0, 0, 11, 0, 2, 35, 0xc⟩)] := by decide +kernel
theorem test_decode_worked_a : decodesAll
  [([0x14204301, 0x00000000], .div ⟨3, 1, 2, 0, 0, 0, 0, 0x0⟩),
   ([0x0051020D, 0x00000600], .cmp ⟨2, 4, 5, 0, 0, 0, 6, 0x0⟩),
   ([0x0400C10D, 0x00190200], .cmpi ⟨1, 3, 0, 0, 0, 0, 2, 0x64⟩),
   ([0x0081C615, 0x00000200], .sel ⟨6, 7, 8, 0, 0, 0, 2, 0x0⟩),
   ([0x0C00001D, 0x00000003], .ret ⟨0, 0, 0, 3, 0, 0, 0, 0x0⟩),
   ([0x0C204441, 0x00004300], .ffma ⟨4, 1, 2, 0, 0, 0, 3, 0x1⟩),
   ([0x28614145, 0x00004200], .tcmp ⟨1, 5, 6, 0, 0, 0, 2, 0x1⟩),
   ([0x04308149, 0x00010000], .spfma ⟨1, 2, 3, 0, 0, 0, 0, 0x4⟩),
   ([0x14004749, 0x0009C000], .sprnd ⟨7, 1, 0, 0, 0, 0, 0, 0x27⟩),
   ([0x18024249, 0x00100000], .spld ⟨2, 9, 0, 0, 0, 0, 0, 0x40⟩),
   ([0x0000424D, 0x001D4000], .cvt ⟨2, 1, 0, 0, 0, 0, 0, 0x75⟩),
   ([0x000002A1, 0x00150000], .mfmt ⟨2, 0, 0, 0, 0, 0, 0, 0x54⟩),
   ([0x080241A1, 0x03000C00], .mlb ⟨1, 9, 0, 0, 0, 0, 12, 0xc00⟩),
   ([0x0C0241A1, 0x00000C00], .mma ⟨1, 9, 0, 0, 0, 0, 12, 0x0⟩),
   ([0x100000A1, 0x00000E00], .mrot ⟨0, 0, 0, 0, 0, 0, 14, 0x0⟩),
   ([0x180501A1, 0x1F020D00], .mdrain ⟨1, 20, 0, 0, 0, 0, 13, 0x7c08⟩)] := by decide +kernel

theorem test_decode_worked_b : decodesAll
  [([0x0040C0B1, 0x000B0C00], .falloc ⟨0, 3, 4, 0, 0, 0, 12, 0x2c⟩),
   ([0x040240B1, 0x00000000], .ffree ⟨0, 9, 0, 0, 0, 0, 0, 0x0⟩),
   ([0x087180B1, 0x0002D000], .sarm ⟨0, 6, 7, 0, 0, 0, 16, 0xb⟩),
   ([0x0C0240B1, 0x00004C00], .sig ⟨0, 9, 0, 0, 0, 0, 12, 0x1⟩),
   ([0x106140B1, 0x00000900], .sigv ⟨0, 5, 6, 0, 0, 0, 9, 0x0⟩),
   ([0x2470C0B1, 0x00038000], .stf ⟨0, 3, 7, 0, 0, 0, 0, 0xe⟩),
   ([0x1001C0B5, 0x000BCC00], .rrel ⟨0, 7, 0, 0, 0, 0, 12, 0x2f⟩),
   ([0x000245C1, 0x00050100], .ld ⟨5, 9, 0, 0, 0, 0, 1, 0x14⟩),
   ([0x0001C0C5, 0x00030C00], .ldrm ⟨0, 7, 0, 0, 0, 0, 12, 0xc⟩),
   ([0x0481C0C5, 0x03480000], .strm ⟨0, 7, 8, 0, 0, 0, 0, 0xd20⟩),
   ([0x285100C9, 0x020B0C00], .afadd ⟨0, 4, 5, 0, 0, 0, 12, 0x82c⟩),
   ([0x245106C9, 0x02034C00], .acas ⟨6, 4, 5, 0, 0, 0, 12, 0x80d⟩),
   ([0x000000CD, 0x0000C000], .fence ⟨0, 0, 0, 0, 0, 0, 0, 0x3⟩),
   ([0x0C6108D1, 0x0001CC10], .twg ⟨8, 4, 6, 0, 1, 0, 12, 0x7⟩),
   ([0x180300D1, 0x0003CD00], .twcan ⟨0, 12, 0, 0, 0, 0, 13, 0xf⟩),
   ([0x000000E1, 0x00000000], .stepd ⟨0, 0, 0, 0, 0, 0, 0, 0x0⟩)] := by decide +kernel

theorem test_decode_worked_c : decodesAll
  [([0x0481C0E1, 0x00CB0C00], .ldst ⟨0, 7, 8, 0, 0, 0, 12, 0x32c⟩),
   ([0x086140E1, 0x00034D00], .stepq ⟨0, 5, 6, 0, 0, 0, 13, 0xd⟩),
   ([0x000240E5, 0x00000C00], .sqtab ⟨0, 9, 0, 0, 0, 0, 12, 0x0⟩),
   ([0x04A240E5, 0x00000C00], .sqinit ⟨0, 9, 10, 0, 0, 0, 12, 0x0⟩),
   ([0x08A000E5, 0x00004000], .sqstage ⟨0, 0, 10, 0, 0, 0, 0, 0x1⟩),
   ([0x0CA000E5, 0x00000000], .sqstep ⟨0, 0, 10, 0, 0, 0, 0, 0x0⟩),
   ([0x10A000E5, 0x00238C00], .sqrd ⟨0, 0, 10, 0, 0, 0, 12, 0x8e⟩),
   ([0x00AF01C0], .ldC ⟨1, 60, 10⟩),
   ([0x0001010D, 0x00000100], .cmp ⟨1, 4, 0, 0, 0, 0, 1, 0x0⟩),
   ([0x243100B1, 0x0002C001], .stf ⟨0, 4, 3, 1, 0, 0, 0, 0xb⟩),
   ([0x243140B1, 0x00028002], .stf ⟨0, 5, 3, 2, 0, 0, 0, 0xa⟩),
   ([0x0C0100B1, 0x00005001], .sig ⟨0, 4, 0, 1, 0, 0, 16, 0x1⟩),
   ([0x0C0140B1, 0x00005002], .sig ⟨0, 5, 0, 2, 0, 0, 16, 0x1⟩),
   ([0x00AF05C0], .ldC ⟨5, 60, 10⟩),
   ([0x00000CC1, 0x00400100], .ld ⟨12, 0, 0, 0, 0, 0, 1, 0x100⟩),
   ([0x00204641, 0x00000000], .fadd ⟨6, 1, 2, 0, 0, 0, 0, 0x0⟩)] := by decide +kernel

theorem test_decode_worked_d : decodesAll
  [([0x048240C5, 0x04080A00], .strm ⟨0, 9, 8, 0, 0, 0, 10, 0x1020⟩),
   ([0x0002C0B1, 0x000C0C00], .falloc ⟨0, 11, 0, 0, 0, 0, 12, 0x30⟩),
   ([0x24B240B1, 0x00030000], .stf ⟨0, 9, 11, 0, 0, 0, 0, 0xc⟩),
   ([0x0C02C0B1, 0x00005000], .sig ⟨0, 11, 0, 0, 0, 0, 16, 0x1⟩),
   ([0x040340B1, 0x00000000], .ffree ⟨0, 13, 0, 0, 0, 0, 0, 0x0⟩),
   ([0x00001461, 0x00010000], .lclaim ⟨20, 0, 0, 0, 0, 0, 0, 0x4⟩),
   ([0x2003C171, 0x00000000], .kset ⟨1, 15, 0, 0, 0, 0, 0, 0x0⟩),
   ([0x0007847D, 0x00000100], .vld ⟨4, 30, 0, 0, 0, 0, 1, 0x0⟩),
   ([0x10510365, 0x00004000], .vmad ⟨3, 4, 5, 0, 0, 0, 0, 0x1⟩),
   ([0x3840C365, 0x00104000], .vrshr ⟨3, 3, 4, 0, 0, 0, 0, 0x41⟩),
   ([0x3C00C365, 0x00004800], .vsat ⟨3, 3, 0, 0, 0, 0, 8, 0x1⟩),
   ([0x0400C675, 0x00024000], .vpack ⟨6, 3, 0, 0, 0, 0, 0, 0x9⟩),
   ([0x0406067D, 0x00000200], .vst ⟨6, 24, 0, 0, 0, 0, 2, 0x0⟩),
   ([0x08004275, 0x0002400B], .vunpack ⟨2, 1, 0, 11, 0, 0, 0, 0x9⟩),
   ([0x0023830D, 0x00000900], .cmp ⟨3, 14, 2, 0, 0, 0, 9, 0x0⟩),
   ([0x0C001419, 0x00000000], .rdcnt ⟨20, 0, 0, 0, 0, 0, 0, 0x0⟩)] := by decide +kernel

theorem test_decode_worked_e : decodesAll
  [([0x000080C5, 0x000C0100], .ldrm ⟨0, 2, 0, 0, 0, 0, 1, 0x30⟩),
   ([0x044180C5, 0x04080000], .strm ⟨0, 6, 4, 0, 0, 0, 0, 0x1020⟩),
   ([0x088000E5, 0x00000001], .sqstage ⟨0, 0, 8, 1, 0, 0, 0, 0x0⟩),
   ([0x088000E5, 0x00004009], .sqstage ⟨0, 0, 8, 9, 0, 0, 0, 0x1⟩),
   ([0x0C8000E5, 0x00000000], .sqstep ⟨0, 0, 8, 0, 0, 0, 0, 0x0⟩),
   ([0x000245F1, 0x00008C00], .glaunch ⟨5, 9, 0, 0, 0, 0, 12, 0x2⟩),
   ([0x040140F1, 0x00034C00], .gquery ⟨0, 5, 0, 0, 0, 0, 12, 0xd⟩),
   ([0x080140F1, 0x00038000], .gcan ⟨0, 5, 0, 0, 0, 0, 0, 0xe⟩),
   ([0x000452F1, 0x00011300], .glaunch ⟨18, 17, 0, 0, 0, 0, 19, 0x4⟩),
   ([0x1144C0B1, 0x00001000], .sigv ⟨0, 19, 20, 0, 0, 0, 16, 0x0⟩),
   ([0x040380B1, 0x00000000], .ffree ⟨0, 14, 0, 0, 0, 0, 0, 0x0⟩),
   ([0x100F4E09, 0x00710000], .bext ⟨14, 61, 0, 0, 0, 0, 0, 0x1c4⟩),
   ([0x0401C9C1, 0x00000003], .st ⟨9, 7, 0, 3, 0, 0, 0, 0x0⟩),
   ([0x00065AC1, 0xFFFE0000], .ld ⟨26, 25, 0, 0, 0, 0, 0, 0x3fff8⟩),
   ([0x00001006, 0x00000000, 0x00020000], .addiX ⟨16, 0, 0, 0, 0, 0, 0, 0x20000⟩),
   ([0x008180D1, 0x00000510], .twld ⟨0, 6, 8, 0, 1, 0, 5, 0x0⟩)] := by decide +kernel

theorem test_decode_worked_f : decodesAll
  [([0x047180D1, 0x00000500], .twst ⟨0, 6, 7, 0, 0, 0, 5, 0x0⟩),
   ([0x000000A1, 0x000CC000], .mfmt ⟨0, 0, 0, 0, 0, 0, 0, 0x33⟩),
   ([0x0C0000A1, 0x04000500], .mma ⟨0, 0, 0, 0, 0, 0, 5, 0x1000⟩),
   ([0x180180A1, 0x0F01C500], .mdrain ⟨0, 6, 0, 0, 0, 0, 5, 0x3c07⟩),
   ([0x0000477D, 0x30200000], .vld ⟨7, 1, 0, 0, 0, 0, 0, 0xc080⟩),
   ([0x00010475, 0x10380000], .vcvt ⟨4, 4, 0, 0, 0, 0, 0, 0x40e0⟩),
   ([0x04010875, 0x00080000], .vpack ⟨8, 4, 0, 0, 0, 0, 0, 0x20⟩),
   ([0x000000CD, 0x00000000], .fence ⟨0, 0, 0, 0, 0, 0, 0, 0x0⟩),
   ([0x000005F9, 0x00008000], .sysr ⟨5, 0, 0, 0, 0, 0, 0, 0x2⟩),
   ([0x0400C0F9, 0x00080000], .sysw ⟨0, 3, 0, 0, 0, 0, 0, 0x20⟩),
   ([0x080000F9, 0x0001C000], .trap ⟨0, 0, 0, 0, 0, 0, 0, 0x7⟩),
   ([0x0C2040F9, 0x00000000], .brk ⟨0, 1, 2, 0, 0, 0, 0, 0x0⟩),
   ([0x100000F9, 0x00030C00], .snap ⟨0, 0, 0, 0, 0, 0, 12, 0xc⟩)] := by decide +kernel
/-- The next state of an instruction; the state itself where it has none. -/
noncomputable def run (i : Instr) (s : State) : State := match exec i s with | .next t => t | _ => s
/-- A list of instructions, one after another. -/
noncomputable def runs (l : List Instr) (s : State) : State := l.foldl (fun t i => run i t) s
/-- A state in which context 0 of core 0 runs a firing, with some scalar registers. -/
def lab (l : List (Nat × Word)) : State :=
  { State.reset with cores := [(0, { Core.init with ctx0 := { Ctx.init with busy := true, s := l } })] }
/-- A W form without guard, class and hint. -/
abbrev w (d a b c : BitVec 6) (sub : BitVec 18) : WForm := ⟨d, a, b, 0, 0, 0, c, sub⟩
/-- s7 after an instruction. -/
noncomputable def s7 (i : Instr) (s : State) : Word := (run i s).ctx.s.get 0 7

/-- The sample values of the scalar chapter. -/
def samples : State := lab [(1, 0xFFFFFFFFFFFFFFF9), (2, 2), (4, 0x8000000000000000), (5, 0xFFFFFFFFFFFFFFFF), (6, 65)]

/-- "Results on sample values" of the scalar chapter. -/
theorem test_scalar_samples : ∀ p ∈ ([
    (.div (w 7 1 2 0 0), 0xFFFFFFFFFFFFFFFD), (.rem (w 7 1 2 0 0), 0xFFFFFFFFFFFFFFFF), (.divu (w 7 1 2 0 0), 0x7FFFFFFFFFFFFFFC),
    (.div (w 7 1 3 0 0), 0xFFFFFFFFFFFFFFFF), (.rem (w 7 1 3 0 0), 0xFFFFFFFFFFFFFFF9), (.div (w 7 4 5 0 0), 0x8000000000000000),
    (.shl (w 7 2 6 0 0), 4), (.sar (w 7 1 2 0 0), 0xFFFFFFFFFFFFFFFE), (.shr (w 7 1 2 0 0), 0x3FFFFFFFFFFFFFFE),
    (.mulh (w 7 1 2 0 0), 0xFFFFFFFFFFFFFFFF), (.mulhu (w 7 1 2 0 0), 1), (.rol (w 7 4 2 0 0), 2), (.minu (w 7 1 2 0 0), 2),
    (.clz (w 7 3 0 0 0), 64), (.ctz (w 7 4 0 0 0), 63), (.bext (w 7 1 0 0 0xC1), 0xC), (.sext (w 7 6 0 0 6), 0xFFFFFFFFFFFFFFC1)]
    : List (Instr × Word)), s7 p.1 samples = p.2 := by decide +kernel

/-- The table of R116 on FP32 operands. -/
theorem test_float_results : ∀ p ∈ ([
    ((.fadd (w 7 1 2 0 2), 0x3F800000, 0xBF800000), 0x80000000), ((.fadd (w 7 1 2 0 0), 0x3F800000, 0xBF800000), 0),
    ((.fmul (w 7 1 2 0 1), 0x7F7FFFFF, 0x40000000), 0x7F7FFFFF), ((.fmul (w 7 1 2 0 0), 0x7F7FFFFF, 0x40000000), 0x7F800000),
    ((.fdiv (w 7 1 2 0 0), 0x3F800000, 0x80000000), 0xFF800000), ((.fdiv (w 7 1 2 0 0), 0, 0), 0x7FC00000),
    ((.fsqrt (w 7 1 0 0 0), 0x80000000, 0), 0x80000000), ((.fsqrt (w 7 1 0 0 0), 0xBF800000, 0), 0x7FC00000),
    ((.ffma (w 7 1 2 3 0), 0, 0x7F800000), 0x7FC00000), ((.fmin (w 7 1 2 0 0), 0, 0x80000000), 0x80000000),
    ((.fmax (w 7 1 2 0 0), 0xFFC12345, 0x3F800000), 0x3F800000), ((.fneg (w 7 1 0 0 0), 0xFFC12345, 0), 0x7FC00000)]
    : List ((Instr × Word × Word) × Word)), s7 p.1.1 (lab [(1, p.1.2.1), (2, p.1.2.2), (3, 0x3F800000)]) = p.2 := by decide +kernel

/-- The table of R120 on tapered operands. -/
theorem test_tapered_results : ∀ p ∈ ([
    ((.tadd (w 7 1 2 0 0), 0x40, 0x40), 0x50), ((.tmul (w 7 1 2 0 0), 0x7F, 0x7F), 0x7F), ((.tmul (w 7 1 2 0 0), 1, 1), 1),
    ((.tdiv (w 7 1 2 0 0), 0x40, 0), 0xFFFFFFFFFFFFFF80), ((.tmax (w 7 1 2 0 0), 0x80, 0xC0), 0xFFFFFFFFFFFFFFC0),
    ((.tsqrt (w 7 1 0 0 1), 0x6000, 0), 0x5000), ((.tfma (w 7 1 2 3 1), 0x4001, 0x4001), 0x180), ((.tabs (w 7 1 0 0 2), 0xC0000000, 0), 0x40000000)]
    : List ((Instr × Word × Word) × Word)), s7 p.1.1 (lab [(1, p.1.2.1), (2, p.1.2.2), (3, 0xC000)]) = p.2 := by decide +kernel

/-- The table of R126: dst at [17:14], src at [21:18], rm at [23:22]. -/
theorem test_conversions : ∀ p ∈ ([
    ((.cvt (w 7 1 0 0 0x75), 0x3DCCCCCD), 0x14CD), ((.cvt (w 7 1 0 0 0x57), 0x8000), 0x7FC00000), ((.cvt (w 7 1 0 0 0x74), 1), 1),
    ((.cvt (w 7 1 0 0 0x172), 0xC0300000), 0xFFFFFFFFFFFFFFFE), ((.cvt (w 7 1 0 0 0x70), 0x43960000), 0x7F), ((.cvt (w 7 1 0 0 0x72), 0x7FC00000), 0),
    ((.cvt (w 7 1 0 0 0x37), 0x01000001), 0x4B800000), ((.cvt (w 7 1 0 0 0x337), 0x01000001), 0x4B800001), ((.cvt (w 7 1 0 0 0x79), 0x447A0000), 0x7E),
    ((.cvt (w 7 1 0 0 0xA7), 0x7C), 0x7F800000), ((.cvt (w 7 1 0 0 0x78), 0xFFC00001), 0x7FC0), ((.cvt (w 7 1 0 0 0x54), 0x4001), 0x40)]
    : List ((Instr × Word) × Word)), s7 p.1.1 (lab [(1, p.1.2)]) = p.2 := by decide +kernel

/-- "Order does not change a spool sum". -/
theorem test_spool_order :
    let s := lab [(1, 0x7F), (2, 1), (3, 0xFFFFFFFFFFFFFF81), (4, 0x40)]
    ∀ l ∈ [[1, 2, 3], [1, 3, 2]], (runs ((.spz (w 0 0 0 0 0)) :: l.map (fun a => .spfma (w 0 (BitVec.ofNat 6 a) 4 0 4)) ++
      [.sprnd (w 7 0 0 0 7)]) s).ctx.s.get 0 7 = 0x39800000 := by decide +kernel
/-! ### States for the tests -/

/-- An answer without a fault code, and what holds of it. -/
def okAnd {α : Type} (e : Except Code α) (p : α → Bool) : Bool := match e with | .ok a => p a | .error _ => false
/-- A fault code. -/
def faultsWith {α : Type} (e : Except Code α) (c : Code) : Bool := match e with | .error d => d == c | .ok _ => false
/-- A state without the cycle counters, which rise by amounts that are left open. -/
def bare (s : State) : State := { s with cores := s.cores.map (fun x => (x.1, { x.2 with cyc := 0 })) }
/-- An outcome is a given next state. -/
def gives (o : Out) (t : State) : Bool := match o with | .next u => decide (bare u = bare t) | _ => false
/-- What holds of a next state. -/
def nextHas (o : Out) (p : State → Bool) : Bool := match o with | .next u => p u | _ => false
/-- W and X forms without guard, class and hint. -/
abbrev wf (d a b c : BitVec 6) (sub : BitVec 18) : WForm := ⟨d, a, b, 0, 0, 0, c, sub⟩
abbrev xf (d a b c : BitVec 6) (lit : BitVec 32) : XForm := ⟨d, a, b, 0, 0, 0, c, lit⟩

def block0 : CodeBlock := { graph := 0, entries := [0, 4, 8, 12, 16, 20, 24, 28], templates := [] }
def graph0 : Graph :=
  { root := 0, codeLo := 0, codeHi := 64, depth := 2, policy := none, pace := none, tensors := [5, 6, 7], leases := [⟨5, 0, 4, true⟩, ⟨6, 0, 4, true⟩, ⟨7, 0, 4, true⟩]
    sections := [], splices := [] }
def image0 : Image :=
  { frames := 4, code := [], blocks := [block0, block0]
    graphs := [graph0, { graph0 with pace := some { depth := 2, dep := [(1, 0)], watch := [(1, 0)] } }], descs := [], splices := [] }
/-- The handle and the launch of the running instance. -/
def handle0 : Word := mkHandle 1 127 0
def inst0 : Inst :=
  { part := 0, handle := handle0, graph := 0, key := 0, args := [], depth := 1, limit := 2, comp := none, state := 1, reason := 0
    arrived := true, cast := [], credit := false, die := 0, quarter := 4, stopping := 0, waiters := [], record := 0, tag := 0, host := false
    ended := 0, started := true, copy := [] }
def key0 : Nat := State.instKey 0 handle0
/-- A firing of frame 0 of core 0 under that instance, with scalar registers. -/
def firing (l : List (Nat × Word)) : Ctx := { Ctx.init with busy := true, fid := 9, inst := key0, depth := 1, limit := 2, s := l }
/-- Dies 0 and 1 are partition 0's; core 0 runs the firing, whose frame is allocated. -/
def site (k : Ctx) : State :=
  { State.reset with
    cores := [(0, { Core.init with ctx0 := k, owners := [(0, { inst := key0, depth := 1, limit := 2 })] })]
    parts := [(0, { Part.init with image := some image0, splices := [(0, ⟨0, 1, 4, 0, []⟩), (1, ⟨1, 0, 4, 0, []⟩)] })]
    insts := [(key0, inst0)], seq := 20, mem := [(0x1FC02, 1)]
    mgmt := { Module.init with region := [(0, 0x4000), (1, 0x4000)] } }
/-! ### Statements about steps and registers -/

/-- The word of `addi s7, s7, 5` in the code store, with a count of issued instructions. -/
noncomputable def fetching (w n : Nat) : State := State.withFetchWord (site { firing [] with issued := n }) 64 w
/-- The state in which it issues. -/
noncomputable def issuing (w n : Nat) : State := { fetching w n with sched := [], tick := 1, cur := (0, 0) }

/-- O5, its three clauses at the limit of R39. -/
theorem test_meets_step :
    (issuing 0x000140000001C705 65535).ctx.busy = true ∧ ((issuing 0x000140000001C705 65535).core 0).dead = false ∧
    (issuing 0x000140000001C705 65535).ctx.issued = 65535 ∧
    decode (fetchBytes (issuing 0x000140000001C705 65535) 0 0) = .ok (.addi (wf 7 7 0 0 5)) ∧
    nextHas (step (fetching 0x000140000001C705 65535)) (fun t => t.ctx.s.get 0 7 == 5 && t.ctx.issued == 65536) = true ∧
    decode (fetchBytes (issuing 0x20 0) 0 0) = .error .illegal ∧
    nextHas (step (fetching 0x20 0)) (fun t => t.faults.map (·.code) == [0x01]) = true ∧
    nextHas (step { fetching 0x000140000001C705 0 with cores := [(0, { Core.init with ctx0 := { firing [] with issued := 65536 } })] })
      (fun t => t.faults.map (·.code) == [0x08] && t.ctx.busy == false) = true := by decide +kernel

/-- O5: both contexts of core 0 run, and context 0 issued last. -/
theorem test_meets_turns :
    let s := (site (firing [])).modCore 0 (fun c => { c with ctx1 := firing [], last := 0 })
    (s.core 0).last = 0 ∧ (State.ctxOf (s.core 0) (1 - 0)).busy = true ∧ (State.ctxOf (s.core 0) (1 - 1)).busy = true ∧ (s.core 0).last ≠ 1 := by
  decide +kernel

/-- O6: an event at the head of the schedule. -/
theorem test_meets_event :
    isEvent (.snapTrig 1) = true ∧
    nextHas (step { site (firing []) with sched := [.event (.snapTrig 1)] }) (fun t => t.mgmt.snapSeq == 1 && t.tick == 1) = true := by
  decide +kernel

/-- O7: a false guard, of both forms. -/
theorem test_meets_guard :
    guardHolds 8 (firing []) = false ∧ guardHolds 3 (firing []) = false ∧
    gives (exec (.add { wf 7 1 2 0 0 with guard := 8 }) (site (firing [(1, 5)]))) ((site (firing [(1, 5)])).countIssue 8) = true ∧
    gives (exec (.addiX { xf 7 1 0 0 3 with guard := 3 }) (site (firing [(1, 5)]))) ((site (firing [(1, 5)])).countIssue 12) = true := by
  decide +kernel

/-- A site whose ports hold words and whose outbound FIFO of east is full, of west one short. -/
def ported : State :=
  { site (firing [(1, 7), (55, 8), (63, 9)]) with
    cores := [(0, { Core.init with ctx0 := firing [(1, 7), (55, 8), (63, 9)], inq := [(0, [4, 5])]
                                   outq := [(1, List.replicate 16 1), (3, List.replicate 15 1)] })] }

/-- O9, O10: the registers at the ends of each range. -/
theorem test_meets_registers :
    (∀ p ∈ ([(ported.readS 1, 7), (ported.readS 55, 8), (ported.readS 63, 9), (ported.readS 56, 4), (ported.readS 0, 0), (ported.readS 62, 0)]
      : List (Except Code (Word × State) × Word)), okAnd p.1 (fun x => x.1 == p.2) = true) ∧
    okAnd (ported.readS 56) (fun x => (x.2.core 0).inq.get [] 0 == [5]) = true ∧ faultsWith (ported.readS 59) 0x05 = true ∧
    faultsWith (ported.writeS 57 3) 0x06 = true ∧ okAnd (ported.writeS 59 3) (fun t => ((t.core 0).outq.get [] 3).length == 16) = true ∧
    (∀ r ∈ ([1, 55, 63] : List (BitVec 6)), okAnd (ported.writeS r 6) (fun t => t.ctx.s.get 0 r.toNat == 6) = true) := by decide +kernel

/-- The site of the register statements. -/
def scalars : State := site { firing [(1, 0xFFFFFFFFFFFFFFF9), (2, 2), (3, 0x3F800000), (4, 5)] with p := 6 }

/-- O11: all 29 forms, with sources that are also read from a port. -/
theorem test_meets_scalar_binary :
    (∀ x ∈ Claims.binary, okAnd ((scalars.countIssue 8).readAB (wf 7 1 2 0 0)) (fun r =>
      okAnd (r.2.2.writeS 7 (x.2 r.1 r.2.1)) (fun t => gives (exec (x.1 (wf 7 1 2 0 0)) scalars) t)) = true) ∧
    (∀ x ∈ Claims.binaryC, okAnd ((scalars.countIssue 4).readS 1) (fun r => okAnd (r.2.readS 2) (fun q =>
      okAnd (q.2.writeS 7 (x.2 r.1 q.1)) (fun t => gives (exec (x.1 ⟨7, 1, 2⟩) scalars) t))) = true) := by decide +kernel

/-- O13, O14: all forms of majors 0x01 and 0x02. -/
theorem test_meets_immediate :
    ∀ x ∈ Claims.immediate,
      okAnd ((scalars.countIssue 8).readS 1) (fun r => okAnd (r.2.writeS 7 (x.2.2 r.1 (BitVec.ofInt 64 (0x3FFFD : BitVec 18).toInt)))
        (fun t => gives (exec (x.1 (wf 7 1 0 0 0x3FFFD)) scalars) t)) = true ∧
      okAnd ((scalars.countIssue 12).readS 1) (fun r => okAnd (r.2.writeS 7 (x.2.2 r.1 (BitVec.ofInt 64 (0x80000001 : BitVec 32).toInt)))
        (fun t => gives (exec (x.2.1 (xf 7 1 0 0 0x80000001)) scalars) t)) = true := by decide +kernel

/-- O14: what each instruction of major 0x02 asks for; A = 0xFFFFFFFFFFFFFFF9, and 0 for `clz` and `ctz`. -/
theorem test_meets_bit_fields :
    okAnd ((scalars.countIssue 8).readS 1) (fun r => r.1 == 0xFFFFFFFFFFFFFFF9) = true ∧
    (∀ p ∈ ([(.clz (wf 7 1 0 0 0), 0), (.clz (wf 7 9 0 0 0), 64), (.ctz (wf 7 1 0 0 0), 0), (.ctz (wf 7 9 0 0 0), 64), (.ctz (wf 7 2 0 0 0), 1),
      (.popc (wf 7 1 0 0 0), 62), (.brev (wf 7 1 0 0 0), 0x9FFFFFFFFFFFFFFF), (.bext (wf 7 1 0 0 0xC1), 12), (.bext (wf 7 1 0 0 0xFFF), 1),
      (.bins (wf 4 1 0 0 0xFC0), 0xFFFFFFFFFFFFFFF9), (.bins (wf 4 1 0 0 0xC1), 0x13), (.sext (wf 7 1 0 0 2), 1), (.sext (wf 7 1 0 0 3), 0xFFFFFFFFFFFFFFF9),
      (.zext (wf 7 1 0 0 3), 9), (.zext (wf 7 1 0 0 63), 0xFFFFFFFFFFFFFFF9)] : List (Instr × Word)),
      nextHas (exec p.1 scalars) (fun t => t.ctx.s.get 0 (match p.1 with | .bins f => f.d.toNat | _ => 7) == p.2) = true) := by decide +kernel

/-- O15: all conditions of -7 against 2, in the three forms. -/
theorem test_meets_compares :
    ∀ p ∈ ([(.cmp (wf 3 1 2 0 0), false), (.cmp (wf 3 1 2 1 0), true), (.cmp (wf 3 1 2 2 0), true), (.cmp (wf 3 1 2 3 0), true),
      (.cmp (wf 3 1 2 4 0), false), (.cmp (wf 3 1 2 5 0), false), (.cmp (wf 3 1 2 6 0), false), (.cmp (wf 3 1 2 7 0), false),
      (.cmp (wf 3 1 2 8 0), true), (.cmp (wf 3 1 2 9 0), true), (.cmpi (wf 3 1 0 0 0x3FFF9), true), (.cmpi (wf 3 1 0 4 0x3FFF9), false),
      (.cmpiX (xf 3 1 0 4 0xFFFFFFF8), true), (.cmpiX (xf 3 1 0 6 0xFFFFFFFA), true), (.cmp (wf 0 1 2 4 0), true)] : List (Instr × Bool)),
      nextHas (exec p.1 scalars) (fun t => t.readP (match p.1 with | .cmp f => f.d.toNat | _ => 3) == p.2) = true := by decide +kernel

/-- O16, O17: predicates 1 and 2 are true; each instruction with its result in s7, in predicate 3 or in all predicates. -/
theorem test_meets_predicates :
    (∀ p ∈ ([(.pand (wf 3 1 2 0 0), true), (.por (wf 3 4 2 0 0), true), (.pxor (wf 3 1 2 0 0), false), (.pnot (wf 3 4 0 0 0), true)] : List (Instr × Bool)),
      nextHas (exec p.1 scalars) (fun t => t.readP 3 == p.2) = true) ∧
    nextHas (exec (.pset (wf 0 4 0 0 0)) scalars) (fun t => t.readP 1 == false && t.readP 2) = true ∧
    (∀ p ∈ ([(.pget (wf 7 0 0 0 0), 7), (.sel (wf 7 2 4 1 0), 2), (.sel (wf 7 2 4 3 0), 5), (.lea (wf 7 4 2 7 0x3FFFF), 260),
      (.leaX (xf 7 4 2 1 0xFFFFFFFF), 8), (.rdcnt (wf 7 0 0 0 1), 0), (.rdcnt (wf 7 0 0 0 0x12), 0)] : List (Instr × Word)),
      nextHas (exec p.1 scalars) (fun t => t.ctx.s.get 0 7 == p.2) = true) ∧
    nextHas (exec (.rdcyc (wf 7 0 0 0 0)) scalars) (fun t => t.mem == scalars.mem) = true ∧
    (∀ i ∈ [Instr.nop (wf 0 0 0 0 0), .hint (wf 0 0 0 0 0)], gives (exec i scalars) (scalars.countIssue 8) = true) := by decide +kernel

/-- The site of the control statements. -/
def jumping : State := site (firing [(1, 60), (2, 64), (3, 2), (63, 8)])
/-- O18, O19: targets at both ends of the code range, one beyond it, and an unaligned one. -/
theorem test_meets_control :
    (∀ p ∈ ([(.br (wf 0 0 0 0 15), 60), (.br (wf 0 0 0 0 0), 0), (.brx (wf 0 1 0 0 0), 60), (.ret (wf 0 0 0 0 0), 8), (.brX (xf 0 0 0 0 1), 4),
      (.call (wf 0 0 0 0 2), 8), (.callX (xf 0 0 0 0 2), 8)] : List (Instr × Word)), nextHas (exec p.1 jumping) (fun t => t.ctx.pc == p.2) = true) ∧
    nextHas (exec (.call (wf 0 0 0 0 2)) jumping) (fun t => t.ctx.s.get 0 63 == 8) = true ∧
    nextHas (exec (.callX (xf 0 0 0 0 2)) jumping) (fun t => t.ctx.s.get 0 63 == 12) = true ∧
    (∀ p ∈ ([(.br (wf 0 0 0 0 16), 0x01), (.call (wf 0 0 0 0 0x3FFFF), 0x01), (.brx (wf 0 2 0 0 0), 0x01), (.brx (wf 0 3 0 0 0), 0x03)] : List (Instr × Code)),
      nextHas (exec p.1 jumping) (fun t => t.faults.map (·.code) == [p.2] && t.ctx.busy == false) = true) ∧
    (∀ p ∈ ([(exec (.ret (wf 0 0 0 0 0)) (site (firing [(63, 65)])), 0x03), (exec (.ret (wf 0 0 0 0 0)) (site (firing [(63, 64)])), 0x01), (exec (.brX (xf 0 0 0 0 16)) jumping, 0x01),
      (exec (.callX (xf 0 0 0 0 1)) (site { firing [] with pc := 2 }), 0x03), (exec (.br (wf 0 0 0 0 1)) (site { firing [] with pc := 2 }), 0x03)]
      : List (Out × Code)), nextHas p.1 (fun t => t.faults.map (·.code) == [p.2]) = true) ∧
    gives (exec (.endW (wf 0 0 0 0 0)) jumping) (jumping.countIssue 8).endFiring = true ∧ gives (exec (.endC ⟨0, 0, 0⟩) jumping) (jumping.countIssue 4).endFiring = true := by
  decide +kernel
/-! ### Statements about numbers and vectors -/

/-- FP32 and tapered operands: 1.5, −2, 3 and their codes. -/
def floats : State := site (firing [(1, 0x3FC00000), (2, 0xC0000000), (3, 0x40400000)])

/-- O20: every form of major 0x10, and the ten classes. -/
theorem test_meets_float :
    (∀ x ∈ Claims.float2, okAnd ((floats.countIssue 8).readAB (wf 7 1 2 0 1)) (fun r =>
      okAnd (r.2.2.writeS 7 ((x.2 (Claims.low r.1) (Claims.low r.2.1) 1).setWidth 64)) (fun t => gives (exec (x.1 (wf 7 1 2 0 1)) floats) t)) = true) ∧
    (∀ x ∈ Claims.float1, okAnd ((floats.countIssue 8).readS 1) (fun r =>
      okAnd (r.2.writeS 7 ((x.2 (Claims.low r.1) 2).setWidth 64)) (fun t => gives (exec (x.1 (wf 7 1 0 0 2)) floats) t)) = true) ∧
    okAnd (Claims.readABC (floats.countIssue 8) (wf 7 1 2 3 0)) (fun r => r.1 == 0x3FC00000 && r.2.2.1 == 0x40400000) = true ∧
    nextHas (exec (.ffma (wf 7 1 2 3 0)) floats) (fun t => t.ctx.s.get 0 7 == 0) = true ∧
    (∀ p ∈ ([(exec (.fclass (wf 7 1 0 0 0)) (site (firing [(1, 0xFF800000)])), 1), (exec (.fclass (wf 7 1 0 0 0)) (site (firing [(1, 0x80800000)])), 2),
      (exec (.fclass (wf 7 1 0 0 0)) (site (firing [(1, 0x807FFFFF)])), 4), (exec (.fclass (wf 7 1 0 0 0)) (site (firing [(1, 0x80000000)])), 8),
      (exec (.fclass (wf 7 1 0 0 0)) (site (firing [(1, 0)])), 16), (exec (.fclass (wf 7 1 0 0 0)) (site (firing [(1, 1)])), 32),
      (exec (.fclass (wf 7 1 0 0 0)) (site (firing [(1, 0x7F7FFFFF)])), 64), (exec (.fclass (wf 7 1 0 0 0)) (site (firing [(1, 0x7F800000)])), 128),
      (exec (.fclass (wf 7 1 0 0 0)) (site (firing [(1, 0x7FBFFFFF)])), 256), (exec (.fclass (wf 7 1 0 0 0)) (site (firing [(1, 0x7FC00000)])), 512)]
      : List (Out × Word)), nextHas p.1 (fun t => t.ctx.s.get 0 7 == p.2) = true) ∧
    (∀ p ∈ ([(.fcmp (wf 3 1 2 0 0), false), (.fcmp (wf 3 1 2 1 0), true), (.fcmp (wf 3 1 2 2 0), false), (.fcmp (wf 3 1 2 3 0), false),
      (.fcmp (wf 3 1 2 4 0), true), (.fcmp (wf 3 1 2 5 0), true), (.fcmp (wf 3 1 2 6 0), false)] : List (Instr × Bool)),
      nextHas (exec p.1 floats) (fun t => t.readP 3 == p.2) = true) := by decide +kernel

/-- TF16 operands: 1, −1, 2. -/
def tapers : State := site (firing [(1, 0x4000), (2, 0xFFFFFFFFFFFFC000), (3, 0x5000)])

/-- O21: every form of major 0x11, under TF16. -/
theorem test_meets_tapered :
    (∀ x ∈ Claims.tapered2, okAnd ((tapers.countIssue 8).readAB (wf 7 1 2 0 1)) (fun r =>
      okAnd (r.2.2.writeS 7 (Claims.place 1 (x.2 1 r.1 r.2.1))) (fun t => gives (exec (x.1 (wf 7 1 2 0 1)) tapers) t)) = true) ∧
    (∀ x ∈ Claims.tapered1, okAnd ((tapers.countIssue 8).readS 2) (fun r =>
      okAnd (r.2.writeS 7 (Claims.place 1 (x.2 1 r.1))) (fun t => gives (exec (x.1 (wf 7 2 0 0 1)) tapers) t)) = true) ∧
    nextHas (exec (.tfma (wf 7 1 2 3 1)) tapers) (fun t => t.ctx.s.get 0 7 == 0x4000) = true ∧
    (∀ p ∈ ([(.tcmp (wf 3 1 2 0 1), false), (.tcmp (wf 3 1 2 1 1), true), (.tcmp (wf 3 1 2 2 1), false), (.tcmp (wf 3 1 2 3 1), false),
      (.tcmp (wf 3 1 2 4 1), true), (.tcmp (wf 3 1 2 5 1), true)] : List (Instr × Bool)),
      nextHas (exec p.1 tapers) (fun t => t.readP 3 == p.2) = true) := by decide +kernel

/-- A site with spools, an address at the end of the ordinary scratchpad and words of a spool there. -/
def spooled : State :=
  let k := firing [(1, 0x3FC00000), (2, 0xC0000000), (9, 0x1FBE0), (10, 0x1FC00)]
  { site { k with y := [(1, ⟨5, false⟩), (2, ⟨-3, false⟩)] } with mem := [(0x1FBE0, 7), (0x1FBFC, 1), (0x1FC02, 1)], poison := [0x1FBC0] }

/-- O23, O24: each form with its hypotheses; the last aligned address below the frames, and the first of a frame. -/
theorem test_meets_spools :
    gives (exec (.spz (wf 1 0 0 0 0)) spooled) ((spooled.countIssue 8).writeY 1 Spool.zero) = true ∧
    (∀ i ∈ [Instr.spfma (wf 1 1 2 0 7), .spfms (wf 1 1 2 0 7), .spadd (wf 1 1 0 0 7), .spsub (wf 1 1 0 0 7)],
      nextHas (exec i spooled) (fun t => decide ((t.readY 1).nar = false ∧ (t.readY 1).s ≠ 5)) = true) ∧
    nextHas (exec (.spadd (wf 1 2 0 0 15)) spooled) (fun t => decide (t.readY 1 = ⟨2, false⟩)) = true ∧
    nextHas (exec (.spsub (wf 1 2 0 0 15)) spooled) (fun t => decide (t.readY 1 = ⟨8, false⟩)) = true ∧
    okAnd ((spooled.countIssue 8).writeS 7 (writeFmt 4 (spoolVal ⟨5, false⟩) 0)) (fun t => gives (exec (.sprnd (wf 7 1 0 0 4)) spooled) t) = true ∧
    okAnd ((spooled.countIssue 8).readS 1) (fun r => okAnd (r.2.writeS 7 (writeFmt 5 (readFmt 7 r.1) 0)) (fun t =>
      gives (exec (.cvt (wf 7 1 0 0 0x75)) spooled) t)) = true ∧
    spooled.poisoned 0x1FBE0 32 = false ∧ spooled.hitsSlots 0 0x1FBE0 32 = false ∧ spooled.hitsSlots 0 0x1FC00 32 = true ∧
    nextHas (exec (.spld (wf 3 9 0 0 0)) spooled) (fun t => decide (t.readY 3 = spoolOfBits (BitVec.ofNat 256 (7 + 2 ^ 224)))) = true ∧
    nextHas (exec (.spldX (xf 3 10 0 0 0xFFFFFFC0)) spooled) (fun t => t.faults.map (·.code) == [0x21]) = true ∧
    nextHas (exec (.spst (wf 1 9 0 0 0)) spooled) (fun t => t.readN 0x1FBE0 32 == 5) = true ∧
    nextHas (exec (.spstX (xf 1 9 0 0 0)) spooled) (fun t => t.readN 0x1FBE0 32 == 5) = true := by decide +kernel
/-! ### Statements about vectors -/

/-- A grant of 8 lanes, of which mask 1 admits 0 to 2; v1 and v2 hold values in lanes 0 to 3, and lane 2 of v2 is tagged; a neighbour
of the cell holds 16 lanes. -/
def vectors : State :=
  let k := firing [(1, 0x1FBE0), (2, 4), (3, 0x1FC00)]
  let c : Ctx := { k with
    grant := 8, k := [(1, 7), (2, 0xF0)]
    v := [(32, ⟨0x3FC00000, false⟩), (33, ⟨0x000080FF, false⟩), (34, ⟨3, false⟩), (35, ⟨0xFFFFFFF0, false⟩), (64, ⟨0x40400000, false⟩),
      (65, ⟨0x00017F02, false⟩), (66, ⟨1, true⟩), (67, ⟨0x21, false⟩), (96, ⟨0x80, false⟩), (129, ⟨4, false⟩), (130, ⟨4, false⟩)]
    w := [(32, ⟨5, false⟩), (34, ⟨9, false⟩)] }
  let s := site c
  { s with cores := s.cores.set 1 { Core.init with ctx0 := { firing [] with grant := 16 } }, mem := [(0x1FBE0, 7), (0x1FBE6, 9)], poison := [0x1FBC0] }
/-- Two states agree on the lanes of register 5. -/
def sameLanes (t u : State) : Bool :=
  (List.range 32).all (fun i => (t.readV 5 i).val == (u.readV 5 i).val && (t.readV 5 i).tag == (u.readV 5 i).tag)

/-- O26: the 39 elementwise instructions on a form: each with its hypotheses and its lanes. -/
noncomputable def elementsMeet (f : WForm) (s : State) : Bool :=
  decide (s.ctx.grant ≠ 0) && guardHolds f.guard s.ctx && okAnd ((s.countIssue 8).readB f) (fun r =>
    Claims.elements.all (fun x => nextHas (exec (x.1 f) s) (sameLanes (r.2.elementwise f (State.srcsOf f) (fun i =>
      Claims.lane f.width (fun e => x.2 f (Claims.elem f.width (r.2.readV f.a i).val e)
        (Claims.elem f.width (Claims.laneB r.2 f (splat f.width r.1) i) e)))))) &&
    Claims.bitwise.all (fun x => nextHas (exec (x.1 f) s) (sameLanes (r.2.elementwise f (State.srcsOf f) (fun i =>
      x.2 (r.2.readV f.a i).val (Claims.laneB r.2 f (splat f.width r.1) i))))) &&
    Claims.accumulate.all (fun x => nextHas (exec (x.1 f) s) (sameLanes (r.2.elementwise f (State.srcsOf f ++ [f.d]) (fun i =>
      x.2.2 f (r.2.readV f.d i).val (r.2.readV f.a i).val (Claims.laneB r.2 f (x.2.1 f r.1) i))))))
noncomputable def numbersMeet (f : WForm) (s : State) : Bool :=
  okAnd ((s.countIssue 8).readB f) (fun r =>
    Claims.floating.all (fun x => nextHas (exec (x.1 f) s) (sameLanes (r.2.elementwise f (State.srcsOf f) (fun i =>
      x.2 f (r.2.readV f.a i).val (Claims.laneB r.2 f (Claims.low r.1) i))))) &&
    Claims.ternary.all (fun x => nextHas (exec (x.1 f) s) (sameLanes (r.2.elementwise f (State.srcsOf f ++ [f.c]) (fun i =>
      x.2.2 f (r.2.readV f.a i).val (Claims.laneB r.2 f (x.2.1 f r.1) i) (r.2.readV f.c i).val)))) &&
    Claims.single.all (fun x => nextHas (exec (x.1 f) s) (sameLanes ((s.countIssue 8).elementwise f [f.a] (fun i =>
      x.2 f ((s.countIssue 8).readV f.a i).val)))))

/-- O26: halfwords under mask 1, unsigned; and a scalar operand b under mask 0. -/
theorem test_meets_elements : elementsMeet (wf 5 1 2 3 0x29) vectors = true := by decide +kernel
theorem test_meets_elements_scalar : elementsMeet (wf 5 1 2 3 0x40) vectors = true := by decide +kernel
theorem test_meets_lane_numbers : numbersMeet (wf 5 1 2 3 1) vectors = true := by decide +kernel
theorem test_meets_lane_numbers_scalar : numbersMeet (wf 5 1 2 3 0x41) vectors = true := by decide +kernel
/-- O25: a claim of 24 lanes where a neighbour holds 16 and the context 8 gets 16; lcount of both kinds. -/
theorem test_meets_lane_claims :
    Claims.lanesOfOthers (vectors.countIssue 8) 0 = 16 ∧
    nextHas (exec (.lclaim (wf 7 0 0 0 3)) vectors) (fun t => t.ctx.s.get 0 7 == 16 && t.ctx.grant == 16 && (t.cell 0).ptr == 1) = true ∧
    nextHas (exec (.lrel (wf 0 0 0 0 0)) vectors) (fun t => t.ctx.grant == 0) = true ∧
    nextHas (exec (.lcount (wf 7 0 0 0 0)) vectors) (fun t => t.ctx.s.get 0 7 == 8) = true ∧
    nextHas (exec (.lcount (wf 7 0 0 0 1)) vectors) (fun t => t.ctx.s.get 0 7 == 8) = true := by decide +kernel

/-- O25: no other core stands at an lclaim, none of this cycle was served before, and one was; two claims of 32 share 32 free lanes. -/
theorem test_meets_shared_claims :
    vectors.claimOf 0 0 = none ∧ (∀ k, k < 8 → cellMate 0 k ≠ 0 → vectors.claimWith (cellMate 0 k) = none) ∧
    (let s := vectors.setCell 0 { vectors.cell 0 with claims := [(0, 9, 12)] }
     s.claimOf 0 0 = some 12 ∧ nextHas (exec (.lclaim (wf 7 0 0 0 3)) s) (fun t => t.ctx.grant == 12 && (t.cell 0).claims == [] && (t.cell 0).ptr == 0) = true) ∧
    State.serveClaims 32 [(0, 0, 32), (1, 0, 32)] = [(0, 0, 32), (1, 0, 0)] := by decide +kernel

/-- O27: lane 1 is acted on, lane 2 has a tagged source, lane 3 is masked out and lane 8 is beyond the grant. -/
theorem test_meets_lanes :
    let t := vectors.elementwise (wf 5 1 2 3 1) [1, 2] (fun _ => 6)
    vectors.ctx.grant = 8 ∧ (vectors.readK 1).getLsbD 1 = true ∧ (vectors.readV 2 2).tag = true ∧ (vectors.readK 1).getLsbD 3 = false ∧
    t.readV 5 1 = ⟨6, false⟩ ∧ t.readV 5 2 = ⟨0, true⟩ ∧ t.readV 5 3 = Lane.zero ∧ t.readV 5 8 = Lane.zero := by decide +kernel

/-- O28: masks, compares, vsel and spool lanes. -/
theorem test_meets_masks :
    (∀ p ∈ ([(.kand (wf 3 1 2 0 0), 0), (.kor (wf 3 1 2 0 0), 0xF7), (.kxor (wf 3 1 1 0 0), 0), (.knot (wf 3 1 0 0 0), 0xFFFFFFF8), (.kset (wf 3 2 0 0 0), 4),
      (.vcmp (wf 3 1 2 0 0x1000), 0xB), (.vcmp (wf 3 1 2 0 0x1040), 0xFC), (.vfcmp (wf 3 1 2 0 0x1000), 0x3), (.vtcmp (wf 3 1 2 0 0x1010), 0xB)]
      : List (Instr × BitVec 32)), nextHas (exec p.1 vectors) (fun t => t.readK 3 == p.2) = true) ∧
    nextHas (exec (.kget (wf 7 2 0 0 0)) vectors) (fun t => t.ctx.s.get 0 7 == 0xF0) = true ∧
    nextHas (exec (.vsel (wf 5 1 2 1 0)) vectors) (fun t => (t.readV 5 0).val == 0x3FC00000 && (t.readV 5 3).val == 0x21) = true ∧
    nextHas (exec (.vspz (wf 1 0 0 0 1)) vectors) (fun t => (t.readWsp 1 0).s == 0) = true ∧
    nextHas (exec (.vsprnd (wf 5 1 0 0 0x2000)) vectors) (fun t => (t.readV 5 2).val == 1) = true ∧
    nextHas (exec (.vspfma (wf 1 1 2 0 0x3801)) vectors) (fun t => (t.readWsp 1 2).s == 9 && (t.readWsp 1 0).s != 5) = true := by decide +kernel

/-- O29: conversion with a scale, packing by 8 bits at q = 0, and unpacking. -/
theorem test_meets_packs :
    okAnd ((vectors.countIssue 8).readS 2) (fun r => r.1 == 4) = true ∧
    nextHas (exec (.vcvt (wf 5 1 0 2 0x39A0)) vectors) (fun t => (t.readV 5 8).val == 0) = true ∧
    nextHas (exec (.vpack (wf 5 1 0 0 0x08)) vectors) (fun t => (t.readV 5 0).val == 0xF003FF00) = true ∧
    nextHas (exec (.vpack (wf 5 2 0 0 0x08)) vectors) (fun t => (t.readV 5 0).tag) = true ∧
    nextHas (exec (.vunpack (wf 5 1 0 0 0x08)) vectors) (fun t => (t.readV 5 3).val == 0x3F && (t.readV 5 4).val == 0xFFFFFFFF) = true := by decide +kernel

/-- O30: an open lane, an empty one under each policy, and a slide that leaves the grant. -/
theorem test_meets_cross_lane :
    Claims.token vectors 0 1 4 = some 0 ∧ Claims.token vectors 1 1 4 = none ∧ Claims.token vectors 0 2 2 = none ∧ Claims.token vectors 0 1 8 = none ∧
    nextHas (exec (.vbcast (wf 5 2 0 0 1)) vectors) (fun t => (t.readV 5 2).val == 4 && (t.readV 5 3).val == 0) = true ∧
    nextHas (exec (.vext (wf 7 1 2 0 0)) vectors) (fun t => t.ctx.s.get 0 7 == 0) = true ∧
    nextHas (exec (.vext (wf 7 1 2 3 0x101)) vectors) (fun t => t.ctx.s.get 0 7 == 0x1FC00) = true ∧
    gives (exec (.vext (wf 7 1 2 3 1)) vectors) (vectors.countIssue 8) = true ∧
    nextHas (exec (.vslide (wf 5 1 2 3 0x100)) vectors) (fun t => (t.readV 5 4).val == 0x1FC00 && (t.readV 5 8).val == 0) = true ∧
    nextHas (exec (.vperm (wf 5 1 4 3 0x80)) vectors) (fun t => (t.readV 5 0).val == 0x3FC00000 && (t.readV 5 1).val == 0) = true ∧
    nextHas (exec (.vred (wf 7 1 0 0 1)) vectors) (fun t => t.ctx.s.get 0 7 == 0x3FC08102) = true ∧
    nextHas (exec (.vred (wf 7 1 0 0 0x5001)) vectors) (fun t => t.ctx.s.get 0 7 == 0x3FC00000) = true ∧
    nextHas (exec (.vred (wf 2 1 0 0 0x5801)) vectors) (fun t => (t.readY 2).s == 14) = true ∧
    nextHas (exec (.vscan (wf 5 1 0 0 1)) vectors) (fun t => (t.readV 5 1).val == 0x3FC080FF && (t.readV 5 2).val == 0x3FC08102) = true := by
  decide +kernel

/-- O31: the lane that takes part at the last aligned word below the frames, a strided and an indexed form, and a tagged index. -/
theorem test_meets_vector_memory :
    vectors.poisoned 0x1FBE0 32 = false ∧ vectors.hitsSlots 0 0x1FBE0 32 = false ∧ vectors.hitsSlots 0 0x1FBFC 5 = true ∧
    nextHas (exec (.vld (wf 5 1 0 0 0)) vectors) (fun t => (t.readV 5 0).val == 7 && (t.readV 5 1).val == 0x90000) = true ∧
    nextHas (exec (.vldX (xf 5 1 0 1 0)) vectors) (fun t => (t.readV 5 1).val == 0x90000 && (t.readV 5 3).val == 0) = true ∧
    nextHas (exec (.vlds (wf 5 1 2 0 0)) vectors) (fun t => (t.readV 5 1).val == 0x90000) = true ∧
    nextHas (exec (.vldsX (xf 5 1 2 0 0)) vectors) (fun t => (t.readV 5 1).val == 0x90000) = true ∧
    nextHas (exec (.vldx (wf 5 1 4 0 0)) vectors) (fun t => (t.readV 5 0).val == 7 && (t.readV 5 1).val == 0x90000) = true ∧
    nextHas (exec (.vldxX (xf 5 1 4 0 0)) vectors) (fun t => (t.readV 5 1).val == 0x90000) = true ∧
    nextHas (exec (.vst (wf 2 1 0 1 0)) vectors) (fun t => t.readN 0x1FBE0 8 == 0x17F0240400000 && t.readN 0x1FBE8 4 == 0) = true ∧
    nextHas (exec (.vstX (xf 2 1 0 1 0)) vectors) (fun t => t.readN 0x1FBE0 8 == 0x17F0240400000) = true ∧
    nextHas (exec (.vsts (wf 2 1 2 1 0)) vectors) (fun t => t.readN 0x1FBE0 8 == 0x17F0240400000) = true ∧
    nextHas (exec (.vstsX (xf 2 1 2 1 0)) vectors) (fun t => t.readN 0x1FBE4 4 == 0x17F02) = true ∧
    nextHas (exec (.vstx (wf 1 1 4 1 0)) vectors) (fun t => t.readN 0x1FBE0 8 == 0x33FC00000) = true ∧
    nextHas (exec (.vstxX (xf 1 1 4 1 0)) vectors) (fun t => t.readN 0x1FBE4 4 == 3) = true := by decide +kernel

/-- O32: without a grant each vector instruction is code 0x07. -/
theorem test_meets_no_grant :
    floats.ctx.grant = 0 ∧
    Claims.needLanes.all (fun i => nextHas (exec (i (wf 5 1 2 3 0)) floats) (fun t => t.faults.map (·.code) == [0x07])) = true ∧
    (Claims.loads ++ Claims.stores).all (fun x => nextHas (exec (x.2.2 (xf 5 1 2 3 0)) floats) (fun t => t.faults.map (·.code) == [0x07])) = true := by
  decide +kernel
/-! ### Statements about what instructions send -/

/-- Registers with a place in the scratchpad (1), slot references on core 0 (2) and core 1 (3), a value, an FREF of core 1 and places. -/
def asking : State :=
  let k := firing [(1, 0xC00), (2, 0x100000000), (3, 0x100002000), (4, 5), (5, 0x2000), (6, 0x00080000000000F8), (7, 0x1F000), (8, 31), (9, 0x01000002)
    , (10, 2), (11, handle0), (12, 32), (13, 1), (14, 0x2FC00)]
  let s := site { k with grant := 16 }
  { s with clusters := [(0, { Cluster.init with credit := 1 })], mem := [(0x40, 0), (0x1F002, 1), (0x1FC02, 1)].filter (fun c => c.2 != 0) }
/-- The slots of registers 2 and 3 are valid, the queue has room, and the frame has fewer than four commands. -/
theorem test_meets_room :
    asking.srefOk 0 0x100000000 = true ∧ asking.srefOk 0 0x100002000 = true ∧ asking.partOf 0 = 0 ∧ (asking.core 0).mq.length < 8 ∧
    asking.asyncCount < 4 ∧ asking.splicesOk 0 0 1 true = true ∧ asking.splicesOk 0 0 2 false = false := by decide +kernel

/-- The commands that an outcome leaves in the queue of core 0. -/
def queuedOps (o : Out) (l : List MOp) : Bool := nextHas o (fun t => (t.core 0).mq.map (·.op) == l)

/-- O33: a tile has landed for latch 1, which an mlb names. -/
theorem test_meets_landed :
    let s := asking.modCore 0 (fun c => { c with landing := [(1, some { bytes := [3], scales := [4], cmd := 3, from_ := asking.issuer, ret := ⟨0, none, 1⟩ })] })
    ((s.core 0).landing.get none 1).isSome = true ∧ namesLatch 1 (.mlb 1 0xC00) = true ∧ (s.core 0).mq.length = 0 ∧
    (let c := (Claims.quiet s (.mlb 1 0xC00)).core 0
     c.latch.get [] 1 = [3] ∧ c.bscale.get [] 1 = [4] ∧ (c.landing.get none 1).isNone = true ∧ c.mq.length = 1) := by decide +kernel

/-- O33: each instruction of major 0x28, with the last row, the last aligned address, and a mode that is not listed. -/
theorem test_meets_matrix_issue :
    queuedOps (exec (.mscl (wf 0 1 0 2 0x1E740)) asking) [.mscl 2 0x1F340] = true ∧
    queuedOps (exec (.mscl (wf 0 0 0 2 0x1C)) asking) [.mscl 2 0x1C] = true ∧ queuedOps (exec (.msclX (xf 0 0 0 0 0x1FF40)) asking) [.mscl 0 0x1FF40] = true ∧
    queuedOps (exec (.mlb (wf 1 1 0 2 0)) asking) [.mlb 1 0xC00] = true ∧ queuedOps (exec (.mlbX (xf 1 0 0 0 0x1F400)) asking) [.mlb 1 0x1F400] = true ∧
    queuedOps (exec (.mma (wf 2 1 1 3 0)) asking) [.mma 2 0xC00 1 0 0] = true ∧ queuedOps (exec (.mmaX (xf 2 0 1 0 8)) asking) [.mma 2 8 1 0 0] = true ∧
    matMode 4 5 = some 2 ∧ matMode 0 0 = some 0 ∧ matMode 0 15 = none ∧
    nextHas (exec (.mfmt (wf 2 0 0 0 0xF0)) asking) (fun t => t.faults.map (·.code) == [0x28]) = true ∧
    nextHas (exec (.mfmt (wf 2 0 0 0 0)) asking) (fun t => (t.core 0).desc == [(2, 0)] && (t.core 0).mq.length == 0) = true ∧
    queuedOps (exec (.mfmt (wf 2 0 0 0 0x54)) asking) [.mclear 2 2] = true ∧ queuedOps (exec (.mzero (wf 2 0 0 0 0)) asking) [.mzero 2 0] = true ∧
    asking.ringNext = 1 ∧ queuedOps (exec (.mrot (wf 1 0 0 3 0)) asking) [.mrot 1] = true ∧
    queuedOps (exec (.mdrain (wf 1 1 0 2 0x4002)) asking) [.mdrain 1 0xC00 2 0 0 1 true false 0] = true ∧
    nextHas (exec (.mrow (wf 5 1 4 3 3)) asking) (fun t => t.readP 3 && (t.readV 5 15).val == 0) = true := by decide +kernel

/-- The packets that an outcome leaves. -/
def sent (o : Out) (p : List Packet → Bool) : Bool := nextHas o (fun t => p (t.net.map (·.2)))

/-- O34: each instruction of major 0x2C with its request, for another core and for its own. -/
theorem test_meets_frame_instructions :
    sent (exec (.falloc (wf 3 13 5 2 0x41)) asking) (fun l => l.map (fun p => (p.body, p.dst)) == [(.alloc 1 0x100002000, .core 1)]) = true ∧
    sent (exec (.falloc (wf 0 13 0 0 0x21)) asking) (fun l => l.map (·.body) == [.alloc 1 0]) = true ∧
    sent (exec (.ffree (wf 0 5 0 0 0)) asking) (fun l => l.map (fun p => (p.body, p.dst)) == [(.free, .core 1)]) = true ∧
    sent (exec (.sarm (wf 0 3 4 1 6)) asking) (fun l => l.map (·.body) == [.arm 0x100002000 0x98000005]) = true ∧
    sent (exec (.sig (wf 0 3 0 1 3)) asking) (fun l => l.map (·.body) == [.signal 0x100002000 3 3 false 0]) = true ∧
    sent (exec (.sigX (xf 0 2 0 1 3)) asking) (fun l => l.map (·.body) == [.signal 0x100000000 3 3 false 0]) = true ∧
    sent (exec (.sigv (wf 0 3 4 1 0)) asking) (fun l => l.map (·.body) == [.signal 0x100002000 5 5 false 0]) = true ∧
    sent (exec (.sigb (wf 4 3 1 1 0)) asking) (fun l => l.map (·.body) == [.signal 0x100002000 1 5 false 0]) = true ∧
    sent (exec (.fire (wf 0 3 0 1 0)) asking) (fun l => l.map (·.body) == [.signal 0x100002000 0 0 true 0]) = true ∧
    nextHas (exec (.sget (wf 15 2 0 0 0)) asking) (fun t => t.ctx.s.get 1 15 == 0) = true ∧
    sent (exec (.ldf (wf 0 5 0 2 0x1E5)) asking) (fun l => l.map (fun p => (p.body, p.ret)) == [(.ldf 5, ⟨15, some 0x100000000, 8⟩)]) = true ∧
    nextHas (exec (.stf (wf 0 0 4 0 31)) asking) (fun t => t.readN 0x1FCF8 8 == 5) = true ∧
    sent (exec (.stf (wf 0 5 4 0 31)) asking) (fun l => l.map (·.body) == [.stf 31 5]) = true := by decide +kernel

/-- O35: the five ring instructions on a block of the core and of the cluster. -/
theorem test_meets_rings :
    (∀ p ∈ ([(.rinit (wf 4 1 7 2 0x05), 0), (.racq (wf 0 1 0 2 0x05), 1), (.rcom (wf 0 1 0 0 0), 2), (.rpeek (wf 0 1 0 2 0x05), 3), (.rrel (wf 0 1 0 0 0x20), 4)]
      : List (Instr × Nat)), sent (exec p.1 asking) (fun l => l.map (fun q => match q.body with | .ring m _ _ _ => m | _ => 9) == [p.2]) = true) := by
  decide +kernel

/-- A site with a negative byte, a word at the end of the ordinary scratchpad, and a poisoned word. -/
def loading : State :=
  { site (firing [(1, 0x1FBF8), (2, 0x8081828384858687), (3, 0x1FFFC), (4, 0x20000), (5, 0x1FC40), (6, 0x1FBF1)]) with
    mem := [(0x1FBF8, 0x87), (0x1FBFB, 0x80), (0x1FBFF, 0x90), (0x1FC02, 1)], poison := [0x1FBF0] }

/-- O36 to O38: every width and reading, the last bytes below the frames, and each fault. -/
theorem test_meets_loads :
    (∀ p ∈ ([(.ld (wf 7 1 0 0 0), 0x9000000080000087), (.ld (wf 7 1 0 1 0), 0xFFFFFFFF80000087), (.ld (wf 7 1 0 5 0), 0x80000087), (.ld (wf 7 1 0 2 2), 0xFFFFFFFFFFFF8000),
      (.ld (wf 7 1 0 6 2), 0x8000), (.ld (wf 7 1 0 3 0), 0xFFFFFFFFFFFFFF87), (.ld (wf 7 1 0 7 7), 0x90), (.ldX (xf 7 1 0 7 3), 0x80), (.ldC ⟨7, 1, 0⟩, 0x9000000080000087)]
      : List (Instr × Word)), nextHas (exec p.1 loading) (fun t => t.ctx.s.get 0 7 == p.2) = true) ∧
    nextHas (exec (.st (wf 2 1 0 3 7)) loading) (fun t => t.readN 0x1FBF8 8 == 0x8700000080000087) = true ∧
    nextHas (exec (.stX (xf 2 1 0 2 2)) loading) (fun t => t.readN 0x1FBF8 8 == 0x9000000086870087) = true ∧
    nextHas (exec (.stC ⟨2, 1, 0⟩) loading) (fun t => t.readN 0x1FBF8 8 == 0x8081828384858687) = true ∧ memWf loading.mem = true ∧
    (∀ p ∈ ([(.ld (wf 7 6 0 2 0), 0x03), (.ld (wf 7 4 0 0 0), 0x04), (.ld (wf 7 1 0 3 0x3FFF8), 0x21), (.st (wf 2 6 0 1 0), 0x03), (.st (wf 2 4 0 3 0), 0x04),
      (.st (wf 2 5 0 0 0), 0x04)] : List (Instr × Code)), nextHas (exec p.1 loading) (fun t => t.faults.map (·.code) == [p.2]) = true) ∧
    nextHas (exec (.st (wf 2 5 0 0 16)) loading) (fun t => t.readN 0x1FC50 8 == 0x8081828384858687) = true := by decide +kernel

/-- O39: each remote form, to core 1 and to its own cluster, and the corner of each atomic. -/
theorem test_meets_remote :
    asking.placeOf 0 0xF8 8 = some (.core 0, 0xF8, 0xF8) ∧ asking.placeOf 0 0x4000000000000000 8 = some (.cluster 0, clusterKey 0 0, 0) ∧
    sent (exec (.ldrm (wf 0 1 0 2 0xA5)) asking) (fun l => l.map (fun p => (p.body, p.lo)) == [(.ldrm 4 true, 0xC00)] || l.map (·.body) == [.ldrm 4 false]) = true ∧
    sent (exec (.strm (wf 0 1 4 0 0x100)) asking) (fun l => l.map (·.body) == [.strm 8 5]) = true ∧
    Claims.atomics.all (fun x => sent (exec (x.2 (wf 4 1 4 2 0x05)) asking) (fun l => l.map (fun p => match p.body with | .atomic m _ _ _ _ => m | _ => 99) == [x.1])) = true ∧
    sent (exec (.aspadd (wf 0 1 1 0 0)) asking) (fun l => l.map (·.body) == [.atomic 11 32 0 0 []]) = true ∧
    nextHas (exec (.fence (wf 0 0 0 0 3)) asking) (fun t => t.ctx.fences == [(20, 3)]) = true := by decide +kernel
/-! ### Walks, steps, the solver, launches and the system -/

/-- A site with a walk descriptor at 0x40: tensor word, and n, stride and level-1 count; level 0 steps along dimension 0 and signals. -/
def walking (w0 n0 s0 n1 : Nat) : State :=
  let t : List Word := [0x140005, 31, 0, 0, 0, 0, 0, 0]
  let s := { asking with parts := [(0, { (asking.part 0) with descs := [(5, t), (6, [0x190006, 31, 0, 0, 0, 0, 0, 0]), (7, [0x100007, 0, 0, 0, 0, 0, 0, 0])] })] }
  ([(0x40, 8, w0), (0x60, 4, n0), (0x64, 4, s0), (0x68, 4, 1), (0x7C, 4, 1), (0x80, 8, 0x100000000), (0x88, 4, n1), (0xB0, 4, 1), (0xD8, 4, 1), (0x100, 4, 1)]
    : List (Nat × Nat × Nat)).foldl (fun (u : State) x => u.writeN x.1 x.2.1 x.2.2) s
/-- A walk is queued for engine 0's cluster. -/
def walks (o : Out) : Bool := nextHas o (fun t => (t.cluster 0).walkq.length == 1 && t.cmds.length == 1 && t.faults.length == 0)

/-- O40: each walk with its descriptor; twmc on the rectangle of core 0 alone, twg and tws with one index register. -/
theorem test_meets_walks :
    walks (exec (.twld (wf 0 15 1 2 0)) (((walking 5 4 4 1).modCtx (fun k => { k with s := k.s.set 15 0x40 })))) = true ∧
    walks (exec (.twst (wf 0 15 1 0 0)) (((walking 5 4 4 1).modCtx (fun k => { k with s := k.s.set 15 0x40 })))) = true ∧
    walks (exec (.twmc (wf 16 15 1 2 0)) (((walking 5 4 4 1).modCtx (fun k => { k with s := (k.s.set 15 0x40).set 16 0x10001 })))) = true ∧
    walks (exec (.twg (wf 13 15 1 2 0)) (((walking 5 4 4 1).modCtx (fun k => { k with s := k.s.set 15 0x40 })))) = true ∧
    walks (exec (.tws (wf 13 15 1 2 0)) (((walking 5 4 4 1).modCtx (fun k => { k with s := k.s.set 15 0x40 })))) = true ∧
    walks (exec (.twq (wf 0 15 1 2 0)) (((walking 0x900070006 32 4 1).modCtx (fun k => { k with s := k.s.set 15 0x40 })))) = true ∧
    sent (exec (.twcan (wf 0 2 0 2 15)) asking) (fun l => l.map (fun p => (p.body, p.ret.ow)) == [(.twcan 0x100000000, 15)]) = true ∧
    sent (exec (.twcan (wf 0 0 0 0 15)) asking) (fun l => l.map (·.body) == [.twcan (2 ^ 64)]) = true := by decide +kernel

/-- What O40 asks of the descriptor of the first walk. -/
theorem test_meets_walk_fits :
    let s := (walking 5 4 4 1).modCtx (fun k => { k with s := k.s.set 15 0x40 })
    let w := s.walkOf 0 (wf 0 15 1 2 0) 0x40 0xC00 0 (some 0x100000000)
    s.placeOf 0 0xC00 0 = some (.core 0, 0xC00, 0xC00) ∧ s.readN 0x40 8 / 2 ^ 36 = 0 ∧ s.readN 0x5C 4 = 0 ∧ s.readN 0x128 24 = 0 ∧
    (∀ j, j < 5 → s.readN (0x60 + 40 * j + 28) 4 / 2 = 0 ∧ s.readN (0x60 + 40 * j) 4 ≠ 0) ∧ s.declared key0 5 = true ∧ w.stid = 0 ∧ w.qfmt = 0 ∧
    (∀ c, c < 5 → 0 ≤ (coordRange w c).1) ∧ (coordRange w 0).2 = 3 ∧ (strideRange w) = (0, 12) ∧ spadBytes w 4 = 4 ∧ s.poisoned 0x40 256 = false ∧
    (∀ e, e < 4 → s.elemHits 0 0xC00 w 4 e = false) ∧ s.srefOk 0 0x100000000 = true ∧ walkElems w = 4 := by decide +kernel

/-- The site under graph 1, which is paced. -/
def paced : State := { asking with insts := [(key0, { inst0 with graph := 1 })] }

/-- O41: each instruction under pacing, at a step that is done and one that is not, and without pacing. -/
theorem test_meets_paced :
    ((asking.graphOf key0).bind (·.pace)) = none ∧ ((paced.graphOf key0).bind (·.pace)).isSome = true ∧
    nextHas (exec (.stepd (wf 0 0 0 0 0)) paced) (fun t => (t.core 0).stepds == [(9, 20)]) = true ∧
    (let s := paced.modCore 0 (fun c => { c with done := true })
     gives (exec (.stepd (wf 0 0 0 0 0)) s) (s.countIssue 8)) = true ∧
    sent (exec (.ldst (wf 0 1 4 2 0x185)) paced) (fun l => l.map (fun p => match p.body with | .ldst z u q es o => (z, u, q, es, o) | _ => (0, true, 0, 0, 0)) == [(8, true, 5, 0, 0xC00)]
      || l.length == 1) = true ∧
    sent (exec (.stepq (wf 0 5 4 2 5)) paced) (fun l => l.map (fun p => (p.body, p.dst)) == [(.stepq 5, .core 1)]) = true ∧
    (∀ i ∈ [Instr.stepd (wf 0 0 0 0 0), .ldst (wf 0 1 4 2 0x05), .stepq (wf 0 5 4 2 5)],
      nextHas (exec i asking) (fun t => t.faults.map (·.code) == [0x01]) = true) := by decide +kernel

/-- O42: the five instructions, sample 31, and sample 32. -/
theorem test_meets_solver :
    sent (exec (.sqtab (wf 0 1 0 2 0)) asking) (fun l => l.map (fun p => (p.body, p.dst)) == [(.sqtab 0xC00, .seqr 0)]) = true ∧
    sent (exec (.sqinit (wf 0 1 8 2 0)) asking) (fun l => l.map (·.body) == [.sqinit 0xC00 31]) = true ∧
    sent (exec (.sqrd (wf 0 0 8 2 0x165)) asking) (fun l => l.map (fun p => (p.body, p.ret.ow)) == [(.sqrd 31 11, 5)]) = true ∧
    sent (exec (.sqstage (wf 0 0 8 0 7)) asking) (fun l => l.map (·.body) == [.sqstage 31 8]) = true ∧
    sent (exec (.sqstep (wf 0 0 8 0 0)) asking) (fun l => l.map (·.body) == [.sqstep 31]) = true ∧
    (∀ i ∈ [Instr.sqstage (wf 0 0 12 0 0), .sqstep (wf 0 0 12 0 0)], nextHas (exec i asking) (fun t => t.faults.map (·.code) == [0x31]) = true) := by
  decide +kernel

/-- A launch packet of graph 0 with one argument at 0xC00. -/
def launching : State := ({ asking with mem := [(0x1FC02, 1)] }.writeN 0xC00 8 0x10000).writeN 0xC10 8 77

/-- O43: a launch with its credit, at the limit of nesting and without a credit; the two requests on a handle. -/
theorem test_meets_launch :
    launching.poisoned 0xC00 64 = false ∧ launching.malformed 0 (launching.readW 0xC00) = false ∧
    nextHas (exec (.glaunch (wf 15 1 0 2 3)) launching) (fun t => t.readP 3 && t.ctx.s.get 0 15 == 0 && t.insts.map (·.2.args) == [[77], []] && (t.cluster 0).credit == 0) = true ∧
    nextHas (exec (.glaunch (wf 15 1 0 2 3)) { launching with clusters := [] }) (fun t => t.readP 3 == false && t.ctx.s.get 9 15 == 0) = true ∧
    nextHas (exec (.glaunch (wf 15 1 0 2 0)) (launching.modCtx (fun k => { k with depth := 2 }))) (fun t => t.faults.map (·.code) == [0x30]) = true ∧
    launching.handleOk 0 handle0 = true ∧
    sent (exec (.gquery (wf 0 11 0 2 5)) launching) (fun l => l.map (fun p => (p.body, p.dst)) == [(.gquery handle0, .launch 0)]) = true ∧
    sent (exec (.gcan (wf 0 11 0 2 5)) launching) (fun l => l.map (·.body) == [.gcan handle0]) = true := by decide +kernel

/-- A site whose core has a snapshot and error counts. -/
def observed : State := asking.modCore 0 (fun c => { c with eccCe := 3, eccUe := 4, snap := { Snap.init with seq := 2, valid := true, occ := 5 } })

/-- O44: every system register; trap at the operand's end; brk with tracing off and on; snap with and without a slot. -/
theorem test_meets_system :
    (∀ p ∈ ([(exec (.sysr (wf 15 0 0 0 0)) observed, 0), (exec (.sysr (wf 15 0 0 0 1)) observed, 0), (exec (.sysr (wf 15 0 0 0 2)) observed, handle0),
      (exec (.sysr (wf 15 0 0 0 3)) observed, 0x201), (exec (.sysr (wf 15 0 0 0 0x10)) observed, 0x10002), (exec (.sysr (wf 15 0 0 0 0x11)) observed, 0),
      (exec (.sysr (wf 15 0 0 0 0x12)) observed, 5), (exec (.sysr (wf 15 0 0 0 0x20)) observed, 3), (exec (.sysr (wf 15 0 0 0 0x21)) observed, 4)] : List (Out × Word)),
      nextHas p.1 (fun t => t.ctx.s.get 7 15 == p.2) = true) ∧
    nextHas (exec (.sysw (wf 0 4 0 0 0x20)) observed) (fun t => (t.core 0).eccCe == 5) = true ∧
    nextHas (exec (.sysw (wf 0 4 0 0 0x21)) observed) (fun t => (t.core 0).eccUe == 5) = true ∧
    nextHas (exec (.trap (wf 0 0 0 0 0x3FFFF)) observed) (fun t => t.faults.map (·.w3) == [0xFFFF000000000000]) = true ∧
    nextHas (exec (.trapX (xf 0 0 0 0 7)) observed) (fun t => t.faults.map (·.w3) == [0x0007000000000000]) = true ∧
    gives (exec (.brk (wf 0 1 4 0 0)) observed) (observed.countIssue 8) = true ∧
    nextHas (exec (.brk (wf 0 1 4 0 0)) (observed.modPart 0 (fun p => { p with trace := true }))) (fun t => t.faults.map (·.rest) == [[0xC00, 5, 0, 0]]) = true ∧
    nextHas (exec (.snap (wf 0 0 0 0 5)) observed) (fun t => t.mgmt.snapSeq == 1 && t.cmds.length == 0) = true ∧
    nextHas (exec (.snap (wf 0 0 0 2 5)) observed) (fun t => t.mgmt.snapSeq == 1 && t.cmds.length == 1) = true := by decide +kernel

/-- O45: a firing that has issued one instruction. -/
theorem test_meets_fault :
    let s := (site { firing [] with grant := 8 }).countIssue 8
    (s.takeFault 0x3F 0x10000).ctx = Ctx.init ∧ (s.takeFault 0x3F 0x10000).faults.map (fun r => (r.code, r.w3, r.acts)) = [(0x3F, 0xFFFF000000000000, true)] ∧
    (s.takeFault 0x08 0).faults.map (·.w3) = [0x0000FFFF00000000] := by decide +kernel
/-! ### Statements about agents: frames and firings -/

/-- The firing of the site as an issuer, and a packet of its at a target, with a command. -/
def who : Issuer := { fref := 0, cid := 0, fid := 9, pc := 0, inst := key0, part := 0 }
def pk (body : Body) (dst : Loc) (target : Nat) : Packet :=
  { State.packetOf body (.core 0) dst target who with pos := .ready, cmd := 3, ret := { ow := 10, slot := none, bytes := 8 } }
/-- A site with one packet, number 5, and command 3 outstanding; frame 0 is allocated with one command, slot 1 armed with count 2. -/
def holding (p : Packet) : State :=
  let s := { site (firing []) with net := [(5, p)], cmds := [(3, { from_ := who, major := 0x2C, minor := 0, failed := none })], mem := [] }
  (s.writeN 0x1FC00 8 0x110000).writeN 0x1FC18 8 0x80000002
/-- What an event leaves in memory at a word. -/
def word (o : Out) (k : Nat) (v : Word) : Bool := nextHas o (fun t => t.readW k == v)

/-- O46: V below, at (with a clear and with a set mark) and above the count, and a slot that is not armed. -/
theorem test_meets_signals :
    let s := holding (pk .free (.core 0) 0)
    let g : Sig := { val := 1, bytes := 4, fire := false, from_ := who, source := 0 }
    slArmed (s.readW 0x1FC18) = true ∧ slCount (s.readW 0x1FC18) = 2 ∧ memWf s.mem = true ∧
    (s.signalSlot 0 0 1 0x1FC18 false [g]).readW 0x1FC18 = 0x80000001 ∧
    (s.signalSlot 0 0 1 0x1FC18 false [g, g]).readW 0x1FC18 = 0 ∧ ((s.signalSlot 0 0 1 0x1FC18 false [g, g]).core 0).ready = [⟨0, 0, 1⟩] ∧
    ((s.signalSlot 0 0 1 0x1FC18 true [g, g]).core 0).fill = [⟨0, 0, 1⟩] ∧
    ((s.modCore 0 (fun c => { c with marks := [1] })).signalSlot 0 0 1 0x1FC18 false [g, g]).readW 0x1FC18 = 0x80000000 ∧
    (s.signalSlot 0 0 1 0x1FC18 false [g, g, g]).faults.map (·.code) = [0x10] ∧
    (s.signalSlot 0 0 2 0x1FC20 false [g, g]).faults.map (·.code) = [0x11, 0x11] := by decide +kernel

/-- O48: each request with its packet. -/
theorem test_meets_frame_requests :
    mayApply (holding (pk (.signal 0x100000000 2 1 false 0) (.core 0) 0)) 5 (pk (.signal 0x100000000 2 1 false 0) (.core 0) 0) = true ∧
    (holding (pk (.signal 0x100000000 2 1 false 0) (.core 0) 0)).inOrder 5 [5] = true ∧
    word (exec (.signalArrival 0 0 1 [5]) (holding (pk (.signal 0x100000000 2 1 false 0) (.core 0) 0))) 0x1FC18 0 = true ∧
    (holding (pk (.alloc 1 7) (.core 0) 0)).takeFrame 0 = some 1 ∧
    word (exec (.allocationRequest 5 []) (holding (pk (.alloc 1 7) (.core 0) 0))) 0x1FD00 0x10001 = true ∧
    word (exec (.allocationRequest 5 []) (holding (pk (.alloc 1 7) (.core 0) 0))) 0x1FD08 7 = true ∧
    nextHas (exec (.allocationRequest 5 []) (holding (pk (.alloc 1 7) (.core 0) 0))) (fun t => t.net.map (·.2.body) == [.reply 1 false]) = true ∧
    nextHas (exec (.allocationRequest 5 []) (((holding (pk (.alloc 1 7) (.core 0) 0)).writeN 0x1FD00 8 0x10000).writeN 0x1FE00 8 0x10000 |>.writeN 0x1FF00 8 0x10000))
      (fun t => t.faults.map (·.code) == [0x13]) = true ∧
    word (exec (.armingRequest 5 []) (holding (pk (.arm 0x200000000 0x80000003) (.core 0) 0))) 0x1FC20 0x80000003 = true ∧
    nextHas (exec (.armingRequest 5 []) (holding (pk (.arm 0x200000001 0x80000003) (.core 0) 1))) (fun t => t.faults.map (·.code) == [0x12]) = true ∧
    nextHas (exec (.freeRequest 5) (holding (pk .free (.core 0) 0))) (fun t => t.faults.map (·.code) == [0x12]) = true ∧
    word (exec (.freeRequest 5) ((holding (pk .free (.core 0) 0)).writeN 0x1FC00 8 0x10005)) 0x1FC00 5 = true ∧
    word (exec (.stfRequest 5) (holding (pk (.stf 31 6) (.core 0) 0))) 0x1FCF8 6 = true ∧
    nextHas (exec (.ldfRequest 5) (holding (pk (.ldf 3) (.core 0) 0))) (fun t => t.net.map (·.2.body) == [.reply 0x80000002 false]) = true ∧
    nextHas (exec (.ldfRequest 5) { holding (pk (.ldf 3) (.core 0) 0) with poison := [0x1FC18] }) (fun t => t.faults.map (·.code) == [0x21]) = true ∧
    word (exec (.replyArrival 5 []) (holding (pk (.reply 8 false) (.core 0) 0))) 0x1FC50 8 = true ∧
    word (exec (.replyArrival 5 []) (holding (pk (.reply 8 false) (.core 0) 0))) 0x1FC00 0x10000 = true ∧
    nextHas (exec (.replyArrival 5 []) (holding { pk (.reply 8 false) (.core 0) 0 with ret := ⟨0, some 0x100002000, 8⟩ }))
      (fun t => t.net.map (·.2.body) == [.signal 0x100002000 1 8 false 1]) = true := by decide +kernel

/-- A site with a spill region of one frame per core at address 0, allocated with slot 0 armed, and a copy of it where asked. -/
def spilling (copy : Bool) (p : Packet) : State :=
  let s := (holding p).modPart 0 (fun q => { q with spill := 1, spillBase := [(0, 0)] })
  let t := (s.writeN (hbmKey 0) 8 0x10001).writeN (hbmKey 16) 8 0x98000001
  if copy then (t.writeN 0x1FD00 8 0x30001).writeN 0x1FD10 8 0x98000001 else t

/-- O48, O49: a request to an image and to its copy; a fill, its end, and a write-back with its end. -/
theorem test_meets_spilled :
    (spilling false (pk (.stf 9 6) (.agent 0) 4096)).residentOf 0 0 = none ∧ (spilling true (pk (.stf 9 6) (.agent 0) 4096)).residentOf 0 0 = some 1 ∧
    word (exec (.spilledRequestApply 5) (spilling false (pk (.stf 9 6) (.agent 0) 4096))) (hbmKey 72) 6 = true ∧
    nextHas (exec (.spilledRequestApply 5) (spilling true (pk (.stf 9 6) (.agent 0) 4096))) (fun t => t.net.map (fun x => (x.2.src, x.2.dst)) == [(.agent 0, .core 0)]) = true ∧
    (let e : Ready := ⟨0, 4096, 0⟩
     let s := (spilling false (pk .free (.agent 0) 4096)).modCore 0 (fun c => { c with fill := [e] })
     (let u := (spilling true (pk .free (.agent 0) 4096)).modCore 0 (fun c => { c with fill := [e], wback := [1] })
      u.inWriteBack 0 0 = true ∧ gives (exec (.fill 0) u) u = true) ∧
     (let u := s.modCore 0 (fun c => { c with saved := true, filling := some (1, e) })
      gives (exec (.fillComplete 0) u) u = true) ∧
     s.inWriteBack 0 0 = false ∧ s.entryLive 0 e = true ∧ nextHas (exec (.fill 0) s) (fun t => (t.core 0).filling == some (1, e)) = true ∧
     word (exec (.fillComplete 0) (s.modCore 0 (fun c => { c with filling := some (1, e) }))) 0x1FD00 0x30001 = true ∧
     nextHas (exec (.fillComplete 0) (s.modCore 0 (fun c => { c with filling := some (1, e) }))) (fun t => (t.core 0).ready == [⟨3, 4096, 0⟩]) = true) ∧
    (let s := { spilling true (pk .free (.agent 0) 4096) with net := [] }
     nextHas (exec (.writeBackStart 0 1) s) (fun t => (t.core 0).wback == [1]) = true ∧
     word (exec (.writeBackComplete 0 1) ((s.writeN 0x1FD48 8 9).modCore 0 (fun c => { c with wback := [1] }))) (hbmKey 72) 9 = true ∧
     word (exec (.writeBackComplete 0 1) (s.modCore 0 (fun c => { c with wback := [1] }))) 0x1FD00 1 = true) := by decide +kernel

/-- O49: the choice of an entry, and firings of a slot without a ripe count and with one. -/
theorem test_meets_dispatch :
    let a : Ready := ⟨7, 0, 1⟩
    let b : Ready := ⟨2, 0, 2⟩
    choose [a] 5 = some (a, 0) ∧ choose [b, a] 63 = some (a, 64) ∧ choose [a, b] 64 = some (b, 0) ∧
    (let s := (holding (pk .free (.core 0) 0)).setCore 0 { (site (firing [])).core 0 with ready := [a, b], ctx0 := Ctx.init, marks := [1, 2] }
     s.mayDispatch 0 = true ∧ s.entryLive 0 a = true ∧ s.stopping (s.ownerOf 0 0) = false ∧
     s.paceSettled 0 = true ∧
     (let u := s.modPart 0 (fun q => { q with state := 1 })
      u.stopped 0 = true ∧ gives (exec (.dispatch 0 0) u) u = true) ∧
     nextHas (exec (.dispatch 0 0) s) (fun t => (t.core 0).ctx0.busy && (t.core 0).ctx0.pc == 4 && (t.core 0).ctx0.slot == 1 && (t.core 0).ready == [b] && (t.core 0).marks == [2]) = true ∧
     nextHas (exec (.dispatch 0 0) (s.writeN 0x1FC18 8 0x80000000)) (fun t => (t.core 0).ready == [b, ⟨0, 0, 1⟩] && t.readW 0x1FC18 == 0) = true) ∧
    nextHas (exec (.illegalPattern 0x01) (site (firing []))) (fun t => t.ctx.busy == false && t.faults.map (·.code) == [0x01]) = true := by decide +kernel
/-! ### Statements about agents: the matrix node and memory -/

/-- A queued command with number m. -/
def mc (op : MOp) (m : Nat) : MCmd :=
  { op := op, seq := m, cmd := 3, from_ := who, ret := ⟨0, none, 1⟩, fences := [], started := false, rows := 0, landed := false, src := [], pois := [] }
/-- A site with a queue. -/
def queueing (l : List MCmd) : State :=
  let s := (holding (pk .free (.core 0) 0)).modCore 0 (fun c => { c with mq := l, tiles := [(512, ⟨0x60000000000000000, false⟩), (513, ⟨-0x10000000000000000, false⟩)] })
  { s with net := [] }.writeN 0xC00 8 0x0102
/-- A command that has started on the bytes as they stand. -/
def atWork (op : MOp) (n : Nat) : MCmd := { mc op 7 with started := true, src := (List.replicate n 0).set 0 2 |>.set 1 1 }

/-- O50: a start, of a command that is blocked and of one that is not; the effect of each command at its end. -/
theorem test_meets_matrix_work :
    (queueing [mc (.mlb 0 0xC00) 7]).mcmd 0 7 = some (mc (.mlb 0 0xC00) 7) ∧ mBlocks (mc (.mlb 0 0xC00) 7) (mc (.mma 2 0 0 0 0) 8) = true ∧
    mBlocks (mc (.mma 2 0 0 0 0) 7) (mc (.mlb 1 0) 8) = false ∧
    nextHas (exec (.matrixCommandStart 0 7) (queueing [mc (.mscl 0 0xC00) 7])) (fun t => (t.core 0).mq.map (fun x => (x.started, x.src.take 2)) == [(true, [2, 1])]) = true ∧
    nextHas (exec (.matrixCommandStart 0 8) (queueing [mc (.mlb 0 0xC00) 7, mc (.mma 2 0 0 0 0) 8])) (fun t => (t.core 0).mq.all (fun x => !x.started)) = true ∧
    nextHas (exec (.matrixCommandStart 0 7) (queueing [mc (.mrot 1) 7])) (fun t => t.net.map (fun x => (x.2.pos, x.2.dst)) == [(.ready, .core 1)]) = true ∧
    (queueing []).matrixDone 0 (atWork (.mscl 0 0xC00) 192) = true ∧ (queueing []).matrixDone 0 (atWork (.mrot 1) 0) = false ∧
    nextHas (exec (.matrixCommandFinish 0 7) (queueing [atWork (.mscl 2 0xC00) 192])) (fun t => (t.core 0).mq.length == 0 && ((t.core 0).bscale.get [] 1).take 3 == [2, 1, 0]) = true ∧
    nextHas (exec (.matrixCommandFinish 0 7) (queueing [atWork (.mscl 0 0xC00) 192])) (fun t => (t.core 0).ascale.take 3 == [2, 1, 0]) = true ∧
    nextHas (exec (.matrixCommandFinish 0 7) (queueing [atWork (.mzero 2 0) 0])) (fun t => decide (State.entry (t.core 0) 2 0 0 = Spool.zero)) = true ∧
    nextHas (exec (.matrixCommandFinish 0 7) { queueing [{ atWork (.mscl 0 0xC00) 192 with pois := [0] }] with poison := [0xC00] })
      (fun t => t.faults.map (·.code) == [0x21] && (t.core 0).ascale == []) = true := by decide +kernel

/-- A latch whose column 0 holds 3 in its first element. -/
def ones : List Byte := (List.replicate 3072 0).set 0 3

/-- O50: a product entry, a latch, and the rows of a drain. -/
theorem test_meets_products :
    State.entry (((queueing []).modCore 0 (fun c => { c with latch := [(0, ones)] })).matrixEffect 0 (mc (.mma 2 0xC00 0 0 0) 7) ones |>.core 0) 2 0 0 = ⟨0xF0000000000000000, false⟩ ∧
    ((((queueing []).matrixEffect 0 (mc (.mlb 1 0) 7) ones).core 0).latch.get [] 1).take 2 = [3, 0] ∧
    nextHas (exec (.mdrainRow 0 7) (queueing [{ mc (.mdrain 2 0xC40 2 0 0 2 true true 0) 7 with started := true, ret := ⟨0, some 0x100002000, 64⟩ }]))
      (fun t => t.readW 0xC40 == 0xFFFFFFFF00000006 && (t.core 0).tiles.length == 0 && t.net.map (·.2.body) == [.signal 0x100002000 1 64 false 1] &&
        (t.core 0).mq.map (·.rows) == [1]) = true ∧
    nextHas (exec (.mdrainRow 0 7) { queueing [{ mc (.mdrain 2 0xC40 2 0 0 2 true true 0) 7 with started := true, ret := ⟨0, some 0x100002000, 64⟩ }] with
      poison := [0xC38, 0xC40, 0xC78, 0xC80] }) (fun t => t.poison == [0xC38, 0xC80]) = true ∧
    nextHas (exec (.mdrainRow 0 7) (queueing [{ mc (.mdrain 2 0xC40 2 0 0 2 true false 0) 7 with started := true, rows := 1, ret := ⟨0, some 0x100002000, 64⟩ }]))
      (fun t => t.net.length == 0 && (t.core 0).mq.map (·.rows) == [2]) = true := by decide +kernel

/-- O50: a tile that lands and moves, and a port word. -/
theorem test_meets_ring_and_ports :
    (let s := { queueing [] with net := [(5, { pk (.tile 1 [3] [4] 7) (.core 1) 0 with src := .core 0 })] }
     nextHas (exec (.mrotTileLands 5) s) (fun t => ((t.core 1).landing.get none 1).isSome && t.net.length == 0) = true) ∧
    (let s := (queueing []).modCore 1 (fun c => { c with landing := [(1, some { bytes := [3], scales := [4], cmd := 3, from_ := who, ret := ⟨0, none, 1⟩ })] })
     nextHas (exec (.landingMove 1 1) s) (fun t => (t.core 1).latch.get [] 1 == [3] && (t.core 1).bscale.get [] 1 == [4] && ((t.core 1).landing.get none 1).isNone && t.cmds.length == 0) = true) ∧
    (let s := (queueing []).modCore 0 (fun c => { c with outq := [(1, [8, 9])] })
     nextHas (exec (.portWordArrival 0 1) s) (fun t => (t.core 0).outq.get [] 1 == [9] && (t.core 1).inq.get [] 3 == [8]) = true ∧ neighbour 0 1 = 1) := by decide +kernel
/-- A request for bytes of core 0 at 0xC00, in the outbound domain. -/
def rq (body : Body) (n : Nat) : Packet := { pk body (.core 0) 0 with lo := 0xC00, len := n, outb := true }
/-- A site with that request, and 0x85 and a word of 9 in memory. -/
def served (p : Packet) : State := ((holding p).writeN 0xC00 8 0x85).writeN 0xC08 8 9

/-- O51: loads, stores and atomics, whole and poisoned. -/
theorem test_meets_requests :
    mayApply (served (rq (.ldrm 1 false) 1)) 5 (rq (.ldrm 1 false) 1) = true ∧ (served (rq (.ldrm 1 false) 1)).locOpen (.core 0) = true ∧
    nextHas (exec (.ldrmRequest 5) (served (rq (.ldrm 1 false) 1))) (fun t => t.net.map (·.2.body) == [.reply 0xFFFFFFFFFFFFFF85 false]) = true ∧
    nextHas (exec (.ldrmRequest 5) { served (rq (.ldrm 8 true) 8) with poison := [0xC00] }) (fun t => t.net.map (·.2.body) == [.reply 0x85 true]) = true ∧
    word (exec (.strmRequest 5) (served (rq (.strm 2 0x12345) 2))) 0xC00 0x2345 = true ∧
    word (exec (.atomicRequest 5) (served (rq (.atomic 0 8 3 0 []) 8))) 0xC00 0x88 = true ∧
    nextHas (exec (.atomicRequest 5) (served (rq (.atomic 9 8 3 0x85 []) 8))) (fun t => t.net.map (·.2.body) == [.reply 0x85 false] && t.readW 0xC00 == 3) = true ∧
    nextHas (exec (.atomicRequest 5) (served { rq (.atomic 10 4 0x3F800000 0 []) 4 with ret := ⟨0, none, 4⟩ })) (fun t => t.net.length == 0 && t.cmds.length == 0) = true ∧
    nextHas (exec (.atomicRequest 5) (served { rq (.atomic 11 32 1 0 []) 32 with ret := ⟨0, none, 32⟩ })) (fun t => t.readW 0xC00 == 0x86) = true ∧
    nextHas (exec (.atomicRequest 5) { served (rq (.atomic 0 8 3 0 []) 8) with poison := [0xC00] }) (fun t => t.faults.map (·.code) == [0x21]) = true := by
  decide +kernel

/-- A ring of two entries of 16 bytes at 0x2000: base, n and sz, head, tail, committed. -/
def ringAt (head tail com : Nat) : State :=
  ((((served (rq (.ring 1 0 0 0) 64)).writeN 0xC00 8 0x2000).writeN 0xC08 8 0x21).writeN 0xC10 8 head |>.writeN 0xC18 8 tail).writeN 0xC20 8 com

/-- O51: every ring instruction, where it succeeds and where it does not. -/
theorem test_meets_ring_requests :
    ((ringAt 0 1 0).ringOp 0xC00 1 0 0 0).2 = (true, 0x2010) ∧ ((ringAt 0 2 0).ringOp 0xC00 1 0 0 0).2 = (false, 0) ∧
    ((ringAt 0 1 0).ringOp 0xC00 2 0 0 0).2 = (true, 0) ∧ ((ringAt 0 1 1).ringOp 0xC00 2 0 0 0).2 = (false, 0) ∧
    ((ringAt 1 2 2).ringOp 0xC00 3 0 0 0).2 = (true, 0x2010) ∧ ((ringAt 2 2 2).ringOp 0xC00 3 0 0 0).2 = (false, 0) ∧
    ((ringAt 1 2 2).ringOp 0xC00 4 0 0 0).2 = (true, 0) ∧ ((ringAt 0 2 2).ringOp 0xC00 0 2 1 0x2000).2 = (true, 0) ∧
    nextHas (exec (.ringRequest 5) (ringAt 0 1 0)) (fun t => t.net.map (·.2.body) == [.reply 0x8000000000002010 false] && t.readW 0xC18 == 2) = true := by decide +kernel

/-- A merged request 5 of the parts 5 and 6, both sums by 2. -/
def mergedAt : State :=
  let q := fun xs => { rq (.atomic 0 8 2 0 xs) 8 with pos := .ready }
  let s := served (q [5, 6])
  { s with net := [(5, q [5, 6]), (6, { rq (.atomic 0 8 2 0 []) 8 with pos := .merged 5 })] }

/-- O51: a merged atomic, its reply, an ordered-reduction unit without an armed entry, with one, and its last request; holds end. -/
theorem test_meets_combined :
    mergedAt.partsOf [5, 6] ≠ [] ∧
    nextHas (exec (.mergedAtomicApply 5) mergedAt) (fun t => t.readW 0xC00 == 0x89) = true ∧
    (let q := fun xs => { rq (.atomic 11 32 1 0 xs) 32 with pos := .ready }
     let s := { served (q [5, 6]) with net := [(5, q [5, 6]), (6, { rq (.atomic 11 32 1 0 []) 32 with pos := .merged 5 })] }
     nextHas (exec (.mergedAtomicApply 5) s) (fun t => t.readW 0xC00 == 0x86) = true) ∧
    nextHas (exec (.mergedAtomicApply 5) { mergedAt with poison := [0xC00] }) (fun t => t.faults.length ≥ 1 && t.net.length == 0) = true ∧
    nextHas (exec (.mergedReplySplit 5) { mergedAt with net := [(5, pk (.oldValues [(6, 0x85)]) (.core 0) 0), (6, { rq (.atomic 0 8 2 0 []) 8 with pos := .merged 5 })] })
      (fun t => t.net.map (·.2.body) == [.reply 0x85 false]) = true ∧
    (let p := { rq (.atomic 10 4 0x3F800000 0 []) 4 with dst := .ordUnit 0 }
     mayApply (served p) 5 p = true ∧ nextHas (exec (.orderedReductionRequest 5) (served p)) (fun t => t.net.map (·.2.dst) == [.core 0] && t.readN 0xC00 4 == 0x85) = true ∧
     nextHas (exec (.atomicRequest 5) (served { p with dst := .core 0 })) (fun t => t.readN 0xC00 4 == 0x3F800000) = true ∧
     nextHas (exec (.orderedReductionRequest 5) ((served p).modDie 0 (fun d => { d with ord := [(0, { addr := 0xC00, n := 2, armed := true, got := [] })] })))
       (fun t => (t.die 0).ord.map (·.2.got) == [[5]] && t.readN 0xC00 4 == 0x85) = true ∧
     nextHas (exec (.orderedReductionRequest 5) ((served p).modDie 0 (fun d => { d with ord := [(0, { addr := 0xC00, n := 1, armed := true, got := [] })] })))
       (fun t => t.readN 0xC00 4 == 0x3F800000) = true) ∧
    (let p := { rq (.strm 8 1) 8 with fences := [(3, 4)] }
     nextHas (exec (.fenceRelease 5) (served p)) (fun t => t.net.map (·.2.fences) == [[]]) = true) ∧
    (let p := { pk (.signal 0x100000000 1 1 false 0) (.core 0) 0 with rel := true }
     nextHas (exec (.releaseSignalSend 5) (served p)) (fun t => t.net.map (·.2.rel) == [false]) = true ∧
     nextHas (exec (.releaseSignalSend 5) { served p with net := [(4, rq (.strm 8 1) 8), (5, p)] }) (fun t => t.net.map (·.2.rel) == [false, true]) = true) := by
  decide +kernel
/-! ### Statements about agents: walks -/

/-- A walk of four words from 0xC00 on, whose level 0 signals slot 1, with final slot 2, on engine e. -/
def wk (kind e : Nat) : Walk :=
  { kind := kind, tid := if kind = 5 then 6 else 5, stid := if kind = 5 then 7 else 0, qfmt := if kind = 5 then 9 else 0, origin := [0, 0, 0, 0, 0]
    levels := [⟨4, 4, [1, 0, 0, 0, 0], true, 0x100000000⟩] ++ List.replicate 4 ⟨1, 0, [0, 0, 0, 0, 0], false, 0⟩, base := 0xC00, idx := [], width := 1
    height := 1, ret := ⟨0, some 0x200000000, 0⟩, from_ := who, cmd := 3, ord := 0, fences := [], gen := 0, engine := e, trans := [], going := []
    moved := [], scaled := [], buf := [], tabs := [], sent := [], copies := 0, finals := 0, stop := false }
/-- A site with that walk as number 21: root entry at 0x8000, page entry at 0x10000, page at 0x30000, where the tensors start. -/
def wsite (w : Walk) : State :=
  let t : List Word := [0x140005, 31, 0, 0, 0x8000, 1, 0, 0]
  let d := [(5, t), (6, [0x190006, 31, 0, 0, 0x8000, 1, 0, 0]), (7, [0x100007, 0, 0, 0, 0x8000, 1, 0, 0])]
  let s := { (holding (pk .free (.core 0) 0)).modPart 0 (fun q => { q with descs := d }) with
    net := [], walks := [(21, w)], clusters := [(0, { Cluster.init with walkq := if w.engine = 4 then [21] else [] })] }
  ((s.writeN (hbmKey 0x8000) 8 0x10001).writeN (hbmKey 0x10000) 8 0x300001).writeN (hbmKey 0x30000) 8 0x0000000600000005
/-- The page of tile 0, translated and started. -/
def tr0 : Trans := { tile := 0, page := 0x30000, repl := false, started := true }

/-- O52: a start; a translation that succeeds, and one by an entry that maps nothing. -/
theorem test_meets_walk_start :
    (wsite (wk 0 4)).walkMayStart 21 = true ∧
    nextHas (exec (.walkStart 0 21) (wsite (wk 0 4))) (fun t => (t.cluster 0).walkq == [] && (t.walk 21).map (·.engine) == some 0) = true ∧
    (wsite (wk 0 0)).leased key0 5 0 false = true ∧ (wsite (wk 0 0)).walkTouches (wk 0 0) 0 = true ∧
    (wsite (wk 0 0)).pageEntryAddr 0 (tensOf [0x140005, 31, 0, 0, 0x8000, 1, 0, 0]) 0 = some 0x10000 ∧
    nextHas (exec (.walkTranslation 21 0 0) (wsite (wk 0 0))) (fun t => (t.walk 21).map (·.trans) == some [{ tr0 with started := false }] &&
      (t.die 0).hbmq == [⟨3, 0, 21, 0⟩]) = true ∧
    (wsite (wk 0 0)).pins 0 5 0 = 1 ∧
    nextHas (exec (.walkTranslation 21 0 1) ((wsite (wk 0 0)).modDie 0 (fun d => { d with cache := [⟨0, 5, 0, 0x10000, 0x400001⟩] })))
      (fun t => (t.walk 21).map (·.trans) == some [{ tr0 with started := false, page := 0x40000 }]) = true ∧
    nextHas (exec (.walkTranslation 21 0 0) ((wsite (wk 0 0)).writeN (hbmKey 0x8000) 8 0)) (fun t => t.faults.map (·.code) == [0x22] && t.walks.length == 0) = true ∧
    nextHas (exec (.walkTranslation 21 0 0) ((wsite (wk 0 0)).writeN (hbmKey 0x10000) 8 0)) (fun t => t.faults.map (·.code) == [0x22]) = true ∧
    (let s := (wsite (wk 0 0)).modPart 0 (fun q => { q with descs := [(5, [0x140005, 31, 0, 0, 0x1000008000, 1, 0, 0])] })
     s.tableEntry 21 (wk 0 0) 0x1000008000 = none ∧ s.inFlight 0 (State.portOf 0x1000008000) = 0 ∧
     nextHas (exec (.walkTranslation 21 0 0) s) (fun t => t.net.map (fun x => (x.2.body, x.2.dst)) == [(.tableRead 21 0x1000008000, .hbm 1 0)]) = true) ∧
    nextHas (exec (.walkTranslation 21 0 0) { wsite (wk 0 0) with net := [(5, pk (.tableRead 21 0x8000) (.hbm 0 0) 0)] })
      (fun t => t.net.map (fun x => (x.2.body, x.2.dst)) == [(.tableWord 21 0x8000 0x10001, .core 0)]) = true ∧
    nextHas (exec (.walkTranslation 21 0 0) { wsite (wk 0 0) with net := [(5, pk (.tableWord 21 0x8000 9) (.core 0) 0)] })
      (fun t => t.net.length == 0 && (t.walk 21).map (·.tabs) == some [(0x8000, 9)]) = true := by decide +kernel

/-- A site with a walk and one packet of its moves at a unit. -/
def moving (w : Walk) (stage tile : Nat) (es : List Elem) (dst : Loc) : State :=
  { wsite { w with trans := [tr0, { tr0 with tile := 2 ^ 24, page := 0x50000 }] } with net := [(5, pk (.moves 21 stage tile es) dst 0)] }

/-- O52: a group that starts, one without a lease, and one toward a bound port that is not live. -/
theorem test_meets_moves_start :
    (wsite { wk 0 0 with trans := [tr0] }).moveTiles (wk 0 0) 1 = [0] ∧
    nextHas (exec (.walkMove 21 [1]) (wsite { wk 0 0 with trans := [tr0] })) (fun t => (t.walk 21).map (·.going) == some [1] &&
      t.net.map (fun x => (x.2.body, x.2.dst)) == [(.moves 21 0 0 [⟨1, 0, []⟩], .hbm 0 3)]) = true ∧
    nextHas (exec (.walkMove 21 [3]) (wsite { wk 1 0 with trans := [tr0] })) (fun t => t.net.map (fun x => (x.2.body, x.2.dst)) == [(.moves 21 0 0 [⟨3, 0, []⟩], .core 0)]) = true ∧
    nextHas (exec (.walkMove 21 [1]) (wsite { wk 5 0 with trans := [tr0, { tr0 with tile := 2 ^ 24 }] })) (fun t => (t.walk 21).map (·.going) == some [0, 1, 2, 3]) = true ∧
    nextHas (exec (.walkMove 21 [3]) { wsite { wk 1 0 with trans := [tr0] } with insts := [(key0, { inst0 with graph := 9 })] })
      (fun t => t.faults.map (·.code) == [0x20] && t.walks.length == 0) = true ∧
    (let s := (wsite { wk 1 0 with trans := [{ tr0 with repl := true }] }).modMgmt (fun m => { m with ports := [(4, (1, 0))], up := [4] })
     s.boundPorts 0 = [4] ∧ nextHas (exec (.walkMove 21 [3]) s) (fun t => t.faults.map (·.code) == [0x38] && t.walks.length == 0) = true ∧
     nextHas (exec (.walkMove 21 [3]) (s.modMgmt (fun m => { m with back := [4] }))) (fun t => t.net.length == 1) = true) := by decide +kernel

/-- O52: the three packets of a group, in both directions, with the last element, and a poisoned block. -/
theorem test_meets_moves_arrive :
    nextHas (exec (.walkMove 21 [1]) (moving (wk 0 0) 0 0 [⟨1, 0, []⟩] (.hbm 0 3))) (fun t => t.net.map (·.2.body) == [.moves 21 1 0 [⟨1, 6, [false]⟩]] &&
      (t.walk 21).map (·.buf) == some [(hbmKey 0x30000, (0x600000005, false))]) = true ∧
    nextHas (exec (.walkMove 21 []) ((moving (wk 1 0) 0 0 [⟨3, 0, []⟩] (.core 0)).writeN 0xC0C 4 9)) (fun t => t.net.map (·.2.body) == [.moves 21 1 0 [⟨3, 9, [false]⟩]]) = true ∧
    nextHas (exec (.walkMove 21 [1]) (moving (wk 0 0) 1 0 [⟨1, 6, [false]⟩] (.core 0))) (fun t => t.net.map (fun x => (x.2.body, x.2.dst)) == [(.moves 21 2 0 [⟨1, 6, [false]⟩], .core 0)]) = true ∧
    nextHas (exec (.walkMove 21 [3]) (moving (wk 1 0) 1 0 [⟨3, 9, [false]⟩] (.core 0))) (fun t => t.net.map (·.2.dst) == [.hbm 0 3]) = true ∧
    nextHas (exec (.walkMove 21 [0]) (moving (wk 5 0) 1 0 [⟨0, 9, [true]⟩] (.core 0))) (fun t => t.faults.map (·.code) == [0x21] && t.walks.length == 0) = true ∧
    nextHas (exec (.walkMove 21 [0]) (moving (wk 5 0) 1 0 [⟨0, 0x3F800000, [false]⟩] (.core 0))) (fun t => t.net.map (·.2.dst) == [.hbm 0 3, .hbm 0 5]) = true ∧
    nextHas (exec (.walkMove 21 [1]) { moving (wk 0 0) 2 0 [⟨1, 6, [false]⟩] (.core 0) with poison := [0xC00] })
      (fun t => t.readN 0xC04 4 == 6 && (t.walk 21).map (·.moved) == some [1] && t.poison == [0xC00]) = true ∧
    nextHas (exec (.walkMove 21 [3]) (moving (wk 1 0) 2 0 [⟨3, 9, [false]⟩] (.hbm 0 3))) (fun t => t.readN (hbmKey 0x3000C) 4 == 9 && (t.walk 21).map (·.moved) == some [3]) = true ∧
    ((wsite (wk 0 0)).readElem 21 (wk 0 0) (hbmKey 0x30004) 0 32).2 = (6, [false]) := by decide +kernel

/-- O52: the signals, the end, a cancellation and copies. -/
theorem test_meets_walk_end :
    nextHas (exec (.dimensionEndSignal 21 0 0 0) (wsite { wk 0 0 with moved := [0, 1, 2, 3] })) (fun t => t.net.map (·.2.body) == [.signal 0x100000000 1 16 false 1]) = true ∧
    gives (exec (.dimensionEndSignal 21 0 0 0) (wsite { wk 0 0 with moved := [0, 1, 2] })) (wsite { wk 0 0 with moved := [0, 1, 2] }) = true ∧
    nextHas (exec (.finalSignal 21) (wsite { wk 0 0 with moved := [0, 1, 2, 3], sent := [(0, 0, 0)] }))
      (fun t => t.net.map (·.2.body) == [.signal 0x200000000 1 16 false 1] && t.walks.length == 0 && t.cmds.length == 0) = true ∧
    nextHas (exec (.finalSignal 21) (wsite { wk 2 0 with width := 2, moved := [0, 1, 2, 3, 4, 5, 6, 7], sent := [(0, 0, 0), (0, 0, 1)] }))
      (fun t => t.net.length == 1 && (t.walk 21).map (·.finals) == some 1) = true ∧
    (let s := { wsite { wk 0 0 with moved := [0, 1, 2, 3], sent := [(0, 0, 0)] } with net := [(5, pk (.signal 0x100000000 1 16 false 1) (.core 0) 0)] }
     s.signalsOut (wk 0 0) = true ∧ gives (exec (.finalSignal 21) s) s = true) ∧
    State.scalesDone (wk 5 0) (List.range 4) = false ∧ State.scalesDone { wk 5 0 with scaled := [0] } (List.range 4) = true ∧
    nextHas (exec (.twcanComplete 5) { wsite { wk 0 0 with copies := 1 } with net := [(5, { pk (.twcan 0x200000000) (.cluster 0) 0 with cmd := 0 })] })
      (fun t => t.walks.map (·.2.stop) == [true] && t.net.length == 1) = true ∧
    nextHas (exec (.twcanComplete 5) { wsite (wk 0 0) with net := [(5, { pk (.twcan 0x200000000) (.cluster 0) 0 with cmd := 0 })] })
      (fun t => t.walks.length == 0 && t.readW 0x1FC50 == 1 && t.cmds.length == 0) = true ∧
    (let p := { pk (.replica 0x30000 [7] false 21) (.hbm 0 3) 0 with lo := hbmKey 0x30000, len := 1 }
     nextHas (exec (.replicaWriteApply 5) { wsite { wk 1 0 with copies := 1 } with net := [(5, p)] }) (fun t => t.readN (hbmKey 0x30000) 1 == 7 && (t.walk 21).map (·.copies) == some 0) = true ∧
     (let s := { wsite { wk 1 0 with copies := 1 } with net := [(5, { p with dst := .port 0 })] }
      nextHas (exec (.replicaWriteApply 5) (s.modMgmt (fun m => { m with up := [0], back := [0] })))
        (fun t => t.readN (hbmKey 0x30000) 1 == 5 && (t.walk 21).map (·.copies) == some 0) = true ∧
      nextHas (exec (.replicaWriteApply 5) s) (fun t => t.faults.map (·.code) == [0x38] && t.walks.length == 0) = true)) := by decide +kernel
/-! ### Statements about agents: steps and the solver -/

/-- A paced site: core 0 paces on core 1, at depth 2. -/
def psite (stp : Word) (done : Bool) (p : Packet) : State :=
  let s := { holding p with insts := [(key0, { inst0 with graph := 1 })] }
  (s.writeN 0xC00 8 0x77).modCore 0 (fun c => { c with
    ctx0 := Ctx.init, pace := some { depth := 2, dep := [(1, 0)], watch := [(-1, 0)] }, stp := stp, done := done, known := [(1, (5, true))] })

/-- O53: a step that is done, one that advances, at the counts that allow it and not, notices, and requests of each kind. -/
theorem test_meets_steps :
    (let s := ((psite 3 false (pk .free (.core 0) 0)).modCore 0 (fun c => { c with stepds := [(9, 2)] }))
     s.beforePending 9 0 2 = false ∧ s.paceSettled 0 = true ∧ nextHas (exec (.stepdDone 0 9) s) (fun t => (t.core 0).done && (t.core 0).stepds == [] && t.net.length == 2) = true) ∧
    (psite 5 true (pk .free (.core 0) 0)).atOffsets 0 0 [(1, 0)] = [1] ∧ finCount (5, true) = 6 ∧
    nextHas (exec (.stepAdvance 0) (psite 5 true (pk .free (.core 0) 0))) (fun t => (t.core 0).stp == 6 && (t.core 0).done == false) = true ∧
    gives (exec (.stepAdvance 0) (psite 6 true (pk .free (.core 0) 0))) (psite 6 true (pk .free (.core 0) 0)) = true ∧
    gives (exec (.stepAdvance 0) (psite 5 false (pk .free (.core 0) 0))) (psite 5 false (pk .free (.core 0) 0)) = true ∧
    nextHas (exec (.stepNotice 5) (psite 3 false (pk (.notice 1 6 true) (.core 0) 0))) (fun t => (t.core 0).known == [(1, (6, true))] && t.net == []) = true ∧
    nextHas (exec (.stepNotice 5) (psite 3 false (pk (.notice 1 6 false) (.core 0) 0))) (fun t => (t.core 0).known == [(1, (5, true))] && t.net == []) = true := by decide +kernel
/-- O53: the requests at a step unit. -/
theorem test_meets_step_requests :
    (psite 3 false (pk (.ldst 8 true 2 0 0xC00) (.core 0) 0)).depthOf (pk (.ldst 8 true 2 0 0xC00) (.core 0) 0) = some 2 ∧
    nextHas (exec (.ldstRequest 5) (psite 3 false (pk (.ldst 8 true 2 0 0xC00) (.core 0) 0))) (fun t => t.net.map (·.2.body) == [.reply 0x77 false]) = true ∧
    nextHas (exec (.ldstRequest 5) (psite 3 false (pk (.ldst 8 true 1 0 0xC00) (.core 0) 0))) (fun t => t.faults.map (·.code) == [0x18]) = true ∧
    nextHas (exec (.ldstRequest 5) (psite 3 false (pk (.ldst 8 true 3 0 0xC00) (.core 0) 0))) (fun t => (t.core 0).heldq == [5] && t.net.map (·.2.pos) == [.kept]) = true ∧
    nextHas (exec (.ldstRequest 5) ((psite 3 false (pk (.ldst 8 true 3 0 0xC00) (.core 0) 0)).modCore 0 (fun c => { c with heldq := List.replicate 64 1 })))
      (fun t => t.net.map (·.2.pos) == [.returned]) = true ∧
    nextHas (exec (.stepqRequest 5) (psite 3 true (pk (.stepq 3) (.core 0) 0))) (fun t => t.net.map (·.2.body) == [.reply 0x8000000000000003 false]) = true ∧
    nextHas (exec (.stepqRequest 5) (psite 3 true (pk (.stepq 4) (.core 0) 0))) (fun t => (t.core 0).heldq == [5]) = true ∧
    (let s := fun b => { psite 3 true (pk b (.core 0) 0) with insts := [(key0, { inst0 with graph := 1, stopping := 2 })] }
     (s (.stepq 4)).stopping key0 = true ∧ nextHas (exec (.stepqRequest 5) (s (.stepq 4))) (fun t => (t.core 0).heldq == [] && t.cmds.length == 0) = true ∧
     nextHas (exec (.ldstRequest 5) (s (.ldst 8 true 4 0 0xC00))) (fun t => t.net.length == 0 && t.cmds.length == 0 && (t.core 0).heldq == []) = true ∧
     nextHas (exec (.ldstRequest 5) (s (.ldst 8 true 2 0 0xC00))) (fun t => t.net.map (·.2.body) == [.reply 0x77 false]) = true ∧
     nextHas (exec (.ldstRequest 5) (s (.ldst 8 true 1 0 0xC00))) (fun t => t.faults.map (·.code) == [0x18]) = true ∧
     nextHas (exec (.stepqRequest 5) (s (.stepq 3))) (fun t => t.net.map (·.2.body) == [.reply 0x8000000000000003 false]) = true ∧
     (let u := { s (.ldst 8 true 2 0 0xC00) with insts := [(key0, inst0)] }
      u.depthOf (pk (.ldst 8 true 2 0 0xC00) (.core 0) 0) = none ∧ nextHas (exec (.ldstRequest 5) u) (fun t => t.net.length == 0 && t.cmds.length == 0) = true)) ∧
    (let s := (psite 3 true (pk .free (.core 0) 0)).modCore 0 (fun c => { c with nextPace := some (some { depth := 4, dep := [], watch := [] }) })
     (s.core 0).ctx0.busy = false ∧ ((s.settlePace 0).core 0).stp = 0 ∧ ((s.settlePace 0).core 0).pace.map (·.depth) = some 4 ∧
     gives (.next ((s.modCore 0 (fun c => { c with ctx0 := firing [] })).settlePace 0)) (s.modCore 0 (fun c => { c with ctx0 := firing [] })) = true) ∧
    nextHas (exec (.stepRequestResend 5) (psite 3 false { pk (.ldst 8 true 3 0 0xC00) (.core 0) 0 with pos := .returned })) (fun t => t.net.map (·.2.pos) == [.ready]) = true := by
  decide +kernel

/-- A sequencer of two stages (Heun and Euler) with record 3, its arrays of one element at 0x100, 0x140, 0x180, 0x200 and 0x240. -/
def tab0 : Tableau :=
  { s := 2, q := 1, safety := 0x3F666666, fmin := 0x3E4CCCCD, fmax := 0x40A00000, c := [0, 0x3F800000], b := [0x3F000000, 0x3F000000], bh := [0x3F800000, 0]
    a := (List.replicate 49 0).set 7 0x3F800000 }
def rec0 : Sample :=
  { Sample.init with
    st := 1, t := 0, tend := 0x3F800000, h := 0x3F000000, atol := 0x3F800000, n := 1, ya := 0x100, wa := 0x140, za := 0x180, ka := [0x200, 0x240]
    srefs := [0x100000000, 0x200000000, 0x300000000, 0x400000000] }
def ssite (x : Sample) (p : Packet) : State :=
  let s := { holding p with clusters := [(0, { Cluster.init with tab := some tab0, recs := [(3, x)] })] }
  ((s.writeN (clusterKey 0 0x100) 4 0x3F800000).writeN (clusterKey 0 0x200) 4 0x40000000).writeN (clusterKey 0 0x240) 4 0x40000000
/-- The image of a tableau of one stage and of a sample at 0xC00. -/
def imaged (p : Packet) : State :=
  ([(0, 1), (4, 1), (8, 0x3F666666), (12, 0x3E4CCCCD), (16, 0x40A00000), (32, 0), (64, 0x3F800000), (96, 0x3F800000)] : List (Nat × Nat)).foldl
    (fun (s : State) x => s.writeN (0xC00 + x.1) 4 x.2) (ssite rec0 p)
def sampled (p : Packet) : State :=
  ([(0, 0), (4, 0x3F800000), (8, 0x3F000000), (12, 0x3F800000), (20, 1), (32, 0x100), (36, 0x140), (40, 0x180), (44, 0x200), (48, 0x240), (100, 0), (108, 1), (116, 1), (124, 1)]
    : List (Nat × Nat)).foldl (fun (s : State) x => s.writeN (0xC00 + x.1) 4 x.2) (ssite { rec0 with st := 4 } p)

/-- O54: each request in its turn, and where it is code 0x31. -/
theorem test_meets_sequencer :
    (imaged (pk (.sqtab 0xC00) (.seqr 0) 0)).seqrTurn 5 0 (pk (.sqtab 0xC00) (.seqr 0) 0) = true ∧
    nextHas (exec (.sqtabServe 5) (imaged (pk (.sqtab 0xC00) (.seqr 0) 0))) (fun t => ((t.cluster 0).tab.map (·.s)) == some 1 && t.cmds.length == 0) = true ∧
    nextHas (exec (.sqtabServe 5) (ssite rec0 (pk (.sqtab 0xC00) (.seqr 0) 0))) (fun t => t.faults.map (·.code) == [0x31]) = true ∧
    nextHas (exec (.sqtabServe 5) (ssite { rec0 with st := 2 } (pk (.sqtab 0xC00) (.seqr 0) 0))) (fun t => t.faults.map (·.code) == [0x31]) = true ∧
    nextHas (exec (.sqinitServe 5) (sampled (pk (.sqinit 0xC00 3) (.seqr 0) 0))) (fun t => ((t.cluster 0).recs.map (·.2.st)) == [1] && t.faults.length == 0) = true ∧
    nextHas (exec (.sqinitServe 5) (ssite { rec0 with st := 2 } (pk (.sqinit 0xC00 3) (.seqr 0) 0))) (fun t => t.faults.map (·.code) == [0x31]) = true ∧
    nextHas (exec (.sqstepServe 5) (ssite rec0 (pk (.sqstep 3) (.seqr 0) 0))) (fun t => ((t.cluster 0).recs.map (fun x => (x.2.st, x.2.stage, x.2.forming))) == [(2, 1, true)]) = true ∧
    nextHas (exec (.sqstepServe 5) (ssite { rec0 with st := 4 } (pk (.sqstep 3) (.seqr 0) 0))) (fun t => t.faults.map (·.code) == [0x31]) = true ∧
    nextHas (exec (.sqstageServe 5) (ssite { rec0 with st := 2, stage := 1 } (pk (.sqstage 3 1) (.seqr 0) 0))) (fun t => ((t.cluster 0).recs.map (fun x => (x.2.stage, x.2.forming))) == [(2, true)]) = true ∧
    nextHas (exec (.sqstageServe 5) (ssite { rec0 with st := 2, stage := 2 } (pk (.sqstage 3 2) (.seqr 0) 0))) (fun t => ((t.cluster 0).recs.map (fun x => (x.2.st, x.2.stage))) == [(3, 0)]) = true ∧
    nextHas (exec (.sqstageServe 5) (ssite { rec0 with st := 2, stage := 1 } (pk (.sqstage 3 2) (.seqr 0) 0))) (fun t => t.faults.map (·.code) == [0x31]) = true ∧
    nextHas (exec (.sqrdServe 5) (ssite rec0 (pk (.sqrd 3 2) (.seqr 0) 0))) (fun t => t.net.map (·.2.body) == [.reply 0x3F000000 false]) = true := by decide +kernel

/-- O54: stage 2 is formed as y + h·a·k1 = 2 at t = 0.5; a held sample is rejected, an accepted last step ends, and poison fails. -/
theorem test_meets_decision :
    nextHas (exec (.stageFormed 0 3) (ssite { rec0 with st := 2, stage := 2, forming := true } (pk .free (.core 0) 0)))
      (fun t => t.readN (clusterKey 0 0x180) 4 == 0x40000000 && ((t.cluster 0).recs.map (fun x => (x.2.ts, x.2.forming))) == [(0x3F000000, false)]) = true ∧
    nextHas (exec (.stageFormed 0 3) { ssite { rec0 with st := 2, stage := 2, forming := true } (pk .free (.core 0) 0) with poison := [clusterKey 0 0x200] })
      (fun t => t.faults.map (·.code) == [0x21] && ((t.cluster 0).recs.map (·.2.st)) == [5]) = true ∧
    nextHas (exec (.stepDecision 0 3) { ssite { rec0 with st := 3 } (pk .free (.core 0) 0) with poison := [clusterKey 0 0x240] })
      (fun t => t.faults.map (·.code) == [0x21] && ((t.cluster 0).recs.map (·.2.st)) == [5]) = true ∧
    nextHas (exec (.stepDecision 0 3) (ssite { rec0 with st := 3, last := true, tend := 0x3F000000 } (pk .free (.core 0) 0)))
      (fun t => t.readN (clusterKey 0 0x140) 4 == 0x40000000 && ((t.cluster 0).recs.map (fun x => (x.2.st, x.2.t, x.2.nacc, x.2.ya))) == [(4, 0x3F000000, 1, 0x140)]) = true ∧
    nextHas (exec (.stepDecision 0 3) ((ssite { rec0 with st := 3, hold := true, atol := 0x3A83126F } (pk .free (.core 0) 0)).writeN (clusterKey 0 0x240) 4 0x41200000))
      (fun t => ((t.cluster 0).recs.map (fun x => (x.2.st, x.2.nrej, x.2.nacc, x.2.t, x.2.ya))) == [(1, 1, 0, 0, 0x100)]) = true := by decide +kernel
/-! ### Statements about agents: launches -/

/-- A site whose leases are mapped, with a pending launch under key 7 of graph g, from the host or not. -/
def lsite (g : Nat) (host : Bool) (state : Nat) : State :=
  let s := wsite (wk 0 4)
  let t := ((s.writeN (hbmKey 0x10008) 8 0x400001).writeN (hbmKey 0x10010) 8 0x500001).writeN (hbmKey 0x10018) 8 0x600001
  { t.modPart 0 (fun q => { q with place := [(0, (0x102, 0))] }) with
    walks := [], cmds := [], clusters := [], cores := []
    insts := [(7, { inst0 with handle := 7, graph := g, state := state, host := host, arrived := true, started := false, args := [5, 6], comp := some 0x100002000
                               depth := 0, record := 0x70000, tag := 0x99 })] }

/-- O55: a request, a start of each kind, and one with a descriptor that is not valid; the launch agent of the root core and another. -/
theorem test_meets_launch_start :
    nextHas (exec (.launchRequest 5) { lsite 0 false 0 with net := [(5, pk (.launch 7) (.launch 0) 0)], insts := [(7, { inst0 with arrived := false })] })
      (fun t => t.insts.map (·.2.arrived) == [true] && t.net.length == 0) = true ∧
    (lsite 0 false 0).partRuns 0 = true ∧ (lsite 0 false 0).descsOk 0 graph0 = true ∧ ((lsite 0 false 0).leasesSeen inst0 graph0 == .ok true) = true ∧
    ((lsite 0 false 0).makeRoom 0 0).isSome = true ∧ (lsite 0 false 0).splicesPass 0 graph0 = true ∧
    ((lsite 0 false 0).modMgmt (fun m => { m with conn := [(1, 0)] })).splicesPass 0 { graph0 with splices := [0] } = false ∧
    nextHas (exec (.instanceStart 7) (lsite 0 false 0)) (fun t => t.insts.map (·.2.state) == [1]) = true ∧
    nextHas (exec (.instanceStart 7) (lsite 0 true 0)) (fun t => t.insts.map (·.2.state) == [1]) = true ∧
    nextHas (exec (.instanceStart 7) ((lsite 0 false 0).modPart 0 (fun q => { q with descs := [] })))
      (fun t => t.faults.map (·.code) == [0x22] && t.insts.map (fun x => (x.2.state, x.2.reason)) == [(2, 1)]) = true ∧
    (let s := lsite 0 false 1
     let u : State := { s with insts := s.insts.map (fun x => (x.1, { x.2 with copy := [(0xC00, [1, 2])] })) }
     ((u.inst 7).map (fun i => (i.state, i.copy)) = some (1, [(0xC00, [1, 2])]) ∧ (u.graphOf 7).isSome = true ∧
       (u.writeBytes 0xC00 [1, 2]).readN 0xC00 2 = 0x201)) ∧
    State.wordPieces 0xC06 [1, 2, 3] = [(0xC06, [1, 2]), (0xC08, [3])] ∧
    dieOf ((lsite 0 false 1).place 0 0 0) = 1 ∧ (lsite 0 false 1).takeFrame ((lsite 0 false 1).place 0 0 0) = some 0 ∧
    nextHas (exec (.launchMulticast 0 7) (lsite 0 false 1)) (fun t => t.insts.map (·.2.cast) == [[0]] && t.cores.length == 0) = true ∧
    nextHas (exec (.launchMulticast 1 7) (lsite 0 false 1)) (fun t => t.insts.map (·.2.started) == [true] &&
      (t.core ((lsite 0 false 1).place 0 0 0)).owners.map (·.2.inst) == [7]) = true := by decide +kernel

/-- O55: an end, one that waits for a command, credits, queries and cancellations in every state. -/
theorem test_meets_launch_end :
    (let s := { lsite 0 true 1 with insts := (lsite 0 true 1).insts.map (fun x => (x.1, { x.2 with started := true })) }
     nextHas (exec (.instanceEnd 7) s) (fun t => t.insts.map (fun x => (x.2.state, x.2.reason)) == [(2, 0)] && t.net.map (·.2.body) == [.signal 0x100002000 1 1 false 3] &&
       t.readW (hbmKey 0x70010) == 0x100) = true ∧
     gives (exec (.instanceEnd 7) { s with cmds := [(3, { from_ := { who with inst := 7 }, major := 0, minor := 0, failed := none })] })
       { s with cmds := [(3, { from_ := { who with inst := 7 }, major := 0, minor := 0, failed := none })] } = true) ∧
    (lsite 0 false 0).poolFree 0 0 = 2047 ∧
    nextHas (exec (.creditLend 0 0) { lsite 0 false 0 with clusters := [(0, { Cluster.init with credit := 31 }), (1, { Cluster.init with need := false })] })
      (fun t => (t.cluster 2).credit == 1 && (t.cluster 0).credit == 31 && (t.cluster 1).credit == 0) = true ∧
    (lsite 0 false 0).queryWord 8 = 3 ∧ (lsite 0 false 1).queryWord 7 = 1 ∧
    nextHas (exec (.gqueryRequest 5) { lsite 0 false 2 with net := [(5, pk (.gquery 7) (.launch 0) 0)] }) (fun t => t.net.map (·.2.body) == [.reply 2 false]) = true ∧
    nextHas (exec (.gcanRequest 5) { lsite 0 false 0 with net := [(5, pk (.gcan 8) (.launch 0) 0)] }) (fun t => t.net.map (·.2.body) == [.reply 0 false]) = true ∧
    nextHas (exec (.gcanRequest 5) { lsite 0 false 2 with net := [(5, pk (.gcan 7) (.launch 0) 0)] }) (fun t => t.net.map (·.2.body) == [.reply 0 false]) = true ∧
    nextHas (exec (.gcanRequest 5) { lsite 0 false 0 with net := [(5, pk (.gcan 7) (.launch 0) 0)] })
      (fun t => t.net.map (·.2.body) == [.signal 0x100002000 1 1 false 3, .reply 1 false] && t.insts.map (·.2.reason) == [2]) = true ∧
    nextHas (exec (.gcanRequest 5) { lsite 0 false 1 with net := [(5, pk (.gcan 7) (.launch 0) 0)] })
      (fun t => t.insts.map (fun x => (x.2.stopping, x.2.waiters)) == [(2, [5])]) = true := by decide +kernel

/-- No cluster of a die is in need. -/
theorem test_meets_no_need :
    let s := { lsite 0 false 0 with clusters := (List.range 100).map (fun i => (i, { Cluster.init with need := false })) }
    (∀ k ∈ s.clustersOf 0 0, (s.cluster k).need = false) ∧ gives (exec (.creditLend 0 0) s) s = true := by decide +kernel

/-- O55: the ring's registers at the ends of their ranges. -/
theorem test_meets_ring_registers :
    (lsite 0 false 0).partExists 0 = true ∧ (lsite 0 false 0).hbmIn 0 0x1FFFFFF000 = true ∧
    (∀ p ∈ ([(exec (.subqBase 0 0x1FFFFFF000) (lsite 0 false 0), false), (exec (.subqBase 0 0x800) (lsite 0 false 0), true), (exec (.subqLog 0 4) (lsite 0 false 0), false),
      (exec (.subqLog 0 16) (lsite 0 false 0), false), (exec (.subqLog 0 3) (lsite 0 false 0), true), (exec (.subqLog 0 17) (lsite 0 false 0), true)] : List (Out × Bool)),
      nextHas p.1 (fun t => (t.part 0).cfgerr == p.2) = true) ∧
    nextHas (exec (.subqTail 0 1) (lsite 0 false 0)) (fun t => (t.part 0).subTail == 1 && !(t.part 0).overflow) = true ∧
    nextHas (exec (.subqTail 0 2) (lsite 0 false 0)) (fun t => (t.part 0).subTail == 0 && (t.part 0).overflow) = true := by decide +kernel

/-- O55: a malformed entry, a well-formed one, images at and above the limit, placement entries, forecast and clock. -/
theorem test_meets_entries :
    (let s := ((lsite 0 false 1).modPart 0 (fun t => { t with subTail := 1, subBase := 0x80000, hostSeq := 4 })).writeN (hbmKey 0x80040) 8 0x90000
     (s.malformed 0 (s.readW (hbmKey 0x80000)) = false ∧ s.poolFree 0 0 ≠ 0 ∧
     nextHas (exec (.submissionEntryRead 0) (s.writeN (hbmKey 0x80000) 8 0x20001)) (fun t => (t.part 0).subHead == 1 && (t.part 0).hostSeq == 5 &&
       t.insts.map (fun x => (x.2.graph, x.2.args, x.2.record)) == [(0, [5, 6], 0x70000), (1, [0, 0], 0x90000)]) = true ∧
     nextHas (exec (.submissionEntryRead 0) (s.writeN (hbmKey 0x80000) 8 0x70000)) (fun t => (t.part 0).badpk && (t.part 0).subHead == 1 && t.readW (hbmKey 0x90010) == 0x103) = true)) ∧
    nextHas (exec (.imageLoad 0 { image0 with code := [0x18], descs := [] }) ((lsite 0 false 0).modMgmt (fun m => { m with region := [(0, 0x4001)] }))) (fun t => (t.part 0).descs == [] && t.readN (codeKey 0 0) 4 == 0x18) = true ∧
    nextHas (exec (.placementEntryWrite 0 1 0x102 9) { lsite 0 false 0 with insts := [] }) (fun t => (t.part 0).place.get (0, 0) 1 == (0x102, 9)) = true ∧
    gives (exec (.placementEntryWrite 0 1 0x3 9) { lsite 0 false 0 with insts := [] }) { lsite 0 false 0 with insts := [] } = true ∧
    gives (exec (.placementEntryWrite 0 1 0x2 9) (lsite 0 false 1)) (lsite 0 false 1) = true ∧
    nextHas (exec (.forecast 0) (lsite 0 false 0)) (fun t => (t.die 0).forecast == 1) = true ∧
    ((lsite 0 false 0).modDie 0 (fun d => { d with pinned := true }) |>.die 0).pinned = true ∧
    nextHas (exec (.clockPinned 0) (lsite 0 false 0)) (fun t => (t.die 0).pinned == false) = true := by decide +kernel
/-! ### Statements about agents: partitions -/

/-- A module whose shadow tables hold a change: die 2 joins partition 0; nothing runs. -/
def tabled : State :=
  let s := { lsite 0 false 2 with insts := [] }
  s.modMgmt (fun m => { m with regionSh := [(0, 0x4000), (1, 0x4000), (2, 0x4000)] })
/-- The same while a commit drains and every die but 3 has reported. -/
def draining : State :=
  let s := tabled.modMgmt (fun m => { m with gen := 1, drain := true, region := m.regionSh, regionOld := m.region })
  { s with dies := (List.range 16).map (fun d => (d, { Die.init with drained := d != 3 })) }

/-- O56: a commit that is accepted, one while another drains, one that breaks the rules, and the reports of the dies. -/
theorem test_meets_commit :
    tablesOk tabled.mgmt = true ∧ (1 : Word).getLsbD 0 = true ∧
    nextHas (exec (.commit 1) tabled) (fun t => t.mgmt.gen == 1 && t.mgmt.drain && t.mgmt.region == tabled.mgmt.regionSh && (t.part 0).clearing.length == 4) = true ∧
    nextHas (exec (.commit 1) draining) (fun t => t.mgmt.cbusy) = true ∧
    nextHas (exec (.commit 1) (tabled.modMgmt (fun m => { m with regionSh := [(0, 2)] }))) (fun t => t.mgmt.cbad && !t.mgmt.drain) = true ∧
    draining.oldPacketOn 3 = false ∧ draining.oldPacketOn 2 = false ∧
    nextHas (exec (.drainMessage 2) draining) (fun t => t.mgmt.drain) = true ∧
    nextHas (exec (.drainMessage 3) draining) (fun t => !t.mgmt.drain && t.mgmt.regionOld == []) = true ∧
    (let s := { draining with net := [(5, { pk .free (.core 76805) 0 with pos := .inbound })] }
     s.oldPacketOn 3 = true ∧ gives (exec (.drainMessage 3) s) s = true) ∧
    (let s := ((lsite 0 false 2).writeN 0xC00 8 7).modPart 0 (fun t => { t with clearing := [(0, 0)] })
     State.keyInQuarters [(0, 0)] 0xC00 = true ∧ State.keyInQuarters [(0, 0)] (hbmKey 0x400000000) = false ∧
     gives (exec (.clearingComplete 0) s) (s.modPart 0 (fun t => { t with clearing := [] })) = true ∧
     gives (exec (.clearingComplete 0) (s.modMgmt (fun m => { m with drain := true }))) (s.modMgmt (fun m => { m with drain := true })) = true) := by decide +kernel

/-- O56: spill, migration, reduction and fault-area registers, at the ends of their ranges. -/
theorem test_meets_partition_registers :
    (lsite 0 false 2).anyLive 0 = false ∧ (lsite 0 false 2).partExists 0 = true ∧
    nextHas (exec (.spillFrames 0 4096) (lsite 0 false 2)) (fun t => (t.part 0).spill == 4096) = true ∧
    nextHas (exec (.spillFrames 0 4097) (lsite 0 false 2)) (fun t => (t.part 0).spillErr) = true ∧
    nextHas (exec (.spillBase 0 2 0x2000000000) (lsite 0 false 2)) (fun t => (t.part 0).spillErr) = true ∧
    (lsite 0 false 2).spillFits 0 1 0x1FFFFFF000 0 = true ∧
    nextHas (exec (.spillBase 0 1 0x1FFFFFF000) (lsite 0 false 2)) (fun t => (t.part 0).spillBase.get 0 1 == 0x1FFFFFF000) = true ∧
    (lsite 0 false 2).ordIndex 0 1 15 = some 15 ∧
    nextHas (exec (.ordAddr 0 1 15 0x0400000000000C00) (lsite 0 false 2)) (fun t => ((t.die 1).ord.get Ord.init 15).addr == 0x0400000000000C00) = true ∧
    nextHas (exec (.ordN 0 1 15 0x1FFF) (lsite 0 false 2)) (fun t => ((t.die 1).ord.get Ord.init 15).n == 8191) = true ∧
    (let s := (lsite 0 false 2).modDie 1 (fun d => { d with ord := [(15, { Ord.init with addr := 0x0400000000000C00, n := 2 })] })
     s.ordWord 1 15 0x0400000000000C00 = some (coreKey 25600 0xC00) ∧ s.armedFor 1 (coreKey 25600 0xC00) = none ∧
     (let v := s.modDie 1 (fun d => { d with ord := [(14, { addr := 0x0400000000000C00, n := 2, armed := true, got := [] }), (15, { Ord.init with addr := 0x0400000000000C00, n := 2 })] })
      v.armedFor 1 (coreKey 25600 0xC00) ≠ none ∧ gives (exec (.ordArm 0 1 15 0x2000) v) v = true) ∧
     nextHas (exec (.ordArm 0 1 15 0x2000) s) (fun t => ((t.die 1).ord.get Ord.init 15).armed) = true ∧
     (let u := s.modDie 1 (fun d => { d with ord := [(15, { addr := 0x0400000000000C00, n := 2, armed := true, got := [] })] })
      nextHas (exec (.ordArm 0 1 15 0) u) (fun t => !((t.die 1).ord.get Ord.init 15).armed) = true ∧ gives (exec (.ordAddr 0 1 15 0) u) u = true ∧ gives (exec (.ordN 0 1 15 0) u) u = true)) ∧
    nextHas (exec (.faBase 0 0x1FFFFFF000) (lsite 0 false 2)) (fun t => (t.part 0).faBase == 0x1FFFFFF000 && (t.part 0).faBaseOk) = true ∧
    (∀ p ∈ ([(exec (.faLog 0 6) (lsite 0 false 2), 6), (exec (.faLog 0 20) (lsite 0 false 2), 20), (exec (.faLog 0 5) (lsite 0 false 2), 0), (exec (.faLog 0 21) (lsite 0 false 2), 0)]
      : List (Out × Nat)), nextHas p.1 (fun t => (t.part 0).faLog == p.2) = true) := by decide +kernel

/-- A partition in a state of pre-emption, with save areas where they may be, and the region of one die. -/
def saving (st : Nat) : State :=
  let s := { lsite 0 false 2 with cores := [(0, { Core.init with saved := decide (2 ≤ st) }), (1, { Core.init with saved := decide (2 ≤ st) })] }
  (s.modMgmt (fun m => { m with region := [(0, 0x4000)] })).modPart 0 (fun t => { t with state := st, savedAs := [(0, 4)], saveBase := [(0, 0x100000000)] })

/-- O56: pre-emption in each state, a core's save and restore, a port's entry, link and peer. -/
theorem test_meets_preemption :
    (saving 0).partState 0 = 0 ∧ partRsv (saving 0).mgmt.region 0 = false ∧
    nextHas (exec (.preempt 0) (saving 0)) (fun t => (t.part 0).state == 1 && (t.part 0).savedAs == [(0, 4)]) = true ∧
    nextHas (exec (.preempt 0) (saving 3)) (fun t => (t.part 0).refused) = true ∧ nextHas (exec (.resume 0) (saving 3)) (fun t => (t.part 0).state == 4) = true ∧
    nextHas (exec (.resume 0) (saving 0)) (fun t => (t.part 0).refused) = true ∧ (saving 1).coreQuiet 0 = true ∧
    nextHas (exec (.coreSave 0) (saving 1)) (fun t => (t.core 0).saved && (t.part 0).state == 2) = true ∧
    (let s := (saving 1).modCore 0 (fun c => { c with ctx0 := firing [] })
     s.coreQuiet 0 = false ∧ gives (exec (.coreSave 0) s) s = true) ∧
    nextHas (exec (.coreRestore 0) (saving 4)) (fun t => !(t.core 0).saved && (t.core 1).saved && (t.part 0).state == 4) = true ∧
    nextHas (exec (.portEntryWrite 31 0 0x2) (saving 0)) (fun t => t.mgmt.ports == [(31, (2, 0))]) = true ∧
    (let s := (saving 0).modMgmt (fun m => { m with ports := [(31, (1, 0x100000000))], up := [31], back := [31] })
     gives (exec (.portEntryWrite 31 0 0x1) s) s = true ∧ nextHas (exec (.portEntryWrite 31 1 0x7FFFFFFFF) s) (fun t => t.mgmt.ports == [(31, (1, 0x7FFFFFFFF))]) = true ∧
     nextHas (exec (.opticalLinkState 31 (false, true)) s) (fun t => t.mgmt.up == [] && t.mgmt.back == [31]) = true ∧ nextHas (exec (.opticalLinkState 0 (true, false)) s) (fun t => t.mgmt.up == [0, 31] && t.mgmt.back == [31]) = true ∧
     nextHas (exec (.peerReplicaWrite 31 0xFFFFFFFFE ([1, 2], [])) s) (fun t => t.readN (hbmKey 0xFFFFFFFFE) 2 == 0x201 && t.net.map (·.2.body) == [.signal 0x100000000 1 2 false 4]) = true) := by
  decide +kernel
/-! ### Statements about agents: faults, service and the fabric -/

/-- A record of a firing of codeblock 0 that lists command 3. -/
def record0 (c : Option Word) : FaultRec :=
  { kind := 0, code := 0x12, part := 0, inst := key0, handle := handle0, cid := 0, f := 0, w2 := 5, w3 := 6, rest := [], cmds := [(3, c)], ext := [], cb := some 0
    own := 0, acts := true }
/-- A site with records, whose graph has a policy or none, with the fault area as given. -/
def faulty (pol : Option Nat) (ok : Bool) (l : List FaultRec) : State :=
  let s := { site (firing []) with faults := l, mem := [(0x1FC02, 1)] }
  s.modPart 0 (fun q => { q with image := some { image0 with blocks := [block0, { block0 with templates := [0x80000002] }], graphs := [{ graph0 with policy := pol }] }, faBase := 0x100000000, faBaseOk := ok, faLog := 6, faLogOk := ok })

/-- O57: a record that waits for a command and one that does not; each way a policy ends; a ring with room and one that is not there. -/
theorem test_meets_records :
    (faulty none true [record0 none]).faults[0]? = some (record0 none) ∧ gives (exec (.faultRecordWrite 0) (faulty none true [record0 none])) (faulty none true [record0 none]) = true ∧
    nextHas (exec (.faultRecordWrite 0) (faulty none true [record0 (some 8)])) (fun t => t.faults == [] && (t.part 0).faHead == 1 && (t.inst key0).any (fun i => i.stopping == 1)) = true ∧
    ((faulty none true []).inst key0).any (fun i => i.state == 1 && i.stopping == 0) = true ∧ ((faulty (some 1) true []).graphOf key0).bind (·.policy) = some 1 ∧
    ((faulty none true []).graphOf key0).bind (·.policy) = none ∧ (faulty (some 1) true []).handlerCore (record0 (some 8)) 1 = 0 ∧
    ((faulty (some 1) true []).core 0).dead = false ∧ ((faulty (some 1) true []).takeFrame 0).isSome = true ∧
    (let t := (faulty (some 1) true []).settleFault (record0 (some 8))
     (t.core 0).ready.length = 1 ∧ (t.part 0).faHead = 1 ∧ (t.inst key0).any (fun i => i.stopping == 0) = true) ∧
    ((faulty (some 0) true []).settleFault (record0 (some 8))).inst key0 ≠ (faulty none true []).inst key0 ∧
    ((faulty none false []).writeFault (record0 (some 8)) 0 |>.part 0).faLost = 1 ∧
    (((faulty none true []).modPart 0 (fun q => { q with faHead := 64 })).writeFault (record0 (some 8)) 0 |>.part 0).faLost = 1 ∧
    (let s := faulty none true []
     let q := s.part 0
     let t := s.writeFault (record0 (some 8)) 2
     State.extRecords (record0 (some 8)) = [] ∧ (q.faHead - q.faTail).toNat + 1 ≤ 2 ^ q.faLog ∧ memWf s.mem = true ∧ q.faBase.toNat + 64 * 2 ^ q.faLog ≤ 2 ^ 40 ∧
       t.readW (hbmKey 0x100000000) = 0x1012 ∧ t.readW (hbmKey 0x100000008) = handle0 ∧ t.readW (hbmKey 0x100000020) = 8) := by decide +kernel

/-- A trigger of a partition from the firing's snap, and the state with it. -/
def trig0 (r : List SnapBlock) : Trig := { seq := 4, part := some 0, reached := r, ret := { ow := 10, slot := none, bytes := 8 }, from_ := who, cmd := 3, fences := [], root := 3 }
def snapped (g : Trig) : State := { site (firing []) with trigs := [(2, g)], mgmt := { (site (firing [])).mgmt with snapSeq := 4 } }

/-- O57: triggers of the host and of a partition at their blocks, and a snap of a partition that holds no die. -/
theorem test_meets_snapshots :
    (1 : Word).getLsbD 0 = true ∧ (2 : Word).getLsbD 0 = false ∧
    nextHas (exec (.snapTrig 1) (site (firing []))) (fun t => t.mgmt.snapSeq == 1 && t.trigs.map (fun x => (x.1, x.2.seq, x.2.part, x.2.root)) == [(20, 1, none, 21)]) = true ∧
    (snapped (trig0 [])).trigHits (some 0) (.core 0) = true ∧
    nextHas (exec (.snapshotTriggerArrival 2 (.core 0)) (snapped (trig0 []))) (fun t => (t.core 0).snap.seq == 4 && (t.core 0).snap.ctxs == 1 && t.trigs.map (fun x => x.2.reached) == [[.core 0]]) = true ∧
    nextHas (exec (.snapshotTriggerArrival 2 (.launchAgent 0)) (snapped (trig0 []))) (fun t => (t.die 0).snaps.map (fun x => (x.1, x.2.seq, x.2.valid)) == [(1, 4, true)]) = true ∧
    nextHas (exec (.snapshotTriggerArrival 2 (.engine 0 3)) (snapped (trig0 []))) (fun t => (t.cluster 0).snaps.map (fun x => (x.1, x.2.seq, x.2.valid)) == [(3, 4, true)]) = true ∧
    gives (exec (.snapshotTriggerArrival 2 (.core 0)) (snapped { trig0 [] with fences := [(1, 0)], root := 0 })) (snapped { trig0 [] with fences := [(1, 0)], root := 0 }) = true ∧
    (let s := { snapped (trig0 []) with trigs := [(1, { trig0 [] with root := 2 }), (2, trig0 [])] }
     gives (exec (.snapshotTriggerArrival 2 (.core 0)) s) s = true) ∧
    (let s := { snapped (trig0 []) with mgmt := { Module.init with region := [] } }
     s.trigBlocks (some 0) = [] ∧ nextHas (exec (.snapComplete 2) s) (fun t => t.trigs.length == 0 && t.net.map (fun x => (x.2.body, x.2.dst)) == [(.reply 4 false, .core 0)]) = true ∧
     nextHas (exec (.snapComplete 2) { s with trigs := [(2, { trig0 [] with ret := { ow := 0, slot := none, bytes := 8 } })] }) (fun t => t.trigs.length == 0 && t.net.length == 0) = true) := by
  decide +kernel

/-- A site whose firing has ended, and whose partition gates its cells. -/
def calm : State := ({ site Ctx.init with cores := [(0, { Core.init with owners := [(0, { inst := key0, depth := 1, limit := 2 })] })] }).modPart 0 (fun q => { q with gate := true })

/-- O57: a cell that is idle and one that is not, a quiet partition, cores that fail, a packet for a dead core, and errors. -/
theorem test_meets_failures :
    calm.cellIdle 0 = true ∧ calm.cellPart 0 = 0 ∧ (calm.part 0).gate = true ∧ calm.partExists 0 = true ∧ dieRsv calm.mgmt.region 0 = false ∧
    nextHas (exec (.cellGate 0) calm) (fun t => (t.cell 0).gated) = true ∧ (site (firing [])).cellIdle 0 = false ∧
    nextHas (exec (.cellWake 0) (calm.setCell 0 { calm.cell 0 with gated := true })) (fun t => !(t.cell 0).gated) = true ∧
    (calm.part 0).quiesced = false ∧ calm.quiet 0 = true ∧ (site (firing [])).quiet 0 = false ∧
    nextHas (exec (.quiescence 0) calm) (fun t => t.faults.map (fun r => (r.kind, r.code, r.w2)) == [(5, 0, 0)] && (t.part 0).quiesced) = true ∧
    (calm.core 1).dead = false ∧ (calm.core 1).mq = [] ∧ (calm.core 1).heldq = [] ∧ calm.instsOn 1 = [] ∧ calm.instsOn 0 = [(key0, 0)] ∧
    nextHas (exec (.coreReset 1) calm) (fun t => (t.core 1).dead && (t.core 1).bad && t.faults == []) = true ∧
    nextHas (exec (.coreReset 0) calm) (fun t => (t.core 0).dead && t.faults.map (fun r => (r.kind, r.code)) == [(3, 0x38)]) = true ∧
    (let s := { calm.modCore 1 (fun c => { c with dead := true }) with net := [(5, pk .free (.core 1) 0)], cmds := [(3, { from_ := who, major := 0x2C, minor := 0, failed := none })] }
     State.targetCid (pk .free (.core 1) 0) = some 1 ∧ (pk .free (.core 1) 0).pos = .ready ∧ (s.core 1).dead = true ∧
     nextHas (exec (.packetRefused 5) s) (fun t => t.net.length == 0 && t.faults.map (·.code) == [0x38]) = true ∧
     nextHas (exec (.packetRefused 5) { s with net := [(5, { pk .free (.core 1) 0 with cmd := 0 })] }) (fun t => t.faults.map (fun r => (r.kind, r.code)) == [(6, 0x38)]) = true ∧
     nextHas (exec (.packetRefused 5) { s with walks := [(21, wk 0 0)], net := [(5, pk (.moves 21 2 0 []) (.core 1) 0)] }) (fun t => t.walks.length == 0 && t.faults.map (·.code) == [0x38]) = true ∧
     nextHas (exec (.packetRefused 5) { s with net := [(5, { pk (.atomic 0 8 2 0 [6]) (.core 1) 0 with cmd := 0 }), (6, { pk (.atomic 0 8 2 0 []) (.core 1) 0 with pos := .merged 5 })] })
       (fun t => t.net.length == 0 && t.faults.map (fun r => (r.kind, r.code)) == [(1, 0x38)]) = true) ∧
    (let s := calm.modPart 0 (fun q => { q with quiesced := true })
     gives (exec (.quiescence 0) s) s = true ∧ calm.ownerOf 0 0 = key0 ∧ calm.ownerOf 1 0 ≠ key0) ∧
    nextHas (exec (.uncorrectableError 1 0 true) calm) (fun t => (t.core 1).eccUe == 1 && t.faults.length == 0) = true ∧
    calm.slotFrame 0 0x1FC48 = some 0 ∧ calm.slotFrame 0 0x1FC50 = none ∧
    nextHas (exec (.softError 0x1FC48 2) calm) (fun t => (t.core 0).eccUe == 1 && t.poison == [0x1FC48] && t.faults.map (·.kind) == [3]) = true ∧
    nextHas (exec (.softError (hbmKey 0x1000000007) 1) calm) (fun t => (t.die 1).eccCe == 1) = true ∧
    nextHas (exec (.softError (clusterKey 100 9) 3) calm) (fun t => (t.die 1).eccUe == 1 && t.poison == [clusterKey 100 8]) = true ∧
    nextHas (exec (.uncorrectableError 0 0 true) calm) (fun t => (t.core 0).eccUe == 1 && t.faults.map (fun r => (r.kind, r.code)) == [(3, 0x21)]) = true ∧
    nextHas (exec (.uncorrectableError 0 0 false) calm) (fun t => t.faults.map (fun r => (r.kind, r.code)) == [(3, 0x21)]) = true ∧
    nextHas (exec (.softError 0x20007 1) calm) (fun t => (t.core 1).eccCe == 1 && t.poison == []) = true ∧
    nextHas (exec (.softError 0x20007 2) calm) (fun t => (t.core 1).eccUe == 1 && t.poison == [0x20000]) = true := by decide +kernel

/-- O58: Freit at work and at rest with a mailbox, register windows and device memory. -/
theorem test_meets_service :
    imageCause (calm.slotImage 0) 0 = 1 ∧ imageCause (calm.slotImage 1) 0 = 1 ∧
    nextHas (exec .moduleReset calm) (fun t => !t.mgmt.ok && t.mgmt.cause == 1 && t.parts.length == 0) = true ∧
    (calm.mgmt.cmd = 0 ∧ nextHas (exec .mgCmdFloor (calm.modMgmt (fun m => { m with ver := 5, floor := 4 }))) (fun t => t.mgmt.floor == 5 && t.mgmt.cmd == 3) = true) ∧
    nextHas (exec .mgCmdActivate calm) (fun t => t.mgmt.resNext == 1 && t.mgmt.active == calm.mgmt.active && t.mgmt.cmd == 2) = true ∧
    (let s := calm.modMgmt (fun m => { m with cmd := 2, resNext := 1 })
     s.mgmt.cmd ≠ 0 ∧ nextHas (exec .mgCmdQuote s) (fun t => t.mgmt.busyErr && t.mgmt.cmd == 2) = true ∧
     nextHas (exec .freitCommandDone s) (fun t => t.mgmt.cmd == 0 && t.mgmt.res == 1) = true) ∧
    (let s := (calm.writeN (hbmKey 0) 8 0x36565A544E414847).writeN (hbmKey 8) 8 0x100000000
     (s.mailboxData 64).map headerOk = some true ∧ s.mailboxData 0 = some [] ∧ imageCause [] 0 = 1 ∧ (s.mailboxData 64).map (fun h => fieldOf h 16 8) = some 0 ∧
     nextHas (exec .mgCmdLoad s) (fun t => t.mgmt.cmd == 1 && t.mgmt.resNext == 1) = true) ∧
    (calm.mailboxData 32).isSome = true ∧ calm.mailboxPages 0 0 = some [] ∧ (calm.modMgmt (fun m => { m with mbox := 8 })).mailboxPages 1 8 = none ∧
    calm.hostWaits 0xFFFFFFFFF8 = false ∧ calm.inSaveArea 0xFFFFFFFFF8 = false ∧ calm.mgmt.ok = true ∧
    nextHas (exec (.hostWrite 2 0xFFFFFFFFF8 8 7) calm) (fun t => t.readW (hbmKey 0xFFFFFFFFF8) == 7) = true ∧
    (let s := calm.modPart 0 (fun t => { t with saveBase := [(0, 0x100000000)], savedAs := [(0, 4)], state := 2 })
     s.inSaveArea 0x100000000 = true ∧ gives (exec (.hostWrite 2 0x100000000 8 7) s) s = true) ∧
    calm.readReg 0x100000 < 2 ^ 64 ∧ nextHas (exec (.hostWrite 0 0x178 8 9) calm) (fun t => t.mgmt.regionSh.get 0 15 == 9) = true ∧
    nextHas (exec (.registerWrite 0x178 9) calm) (fun t => t.mgmt.regionSh.get 0 15 == 9) = true ∧
    nextHas (exec (.registerWrite 0x100618 9) calm) (fun t => (t.part 0).faTail == 9) = true ∧
    nextHas (exec (.registerWrite 0x010 3) (calm.modMgmt (fun m => { m with cbusy := true, cbad := true }))) (fun t => !t.mgmt.cbusy && !t.mgmt.cbad) = true ∧
    (let s := (holding (pk .free (.core 0) 0)).modCore 0 (fun c => { c with saved := true })
     (s.core 0).saved = true ∧ (pk .free (.core 0) 0).dst = .core 0 ∧ nextHas (exec (.savedPacketApply 5) s) (fun t => (t.core 0).saved && (s.core 0).saved) = true) := by decide +kernel

/-- A packet of core 0 for core 1 that waits at its sender, and one for a core of die 1. -/
def fresh (c : Nat) : Packet := { pk .free (.core c) 0 with pos := .sender }

/-- O58: the way of a packet: router, link, splice with room, full and empty, crossbar and channel. -/
theorem test_meets_fabric :
    dieOf 0 = dieOf 1 ∧ (fresh 1).src = .core 0 ∧ (fresh 1).rel = false ∧ (fresh 1).fences = [] ∧
    (let s := { calm with net := [(5, fresh 1)] }
     nextHas (exec (.routerHop 5) s) (fun t => t.net.map (fun x => decide (x.2.pos = .link (modX 0) (modY 0) 4 (s.vcBase (fresh 1)) (t.net.foldl (fun n y => match y.2.pos with | .link _ _ _ _ q _ _ => q | _ => n) 9)
       (t.net.foldl (fun n y => match y.2.pos with | .link _ _ _ _ _ v _ => v | _ => n) 9) 0)) == [true]) = true) ∧
    (calm.link (linkKey 639 0 1)).q = [] ∧
    (let s := { calm with net := [(5, { fresh 2 with pos := .router 1 0 3 0 })] }
     nextHas (exec (.routerHop 5) s) (fun t => t.net.map (fun x => decide (x.2.pos = .link 1 0 3 0 (s.routePort (fresh 2) 0 2 1 0 0).1 (s.routePort (fresh 2) 0 2 1 0 0).2 0)) == [true]) = true) ∧
    (let at_ := fun (c v sent n : Nat) => { calm with links := [(linkKey 0 0 1, { Link.init with q := [(v, [5])] })]
                                                      net := [(5, { fresh c with pos := .link 0 0 4 0 1 v sent, bulk := decide (0 < n), len := n })] }
     State.edgeEntry 0 0 1 = none ∧ routerAt 0 0 1 = (modX 1, modY 1) ∧ flitsOf (fresh 1) = 1 ∧ flitsOf { fresh 1 with bulk := true, len := 256 } = 9 ∧
     nextHas (exec (.linkFlitSend 0 0 1) (at_ 1 0 0 0)) (fun t => t.net.map (·.2.pos) == [.ready] && (t.link (linkKey 0 0 1)).q.get [] 0 == []) = true ∧
     nextHas (exec (.linkFlitSend 0 0 1) (at_ 2 3 8 256)) (fun t => t.net.map (·.2.pos) == [.router 1 0 3 3]) = true ∧
     nextHas (exec (.linkFlitSend 0 0 1) (at_ 2 3 7 256)) (fun t => t.net.map (·.2.pos) == [.link 0 0 4 0 1 3 8] && (t.link (linkKey 0 0 1)).q.get [] 3 == [5]) = true) ∧
    (let s := { calm with net := [(5, fresh 25600)] }
     locDie (fresh 25600).src ≠ locDie (fresh 25600).dst ∧ State.atController (fresh 25600) = true ∧ s.spliceOf (fresh 25600) = some 0 ∧ ((s.part 0).splices.find? (fun x => x.1 == 0)).map (fun x => (x.2.held, x.2.depth)) = some (0, 4) ∧
     nextHas (exec (.spliceEgressEnter 5) s) (fun t => ((t.part 0).splices.find? (fun x => x.1 == 0)).map (fun x => (x.2.held, x.2.order)) == some (1, [5])) = true ∧
     (let f := s.modPart 0 (fun q => { q with splices := [(0, ⟨0, 1, 4, 4, [7]⟩)] })
      nextHas (exec (.spliceEgressEnter 5) f) (fun t => t.net.map (·.2.pos) == [.egress]) = true ∧
      (let g : State := { f with net := [(5, { fresh 25600 with pos := .egress })] }
       gives (exec (.spliceEgressEnter 5) g) g = true))) ∧
    (let s := { calm.modPart 0 (fun q => { q with splices := [(0, ⟨0, 1, 4, 1, [5]⟩)] }) with net := [(5, { fresh 25600 with pos := .ingress, splice := 0 })] }
     nextHas (exec (.spliceIngressDeliver 0 0) s) (fun t => t.net.map (fun x => (x.2.pos, x.2.splice)) == [(.ready, 64)] && ((t.part 0).splices.find? (fun x => x.1 == 0)).map (fun x => (x.2.held, x.2.order)) == some (0, [])) = true ∧
     (let u := { s with net := [(5, { fresh 25600 with pos := .router 3 3 1 0, splice := 0 })] }
      gives (exec (.spliceIngressDeliver 0 0) u) u = true)) ∧
    (let p := { pk .free (.dieSpad 0 3) 0 with pos := .sender }
     let s := { calm with net := [(5, p)] }
     dieRsv s.mgmt.region 0 = false ∧ (s.die 0).xbar.length = 0 ∧ (s.net.filter (fun x => s.asks 0 3 x.2)).map (·.1) = [5] ∧ s.inputOf p 3 = 0 ∧
     (s.net.filter (fun x => s.asks 0 4 x.2)).length = 0 ∧
     nextHas (exec (.crossbarGrant 0 3) s) (fun t => t.net.map (fun x => x.2.pos) == [.ready] && ((t.die 0).xbar.get [] 3).getD 103 7 == 0) = true ∧
     (let q := { pk .free (.agent 1) 0 with pos := .sender, src := .cluster 0 }
      nextHas (exec (.crossbarGrant 0 48) { calm with net := [(5, q)] }) (fun t => t.net.map (fun x => x.2.pos) == [.egress]) = true)) ∧
    (let w : Walk := (default : Walk)
     let r : HbmReq := { (default : HbmReq) with walk := 8, ch := 3 }
     let s := { calm with walks := [(8, w)], dies := [(0, { Die.init with hbmq := [r] })] }
     (s.die 0).hbmq.find? (fun x => x.ch == 3) = some r ∧ s.walk 8 = some w ∧ nextHas (exec (.hbmRequestStart 0 3) s) (fun t => (t.die 0).hbmq.length == 0) = true) := by decide +kernel

/-! ### Further witnesses: what a copy's local name, a freed entry, a table word and a turn at a crossbar meet -/

/-- O48: a copy reached by its local index: a signal, an arming and a free, each also while it is being written back; a reply taken. -/
theorem test_meets_local_names :
    let s := fun b => spilling true (pk b (.core 0) 1)
    let h := fun (x : State) => x.modCore 0 (fun c => { c with wback := [1] })
    (s .free).nameAt 0 1 = 4096 ∧ (s .free).nameAt 0 0 = 0 ∧ (s .free).heldLocal 0 1 = false ∧ (h (s .free)).heldLocal 0 1 = true ∧
    (s (.signal 0x001 1 1 false 0)).sigsOf (.core 0) 0x001 [5] = some [⟨1, 1, false, who, 0⟩] ∧
    nextHas (exec (.signalArrival 0 1 0 [5]) (s (.signal 0x001 1 1 false 0))) (fun t => (t.core 0).ready == [⟨3, 4096, 0⟩]) = true ∧
    gives (exec (.signalArrival 0 1 0 [5]) (h (s (.signal 0x001 1 1 false 0)))) (h (s (.signal 0x001 1 1 false 0))) = true ∧
    nextHas (exec (.armingRequest 5 []) (s (.arm 0x001 0x80000003))) (fun t => t.readW 0x1FD10 == 0x80000003) = true ∧
    gives (exec (.armingRequest 5 []) (h (s (.arm 0x001 0x80000003)))) (h (s (.arm 0x001 0x80000003))) = true ∧
    nextHas (exec (.freeRequest 5) (s .free)) (fun t => t.readW 0x1FD00 == 0x20001 && t.readW (hbmKey 0) == 1) = true ∧
    gives (exec (.freeRequest 5) (h (s .free))) (h (s .free)) = true ∧
    ((holding (pk (.reply 8 false) (.core 0) 0)).takePkt 5).readW 0x1FC50 = 8 := by decide +kernel

/-- O49: an entry of a freed frame at the head of its level goes, one behind a live entry stays; fills where no frame is free and where the
copy is there. -/
theorem test_meets_freed_entries :
    let live : Ready := ⟨5, 0, 1⟩
    let dead : Ready := ⟨6, 1, 0⟩
    let behind : Ready := ⟨5, 2, 0⟩
    let s := (holding (pk .free (.core 0) 0)).modCore 0 (fun c => { c with ready := [dead, live, behind], ctx0 := Ctx.init, marks := [1, 8, 16] })
    s.entryLive 0 live = true ∧ s.entryLive 0 dead = false ∧ s.entryLive 0 behind = false ∧
    ((s.discardFreed 0).core 0).ready = [live, behind] ∧ ((s.discardFreed 0).core 0).marks = [1, 16] ∧
    (let e : Ready := ⟨0, 4096, 0⟩
     let u := (spilling true (pk .free (.agent 0) 4096)).modCore 0 (fun c => { c with fill := [e] })
     (u.residentOf 0 0).isSome = true ∧ nextHas (exec (.fill 0) u) (fun t => (t.core 0).ready == [⟨3, 4096, 0⟩] && (t.core 0).fill == []) = true ∧
     (let v := (spilling false (pk .free (.agent 0) 4096)).modCore 0 (fun c => { c with fill := [e] })
      let full := ((v.writeN 0x1FD00 8 0x10000).writeN 0x1FE00 8 0x10000).writeN 0x1FF00 8 0x10000
      full.freeLocal 0 = none ∧ gives (exec (.fill 0) full) full = true)) := by decide +kernel

/-- O52: a translation by a word that software has written over; a twcan whose frame is being written back, and one of a dead core. -/
theorem test_meets_old_entries :
    (let s := (wsite (wk 0 0)).keepOlds 0x10000 8
     let u := s.writeN (hbmKey 0x10000) 8 0x400001
     s.pinnedAt 0 0x10000 = true ∧ s.pinnedAt 0 0x8000 = true ∧ s.pinnedAt 0 0x8008 = false ∧ u.versions 0 0x10000 0x400001 = [0x400001, 0x300001] ∧
     nextHas (exec (.walkTranslation 21 0 17) u) (fun t => (t.walk 21).map (·.trans) == some [{ tr0 with started := false }]) = true ∧
     nextHas (exec (.walkTranslation 21 0 1) u) (fun t => (t.walk 21).map (·.trans) == some [{ tr0 with started := false, page := 0x40000 }]) = true) ∧
    (let p := { pk (.twcan 0x200000000) (.cluster 0) 0 with cmd := 0 }
     nextHas (exec (.twcanComplete 5) ({ wsite (wk 0 0) with net := [(5, p)] }.modCore 0 (fun c => { c with dead := true })))
       (fun t => t.walks.length == 0 && t.faults.map (·.kind) == [6]) = true ∧
     (let s := (spilling true (pk .free (.agent 0) 4096)).modCore 0 (fun c => { c with wback := [1] })
      let u := { s with net := [(5, { p with from_ := { who with fref := 4096 } })] }
      u.inWriteBack 0 0 = true ∧ gives (exec (.twcanComplete 5) u) u = true)) := by decide +kernel

/-- O55: a lease whose entries stand on another die, one that is not resident, a copied piece, and a turn that another input has. -/
theorem test_meets_launch_entries :
    (let s := (lsite 0 false 0).modPart 0 (fun q => { q with descs := [(5, [0x140005, 31, 0, 0, 0x1000008000, 1, 0, 0]),
       (6, [0x190006, 31, 0, 0, 0x8000, 1, 0, 0]), (7, [0x100007, 0, 0, 0, 0x8000, 1, 0, 0])] })
     s.descsOk 0 graph0 = true ∧ (s.leasesSeen inst0 graph0 == .error 0x1000008000) = true ∧
     nextHas (exec (.instanceStart 7) s) (fun t => t.net.map (fun x => (x.2.body, x.2.dst)) == [(.tableRead 7 0x1000008000, .hbm 1 0)]) = true ∧
     (let p := { pk (.tableRead 7 0x1000008000) (.hbm 1 0) 0 with src := .launch 0 }
      State.isLaunchTable p 7 = true ∧ nextHas (exec (.instanceStart 7) { s with net := [(5, p)] }) (fun t => t.net.map (fun x => (x.2.body, x.2.dst)) ==
        [(.tableWord 7 0x1000008000 0, .launch 0)]) = true ∧
      nextHas (exec (.instanceStart 7) { s with net := [(5, { pk (.tableWord 7 0x1000008000 9) (.launch 0) 0 with src := .hbm 1 0 })] })
        (fun t => t.insts.map (·.2.tabs) == [[(0x1000008000, 9)]]) = true)) ∧
    (let s := (lsite 0 false 0).writeN (hbmKey 0x10008) 8 0
     (s.leasesSeen inst0 graph0 == .ok false) = true ∧ nextHas (exec (.instanceStart 7) s) (fun t => t.insts.map (·.2.state) == [0]) = true) ∧
    (let s := lsite 0 false 1
     let u : State := { s with insts := s.insts.map (fun x => (x.1, { x.2 with copy := [(0xC00, [1, 2])] })) }
     let q := { pk .free (.core 0) 0 with pos := .sender, src := .dieSpad 0 3 }
     let busy : State := { u with net := [(5, q)] }
     (u.agentTurn (locOfKey 0xC00)).isSome = true ∧ (busy.agentTurn (locOfKey 0xC00)).isSome = false ∧
     (let root := (lsite 0 false 1).place 0 0 0
      let v : State := { s with net := [(5, { q with src := .dieSpad 1 3, dst := .core root })] }
      (v.agentTurn (.core root)).isNone = true ∧ gives (exec (.launchMulticast 1 7) v) v = true)) ∧
    (let s := (lsite 0 false 0).modMgmt (fun m => { m with ok := false })
     gives (exec (.telemetryUpdate 0) s) s = true ∧ gives (exec (.forecast 0) s) s = true ∧ gives (exec (.clockPinned 0) s) s = true) := by decide +kernel

/-- O56 to O58: a share that is being cleared, a module in reset, a refused tile, a step notice at a die edge, and the host's turns. -/
theorem test_meets_further :
    (let s := ((saving 0).modMgmt (fun m => { m with ports := [(31, (1, 0x100000000))], up := [31], back := [31] })).modPart 0 (fun q => { q with clearing := [(0, 3)] })
     gives (exec (.peerReplicaWrite 31 0xFFFFFFFFE ([1, 2], [])) s) s = true) ∧
    quartersLost [(0, 0x4000), (1, 0x4000)] [(0, 0x4000)] 0 = [(1, 0), (1, 1), (1, 2), (1, 3)] ∧
    (let s := calm.modMgmt (fun m => { m with ok := false })
     gives (exec (.thermalTrip 0) s) s = true ∧ gives (exec (.softError 0x20007 2) s) s = true ∧
     nextHas (exec (.coreReset 0) s) (fun t => (t.core 0).bad && !(t.core 0).dead && t.faults.length == 0) = true) ∧
    (let s := (queueing [{ mc (.mrot 1) 7 with started := true }]).modCore 1 (fun c => { c with dead := true })
     let u := { s with net := [(5, { pk (.tile 1 [3] [4] 7) (.core 1) 0 with src := .core 0 })] }
     nextHas (exec (.packetRefused 5) u) (fun t => (t.core 0).mq.length == 0 && t.faults.map (·.code) == [0x38] && t.net.length == 0) = true) ∧
    (let n := { pk (.notice 0 3 true) (.core 25600) 0 with pos := .link 159 0 3 0 1 32 0, bulk := false }
     let s := { calm with links := [(linkKey 159 0 1, { Link.init with q := [(32, [5])] })], net := [(5, n)] }.modMgmt (fun m => { m with conn := [(1, 0)] })
     State.edgeEntry 159 0 1 = some 1 ∧ routerAt 159 0 1 = (modX 25600, modY 25600) ∧ s.entryOpen { n with body := .free } 1 = false ∧
     nextHas (exec (.linkFlitSend 159 0 1) s) (fun t => t.net.map (·.2.pos) == [.ready]) = true) ∧
    (let s := { calm with net := [(5, { pk .free (.hbm 0 0) 0 with pos := .sender })] }
     (s.hostTurn 0).isNone = true ∧ (s.hostReadTurn 0).isNone = true ∧ gives (exec (.hostWrite 2 0 8 7) s) s = true ∧ (calm.hostTurn 0).isSome = true ∧ (calm.hostReadTurn 0).isSome = true) ∧
    (let s := calm.modPart 0 (fun q => { q with descBase := some 0x40000 })
     s.descAt 0x40150 = some (0, 5, 2) ∧ calm.descAt 0x40150 = none ∧ s.descWord 0 5 0 = 5 ∧
     nextHas (exec (.hostWrite 2 0x40154 4 9) s) (fun t => t.descWord 0 5 2 == 0x900000000 && t.readW (hbmKey 0x40150) == 0) = true ∧
     nextHas (exec (.hostRead 2 0x40140 8) s) (fun t => t.hostData.1 == 5) = true) := by decide +kernel

/-- RSA with the modulus 61 · 53 and the exponents 17 and 2753, a textbook's pair; the encoding fills the modulus. -/
theorem test_rsa : powMod 3233 12 65 17 = 2790 ∧ powMod 3233 12 2790 2753 = 65 ∧ (emsa [0x61]).length = 512 ∧ (emsa [0x61]).take 3 = [0, 1, 0xFF] := by
  decide +kernel
/-- What core 0's firing 7 wrote over at 0xC00 by access 3, bound to some parties. -/
def past (l : List Party) : Older := { key := 0xC00, val := 0x44, fid := 7, inst := 0, by_ := 1, num := 3, tag := 0, lo := 0xC00, len := 8, spool := false, bound := l }
/-- A site with request p, the word 0x85 at 0xC00 and that older value of it. -/
def recent (p : Packet) (l : List Party) : State := { served p with older := [past l] }
/-- A release of scope cell or die by core 0, access 3, on the word. -/
def release (scope : Nat) : Head := { key := 0xC00, len := 8, cid := 0, scope := scope, num := 3 }

/-- O51: a read may pass a write that is not ordered before it and none that is; what it has seen every party sees. -/
theorem test_meets_older :
    (let s := recent (rq (.ldrm 8 true) 8) []
     s.passable ⟨8, 1, 5, none⟩ 0xC00 8 0xC00 = 1 ∧ s.passable ⟨7, 1, 5, none⟩ 0xC00 8 0xC00 = 0 ∧ s.passable ⟨7, 2, 5, none⟩ 0xC00 8 0xC00 = 1 ∧ s.settled 0xC00 8 = false ∧
     s.settled 0xC08 8 = true) ∧
    (let s := recent (rq (.ldrm 8 true) 8) [.firing 8]
     s.passed ⟨8, 1, 5, none⟩ 0xC00 8 0xC00 = 0 ∧ (∀ e ∈ s.older, binds ⟨8, 1, 5, none⟩ e = true) ∧ s.seenN ⟨8, 1, 5, none⟩ 0xC00 8 = 0x85 ∧
     (s.olderAt 0xC00)[s.passed ⟨8, 1, 5, none⟩ 0xC00 8 0xC00]? = some (past [.firing 8]) ∧ (s.saw ⟨8, 1, 5, none⟩ 0xC00 8).older = [] ∧ 0xC00 ∈ wordsOf 0xC00 8) ∧
    (let t := (served (rq (.strm 8 1) 8)).storeN ⟨7, 0, 1, 3, 0⟩ 0xC04 4 1
     t.older = [{ key := 0xC00, val := 0x85, fid := 7, inst := 0, by_ := 1, num := 3, tag := 0, lo := 0xC04, len := 4, spool := false, bound := [] }]) := by
  decide +kernel

/-- O51: a store and an atomic of a narrower scope end a release sequence, one of a scope that contains it continues it, and an acquire
takes what its release passed (the lock of R249). -/
theorem test_meets_sequences :
    (let p (sem scope : Nat) : Packet := { rq (.atomic 0 8 1 0 []) 8 with sem := sem, scope := scope, ret := ⟨3, none, 8⟩ }
     let s (scope : Nat) : State := { recent (p 1 3) [.head 3] with heads := [release scope] }
     let after (sem scope : Nat) : State := ((s 3).atomicOn 5 (p sem scope) 0 8 1 0).1
     ((s 3).storeN ⟨7, 0, 1, 4, 0⟩ 0xC00 8 1).heads = [] ∧ ((s 3).storeN ⟨7, 0, 1, 4, 0⟩ 0xC08 8 1).heads = [release 3] ∧
     (after 1 1).heads = [] ∧ (after 1 3).heads = [release 3] ∧ (after 1 4).heads = [release 3] ∧ (after 0 1).heads.map (·.num) = [5] ∧
     (release 3).num ≠ 5 ∧ (p 1 3).len = 8) ∧
    (let p (sem : Nat) : Packet := { rq (.atomic 0 8 1 0 []) 8 with sem := sem, scope := 3, ret := ⟨0, some 0, 8⟩ }
     let s : State := { served (p 2) with heads := [release 3], older := [{ past [.head 3] with key := 0xD00, lo := 0xD00 }] }
     (((s.atomicOn 5 (p 2) 0 8 1 0).1.olderAt 0xD00).map (·.bound)) = [[.cover 5, .head 3]] ∧
     (((s.atomicOn 5 (p 1) 0 8 1 0).1.olderAt 0xD00).map (·.bound)) = [[.head 3]]) := by decide +kernel

/-- O53: a finished step passes what its firing did. -/
theorem test_meets_step_passes :
    (let s := (recent (rq (.ldrm 8 true) 8) []).modCore 0 (fun c => { c with stepds := [(7, 4)] })
     s.beforePending 7 0 4 = false ∧ ((s.passStep 0 7).olderAt 0xC00).map (·.bound) = [[.step 0 0]]) := by decide +kernel

/-! ### Further witnesses: claims, faults of each form, agents' turns, what waits, and the last core of a partition -/

/-- A busy input for device channel 0 of die 0, whose turn comes before any agent's. -/
def busyHbm : Packet := { pk .free (.hbm 0 0) 0 with pos := .sender }

/-- O5, O25: a context whose claim was served issues first; another core that stands at an lclaim, and the shares of a cycle's claims. -/
theorem test_meets_claim_waits :
    (let s := vectors.setCell 0 { vectors.cell 0 with claims := [(0, 9, 12)] }
     s.claimOf 0 0 = some 12 ∧ s.claimOf 0 1 = none ∧ (s.core 0).ctx0.busy = true ∧ Machine.issuing s 0 0 = 0 ∧ Machine.issuing s 0 1 = 0) ∧
    (let s := vectors.writeBytes (codeKey 0 0) (encodeBytes (.lclaim (wf 7 0 0 0 2)))
     s.laneClaim 1 0 = some 16 ∧ s.claimOf 0 0 = none ∧ vectors.claimants 0 24 = [(0, 0, 24)] ∧
     State.serveClaims 24 [(0, 0, 16), (1, 0, 16), (2, 0, 8)] = [(0, 0, 16), (1, 0, 8), (2, 0, 0)]) := by decide +kernel

/-- O38: where the X and C forms fault. -/
theorem test_meets_form_faults :
    let s := loading.modCtx (fun k => { k with s := k.s.set 7 0x1FBF0 })
    (∀ p ∈ ([(.ldX (xf 8 6 0 2 0), 0x03), (.ldX (xf 8 4 0 0 0), 0x04), (.ldX (xf 8 7 0 3 0), 0x21), (.stX (xf 2 6 0 1 0), 0x03), (.stX (xf 2 4 0 3 0), 0x04),
      (.stX (xf 2 5 0 0 0), 0x04), (.ldC ⟨8, 6, 0⟩, 0x03), (.ldC ⟨8, 4, 0⟩, 0x04), (.ldC ⟨8, 7, 0⟩, 0x21), (.stC ⟨2, 6, 0⟩, 0x03), (.stC ⟨2, 4, 0⟩, 0x04),
      (.stC ⟨2, 5, 0⟩, 0x04)] : List (Instr × Code)), nextHas (exec p.1 s) (fun t => t.faults.map (·.code) == [p.2]) = true) := by decide +kernel

/-- O42: sample 32 in the two forms with a slot. -/
theorem test_meets_sample_index :
    ∀ i ∈ [Instr.sqinit (wf 0 1 12 2 0), .sqrd (wf 0 0 12 2 0)], nextHas (exec i asking) (fun t => t.faults.map (·.code) == [0x31]) = true := by decide +kernel

/-- O46: a fire to an armed slot, alone and with signals above the count, a fire to a slot that is not armed, and an instance that is being ended. -/
theorem test_meets_fires :
    let s := holding (pk .free (.core 0) 0)
    let g : Sig := { val := 1, bytes := 4, fire := false, from_ := who, source := 0 }
    let x : Sig := { g with fire := true }
    let u := { s with insts := [(key0, { inst0 with stopping := 2 })] }
    ((s.signalSlot 0 0 1 0x1FC18 false [x]).core 0).ready = [⟨0, 0, 1⟩] ∧ (s.signalSlot 0 0 1 0x1FC18 false [x]).readW 0x1FC18 = 0 ∧
    ((s.signalSlot 0 0 1 0x1FC18 false [g, x, g]).core 0).ready = [⟨0, 0, 1⟩] ∧ (s.signalSlot 0 0 1 0x1FC18 false [g, x, g, g]).faults.map (·.code) = [0x10] ∧
    (s.signalSlot 0 0 2 0x1FC20 false [x]).faults.map (·.code) = [0x11] ∧
    u.stopping (u.ownerOf 0 0) = true ∧ (u.signalSlot 0 0 1 0x1FC18 false [x]).readW 0x1FC18 = 0 ∧ ((u.signalSlot 0 0 1 0x1FC18 false [x]).core 0).ready = [] := by
  decide +kernel

/-- O48: the slots of a new frame, a reply that waits for a write-back, a freed copy, a command that a record lists, and an image's turn. -/
theorem test_meets_new_slots :
    (let s := (holding (pk .free (.core 0) 0)).modPart 0 (fun q => { q with image := some { image0 with blocks := [{ block0 with templates := [0x80000002, 0x98000000] }] } })
     let t := s.writeFrame 0 1 0 7 { inst := key0, depth := 1, limit := 2 } []
     State.templateOf (s.part (s.partOf 0)).image 0 0 = 0x80000002 ∧ t.readW 0x1FD10 = 0x80000002 ∧ State.templateOf (s.part (s.partOf 0)).image 0 1 = 0x98000000 ∧
     s.stopping key0 = false ∧ (s.core 0).marks = [] ∧ t.readW 0x1FD18 = 0x18000000 ∧ (t.core 0).ready = [⟨3, 1, 1⟩] ∧ t.readW 0x1FD20 = 0) ∧
    (let s := (spilling true { pk (.reply 8 false) (.core 0) 0 with from_ := { who with fref := 4096 } }).modCore 0 (fun c => { c with wback := [1] })
     s.inWriteBack 0 0 = true ∧ gives (exec (.replyArrival 5 []) s) s = true) ∧
    (let s := spilling true (pk .free (.core 0) 4096)
     s.residentOf 0 0 = some 1 ∧ nextHas (exec (.freeRequest 5) s) (fun t => (t.core 0).late == [(1, 4096)]) = true) ∧
    (let s := { recent (pk .free (.core 0) 0) [.cover 5] with faults := [record0 none] }
     (s.endCmd 5 (pk .free (.core 0) 0)).older.map (·.bound) = [[.cmd 3, .cover 5]] ∧ (s.endCmd 5 (pk .free (.core 0) 0)).cmds.length = 0) ∧
    (holding (pk (.ldf 3) (.core 0) 0)).inOrder 5 [] = true ∧
    (let s := spilling false (pk (.stf 9 6) (.agent 0) 4096)
     let b : State := { s with net := s.net ++ [(6, busyHbm)] }
     (s.imageTurn 0 0).isSome = true ∧ (b.imageTurn 0 0).isNone = true ∧ gives (exec (.spilledRequestApply 5) b) b = true) := by decide +kernel

/-- O49: a fill and a write-back that have no turn. -/
theorem test_meets_image_turns :
    let e : Ready := ⟨0, 4096, 0⟩
    let s := (spilling false (pk .free (.agent 0) 4096)).modCore 0 (fun c => { c with filling := some (1, e) })
    let b : State := { s with net := [(6, busyHbm)] }
    let u := (spilling true (pk .free (.agent 0) 4096)).modCore 0 (fun c => { c with wback := [1] })
    let v : State := { u with net := [(6, busyHbm)] }
    (b.imageTurn 0 0).isNone = true ∧ gives (exec (.fillComplete 0) b) b = true ∧ (s.imageTurn 0 0).isSome = true ∧
    gives (exec (.writeBackComplete 0 1) v) v = true ∧ (u.imageTurn 0 0).isSome = true := by decide +kernel

/-- O50: port words whose neighbour waits to be cleared, is dead, or has a full queue. -/
theorem test_meets_ports_waiting :
    let s := (queueing []).modCore 0 (fun c => { c with outq := [(1, [8, 9])] })
    let quarter := quarterOf (clusOf 1)
    s.partOf 0 = 0 ∧ s.partOf 1 = 0 ∧ (s.part 0).clearing = [] ∧
    (∀ u ∈ [s.modPart 0 (fun q => { q with clearing := [(0, quarter)] }), s.modCore 1 (fun c => { c with dead := true }), s.modCore 1 (fun c => { c with inq := [(3, List.replicate 16 0)] }),
      s.modCore 0 (fun c => { c with saved := true })], gives (exec (.portWordArrival 0 1) u) u = true) := by decide +kernel

/-- O51: the bytes of a word that a write notes, a release that waits for a write of the bytes that it names, the slice of a split die, and a merge. -/
theorem test_meets_word_bytes :
    (((served (rq (.strm 8 1) 8)).storeN ⟨7, 0, 1, 3, 0⟩ 0xC20 32 1).olderAt 0xC28).map (fun e => (e.lo, e.len, e.spool)) = [(0xC28, 8, true)] ∧
    (let p := { rq (.signal 0x100000000 1 1 false 0) 0 with rel := true, relLo := 0xC00, relLen := 8, outb := false }
     let w := fun b n => ({ served (rq b n) with net := [(5, rq b n)] } : State)
     relPending (w (.strm 8 1) 8) 9 p = true ∧ relPending (w (.ldrm 8 true) 8) 9 p = false ∧ armFirst (rq (.strm 8 1) 8) p = false) ∧
    (let s := calm.modMgmt (fun m => { m with region := [(0, 0x5150414001)] })
     locOfKey (2 * 2 ^ 60 + 3 * 2 ^ 26 + 256 * 9) = .dieSpad 0 9 ∧ isSplit (s.liveRegion.get 0 0) = true ∧ isSplit (calm.liveRegion.get 0 0) = false ∧
     s.unitOf (2 * 2 ^ 60 + 3 * 2 ^ 26 + 256 * 9) = .dieSpad 0 25 ∧ calm.unitOf (2 * 2 ^ 60 + 256 * 9) = .dieSpad 0 9) := by decide +kernel

/-- O52: a page on another die, its request where it arrives, and the packet of moves that a step takes. -/
theorem test_meets_far_pages :
    nextHas (exec (.walkTranslation 21 0 0) ((wsite (wk 0 0)).writeN (hbmKey 0x10000) 8 0x310001)) (fun t => (t.walk 21).map (fun w => w.trans.map (·.page)) == some [0x1000030000] &&
      t.net.map (fun x => (x.2.body, x.2.dst)) == [(.pageAsk 21 0, .hbm 1 3)] && (t.die 1).hbmq.length == 0) = true ∧
    (let s : State := { wsite (wk 0 0) with net := [(5, pk (.pageAsk 21 0) (.hbm 1 3) 0)] }
     nextHas (exec (.walkTranslation 21 0 0) s) (fun t => t.net.length == 0 && (t.die 1).hbmq == [⟨3, 0, 21, 0⟩]) = true) ∧
    (let y : Elem := { move := 1, val := 7, pois := [] }
     let s := moving (wk 0 0) 1 0 [y] (.core 0)
     Claims.nextMoves s 21 [1] (pk (.moves 21 1 0 [y]) (.core 0) 0) = true ∧ Claims.nextMoves s 21 [2] (pk (.moves 21 1 0 [y]) (.core 0) 0) = false ∧
     Claims.nextMoves s 21 [] (pk (.moves 21 1 0 [y]) (.core 0) 0) = true) := by decide +kernel

/-- O53: a deferred end of pacing. -/
theorem test_meets_deferred_pace :
    let s := (psite 3 true (pk .free (.core 0) 0)).modCore 0 (fun c => { c with nextPace := some none })
    ((s.settlePace 0).core 0).stp = 0 ∧ ((s.settlePace 0).core 0).pace = none ∧ (s.core 0).ctx0.busy = false := by decide +kernel

/-- O55: a launch that waits for a paced instance, an instance that waits for a write-back, and a ring entry without a turn. -/
theorem test_meets_launch_waits :
    (let s := lsite 1 false 0
     let u : State := { s with insts := s.insts ++ [(8, { inst0 with handle := 8, graph := 1 })] }
     u.descsOk 0 { graph0 with pace := some { depth := 2, dep := [], watch := [] } } = true ∧ u.pacedLive 0 = true ∧
     nextHas (exec (.instanceStart 7) u) (fun t => t.insts.map (fun x => (x.2.state, x.2.tabs)) == [(0, []), (1, [])]) = true) ∧
    (let s := ((spilling true (pk .free (.agent 0) 4096)).modCore 0 (fun c => { c with wback := [1], owners := [(4096, { inst := key0, depth := 1, limit := 2 })] }))
     let u : State := { s with insts := [(key0, { inst0 with stopping := 2 })], cmds := [], net := [] }
     u.inWriteBackOf key0 = true ∧ gives (exec (.instanceEnd key0) u) u = true) ∧
    (let s := (lsite 0 false 1).modPart 0 (fun t => { t with subTail := 1, subBase := 0x80000 })
     let b : State := { s with net := [(5, { busyHbm with dst := .hbm 0 8 })] }
     s.partRuns 0 = true ∧ s.headAddr 0 = 0x80000 ∧ (s.takeTurn 0 (State.outputOf (State.pageLoc 0x80000)) 100).isSome = true ∧
     (b.takeTurn 0 (State.outputOf (State.pageLoc 0x80000)) 100).isNone = true ∧ gives (exec (.submissionEntryRead 0) b) b = true) := by decide +kernel

/-- The cores of quarter 0 of die 0. -/
def quarterCores : List Nat := (List.range 25600).filter (inShares [(0, 0)])
/-- Partition 0 in quarter 0 of die 0, in a state of pre-emption, with every core but one saved or not. -/
def lastCore (st : Nat) (others : Bool) : State :=
  let s := { lsite 0 false 2 with cores := quarterCores.map (fun c => (c, { Core.init with saved := others })) }
  ((s.modMgmt (fun m => { m with region := [(0, 0x4001)] })).modPart 0 (fun t => { t with state := st, saveBase := [(0, 0x100000000)], cint := true }))

/-- O56: the last core of a partition to be saved: every one of its 6,400 cores then is. -/
theorem test_meets_last_save :
    let s := (lastCore 2 true).modCore 0 (fun c => { c with saved := false })
    let u := (s.modCore 0 (fun c => { c with saved := true })).modPart 0 (fun t => { t with state := 2 })
    s.coreIn 0 0 = true ∧ s.partOf 0 = 0 ∧ s.coreQuiet 0 = true ∧ (u.cores.filter (fun x => x.2.saved && u.coreIn 0 x.1)).length = u.partSize 0 := by decide +kernel

/-- O56: the last core of a partition to be restored; a port for a partition that does not exist; the end of a drain with a code store gained. -/
theorem test_meets_last_restore :
    (let s := (saving 4).modCore 1 (fun c => { c with saved := false })
     let v := s.modPart 0 (fun t => { t with cint := true })
     (∀ x ∈ (s.modCore 0 (fun c => { c with saved := false })).cores, x.2.saved = false) ∧
     nextHas (exec (.coreRestore 0) s) (fun t => (t.part 0).state == 0 && t.msi == []) = true ∧ nextHas (exec (.coreRestore 0) v) (fun t => t.msi == [1]) = true) ∧
    (saving 0).partExists 5 = false ∧ gives (exec (.portEntryWrite 31 0 0xB) (saving 0)) (saving 0) = true ∧
    (let s := (draining.modPart 0 (fun q => { q with clearing := [(2, 0)], image := none })).writeN (codeKey 200 0) 4 9
     State.codeInQuarters [(2, 0)] (codeKey 200 0) = true ∧ s.readN (codeKey 200 0) 4 = 9 ∧ State.codeInQuarters [(2, 0)] (hbmKey 0x8000) = false ∧
     nextHas (exec (.drainMessage 3) s) (fun t => t.readN (codeKey 200 0) 4 == 0 && t.readN (hbmKey 0x8000) 8 == s.readN (hbmKey 0x8000) 8) = true) := by decide +kernel

/-- O57: a record without a turn; a trigger that a fence holds no longer, and one that it holds. -/
theorem test_meets_held_triggers :
    (let s := (faulty none true [record0 (some 8)])
     let b : State := { s with net := [(5, busyHbm)] }
     (b.faultTurn 0).isNone = true ∧ gives (exec (.faultRecordWrite 0) b) b = true ∧ (s.faultTurn 0).isSome = true) ∧
    (let s := snapped { trig0 [] with fences := [(1, 4)], root := 0, seq := 0 }
     s.fencesLeft who [(1, 4)] = [] ∧ nextHas (exec (.fenceRelease 2) s) (fun t => t.mgmt.snapSeq == 5 && t.trigs.map (fun x => (x.2.seq, x.2.root, x.2.fences)) == [(5, 20, [])]) = true) ∧
    (let s := snapped { trig0 [] with fences := [(9, 4)], root := 0, seq := 0 }
     let u : State := { s with net := [(5, rq (.strm 8 1) 8)] }
     u.fencesLeft who [(9, 4)] = [(9, 4)] ∧ gives (exec (.fenceRelease 2) u) u = true) := by decide +kernel

/-- O58: two askers of one output, under the untouched order and under a reservation; a narrow write of a shadow entry; a host read of an older word. -/
theorem test_meets_askers :
    (let p := { pk .free (.dieSpad 0 3) 0 with pos := .sender }
     let s : State := { calm with net := [(5, { p with src := .cluster 1 }), (6, p)] }
     (s.asking 0 3).map (fun x => (x.1, s.inputOf x.2 3)) = [(5, 1), (6, 0)] ∧ State.inputOrder (s.die 0) 3 = List.range 104 ∧
     nextHas (exec (.crossbarGrant 0 3) s) (fun t => t.net.map (fun x => x.2.pos) == [.sender, .ready]) = true) ∧
    (let w := setBits 0 0 40 0xC000
     dieRsv [(0, BitVec.ofNat 64 w)] 0 = true ∧ isSplit (BitVec.ofNat 64 w) = false ∧
     (calm.modMgmt (fun m => { m with region := [(0, BitVec.ofNat 64 w)] })).ownsCycle 0 3 4 = false ∧
     (calm.modMgmt (fun m => { m with region := [(0, BitVec.ofNat 64 w)] })).ownsCycle 0 3 0 = true) ∧
    nextHas (exec (.hostWrite 0 0x178 4 0x2) (calm.modMgmt (fun m => { m with regionSh := [(15, 0xFF00000000000081)] }))) (fun t => t.mgmt.regionSh.get 0 15 == 0xFF00000000000002) = true ∧
    (let s := (calm.writeN (hbmKey 0x500) 8 9)
     nextHas (exec (.hostRead 2 0x500 8) s) (fun t => t.hostData == (9, false)) = true) := by decide +kernel

/-- R241: a stf to a spilled frame and an ldrm of the same word of its resident copy are performed in issue order; of another word they are not. -/
theorem test_copy_bytes :
    let f := { pk (.stf 9 6) (.agent 0) 4096 with outb := true, lo := hbmKey 72, len := 8, ord := 0 }
    let l := fun a => ({ pk (.ldrm 8 false) (.core 0) 0 with outb := true, lo := a, len := 8, ord := 1 } : Packet)
    let s := fun b => ({ spilling b f with net := [(5, f)] } : State)
    (s true).bytesAt f = 0x1FD48 ∧ (s false).bytesAt f = hbmKey 72 ∧
    orderBlocked (s true) 6 (l 0x1FD48) = true ∧ orderBlocked (s true) 6 (l 0x1FD50) = false ∧ orderBlocked (s false) 6 (l 0x1FD48) = false := by decide +kernel
/-! ### Further witnesses: migration from die to die, commits that clear, turns of agents, channels under a reservation -/

/-- Tensor 5's page of tile 0 is being migrated to die d, page 9, and a packet with a stage of it has reached its agent. -/
def migrating (d : Nat) (m : Mig) (stage off : Nat) (bs : List Byte) (pois : List Nat) : State :=
  { (lsite 0 false 2).modPart 0 (fun t => { t with mig := { m with tid := 5, run := 0, dst := d, page := 9, dest := d * 2 ^ 36 + 9 * 2 ^ 16, state := 1 } }) with
    net := [(5, { pk (.migrate stage off bs pois) (.agent 0) 0 with src := .agent 0 })] }
/-- What the packet of a migration is, where it goes, and how the migration stands. -/
def handed (o : Out) (b : Body) (d : Nat) (q : Mig → Bool) : Bool :=
  nextHas o (fun t => t.net.map (fun x => (x.2.body, x.2.dst)) == [(b, .agent d)] && q (t.part 0).mig)

/-- O56: MIG_GO with a root entry, without one, and while a migration runs; the first two stages with each cause. -/
theorem test_meets_migration_start :
    (let m := fun (tile : Nat) => (lsite 0 false 2).modPart 0 (fun t => { t with mig := { Mig.init with tid := 5, tile := tile, dst := 1, page := 9 } })
     State.rootAddr (tensOf ((m 0).descOf 0 5)) 0 = some 0x8000 ∧ State.rootAddr (tensOf ((m 4096).descOf 0 5)) 4096 = none ∧
     handed (exec (.migGo 0 1) (m 0)) (.migrate 0 0 [] []) 0 (fun g => g.state == 1 && g.entry == 0x8000 && g.dest == 0x1000090000) = true ∧
     nextHas (exec (.migGo 0 1) (m 4096)) (fun t => (t.part 0).mig.state == 3 && (t.part 0).mig.cause == 1 && t.net.length == 0) = true ∧
     (let u := (m 0).modPart 0 (fun t => { t with mig := { t.mig with state := 1 } })
      gives (exec (.migGo 0 1) u) u = true ∧ (∀ x ∈ u.net, State.migHere 0 x.2 = false) ∧ gives (exec (.migrationComplete 0) u) u = true)) ∧
    (let s := migrating 1 { Mig.init with entry := 0x8000 } 0 0 [] []
     let b : State := { s with net := s.net ++ [(6, busyHbm)] }
     (s.net.find? (fun x => State.migHere 0 x.2)).map (·.1) = some 5 ∧ ((s.dropPacket 5).agentRead 0x8000 101).isSome = true ∧
     s.leafAddr 0 (s.readW (hbmKey 0x8000)) 0 = some 0x10000 ∧
     handed (exec (.migrationComplete 0) s) (.migrate 1 0 [] []) 0 (fun g => g.entry == 0x10000) = true ∧
     ((b.dropPacket 5).agentRead 0x8000 101).isNone = true ∧ gives (exec (.migrationComplete 0) b) b = true ∧
     nextHas (exec (.migrationComplete 0) (s.writeN (hbmKey 0x8000) 8 0)) (fun t => (t.part 0).mig.state == 3 && (t.part 0).mig.cause == 1) = true) ∧
    (let s := fun d => migrating d { Mig.init with entry := 0x10000 } 1 0 [] []
     (s 1).pageOf 0 ((s 1).readW (hbmKey 0x10000)) = some (0x30000, false) ∧
     nextHas (exec (.migrationComplete 0) (s 1)) (fun t => t.net.map (fun x => (x.2.body, x.2.dst)) == [(.migrate 2 0 [] [], .agent 0)] &&
       (t.part 0).mig.held && (t.part 0).mig.src == 0x30000 && t.readW (hbmKey 0x10000) == 0x300005) = true ∧
     (∀ p ∈ ([(exec (.migrationComplete 0) ((s 1).writeN (hbmKey 0x10000) 8 0), 1), (exec (.migrationComplete 0) (s 2), 2),
       (exec (.migrationComplete 0) ((s 1).writeN (hbmKey 0x10000) 8 0x300003), 3), (exec (.migrationComplete 0) ((s 1).writeN (hbmKey 0x10000) 8 0x910001), 4)]
       : List (Out × Nat)), nextHas p.1 (fun t => (t.part 0).mig.state == 3 && (t.part 0).mig.cause == p.2 && t.net.length == 0) = true)) := by
  decide +kernel

/-- O56: the copy piece by piece with its poison, its end, an abort, and the entry. -/
theorem test_meets_migration_copy :
    (let s := migrating 1 { Mig.init with entry := 0x10000, src := 0x30000, held := true }
     (s 2 0 [] []).writesPending 0x30000 = false ∧ (((s 2 0 [] []).dropPacket 5).agentRead 0x30000 101).isSome = true ∧
     (let u := { s 2 0 [] [] with poison := [hbmKey 0x30008] }
      ((u.migrationComplete 0 true).net.map (fun x => (x.2.dst, x.2.len, (match x.2.body with | .migrate 3 0 bs l => (bs.take 5, l) | _ => ([], []))))) =
        [(.agent 1, 256, ([5, 0, 0, 0, 6], [1]))]) ∧
     ((s 2 65536 [] []).migrationComplete 0 true).net.map (fun x => (x.2.body, x.2.dst)) = [(.migrate 4 0 [] [], .agent 0)] ∧
     ((s 2 512 [] []).migrationComplete 0 false).net.map (fun x => (x.2.body, x.2.dst)) = [(.migrate 5 0 [] [], .agent 0)] ∧
     (let u := { s 2 0 [] [] with walks := [(21, { wk 1 0 with trans := [tr0], going := [0] })] }
      u.writesPending 0x30000 = true ∧ gives (exec (.migrationComplete 0) u) u = true) ∧
     (let b : State := { s 2 0 [] [] with net := (s 2 0 [] []).net ++ [(6, { busyHbm with dst := .hbm 0 3 })] }
      ((b.dropPacket 5).agentRead 0x30000 101).isNone = true ∧ decide (bare (b.migrationComplete 0 true) = bare b) = true)) ∧
    (let s := migrating 1 { Mig.init with entry := 0x10000, src := 0x30000, held := true }
     let w := exec (.migrationComplete 0) (s 3 256 [7, 8] [1])
     (((s 3 256 [7, 8] [1]).dropPacket 5).dieAgentTurn 0x1000090000).isSome = true ∧
     handed w (.migrate 2 512 [] []) 0 (fun g => g.npois == 1) = true ∧
     nextHas w (fun t => t.readN (hbmKey 0x1000090100) 2 == 0x807 && t.poison == [hbmKey 0x1000090108]) = true) ∧
    (let s := migrating 1 { Mig.init with entry := 0x10000, src := 0x30000, held := true }
     memWf (s 4 0 [] []).mem = true ∧ (((s 4 0 [] []).dropPacket 5).dieAgentTurn 0x10000).isSome = true ∧
     nextHas (exec (.migrationComplete 0) (s 4 0 [] [])) (fun t => t.readW (hbmKey 0x10000) == 0x910001 && (t.part 0).mig.state == 2 && !(t.part 0).mig.held) = true ∧
     nextHas (exec (.migrationComplete 0) ((s 5 0 [] []).writeN (hbmKey 0x10000) 8 0x300005))
       (fun t => t.readW (hbmKey 0x10000) == 0x300001 && (t.part 0).mig.state == 3 && (t.part 0).mig.cause == 0) = true ∧
     (let b : State := { s 4 0 [] [] with net := (s 4 0 [] []).net ++ [(6, { busyHbm with dst := .hbm 0 1 })] }
      ((b.dropPacket 5).dieAgentTurn 0x10000).isNone = true ∧ gives (exec (.migrationComplete 0) b) b = true)) := by decide +kernel

/-- O52, O56, O58: writes by address to a page that is being migrated wait: the host's, a replica's and a peer's. -/
theorem test_meets_held_writes :
    let s := migrating 1 { Mig.init with entry := 0x10000, src := 0x30000, held := true } 2 0 [] []
    s.migrating 0x3FFF8 8 = true ∧ s.migrating 0x40000 8 = false ∧
    gives (exec (.hostWrite 2 0x30008 8 7) s) s = true ∧ nextHas (exec (.hostWrite 2 0x40008 8 7) s) (fun t => t.readW (hbmKey 0x40008) == 7) = true ∧
    (let p := pk (.replica 0x30000 [1, 2] false 4) (.hbm 0 3) 0
     let u : State := { s with net := (5, p) :: s.net.drop 1 }
     u.channelFor p = true ∧ gives (exec (.replicaWriteApply 5) u) u = true) ∧
    (let u := s.modMgmt (fun m => { m with ports := [(31, (1, 0x100000000))], up := [31], back := [31] })
     gives (exec (.peerReplicaWrite 31 0x30000 ([1, 2], [])) u) u = true) := by decide +kernel

/-- O56: a commit clears what is gained where no holder must go first; a die that its holder leaves is cleared as the drain ends. -/
theorem test_meets_clearing :
    (let s := (tabled.writeN (coreKey 51200 0xC00) 8 7).modCore 51200 (fun c => { c with stp := 3 })
     (∀ p, p < 64 → quartersLost s.mgmt.region s.mgmt.regionSh p = []) ∧
     nextHas (exec (.commit 1) s) (fun t => t.gainedShares false == [(2, 0), (2, 1), (2, 2), (2, 3)] && t.gainedShares true == [] &&
       t.byte (coreKey 51200 0xC00) == 0 && (t.core 51200).stp == 0 && t.readW (hbmKey 0x8000) == s.readW (hbmKey 0x8000)) = true ∧
     State.keyInQuarters [(2, 0)] (coreKey 51200 0xC00) = true ∧ inShares [(2, 0)] 51200 = true) ∧
    (let s := ((draining.modMgmt (fun m => { m with regionOld := [(0, 0x4000), (1, 0x4000), (2, 0x4100)] })).modPart 0
        (fun q => { q with clearing := [(2, 0)], image := none })).writeN (hbmKey 0x2000000000) 8 9
     keepsHolders (s.mgmt.regionOld.get 0 2) (s.mgmt.region.get 0 2) = false ∧ s.gainedShares true = [(2, 0)] ∧
     nextHas (exec (.drainMessage 3) s) (fun t => t.readW (hbmKey 0x2000000000) == 0 && !t.mgmt.drain) = true) := by decide +kernel

/-- Core 0's local frames are all taken, and one spilled frame is free. -/
def full (s : State) : State :=
  ((List.range 4).foldl (fun t f => t.writeN (t.frameKey 0 f + 2) 1 1) s).modPart 0 (fun q => { q with spill := 1, spillBase := [(0, 0)] })
/-- An asker of an output of die 0's crossbar whose input comes before any agent's. -/
def busyAt (ch : Nat) : Packet := { busyHbm with dst := .hbm 0 ch }
/-- The same in its net. -/
def crowded (s : State) (p : Packet) : State := { s with net := s.net ++ [(99, p)] }

/-- O48: the image of a spilled frame takes a turn; signals of the cycle that would overtake an earlier request of their core. -/
theorem test_meets_new_frames :
    (let s := full (holding (pk (.alloc 1 0) (.core 0) 0))
     s.takeFrame 0 = some 4096 ∧ (s.frameTurn 0 4096).isSome = true ∧
     nextHas (exec (.allocationRequest 5 []) s) (fun t => hdrAlloc (t.readW (hbmKey 0)) && t.net.map (·.2.body) == [.reply 4096 false]) = true ∧
     ((crowded s (busyAt 0)).frameTurn 0 4096).isNone = true ∧
     gives (exec (.allocationRequest 5 []) (crowded s (busyAt 0))) (crowded s (busyAt 0)) = true) ∧
    (let a := { pk (.alloc 1 0) (.core 0) 0 with src := .core 1 }
     let g := pk (.signal 0x8000000000 1 1 false 0) (.core 0) 0
     let l := { pk (.signal (mkSref 0 0 1) 1 1 false 0) (.core 0) 0 with cmd := 0 }
     let s : State := { holding a with net := [(4, l), (5, a), (6, { g with body := .signal (mkSref 0 1 1) 1 1 false 0 })] }
     let u : State := { s with net := s.net.drop 1 }
     s.takeFrame 0 = some 1 ∧ (s.sigsTo 0 1 [6]).length = 1 ∧ s.inOrder 6 [5, 6] = false ∧ gives (exec (.allocationRequest 5 [6]) s) s = true ∧
     u.inOrder 6 [5, 6] = true ∧ nextHas (exec (.allocationRequest 5 [6]) u) (fun t => t.net.map (·.1) == [20]) = true) := by decide +kernel

/-- O48, O51: what a handler will see is kept at a reply whose signal leaves the core; a signal that a fence has held passes what stands before it. -/
theorem test_meets_kept_words :
    (let p := { pk (.reply 8 false) (.core 0) 0 with ret := ⟨10, some (mkSref 1 0 1), 8⟩ }
     let s : State := { recent p [.cover 5] with faults := [record0 none] }
     s.replyHeld p = false ∧ frefCore (mkSref 1 0 1) ≠ 0 ∧
     nextHas (exec (.replyArrival 5 []) s) (fun t => t.older.all (fun e => e.bound.contains (.cmd 3)) && t.older.length == 1) = true) ∧
    (let p := { pk (.signal 0x100000000 1 1 false 0) (.core 0) 0 with fences := [(3, 4)], from_ := { who with fid := 7 }, pos := .sender }
     let s := recent p []
     s.beforePending 7 0 3 = false ∧ Claims.beforeFence s p.from_ 3 (past []) = true ∧ Claims.letGoWith s p (past []) = true ∧
     nextHas (exec (.fenceRelease 5) s) (fun t => t.older.map (·.bound) == [[.cover 5, .work 5]] && t.net.map (·.2.fences) == [[]]) = true) ∧
    (let s : State := { recent (rq (.ldrm 8 true) 8) [.firing 8] with older := [{ past [.firing 8] with fid := 6 }, { past [] with fid := 8, num := 2, key := 0xD00 }] }
     Claims.beforeFence s { who with fid := 8 } 5 { past [.firing 8] with fid := 6 } = true ∧ Claims.beforeFence s { who with fid := 8 } 1 { past [.firing 8] with fid := 6 } = false) := by
  decide +kernel

/-- A split die 0 whose quarter 0 is partition 0's under a reservation; its channel 0 stands in the window of quarter 1. -/
def windowed (s : State) : State :=
  (s.modMgmt (fun m => { m with region := [(0, 0x515041C001), (1, 0x4000)] })).modDie 0 (fun d => { d with hcyc := [(0, 32), (3, 32)] })

/-- O52, O58: what goes to a channel waits outside its owner's window. -/
theorem test_meets_windows :
    dieRsv (windowed calm).mgmt.region 0 = true ∧ isSplit ((windowed calm).mgmt.region.get 0 0) = true ∧ (windowed calm).channelOpen 0 0 0 = false ∧
    (windowed calm).addrOpen 0x8000 = false ∧ ((windowed calm).agentAccess 0x8000 101).isNone = true ∧ dieRsv calm.mgmt.region 0 = false ∧
    calm.channelOpen 0 0 0 = true ∧ calm.addrOpen 0x8000 = true ∧
    (let s := windowed (wsite (wk 0 0))
     s.entryWaits (wk 0 0) 0x8000 = true ∧ s.walkTouches (wk 0 0) 0 = true ∧ s.leased key0 5 0 false = true ∧ gives (exec (.walkTranslation 21 0 0) s) s = true) ∧
    (let p := pk (.tableRead 21 0x8000) (.hbm 0 0) 0
     let s : State := { windowed (wsite (wk 0 0)) with net := [(5, p)] }
     s.channelFor p = false ∧ s.tableReady p = false ∧ (wsite (wk 0 0)).tableReady p = true) ∧
    (let p := pk (.moves 21 0 0 []) (.hbm 0 3) 0
     (windowed calm).movesReady 21 p = false ∧ calm.movesReady 21 p = true ∧ (windowed calm).movesReady 21 { p with body := .moves 21 1 0 [] } = true) ∧
    (let p := pk (.replica 0x30000 [1, 2] false 21) (.hbm 0 3) 0
     let s : State := { windowed (wsite (wk 1 0)) with net := [(5, p)] }
     s.channelFor p = false ∧ gives (exec (.replicaWriteApply 5) s) s = true) ∧
    (let q := fun n => ({ ch := 3, quarter := n, walk := 21, tile := 0 } : HbmReq)
     let s := (windowed (wsite { wk 0 0 with trans := [{ tr0 with started := false }] })).modDie 0 (fun d => { d with hbmq := [q 0] })
     let u := (wsite { wk 0 0 with trans := [{ tr0 with started := false }] }).modDie 0 (fun d => { d with hbmq := [q 0] })
     s.channelOpen 0 3 0 = false ∧ nextHas (exec (.hbmRequestStart 0 3) s) (fun t => (t.die 0).hbmq == [q 0]) = true ∧
     ((u.die 0).hbmq.find? (fun x => x.ch == 3 && u.channelOpen 0 3 x.quarter)) = some (q 0) ∧
     nextHas (exec (.hbmRequestStart 0 3) u) (fun t => (t.die 0).hbmq == [] && (t.walk 21).any (fun w => w.trans.all (·.started))) = true) := by decide +kernel

/-- O53: a stepd does not wait for an answer on its way. -/
theorem test_meets_answers :
    (let p := { rq (.reply 8 false) 8 with ord := 1 }
     let s := (psite 3 false p).modCore 0 (fun c => { c with stepds := [(9, 4)] })
     s.beforePending 9 0 4 = true ∧ s.unperformed 9 0 4 = false ∧ nextHas (exec (.stepdDone 0 9) s) (fun t => (t.core 0).stepds.length == 0) = true) := by decide +kernel

/-- O57: the frame of a handler, where it is a spilled one and its image has no turn. -/
theorem test_meets_handler_turn :
    let s := full (faulty (some 1) true [record0 (some 8)])
    (s.handlerFrame (record0 (some 8))) = some (1, 0, 4096) ∧ (s.handlerTurn (record0 (some 8))).isSome = true ∧
    nextHas (exec (.faultRecordWrite 0) s) (fun t => t.faults == [] && hdrAlloc (t.readW (hbmKey 0))) = true ∧
    (let b := crowded (s.modPart 0 (fun q => { q with faBase := 0x100020000 })) (busyAt 0)
     (b.faultTurn 0).isSome = true ∧ (b.handlerTurn (record0 (some 8))).isNone = true ∧ gives (exec (.faultRecordWrite 0) b) b = true) ∧
    (let u := s.modPart 0 (fun q => { q with spill := 0 })
     u.takeFrame 0 = none ∧ u.handlerFrame (record0 (some 8)) = none ∧ ((u.settleFault (record0 (some 8))).inst key0).any (fun i => i.stopping == 1) = true) := by decide +kernel

/-- Launch 7 of a host, with a record, as the table holds it, changed. -/
def launch7 (state : Nat) (g : Inst → Inst) : State :=
  let s := lsite 0 true state
  { s with insts := s.insts.map (fun x => (x.1, g x.2)) }

/-- O55: a start whose reads or whose record have no turn, whose leases are seen but gone, whose partition does not run, and one that fails. -/
theorem test_meets_start_turns :
    (let s := launch7 0 id
     s.partRuns 0 = true ∧ partRsv s.mgmt.region 0 = false ∧ s.descsOk 0 graph0 = true ∧ graph0.pace = none ∧ (s.makeRoom 0 0).isSome = true ∧
     (s.leaseTurn (s.insts.getD 0 (7, inst0)).2 graph0).isSome = true ∧ s.leasesResident 0 graph0 = true ∧
     ((crowded s (busyAt 0)).leaseTurn (s.insts.getD 0 (7, inst0)).2 graph0).isNone = true ∧
     gives (exec (.instanceStart 7) (crowded s (busyAt 0))) (crowded s (busyAt 0)) = true) ∧
    (let tabs : Tbl Word := [(0x8000, 0x10001), (0x10000, 0x300001), (0x10008, 0x400001), (0x10010, 0x500001), (0x10018, 0x600001)]
     let s := (launch7 0 (fun i => { i with die := 1, tabs := tabs }))
     let u := s.writeN (hbmKey 0x10000) 8 0
     let v := launch7 0 (fun i => { i with die := 1 })
     (v.leasesSeen { inst0 with die := 1 } graph0 == .error 0x8000) = true ∧ nextHas (exec (.instanceStart 7) v) (fun t => t.net.map (fun x => (x.2.body, x.2.src, x.2.dst)) == [(.tableRead 7 0x8000, .launch 1, .hbm 0 0)]) = true ∧
     (u.leasesSeen { inst0 with die := 1, tabs := tabs } graph0 == .ok true) = true ∧ u.leasesResident 0 graph0 = false ∧
     nextHas (exec (.instanceStart 7) u) (fun t => t.insts.map (fun x => (x.2.state, x.2.tabs)) == [(0, [])]) = true ∧
     nextHas (exec (.instanceStart 7) s) (fun t => t.insts.map (·.2.state) == [1]) = true ∧
     (s.modPart 0 (fun t => { t with state := 1 })).partRuns 0 = false ∧
     nextHas (exec (.instanceStart 7) (s.modPart 0 (fun t => { t with state := 1 }))) (fun t => t.insts.map (fun x => (x.2.state, x.2.tabs)) == [(0, [])]) = true ∧
     (let r := s.modMgmt (fun m => { m with region := [(0, 0xC000), (1, 0xC000)] })
      partRsv r.mgmt.region 0 = true ∧ r.shares 0 = [(0, 4), (1, 4)] ∧ (r.die 1).pinned = false ∧
      nextHas (exec (.instanceStart 7) r) (fun t => t.insts.map (fun x => (x.2.state, x.2.tabs)) == [(0, [])]) = true)) ∧
    (let s := ((launch7 0 id).modPart 0 (fun q => { q with image := some { image0 with graphs := [{ graph0 with splices := [0] }] } })).modMgmt (fun m => { m with conn := [(1, 0)] })
     s.splicesPass 0 { graph0 with splices := [0] } = false ∧ (s.recordTurn { inst0 with host := true, record := 0x70000 }).isSome = true ∧
     nextHas (exec (.instanceStart 7) s) (fun t => t.faults.map (·.code) == [0x15] && t.readW (hbmKey 0x70010) == 0x101) = true ∧
     (let b := crowded s (busyAt 7)
      (b.recordTurn { inst0 with host := true, record := 0x70000 }).isNone = true ∧ nextHas (exec (.instanceStart 7) b) (fun t => t.insts.map (·.2.state) == [0] && t.faults.length == 0) = true)) ∧
    (let s := (launch7 0 id).modPart 0 (fun q => { q with descs := [] })
     let b := crowded s (busyAt 7)
     s.descsOk 0 graph0 = false ∧ nextHas (exec (.instanceStart 7) s) (fun t => t.faults.map (·.code) == [0x22]) = true ∧ gives (exec (.instanceStart 7) b) b = true) := by
  decide +kernel

/-- O55: the root core's turn, a dead root core, no frame there; an end, a cancellation and a malformed ring entry without a turn; a completion
signal on its way; a ring outside the partition. -/
theorem test_meets_end_turns :
    (let s := launch7 1 id
     let root := s.place 0 0 0
     let b := crowded s { pk .free (.core root) 0 with src := .dieSpad 1 0, pos := .sender }
     (s.rootTurn inst0 root).isSome = true ∧ (b.rootTurn inst0 root).isNone = true ∧ gives (exec (.launchMulticast 1 7) b) b = true ∧
     nextHas (exec (.launchMulticast 1 7) (s.modCore root (fun c => { c with dead := true }))) (fun t => t.faults.map (·.code) == [0x38]) = true ∧
     (let u := (List.range 4).foldl (fun t f => t.writeN (t.frameKey root f + 2) 1 1) s
      u.takeFrame root = none ∧ nextHas (exec (.launchMulticast 1 7) u) (fun t => t.faults.map (·.code) == [0x13]) = true)) ∧
    (let s := launch7 1 (fun i => { i with started := true })
     let b := crowded s (busyAt 7)
     (b.recordTurn { inst0 with host := true, record := 0x70000 }).isNone = true ∧ gives (exec (.instanceEnd 7) b) b = true) ∧
    (let s := launch7 1 (fun i => { i with started := true, stopping := 2 })
     let p := { pk (.signal 0x100000000 1 8 false 1) (.core 0) 0 with from_ := { who with inst := 7 } }
     let b : State := { s with net := [(5, p)] }
     gives (exec (.instanceEnd 7) b) b = true ∧ s.inWriteBackOf 7 = false ∧ s.isPaced 7 = false ∧
     nextHas (exec (.instanceEnd 7) s) (fun t => t.insts.map (fun x => (x.2.state, x.2.reason)) == [(2, 2)]) = true) ∧
    (let s : State := { launch7 0 id with net := [(5, pk (.gcan 7) (.launch 0) 0)] }
     let b := crowded s (busyAt 7)
     gives (exec (.gcanRequest 5) b) b = true ∧ (s.recordTurn { inst0 with host := true, record := 0x70000 }).isSome = true ∧
     nextHas (exec (.gcanRequest 5) s) (fun t => t.insts.map (·.2.reason) == [2] && t.readW (hbmKey 0x70010) == 0x102) = true) ∧
    (let s := (((lsite 0 false 1).modPart 0 (fun t => { t with subTail := 1, subBase := 0x80000, hostSeq := 4 })).writeN (hbmKey 0x80040) 8 0x90000).writeN (hbmKey 0x80000) 8 0x70000
     let b := crowded s (busyAt 9)
     let o := s.modPart 0 (fun t => { t with subBase := 0x2000000000 })
     s.malformed 0 (s.readW (hbmKey 0x80000)) = true ∧ (s.agentRead 0x80000 100).isSome = true ∧ gives (exec (.submissionEntryRead 0) b) b = true ∧
     o.hbmIn 0 0x2000000000 = false ∧ gives (exec (.submissionEntryRead 0) o) o = true) := by decide +kernel

/-- O55: the code of an image in the clusters of its partition, but for those that the partition gains while a commit drains. -/
theorem test_meets_code :
    (let s := (lsite 0 false 0).modMgmt (fun m => { m with region := [(0, 0x4001)] })
     nextHas (exec (.imageLoad 0 { image0 with code := [0x18, 0x19] }) s) (fun t => t.readN (codeKey 0 4) 4 == 0x19 && t.readN (codeKey 44 4) 4 == 0x19 && t.readN (codeKey 99 4) 4 == 0) = true ∧
     (let u := (s.modMgmt (fun m => { m with drain := true })).modPart 0 (fun q => { q with clearing := [(0, 0)] })
      State.clusterOfQuarters [(0, 0)] 0 = true ∧ nextHas (exec (.imageLoad 0 { image0 with code := [0x18, 0x19] }) u) (fun t => t.readN (codeKey 0 4) 4 == 0) = true)) := by
  decide +kernel

/-- O56: the turns of a save and a restore; a port bound for a partition and a die of it; a peer's write without a slot reference. -/
theorem test_meets_area_turns :
    (let s := (lastCore 2 true).modCore 0 (fun c => { c with saved := false })
     let b := crowded s (busyAt 0)
     let u := (s.modCore 0 (fun c => { c with saved := true })).modPart 0 (fun t => { t with state := 2 })
     (u.saveTurns 0).isSome = true ∧ ((crowded u (busyAt 0)).saveTurns 0).isNone = true ∧ b.coreQuiet 0 = true) ∧
    (let s := crowded (saving 4) (busyAt 0)
     ((saving 4).agentRead 0x100000000 101).isSome = true ∧ (s.agentRead 0x100000000 101).isNone = true ∧ gives (exec (.coreRestore 0) s) s = true) ∧
    (saving 0).shares 0 = [(0, 4)] ∧ nextHas (exec (.portEntryWrite 31 0 0x1) (saving 0)) (fun t => t.mgmt.ports == [(31, (1, 0))]) = true ∧
    gives (exec (.portEntryWrite 31 0 0x81) (saving 0)) (saving 0) = true ∧
    (let s := (saving 0).modMgmt (fun m => { m with ports := [(31, (1, 0x7FFFFFFFF))], up := [31], back := [31] })
     s.srefOk 0 0x7FFFFFFFF = false ∧ nextHas (exec (.peerReplicaWrite 31 0xFFFFFFFFE ([1, 2], [])) s) (fun t => t.readN (hbmKey 0xFFFFFFFFE) 2 == 0x201 && t.net.length == 0) = true) := by
  decide +kernel

/-- O40: the worked layout of R214, the page sizes of R213, the descriptor's shape where one is declared, and an element of a nest. -/
theorem test_meets_layout :
    (let x := tensOf [0x140007, 299 + 999 * 2 ^ 32, 0, 0, 0x8000, 1, 0, 0]
     x.t = [512, 32, 1, 1, 1] ∧ x.d = [300, 1000, 1, 1, 1] ∧ tileOf x [7, 100, 0, 0, 0] = (3, 2055) ∧ pageElems x.fmt = 16384) ∧
    (∀ fmt, fmt < 15 → pageElems fmt * elemBits fmt ≤ 2 ^ 19 ∧ 2 ^ 19 < 2 * pageElems fmt * elemBits fmt) ∧
    (tensOf [0x340007 + 3 * 2 ^ 32 + 2 * 2 ^ 37, 299 + 999 * 2 ^ 32, 0, 0, 0x8000, 1, 0, 0]).t = [8, 4, 1, 1, 1] ∧
    (let w : Walk := { wk 0 0 with levels := [⟨4, 4, [1, 0, 0, 0, 0], true, 1⟩, ⟨3, -64, [0, -1, 0, 0, 0], false, 0⟩] ++ List.replicate 3 ⟨1, 0, [0, 0, 0, 0, 0], false, 0⟩, origin := [5, 9, 0, 0, 0] }
     coordsOf w 6 = [7, 8, 0, 0, 0] ∧ strideOf w 6 = -56 ∧ w.levels.length = 5 ∧ coordsOf { w with kind := 3, idx := [2, 6, 7] } 6 = [7, 3, 0, 0, 0]) := by decide +kernel

/-- O9, O23, O30: fb and fi; merges and additions of spools at their ends; the tree and the scan of a sum. -/
theorem test_meets_spelled :
    (scalars.ctx.frame = 0 ∧ scalars.fb = 0x1FC00 ∧ scalars.fi = 0) ∧
    (let a : Spool := { s := BitVec.ofInt 160 (2 ^ 159 - 1), nar := false }
     let one : Spool := { s := 1, nar := false }
     (spoolMerge a one false).nar = true ∧ (spoolMerge a one true).s = BitVec.ofInt 160 (2 ^ 159 - 2) ∧ (spoolMerge a one true).nar = false ∧
     (spoolAdd one (.num false 3 (-65) false)).s = 3 ∧ (spoolAdd one (.num true 1 (-65) false)).s = 1 ∧ (spoolAdd one .nan).nar = true) ∧
    (let l := (List.range 32).map (fun i => BitVec.ofNat 32 (i * i + 1))
     l.length = 32 ∧ redTree (· + ·) 0 l = Claims.tree (· + ·) (fun i => l.getD i 0) ∧ redTree (· + ·) 0 l = 10448 ∧
     (scanAll (· + ·) 0 l).getD 3 0 = 18 ∧ Claims.scanned (· + ·) (fun i => l.getD i 0) 3 = 18) := by decide +kernel

/-- R220, R312: a word that a later clean move covers whole is carried clean; a word that a poisoned one ends on is not. R254, R256: the notices that
a start voids leave the queues of the links. R369: what leaves a partition ends its quiescence. -/
theorem test_repaired_points :
    leftPoisoned [(0, 64, [true]), (0, 64, [false])] 0 = false ∧ leftPoisoned [(0, 64, [false]), (0, 64, [true])] 0 = true ∧
    leftPoisoned [(0, 64, [true]), (0, 32, [false])] 0 = true ∧
    (let p := { pk (.notice 0 2 false) (.core 1) 0 with pos := .link 0 0 4 0 1 0 0 }
     let s : State := { psite 3 false (pk .free (.core 0) 0) with net := [(5, p)], links := [(7, { Link.init with q := [(0, [5, 6])] })] }
     ((s.dropFromLinks [5]).link 7).q.get [] 0 = [6]) ∧
    (((calm.modPart 0 (fun q => { q with quiesced := true })).send (pk .free (.core 1) 0)).part 0).quiesced = false := by decide +kernel
/-- SHA-512 of the three bytes of abc (R380; the example of FIPS 180-4, which the function's name stands for). -/
theorem test_sha512 : sha512 [0x61, 0x62, 0x63] = [0xdd, 0xaf, 0x35, 0xa1, 0x93, 0x61, 0x7a, 0xba, 0xcc, 0x41, 0x73, 0x49, 0xae, 0x20, 0x41, 0x31,
    0x12, 0xe6, 0xfa, 0x4e, 0x89, 0xa9, 0x7e, 0xa2, 0x0a, 0x9e, 0xee, 0xe6, 0x4b, 0x55, 0xd3, 0x9a, 0x21, 0x92, 0x99, 0x2a, 0x27, 0x4f, 0xc1, 0xa8,
    0x36, 0xba, 0x3c, 0x23, 0xa3, 0xfe, 0xeb, 0xbd, 0x45, 0x4d, 0x44, 0x23, 0x64, 0x3c, 0xe8, 0x0e, 0x2a, 0x9a, 0xc9, 0x4f, 0xa5, 0x4c, 0xa4, 0x9f] := by
  decide +kernel

/-! ### Encoding, division, codes and the machine as a whole -/

/-- Every check of a register's file, of an order class, and of the low sub-fields refuses a term and passes its neighbour. -/
theorem test_ill_formed_registers :
    (∀ p ∈ ([
      (.add (wf 60 1 2 0 0), .add (wf 59 1 2 0 0)), (.add (wf 62 1 2 0 0), .add (wf 63 1 2 0 0)), (.vadd (wf 32 0 0 0 0), .vadd (wf 31 0 0 0 0)),
      (.vadd (wf 0 32 0 0 0), .vadd (wf 0 31 0 0 0)), (.pand (wf 8 0 0 0 0), .pand (wf 7 0 0 0 0)), (.sel (wf 1 1 1 8 0), .sel (wf 1 1 1 7 0)),
      (.spz (wf 4 0 0 0 0), .spz (wf 3 0 0 0 0)), (.mlb (wf 2 1 0 1 0), .mlb (wf 1 1 0 1 0)), (.add (wf 1 1 1 1 0), .add (wf 1 1 1 0 0)),
      (.add (wf 1 1 1 0 1), .add (wf 1 1 1 0 0)), (.add { wf 1 1 1 0 0 with ord := 1 }, .ld { wf 1 1 0 0 0 with ord := 1 }),
      (.addC ⟨61, 1, 1⟩, .addC ⟨1, 61, 1⟩), (.nopC ⟨0, 0, 1⟩, .nopC ⟨0, 0, 0⟩), (.addiX (xf 60 1 0 0 0), .addiX (xf 1 60 0 0 0)),
      (.vadd (wf 0 0 63 0 0), .vadd (wf 0 0 63 0 0x40)), (.twg (wf 0 1 1 1 0), .twg (wf 55 1 1 1 0)), (.twg (wf 55 1 1 1 1), .twg (wf 24 1 1 1 31))]
      : List (Instr × Instr)), fieldsOk p.1 = false ∧ fieldsOk p.2 = true) := by decide +kernel

/-- Every check of a sub-field refuses a term and passes its neighbour: ranges, formats, conditions, classes, scopes, selectors. -/
theorem test_ill_formed_fields :
    (∀ p ∈ ([
      (.shli (wf 1 1 0 0 64), .shli (wf 1 1 0 0 63)), (.shliX (xf 1 1 0 0 64), .shliX (xf 1 1 0 0 63)), (.bext (wf 1 1 0 0 0xFC1), .bext (wf 1 1 0 0 0xFC0)),
      (.bext (wf 1 1 0 0 0x1000), .bins (wf 1 1 0 0 0x41)), (.sext (wf 1 1 0 0 64), .zext (wf 1 1 0 0 63)), (.cmp (wf 1 1 1 10 0), .cmp (wf 1 1 1 9 0)),
      (.fcmp (wf 1 1 1 7 0), .fcmp (wf 1 1 1 6 0)), (.tcmp (wf 1 1 1 6 0), .tcmp (wf 1 1 1 5 2)), (.rdcnt (wf 1 0 0 0 3), .rdcnt (wf 1 0 0 0 2)),
      (.rdcnt (wf 1 0 0 0 0x11), .rdcnt (wf 1 0 0 0 0x10)), (.fadd (wf 1 1 1 0 4), .fadd (wf 1 1 1 0 3)), (.tadd (wf 1 1 1 0 3), .tadd (wf 1 1 1 0 2)),
      (.spfma (wf 1 1 1 0 14), .spfma (wf 1 1 1 0 13)), (.spadd (wf 1 4 0 0 15), .spadd (wf 1 3 0 0 15)), (.sprnd (wf 1 1 0 0 9), .sprnd (wf 1 1 0 0 8)),
      (.sprnd (wf 1 1 0 0 0x14), .sprnd (wf 1 1 0 0 0x12)), (.cvt (wf 1 1 0 0 0x10E), .cvt (wf 1 1 0 0 0xDD)), (.cvt (wf 1 1 0 0 0x109), .cvt (wf 1 1 0 0 0x108)),
      (.lclaim (wf 1 0 0 0 5), .lclaim (wf 1 0 0 0 4)), (.lcount (wf 1 0 0 0 2), .lcount (wf 1 0 0 0 1)), (.vadd (wf 0 0 0 0 0x18), .vadd (wf 0 0 0 0 0x10)),
      (.vadd (wf 0 0 0 0 0x20), .vmin (wf 0 0 0 0 0x20)), (.vsat (wf 0 0 0 0 0), .vsat (wf 0 0 0 32 0)), (.vsat (wf 0 0 0 17 8), .vsat (wf 0 0 0 16 8)),
      (.vfadd (wf 0 0 0 0 8), .vfadd (wf 0 0 0 0 0x600)), (.vdot4 (wf 0 0 0 0 0x1000), .vdot4 (wf 0 0 0 0 0x800)), (.vspfma (wf 0 0 0 0 0x1800), .vspfma (wf 0 0 0 0 0x2000)),
      (.vsprnd (wf 0 0 0 0 0x2200), .vsprnd (wf 0 0 0 0 0x2000)), (.vcvt (wf 0 0 0 1 0), .vcvt (wf 0 0 0 1 0x8120)), (.vcvt (wf 0 0 0 0 0x60), .vcvt (wf 0 0 0 0 0x40)),
      (.vpack (wf 0 0 0 0 0x40), .vpack (wf 0 0 0 0 0x20)), (.vext (wf 1 0 1 0 0), .vext (wf 1 0 1 0 0x40)), (.vext (wf 1 0 1 5 0x40), .vext (wf 1 0 1 5 0x140)),
      (.vperm (wf 0 0 0 0 0x180), .vperm (wf 0 0 0 0 0x100)), (.vred (wf 4 0 0 0 0x5800), .vred (wf 3 3 0 0 0x5800)), (.vred (wf 1 0 0 0 0x200), .vred (wf 1 0 0 0 0x4200)),
      (.mfmt (wf 1 0 0 0 9), .mfmt (wf 1 0 0 0 0x88)), (.mscl (wf 0 1 0 3 0), .mscl (wf 0 1 0 2 0)), (.mdrain (wf 1 1 0 0 0x3C40), .mdrain (wf 1 1 0 0 0x3C00)),
      (.mdrain (wf 1 1 0 0 3), .mdrain (wf 1 1 0 0 15)), (.mrow (wf 0 0 1 0 3), .mrow (wf 0 0 1 0 8)), (.falloc (wf 1 1 1 1 9), .falloc (wf 1 1 1 1 10)),
      (.falloc (wf 1 1 1 1 0x6A), .falloc (wf 1 1 1 1 0x4A)), (.sig (wf 0 1 0 24 0), .sig (wf 0 1 0 23 0)), (.sig (wf 0 1 0 0 0x20000), .sig (wf 0 1 0 0 0x1FFFF)),
      (.sigX (xf 0 1 0 0 0x80000000), .sigX (xf 0 1 0 0 0x7FFFFFFF)), (.ld (wf 1 1 0 4 0), .ld (wf 1 1 0 7 0)), (.st (wf 1 1 0 4 0), .st (wf 1 1 0 3 0)),
      (.ldrm (wf 0 1 0 1 0x8A), .ldrm (wf 0 1 0 1 0xAA)), (.strm (wf 0 1 1 1 10), .strm (wf 0 1 1 1 0)), (.aadd (wf 0 1 1 1 1), .aadd (wf 0 1 1 1 10)),
      (.afadd (wf 0 1 1 1 0), .afadd (wf 0 1 1 1 0x20)), (.fence (wf 0 0 0 0 6), .fence (wf 0 0 0 0 5)), (.ldst (wf 0 1 1 1 9), .ldst (wf 0 1 1 1 10)),
      (.sqstage (wf 0 0 1 0 7), .sqstage (wf 0 0 1 0 6)), (.sqrd (wf 0 0 1 1 0x12A), .sqrd (wf 0 0 1 1 0x10A)), (.sysr (wf 1 0 0 0 4), .sysr (wf 1 0 0 0 3)),
      (.sysw (wf 0 1 0 0 0x10), .sysw (wf 0 1 0 0 0x20)), (.trap (wf 0 0 0 0 0x20000), .trap (wf 0 0 0 0 0x1FFFF)), (.snap (wf 0 0 0 1 9), .snap (wf 0 0 0 1 0))]
      : List (Instr × Instr)), fieldsOk p.1 = false ∧ fieldsOk p.2 = true) := by decide +kernel

/-- O1, O2: instructions of each length that are no events, and bytes that decode. -/
theorem test_meets_encoding :
    (∀ i ∈ ([.addC ⟨1, 2, 3⟩, .addi { wf 59 63 0 0 0x3FFFF with guard := 15, hint := 15 }, .stX { xf 63 63 0 3 0xFFFFFFFF with ord := 3 }] : List Instr),
      WellFormed i ∧ encOf i ≠ .event ∧ decode (encodeBytes i ++ [7, 7]) = .ok i) ∧
    decode ([0x05, 0xC7, 0x01, 0x00, 0x00, 0x40, 0x01, 0x00, 0, 0, 0, 0] : List Byte) = .ok (.addi (wf 7 7 0 0 5)) := by decide +kernel

/-- O4: each reserved major, in each form. -/
theorem test_meets_reserved :
    ∀ m ∈ ([0x08, 0x0F, 0x14, 0x17, 0x20, 0x27, 0x29, 0x2B, 0x2E, 0x2F, 0x35, 0x37, 0x3A, 0x3B, 0x3D, 0x3F] : List Nat), ∀ l ∈ ([0, 1, 2] : List Nat),
      BitVec.ofNat 32 (4 * m + l) ≠ 0 ∧ majorOf (BitVec.ofNat 32 (4 * m + l)) = m ∧ decodeParcels (BitVec.ofNat 32 (4 * m + l)) 0 0 = .error .illegal := by
  decide +kernel

/-- O4: the first minor that is not assigned, of each major, in each form. -/
theorem test_meets_minors :
    ∀ x ∈ Claims.minorCounts, ∀ l ∈ ([0, 1, 2] : List Nat), majorOf (BitVec.ofNat 32 (2 ^ 26 * x.2 + 4 * x.1 + l)) = x.1 ∧
      decodeParcels (BitVec.ofNat 32 (2 ^ 26 * x.2 + 4 * x.1 + l)) 0 0 = .error .illegal := by decide +kernel

/-- O12: a zero divisor, the quotient that overflows, and signs of each kind. -/
theorem test_meets_division :
    divS 5 0 = 0xFFFFFFFFFFFFFFFF ∧ remS 5 0 = 5 ∧ divU 5 0 = 0xFFFFFFFFFFFFFFFF ∧ remU 5 0 = 5 ∧
    divS 0x8000000000000000 0xFFFFFFFFFFFFFFFF = 0x8000000000000000 ∧ remS 0x8000000000000000 0xFFFFFFFFFFFFFFFF = 0 ∧
    divS 0xFFFFFFFFFFFFFFF9 2 = 0xFFFFFFFFFFFFFFFD ∧ remS 0xFFFFFFFFFFFFFFF9 2 = 0xFFFFFFFFFFFFFFFF ∧
    divS 7 0xFFFFFFFFFFFFFFFE = 0xFFFFFFFFFFFFFFFD ∧ remS 7 0xFFFFFFFFFFFFFFFE = 1 ∧ divU 0xFFFFFFFFFFFFFFF9 2 = 0x7FFFFFFFFFFFFFFC := by decide +kernel

/-- O22: codes at the ends of their ranges that are no NaN. -/
theorem test_meets_codes :
    roundFp32 (decodeFp32 0) 3 = 0 ∧ roundFp32 (decodeFp32 0x80000000) 3 = 0x80000000 ∧ roundFp32 (decodeFp32 1) 3 = 1 ∧ roundFp32 (decodeFp32 0x807FFFFF) 3 = 0x807FFFFF ∧ roundFp32 (decodeFp32 0x7F7FFFFF) 3 = 0x7F7FFFFF ∧ roundFp32 (decodeFp32 0xFF800000) 3 = 0xFF800000 ∧
    roundBf16 (decodeBf16 0) 2 = 0 ∧ roundBf16 (decodeBf16 0x8000) 2 = 0x8000 ∧ roundBf16 (decodeBf16 1) 2 = 1 ∧ roundBf16 (decodeBf16 0x7F7F) 2 = 0x7F7F ∧ roundBf16 (decodeBf16 0x7F80) 2 = 0x7F80 ∧
    (decodeFp32 0x7F7FFFFF).isNan = false ∧ (decodeFp32 0xFF800000).isNan = false ∧ (decodeBf16 0x7F80).isNan = false ∧
    (∀ p ∈ ([0, 1, 0x40, 0x7F, 0x80, 0x81, 0xFF] : List Nat), encTf 0 (decTf 0 p) = p) ∧
    (∀ p ∈ ([0, 1, 0x7FFF, 0x8000, 0xFFFF] : List Nat), encTf 1 (decTf 1 p) = p) ∧ (∀ p ∈ ([0, 1, 0x7FFFFFFF, 0x80000000] : List Nat), encTf 2 (decTf 2 p) = p) := by
  decide +kernel

/-- O47, O59: an instruction of registers alone, and a step from a memory in its canonical form. -/
theorem test_meets_whole :
    Claims.majorIn (encOf (.add (wf 7 1 2 0 0))) = some 0x00 ∧ Claims.majorIn (encOf (.vred (wf 7 1 0 0 0))) = some 0x1E ∧
    nextHas (exec (.add (wf 7 1 2 0 0)) scalars) (fun t => t.mem == scalars.mem && t.faults.length == 0) = true ∧
    memWf (fetching 0x000140000001C705 0).mem = true ∧ nextHas (step (fetching 0x000140000001C705 0)) (fun t => memWf t.mem) = true := by decide +kernel

end Sys2Proof.Tests
end

section
/-! PROOFS. The opcode map decides which patterns hold no instruction (R86, R87, R88): a major and a minor beyond the instructions
of the map are illegal whatever the form and the other fields hold. -/

namespace Sys2Proof.Proofs.OpcodeMap

/-- The minor is the top field of parcel 0, so no bit above it is lost (R76). -/
theorem minorOf_eq_div (q0 : Parcel) : minorOf q0 = q0.toNat / 2 ^ 26 := by
  have hlt : q0.toNat / 2 ^ 26 < 2 ^ 6 := by have := q0.isLt; omega
  simp only [minorOf, BitVec.extractLsb'_toNat, Nat.shiftRight_eq_div_pow]
  exact Nat.mod_eq_of_lt hlt

/-- A minor beyond the instructions of its major decodes to code 0x01 before the form is looked at (R88). -/
theorem decodeParcels_of_unassigned {q0 : Parcel} (q1 q2 : Parcel) (hq : q0 ≠ 0)
    (hmin : (wMinors (majorOf q0)).length ≤ minorOf q0) : decodeParcels q0 q1 q2 = .error .illegal := by
  have hnone : (wMinors (majorOf q0))[minorOf q0]? = none := List.getElem?_eq_none hmin
  unfold decodeParcels
  rw [if_neg hq, hnone]
  exact ite_self _

/-- The opcode map holds as many instructions of an assigned major as R86 counts. -/
theorem length_wMinors_of_counted : ∀ x ∈ Claims.minorCounts, (wMinors x.1).length = x.2 := by decide

/-- The opcode map holds no instruction of a major outside the table of R86. -/
theorem wMinors_of_not_counted {m : Nat} (hm : m ∉ Claims.minorCounts.map Prod.fst) : wMinors m = [] := by
  unfold wMinors
  split
  case h_33 => rfl
  all_goals exact absurd (by decide) hm

/-- Settles O4: the reserved majors are disjoint from the table of R86, and the counts of R86 are the lengths of the map's rows. -/
theorem reservedMajors : Obligations.ReservedMajors := by
  refine ⟨fun q0 q1 q2 hq hres => ?_, fun q0 q1 q2 x hx hq hmaj hmin => ?_⟩
  · have hout : majorOf q0 ∉ Claims.minorCounts.map Prod.fst :=
      (by decide : ∀ m ∈ _, m ∉ Claims.minorCounts.map Prod.fst) _ hres
    apply decodeParcels_of_unassigned q1 q2 hq
    rw [wMinors_of_not_counted hout]
    exact Nat.zero_le _
  · apply decodeParcels_of_unassigned q1 q2 hq
    rw [hmaj, length_wMinors_of_counted x hx, minorOf_eq_div]
    exact hmin

end Sys2Proof.Proofs.OpcodeMap
end

section
/-! PROOFS. Division never faults, and its quotients and remainders (R94): the bodies of the four instructions are `State.binOp`, and
apart from a zero divisor and the quotient that overflows, the words hold the integers' truncated quotient and remainder. -/

namespace Sys2Proof.Proofs.Division

open Sys2Proof.Machine

/-- A two-operand body answers with its result written behind the reads of its operands (R90, R93). -/
theorem binOp_ok {g : Word → Word → Word} {f : WForm} {s s1 t : State} {a b : Word}
    (hread : s.readAB f = .ok (a, b, s1)) (hwrite : s1.writeS f.d (g a b) = .ok t) : State.binOp g f s = .ok t := by
  rw [State.binOp, hread]
  exact hwrite

/-- A two-operand instruction under a guard that holds completes with its result (R81, R93). -/
theorem issue_binOp_ok {g : Word → Word → Word} {f : WForm} {s s1 t : State} {a b : Word} (hguard : guardHolds f.guard s.ctx = true)
    (hread : (s.countIssue 8).readAB f = .ok (a, b, s1)) (hwrite : s1.writeS f.d (g a b) = .ok t) :
    issue 8 f.guard s (State.binOp g f) = .next t :=
  issue_ok hguard (binOp_ok hread hwrite)

section Results

variable (a : Word) {b : Word}

/-! A zero divisor gives all ones and the dividend (R94). -/

@[simp] theorem divS_zero : divS a 0 = BitVec.allOnes 64 := if_pos rfl
@[simp] theorem divU_zero : divU a 0 = BitVec.allOnes 64 := if_pos rfl
@[simp] theorem remS_zero : remS a 0 = a := if_pos rfl
@[simp] theorem remU_zero : remU a 0 = a := if_pos rfl

/-! Elsewhere the model's results are the words' own division, for which the library holds the integers' laws. -/

theorem divU_eq_udiv (hb : b ≠ 0) : divU a b = a / b := by rw [divU, if_neg hb, BitVec.udiv_def]

theorem remU_eq_umod (hb : b ≠ 0) : remU a b = a % b := by rw [remU, if_neg hb, BitVec.umod_def]

theorem divS_eq_sdiv (hb : b ≠ 0) : divS a b = a.sdiv b := by
  apply BitVec.eq_of_toInt_eq
  rw [divS, if_neg hb, BitVec.toInt_ofInt, BitVec.toInt_sdiv]

theorem remS_eq_srem (hb : b ≠ 0) : remS a b = a.srem b := by
  rw [remS, if_neg hb, ← BitVec.toInt_srem, BitVec.ofInt_toInt]

end Results

/-- The unsigned quotient and remainder make up the dividend, the remainder below the divisor (R93, R94). -/
theorem divU_remU_spec (a : Word) {b : Word} (hb : b ≠ 0) :
    a.toNat = b.toNat * (divU a b).toNat + (remU a b).toNat ∧ (remU a b).toNat < b.toNat := by
  have hne : b.toNat ≠ 0 := BitVec.toNat_ne.mp hb
  rw [divU_eq_udiv a hb, remU_eq_umod a hb, BitVec.toNat_udiv, BitVec.toNat_umod]
  exact ⟨(Nat.div_add_mod _ _).symm, Nat.mod_lt _ (Nat.pos_of_ne_zero hne)⟩

/-- The signed quotient and remainder make up the dividend where the quotient does not overflow (R93, R94). -/
theorem divS_remS_spec {a b : Word} (hb : b ≠ 0) (hfit : ¬(a = 0x8000000000000000 ∧ b = 0xFFFFFFFFFFFFFFFF)) :
    a.toInt = b.toInt * (divS a b).toInt + (remS a b).toInt ∧ (remS a b).toInt.natAbs < b.toInt.natAbs := by
  have hne : b.toInt ≠ 0 := BitVec.toInt_ne.mpr hb
  have hquot : (a.sdiv b).toInt = a.toInt.tdiv b.toInt := BitVec.toInt_sdiv_of_ne_or_ne a b (not_and_or.mp hfit)
  rw [divS_eq_sdiv a hb, remS_eq_srem a hb, hquot, BitVec.toInt_srem]
  refine ⟨(Int.mul_tdiv_add_tmod _ _).symm, ?_⟩
  rw [Int.natAbs_tmod]
  exact Nat.mod_lt _ (Int.natAbs_pos.mpr hne)

/-- Settles O12: the four instructions share the completion of a two-operand body; the results follow case by case from those of
the words' own division. -/
theorem divisionCases : Obligations.DivisionCases := by
  refine ⟨fun x hx f s s1 t a b hguard hread hwrite => ?_, fun a b => ⟨?_, ?_, divU_remU_spec a, divS_remS_spec⟩⟩
  · have hexec : exec (x.1 f) s = issue 8 f.guard s (State.binOp x.2 f) := by
      simp only [List.mem_cons, List.not_mem_nil, or_false] at hx
      obtain rfl | rfl | rfl | rfl := hx <;> rfl
    rw [hexec]
    exact issue_binOp_ok hguard hread hwrite
  · rintro rfl
    exact ⟨divS_zero a, divU_zero a, remS_zero a, remU_zero a⟩
  · rintro rfl rfl
    decide

end Sys2Proof.Proofs.Division
end

section
/-! PROOFS. Every step keeps the canonical form of memory (O59): an agent's turn performs one row of the opcode table or nothing, and
each row keeps the form. -/

namespace Sys2Proof.Proofs.Canonical

open Sys2Proof.Machine

/-- Every row of the opcode table keeps the canonical form of memory. -/
theorem keeps_every : ∀ i : Instr, Keeps i
  | .moduleReset => keeps_moduleReset
  | .imageLoad p img => keeps_imageLoad p img
  | .illegalPattern code => keeps_illegalPattern code
  | .dispatch cid ctx => keeps_dispatch cid ctx
  | .signalArrival cid f slot pkts => keeps_signalArrival cid f slot pkts
  | .allocationRequest pkt same => keeps_allocationRequest pkt same
  | .armingRequest pkt same => keeps_armingRequest pkt same
  | .freeRequest pkt => keeps_freeRequest pkt
  | .stfRequest pkt => keeps_stfRequest pkt
  | .ldfRequest pkt => keeps_ldfRequest pkt
  | .replyArrival pkt same => keeps_replyArrival pkt same
  | .spilledRequestApply pkt => keeps_spilledRequestApply pkt
  | .fill cid => keeps_fill cid
  | .writeBackStart cid f => keeps_writeBackStart cid f
  | .writeBackComplete cid f => keeps_writeBackComplete cid f
  | .matrixCommandStart cid m => keeps_matrixCommandStart cid m
  | .matrixCommandFinish cid m => keeps_matrixCommandFinish cid m
  | .mdrainRow cid m => keeps_mdrainRow cid m
  | .mrotTileLands pkt => keeps_mrotTileLands pkt
  | .landingMove cid latch => keeps_landingMove cid latch
  | .portWordArrival cid dir => keeps_portWordArrival cid dir
  | .ldrmRequest pkt => keeps_ldrmRequest pkt
  | .strmRequest pkt => keeps_strmRequest pkt
  | .atomicRequest pkt => keeps_atomicRequest pkt
  | .ringRequest pkt => keeps_ringRequest pkt
  | .fenceRelease pkt => keeps_fenceRelease pkt
  | .releaseSignalSend pkt => keeps_releaseSignalSend pkt
  | .walkStart clid w => keeps_walkStart clid w
  | .walkTranslation w tile choice => keeps_walkTranslation w tile choice
  | .walkMove w moves => keeps_walkMove w moves
  | .dimensionEndSignal w level run target => keeps_dimensionEndSignal w level run target
  | .finalSignal w => keeps_finalSignal w
  | .twcanComplete pkt => keeps_twcanComplete pkt
  | .stepdDone cid fid => keeps_stepdDone cid fid
  | .stepAdvance cid => keeps_stepAdvance cid
  | .stepNotice pkt => keeps_stepNotice pkt
  | .ldstRequest pkt => keeps_ldstRequest pkt
  | .stepqRequest pkt => keeps_stepqRequest pkt
  | .stepRequestResend pkt => keeps_stepRequestResend pkt
  | .sqtabServe pkt => keeps_sqtabServe pkt
  | .sqinitServe pkt => keeps_sqinitServe pkt
  | .sqstepServe pkt => keeps_sqstepServe pkt
  | .sqstageServe pkt => keeps_sqstageServe pkt
  | .sqrdServe pkt => keeps_sqrdServe pkt
  | .stageFormed clid r => keeps_stageFormed clid r
  | .stepDecision clid r => keeps_stepDecision clid r
  | .launchRequest pkt => keeps_launchRequest pkt
  | .instanceStart handle => keeps_instanceStart handle
  | .launchMulticast die handle => keeps_launchMulticast die handle
  | .instanceEnd handle => keeps_instanceEnd handle
  | .creditLend die p => keeps_creditLend die p
  | .gqueryRequest pkt => keeps_gqueryRequest pkt
  | .gcanRequest pkt => keeps_gcanRequest pkt
  | .subqBase p v => keeps_subqBase p v
  | .subqLog p v => keeps_subqLog p v
  | .subqTail p v => keeps_subqTail p v
  | .submissionEntryRead p => keeps_submissionEntryRead p
  | .forecast die => keeps_forecast die
  | .telemetryUpdate die => keeps_telemetryUpdate die
  | .placementEntryWrite p cb w0 w1 => keeps_placementEntryWrite p cb w0 w1
  | .spillFrames p v => keeps_spillFrames p v
  | .spillBase p d v => keeps_spillBase p d v
  | .migGo p v => keeps_migGo p v
  | .migrationComplete p => keeps_migrationComplete p
  | .commit v => keeps_commit v
  | .drainMessage die => keeps_drainMessage die
  | .clearingComplete p => keeps_clearingComplete p
  | .preempt p => keeps_preempt p
  | .resume p => keeps_resume p
  | .coreSave cid => keeps_coreSave cid
  | .savedPacketApply pkt => keeps_savedPacketApply pkt
  | .coreRestore cid => keeps_coreRestore cid
  | .ordArm p d n v => keeps_ordArm p d n v
  | .ordAddr p d n v => keeps_ordAddr p d n v
  | .ordN p d n v => keeps_ordN p d n v
  | .orderedReductionRequest pkt => keeps_orderedReductionRequest pkt
  | .faBase p v => keeps_faBase p v
  | .faLog p v => keeps_faLog p v
  | .faultRecordWrite n => keeps_faultRecordWrite n
  | .snapTrig v => keeps_snapTrig v
  | .snapshotTriggerArrival trig block => keeps_snapshotTriggerArrival trig block
  | .snapComplete trig => keeps_snapComplete trig
  | .mgCmdLoad => keeps_mgCmdLoad
  | .mgCmdActivate => keeps_mgCmdActivate
  | .mgCmdFloor => keeps_mgCmdFloor
  | .mgCmdQuote => keeps_mgCmdQuote
  | .freitCommandDone => keeps_freitCommandDone
  | .portEntryWrite port word v => keeps_portEntryWrite port word v
  | .opticalLinkState port up => keeps_opticalLinkState port up
  | .peerReplicaWrite port addr bytes => keeps_peerReplicaWrite port addr bytes
  | .replicaWriteApply pkt => keeps_replicaWriteApply pkt
  | .hostWrite bar off n v => keeps_hostWrite bar off n v
  | .hostRead bar off n => keeps_hostRead bar off n
  | .cellGate cell => keeps_cellGate cell
  | .cellWake cell => keeps_cellWake cell
  | .quiescence p => keeps_quiescence p
  | .thermalTrip die => keeps_thermalTrip die
  | .coreReset cid => keeps_coreReset cid
  | .packetRefused pkt => keeps_packetRefused pkt
  | .uncorrectableError cid f ownerRead => keeps_uncorrectableError cid f ownerRead
  | .routerHop pkt => keeps_routerHop pkt
  | .linkFlitSend x y port => keeps_linkFlitSend x y port
  | .crossbarGrant die out => keeps_crossbarGrant die out
  | .hbmRequestStart die ch => keeps_hbmRequestStart die ch
  | .spliceEgressEnter pkt => keeps_spliceEgressEnter pkt
  | .spliceIngressDeliver p splice => keeps_spliceIngressDeliver p splice
  | .mergedAtomicApply pkt => keeps_mergedAtomicApply pkt
  | .mergedReplySplit pkt => keeps_mergedReplySplit pkt
  | .registerWrite off v => keeps_registerWrite off v
  | .addC f => keeps_addC f
  | .add f => keeps_add f
  | .subC f => keeps_subC f
  | .sub f => keeps_sub f
  | .mul f => keeps_mul f
  | .mulh f => keeps_mulh f
  | .mulhu f => keeps_mulhu f
  | .div f => keeps_div f
  | .divu f => keeps_divu f
  | .rem f => keeps_rem f
  | .remu f => keeps_remu f
  | .andC f => keeps_andC f
  | .and f => keeps_and f
  | .orC f => keeps_orC f
  | .or f => keeps_or f
  | .xorC f => keeps_xorC f
  | .xor f => keeps_xor f
  | .andn f => keeps_andn f
  | .shlC f => keeps_shlC f
  | .shl f => keeps_shl f
  | .shrC f => keeps_shrC f
  | .shr f => keeps_shr f
  | .sarC f => keeps_sarC f
  | .sar f => keeps_sar f
  | .rol f => keeps_rol f
  | .min f => keeps_min f
  | .max f => keeps_max f
  | .minu f => keeps_minu f
  | .maxu f => keeps_maxu f
  | .addi f => keeps_addi f
  | .addiX f => keeps_addiX f
  | .andi f => keeps_andi f
  | .andiX f => keeps_andiX f
  | .ori f => keeps_ori f
  | .oriX f => keeps_oriX f
  | .xori f => keeps_xori f
  | .xoriX f => keeps_xoriX f
  | .shli f => keeps_shli f
  | .shliX f => keeps_shliX f
  | .shri f => keeps_shri f
  | .shriX f => keeps_shriX f
  | .sari f => keeps_sari f
  | .sariX f => keeps_sariX f
  | .muli f => keeps_muli f
  | .muliX f => keeps_muliX f
  | .clz f => keeps_clz f
  | .ctz f => keeps_ctz f
  | .popc f => keeps_popc f
  | .brev f => keeps_brev f
  | .bext f => keeps_bext f
  | .bins f => keeps_bins f
  | .sext f => keeps_sext f
  | .zext f => keeps_zext f
  | .cmp f => keeps_cmp f
  | .cmpi f => keeps_cmpi f
  | .cmpiX f => keeps_cmpiX f
  | .pand f => keeps_pand f
  | .por f => keeps_por f
  | .pxor f => keeps_pxor f
  | .pnot f => keeps_pnot f
  | .pset f => keeps_pset f
  | .pget f => keeps_pget f
  | .sel f => keeps_sel f
  | .lea f => keeps_lea f
  | .leaX f => keeps_leaX f
  | .nopC f => keeps_nopC f
  | .nop f => keeps_nop f
  | .hint f => keeps_hint f
  | .hintX f => keeps_hintX f
  | .rdcyc f => keeps_rdcyc f
  | .rdcnt f => keeps_rdcnt f
  | .br f => keeps_br f
  | .brX f => keeps_brX f
  | .brx f => keeps_brx f
  | .call f => keeps_call f
  | .callX f => keeps_callX f
  | .ret f => keeps_ret f
  | .endC f => keeps_endC f
  | .endW f => keeps_endW f
  | .fadd f => keeps_fadd f
  | .fsub f => keeps_fsub f
  | .fmul f => keeps_fmul f
  | .ffma f => keeps_ffma f
  | .fdiv f => keeps_fdiv f
  | .fsqrt f => keeps_fsqrt f
  | .fmin f => keeps_fmin f
  | .fmax f => keeps_fmax f
  | .fabs f => keeps_fabs f
  | .fneg f => keeps_fneg f
  | .fcmp f => keeps_fcmp f
  | .fclass f => keeps_fclass f
  | .tadd f => keeps_tadd f
  | .tsub f => keeps_tsub f
  | .tmul f => keeps_tmul f
  | .tfma f => keeps_tfma f
  | .tdiv f => keeps_tdiv f
  | .tsqrt f => keeps_tsqrt f
  | .tmin f => keeps_tmin f
  | .tmax f => keeps_tmax f
  | .tabs f => keeps_tabs f
  | .tneg f => keeps_tneg f
  | .tcmp f => keeps_tcmp f
  | .spz f => keeps_spz f
  | .spfma f => keeps_spfma f
  | .spfms f => keeps_spfms f
  | .spadd f => keeps_spadd f
  | .spsub f => keeps_spsub f
  | .sprnd f => keeps_sprnd f
  | .spld f => keeps_spld f
  | .spldX f => keeps_spldX f
  | .spst f => keeps_spst f
  | .spstX f => keeps_spstX f
  | .cvt f => keeps_cvt f
  | .lclaim f => keeps_lclaim f
  | .lrel f => keeps_lrel f
  | .lcount f => keeps_lcount f
  | .vadd f => keeps_vadd f
  | .vsub f => keeps_vsub f
  | .vmul f => keeps_vmul f
  | .vmulh f => keeps_vmulh f
  | .vmad f => keeps_vmad f
  | .vmin f => keeps_vmin f
  | .vmax f => keeps_vmax f
  | .vabs f => keeps_vabs f
  | .vand f => keeps_vand f
  | .vor f => keeps_vor f
  | .vxor f => keeps_vxor f
  | .vshl f => keeps_vshl f
  | .vshr f => keeps_vshr f
  | .vsar f => keeps_vsar f
  | .vrshr f => keeps_vrshr f
  | .vsat f => keeps_vsat f
  | .vclamp f => keeps_vclamp f
  | .vdot4 f => keeps_vdot4 f
  | .vdot2 f => keeps_vdot2 f
  | .vfadd f => keeps_vfadd f
  | .vfsub f => keeps_vfsub f
  | .vfmul f => keeps_vfmul f
  | .vffma f => keeps_vffma f
  | .vfmin f => keeps_vfmin f
  | .vfmax f => keeps_vfmax f
  | .vfabs f => keeps_vfabs f
  | .vfneg f => keeps_vfneg f
  | .vexp2 f => keeps_vexp2 f
  | .vlog2 f => keeps_vlog2 f
  | .vrcp f => keeps_vrcp f
  | .vrsqrt f => keeps_vrsqrt f
  | .vsqrt f => keeps_vsqrt f
  | .vdiv f => keeps_vdiv f
  | .vtadd f => keeps_vtadd f
  | .vtsub f => keeps_vtsub f
  | .vtmul f => keeps_vtmul f
  | .vtfma f => keeps_vtfma f
  | .vtmin f => keeps_vtmin f
  | .vtmax f => keeps_vtmax f
  | .vspz f => keeps_vspz f
  | .vspfma f => keeps_vspfma f
  | .vsprnd f => keeps_vsprnd f
  | .vcmp f => keeps_vcmp f
  | .vfcmp f => keeps_vfcmp f
  | .vtcmp f => keeps_vtcmp f
  | .vsel f => keeps_vsel f
  | .kand f => keeps_kand f
  | .kor f => keeps_kor f
  | .kxor f => keeps_kxor f
  | .knot f => keeps_knot f
  | .kset f => keeps_kset f
  | .kget f => keeps_kget f
  | .vcvt f => keeps_vcvt f
  | .vpack f => keeps_vpack f
  | .vunpack f => keeps_vunpack f
  | .vbcast f => keeps_vbcast f
  | .vext f => keeps_vext f
  | .vperm f => keeps_vperm f
  | .vslide f => keeps_vslide f
  | .vred f => keeps_vred f
  | .vscan f => keeps_vscan f
  | .vld f => keeps_vld f
  | .vldX f => keeps_vldX f
  | .vst f => keeps_vst f
  | .vstX f => keeps_vstX f
  | .vlds f => keeps_vlds f
  | .vldsX f => keeps_vldsX f
  | .vsts f => keeps_vsts f
  | .vstsX f => keeps_vstsX f
  | .vldx f => keeps_vldx f
  | .vldxX f => keeps_vldxX f
  | .vstx f => keeps_vstx f
  | .vstxX f => keeps_vstxX f
  | .mfmt f => keeps_mfmt f
  | .mscl f => keeps_mscl f
  | .msclX f => keeps_msclX f
  | .mlb f => keeps_mlb f
  | .mlbX f => keeps_mlbX f
  | .mma f => keeps_mma f
  | .mmaX f => keeps_mmaX f
  | .mrot f => keeps_mrot f
  | .mzero f => keeps_mzero f
  | .mdrain f => keeps_mdrain f
  | .mrow f => keeps_mrow f
  | .falloc f => keeps_falloc f
  | .ffree f => keeps_ffree f
  | .sarm f => keeps_sarm f
  | .sig f => keeps_sig f
  | .sigX f => keeps_sigX f
  | .sigv f => keeps_sigv f
  | .sigb f => keeps_sigb f
  | .fire f => keeps_fire f
  | .sget f => keeps_sget f
  | .ldf f => keeps_ldf f
  | .stf f => keeps_stf f
  | .rinit f => keeps_rinit f
  | .racq f => keeps_racq f
  | .rcom f => keeps_rcom f
  | .rpeek f => keeps_rpeek f
  | .rrel f => keeps_rrel f
  | .ldC f => keeps_ldC f
  | .ld f => keeps_ld f
  | .ldX f => keeps_ldX f
  | .stC f => keeps_stC f
  | .st f => keeps_st f
  | .stX f => keeps_stX f
  | .ldrm f => keeps_ldrm f
  | .strm f => keeps_strm f
  | .aadd f => keeps_aadd f
  | .amin f => keeps_amin f
  | .amax f => keeps_amax f
  | .aminu f => keeps_aminu f
  | .amaxu f => keeps_amaxu f
  | .aand f => keeps_aand f
  | .aor f => keeps_aor f
  | .axor f => keeps_axor f
  | .aswp f => keeps_aswp f
  | .acas f => keeps_acas f
  | .afadd f => keeps_afadd f
  | .aspadd f => keeps_aspadd f
  | .fence f => keeps_fence f
  | .twld f => keeps_twld f
  | .twst f => keeps_twst f
  | .twmc f => keeps_twmc f
  | .twg f => keeps_twg f
  | .tws f => keeps_tws f
  | .twq f => keeps_twq f
  | .twcan f => keeps_twcan f
  | .stepd f => keeps_stepd f
  | .ldst f => keeps_ldst f
  | .stepq f => keeps_stepq f
  | .sqtab f => keeps_sqtab f
  | .sqinit f => keeps_sqinit f
  | .sqstage f => keeps_sqstage f
  | .sqstep f => keeps_sqstep f
  | .sqrd f => keeps_sqrd f
  | .glaunch f => keeps_glaunch f
  | .gquery f => keeps_gquery f
  | .gcan f => keeps_gcan f
  | .sysr f => keeps_sysr f
  | .sysw f => keeps_sysw f
  | .trap f => keeps_trap f
  | .trapX f => keeps_trapX f
  | .brk f => keeps_brk f
  | .snap f => keeps_snap f
  | .clockPinned die => keeps_clockPinned die
  | .softError key bits => keeps_softError key bits
  | .fillComplete cid => keeps_fillComplete cid

/-- An issue performs one row or nothing (R39, R88). -/
theorem wf_issueStep {s t : State} (h : issueStep s = .next t) (hw : memWf s.mem = true) : memWf t.mem = true := by
  unfold issueStep at h
  split at h
  · cases h
    exact hw
  · split at h
    · exact keeps_every _ s t h hw
    · split at h <;> exact keeps_every _ s t h hw

/-- An agent's turn performs one row or nothing. -/
theorem wf_act {a : Sel} {s t : State} (h : act a s = .next t) (hw : memWf s.mem = true) : memWf t.mem = true := by
  cases a with
  | issue c x => exact wf_issueStep h hw
  | event e =>
    unfold act at h
    dsimp only at h
    split at h
    · exact keeps_every e s t h hw
    · cases h
      exact hw

/-- Settles O59: the schedule's head or a free choice names the agent, and no agent's turn breaks the form. -/
theorem memoryCanonical : Obligations.MemoryCanonical := by
  intro s t hw h
  unfold step at h
  split at h <;> exact wf_act h hw

end Sys2Proof.Proofs.Canonical
end

section
/-! PROOFS. Encoding and decoding are inverse to each other (O1, O2): the fields of a parcel make up the parcel and are what its parts
were, the opcode map of R86 lists an instruction where its layout places it, and the checks of R88 are the checks of well-formedness. -/

namespace Sys2Proof.Proofs.Encoding

open Sys2Proof.Laws

/-! ### Parcels and their fields (R76 to R79) -/

section Parcels

variable (form : BitVec 2) {m n : Nat} (d a b : BitVec 6)

@[simp] theorem formOf_parcel0 : formOf (parcel0 form m n d a b) = form := by
  ext i hi
  simp only [formOf, parcel0]
  grind

@[simp] theorem majorOf_parcel0 (hm : m < 64) : majorOf (parcel0 form m n d a b) = m := by
  have hfield : (parcel0 form m n d a b).extractLsb' 2 6 = BitVec.ofNat 6 m := by
    ext i hi
    simp only [parcel0]
    grind
  rw [majorOf, hfield, BitVec.toNat_ofNat, Nat.mod_eq_of_lt hm]

@[simp] theorem minorOf_parcel0 (hn : n < 64) : minorOf (parcel0 form m n d a b) = n := by
  have hfield : (parcel0 form m n d a b).extractLsb' 26 6 = BitVec.ofNat 6 n := by
    ext i hi
    simp only [parcel0]
    grind
  rw [minorOf, hfield, BitVec.toNat_ofNat, Nat.mod_eq_of_lt hn]

@[simp] theorem cFields_parcel0 : cFields (parcel0 form m n d a b) = ⟨d, a, b⟩ := by
  simp only [cFields, parcel0, CForm.mk.injEq]
  refine ⟨?_, ?_, ?_⟩ <;> ext i hi <;> grind

end Parcels

/-- The fields of parcel 1 are those it was laid out from (R78). -/
theorem parcel1_fields (guard : BitVec 4) (ord hint : BitVec 2) (c : BitVec 6) (sub : BitVec 18) :
    let q := parcel1 guard ord hint c sub
    q.extractLsb' 0 4 = guard ∧ q.extractLsb' 4 2 = ord ∧ q.extractLsb' 6 2 = hint ∧ q.extractLsb' 8 6 = c ∧ q.extractLsb' 14 18 = sub := by
  refine ⟨?_, ?_, ?_, ?_, ?_⟩ <;> ext i hi <;> simp only [parcel1] <;> grind

@[simp] theorem wFields_parcels (form : BitVec 2) (m n : Nat) (f : WForm) :
    wFields (parcel0 form m n f.d f.a f.b) (parcel1 f.guard f.ord f.hint f.c f.sub) = f := by
  obtain ⟨hd, ha, hb⟩ := CForm.mk.inj (cFields_parcel0 form f.d f.a f.b (m := m) (n := n))
  obtain ⟨hguard, hord, hhint, hc, hsub⟩ := parcel1_fields f.guard f.ord f.hint f.c f.sub
  simp only [wFields, hd, ha, hb, hguard, hord, hhint, hc, hsub]

/-- The fields of an X form are those of a W form, with the literal for the sub-fields (R79). -/
theorem xFields_eq (q0 q1 q2 : Parcel) : xFields q0 q1 q2 =
    let w := wFields q0 q1
    { d := w.d, a := w.a, b := w.b, guard := w.guard, ord := w.ord, hint := w.hint, c := w.c, lit := q2 } := rfl

@[simp] theorem wFields_parcels_x (form : BitVec 2) (m n : Nat) (f : XForm) :
    wFields (parcel0 form m n f.d f.a f.b) (parcel1 f.guard f.ord f.hint f.c 0) = f.toW :=
  wFields_parcels form m n f.toW

@[simp] theorem xFields_parcels (form : BitVec 2) (m n : Nat) (f : XForm) :
    xFields (parcel0 form m n f.d f.a f.b) (parcel1 f.guard f.ord f.hint f.c 0) f.lit = f := by
  rw [xFields_eq, wFields_parcels_x]
  rfl

/-- Parcel 0 is made up of its fields (R76). -/
theorem parcel0_of_fields (q : Parcel) :
    parcel0 (formOf q) (majorOf q) (minorOf q) (cFields q).d (cFields q).a (cFields q).b = q := by
  simp only [parcel0, formOf, majorOf, minorOf, cFields, BitVec.ofNat_toNat, BitVec.setWidth_eq]
  ext i hi
  grind

/-- Parcel 1 is made up of its fields (R78). -/
theorem parcel1_of_fields (q0 q1 : Parcel) : parcel1 (wFields q0 q1).guard (wFields q0 q1).ord (wFields q0 q1).hint (wFields q0 q1).c
    (wFields q0 q1).sub = q1 := by
  simp only [parcel1, wFields]
  ext i hi
  grind

/-! ### Bytes (R77) -/

@[simp] theorem parcelOf_bytesOfParcel (q : Parcel) (rest : List Byte) : parcelOf (bytesOfParcel q ++ rest) = q := by
  simp only [bytesOfParcel, List.cons_append, List.nil_append, parcelOf]
  ext i hi
  grind

@[simp] theorem drop_four_bytesOfParcel (q : Parcel) (rest : List Byte) : (bytesOfParcel q ++ rest).drop 4 = rest := rfl

/-- Four bytes are those of the parcel at their head. -/
theorem bytesOfParcel_parcelOf : ∀ (b0 b1 b2 b3 : Byte) (bs : List Byte), bytesOfParcel (parcelOf (b0 :: b1 :: b2 :: b3 :: bs)) = [b0, b1, b2, b3] := by
  intro b0 b1 b2 b3 bs
  simp only [bytesOfParcel, parcelOf, List.cons.injEq, and_true]
  refine ⟨?_, ?_, ?_, ?_⟩ <;> ext i hi <;> grind

/-- The first four bytes of a list that has as many are those of its first parcel. -/
theorem take_four {bs : List Byte} (h : 4 ≤ bs.length) : bytesOfParcel (parcelOf bs) ++ bs.drop 4 = bs := by
  match bs, h with
  | b0 :: b1 :: b2 :: b3 :: bs, _ =>
    rw [bytesOfParcel_parcelOf]
    rfl

/-- Twelve bytes at the head of a list are those of three parcels. -/
theorem bytes_eq_parcels {bs : List Byte} (h : 12 ≤ bs.length) :
    [parcelOf bs, parcelOf (bs.drop 4), parcelOf (bs.drop 8)].flatMap bytesOfParcel ++ bs.drop 12 = bs := by
  have h8 := take_four (bs := bs.drop 8) (by rw [List.length_drop]; omega)
  have h4 := take_four (bs := bs.drop 4) (by rw [List.length_drop]; omega)
  rw [List.drop_drop] at h4 h8
  simp only [List.flatMap_cons, List.flatMap_nil, List.append_nil, List.append_assoc]
  rw [h8, h4, take_four (by omega)]

/-- The first 4 k bytes of parcels are those of the first k parcels. -/
theorem take_bytesOfParcels (rest : List Byte) : ∀ (k : Nat) (qs : List Parcel), k ≤ qs.length →
    (qs.flatMap bytesOfParcel ++ rest).take (4 * k) = (qs.take k).flatMap bytesOfParcel
  | 0, _, _ => by rw [Nat.mul_zero, List.take_zero, List.take_zero, List.flatMap_nil]
  | k + 1, q :: qs, h => by
    have hlen : (bytesOfParcel q).length = 4 := rfl
    rw [List.take_succ_cons, List.flatMap_cons, List.flatMap_cons, List.append_assoc, List.take_append, hlen, List.take_of_length_le (by omega),
      show 4 * (k + 1) - 4 = 4 * k by omega, take_bytesOfParcels rest k qs (Nat.le_of_succ_le_succ h)]

/-! ### The opcode map (R86) -/

/-- Every instruction stands in the opcode map where its layout places it. -/
theorem statement_every : ∀ i : Instr, OpcodeMap.Statement i
  | .moduleReset => OpcodeMap.moduleReset
  | .imageLoad p img => OpcodeMap.imageLoad p img
  | .illegalPattern code => OpcodeMap.illegalPattern code
  | .dispatch cid ctx => OpcodeMap.dispatch cid ctx
  | .signalArrival cid f slot pkts => OpcodeMap.signalArrival cid f slot pkts
  | .allocationRequest pkt same => OpcodeMap.allocationRequest pkt same
  | .armingRequest pkt same => OpcodeMap.armingRequest pkt same
  | .freeRequest pkt => OpcodeMap.freeRequest pkt
  | .stfRequest pkt => OpcodeMap.stfRequest pkt
  | .ldfRequest pkt => OpcodeMap.ldfRequest pkt
  | .replyArrival pkt same => OpcodeMap.replyArrival pkt same
  | .spilledRequestApply pkt => OpcodeMap.spilledRequestApply pkt
  | .fill cid => OpcodeMap.fill cid
  | .writeBackStart cid f => OpcodeMap.writeBackStart cid f
  | .writeBackComplete cid f => OpcodeMap.writeBackComplete cid f
  | .matrixCommandStart cid m => OpcodeMap.matrixCommandStart cid m
  | .matrixCommandFinish cid m => OpcodeMap.matrixCommandFinish cid m
  | .mdrainRow cid m => OpcodeMap.mdrainRow cid m
  | .mrotTileLands pkt => OpcodeMap.mrotTileLands pkt
  | .landingMove cid latch => OpcodeMap.landingMove cid latch
  | .portWordArrival cid dir => OpcodeMap.portWordArrival cid dir
  | .ldrmRequest pkt => OpcodeMap.ldrmRequest pkt
  | .strmRequest pkt => OpcodeMap.strmRequest pkt
  | .atomicRequest pkt => OpcodeMap.atomicRequest pkt
  | .ringRequest pkt => OpcodeMap.ringRequest pkt
  | .fenceRelease pkt => OpcodeMap.fenceRelease pkt
  | .releaseSignalSend pkt => OpcodeMap.releaseSignalSend pkt
  | .walkStart clid w => OpcodeMap.walkStart clid w
  | .walkTranslation w tile choice => OpcodeMap.walkTranslation w tile choice
  | .walkMove w moves => OpcodeMap.walkMove w moves
  | .dimensionEndSignal w level run target => OpcodeMap.dimensionEndSignal w level run target
  | .finalSignal w => OpcodeMap.finalSignal w
  | .twcanComplete pkt => OpcodeMap.twcanComplete pkt
  | .stepdDone cid fid => OpcodeMap.stepdDone cid fid
  | .stepAdvance cid => OpcodeMap.stepAdvance cid
  | .stepNotice pkt => OpcodeMap.stepNotice pkt
  | .ldstRequest pkt => OpcodeMap.ldstRequest pkt
  | .stepqRequest pkt => OpcodeMap.stepqRequest pkt
  | .stepRequestResend pkt => OpcodeMap.stepRequestResend pkt
  | .sqtabServe pkt => OpcodeMap.sqtabServe pkt
  | .sqinitServe pkt => OpcodeMap.sqinitServe pkt
  | .sqstepServe pkt => OpcodeMap.sqstepServe pkt
  | .sqstageServe pkt => OpcodeMap.sqstageServe pkt
  | .sqrdServe pkt => OpcodeMap.sqrdServe pkt
  | .stageFormed clid r => OpcodeMap.stageFormed clid r
  | .stepDecision clid r => OpcodeMap.stepDecision clid r
  | .launchRequest pkt => OpcodeMap.launchRequest pkt
  | .instanceStart handle => OpcodeMap.instanceStart handle
  | .launchMulticast die handle => OpcodeMap.launchMulticast die handle
  | .instanceEnd handle => OpcodeMap.instanceEnd handle
  | .creditLend die p => OpcodeMap.creditLend die p
  | .gqueryRequest pkt => OpcodeMap.gqueryRequest pkt
  | .gcanRequest pkt => OpcodeMap.gcanRequest pkt
  | .subqBase p v => OpcodeMap.subqBase p v
  | .subqLog p v => OpcodeMap.subqLog p v
  | .subqTail p v => OpcodeMap.subqTail p v
  | .submissionEntryRead p => OpcodeMap.submissionEntryRead p
  | .forecast die => OpcodeMap.forecast die
  | .telemetryUpdate die => OpcodeMap.telemetryUpdate die
  | .placementEntryWrite p cb w0 w1 => OpcodeMap.placementEntryWrite p cb w0 w1
  | .spillFrames p v => OpcodeMap.spillFrames p v
  | .spillBase p d v => OpcodeMap.spillBase p d v
  | .migGo p v => OpcodeMap.migGo p v
  | .migrationComplete p => OpcodeMap.migrationComplete p
  | .commit v => OpcodeMap.commit v
  | .drainMessage die => OpcodeMap.drainMessage die
  | .clearingComplete p => OpcodeMap.clearingComplete p
  | .preempt p => OpcodeMap.preempt p
  | .resume p => OpcodeMap.resume p
  | .coreSave cid => OpcodeMap.coreSave cid
  | .savedPacketApply pkt => OpcodeMap.savedPacketApply pkt
  | .coreRestore cid => OpcodeMap.coreRestore cid
  | .ordArm p d n v => OpcodeMap.ordArm p d n v
  | .ordAddr p d n v => OpcodeMap.ordAddr p d n v
  | .ordN p d n v => OpcodeMap.ordN p d n v
  | .orderedReductionRequest pkt => OpcodeMap.orderedReductionRequest pkt
  | .faBase p v => OpcodeMap.faBase p v
  | .faLog p v => OpcodeMap.faLog p v
  | .faultRecordWrite n => OpcodeMap.faultRecordWrite n
  | .snapTrig v => OpcodeMap.snapTrig v
  | .snapshotTriggerArrival trig block => OpcodeMap.snapshotTriggerArrival trig block
  | .snapComplete trig => OpcodeMap.snapComplete trig
  | .mgCmdLoad => OpcodeMap.mgCmdLoad
  | .mgCmdActivate => OpcodeMap.mgCmdActivate
  | .mgCmdFloor => OpcodeMap.mgCmdFloor
  | .mgCmdQuote => OpcodeMap.mgCmdQuote
  | .freitCommandDone => OpcodeMap.freitCommandDone
  | .portEntryWrite port word v => OpcodeMap.portEntryWrite port word v
  | .opticalLinkState port up => OpcodeMap.opticalLinkState port up
  | .peerReplicaWrite port addr bytes => OpcodeMap.peerReplicaWrite port addr bytes
  | .replicaWriteApply pkt => OpcodeMap.replicaWriteApply pkt
  | .hostWrite bar off n v => OpcodeMap.hostWrite bar off n v
  | .hostRead bar off n => OpcodeMap.hostRead bar off n
  | .cellGate cell => OpcodeMap.cellGate cell
  | .cellWake cell => OpcodeMap.cellWake cell
  | .quiescence p => OpcodeMap.quiescence p
  | .thermalTrip die => OpcodeMap.thermalTrip die
  | .coreReset cid => OpcodeMap.coreReset cid
  | .packetRefused pkt => OpcodeMap.packetRefused pkt
  | .uncorrectableError cid f ownerRead => OpcodeMap.uncorrectableError cid f ownerRead
  | .routerHop pkt => OpcodeMap.routerHop pkt
  | .linkFlitSend x y port => OpcodeMap.linkFlitSend x y port
  | .crossbarGrant die out => OpcodeMap.crossbarGrant die out
  | .hbmRequestStart die ch => OpcodeMap.hbmRequestStart die ch
  | .spliceEgressEnter pkt => OpcodeMap.spliceEgressEnter pkt
  | .spliceIngressDeliver p splice => OpcodeMap.spliceIngressDeliver p splice
  | .mergedAtomicApply pkt => OpcodeMap.mergedAtomicApply pkt
  | .mergedReplySplit pkt => OpcodeMap.mergedReplySplit pkt
  | .registerWrite off v => OpcodeMap.registerWrite off v
  | .addC f => OpcodeMap.addC f
  | .add f => OpcodeMap.add f
  | .subC f => OpcodeMap.subC f
  | .sub f => OpcodeMap.sub f
  | .mul f => OpcodeMap.mul f
  | .mulh f => OpcodeMap.mulh f
  | .mulhu f => OpcodeMap.mulhu f
  | .div f => OpcodeMap.div f
  | .divu f => OpcodeMap.divu f
  | .rem f => OpcodeMap.rem f
  | .remu f => OpcodeMap.remu f
  | .andC f => OpcodeMap.andC f
  | .and f => OpcodeMap.and f
  | .orC f => OpcodeMap.orC f
  | .or f => OpcodeMap.or f
  | .xorC f => OpcodeMap.xorC f
  | .xor f => OpcodeMap.xor f
  | .andn f => OpcodeMap.andn f
  | .shlC f => OpcodeMap.shlC f
  | .shl f => OpcodeMap.shl f
  | .shrC f => OpcodeMap.shrC f
  | .shr f => OpcodeMap.shr f
  | .sarC f => OpcodeMap.sarC f
  | .sar f => OpcodeMap.sar f
  | .rol f => OpcodeMap.rol f
  | .min f => OpcodeMap.min f
  | .max f => OpcodeMap.max f
  | .minu f => OpcodeMap.minu f
  | .maxu f => OpcodeMap.maxu f
  | .addi f => OpcodeMap.addi f
  | .addiX f => OpcodeMap.addiX f
  | .andi f => OpcodeMap.andi f
  | .andiX f => OpcodeMap.andiX f
  | .ori f => OpcodeMap.ori f
  | .oriX f => OpcodeMap.oriX f
  | .xori f => OpcodeMap.xori f
  | .xoriX f => OpcodeMap.xoriX f
  | .shli f => OpcodeMap.shli f
  | .shliX f => OpcodeMap.shliX f
  | .shri f => OpcodeMap.shri f
  | .shriX f => OpcodeMap.shriX f
  | .sari f => OpcodeMap.sari f
  | .sariX f => OpcodeMap.sariX f
  | .muli f => OpcodeMap.muli f
  | .muliX f => OpcodeMap.muliX f
  | .clz f => OpcodeMap.clz f
  | .ctz f => OpcodeMap.ctz f
  | .popc f => OpcodeMap.popc f
  | .brev f => OpcodeMap.brev f
  | .bext f => OpcodeMap.bext f
  | .bins f => OpcodeMap.bins f
  | .sext f => OpcodeMap.sext f
  | .zext f => OpcodeMap.zext f
  | .cmp f => OpcodeMap.cmp f
  | .cmpi f => OpcodeMap.cmpi f
  | .cmpiX f => OpcodeMap.cmpiX f
  | .pand f => OpcodeMap.pand f
  | .por f => OpcodeMap.por f
  | .pxor f => OpcodeMap.pxor f
  | .pnot f => OpcodeMap.pnot f
  | .pset f => OpcodeMap.pset f
  | .pget f => OpcodeMap.pget f
  | .sel f => OpcodeMap.sel f
  | .lea f => OpcodeMap.lea f
  | .leaX f => OpcodeMap.leaX f
  | .nopC f => OpcodeMap.nopC f
  | .nop f => OpcodeMap.nop f
  | .hint f => OpcodeMap.hint f
  | .hintX f => OpcodeMap.hintX f
  | .rdcyc f => OpcodeMap.rdcyc f
  | .rdcnt f => OpcodeMap.rdcnt f
  | .br f => OpcodeMap.br f
  | .brX f => OpcodeMap.brX f
  | .brx f => OpcodeMap.brx f
  | .call f => OpcodeMap.call f
  | .callX f => OpcodeMap.callX f
  | .ret f => OpcodeMap.ret f
  | .endC f => OpcodeMap.endC f
  | .endW f => OpcodeMap.endW f
  | .fadd f => OpcodeMap.fadd f
  | .fsub f => OpcodeMap.fsub f
  | .fmul f => OpcodeMap.fmul f
  | .ffma f => OpcodeMap.ffma f
  | .fdiv f => OpcodeMap.fdiv f
  | .fsqrt f => OpcodeMap.fsqrt f
  | .fmin f => OpcodeMap.fmin f
  | .fmax f => OpcodeMap.fmax f
  | .fabs f => OpcodeMap.fabs f
  | .fneg f => OpcodeMap.fneg f
  | .fcmp f => OpcodeMap.fcmp f
  | .fclass f => OpcodeMap.fclass f
  | .tadd f => OpcodeMap.tadd f
  | .tsub f => OpcodeMap.tsub f
  | .tmul f => OpcodeMap.tmul f
  | .tfma f => OpcodeMap.tfma f
  | .tdiv f => OpcodeMap.tdiv f
  | .tsqrt f => OpcodeMap.tsqrt f
  | .tmin f => OpcodeMap.tmin f
  | .tmax f => OpcodeMap.tmax f
  | .tabs f => OpcodeMap.tabs f
  | .tneg f => OpcodeMap.tneg f
  | .tcmp f => OpcodeMap.tcmp f
  | .spz f => OpcodeMap.spz f
  | .spfma f => OpcodeMap.spfma f
  | .spfms f => OpcodeMap.spfms f
  | .spadd f => OpcodeMap.spadd f
  | .spsub f => OpcodeMap.spsub f
  | .sprnd f => OpcodeMap.sprnd f
  | .spld f => OpcodeMap.spld f
  | .spldX f => OpcodeMap.spldX f
  | .spst f => OpcodeMap.spst f
  | .spstX f => OpcodeMap.spstX f
  | .cvt f => OpcodeMap.cvt f
  | .lclaim f => OpcodeMap.lclaim f
  | .lrel f => OpcodeMap.lrel f
  | .lcount f => OpcodeMap.lcount f
  | .vadd f => OpcodeMap.vadd f
  | .vsub f => OpcodeMap.vsub f
  | .vmul f => OpcodeMap.vmul f
  | .vmulh f => OpcodeMap.vmulh f
  | .vmad f => OpcodeMap.vmad f
  | .vmin f => OpcodeMap.vmin f
  | .vmax f => OpcodeMap.vmax f
  | .vabs f => OpcodeMap.vabs f
  | .vand f => OpcodeMap.vand f
  | .vor f => OpcodeMap.vor f
  | .vxor f => OpcodeMap.vxor f
  | .vshl f => OpcodeMap.vshl f
  | .vshr f => OpcodeMap.vshr f
  | .vsar f => OpcodeMap.vsar f
  | .vrshr f => OpcodeMap.vrshr f
  | .vsat f => OpcodeMap.vsat f
  | .vclamp f => OpcodeMap.vclamp f
  | .vdot4 f => OpcodeMap.vdot4 f
  | .vdot2 f => OpcodeMap.vdot2 f
  | .vfadd f => OpcodeMap.vfadd f
  | .vfsub f => OpcodeMap.vfsub f
  | .vfmul f => OpcodeMap.vfmul f
  | .vffma f => OpcodeMap.vffma f
  | .vfmin f => OpcodeMap.vfmin f
  | .vfmax f => OpcodeMap.vfmax f
  | .vfabs f => OpcodeMap.vfabs f
  | .vfneg f => OpcodeMap.vfneg f
  | .vexp2 f => OpcodeMap.vexp2 f
  | .vlog2 f => OpcodeMap.vlog2 f
  | .vrcp f => OpcodeMap.vrcp f
  | .vrsqrt f => OpcodeMap.vrsqrt f
  | .vsqrt f => OpcodeMap.vsqrt f
  | .vdiv f => OpcodeMap.vdiv f
  | .vtadd f => OpcodeMap.vtadd f
  | .vtsub f => OpcodeMap.vtsub f
  | .vtmul f => OpcodeMap.vtmul f
  | .vtfma f => OpcodeMap.vtfma f
  | .vtmin f => OpcodeMap.vtmin f
  | .vtmax f => OpcodeMap.vtmax f
  | .vspz f => OpcodeMap.vspz f
  | .vspfma f => OpcodeMap.vspfma f
  | .vsprnd f => OpcodeMap.vsprnd f
  | .vcmp f => OpcodeMap.vcmp f
  | .vfcmp f => OpcodeMap.vfcmp f
  | .vtcmp f => OpcodeMap.vtcmp f
  | .vsel f => OpcodeMap.vsel f
  | .kand f => OpcodeMap.kand f
  | .kor f => OpcodeMap.kor f
  | .kxor f => OpcodeMap.kxor f
  | .knot f => OpcodeMap.knot f
  | .kset f => OpcodeMap.kset f
  | .kget f => OpcodeMap.kget f
  | .vcvt f => OpcodeMap.vcvt f
  | .vpack f => OpcodeMap.vpack f
  | .vunpack f => OpcodeMap.vunpack f
  | .vbcast f => OpcodeMap.vbcast f
  | .vext f => OpcodeMap.vext f
  | .vperm f => OpcodeMap.vperm f
  | .vslide f => OpcodeMap.vslide f
  | .vred f => OpcodeMap.vred f
  | .vscan f => OpcodeMap.vscan f
  | .vld f => OpcodeMap.vld f
  | .vldX f => OpcodeMap.vldX f
  | .vst f => OpcodeMap.vst f
  | .vstX f => OpcodeMap.vstX f
  | .vlds f => OpcodeMap.vlds f
  | .vldsX f => OpcodeMap.vldsX f
  | .vsts f => OpcodeMap.vsts f
  | .vstsX f => OpcodeMap.vstsX f
  | .vldx f => OpcodeMap.vldx f
  | .vldxX f => OpcodeMap.vldxX f
  | .vstx f => OpcodeMap.vstx f
  | .vstxX f => OpcodeMap.vstxX f
  | .mfmt f => OpcodeMap.mfmt f
  | .mscl f => OpcodeMap.mscl f
  | .msclX f => OpcodeMap.msclX f
  | .mlb f => OpcodeMap.mlb f
  | .mlbX f => OpcodeMap.mlbX f
  | .mma f => OpcodeMap.mma f
  | .mmaX f => OpcodeMap.mmaX f
  | .mrot f => OpcodeMap.mrot f
  | .mzero f => OpcodeMap.mzero f
  | .mdrain f => OpcodeMap.mdrain f
  | .mrow f => OpcodeMap.mrow f
  | .falloc f => OpcodeMap.falloc f
  | .ffree f => OpcodeMap.ffree f
  | .sarm f => OpcodeMap.sarm f
  | .sig f => OpcodeMap.sig f
  | .sigX f => OpcodeMap.sigX f
  | .sigv f => OpcodeMap.sigv f
  | .sigb f => OpcodeMap.sigb f
  | .fire f => OpcodeMap.fire f
  | .sget f => OpcodeMap.sget f
  | .ldf f => OpcodeMap.ldf f
  | .stf f => OpcodeMap.stf f
  | .rinit f => OpcodeMap.rinit f
  | .racq f => OpcodeMap.racq f
  | .rcom f => OpcodeMap.rcom f
  | .rpeek f => OpcodeMap.rpeek f
  | .rrel f => OpcodeMap.rrel f
  | .ldC f => OpcodeMap.ldC f
  | .ld f => OpcodeMap.ld f
  | .ldX f => OpcodeMap.ldX f
  | .stC f => OpcodeMap.stC f
  | .st f => OpcodeMap.st f
  | .stX f => OpcodeMap.stX f
  | .ldrm f => OpcodeMap.ldrm f
  | .strm f => OpcodeMap.strm f
  | .aadd f => OpcodeMap.aadd f
  | .amin f => OpcodeMap.amin f
  | .amax f => OpcodeMap.amax f
  | .aminu f => OpcodeMap.aminu f
  | .amaxu f => OpcodeMap.amaxu f
  | .aand f => OpcodeMap.aand f
  | .aor f => OpcodeMap.aor f
  | .axor f => OpcodeMap.axor f
  | .aswp f => OpcodeMap.aswp f
  | .acas f => OpcodeMap.acas f
  | .afadd f => OpcodeMap.afadd f
  | .aspadd f => OpcodeMap.aspadd f
  | .fence f => OpcodeMap.fence f
  | .twld f => OpcodeMap.twld f
  | .twst f => OpcodeMap.twst f
  | .twmc f => OpcodeMap.twmc f
  | .twg f => OpcodeMap.twg f
  | .tws f => OpcodeMap.tws f
  | .twq f => OpcodeMap.twq f
  | .twcan f => OpcodeMap.twcan f
  | .stepd f => OpcodeMap.stepd f
  | .ldst f => OpcodeMap.ldst f
  | .stepq f => OpcodeMap.stepq f
  | .sqtab f => OpcodeMap.sqtab f
  | .sqinit f => OpcodeMap.sqinit f
  | .sqstage f => OpcodeMap.sqstage f
  | .sqstep f => OpcodeMap.sqstep f
  | .sqrd f => OpcodeMap.sqrd f
  | .glaunch f => OpcodeMap.glaunch f
  | .gquery f => OpcodeMap.gquery f
  | .gcan f => OpcodeMap.gcan f
  | .sysr f => OpcodeMap.sysr f
  | .sysw f => OpcodeMap.sysw f
  | .trap f => OpcodeMap.trap f
  | .trapX f => OpcodeMap.trapX f
  | .brk f => OpcodeMap.brk f
  | .snap f => OpcodeMap.snap f
  | .clockPinned die => OpcodeMap.clockPinned die
  | .softError key bits => OpcodeMap.softError key bits
  | .fillComplete cid => OpcodeMap.fillComplete cid

/-- The W forms that the map lists at a major are laid out there, each with its place as the minor. -/
theorem encOf_of_mem_wMinors (m : Nat) : ∀ p ∈ (wMinors m).zipIdx, ∀ f, encOf (p.1 f) = .w m p.2 f := by
  unfold wMinors
  split
  all_goals
    simp only [List.zipIdx, List.forall_mem_cons, List.not_mem_nil, false_implies, implies_true, and_true]
    and_intros
    all_goals exact fun _ => rfl

theorem encOf_wMinors {m n : Nat} {mk : WForm → Instr} (h : (wMinors m)[n]? = some mk) (f : WForm) : encOf (mk f) = .w m n f :=
  encOf_of_mem_wMinors m (mk, n) (List.mem_zipIdx_iff_getElem?.2 h) f

theorem encOf_cInstr {m n : Nat} {mk : CForm → Instr} (h : cInstr m n = some mk) (f : CForm) : encOf (mk f) = .c m n f := by
  unfold cInstr at h
  split at h <;> cases h <;> rfl

theorem encOf_xInstr {m n : Nat} {mk : XForm → Instr} (h : xInstr m n = some mk) (f : XForm) : encOf (mk f) = .x m n f := by
  unfold xInstr at h
  split at h <;> cases h <;> rfl

/-! ### Decoding what was encoded -/

@[simp] theorem checked_of_wellFormed {i : Instr} (h : WellFormed i) : checked i = .ok i := if_pos h

/-- Only a well-formed instruction passes the last line of R88, as it stands. -/
theorem checked_ok {i j : Instr} (h : checked i = .ok j) : i = j ∧ WellFormed j := by
  unfold checked at h
  split at h
  · cases h
    exact ⟨rfl, by assumption⟩
  · cases h

/-- The bytes of parcels decode as the first parcel and those behind it (R77). -/
theorem decode_cons (q : Parcel) (qs : List Parcel) (rest : List Byte) : decode ((q :: qs).flatMap bytesOfParcel ++ rest) =
    decodeParcels q (parcelOf (qs.flatMap bytesOfParcel ++ rest)) (parcelOf ((qs.flatMap bytesOfParcel ++ rest).drop 4)) := by
  rw [decode, List.flatMap_cons, List.append_assoc, parcelOf_bytesOfParcel]
  rfl

/-- A parcel of form 1 or 2 is not zero. -/
theorem ne_zero_of_formOf {q : Parcel} (h : formOf q ≠ 0) : q ≠ 0 := by
  rintro rfl
  exact h rfl

/-- A C form is decoded from its parcel, whatever follows (R80, R88). -/
theorem decodeParcels_c {m n : Nat} {f : CForm} {i : Instr} (henc : encOf i = .c m n f) (hwf : WellFormed i) (q1 q2 : Parcel) :
    decodeParcels (parcel0 0 m n f.d f.a f.b) q1 q2 = .ok i := by
  have hmap := statement_every i
  rw [OpcodeMap.Statement, henc] at hmap
  obtain ⟨hm, hn, hlisted, ⟨mk, hmk, rfl⟩, hzero⟩ := hmap
  obtain ⟨mkW, hmkW⟩ := Option.isSome_iff_exists.1 hlisted
  have hne : parcel0 0 m n f.d f.a f.b ≠ 0 := fun h => by
    have hmaj := majorOf_parcel0 0 f.d f.a f.b hm (n := n)
    have hmin := minorOf_parcel0 0 f.d f.a f.b hn (m := m)
    have hfields := cFields_parcel0 0 f.d f.a f.b (m := m) (n := n)
    rw [h] at hmaj hmin hfields
    obtain ⟨hd, ha, hb⟩ := CForm.mk.inj hfields
    exact hzero hmaj.symm hmin.symm hwf ⟨hd.symm, ha.symm, hb.symm⟩
  simp only [decodeParcels, hne, hm, hn, hmkW, hmk, if_false, if_true, formOf_parcel0, majorOf_parcel0, minorOf_parcel0, cFields_parcel0]
  exact checked_of_wellFormed hwf

/-- A W form is decoded from its two parcels, whatever follows (R78, R88). -/
theorem decodeParcels_w {m n : Nat} {f : WForm} {i : Instr} (henc : encOf i = .w m n f) (hwf : WellFormed i) (q2 : Parcel) :
    decodeParcels (parcel0 1 m n f.d f.a f.b) (parcel1 f.guard f.ord f.hint f.c f.sub) q2 = .ok i := by
  have hmap := statement_every i
  rw [OpcodeMap.Statement, henc] at hmap
  obtain ⟨hm, hn, ⟨mk, hmk, rfl⟩, hord⟩ := hmap
  have hne : parcel0 1 m n f.d f.a f.b ≠ 0 := ne_zero_of_formOf (by simp)
  have htakes : ¬(f.ord ≠ 0 ∧ takesOrder m n = false) := fun ⟨ho, ht⟩ => ho (hord ht hwf)
  simp only [decodeParcels, hne, hm, hn, hmk, if_false, formOf_parcel0, majorOf_parcel0, minorOf_parcel0, wFields_parcels, htakes]
  exact checked_of_wellFormed hwf

/-- An X form is decoded from its three parcels (R79, R88). -/
theorem decodeParcels_x {m n : Nat} {f : XForm} {i : Instr} (henc : encOf i = .x m n f) (hwf : WellFormed i) :
    decodeParcels (parcel0 2 m n f.d f.a f.b) (parcel1 f.guard f.ord f.hint f.c 0) f.lit = .ok i := by
  have hmap := statement_every i
  rw [OpcodeMap.Statement, henc] at hmap
  obtain ⟨hm, hn, hlisted, ⟨mk, hmk, rfl⟩, hord⟩ := hmap
  obtain ⟨mkW, hmkW⟩ := Option.isSome_iff_exists.1 hlisted
  have hne : parcel0 2 m n f.d f.a f.b ≠ 0 := ne_zero_of_formOf (by simp)
  have htakes : ¬(f.toW.ord ≠ 0 ∧ takesOrder m n = false) := fun ⟨ho, ht⟩ => ho (hord ht hwf)
  have hsub : f.toW.sub = 0 := rfl
  simp only [decodeParcels, hne, hm, hn, hmkW, hmk, if_false, formOf_parcel0, majorOf_parcel0, minorOf_parcel0, wFields_parcels_x, htakes, hsub,
    xFields_parcels]
  exact checked_of_wellFormed hwf

/-- Settles O1: for each form, the bytes are those of its parcels, and these decode to the instruction. -/
theorem decodeOfEncode : Obligations.DecodeOfEncode := by
  intro i rest hwf hevent
  rw [encodeBytes, encode]
  cases henc : encOf i with
  | c m n f =>
    rw [Enc.parcels, decode_cons]
    exact decodeParcels_c henc hwf ..
  | w m n f =>
    rw [Enc.parcels, decode_cons, List.flatMap_cons, List.append_assoc, parcelOf_bytesOfParcel]
    exact decodeParcels_w henc hwf ..
  | x m n f =>
    rw [Enc.parcels, decode_cons, List.flatMap_cons, List.append_assoc, parcelOf_bytesOfParcel, drop_four_bytesOfParcel, List.flatMap_cons,
      List.append_assoc, parcelOf_bytesOfParcel]
    exact decodeParcels_x henc hwf
  | event => exact absurd henc hevent

/-! ### Encoding what was decoded -/

/-- A form that is no other is that of W (R76). -/
theorem form_eq_one : ∀ {l : BitVec 2}, l ≠ 0 → l ≠ 2 → l ≠ 3 → l = 1 := by decide

/-- What parcels decode to is well formed and laid out in those of them that the form calls for (R77, R88). -/
theorem decodeParcels_ok {q0 q1 q2 : Parcel} {i : Instr} (h : decodeParcels q0 q1 q2 = .ok i) :
    WellFormed i ∧ encOf i ≠ .event ∧ formOf q0 ≠ 3 ∧ encode i = [q0, q1, q2].take ((formOf q0).toNat + 1) := by
  have h0 : parcel0 (formOf q0) (majorOf q0) (minorOf q0) (wFields q0 q1).d (wFields q0 q1).a (wFields q0 q1).b = q0 := parcel0_of_fields q0
  have h1 := parcel1_of_fields q0 q1
  unfold decodeParcels at h
  split at h
  case isTrue => cases h
  split at h
  case isTrue => cases h
  next hform3 =>
  split at h
  case h_1 => cases h
  next mk hmk =>
  rw [encode]
  split at h
  next hform =>
    split at h
    · cases h
    · next mkC hmkC =>
      obtain ⟨rfl, hwf⟩ := checked_ok h
      rw [hform] at h0
      rw [encOf_cInstr hmkC, hform]
      exact ⟨hwf, nofun, by decide, congrArg (fun q => [q]) h0⟩
  next hform0 =>
  split at h
  case isTrue => cases h
  split at h
  next hform =>
    split at h
    case h_1 => cases h
    next mkX hmkX =>
    split at h
    · cases h
    · next hsub =>
      obtain ⟨rfl, hwf⟩ := checked_ok h
      rw [hform] at h0
      rw [not_not.1 hsub] at h1
      rw [encOf_xInstr hmkX, hform]
      exact ⟨hwf, nofun, by decide, congrArg₂ (fun q q' => [q, q', q2]) h0 h1⟩
  next hform2 =>
    obtain ⟨rfl, hwf⟩ := checked_ok h
    have hform := form_eq_one hform0 hform2 hform3
    rw [hform] at h0
    rw [encOf_wMinors hmk, hform]
    exact ⟨hwf, nofun, by decide, congrArg₂ (fun q q' => [q, q']) h0 h1⟩

/-- Settles O2: the parcels that field L calls for are those of the encoding, and the bytes are theirs. -/
theorem encodeOfDecode : Obligations.EncodeOfDecode := by
  intro bs i hlen hdec
  obtain ⟨hwf, hevent, hform, henc⟩ := decodeParcels_ok hdec
  have hcount : (formOf (parcelOf bs)).toNat + 1 ≤ 3 := by
    have hlt := (formOf (parcelOf bs)).isLt
    have hne : (formOf (parcelOf bs)).toNat ≠ 3 := fun h => hform (BitVec.eq_of_toNat_eq h)
    omega
  refine ⟨hwf, hevent, ?_⟩
  calc bs.take (lengthOf (parcelOf bs))
      = ([parcelOf bs, parcelOf (bs.drop 4), parcelOf (bs.drop 8)].flatMap bytesOfParcel ++ bs.drop 12).take (lengthOf (parcelOf bs)) := by
        rw [bytes_eq_parcels hlen]
    _ = encodeBytes i := by rw [lengthOf, take_bytesOfParcels _ _ _ hcount, encodeBytes, henc]

end Sys2Proof.Proofs.Encoding
end

section
/-! PROOFS. Every code rounds to itself (O22, R17, R23, R24): what a code stands for lies on the rounding grid, so that nothing is lost. -/

namespace Sys2Proof.Proofs.Codes

open Sys2Proof.Machine

/-! ### Binary formats (R16, R17) -/

/-- A multiple of 2^j units is rounded to a grid of that step without an error, under every mode (R16). -/
theorem quantise_exact (neg : Bool) (k j : Nat) (e : Int) (rm : Nat) : quantise neg (k * 2 ^ j) e false (e + j) rm = k := by
  have hpos : 0 < 2 ^ j := by positivity
  have hup : (e - (e + j)).toNat = 0 := by omega
  have hdown : (e + j - e).toNat = j := by omega
  have habove : decide (2 ^ j < 2 * 0) = false := by simp
  have htie : (2 * 0 == 2 ^ j) = false := beq_false_of_ne (by omega)
  simp only [quantise, hup, hdown, pow_zero, mul_one, Nat.mul_div_cancel _ hpos, Nat.mul_mod_left, habove, htie]
  match rm with
  | 0 | 1 | 2 | _ + 3 => simp

/-- A magnitude on its own grid, normal or below the least normal one, keeps its digits (R16). -/
theorem gridCode_exact (neg : Bool) {k j f : Nat} {e g0 : Int} (rm : Nat) (hk : k ≠ 0) (hlt : k < 2 ^ (f + 1)) (hle : g0 ≤ e + j)
    (hgrid : 2 ^ f ≤ k ∨ e + j = g0) : gridCode neg (k * 2 ^ j) e false f g0 rm = (e + j - g0).toNat * 2 ^ f + k := by
  have hne : k * 2 ^ j ≠ 0 := by positivity
  have hhi : Nat.log2 (k * 2 ^ j) < f + 1 + j := (Nat.log2_lt hne).2 (by rw [pow_add]; exact Nat.mul_lt_mul_of_pos_right hlt (by positivity))
  have hstep : max (topExp (k * 2 ^ j) e - f) g0 = e + j := by
    rw [topExp]
    rcases hgrid with hlo | heq
    · have : f + j ≤ Nat.log2 (k * 2 ^ j) := (Nat.le_log2 hne).2 (by rw [pow_add]; exact Nat.mul_le_mul_right _ hlo)
      omega
    · omega
  simp only [gridCode, hstep, quantise_exact]

/-- A magnitude that rounds below the code of infinity has its code with the sign (R17). -/
theorem roundIeee_of_lt {f m c rm : Nat} {n st : Bool} {e : Int} (hlt : c < 255 * 2 ^ f)
    (hcode : (if m = 0 ∧ st = false then 0 else gridCode n m e st f (-126 - f) rm) = c) :
    roundIeee f (.num n m e st) rm = (if n then 256 * 2 ^ f else 0) + c := by
  unfold roundIeee
  dsimp only
  rw [hcode, if_neg (by omega)]

/-- A finite code of a format with f fraction bits, read as an FP32 code with j zeros behind it, rounds to itself (R13, R17). -/
theorem roundIeee_finite {f j : Nat} (hf : f + j = 23) (n : Bool) {ex fr : Nat} (hex : ex < 255) (hfr : fr < 2 ^ f) (rm : Nat) :
    roundIeee f (if ex = 0 then .num n (fr * 2 ^ j) (-149) false else .num n ((2 ^ f + fr) * 2 ^ j) ((ex : Int) - 150) false) rm =
      (if n then 256 * 2 ^ f else 0) + (ex * 2 ^ f + fr) := by
  have hsucc : 2 ^ (f + 1) = 2 ^ f + 2 ^ f := by ring
  have htop : ex * 2 ^ f + 2 ^ f ≤ 255 * 2 ^ f := by nlinarith [Nat.two_pow_pos f]
  split
  case isTrue h0 =>
    subst h0
    refine roundIeee_of_lt (by omega) ?_
    rcases Nat.eq_zero_or_pos fr with rfl | hfr0
    · simp
    · have hne : fr * 2 ^ j ≠ 0 := by positivity
      rw [if_neg (fun h => hne h.1), gridCode_exact n rm (by omega) (by omega) (by omega) (.inr (by omega)),
        show (-149 + (j : Int) - (-126 - f)).toNat = 0 by omega]
  case isFalse h0 =>
    refine roundIeee_of_lt (by omega) ?_
    have hne : (2 ^ f + fr) * 2 ^ j ≠ 0 := by positivity
    rw [if_neg (fun h => hne h.1), gridCode_exact n rm (by positivity) (by omega) (by omega) (.inl (by omega)),
      show ((ex : Int) - 150 + j - (-126 - f)).toNat = ex - 1 by omega]
    obtain ⟨y, rfl⟩ : ∃ y, ex = y + 1 := ⟨ex - 1, by omega⟩
    rw [Nat.add_sub_cancel, Nat.succ_mul, Nat.add_assoc]

/-- An infinity rounds to its code (R17). -/
theorem roundIeee_inf (f : Nat) (n : Bool) (rm : Nat) : roundIeee f (.inf n) rm = (if n then 256 * 2 ^ f else 0) + 255 * 2 ^ f := rfl

/-- The sign, exponent field and fraction field of a code make it up (R13). -/
theorem code_eq_fields (v f : Nat) (hv : v < 2 ^ (9 + f)) :
    (if decide (2 ^ (8 + f) ≤ v) = true then 256 * 2 ^ f else 0) + (v / 2 ^ f % 256 * 2 ^ f + v % 2 ^ f) = v := by
  have h8 : 2 ^ (8 + f) = 256 * 2 ^ f := by rw [pow_add]; norm_num
  have h9 : 2 ^ (9 + f) = 512 * 2 ^ f := by rw [pow_add]; norm_num
  have hpos := Nat.two_pow_pos f
  have hsplit := Nat.div_add_mod' v (2 ^ f)
  have hq : v / 2 ^ f < 512 := Nat.div_lt_of_lt_mul (by rw [Nat.mul_comm]; omega)
  have hsign : 256 * 2 ^ f ≤ v ↔ 256 ≤ v / 2 ^ f := (Nat.le_div_iff_mul_le hpos).symm
  simp only [decide_eq_true_eq, h8, hsign]
  split
  · have : v / 2 ^ f % 256 = v / 2 ^ f - 256 := by omega
    rw [this, Nat.sub_mul]
    have := Nat.mul_le_mul_right (2 ^ f) (show 256 ≤ v / 2 ^ f by assumption)
    omega
  · rw [Nat.mod_eq_of_lt (by omega)]
    omega

/-- What a code that is no NaN stands for rounds to it, in a format with f fraction bits whose codes are read as FP32 codes with j zeros
behind them. -/
theorem roundIeee_decodeFp32 {f j : Nat} (hf : f + j = 23) {p : BitVec 32} {v : Nat} (hp : p.toNat = v * 2 ^ j) (rm : Nat)
    (h : (decodeFp32 p).isNan = false) : roundIeee f (decodeFp32 p) rm = v := by
  have hj : 0 < 2 ^ j := by positivity
  have h23 : 2 ^ 23 = 2 ^ f * 2 ^ j := by rw [← pow_add, hf]
  have hv : v < 2 ^ (9 + f) := by
    have hlt := p.isLt
    rw [hp, show 32 = 9 + f + j by omega, pow_add _ _ j] at hlt
    exact Nat.lt_of_mul_lt_mul_right hlt
  have hsign : 2 ^ 31 ≤ p.toNat ↔ 2 ^ (8 + f) ≤ v := by
    rw [hp, show 31 = 8 + f + j by omega, pow_add _ _ j, Nat.mul_le_mul_right_iff hj]
  have hex : p.toNat / 2 ^ 23 = v / 2 ^ f := by rw [hp, h23, Nat.mul_div_mul_right _ _ hj]
  have hfr : p.toNat % 2 ^ 23 = v % 2 ^ f * 2 ^ j := by rw [hp, h23, Nat.mul_mod_mul_right]
  have hfields := code_eq_fields v f hv
  have hfrlt := Nat.mod_lt v (Nat.two_pow_pos f)
  revert h
  simp only [decodeFp32, hex, hfr, hsign]
  rw [h23, ← Nat.add_mul]
  split
  next h255 =>
    split
    next h0 =>
      have hfr0 : v % 2 ^ f = 0 := (Nat.mul_eq_zero.1 h0).resolve_right hj.ne'
      intro _
      rw [roundIeee_inf]
      rw [h255, hfr0, Nat.add_zero] at hfields
      exact hfields
    next => exact fun h => nomatch h
  next h255 =>
    intro _
    rw [roundIeee_finite hf _ (by omega) hfrlt rm]
    exact hfields

/-- Every FP32 code that is no NaN rounds to itself under every mode (R17). -/
theorem roundFp32_decodeFp32 (p : BitVec 32) (rm : Nat) (h : (decodeFp32 p).isNan = false) : roundFp32 (decodeFp32 p) rm = p := by
  rw [roundFp32, roundIeee_decodeFp32 (j := 0) rfl (Nat.mul_one _).symm rm h, BitVec.ofNat_toNat, BitVec.setWidth_eq]

/-- Every BF16 code that is no NaN rounds to itself under every mode (R17). -/
theorem roundBf16_decodeBf16 (p : BitVec 16) (rm : Nat) (h : (decodeBf16 p).isNan = false) : roundBf16 (decodeBf16 p) rm = p := by
  have hwide : (p.setWidth 32 <<< 16).toNat = p.toNat * 2 ^ 16 := by
    have := p.isLt
    simp [Nat.shiftLeft_eq]
    omega
  rw [roundBf16, decodeBf16, roundIeee_decodeFp32 (j := 16) rfl hwide rm h, BitVec.ofNat_toNat, BitVec.setWidth_eq]

/-! ### Tapered formats (R23, R24) -/

/-- The head of a tapered code: a run of m equal bits and the bit that ends it (R23). -/
def regime (r : Bool) (m : Nat) : Nat := if r then (2 ^ m - 1) * 2 else 1

/-- The bit at n stands above those below it. -/
theorem mod_two_pow_add_one (a n : Nat) : a % 2 ^ (n + 1) = (a.testBit n).toNat * 2 ^ n + a % 2 ^ n := by
  rw [Nat.pow_succ, Nat.mod_mul, Nat.toNat_testBit, Nat.add_comm, Nat.mul_comm]

/-- A run that ends is the head of the number, with the bits below it behind (R23). -/
theorem mod_eq_regime (a : Nat) (r : Bool) : ∀ n : Nat, runLen a r n < n →
    a % 2 ^ n = regime r (runLen a r n) * 2 ^ (n - 1 - runLen a r n) + a % 2 ^ (n - 1 - runLen a r n)
  | n + 1, h => by
    rw [mod_two_pow_add_one]
    unfold runLen at h ⊢
    split
    next hbit =>
      rw [if_pos hbit] at h
      have hm : runLen a r n < n := by omega
      have hexp : 2 ^ n = 2 ^ (runLen a r n) * 2 * 2 ^ (n - 1 - runLen a r n) := by
        rw [← Nat.pow_succ, ← pow_add]
        congr 1
        omega
      have hone := Nat.one_le_two_pow (n := runLen a r n)
      rw [hbit, mod_eq_regime a r n hm, show n + 1 - 1 - (runLen a r n + 1) = n - 1 - runLen a r n by omega, ← Nat.add_assoc, hexp]
      cases r
      · simp [regime]
      · simp only [regime, if_true, Bool.toNat_true, one_mul, ← Nat.add_mul, Nat.pow_succ]
        congr 2
        omega
    next hbit =>
      rw [Nat.add_sub_cancel, Nat.sub_zero]
      cases r <;> simp_all [regime]

/-- A run that does not end leaves all bits equal (R23). -/
theorem mod_of_runLen_eq (a : Nat) (r : Bool) : ∀ n : Nat, runLen a r n = n → a % 2 ^ n = if r then 2 ^ n - 1 else 0
  | 0, _ => by rw [pow_zero, Nat.mod_one]; cases r <;> rfl
  | n + 1, h => by
    rw [mod_two_pow_add_one]
    unfold runLen at h
    split at h
    next hbit =>
      rw [hbit, mod_of_runLen_eq a r n (by omega)]
      have hone := Nat.one_le_two_pow (n := n)
      cases r
      · simp
      · simp only [if_true, Bool.toNat_true, one_mul, Nat.pow_succ]
        omega
    next => omega

theorem runLen_le (a : Nat) (r : Bool) : ∀ n : Nat, runLen a r n ≤ n
  | 0 => Nat.le_refl 0
  | n + 1 => by
    unfold runLen
    have := runLen_le a r n
    split <;> omega

/-- A run of the bit at its head has a length. -/
theorem runLen_pos (a n : Nat) : 0 < runLen a (a.testBit n) (n + 1) := by
  rw [runLen, if_pos rfl]
  exact Nat.succ_pos _

/-- The leading bit of a significand with f fraction bits. -/
theorem log2_significand {f x : Nat} (h : x < 2 ^ f) : Nat.log2 (2 ^ f + x) = f := by
  have hne : 2 ^ f + x ≠ 0 := by positivity
  have hlo : f ≤ Nat.log2 (2 ^ f + x) := (Nat.le_log2 hne).2 (Nat.le_add_right _ _)
  have hhi : Nat.log2 (2 ^ f + x) < f + 1 := (Nat.log2_lt hne).2 (by rw [Nat.pow_succ]; omega)
  omega

/-- The exponent field below the head of a tapered code, with zeros for the bits that are cut off (R23). -/
def exponent (es a rest : Nat) : Nat := a / 2 ^ (rest - min es rest) % 2 ^ min es rest * 2 ^ (es - min es rest)

theorem exponent_lt (es a rest : Nat) : exponent es a rest < 2 ^ es := by
  have hmod : a / 2 ^ (rest - min es rest) % 2 ^ min es rest < 2 ^ min es rest := Nat.mod_lt _ (Nat.two_pow_pos _)
  calc exponent es a rest < 2 ^ min es rest * 2 ^ (es - min es rest) := Nat.mul_lt_mul_of_pos_right hmod (Nat.two_pow_pos _)
    _ = 2 ^ es := by rw [← pow_add, Nat.add_sub_cancel' (Nat.min_le_left es rest)]

/-- The bits behind the head, laid out with the exponent field in full and the fraction behind it, are those of the code with zeros for the
bits that are cut off (R23, R24). -/
theorem layout_eq (es a rest h : Nat) (ha : a = h * 2 ^ rest + a % 2 ^ rest) :
    (h * 2 ^ es + exponent es a rest) * 2 ^ (rest - es) + a % 2 ^ (rest - es) = a * 2 ^ (es - rest) := by
  unfold exponent
  rcases Nat.le_total es rest with hle | hle
  · have hsplit := Nat.mod_mul (x := a) (a := 2 ^ (rest - es)) (b := 2 ^ es)
    rw [← pow_add, Nat.sub_add_cancel hle] at hsplit
    rw [Nat.min_eq_left hle, Nat.sub_self, pow_zero, mul_one, Nat.sub_eq_zero_of_le hle, pow_zero, mul_one, Nat.add_mul, Nat.mul_assoc,
      ← pow_add, Nat.add_sub_cancel' hle, Nat.mul_comm (a / _ % _)]
    omega
  · rw [Nat.min_eq_right hle, Nat.sub_self, pow_zero, Nat.div_one, Nat.sub_eq_zero_of_le hle, pow_zero, mul_one, Nat.mod_one, Nat.add_zero]
    conv_rhs => rw [ha]
    rw [Nat.add_mul, Nat.mul_assoc, ← pow_add, Nat.add_sub_cancel' hle]

/-- A scale and an exponent field are the quotient and the remainder of the exponent they make up (R24). -/
theorem scale_exponent {es x : Nat} (k f : Int) (hx : x < 2 ^ es) :
    (k * (2 ^ es : Nat) + (x : Int) - f + f) / 2 ^ es = k ∧ ((k * (2 ^ es : Nat) + (x : Int) - f + f) % 2 ^ es).toNat = x := by
  have hx' : (x : Int) < 2 ^ es := by exact_mod_cast hx
  have hpos : (0 : Int) < 2 ^ es := by positivity
  rw [Int.sub_add_cancel, Int.add_comm, Nat.cast_pow, Nat.cast_ofNat]
  exact ⟨by rw [Int.add_mul_ediv_right _ _ hpos.ne', Int.ediv_eq_zero_of_lt (by omega) hx', Int.zero_add],
    by rw [Int.add_mul_emod_self_right, Int.emod_eq_of_lt (by omega) hx', Int.toNat_natCast]⟩

/-- Bits that are cut off and are all 0 leave what stands before them (R24). -/
theorem cut_zeros {a d w : Nat} (hd : 0 < d) (h0 : 0 < a) (ha : a < 2 ^ w) :
    max 1 (min (if ((a * 2 ^ d).testBit (d - 1) && (a * 2 ^ d % 2 ^ (d - 1) != 0 || false || a * 2 ^ d / 2 ^ d % 2 == 1)) = true
      then a * 2 ^ d / 2 ^ d + 1 else a * 2 ^ d / 2 ^ d) (2 ^ w - 1)) = a := by
  have hbit : (a * 2 ^ d).testBit (d - 1) = false := by
    rw [Nat.mul_comm, Nat.testBit_two_pow_mul, decide_eq_false (by omega), Bool.false_and]
  rw [hbit, Bool.false_and, if_neg (by simp), Nat.mul_div_cancel _ (Nat.two_pow_pos d)]
  omega

/-- The scale that a run gives, not at either end of the range, and the head that the scale gives back (R23, R24). -/
theorem scale_of_run {r : Bool} {m n : Nat} {k : Int} (hpos : 0 < m) (hlt : m < n - 1) (hk : (if r then (m : Int) - 1 else -(m : Int)) = k) :
    ¬((n : Int) - 2 ≤ k) ∧ ¬(k ≤ 1 - (n : Int)) ∧ (if 0 ≤ k then (2 ^ (k.toNat + 1) - 1) * 2 else 1) = regime r m ∧
      (if 0 ≤ k then k.toNat + 2 else k.natAbs + 1) = m + 1 := by
  cases r with
  | false =>
    rw [if_neg (by simp)] at hk
    rw [if_neg (by omega), if_neg (by omega)]
    exact ⟨by omega, by omega, rfl, by omega⟩
  | true =>
    rw [if_pos rfl] at hk
    rw [if_pos (by omega), if_pos (by omega), show k.toNat + 1 = m by omega]
    exact ⟨by omega, by omega, rfl, by omega⟩

/-- What a positive code with a run that ends stands for: its head gives the scale, the bits behind it the exponent and the fraction (R23). -/
theorem decodeTf_pos {n es a : Nat} (h0 : 0 < a) (ha : a < 2 ^ (n - 1)) :
    let r := a.testBit (n - 2)
    let m := runLen a r (n - 1)
    let rest := n - 2 - m
    decodeTf n es a = .num false (2 ^ (rest - es) + a % 2 ^ (rest - es))
      ((if r then (m : Int) - 1 else -(m : Int)) * (2 ^ es : Nat) + (exponent es a rest : Int) - ((rest - es : Nat) : Int)) false := by
  have hbit : a.testBit (n - 1) = false := Nat.testBit_lt_two_pow ha
  simp only [decodeTf, if_neg h0.ne', if_neg ha.ne, hbit, Bool.false_eq_true, if_false, exponent]

/-- Every positive code rounds to itself (R24). -/
theorem roundTf_decodeTf_pos {n es a : Nat} (hn : 2 ≤ n) (h0 : 0 < a) (ha : a < 2 ^ (n - 1)) : roundTf n es (decodeTf n es a) = a := by
  have hdec := decodeTf_pos (es := es) h0 ha
  dsimp only at hdec
  have hle := runLen_le a (a.testBit (n - 2)) (n - 1)
  have hpos := runLen_pos a (n - 2)
  rw [show n - 2 + 1 = n - 1 by omega] at hpos
  have hmod := Nat.mod_eq_of_lt ha
  have hends := mod_eq_regime a (a.testBit (n - 2)) (n - 1)
  have hfull := mod_of_runLen_eq a (a.testBit (n - 2)) (n - 1)
  rw [hmod, show n - 1 - 1 = n - 2 by omega] at hends
  rw [hmod] at hfull
  generalize a.testBit (n - 2) = r at *
  generalize runLen a r (n - 1) = m at *
  generalize hrest : n - 2 - m = rest at *
  have hlog := log2_significand (Nat.mod_lt a (Nat.two_pow_pos (rest - es)))
  have hsig : 2 ^ (rest - es) + a % 2 ^ (rest - es) ≠ 0 := by positivity
  have hexp := exponent_lt es a rest
  rw [hdec]
  generalize hscale : (if r then (m : Int) - 1 else -(m : Int)) = k
  obtain ⟨hk, hx⟩ := scale_exponent k ((rest - es : Nat) : Int) hexp
  simp only [roundTf, if_neg hsig, hlog, hk, hx, Bool.false_eq_true, if_false, Nat.add_sub_cancel_left]
  by_cases hm : m = n - 1
  · cases r with
    | false => exact absurd (hfull hm) h0.ne'
    | true =>
      rw [if_pos rfl] at hscale
      rw [if_pos (by omega)]
      exact (hfull hm).symm
  · have hcode := hends (by omega)
    obtain ⟨hlow, hhigh, hhead, hlen⟩ := scale_of_run hpos (show m < n - 1 by omega) hscale
    rw [if_neg hlow, if_neg hhigh, hhead, hlen, layout_eq es a rest (regime r m) hcode]
    split
    · rw [Nat.mul_assoc, ← pow_add, show es - rest + (n - 1 - (m + 1 + es + (rest - es))) = 0 by omega, pow_zero, mul_one]
    · rw [show m + 1 + es + (rest - es) - (n - 1) = es - rest by omega]
      exact cut_zeros (by omega) h0 ha

/-- A negative code stands for the negated value of its magnitude (R23). -/
theorem decodeTf_neg {n es p : Nat} (hlo : 2 ^ (n - 1) < p) (hhi : p < 2 ^ n) (hn : 2 ≤ n) :
    decodeTf n es p = (decodeTf n es (2 ^ n - p)).neg := by
  have hn' : 2 ^ n = 2 ^ (n - 1) + 2 ^ (n - 1) := by rw [← Nat.two_mul, ← Nat.pow_succ']; congr 1; omega
  have hbit : p.testBit (n - 1) = true := by
    rw [Nat.testBit_eq_decide_div_mod_eq, Nat.div_eq_of_lt_le (k := 1) (by omega) (by omega)]
    rfl
  have h0 : ¬(p = 0) := by omega
  rw [decodeTf_pos (n := n) (a := 2 ^ n - p) (by omega) (by omega)]
  simp only [decodeTf, if_neg h0, if_neg hlo.ne', hbit, if_true, XReal.neg, Bool.not_false, exponent]

/-- The negation of a value rounds to the negation of its code (R24). -/
theorem roundTf_neg (n es m : Nat) (e : Int) (st : Bool) :
    roundTf n es (XReal.num false m e st).neg = (2 ^ n - roundTf n es (.num false m e st)) % 2 ^ n := by
  simp only [XReal.neg, Bool.not_false, roundTf]
  split
  · rw [Nat.sub_zero, Nat.mod_self]
  · rfl

/-- Every code of a tapered format rounds to itself (R24). -/
theorem roundTf_decodeTf {n es p : Nat} (hn : 2 ≤ n) (hp : p < 2 ^ n) : roundTf n es (decodeTf n es p) = p := by
  have hn' : 2 ^ n = 2 ^ (n - 1) + 2 ^ (n - 1) := by rw [← Nat.two_mul, ← Nat.pow_succ']; congr 1; omega
  rcases Nat.eq_zero_or_pos p with rfl | h0
  · simp [decodeTf, XReal.zero, roundTf]
  rcases Nat.lt_trichotomy p (2 ^ (n - 1)) with hlt | rfl | hlt
  · exact roundTf_decodeTf_pos hn h0 hlt
  · simp [decodeTf, roundTf]
  · have hpos := roundTf_decodeTf_pos (es := es) hn (show 0 < 2 ^ n - p by omega) (by omega)
    rw [decodeTf_pos (by omega) (by omega)] at hpos
    rw [decodeTf_neg hlt hp hn, decodeTf_pos (by omega) (by omega), roundTf_neg, hpos, Nat.sub_sub_self hp.le, Nat.mod_eq_of_lt hp]

/-- Every code of TF8, TF16 or TF32 rounds to itself (R22, R24). -/
theorem encTf_decTf {t p : Nat} (hp : p < 2 ^ (tfParams t).1) : encTf t (decTf t p) = p := by
  have hn : 2 ≤ (tfParams t).1 := by unfold tfParams; split <;> decide
  rw [encTf, decTf, Nat.mod_eq_of_lt hp, roundTf_decodeTf hn hp]

/-- Settles O22: the values of codes lie on the grids that rounding goes to. -/
theorem codesRoundToThemselves : Obligations.CodesRoundToThemselves :=
  ⟨roundFp32_decodeFp32, roundBf16_decodeBf16, fun _ hp => encTf_decTf hp, fun _ hp => encTf_decTf hp, fun _ hp => encTf_decTf hp⟩

end Sys2Proof.Proofs.Codes
end

section
/-! PROOFS. An instruction of registers alone reaches no further than its core (O47): one law per instruction, gathered by its major. -/

namespace Sys2Proof.Proofs.Registers

open Sys2Proof.Machine

/-- The majors whose instructions work on registers alone (R90 to R143), but for the spools, whose loads and stores reach memory. -/
def registerMajors : List Nat :=
  [0x00, 0x01, 0x02, 0x03, 0x04, 0x05, 0x06, 0x07, 0x10, 0x11, 0x13, 0x18, 0x19, 0x1A, 0x1B, 0x1C, 0x1D, 0x1E]

/-- An instruction of these majors answers a next state, which differs in the issuing core alone. -/
theorem exec_onCore (i : Instr) (s : State) (h : ∃ m ∈ registerMajors, Claims.majorIn (encOf i) = some m) :
    ∃ u, exec i s = .next u ∧ OnCore s u := by
  cases i with
  | addC f => exact registers_addC f s
  | add f => exact registers_add f s
  | subC f => exact registers_subC f s
  | sub f => exact registers_sub f s
  | mul f => exact registers_mul f s
  | mulh f => exact registers_mulh f s
  | mulhu f => exact registers_mulhu f s
  | div f => exact registers_div f s
  | divu f => exact registers_divu f s
  | rem f => exact registers_rem f s
  | remu f => exact registers_remu f s
  | andC f => exact registers_andC f s
  | and f => exact registers_and f s
  | orC f => exact registers_orC f s
  | or f => exact registers_or f s
  | xorC f => exact registers_xorC f s
  | xor f => exact registers_xor f s
  | andn f => exact registers_andn f s
  | shlC f => exact registers_shlC f s
  | shl f => exact registers_shl f s
  | shrC f => exact registers_shrC f s
  | shr f => exact registers_shr f s
  | sarC f => exact registers_sarC f s
  | sar f => exact registers_sar f s
  | rol f => exact registers_rol f s
  | min f => exact registers_min f s
  | max f => exact registers_max f s
  | minu f => exact registers_minu f s
  | maxu f => exact registers_maxu f s
  | addi f => exact registers_addi f s
  | addiX f => exact registers_addiX f s
  | andi f => exact registers_andi f s
  | andiX f => exact registers_andiX f s
  | ori f => exact registers_ori f s
  | oriX f => exact registers_oriX f s
  | xori f => exact registers_xori f s
  | xoriX f => exact registers_xoriX f s
  | shli f => exact registers_shli f s
  | shliX f => exact registers_shliX f s
  | shri f => exact registers_shri f s
  | shriX f => exact registers_shriX f s
  | sari f => exact registers_sari f s
  | sariX f => exact registers_sariX f s
  | muli f => exact registers_muli f s
  | muliX f => exact registers_muliX f s
  | clz f => exact registers_clz f s
  | ctz f => exact registers_ctz f s
  | popc f => exact registers_popc f s
  | brev f => exact registers_brev f s
  | bext f => exact registers_bext f s
  | bins f => exact registers_bins f s
  | sext f => exact registers_sext f s
  | zext f => exact registers_zext f s
  | cmp f => exact registers_cmp f s
  | cmpi f => exact registers_cmpi f s
  | cmpiX f => exact registers_cmpiX f s
  | pand f => exact registers_pand f s
  | por f => exact registers_por f s
  | pxor f => exact registers_pxor f s
  | pnot f => exact registers_pnot f s
  | pset f => exact registers_pset f s
  | pget f => exact registers_pget f s
  | sel f => exact registers_sel f s
  | lea f => exact registers_lea f s
  | leaX f => exact registers_leaX f s
  | nopC f => exact registers_nopC f s
  | nop f => exact registers_nop f s
  | hint f => exact registers_hint f s
  | hintX f => exact registers_hintX f s
  | rdcyc f => exact registers_rdcyc f s
  | rdcnt f => exact registers_rdcnt f s
  | br f => exact registers_br f s
  | brX f => exact registers_brX f s
  | brx f => exact registers_brx f s
  | call f => exact registers_call f s
  | callX f => exact registers_callX f s
  | ret f => exact registers_ret f s
  | endC f => exact registers_endC f s
  | endW f => exact registers_endW f s
  | fadd f => exact registers_fadd f s
  | fsub f => exact registers_fsub f s
  | fmul f => exact registers_fmul f s
  | ffma f => exact registers_ffma f s
  | fdiv f => exact registers_fdiv f s
  | fsqrt f => exact registers_fsqrt f s
  | fmin f => exact registers_fmin f s
  | fmax f => exact registers_fmax f s
  | fabs f => exact registers_fabs f s
  | fneg f => exact registers_fneg f s
  | fcmp f => exact registers_fcmp f s
  | fclass f => exact registers_fclass f s
  | tadd f => exact registers_tadd f s
  | tsub f => exact registers_tsub f s
  | tmul f => exact registers_tmul f s
  | tfma f => exact registers_tfma f s
  | tdiv f => exact registers_tdiv f s
  | tsqrt f => exact registers_tsqrt f s
  | tmin f => exact registers_tmin f s
  | tmax f => exact registers_tmax f s
  | tabs f => exact registers_tabs f s
  | tneg f => exact registers_tneg f s
  | tcmp f => exact registers_tcmp f s
  | cvt f => exact registers_cvt f s
  | lclaim f => exact registers_lclaim f s
  | lrel f => exact registers_lrel f s
  | lcount f => exact registers_lcount f s
  | vadd f => exact registers_vadd f s
  | vsub f => exact registers_vsub f s
  | vmul f => exact registers_vmul f s
  | vmulh f => exact registers_vmulh f s
  | vmad f => exact registers_vmad f s
  | vmin f => exact registers_vmin f s
  | vmax f => exact registers_vmax f s
  | vabs f => exact registers_vabs f s
  | vand f => exact registers_vand f s
  | vor f => exact registers_vor f s
  | vxor f => exact registers_vxor f s
  | vshl f => exact registers_vshl f s
  | vshr f => exact registers_vshr f s
  | vsar f => exact registers_vsar f s
  | vrshr f => exact registers_vrshr f s
  | vsat f => exact registers_vsat f s
  | vclamp f => exact registers_vclamp f s
  | vdot4 f => exact registers_vdot4 f s
  | vdot2 f => exact registers_vdot2 f s
  | vfadd f => exact registers_vfadd f s
  | vfsub f => exact registers_vfsub f s
  | vfmul f => exact registers_vfmul f s
  | vffma f => exact registers_vffma f s
  | vfmin f => exact registers_vfmin f s
  | vfmax f => exact registers_vfmax f s
  | vfabs f => exact registers_vfabs f s
  | vfneg f => exact registers_vfneg f s
  | vexp2 f => exact registers_vexp2 f s
  | vlog2 f => exact registers_vlog2 f s
  | vrcp f => exact registers_vrcp f s
  | vrsqrt f => exact registers_vrsqrt f s
  | vsqrt f => exact registers_vsqrt f s
  | vdiv f => exact registers_vdiv f s
  | vtadd f => exact registers_vtadd f s
  | vtsub f => exact registers_vtsub f s
  | vtmul f => exact registers_vtmul f s
  | vtfma f => exact registers_vtfma f s
  | vtmin f => exact registers_vtmin f s
  | vtmax f => exact registers_vtmax f s
  | vspz f => exact registers_vspz f s
  | vspfma f => exact registers_vspfma f s
  | vsprnd f => exact registers_vsprnd f s
  | vcmp f => exact registers_vcmp f s
  | vfcmp f => exact registers_vfcmp f s
  | vtcmp f => exact registers_vtcmp f s
  | vsel f => exact registers_vsel f s
  | kand f => exact registers_kand f s
  | kor f => exact registers_kor f s
  | kxor f => exact registers_kxor f s
  | knot f => exact registers_knot f s
  | kset f => exact registers_kset f s
  | kget f => exact registers_kget f s
  | vcvt f => exact registers_vcvt f s
  | vpack f => exact registers_vpack f s
  | vunpack f => exact registers_vunpack f s
  | vbcast f => exact registers_vbcast f s
  | vext f => exact registers_vext f s
  | vperm f => exact registers_vperm f s
  | vslide f => exact registers_vslide f s
  | vred f => exact registers_vred f s
  | vscan f => exact registers_vscan f s
  | _ =>
    obtain ⟨m, hm, he⟩ := h
    cases he <;> exact absurd hm (by decide)

/-- Settles O47: the law of each instruction names every part of the machine outside its core. -/
theorem registersOnly : Obligations.RegistersOnly := by
  intro i s h
  obtain ⟨t, hexec, hcore⟩ := exec_onCore i s h
  exact ⟨t, hexec, hcore.mem, hcore.poison, hcore.net, hcore.walks, hcore.cmds, hcore.insts, hcore.parts, hcore.clusters, hcore.dies, hcore.mgmt,
    hcore.older, hcore.heads, hcore.others⟩

end Sys2Proof.Proofs.Registers
end

section
/-! PROOFS. Taking a fault ends the firing, leaves the machine and adds one record (O45). -/

namespace Sys2Proof.Proofs.TakeFault

open Sys2Proof.Machine

section

variable (s : State) (code : BitVec 8) (aux : Nat)

/-- The record of a fault adds to the list of those to be written, and the end of the firing changes its context alone. -/
theorem takeFault_eq : ∃ r, s.takeFault code aux = (s.addFault r).setCtx Ctx.init ∧ r.kind = 0 ∧ r.code = code ∧ r.part = s.partOf s.cur.1 ∧
    r.inst = s.ctx.inst ∧ r.cid = s.cur.1 ∧ r.w2 = BitVec.ofNat 64 (s.ctx.slot * 2 ^ 32 + s.ctx.fref) ∧
    r.w3 = BitVec.ofNat 64 (s.ctx.ipc.toNat % 2 ^ 32 + (if code = 0x08 then 0xFFFF else s.ctx.issued - 1) % 2 ^ 16 * 2 ^ 32 +
      min aux 0xFFFF * 2 ^ 48) ∧ r.acts = true :=
  ⟨_, rfl, rfl, rfl, rfl, rfl, rfl, rfl, rfl, rfl⟩

/-- A maximum that a number saturates at (R361). -/
theorem min_eq_ite (m : Nat) : min aux m = if aux < m then aux else m := by
  split <;> omega

end

/-- Settles O45: the record is one more fault, and the context that issues is set to that of a free one. -/
theorem takingFault : Obligations.TakingFault := by
  intro s code aux
  obtain ⟨r, heq, hkind, hcode, hpart, hinst, hcid, hw2, hw3, hacts⟩ := takeFault_eq s code aux
  rw [min_eq_ite] at hw3
  simp only [heq]
  have hctx : ((s.addFault r).setCtx Ctx.init).ctx = Ctx.init := State.ctx_setCtx ..
  have hcore : ((s.addFault r).setCtx Ctx.init).core s.cur.1 = State.setCtxOf (s.core s.cur.1) s.cur.2 Ctx.init :=
    State.core_modCore ..
  refine ⟨hctx, by rw [hctx]; rfl, by rw [hctx]; rfl, ⟨r, rfl, hkind, hcode, hpart, hinst, hcid, hw2, hw3, hacts⟩, rfl,
    fun c hc => State.core_modCore_other _ _ _ _ hc, fun h => ?_, fun h => ?_⟩ <;> rw [hcore, State.setCtxOf]
  · rw [if_pos h]
  · rw [if_neg h]

end Sys2Proof.Proofs.TakeFault
end

section
/-! PROOFS. What a read of memory gives behind a write, for the words and slot words that later proofs read back. -/

namespace Sys2Proof.Proofs.Words

open Sys2Proof.Machine

section

variable {s : State} {k n v : Nat}

/-- n bytes read as the value last written to them. -/
theorem readN_writeN_same (hw : memWf s.mem = true) : (s.writeN k n v).readN k n = v % 256 ^ n := memReadN_memWriteN_same n k v hw

/-- A write leaves every byte outside it. -/
theorem byte_writeN_other {j : Nat} (h : j < k ∨ k + n ≤ j) : (s.writeN k n v).byte j = s.byte j := memRead_memWriteN_other n _ _ _ _ h

/-- A write leaves what is read outside it. -/
theorem readN_writeN_other {j m : Nat} (h : j + m ≤ k ∨ k + n ≤ j) : (s.writeN k n v).readN j m = s.readN j m :=
  memReadN_memWriteN_other m _ _ _ _ _ h

/-- A word reads as it was last written. -/
theorem readW_writeW_same {w : Word} (hw : memWf s.mem = true) : (s.writeW k w).readW k = w := by
  have hlt : w.toNat < 256 ^ 8 := w.isLt
  rw [State.readW, State.writeW, readN_writeN_same hw, Nat.mod_eq_of_lt hlt, BitVec.ofNat_toNat, BitVec.setWidth_eq]

theorem memWf_writeW {w : Word} (hw : memWf s.mem = true) : memWf (s.writeW k w).mem = true := memWf_memWriteN 8 _ _ hw

/-- A second write of a word leaves no trace of the first in what may be read past it. -/
theorem olderAt_writeW_other {w : Word} {a : Nat} (h : overlaps a 8 k 8 = false) : (s.writeW k w).olderAt a = s.olderAt a := by
  simp only [State.writeW, State.writeN, State.olderAt, List.filter_filter]
  refine List.filter_congr fun e _ => ?_
  by_cases ha : e.key = a
  · simp [ha, h]
  · simp [ha]

end

/-! ### Slot words (R172) -/

section

variable (p : Nat) (b a : Bool)

theorem mkSlot_toNat (c : Nat) : (mkSlot c p b a).toNat =
    c % 2 ^ 27 + p % 8 * 2 ^ 27 + (if b then 2 ^ 30 else 0) + (if a then 2 ^ 31 else 0) := by
  rw [mkSlot, BitVec.toNat_ofNat]
  apply Nat.mod_eq_of_lt
  cases a <;> cases b <;> simp <;> omega

/-- The priority of a slot word is the one that it was made with. -/
theorem slPrio_mkSlot (c : Nat) : slPrio (mkSlot c p b a) = p % 8 := by
  rw [slPrio, mkSlot_toNat, bits, Nat.shiftRight_eq_div_pow]
  cases a <;> cases b <;> simp <;> omega

/-- The mode of a slot word is the one that it was made with. -/
theorem slByte_mkSlot (c : Nat) : slByte (mkSlot c p b a) = b := by
  rw [slByte, BitVec.getLsbD, mkSlot_toNat, Nat.testBit_eq_decide_div_mod_eq]
  cases a <;> cases b <;> simp <;> omega

/-- A slot word's priority is below 8. -/
theorem slPrio_lt (w : Word) : slPrio w < 8 := Nat.mod_lt _ (by decide)

end

end Sys2Proof.Proofs.Words
end

section
/-! PROOFS. What the signals of one cycle do to a slot (O46, R175, R177, R180, R197). -/

namespace Sys2Proof.Proofs.Signals

open Sys2Proof.Machine Sys2Proof.Proofs.Words

/-- The sum of the values of a cycle's signals that are no fires (R175, R196). -/
def sumOf (w : Word) (sigs : List Sig) : Nat := ((sigs.filter (fun g => !g.fire)).map (fun g => if slByte w then g.bytes else g.val)).sum

/-- V of R175, which a fire raises to the count (R197). -/
def valueOf (w : Word) (sigs : List Sig) : Nat :=
  if (∃ g ∈ sigs, g.fire = true) ∧ sumOf w sigs ≤ slCount w then slCount w else sumOf w sigs

section

variable {s : State} {cid f k key : Nat} {image : Bool} {sigs : List Sig}

/-- What signals do to a slot, by its state and by V. -/
theorem signalSlot_eq (hne : sigs ≠ []) : s.signalSlot cid f k key image sigs =
    let w := s.readW key
    if slArmed w = false then sigs.foldl (fun t g => t.slotFault cid f k 0x11 (g :: sigs.erase g) sigs.length (sumOf w sigs)) s
    else if slCount w < valueOf w sigs then
      (s.writeW key (mkSlot (slCount w) (slPrio w) (slByte w) false)).slotFault cid f k 0x10 sigs sigs.length (valueOf w sigs)
    else if valueOf w sigs = slCount w then (s.writeW key (mkSlot 0 (slPrio w) (slByte w) true)).reachZero cid f k key image
    else s.writeW key (mkSlot (slCount w - valueOf w sigs) (slPrio w) (slByte w) true) := by
  have hsum : ((sigs.filter (fun g => !g.fire)).map (State.sigValOf (slByte (s.readW key)))).sum = sumOf (s.readW key) sigs := rfl
  have hval (w : Word) : (if sigs.any (·.fire) = true ∧ sumOf w sigs ≤ slCount w then slCount w else sumOf w sigs) = valueOf w sigs :=
    if_congr (by rw [List.any_eq_true]) rfl rfl
  have hempty : sigs.isEmpty = false := by simpa using hne
  simp only [State.signalSlot, hsum, hval, hempty, Bool.false_eq_true, if_false]

section Armed

variable (hne : sigs ≠ []) (harm : slArmed (s.readW key) = true)

include hne harm

/-- V below the count lowers it (R175). -/
theorem signalSlot_below (hV : valueOf (s.readW key) sigs < slCount (s.readW key)) : s.signalSlot cid f k key image sigs =
    s.writeW key (mkSlot (slCount (s.readW key) - valueOf (s.readW key) sigs) (slPrio (s.readW key)) (slByte (s.readW key)) true) := by
  rw [signalSlot_eq hne]
  dsimp only
  rw [if_neg (by simp [harm]), if_neg hV.not_gt, if_neg hV.ne]

/-- V equal to the count brings the slot to zero (R180). -/
theorem signalSlot_zero (hV : valueOf (s.readW key) sigs = slCount (s.readW key)) : s.signalSlot cid f k key image sigs =
    (s.writeW key (mkSlot 0 (slPrio (s.readW key)) (slByte (s.readW key)) true)).reachZero cid f k key image := by
  rw [signalSlot_eq hne]
  dsimp only
  rw [if_neg (by simp [harm]), if_neg hV.not_gt, if_pos hV]

/-- V above the count disarms the slot with a fault (R176). -/
theorem signalSlot_above (hV : slCount (s.readW key) < valueOf (s.readW key) sigs) : s.signalSlot cid f k key image sigs =
    (s.writeW key (mkSlot (slCount (s.readW key)) (slPrio (s.readW key)) (slByte (s.readW key)) false)).slotFault cid f k 0x10 sigs sigs.length
      (valueOf (s.readW key) sigs) := by
  rw [signalSlot_eq hne]
  dsimp only
  rw [if_neg (by simp [harm]), if_pos hV]

end Armed

/-- Signals to a slot that is not armed are faults, one for each (R176). -/
theorem signalSlot_idle (hne : sigs ≠ []) (hidle : slArmed (s.readW key) = false) : s.signalSlot cid f k key image sigs =
    sigs.foldl (fun t g => t.slotFault cid f k 0x11 (g :: sigs.erase g) sigs.length (sumOf (s.readW key) sigs)) s := by
  rw [signalSlot_eq hne]
  exact if_pos hidle

variable {prio : Nat} {byteMode : Bool}

/-- A slot that comes to zero disarms where its instance is being ended, stays as it is where its mark is set, and else disarms and is
queued (R180, R299). -/
theorem reachZero_eq (hw : memWf s.mem = true) :
    (s.writeW key (mkSlot 0 prio byteMode true)).reachZero cid f k key image =
      let off := (s.writeW key (mkSlot 0 prio byteMode true)).writeW key (mkSlot 0 prio byteMode false)
      if s.stopping (s.ownerOf cid f) = true then off
      else if (s.core cid).marks.contains (8 * f + k) = true then s.writeW key (mkSlot 0 prio byteMode true)
      else off.enqueue cid f k (prio % 8) image := by
  unfold State.reachZero
  rw [readW_writeW_same hw]
  have hoff : mkSlot 0 (prio % 8) byteMode false = mkSlot 0 prio byteMode false := by simp only [mkSlot, Nat.mod_mod]
  simp only [slPrio_mkSlot, slByte_mkSlot, hoff]
  rfl

/-- A slot whose mark is set is left as it is (R180). -/
theorem reachZero_marked (hstop : s.stopping (s.ownerOf cid f) = false) (hmark : (s.core cid).marks.contains (8 * f + k) = true) :
    s.reachZero cid f k key image = s := by
  unfold State.reachZero
  simp only [hstop, hmark, Bool.false_eq_true, if_false, if_true]

/-- The entry of a slot that is queued stands behind those of its list, under its mark (R177, R185). -/
theorem enqueue_core (s : State) (cid f k level : Nat) (image : Bool) :
    8 * f + k ∈ ((s.enqueue cid f k level image).core cid).marks ∧
    (image = false → ((s.enqueue cid f k level image).core cid).ready = (s.core cid).ready ++ [{ level := level, f := f, slot := k }] ∧
      ((s.enqueue cid f k level image).core cid).fill = (s.core cid).fill) ∧
    (image = true → ((s.enqueue cid f k level image).core cid).fill = (s.core cid).fill ++ [{ level := level, f := f, slot := k }] ∧
      ((s.enqueue cid f k level image).core cid).ready = (s.core cid).ready) := by
  have hcore : (s.hand (.slot cid f k) (.entry cid f k)).core cid = s.core cid := rfl
  cases image <;> simp [State.enqueue, hcore]

/-- A slot that is queued leaves memory. -/
theorem enqueue_readW (s : State) (cid f k level : Nat) (image : Bool) (a : Nat) : (s.enqueue cid f k level image).readW a = s.readW a := rfl

/-- Older values are handed over without regard to their place. -/
theorem hand_olderAt_congr {t u : State} {a : Nat} (x y : Party) (h : t.olderAt a = u.olderAt a) : (t.hand x y).olderAt a = (u.hand x y).olderAt a := by
  have hand_filter : ∀ v : State, (v.hand x y).olderAt a =
      (v.olderAt a).map (fun e => { e with bound := (e.bound.filter (· != y)).map (fun z => if z = x then y else z) }) := fun v => by
    simp only [State.hand, State.olderAt, List.filter_map]
    rfl
  rw [hand_filter, hand_filter, h]

/-- The records of faults at a slot add to the list and change nothing else. -/
theorem foldl_slotFault (code : Code) (h : Sig → List Sig) (n v : Nat) : ∀ (l : List Sig) (s : State), ∃ rs,
    l.foldl (fun t g => t.slotFault cid f k code (h g) n v) s = { s with faults := s.faults ++ rs } ∧ rs.length = l.length ∧
      ∀ r ∈ rs, r.kind = 2 ∧ r.code = code ∧ r.inst = s.ownerOf cid f ∧ r.w2 = BitVec.ofNat 64 (mkSref cid f k)
  | [], s => ⟨[], by rw [List.append_nil]; rfl, rfl, nofun⟩
  | g :: l, s => by
    obtain ⟨rs, heq, hlen, hrs⟩ := foldl_slotFault code h n v l (s.slotFault cid f k code (h g) n v)
    obtain ⟨r, hr, hkind⟩ : ∃ r, s.slotFault cid f k code (h g) n v = s.addFault r ∧
        r.kind = 2 ∧ r.code = code ∧ r.inst = s.ownerOf cid f ∧ r.w2 = BitVec.ofNat 64 (mkSref cid f k) := ⟨_, rfl, rfl, rfl, rfl, rfl⟩
    rw [hr] at heq hrs
    refine ⟨r :: rs, ?_, by rw [List.length_cons, hlen, List.length_cons], ?_⟩
    · rw [List.foldl_cons, hr, heq]
      simp [State.addFault]
    · rintro x (_ | ⟨_, hx⟩)
      · exact hkind
      · exact hrs x hx

end

/-- Settles O46: one clause for each state of the slot and of V. -/
theorem slotSignals : Obligations.SlotSignals := by
  intro s cid f k key image sigs hne w W V put
  have hprio : slPrio w % 8 = slPrio w := Nat.mod_eq_of_lt (slPrio_lt w)
  refine ⟨fun harm hlt => signalSlot_below hne harm hlt, fun hwf harm heq hstop hmark => ?_, fun harm heq hstop hmark => ?_,
    fun hwf harm heq hstop => ?_, fun harm hgt => ?_, fun hidle => ?_⟩
  · obtain ⟨hmarks, hready, hfill⟩ := enqueue_core ((put 0 true).writeW key (mkSlot 0 (slPrio w) (slByte w) false)) cid f k (slPrio w) image
    have hcore : ((put 0 true).writeW key (mkSlot 0 (slPrio w) (slByte w) false)).core cid = s.core cid := rfl
    rw [hcore] at hready hfill
    refine ⟨_, rfl, ?_⟩
    rw [signalSlot_zero hne harm heq, reachZero_eq hwf]
    dsimp only
    rw [if_neg (by simp [hstop]), if_neg (by simpa using hmark), hprio]
    refine ⟨?_, hmarks, hready, hfill, rfl, fun a ha => hand_olderAt_congr _ _ ?_⟩
    · rw [enqueue_readW, readW_writeW_same (memWf_writeW hwf)]
    · rw [olderAt_writeW_other ha, olderAt_writeW_other ha]
  · exact (signalSlot_zero hne harm heq).trans (reachZero_marked (s := put 0 true) hstop hmark)
  · refine ⟨_, rfl, ?_⟩
    rw [signalSlot_zero hne harm heq, reachZero_eq hwf]
    dsimp only
    rw [if_pos hstop]
    exact ⟨readW_writeW_same (memWf_writeW hwf), by simp, by simp, by simp, fun a ha => (byte_writeN_other ha).trans (byte_writeN_other ha)⟩
  · exact ⟨_, signalSlot_above hne harm hgt, rfl, rfl, rfl, rfl⟩
  · obtain ⟨rs, heq, hlen, hrs⟩ := foldl_slotFault (cid := cid) (f := f) (k := k) 0x11 (fun g => g :: sigs.erase g) sigs.length
      (sumOf w sigs) sigs s
    exact ⟨rs, (signalSlot_idle hne hidle).trans heq, hlen, hrs⟩

end Sys2Proof.Proofs.Signals
end

section
/-! PROOFS. A change of the issuing context reaches nothing else, and a write of lanes changes exactly the lanes that it names. -/

namespace Sys2Proof.Proofs.Lanes

open Sys2Proof.Machine

/-! ### The issuing context -/

/-- A context of a core keeps when the other is set. -/
theorem ctxOf_setCtxOf_other (c : Core) {x y : Nat} (k : Ctx) (h : (y = 0) ≠ (x = 0)) : State.ctxOf (State.setCtxOf c x k) y = State.ctxOf c y := by
  unfold State.ctxOf State.setCtxOf
  split <;> split <;> simp_all

/-- A core with a context set differs in its contexts. -/
theorem setCtxOf_eq (c : Core) (x : Nat) (k : Ctx) :
    State.setCtxOf c x k = { c with ctx0 := (State.setCtxOf c x k).ctx0, ctx1 := (State.setCtxOf c x k).ctx1 } := by
  unfold State.setCtxOf
  split <;> rfl

/-- The number of the core's other context. -/
theorem other_ctx_ne (x : Nat) : ((if x = 0 then 1 else 0) = 0) ≠ (x = 0) := by
  split <;> simp_all

/-- A change of the issuing context leaves the rest of the machine (R37). -/
theorem onlyCtx_modCtx (s : State) (g : Ctx → Ctx) : Claims.onlyCtx s (s.modCtx g) := by
  have hcore : (s.modCtx g).core s.cur.1 = State.setCtxOf (s.core s.cur.1) s.cur.2 (g s.ctx) := State.core_modCore ..
  refine ⟨?_, ?_, fun k hk => State.core_modCore_other _ _ _ _ hk, rfl⟩ <;> rw [hcore]
  · exact ctxOf_setCtxOf_other _ _ (other_ctx_ne _)
  · exact setCtxOf_eq ..

/-! ### Lanes -/

section Fold

variable {α : Type} (d : α) (base : Nat) (h : Nat → Option α)

/-- A lane written or left: the entry at base + i takes what h gives it. -/
def putLane (t : Tbl α) (i : Nat) : Tbl α := match h i with | some l => t.set (base + i) l | none => t

theorem get_putLane (t : Tbl α) (i j : Nat) :
    (putLane base h t i).get d (base + j) = if i = j then (h j).getD (t.get d (base + j)) else t.get d (base + j) := by
  unfold putLane
  split
  · next l hl =>
    split
    · next hij =>
      subst hij
      rw [hl, Tbl.get_set_same]
      rfl
    · next hij => exact Tbl.get_set_other _ _ _ _ _ (by omega)
  · next hl =>
    split
    · next hij =>
      subst hij
      rw [hl]
      rfl
    · rfl

theorem get_putLane_outside (t : Tbl α) (i : Nat) {j : Nat} (hj : j ≠ base + i) : (putLane base h t i).get d j = t.get d j := by
  unfold putLane
  split
  · exact Tbl.get_set_other _ _ _ _ _ hj
  · rfl

/-- Each lane of a list takes what h gives it. -/
theorem get_foldl_putLane (j : Nat) : ∀ (l : List Nat) (t : Tbl α),
    (l.foldl (putLane base h) t).get d (base + j) = if j ∈ l then (h j).getD (t.get d (base + j)) else t.get d (base + j)
  | [], t => rfl
  | i :: l, t => by
    rw [List.foldl_cons, get_foldl_putLane j l, get_putLane]
    by_cases hij : i = j
    · subst hij
      cases h i <;> simp
    · simp [hij, Ne.symm hij]

/-- What is none of the lanes keeps. -/
theorem get_foldl_putLane_outside {j : Nat} : ∀ (l : List Nat) (t : Tbl α), (∀ i ∈ l, j ≠ base + i) →
    (l.foldl (putLane base h) t).get d j = t.get d j
  | [], _, _ => rfl
  | i :: l, t, hj => by
    rw [List.foldl_cons, get_foldl_putLane_outside l _ (fun x hx => hj x (List.mem_cons_of_mem _ hx)),
      get_putLane_outside _ _ _ _ _ (hj i List.mem_cons_self)]

end Fold

section Write

variable (s : State) (d : BitVec 6)

/-- A write of vector lanes is a change of the issuing context's vector registers. -/
theorem setLanes_eq (h : Nat → Option Lane) : s.setLanes d h =
    s.modCtx (fun k => { k with v := (List.range 32).foldl (putLane (32 * d.toNat) h) s.ctx.v }) := by
  have hfold : (s.setLanes d h).ctx.v = (List.range 32).foldl (putLane (32 * d.toNat) h) s.ctx.v := by
    rw [State.setLanes, State.ctx_modCtx]
    exact List.foldl_ext _ _ _ fun t i _ => by unfold putLane; cases h i <;> rfl
  rw [← hfold, State.setLanes, State.ctx_modCtx]

theorem setSpools_eq (h : Nat → Option Spool) : s.setSpools d h =
    s.modCtx (fun k => { k with w := (List.range 32).foldl (putLane (32 * d.toNat) h) s.ctx.w }) := by
  have hfold : (s.setSpools d h).ctx.w = (List.range 32).foldl (putLane (32 * d.toNat) h) s.ctx.w := by
    rw [State.setSpools, State.ctx_modCtx]
    exact List.foldl_ext _ _ _ fun t i _ => by unfold putLane; cases h i <;> rfl
  rw [← hfold, State.setSpools, State.ctx_modCtx]

/-- A lane reads as it was written, or as before (R48). -/
theorem readV_setLanes (h : Nat → Option Lane) {i : Nat} (hi : i < 32) : (s.setLanes d h).readV d i = (h i).getD (s.readV d i) := by
  rw [setLanes_eq, State.readV, State.ctx_modCtx]
  exact (get_foldl_putLane ..).trans (if_pos (List.mem_range.2 hi))

/-- A write of lanes leaves every other vector register. -/
theorem readV_setLanes_other (h : Nat → Option Lane) {r : BitVec 6} (hr : r ≠ d) {i : Nat} (hi : i < 32) :
    (s.setLanes d h).readV r i = s.readV r i := by
  have hne : r.toNat ≠ d.toNat := fun he => hr (BitVec.eq_of_toNat_eq he)
  rw [setLanes_eq, State.readV, State.ctx_modCtx]
  refine get_foldl_putLane_outside _ _ _ _ _ fun x hx => ?_
  have := List.mem_range.1 hx
  omega

theorem setLanes_ctx (h : Nat → Option Lane) : (s.setLanes d h).ctx = { s.ctx with v := (s.setLanes d h).ctx.v } := by
  rw [setLanes_eq, State.ctx_modCtx]

end Write

end Sys2Proof.Proofs.Lanes
end

section
/-! PROOFS. An elementwise write changes exactly the lanes that it acts on (O27, R48, R50, R131). -/

namespace Sys2Proof.Proofs.Elementwise

open Sys2Proof.Machine Sys2Proof.Proofs.Lanes

/-- A lane is acted on below the grant, where the lane mask admits it (R48). -/
theorem laneOn_iff (s : State) (km i : Nat) : s.laneOn km i = true ↔ i < s.ctx.grant ∧ (s.readK km).getLsbD i = true := by
  simp [State.laneOn]

/-- Settles O27: an elementwise write is a write of the lanes acted on. -/
theorem elementwiseLanes : Obligations.ElementwiseLanes := by
  intro f srcs h s t
  refine ⟨fun i hi hgrant hmask => ?_, fun i hi hout => ?_, fun r i hr hi => readV_setLanes_other s f.d _ hr hi, setLanes_ctx s f.d _,
    onlyCtx_modCtx s _⟩
  · have hon : s.laneOn f.km i = true := (laneOn_iff s f.km i).2 ⟨hgrant, hmask⟩
    refine (readV_setLanes s f.d _ hi).trans ?_
    rw [if_pos hon, State.tagged]
    split <;> rfl
  · have hoff : ¬(s.laneOn f.km i = true) := fun hon => by
      obtain ⟨hgrant, hmask⟩ := (laneOn_iff s f.km i).1 hon
      rcases hout with hle | hclear
      · omega
      · simp [hclear] at hmask
    refine (readV_setLanes s f.d _ hi).trans ?_
    rw [if_neg hoff]
    rfl

end Sys2Proof.Proofs.Elementwise
end

section
/-! PROOFS. Core loads and stores (R222): one body for the three forms of each, what it answers where it completes and where it faults. -/

namespace Sys2Proof.Proofs.LoadStore

open Sys2Proof.Machine Sys2Proof.Proofs.Words

/-! ### The forms (R80, R84, R221) -/

/-- What a load of z bytes at a + off does (R222). -/
def loadBody (a d : BitVec 6) (off : Word) (z : Nat) (u : Bool) (s0 : State) : Except Code State := do
  let (x, s) ← s0.readS a
  let v ← s.loadCore (x + off) z u
  (s.loaded (x + off) z).writeS d v

/-- What a store of z bytes at a + off does (R222). -/
def storeBody (a d : BitVec 6) (off : Word) (z : Nat) (s0 : State) : Except Code State := do
  let (x, s1) ← s0.readS a
  let (v, s) ← s1.readS d
  s.storeCore (x + off) z v

/-- An immediate is its signed value (R84). -/
theorem imm_eq (f : WForm) : f.imm = BitVec.ofInt 64 f.sub.toInt := rfl
theorem imm_eq_x (f : XForm) : f.imm = BitVec.ofInt 64 f.lit.toInt := rfl

/-- The bytes of a width code are a power of two (R221). -/
theorem widthBytes_eq (c : BitVec 6) : widthBytes (c.toNat % 4) = Claims.bytesOf c := Nat.shiftRight_eq_div_pow 8 _

section Forms

variable (s : State)

theorem exec_ld_eq (f : WForm) : exec (.ld f) s =
    issue 8 f.guard s (loadBody f.a f.d (BitVec.ofInt 64 f.sub.toInt) (Claims.bytesOf f.c) (f.c.getLsbD 2)) := by
  rw [← widthBytes_eq]
  rfl
theorem exec_ldX_eq (f : XForm) : exec (.ldX f) s =
    issue 12 f.guard s (loadBody f.a f.d (BitVec.ofInt 64 f.lit.toInt) (Claims.bytesOf f.c) (f.c.getLsbD 2)) := by
  rw [← widthBytes_eq]
  rfl
theorem exec_ldC_eq (f : CForm) : exec (.ldC f) s = issue 4 0 s (loadBody f.a f.d (BitVec.ofNat 64 (8 * f.b.toNat)) 8 false) := rfl
theorem exec_st_eq (f : WForm) : exec (.st f) s =
    issue 8 f.guard s (storeBody f.a f.d (BitVec.ofInt 64 f.sub.toInt) (Claims.bytesOf f.c)) := by
  rw [← widthBytes_eq]
  rfl
theorem exec_stX_eq (f : XForm) : exec (.stX f) s =
    issue 12 f.guard s (storeBody f.a f.d (BitVec.ofInt 64 f.lit.toInt) (Claims.bytesOf f.c)) := by
  rw [← widthBytes_eq]
  rfl
theorem exec_stC_eq (f : CForm) : exec (.stC f) s = issue 4 0 s (storeBody f.a f.d (BitVec.ofNat 64 (8 * f.b.toNat)) 8) := rfl

end Forms

/-! ### Where they complete -/

theorem bytesOf_pos (c : BitVec 6) : 0 < Claims.bytesOf c := by
  have hlt : c.toNat % 4 < 4 := Nat.mod_lt _ (by decide)
  unfold Claims.bytesOf
  interval_cases c.toNat % 4 <;> decide

theorem bytesOf_le (c : BitVec 6) : Claims.bytesOf c ≤ 8 := Nat.div_le_self ..

/-- The two readings of an extension agree (R222). -/
theorem extend_eq {z : Nat} (hz : 0 < z) (u : Bool) (v : Nat) : extend z u v = Claims.extended z u v := by
  have hhalf : 2 * v < 2 ^ (8 * z) ↔ v < 2 ^ (8 * z - 1) := by
    rw [show 8 * z = 8 * z - 1 + 1 by omega, Nat.pow_succ, Nat.add_sub_cancel]
    omega
  unfold extend Claims.extended Claims.signed
  simp only [hhalf]
  split
  · rfl
  · split
    · exact (BitVec.ofInt_natCast ..).symm
    · rfl

section Complete

variable {s s1 : State} {a d : BitVec 6} {off w : Word} {z : Nat}

/-- Reading a scalar register leaves which core issues, and memory. -/
theorem readS_cur (h : s.readS a = .ok (w, s1)) : s1.cur = s.cur := (own_readS h (OnCore.refl s)).cur
theorem readS_mem (h : s.readS a = .ok (w, s1)) : s1.mem = s.mem := (own_readS h (OnCore.refl s)).mem
theorem countIssue_mem (s : State) (len : Nat) : (s.countIssue len).mem = s.mem := (own_countIssue len (OnCore.refl s)).mem

/-- A load of clean bytes at an aligned address inside the scratchpad writes them to d (R222). -/
theorem loadBody_ok {u : Bool} {t : State} (hz : 0 < z) (hread : s.readS a = .ok (w, s1)) (hin : Claims.inCore (w + off) z)
    (hclean : s1.poisoned (coreKey s.cur.1 (w + off).toNat) z = false)
    (hwrite : (s1.saw s1.pipeReader (coreKey s.cur.1 (w + off).toNat) z).writeS d
      (Claims.extended z u (s1.seenN s1.pipeReader (coreKey s.cur.1 (w + off).toNat) z)) = .ok t) : loadBody a d off z u s = .ok t := by
  obtain ⟨halign, hinside⟩ := hin
  rw [← readS_cur hread] at hclean hwrite
  rw [loadBody, hread, ok_bind]
  simp only [State.loadCore, halign, hinside, hclean, decide_true, Bool.not_false, need_true, ok_bind, extend_eq hz]
  exact hwrite

/-- A store at an aligned address inside the scratchpad and off the slot words stores the low bytes of d (R173, R222). -/
theorem storeBody_ok {s2 : State} {v : Word} (hread : s.readS a = .ok (w, s1)) (hsource : s1.readS d = .ok (v, s2))
    (hin : Claims.inCore (w + off) z) (hslots : s2.hitsSlots s.cur.1 (w + off).toNat z = false) :
    storeBody a d off z s = .ok (s2.storeN s2.pipeWriter (coreKey s.cur.1 (w + off).toNat) z (v.toNat % 2 ^ (8 * z))) := by
  obtain ⟨halign, hinside⟩ := hin
  have hcur : s2.cur = s.cur := (readS_cur hsource).trans (readS_cur hread)
  rw [← hcur] at hslots ⊢
  rw [storeBody, hread, ok_bind]
  dsimp only
  rw [hsource, ok_bind]
  simp only [State.storeCore, halign, hinside, hslots, decide_true, Bool.not_false, need_true, ok_bind]
  rfl

end Complete

/-- A load in any of its forms completes where its body does. -/
theorem loadDone {i : Instr} {len : Nat} {g : BitVec 4} {a d : BitVec 6} {off : Word} {z : Nat} {u : Bool} {s : State} (hz : 0 < z)
    (hexec : exec i s = issue len g s (loadBody a d off z u)) (hguard : guardHolds g s.ctx = true) :
    Claims.LoadDone s (s.countIssue len) a d off z u i := by
  intro w s1 t hread hin hclean hwrite
  rw [hexec]
  exact issue_ok hguard (loadBody_ok hz hread hin hclean hwrite)

/-- A store in any of its forms completes where its body does, and changes the bytes stored alone (R222, R246, R249). -/
theorem storeDone {i : Instr} {len : Nat} {g : BitVec 4} {a d : BitVec 6} {off : Word} {z : Nat} {s : State} (hz : z ≤ 8)
    (hexec : exec i s = issue len g s (storeBody a d off z)) (hguard : guardHolds g s.ctx = true) :
    Claims.StoreDone s (s.countIssue len) a d off z i := by
  intro hwf w v s1 s2 hread hsource hin hslots
  have hmem : s2.mem = s.mem := ((readS_mem hsource).trans (readS_mem hread)).trans (countIssue_mem s len)
  have hlow : v.toNat % 2 ^ (8 * z) < 256 ^ z := by
    rw [show 256 ^ z = 2 ^ (8 * z) by rw [Nat.pow_mul]]
    exact Nat.mod_lt _ (Nat.two_pow_pos _)
  refine ⟨_, hexec.trans (issue_ok hguard (storeBody_ok hread hsource hin hslots)), ?_, fun k hk => ?_,
    fun p hp => List.mem_of_mem_filter hp, fun p hp hgone => ?_, rfl⟩
  · exact (readN_writeN_same (by rw [hmem]; exact hwf)).trans (Nat.mod_eq_of_lt hlow)
  · exact (byte_writeN_other hk).trans (by rw [State.byte, hmem]; rfl)
  · have hwhole : ¬(p ∈ List.filter _ s2.poison) := hgone
    simp only [List.mem_filter, hp, true_and, Bool.not_eq_true', Bool.not_eq_false, Bool.and_eq_true, decide_eq_true_eq] at hwhole
    omega

/-- Settles O36: one load body in three forms. -/
theorem loads : Obligations.Loads :=
  ⟨fun f s hguard => loadDone (bytesOf_pos f.c) (exec_ld_eq s f) hguard, fun f s hguard => loadDone (bytesOf_pos f.c) (exec_ldX_eq s f) hguard,
    fun f s => loadDone (by decide) (exec_ldC_eq s f) (guardHolds_zero _)⟩

/-- Settles O37: one store body in three forms. -/
theorem stores : Obligations.Stores :=
  ⟨fun f s hguard => storeDone (bytesOf_le f.c) (exec_st_eq s f) hguard, fun f s hguard => storeDone (bytesOf_le f.c) (exec_stX_eq s f) hguard,
    fun f s => storeDone (by decide) (exec_stC_eq s f) (guardHolds_zero _)⟩

/-! ### Where they fault -/

section Faults

variable {s s1 : State} {a d : BitVec 6} {off w : Word} {z : Nat}

/-- A load that is not aligned, is outside the scratchpad or meets poison (R222). -/
theorem loadBody_error (u : Bool) (hread : s.readS a = .ok (w, s1)) :
    ((w + off).toNat % z ≠ 0 → loadBody a d off z u s = .error 0x03) ∧
    ((w + off).toNat % z = 0 → 0x20000 < (w + off).toNat + z → loadBody a d off z u s = .error 0x04) ∧
    (Claims.inCore (w + off) z → s1.poisoned (coreKey s.cur.1 (w + off).toNat) z = true → loadBody a d off z u s = .error 0x21) := by
  rw [← readS_cur hread, loadBody, hread, ok_bind]
  refine ⟨fun halign => ?_, fun halign hout => ?_, fun ⟨halign, hinside⟩ hpoison => ?_⟩
  · simp only [State.loadCore, halign, decide_false, need_false, error_bind]
  · simp only [State.loadCore, halign, hout.not_ge, decide_true, decide_false, need_true, need_false, ok_bind, error_bind]
  · simp only [State.loadCore, halign, hinside, hpoison, decide_true, Bool.not_true, need_true, need_false, ok_bind, error_bind]

/-- A store that is not aligned, is outside the scratchpad or meets a slot word (R173, R222). -/
theorem storeBody_error {s2 : State} {v : Word} (hread : s.readS a = .ok (w, s1)) (hsource : s1.readS d = .ok (v, s2)) :
    ((w + off).toNat % z ≠ 0 → storeBody a d off z s = .error 0x03) ∧
    ((w + off).toNat % z = 0 → 0x20000 < (w + off).toNat + z → storeBody a d off z s = .error 0x04) ∧
    (Claims.inCore (w + off) z → s2.hitsSlots s.cur.1 (w + off).toNat z = true → storeBody a d off z s = .error 0x04) := by
  have hbody : storeBody a d off z s = s2.storeCore (w + off) z v := by
    rw [storeBody, hread, ok_bind]
    dsimp only
    rw [hsource, ok_bind]
  rw [← (readS_cur hsource).trans (readS_cur hread), hbody]
  refine ⟨fun halign => ?_, fun halign hout => ?_, fun ⟨halign, hinside⟩ hslots => ?_⟩
  · simp only [State.storeCore, halign, decide_false, need_false, error_bind]
  · simp only [State.storeCore, halign, hout.not_ge, decide_true, decide_false, need_true, need_false, ok_bind, error_bind]
  · simp only [State.storeCore, halign, hinside, hslots, decide_true, Bool.not_true, need_true, need_false, ok_bind, error_bind]

end Faults

section

variable {i : Instr} {len : Nat} {g : BitVec 4} {a d : BitVec 6} {off : Word} {z : Nat} {s : State}

/-- A load in any of its forms faults where its body does (R40). -/
theorem loadFaults {u : Bool} (hexec : exec i s = issue len g s (loadBody a d off z u)) (hguard : guardHolds g s.ctx = true) :
    Claims.LoadFaults s (s.countIssue len) a off z i := by
  intro w s1 hread
  obtain ⟨halign, hout, hpoison⟩ := loadBody_error (d := d) (off := off) (z := z) u hread
  rw [hexec]
  exact ⟨fun h => issue_error hguard (halign h), fun h h' => issue_error hguard (hout h h'), fun h h' => issue_error hguard (hpoison h h')⟩

/-- A store in any of its forms faults where its body does (R40). -/
theorem storeFaults (hexec : exec i s = issue len g s (storeBody a d off z)) (hguard : guardHolds g s.ctx = true) :
    Claims.StoreFaults s (s.countIssue len) a d off z i := by
  intro w v s1 s2 hread hsource
  obtain ⟨halign, hout, hslots⟩ := storeBody_error (off := off) (z := z) hread hsource
  rw [hexec]
  exact ⟨fun h => issue_error hguard (halign h), fun h h' => issue_error hguard (hout h h'), fun h h' => issue_error hguard (hslots h h')⟩

end

/-- Settles O38: the faults of the bodies, in three forms each. -/
theorem loadStoreFaults : Obligations.LoadStoreFaults :=
  ⟨fun f s hguard => ⟨loadFaults (exec_ld_eq s f) hguard, storeFaults (exec_st_eq s f) hguard⟩,
    fun f s hguard => ⟨loadFaults (exec_ldX_eq s f) hguard, storeFaults (exec_stX_eq s f) hguard⟩,
    fun f s => ⟨loadFaults (exec_ldC_eq s f) (guardHolds_zero _), storeFaults (exec_stC_eq s f) (guardHolds_zero _)⟩⟩

end Sys2Proof.Proofs.LoadStore
end

section
/-! PROOFS. Vector loads and stores (O31, R145): which lanes take part with which addresses, and what their reads and writes leave. -/

namespace Sys2Proof.Proofs.VectorMemory

open Sys2Proof.Machine Sys2Proof.Proofs.Words Sys2Proof.Proofs.Lanes

/-! ### The lanes that take part (R145) -/

/-- The test of a lane that takes part. -/
def part (s : State) (f : WForm) (kind : Nat) (store : Bool) (i : Nat) : Bool :=
  s.laneOn f.c.toNat i && !(kind == 2 && (s.readV f.b i).tag) && !(store && (s.readV f.d i).tag)

/-- The lanes that take part, in rising order. -/
def lanes (s : State) (f : WForm) (kind : Nat) (store : Bool) : List Nat := (List.range 32).filter (part s f kind store)

section

variable (s : State) (f : WForm) (kind : Nat) (store : Bool) (base b : Word)

theorem mem_lanes {i : Nat} : i ∈ lanes s f kind store ↔ Claims.takesPart s f kind store i := by
  simp [lanes, part, Claims.takesPart, and_assoc]
  grind

theorem lanes_sorted : (lanes s f kind store).Pairwise (· < ·) := List.pairwise_lt_range.filter _

theorem vecAddrs_eq : s.vecAddrs f kind store base b = (lanes s f kind store).map (fun i => (i, Claims.laneAddr s f kind base b i)) := by
  unfold State.vecAddrs lanes
  refine List.map_congr_left fun i _ => ?_
  unfold Claims.laneAddr
  match kind with
  | 0 => rfl
  | 1 => rfl
  | _ + 2 => simp

end

/-! ### The checks (R145) -/

/-- The checks pass where every address is aligned and inside the scratchpad. -/
theorem vecCheck_ok {l : List (Nat × Word)} (h : ∀ x ∈ l, Claims.inCore x.2 4) : State.vecCheck l = .ok () := by
  have halign : l.all (fun x => decide (x.2.toNat % 4 = 0)) = true := List.all_eq_true.2 fun x hx => decide_eq_true (h x hx).1
  have hinside : l.all (fun x => decide (x.2.toNat + 4 ≤ 0x20000)) = true := List.all_eq_true.2 fun x hx => decide_eq_true (h x hx).2
  rw [State.vecCheck, halign, hinside]
  rfl

/-- Where a firing holds lanes, the check of R129 passes. -/
theorem needGrant_ok {s : State} (h : s.ctx.grant ≠ 0) : s.needGrant = .ok () := by
  rw [State.needGrant, bne_iff_ne.2 h]
  rfl

/-! ### Loads -/

/-- Reads leave all but what may be read past them (R250). -/
theorem foldl_saw {α : Type} (r : Reader) (key : α → Nat) : ∀ (l : List α) (s : State), ∃ o,
    l.foldl (fun (t : State) x => t.saw r (key x) 4) s = { s with older := o }
  | [], s => ⟨s.older, rfl⟩
  | x :: l, s => by
    obtain ⟨o, ho⟩ := foldl_saw r key l (s.saw r (key x) 4)
    exact ⟨o, ho⟩

/-- The conflicts of banks are counted at the core, which leaves the context (R146). -/
theorem ctx_countBanks (s : State) (l : List (Nat × Word)) : (s.countBanks l).ctx = s.ctx := by
  unfold State.countBanks State.ctx
  rw [State.modCur_cur, State.core_modCur]
  unfold State.ctxOf
  split <;> rfl

/-- The entry of a lane in a list of lanes. -/
theorem find_lane {α : Type} (g : Nat → α) (i : Nat) : ∀ l : List Nat,
    (l.map (fun j => (j, g j))).find? (fun x => x.1 == i) = if i ∈ l then some (i, g i) else none
  | [] => rfl
  | j :: l => by
    rw [List.map_cons, List.find?_cons]
    by_cases hij : j = i
    · subst hij
      simp
    · rw [beq_false_of_ne hij, find_lane g i l]
      simp [Ne.symm hij]

/-- What a load gives a lane that takes part (R145, R246). -/
def loadedLane (s : State) (f : WForm) (kind : Nat) (base b : Word) (i : Nat) : Option Lane :=
  if i ∈ lanes s f kind false then
    State.full (BitVec.ofNat 32 (s.seenN s.pipeReader (coreKey s.cur.1 (Claims.laneAddr s f kind base b i).toNat) 4))
  else none

section Bodies

variable {kind : Nat} {f : WForm} {imm a b : Word} {s s1 s2 : State}

variable (hgrant : s.ctx.grant ≠ 0) (hread : s.readS f.a = .ok (a, s1)) (hstride : Claims.stride s1 f kind = .ok (b, s2))

include hgrant hread hstride

/-- What the body of a vector load answers: the lanes that take part are loaded (R145). -/
theorem vloadOp_ok (hlanes : ∀ i, Claims.takesPart s2 f kind false i → Claims.inCore (Claims.laneAddr s2 f kind (a + imm) b i) 4 ∧
      s2.poisoned (coreKey s2.cur.1 (Claims.laneAddr s2 f kind (a + imm) b i).toNat) 4 = false) :
    ∃ o l, State.vloadOp kind f imm s =
      .ok ((({ s2 with older := o } : State).setLanes f.d (loadedLane s2 f kind (a + imm) b)).countBanks l) := by
  have hcheck : State.vecCheck (s2.vecAddrs f kind false (a + imm) b) = .ok () := vecCheck_ok fun x hx => by
    rw [vecAddrs_eq, List.mem_map] at hx
    obtain ⟨i, hi, rfl⟩ := hx
    exact (hlanes i ((mem_lanes s2 f kind false).1 hi)).1
  have hclean : (s2.vecAddrs f kind false (a + imm) b).all (fun x => !(s2.poisoned (coreKey s2.cur.1 x.2.toNat) 4)) = true :=
    List.all_eq_true.2 fun x hx => by
      rw [vecAddrs_eq, List.mem_map] at hx
      obtain ⟨i, hi, rfl⟩ := hx
      rw [(hlanes i ((mem_lanes s2 f kind false).1 hi)).2]
      rfl
  have hfind (i : Nat) : (s2.vecAddrs f kind false (a + imm) b).find? (fun x => x.1 == i) =
      if i ∈ lanes s2 f kind false then some (i, Claims.laneAddr s2 f kind (a + imm) b i) else none := by
    rw [vecAddrs_eq]
    exact find_lane _ i _
  have hstride' : s1.readStride f kind = .ok (b, s2) := hstride
  obtain ⟨o, ho⟩ := foldl_saw s2.pipeReader (fun x : Nat × Word => coreKey s2.cur.1 x.2.toNat) (s2.vecAddrs f kind false (a + imm) b) s2
  refine ⟨o, s2.vecAddrs f kind false (a + imm) b, ?_⟩
  rw [State.vloadOp, needGrant_ok hgrant, ok_bind, hread, ok_bind]
  dsimp only
  rw [hstride', ok_bind]
  dsimp only
  rw [hcheck, ok_bind, hclean, need_true, ok_bind, ho]
  refine congrArg (fun h => Except.ok ((State.setLanes _ f.d h).countBanks _)) (funext fun i => ?_)
  by_cases hi : i ∈ lanes s2 f kind false
  · simp only [hfind, loadedLane, if_pos hi]
  · simp only [hfind, loadedLane, if_neg hi]

end Bodies

/-- A vector load in either form completes where its body does (R145). -/
theorem loads_done {i : Instr} {len : Nat} {g : BitVec 4} {kind : Nat} {f : WForm} {imm a b : Word} {s s1 s2 : State}
    (hexec : exec i s = issue len g s (State.vloadOp kind f imm)) (hguard : guardHolds g s.ctx = true) (hgrant : s.ctx.grant ≠ 0)
    (hread : (s.countIssue len).readS f.a = .ok (a, s1)) (hstride : Claims.stride s1 f kind = .ok (b, s2)) :
    Claims.Loads s2 f kind (a + imm) b (exec i s) := by
  intro hlanes
  have hgrant' : (s.countIssue len).ctx.grant ≠ 0 := by rw [State.ctx_countIssue]; exact hgrant
  obtain ⟨o, l, hbody⟩ := vloadOp_ok hgrant' hread hstride hlanes
  refine ⟨_, hexec.trans (issue_ok hguard hbody), rfl, ?_, fun j hj => ?_, fun j hj hout => ?_, fun r j hr hj => ?_⟩
  · rw [ctx_countBanks, setLanes_ctx]
    rfl
  · rw [State.readV, ctx_countBanks]
    refine (readV_setLanes _ f.d _ hj.1).trans ?_
    rw [loadedLane, if_pos ((mem_lanes s2 f kind false).2 hj)]
    rfl
  · rw [State.readV, ctx_countBanks]
    refine (readV_setLanes _ f.d _ hj).trans ?_
    rw [loadedLane, if_neg (fun h => hout ((mem_lanes s2 f kind false).1 h))]
    rfl
  · rw [State.readV, ctx_countBanks]
    exact readV_setLanes_other _ f.d _ hr hj

/-! ### Stores -/

section Writes

variable {α : Type} (key val : α → Nat)

/-- Words written one by one (R145). -/
def writeAll (s : State) (l : List α) : State := l.foldl (fun (t : State) x => t.writeN (key x) 4 (val x)) s

theorem writeAll_cons (s : State) (x : α) (l : List α) : writeAll key val s (x :: l) = writeAll key val (s.writeN (key x) 4 (val x)) l := rfl

/-- Words that are written leave the bytes outside them. -/
theorem byte_writeAll_other {k : Nat} : ∀ (l : List α) (s : State), (∀ x ∈ l, k < key x ∨ key x + 4 ≤ k) →
    (writeAll key val s l).byte k = s.byte k
  | [], _, _ => rfl
  | x :: l, s, h => by
    rw [writeAll_cons, byte_writeAll_other l _ (fun y hy => h y (List.mem_cons_of_mem _ hy))]
    exact byte_writeN_other (h x List.mem_cons_self)

theorem readN_writeAll_other {k : Nat} : ∀ (l : List α) (s : State), (∀ x ∈ l, k + 4 ≤ key x ∨ key x + 4 ≤ k) →
    (writeAll key val s l).readN k 4 = s.readN k 4
  | [], _, _ => rfl
  | x :: l, s, h => by
    rw [writeAll_cons, readN_writeAll_other l _ (fun y hy => h y (List.mem_cons_of_mem _ hy))]
    exact readN_writeN_other (h x List.mem_cons_self)

theorem memWf_writeAll : ∀ (l : List α) (s : State), memWf s.mem = true → memWf (writeAll key val s l).mem = true
  | [], _, h => h
  | _ :: l, _, h => memWf_writeAll l _ (memWf_memWriteN 4 _ _ h)

/-- A word reads as it was written last (R145). -/
theorem readN_writeAll_same {s : State} (l1 l2 : List α) (x : α) (hwf : memWf s.mem = true) (hval : val x < 256 ^ 4)
    (hlast : ∀ y ∈ l2, key x + 4 ≤ key y ∨ key y + 4 ≤ key x) : (writeAll key val s (l1 ++ x :: l2)).readN (key x) 4 = val x := by
  have hsplit : writeAll key val s (l1 ++ x :: l2) = writeAll key val ((writeAll key val s l1).writeN (key x) 4 (val x)) l2 :=
    List.foldl_append ..
  rw [hsplit, readN_writeAll_other key val _ _ hlast, readN_writeN_same (memWf_writeAll key val l1 s hwf), Nat.mod_eq_of_lt hval]

/-- Words that are written leave the cores. -/
theorem writeAll_cores : ∀ (l : List α) (s : State), (writeAll key val s l).cores = s.cores ∧ (writeAll key val s l).cur = s.cur
  | [], _ => ⟨rfl, rfl⟩
  | _ :: l, _ => writeAll_cores l _

end Writes

section StoreBody

variable {kind : Nat} {f : WForm} {imm a b : Word} {s s1 s2 : State}

/-- What the body of a vector store answers: the lanes that take part are stored, in rising order (R145). -/
theorem vstoreOp_ok (hgrant : s.ctx.grant ≠ 0) (hread : s.readS f.a = .ok (a, s1)) (hstride : Claims.stride s1 f kind = .ok (b, s2))
    (hlanes : ∀ i, Claims.takesPart s2 f kind true i → Claims.inCore (Claims.laneAddr s2 f kind (a + imm) b i) 4 ∧
      s2.hitsSlots s2.cur.1 (Claims.laneAddr s2 f kind (a + imm) b i).toNat 4 = false) :
    ∃ o l, State.vstoreOp kind f imm s =
      .ok (({ writeAll (fun i => coreKey s2.cur.1 (Claims.laneAddr s2 f kind (a + imm) b i).toNat) (fun i => (s2.readV f.d i).val.toNat) s2
        (lanes s2 f kind true) with older := o } : State).countBanks l) := by
  have hcheck : State.vecCheck (s2.vecAddrs f kind true (a + imm) b) = .ok () := vecCheck_ok fun x hx => by
    rw [vecAddrs_eq, List.mem_map] at hx
    obtain ⟨i, hi, rfl⟩ := hx
    exact (hlanes i ((mem_lanes s2 f kind true).1 hi)).1
  have hslots : (s2.vecAddrs f kind true (a + imm) b).all (fun x => !(s2.hitsSlots s2.cur.1 x.2.toNat 4)) = true :=
    List.all_eq_true.2 fun x hx => by
      rw [vecAddrs_eq, List.mem_map] at hx
      obtain ⟨i, hi, rfl⟩ := hx
      rw [(hlanes i ((mem_lanes s2 f kind true).1 hi)).2]
      rfl
  have hstride' : s1.readStride f kind = .ok (b, s2) := hstride
  have hfold : (s2.vecAddrs f kind true (a + imm) b).foldl (fun (t : State) x => t.writeN (coreKey s2.cur.1 x.2.toNat) 4 (s2.readV f.d x.1).val.toNat)
      s2 = writeAll (fun i => coreKey s2.cur.1 (Claims.laneAddr s2 f kind (a + imm) b i).toNat) (fun i => (s2.readV f.d i).val.toNat) s2
        (lanes s2 f kind true) := by
    rw [vecAddrs_eq, List.foldl_map]
    rfl
  rw [State.vstoreOp, needGrant_ok hgrant, ok_bind, hread, ok_bind]
  dsimp only
  rw [hstride', ok_bind]
  dsimp only
  rw [hcheck, ok_bind, hslots, need_true, ok_bind, hfold]
  exact ⟨_, _, rfl⟩

end StoreBody

/-- The words of two aligned addresses are the same or apart. -/
theorem words_apart {c : Nat} {x y : Word} (hx : Claims.inCore x 4) (hy : Claims.inCore y 4) (hne : x ≠ y) :
    coreKey c y.toNat + 4 ≤ coreKey c x.toNat ∨ coreKey c x.toNat + 4 ≤ coreKey c y.toNat := by
  have hne' : x.toNat ≠ y.toNat := fun h => hne (BitVec.eq_of_toNat_eq h)
  obtain ⟨hx4, _⟩ := hx
  obtain ⟨hy4, _⟩ := hy
  unfold coreKey space
  omega

/-- A vector store in either form completes where its body does (R145). -/
theorem stores_done {i : Instr} {len : Nat} {g : BitVec 4} {kind : Nat} {f : WForm} {imm a b : Word} {s s1 s2 : State}
    (hexec : exec i s = issue len g s (State.vstoreOp kind f imm)) (hguard : guardHolds g s.ctx = true) (hgrant : s.ctx.grant ≠ 0)
    (hread : (s.countIssue len).readS f.a = .ok (a, s1)) (hstride : Claims.stride s1 f kind = .ok (b, s2)) :
    Claims.Stores s2 f kind (a + imm) b (exec i s) := by
  intro hwf hlanes
  have hgrant' : (s.countIssue len).ctx.grant ≠ 0 := by rw [State.ctx_countIssue]; exact hgrant
  obtain ⟨o, l, hbody⟩ := vstoreOp_ok hgrant' hread hstride hlanes
  refine ⟨_, hexec.trans (issue_ok hguard hbody), ?_, fun j hj hlast => ?_, fun k hk => ?_⟩
  · rw [ctx_countBanks]
    obtain ⟨hcores, hcur⟩ := writeAll_cores (fun i => coreKey s2.cur.1 (Claims.laneAddr s2 f kind (a + imm) b i).toNat)
      (fun i => (s2.readV f.d i).val.toNat) (lanes s2 f kind true) s2
    simp only [State.ctx, State.core, hcores, hcur]
  · obtain ⟨l1, l2, hsplit⟩ := List.append_of_mem ((mem_lanes s2 f kind true).2 hj)
    have hsorted := lanes_sorted s2 f kind true
    rw [hsplit] at hsorted ⊢
    refine readN_writeAll_same (fun i => coreKey s2.cur.1 (Claims.laneAddr s2 f kind (a + imm) b i).toNat)
      (fun i => (s2.readV f.d i).val.toNat) l1 l2 j hwf (s2.readV f.d j).val.isLt fun x hx => ?_
    have hlater : j < x := List.rel_of_pairwise_cons (List.pairwise_append.1 hsorted).2.1 hx
    have hpart : Claims.takesPart s2 f kind true x := (mem_lanes s2 f kind true).1 (by rw [hsplit]; simp [hx])
    exact words_apart (hlanes x hpart).1 (hlanes j hj).1 (hlast x hlater hpart)
  · exact byte_writeAll_other _ _ _ _ fun x hx => hk x ((mem_lanes s2 f kind true).1 hx)

/-- Settles O31: the bodies of the three kinds, in two forms each. -/
theorem vectorMemory : Obligations.VectorMemory := by
  refine ⟨fun f s s1 s2 a b kind hguard hgrant hread hstride => ⟨fun x hx hkind => ?_, fun x hx hkind => ?_⟩,
    fun f s s1 s2 a b kind hguard hgrant hread hstride => ⟨fun x hx hkind => ?_, fun x hx hkind => ?_⟩⟩
  all_goals
    simp only [Claims.loads, Claims.stores, List.mem_cons, List.not_mem_nil, or_false] at hx
    subst hkind
  · obtain rfl | rfl | rfl := hx <;> exact loads_done rfl hguard hgrant hread hstride
  · obtain rfl | rfl | rfl := hx <;> exact stores_done rfl hguard hgrant hread hstride
  · obtain rfl | rfl | rfl := hx <;> exact loads_done rfl hguard hgrant hread hstride
  · obtain rfl | rfl | rfl := hx <;> exact stores_done rfl hguard hgrant hread hstride

end Sys2Proof.Proofs.VectorMemory
end

section
/-! PROOFS. The scalar instructions of majors 0x00 to 0x02 complete with their results (O11, O13, O14, R93 to R99): the bodies are shared, and the
operations of the model give the results that the rules read off the operands. -/

namespace Sys2Proof.Proofs.Scalar

open Sys2Proof.Machine Sys2Proof.Proofs.Division

/-! ### Results (R93, R94, R96) -/

section Results

variable (a b : Word)

theorem add_eq : a + b = BitVec.ofNat 64 (a.toNat + b.toNat) := by
  apply BitVec.eq_of_toNat_eq
  rw [BitVec.toNat_add, BitVec.toNat_ofNat]

theorem add_eq_signed : a + b = BitVec.ofInt 64 (a.toInt + b.toInt) := by
  apply BitVec.eq_of_toInt_eq
  rw [BitVec.toInt_add, BitVec.toInt_ofInt]

theorem sub_eq : a - b = BitVec.ofInt 64 (a.toInt - b.toInt) := by
  apply BitVec.eq_of_toInt_eq
  rw [BitVec.toInt_sub, BitVec.toInt_ofInt]

theorem mul_eq : a * b = BitVec.ofNat 64 (a.toNat * b.toNat) := by
  apply BitVec.eq_of_toNat_eq
  rw [BitVec.toNat_mul, BitVec.toNat_ofNat]

theorem mul_eq_signed : a * b = BitVec.ofInt 64 (a.toInt * b.toInt) := by
  apply BitVec.eq_of_toInt_eq
  rw [BitVec.toInt_mul, BitVec.toInt_ofInt]

/-- A word is zero where its signed or its unsigned value is. -/
theorem toInt_eq_zero : b.toInt = 0 ↔ b = 0 := ⟨fun h => BitVec.eq_of_toInt_eq h, by rintro rfl; rfl⟩
theorem toNat_eq_zero : b.toNat = 0 ↔ b = 0 := ⟨fun h => BitVec.eq_of_toNat_eq h, by rintro rfl; rfl⟩

theorem divS_eq : divS a b = if b.toInt = 0 then -1 else BitVec.ofInt 64 (a.toInt.tdiv b.toInt) := by
  simp only [divS, toInt_eq_zero]
  rfl

theorem divU_eq : divU a b = if b.toNat = 0 then -1 else BitVec.ofNat 64 (a.toNat / b.toNat) := by
  simp only [divU, toNat_eq_zero]
  rfl

theorem remS_eq : remS a b = if b.toInt = 0 then a else BitVec.ofInt 64 (a.toInt - b.toInt * a.toInt.tdiv b.toInt) := by
  simp only [remS, toInt_eq_zero, Int.tmod_def]

theorem remU_eq : remU a b = if b.toNat = 0 then a else BitVec.ofNat 64 (a.toNat % b.toNat) := by
  simp only [remU, toNat_eq_zero]

theorem shlW_eq : shlW a b = BitVec.ofNat 64 (a.toNat * 2 ^ (b.toNat % 64)) := by
  apply BitVec.eq_of_toNat_eq
  rw [shlW, shCount, BitVec.toNat_shiftLeft, BitVec.toNat_ofNat, Nat.shiftLeft_eq]

theorem shrW_eq : shrW a b = BitVec.ofNat 64 (a.toNat / 2 ^ (b.toNat % 64)) := by
  apply BitVec.eq_of_toNat_eq
  rw [shrW, shCount, BitVec.toNat_ushiftRight, BitVec.toNat_ofNat, Nat.shiftRight_eq_div_pow,
    Nat.mod_eq_of_lt (Nat.lt_of_le_of_lt (Nat.div_le_self ..) a.isLt)]

theorem sarW_eq : sarW a b = BitVec.ofInt 64 (a.toInt / 2 ^ (b.toNat % 64)) := by
  rw [sarW, shCount, BitVec.sshiftRight, Int.shiftRight_eq_div_pow]
  norm_num

theorem min_eq : (if b.slt a then b else a) = if b.toInt < a.toInt then b else a := by simp only [BitVec.slt_iff_toInt_lt]
theorem max_eq : (if a.slt b then b else a) = if a.toInt < b.toInt then b else a := by simp only [BitVec.slt_iff_toInt_lt]
theorem minu_eq : (if b.ult a then b else a) = if b.toNat < a.toNat then b else a := by simp only [BitVec.ult_iff_lt, BitVec.lt_def]
theorem maxu_eq : (if a.ult b then b else a) = if a.toNat < b.toNat then b else a := by simp only [BitVec.ult_iff_lt, BitVec.lt_def]

end Results

/-! ### Two operands (R93) -/

/-- A result of major 0x00: the instruction's body is that of a two-operand operation, with that result. -/
def BinaryBody (x : (WForm → Instr) × (Word → Word → Word)) : Prop :=
  ∃ g : Word → Word → Word, (∀ f s, exec (x.1 f) s = issue 8 f.guard s (State.binOp g f)) ∧ ∀ a b, g a b = x.2 a b

/-- The same of a C form (R80). -/
def BinaryBodyC (x : (CForm → Instr) × (Word → Word → Word)) : Prop :=
  ∃ g : Word → Word → Word, (∀ f s, exec (x.1 f) s = issue 4 0 s (State.binOp g f.toW)) ∧ ∀ a b, g a b = x.2 a b

theorem binaryBody_of_mem : ∀ x ∈ Claims.binary, BinaryBody x := by
  simp only [Claims.binary, List.forall_mem_cons, List.not_mem_nil, false_implies, implies_true, and_true]
  exact ⟨⟨_, fun _ _ => rfl, add_eq⟩, ⟨_, fun _ _ => rfl, sub_eq⟩, ⟨_, fun _ _ => rfl, mul_eq⟩, ⟨_, fun _ _ => rfl, fun _ _ => rfl⟩,
    ⟨_, fun _ _ => rfl, fun _ _ => rfl⟩, ⟨_, fun _ _ => rfl, divS_eq⟩, ⟨_, fun _ _ => rfl, divU_eq⟩, ⟨_, fun _ _ => rfl, remS_eq⟩,
    ⟨_, fun _ _ => rfl, remU_eq⟩, ⟨_, fun _ _ => rfl, fun _ _ => rfl⟩, ⟨_, fun _ _ => rfl, fun _ _ => rfl⟩, ⟨_, fun _ _ => rfl, fun _ _ => rfl⟩,
    ⟨_, fun _ _ => rfl, fun _ _ => rfl⟩, ⟨_, fun _ _ => rfl, shlW_eq⟩, ⟨_, fun _ _ => rfl, shrW_eq⟩, ⟨_, fun _ _ => rfl, sarW_eq⟩,
    ⟨_, fun _ _ => rfl, fun _ _ => rfl⟩, ⟨_, fun _ _ => rfl, min_eq⟩, ⟨_, fun _ _ => rfl, max_eq⟩, ⟨_, fun _ _ => rfl, minu_eq⟩,
    ⟨_, fun _ _ => rfl, maxu_eq⟩⟩

theorem binaryBodyC_of_mem : ∀ x ∈ Claims.binaryC, BinaryBodyC x := by
  simp only [Claims.binaryC, List.forall_mem_cons, List.not_mem_nil, false_implies, implies_true, and_true]
  exact ⟨⟨_, fun _ _ => rfl, add_eq⟩, ⟨_, fun _ _ => rfl, sub_eq⟩, ⟨_, fun _ _ => rfl, fun _ _ => rfl⟩, ⟨_, fun _ _ => rfl, fun _ _ => rfl⟩,
    ⟨_, fun _ _ => rfl, fun _ _ => rfl⟩, ⟨_, fun _ _ => rfl, shlW_eq⟩, ⟨_, fun _ _ => rfl, shrW_eq⟩, ⟨_, fun _ _ => rfl, sarW_eq⟩⟩

/-- Sources a and b are read in that order (R47). -/
theorem readAB_ok {s s1 s2 : State} {f : WForm} {a b : Word} (ha : s.readS f.a = .ok (a, s1)) (hb : s1.readS f.b = .ok (b, s2)) :
    s.readAB f = .ok (a, b, s2) := by
  rw [State.readAB, ha, ok_bind]
  dsimp only
  rw [hb]
  rfl

/-- Settles O11: every instruction of the table has the body of its result. -/
theorem scalarBinary : Obligations.ScalarBinary := by
  refine ⟨fun x hx f s s1 t a b hguard hread hwrite => ?_, fun x hx f s s1 s2 t a b ha hb hwrite => ?_⟩
  · obtain ⟨g, hexec, hresult⟩ := binaryBody_of_mem x hx
    rw [← hresult] at hwrite
    rw [hexec]
    exact issue_binOp_ok hguard hread hwrite
  · obtain ⟨g, hexec, hresult⟩ := binaryBodyC_of_mem x hx
    rw [← hresult] at hwrite
    rw [hexec]
    exact issue_ok (guardHolds_zero _) (binOp_ok (readAB_ok (f := f.toW) ha hb) hwrite)

/-! ### One operand (R96, R98) -/

/-- A one-operand instruction under a guard that holds completes with its result (R81, R96, R98). -/
theorem issue_unOp_ok {g : Word → Word} {len : Nat} {c : BitVec 4} {f : WForm} {s s1 t : State} {a : Word} (hguard : guardHolds c s.ctx = true)
    (hread : (s.countIssue len).readS f.a = .ok (a, s1)) (hwrite : s1.writeS f.d (g a) = .ok t) :
    issue len c s (State.unOp g f) = .next t := by
  refine issue_ok hguard ?_
  rw [State.unOp, hread]
  exact hwrite

/-- A result of major 0x01: the bodies of both forms are those of a one-operand operation on the immediate, with that result. -/
def ImmediateBody (x : (WForm → Instr) × (XForm → Instr) × (Word → Word → Word)) : Prop :=
  ∃ g : Word → Word → Word, (∀ f s, exec (x.1 f) s = issue 8 f.guard s (State.unOp (g · f.imm) f)) ∧
    (∀ f s, exec (x.2.1 f) s = issue 12 f.guard s (State.unOp (g · f.imm) f.toW)) ∧ ∀ a i, g a i = x.2.2 a i

theorem immediateBody_of_mem : ∀ x ∈ Claims.immediate, ImmediateBody x := by
  simp only [Claims.immediate, List.forall_mem_cons, List.not_mem_nil, false_implies, implies_true, and_true]
  exact ⟨⟨_, fun _ _ => rfl, fun _ _ => rfl, add_eq_signed⟩, ⟨_, fun _ _ => rfl, fun _ _ => rfl, fun _ _ => rfl⟩,
    ⟨_, fun _ _ => rfl, fun _ _ => rfl, fun _ _ => rfl⟩, ⟨_, fun _ _ => rfl, fun _ _ => rfl, fun _ _ => rfl⟩,
    ⟨shlW, fun _ _ => rfl, fun _ _ => rfl, shlW_eq⟩, ⟨shrW, fun _ _ => rfl, fun _ _ => rfl, shrW_eq⟩,
    ⟨sarW, fun _ _ => rfl, fun _ _ => rfl, sarW_eq⟩, ⟨_, fun _ _ => rfl, fun _ _ => rfl, mul_eq_signed⟩⟩

/-- Settles O13: every instruction of the table has the bodies of its result. -/
theorem scalarImmediate : Obligations.ScalarImmediate := by
  intro x hx
  obtain ⟨g, hexec, hexecX, hresult⟩ := immediateBody_of_mem x hx
  refine ⟨fun f s s1 t a hguard hread hwrite => ?_, fun f s s1 t a hguard hread hwrite => ?_⟩
  · rw [hexec]
    exact issue_unOp_ok hguard hread (by rw [hresult]; exact hwrite)
  · rw [hexecX]
    exact issue_unOp_ok (f := f.toW) hguard hread (by rw [hresult]; exact hwrite)

end Sys2Proof.Proofs.Scalar
end

section
/-! PROOFS. The bit-field instructions of major 0x02 complete with their results (O14, R98, R99). -/

namespace Sys2Proof.Proofs.BitFields

open Sys2Proof.Machine Sys2Proof.Proofs.Scalar Sys2Proof.Proofs.Codes

/-- The leading zeros of the m low bits are k where what they hold is below 2^(m − k) and, unless it is 0, not below half of that (R98). -/
theorem leadZeros_eq (a : Word) : ∀ m k : Nat, k ≤ m → a.toNat % 2 ^ m < 2 ^ (m - k) → (k < m → 2 ^ (m - 1 - k) ≤ a.toNat % 2 ^ m) →
    leadZeros a m = k
  | 0, k, hk, _, _ => by rw [Nat.le_zero.1 hk]; rfl
  | m + 1, k, hk, hlt, hge => by
    have hbits := mod_two_pow_add_one a.toNat m
    have hlow : a.toNat % 2 ^ m < 2 ^ m := Nat.mod_lt _ (Nat.two_pow_pos m)
    unfold leadZeros
    cases hbit : a.getLsbD m with
    | true =>
      have htest : a.toNat.testBit m = true := hbit
      rw [htest] at hbits
      rcases Nat.eq_zero_or_pos k with rfl | hpos
      · rfl
      · have hle : 2 ^ (m + 1 - k) ≤ 2 ^ m := Nat.pow_le_pow_right (by decide) (by omega)
        simp only [Bool.toNat_true] at hbits
        omega
    | false =>
      have htest : a.toNat.testBit m = false := hbit
      rw [htest] at hbits
      simp only [Bool.toNat_false, Nat.zero_mul, Nat.zero_add] at hbits
      rw [hbits] at hlt hge
      rcases Nat.eq_zero_or_pos k with rfl | hpos
      · have := hge (Nat.succ_pos m)
        simp only [Nat.add_sub_cancel, Nat.sub_zero] at this
        omega
      · obtain ⟨j, rfl⟩ : ∃ j, k = j + 1 := ⟨k - 1, by omega⟩
        rw [leadZeros_eq a m j (by omega) (by rwa [Nat.add_sub_add_right] at hlt)
          (fun h => by rw [show m - 1 - j = m + 1 - 1 - (j + 1) by omega]; exact hge (by omega))]
        rfl

/-- The trailing zeros of n bits from bit i are k where k of them are 0 and, unless they are all, the next is 1 (R98). -/
theorem trailZeros_eq (a : Word) : ∀ n i k : Nat, k ≤ n → (∀ j, j < k → a.getLsbD (i + j) = false) → (k < n → a.getLsbD (i + k) = true) →
    trailZeros a i n = k
  | 0, _, k, hk, _, _ => by rw [Nat.le_zero.1 hk]; rfl
  | n + 1, i, k, hk, hzero, hone => by
    unfold trailZeros
    rcases Nat.eq_zero_or_pos k with rfl | hpos
    · have hbit := hone (Nat.succ_pos n)
      rw [Nat.add_zero] at hbit
      rw [if_pos hbit]
    · obtain ⟨j, rfl⟩ : ∃ j, k = j + 1 := ⟨k - 1, by omega⟩
      have hbit := hzero 0 hpos
      rw [Nat.add_zero] at hbit
      rw [hbit, if_neg (by decide), trailZeros_eq a n (i + 1) j (by omega) (fun x hx => by rw [Nat.add_assoc, Nat.add_comm 1]; exact hzero _ (by omega))
        (fun h => by rw [Nat.add_assoc, Nat.add_comm 1]; exact hone (by omega))]

/-- The one bits are counted by their values (R98). -/
theorem popCount_eq (a : Word) : popCount a = ((List.range 64).map (fun i => a.toNat / 2 ^ i % 2)).sum := by
  have hcount : ∀ l : List Nat, (l.filter (fun i => a.getLsbD i)).length = (l.map (fun i => a.toNat / 2 ^ i % 2)).sum := fun l => by
    induction l with
    | nil => rfl
    | cons i l ih =>
      have hbit : (a.getLsbD i).toNat = a.toNat / 2 ^ i % 2 := Nat.toNat_testBit ..
      rw [List.map_cons, List.sum_cons, ← hbit, ← ih, List.filter_cons]
      cases a.getLsbD i
      · exact (Nat.zero_add _).symm
      · exact Nat.add_comm ..
  exact hcount _

/-- The reversal of a word (R98). -/
theorem bitReverse_eq {a r : Word} (h : ∀ i, i < 64 → r.getLsbD i = a.getLsbD (63 - i)) : bitReverse a = r := by
  apply BitVec.eq_of_getLsbD_eq
  intro i hi
  rw [h i hi, bitReverse, BitVec.getLsbD_reverse, BitVec.getMsbD]
  simp [hi]

/-- The bits of the mask of a field (R98). -/
theorem fieldMask_getLsbD {pos len i : Nat} (hi : i < 64) :
    (BitVec.ofNat 64 ((2 ^ len - 1) * 2 ^ pos)).getLsbD i = decide (pos ≤ i ∧ i < pos + len) := by
  rw [BitVec.getLsbD_ofNat, Nat.testBit_mul_two_pow, Nat.testBit_two_pow_sub_one]
  rw [decide_eq_true hi, Bool.true_and, ← Bool.decide_and]
  exact decide_eq_decide.2 (by omega)

/-- A field replaced, bit by bit (R98, R99). -/
theorem bitInsert_eq {d a r : Word} {pos len : Nat}
    (h : ∀ i, i < 64 → r.getLsbD i = if pos ≤ i ∧ i < pos + len then a.getLsbD (i - pos) else d.getLsbD i) : bitInsert d a pos len = r := by
  apply BitVec.eq_of_getLsbD_eq
  intro i hi
  rw [h i hi, bitInsert]
  simp only [BitVec.getLsbD_or, BitVec.getLsbD_and, BitVec.getLsbD_not, BitVec.getLsbD_shiftLeft, fieldMask_getLsbD hi]
  by_cases hin : pos ≤ i ∧ i < pos + len
  · simp [hin, hi]
  · simp [hin, hi]

/-- The low n bits extended by their sign (R98). -/
theorem signExtendN_eq (a : Word) {n : Nat} (h0 : 0 < n) (hn : n ≤ 64) : signExtendN a n = BitVec.ofInt 64 (BitVec.ofNat n a.toNat).toInt := by
  have hext : BitVec.ofInt 64 (BitVec.ofNat n a.toNat).toInt = (a.setWidth n).signExtend 64 := by
    rw [BitVec.ofNat_toNat]
    rfl
  rw [hext]
  apply BitVec.eq_of_getLsbD_eq
  intro i hi
  simp only [signExtendN, BitVec.getLsbD_sshiftRight, BitVec.getLsbD_shiftLeft, BitVec.getLsbD_signExtend, BitVec.getLsbD_setWidth,
    BitVec.msb_eq_getLsbD_last, hi]
  by_cases hlow : i < n
  · have hin : 64 - n + i < 64 := by omega
    simp [hlow, hin, hi]
  · have hout : ¬(64 - n + i < 64) := by omega
    have hsign : 63 - (64 - n) = n - 1 := by omega
    have hwide : ¬(63 < 64 - n) := by omega
    simp [hlow, hout, h0, hsign, hwide, hi]

/-- A sub-field is below its range (R84). -/
theorem fld_lt (f : WForm) (lo n : Nat) : f.fld lo n < 2 ^ n := Nat.mod_lt _ (Nat.two_pow_pos n)

/-- Settles O14: one-operand bodies with their results, and that of bins, which reads d after a. -/
theorem bitFields : Obligations.BitFields := by
  intro f s s1 a hguard hread
  have hlt : a.toNat < 2 ^ 64 := a.isLt
  have hn : f.fld 14 6 + 1 ≤ 64 := fld_lt f 14 6
  refine ⟨fun n t hle hhi hlo hwrite => ?_, fun n t hle hzero hone hwrite => ?_, fun t hwrite => ?_, fun r t hbits hwrite => ?_, fun t hwrite => ?_,
    fun d r s2 t _ hsource hbits hwrite => ?_, fun t hwrite => ?_, fun t hwrite => ?_⟩
  · refine issue_unOp_ok (g := fun a => BitVec.ofNat 64 (leadZeros a 64)) hguard hread ?_
    have hmod := Nat.mod_eq_of_lt hlt
    rw [leadZeros_eq a 64 n hle (by rw [hmod]; exact hhi) (fun h => by rw [hmod]; exact hlo h)]
    exact hwrite
  · refine issue_unOp_ok (g := fun a => BitVec.ofNat 64 (trailZeros a 0 64)) hguard hread ?_
    rw [trailZeros_eq a 64 0 n hle (fun j hj => ?_) (fun h => ?_)]
    · exact hwrite
    · have hmod := congrArg (Nat.testBit · j) hzero
      rw [Nat.zero_add]
      simpa [hj, BitVec.getLsbD] using hmod
    · rw [Nat.zero_add, BitVec.getLsbD, Nat.testBit_eq_decide_div_mod_eq, hone h]
      rfl
  · refine issue_unOp_ok (g := fun a => BitVec.ofNat 64 (popCount a)) hguard hread ?_
    rw [popCount_eq]
    exact hwrite
  · refine issue_unOp_ok (g := bitReverse) hguard hread ?_
    rw [bitReverse_eq hbits]
    exact hwrite
  · exact issue_unOp_ok (g := fun a => bitExtract a f.pos f.len) hguard hread hwrite
  · refine issue_ok hguard ?_
    rw [State.binsOp, hread, ok_bind]
    dsimp only
    rw [hsource, ok_bind]
    dsimp only
    rw [bitInsert_eq hbits]
    exact hwrite
  · refine issue_unOp_ok (g := fun a => signExtendN a (f.fld 14 6 + 1)) hguard hread ?_
    rw [signExtendN_eq a (Nat.succ_pos _) hn]
    exact hwrite
  · exact issue_unOp_ok (g := fun a => zeroExtendN a (f.fld 14 6 + 1)) hguard hread hwrite

end Sys2Proof.Proofs.BitFields
end

section
/-! PROOFS. What a step performs and what the issue of an instruction changes (O5 to O8, R37 to R39, R81, R88). -/

namespace Sys2Proof.Proofs.Steps

open Sys2Proof.Machine Sys2Proof.Laws

/-! ### Which instruction or event a step performs (R37, R38, R39, R88) -/

theorem step_issue {s : State} {c x : Nat} {rest : List Sel} (h : s.sched = .issue c x :: rest) :
    step s = act (.issue c x) { s with sched := rest, tick := s.tick + 1 } := by rw [step, h]

/-- Settles O6: the head of the schedule acts, and an event is performed. -/
theorem stepRunsEvent : Obligations.StepRunsEvent := by
  intro s e rest hs he
  rw [step, hs]
  exact if_pos he

/-- A context that runs a firing on a core that is not dead may issue. -/
theorem issueStep_running {u : State} (hbusy : u.ctx.busy = true) (hdead : (u.core u.cur.1).dead = false) :
    issueStep u = if 65536 ≤ u.ctx.issued then exec (.illegalPattern 0x08) u
      else match decode (fetchBytes u u.cur.1 u.ctx.pc.toNat) with
        | .error e => exec (.illegalPattern e.code) u
        | .ok i => exec i u := by
  rw [issueStep, hbusy, hdead]
  rfl

theorem claimWaits_iff (s : State) (c y : Nat) :
    claimWaits s c y = true ↔ (s.claimOf c y).isSome = true ∧ (State.ctxOf (s.core c) y).busy = true := by
  rw [claimWaits, Bool.and_eq_true]

/-- Where no claim waits, the context that issued last lets the other one go first (R38). -/
theorem issuing_of_not_waits {s : State} {c x : Nat} (hx : ¬claimWaits s c x = true) (hy : ¬claimWaits s c (1 - x) = true) :
    issuing s c x =
      if (s.core c).last = x ∧ (State.ctxOf (s.core c) (1 - x)).busy = true ∧ Config.otherHeld s.tick = false then 1 - x else x := by
  rw [issuing, if_neg hx, if_neg hy]

/-- Settles O5: the branches of a step and of the choice of the context. -/
theorem stepRunsDecoded : Obligations.StepRunsDecoded := by
  refine ⟨fun s c x rest hs => ?_, fun s c x => ?_⟩
  · intro v u hbusy hdead
    have hstep : step s = issueStep u := step_issue hs
    rw [hstep, issueStep_running hbusy hdead]
    refine ⟨fun i hi hd => ?_, fun e hi hd => ?_, fun hi => if_pos hi⟩
    · rw [if_neg (Nat.not_le.mpr hi), show u.cur.1 = c from rfl, hd]
    · rw [if_neg (Nat.not_le.mpr hi), show u.cur.1 = c from rfl, hd]
  · intro waits
    have hw : ∀ y, claimWaits s c y = true ↔ waits y := claimWaits_iff s c
    simp only [← hw]
    refine ⟨fun hx => ?_, fun hx hy => ?_, fun hx hy => ⟨fun hlast hbusy => ?_, fun h => ?_⟩⟩
    · rw [issuing, if_pos hx]
    · rw [issuing, if_neg hx, if_pos hy]
    · rw [issuing_of_not_waits hx hy]
      cases Config.otherHeld s.tick <;> simp [hlast, hbusy]
    · rw [issuing_of_not_waits hx hy, if_neg]
      rintro ⟨hlast, hbusy, -⟩
      exact h.elim (· hlast) (by simp [hbusy])

/-! ### The guard (R81) -/

/-- Every instruction issues. -/
theorem issues_every : ∀ i : Instr, IssueLaw i
  | .moduleReset => issues_moduleReset
  | .imageLoad p img => issues_imageLoad p img
  | .illegalPattern code => issues_illegalPattern code
  | .dispatch cid ctx => issues_dispatch cid ctx
  | .signalArrival cid f slot pkts => issues_signalArrival cid f slot pkts
  | .allocationRequest pkt same => issues_allocationRequest pkt same
  | .armingRequest pkt same => issues_armingRequest pkt same
  | .freeRequest pkt => issues_freeRequest pkt
  | .stfRequest pkt => issues_stfRequest pkt
  | .ldfRequest pkt => issues_ldfRequest pkt
  | .replyArrival pkt same => issues_replyArrival pkt same
  | .spilledRequestApply pkt => issues_spilledRequestApply pkt
  | .fill cid => issues_fill cid
  | .writeBackStart cid f => issues_writeBackStart cid f
  | .writeBackComplete cid f => issues_writeBackComplete cid f
  | .matrixCommandStart cid m => issues_matrixCommandStart cid m
  | .matrixCommandFinish cid m => issues_matrixCommandFinish cid m
  | .mdrainRow cid m => issues_mdrainRow cid m
  | .mrotTileLands pkt => issues_mrotTileLands pkt
  | .landingMove cid latch => issues_landingMove cid latch
  | .portWordArrival cid dir => issues_portWordArrival cid dir
  | .ldrmRequest pkt => issues_ldrmRequest pkt
  | .strmRequest pkt => issues_strmRequest pkt
  | .atomicRequest pkt => issues_atomicRequest pkt
  | .ringRequest pkt => issues_ringRequest pkt
  | .fenceRelease pkt => issues_fenceRelease pkt
  | .releaseSignalSend pkt => issues_releaseSignalSend pkt
  | .walkStart clid w => issues_walkStart clid w
  | .walkTranslation w tile choice => issues_walkTranslation w tile choice
  | .walkMove w moves => issues_walkMove w moves
  | .dimensionEndSignal w level run target => issues_dimensionEndSignal w level run target
  | .finalSignal w => issues_finalSignal w
  | .twcanComplete pkt => issues_twcanComplete pkt
  | .stepdDone cid fid => issues_stepdDone cid fid
  | .stepAdvance cid => issues_stepAdvance cid
  | .stepNotice pkt => issues_stepNotice pkt
  | .ldstRequest pkt => issues_ldstRequest pkt
  | .stepqRequest pkt => issues_stepqRequest pkt
  | .stepRequestResend pkt => issues_stepRequestResend pkt
  | .sqtabServe pkt => issues_sqtabServe pkt
  | .sqinitServe pkt => issues_sqinitServe pkt
  | .sqstepServe pkt => issues_sqstepServe pkt
  | .sqstageServe pkt => issues_sqstageServe pkt
  | .sqrdServe pkt => issues_sqrdServe pkt
  | .stageFormed clid r => issues_stageFormed clid r
  | .stepDecision clid r => issues_stepDecision clid r
  | .launchRequest pkt => issues_launchRequest pkt
  | .instanceStart handle => issues_instanceStart handle
  | .launchMulticast die handle => issues_launchMulticast die handle
  | .instanceEnd handle => issues_instanceEnd handle
  | .creditLend die p => issues_creditLend die p
  | .gqueryRequest pkt => issues_gqueryRequest pkt
  | .gcanRequest pkt => issues_gcanRequest pkt
  | .subqBase p v => issues_subqBase p v
  | .subqLog p v => issues_subqLog p v
  | .subqTail p v => issues_subqTail p v
  | .submissionEntryRead p => issues_submissionEntryRead p
  | .forecast die => issues_forecast die
  | .telemetryUpdate die => issues_telemetryUpdate die
  | .placementEntryWrite p cb w0 w1 => issues_placementEntryWrite p cb w0 w1
  | .spillFrames p v => issues_spillFrames p v
  | .spillBase p d v => issues_spillBase p d v
  | .migGo p v => issues_migGo p v
  | .migrationComplete p => issues_migrationComplete p
  | .commit v => issues_commit v
  | .drainMessage die => issues_drainMessage die
  | .clearingComplete p => issues_clearingComplete p
  | .preempt p => issues_preempt p
  | .resume p => issues_resume p
  | .coreSave cid => issues_coreSave cid
  | .savedPacketApply pkt => issues_savedPacketApply pkt
  | .coreRestore cid => issues_coreRestore cid
  | .ordArm p d n v => issues_ordArm p d n v
  | .ordAddr p d n v => issues_ordAddr p d n v
  | .ordN p d n v => issues_ordN p d n v
  | .orderedReductionRequest pkt => issues_orderedReductionRequest pkt
  | .faBase p v => issues_faBase p v
  | .faLog p v => issues_faLog p v
  | .faultRecordWrite n => issues_faultRecordWrite n
  | .snapTrig v => issues_snapTrig v
  | .snapshotTriggerArrival trig block => issues_snapshotTriggerArrival trig block
  | .snapComplete trig => issues_snapComplete trig
  | .mgCmdLoad => issues_mgCmdLoad
  | .mgCmdActivate => issues_mgCmdActivate
  | .mgCmdFloor => issues_mgCmdFloor
  | .mgCmdQuote => issues_mgCmdQuote
  | .freitCommandDone => issues_freitCommandDone
  | .portEntryWrite port word v => issues_portEntryWrite port word v
  | .opticalLinkState port up => issues_opticalLinkState port up
  | .peerReplicaWrite port addr bytes => issues_peerReplicaWrite port addr bytes
  | .replicaWriteApply pkt => issues_replicaWriteApply pkt
  | .hostWrite bar off n v => issues_hostWrite bar off n v
  | .hostRead bar off n => issues_hostRead bar off n
  | .cellGate cell => issues_cellGate cell
  | .cellWake cell => issues_cellWake cell
  | .quiescence p => issues_quiescence p
  | .thermalTrip die => issues_thermalTrip die
  | .coreReset cid => issues_coreReset cid
  | .packetRefused pkt => issues_packetRefused pkt
  | .uncorrectableError cid f ownerRead => issues_uncorrectableError cid f ownerRead
  | .routerHop pkt => issues_routerHop pkt
  | .linkFlitSend x y port => issues_linkFlitSend x y port
  | .crossbarGrant die out => issues_crossbarGrant die out
  | .hbmRequestStart die ch => issues_hbmRequestStart die ch
  | .spliceEgressEnter pkt => issues_spliceEgressEnter pkt
  | .spliceIngressDeliver p splice => issues_spliceIngressDeliver p splice
  | .mergedAtomicApply pkt => issues_mergedAtomicApply pkt
  | .mergedReplySplit pkt => issues_mergedReplySplit pkt
  | .registerWrite off v => issues_registerWrite off v
  | .addC f => issues_addC f
  | .add f => issues_add f
  | .subC f => issues_subC f
  | .sub f => issues_sub f
  | .mul f => issues_mul f
  | .mulh f => issues_mulh f
  | .mulhu f => issues_mulhu f
  | .div f => issues_div f
  | .divu f => issues_divu f
  | .rem f => issues_rem f
  | .remu f => issues_remu f
  | .andC f => issues_andC f
  | .and f => issues_and f
  | .orC f => issues_orC f
  | .or f => issues_or f
  | .xorC f => issues_xorC f
  | .xor f => issues_xor f
  | .andn f => issues_andn f
  | .shlC f => issues_shlC f
  | .shl f => issues_shl f
  | .shrC f => issues_shrC f
  | .shr f => issues_shr f
  | .sarC f => issues_sarC f
  | .sar f => issues_sar f
  | .rol f => issues_rol f
  | .min f => issues_min f
  | .max f => issues_max f
  | .minu f => issues_minu f
  | .maxu f => issues_maxu f
  | .addi f => issues_addi f
  | .addiX f => issues_addiX f
  | .andi f => issues_andi f
  | .andiX f => issues_andiX f
  | .ori f => issues_ori f
  | .oriX f => issues_oriX f
  | .xori f => issues_xori f
  | .xoriX f => issues_xoriX f
  | .shli f => issues_shli f
  | .shliX f => issues_shliX f
  | .shri f => issues_shri f
  | .shriX f => issues_shriX f
  | .sari f => issues_sari f
  | .sariX f => issues_sariX f
  | .muli f => issues_muli f
  | .muliX f => issues_muliX f
  | .clz f => issues_clz f
  | .ctz f => issues_ctz f
  | .popc f => issues_popc f
  | .brev f => issues_brev f
  | .bext f => issues_bext f
  | .bins f => issues_bins f
  | .sext f => issues_sext f
  | .zext f => issues_zext f
  | .cmp f => issues_cmp f
  | .cmpi f => issues_cmpi f
  | .cmpiX f => issues_cmpiX f
  | .pand f => issues_pand f
  | .por f => issues_por f
  | .pxor f => issues_pxor f
  | .pnot f => issues_pnot f
  | .pset f => issues_pset f
  | .pget f => issues_pget f
  | .sel f => issues_sel f
  | .lea f => issues_lea f
  | .leaX f => issues_leaX f
  | .nopC f => issues_nopC f
  | .nop f => issues_nop f
  | .hint f => issues_hint f
  | .hintX f => issues_hintX f
  | .rdcyc f => issues_rdcyc f
  | .rdcnt f => issues_rdcnt f
  | .br f => issues_br f
  | .brX f => issues_brX f
  | .brx f => issues_brx f
  | .call f => issues_call f
  | .callX f => issues_callX f
  | .ret f => issues_ret f
  | .endC f => issues_endC f
  | .endW f => issues_endW f
  | .fadd f => issues_fadd f
  | .fsub f => issues_fsub f
  | .fmul f => issues_fmul f
  | .ffma f => issues_ffma f
  | .fdiv f => issues_fdiv f
  | .fsqrt f => issues_fsqrt f
  | .fmin f => issues_fmin f
  | .fmax f => issues_fmax f
  | .fabs f => issues_fabs f
  | .fneg f => issues_fneg f
  | .fcmp f => issues_fcmp f
  | .fclass f => issues_fclass f
  | .tadd f => issues_tadd f
  | .tsub f => issues_tsub f
  | .tmul f => issues_tmul f
  | .tfma f => issues_tfma f
  | .tdiv f => issues_tdiv f
  | .tsqrt f => issues_tsqrt f
  | .tmin f => issues_tmin f
  | .tmax f => issues_tmax f
  | .tabs f => issues_tabs f
  | .tneg f => issues_tneg f
  | .tcmp f => issues_tcmp f
  | .spz f => issues_spz f
  | .spfma f => issues_spfma f
  | .spfms f => issues_spfms f
  | .spadd f => issues_spadd f
  | .spsub f => issues_spsub f
  | .sprnd f => issues_sprnd f
  | .spld f => issues_spld f
  | .spldX f => issues_spldX f
  | .spst f => issues_spst f
  | .spstX f => issues_spstX f
  | .cvt f => issues_cvt f
  | .lclaim f => issues_lclaim f
  | .lrel f => issues_lrel f
  | .lcount f => issues_lcount f
  | .vadd f => issues_vadd f
  | .vsub f => issues_vsub f
  | .vmul f => issues_vmul f
  | .vmulh f => issues_vmulh f
  | .vmad f => issues_vmad f
  | .vmin f => issues_vmin f
  | .vmax f => issues_vmax f
  | .vabs f => issues_vabs f
  | .vand f => issues_vand f
  | .vor f => issues_vor f
  | .vxor f => issues_vxor f
  | .vshl f => issues_vshl f
  | .vshr f => issues_vshr f
  | .vsar f => issues_vsar f
  | .vrshr f => issues_vrshr f
  | .vsat f => issues_vsat f
  | .vclamp f => issues_vclamp f
  | .vdot4 f => issues_vdot4 f
  | .vdot2 f => issues_vdot2 f
  | .vfadd f => issues_vfadd f
  | .vfsub f => issues_vfsub f
  | .vfmul f => issues_vfmul f
  | .vffma f => issues_vffma f
  | .vfmin f => issues_vfmin f
  | .vfmax f => issues_vfmax f
  | .vfabs f => issues_vfabs f
  | .vfneg f => issues_vfneg f
  | .vexp2 f => issues_vexp2 f
  | .vlog2 f => issues_vlog2 f
  | .vrcp f => issues_vrcp f
  | .vrsqrt f => issues_vrsqrt f
  | .vsqrt f => issues_vsqrt f
  | .vdiv f => issues_vdiv f
  | .vtadd f => issues_vtadd f
  | .vtsub f => issues_vtsub f
  | .vtmul f => issues_vtmul f
  | .vtfma f => issues_vtfma f
  | .vtmin f => issues_vtmin f
  | .vtmax f => issues_vtmax f
  | .vspz f => issues_vspz f
  | .vspfma f => issues_vspfma f
  | .vsprnd f => issues_vsprnd f
  | .vcmp f => issues_vcmp f
  | .vfcmp f => issues_vfcmp f
  | .vtcmp f => issues_vtcmp f
  | .vsel f => issues_vsel f
  | .kand f => issues_kand f
  | .kor f => issues_kor f
  | .kxor f => issues_kxor f
  | .knot f => issues_knot f
  | .kset f => issues_kset f
  | .kget f => issues_kget f
  | .vcvt f => issues_vcvt f
  | .vpack f => issues_vpack f
  | .vunpack f => issues_vunpack f
  | .vbcast f => issues_vbcast f
  | .vext f => issues_vext f
  | .vperm f => issues_vperm f
  | .vslide f => issues_vslide f
  | .vred f => issues_vred f
  | .vscan f => issues_vscan f
  | .vld f => issues_vld f
  | .vldX f => issues_vldX f
  | .vst f => issues_vst f
  | .vstX f => issues_vstX f
  | .vlds f => issues_vlds f
  | .vldsX f => issues_vldsX f
  | .vsts f => issues_vsts f
  | .vstsX f => issues_vstsX f
  | .vldx f => issues_vldx f
  | .vldxX f => issues_vldxX f
  | .vstx f => issues_vstx f
  | .vstxX f => issues_vstxX f
  | .mfmt f => issues_mfmt f
  | .mscl f => issues_mscl f
  | .msclX f => issues_msclX f
  | .mlb f => issues_mlb f
  | .mlbX f => issues_mlbX f
  | .mma f => issues_mma f
  | .mmaX f => issues_mmaX f
  | .mrot f => issues_mrot f
  | .mzero f => issues_mzero f
  | .mdrain f => issues_mdrain f
  | .mrow f => issues_mrow f
  | .falloc f => issues_falloc f
  | .ffree f => issues_ffree f
  | .sarm f => issues_sarm f
  | .sig f => issues_sig f
  | .sigX f => issues_sigX f
  | .sigv f => issues_sigv f
  | .sigb f => issues_sigb f
  | .fire f => issues_fire f
  | .sget f => issues_sget f
  | .ldf f => issues_ldf f
  | .stf f => issues_stf f
  | .rinit f => issues_rinit f
  | .racq f => issues_racq f
  | .rcom f => issues_rcom f
  | .rpeek f => issues_rpeek f
  | .rrel f => issues_rrel f
  | .ldC f => issues_ldC f
  | .ld f => issues_ld f
  | .ldX f => issues_ldX f
  | .stC f => issues_stC f
  | .st f => issues_st f
  | .stX f => issues_stX f
  | .ldrm f => issues_ldrm f
  | .strm f => issues_strm f
  | .aadd f => issues_aadd f
  | .amin f => issues_amin f
  | .amax f => issues_amax f
  | .aminu f => issues_aminu f
  | .amaxu f => issues_amaxu f
  | .aand f => issues_aand f
  | .aor f => issues_aor f
  | .axor f => issues_axor f
  | .aswp f => issues_aswp f
  | .acas f => issues_acas f
  | .afadd f => issues_afadd f
  | .aspadd f => issues_aspadd f
  | .fence f => issues_fence f
  | .twld f => issues_twld f
  | .twst f => issues_twst f
  | .twmc f => issues_twmc f
  | .twg f => issues_twg f
  | .tws f => issues_tws f
  | .twq f => issues_twq f
  | .twcan f => issues_twcan f
  | .stepd f => issues_stepd f
  | .ldst f => issues_ldst f
  | .stepq f => issues_stepq f
  | .sqtab f => issues_sqtab f
  | .sqinit f => issues_sqinit f
  | .sqstage f => issues_sqstage f
  | .sqstep f => issues_sqstep f
  | .sqrd f => issues_sqrd f
  | .glaunch f => issues_glaunch f
  | .gquery f => issues_gquery f
  | .gcan f => issues_gcan f
  | .sysr f => issues_sysr f
  | .sysw f => issues_sysw f
  | .trap f => issues_trap f
  | .trapX f => issues_trapX f
  | .brk f => issues_brk f
  | .snap f => issues_snap f
  | .clockPinned die => issues_clockPinned die
  | .softError key bits => issues_softError key bits
  | .fillComplete cid => issues_fillComplete cid

/-- What issues under a guard that is false only counts. -/
theorem issues_skip {i : Instr} {len : Nat} {g : BitVec 4} {s : State} (h : Issues i len g) (hguard : guardHolds g s.ctx = false) :
    exec i s = .next (s.countIssue len) := by
  obtain ⟨effect, h⟩ := h
  rw [h, hguard]
  rfl

/-- Settles O7: every instruction issues. -/
theorem guardFalse : Obligations.GuardFalse := by
  intro i s
  have hlaw := issues_every i
  rw [IssueLaw] at hlaw
  refine ⟨fun m n f henc hguard => ?_, fun m n f henc hguard => ?_⟩
  · rw [henc] at hlaw
    exact issues_skip hlaw hguard
  · rw [henc] at hlaw
    exact issues_skip hlaw hguard

/-! ### The count of an issue (R38, R39, R106) -/

/-- The core of an issue: its context counts, and its cycle counter and its last context are written. -/
theorem core_countIssue (s : State) (len : Nat) : (s.countIssue len).core s.cur.1 =
    State.setCtxOf { s.core s.cur.1 with cyc := (s.core s.cur.1).cyc + 1 + Config.freeWait s.tick, last := s.cur.2 } s.cur.2
      { s.ctx with issued := s.ctx.issued + 1, ipc := s.ctx.pc, pc := s.ctx.pc + BitVec.ofNat 64 len } := by
  have hctx := State.ctx_countIssue s len
  rw [← hctx]
  unfold State.countIssue
  rw [State.ctx_modCtx]
  simp only [State.modCtx, State.setCtx, State.modCur_cur, State.core_modCore, State.core_modCur]

/-- Settles O8: the parts of the core and of the machine that an issue names. -/
theorem issueCounts : Obligations.IssueCounts := by
  intro s len t c d other
  have hd : d = _ := core_countIssue s len
  refine ⟨State.ctx_countIssue s len, ?_, ?_, ?_, ?_, fun k hk => ?_, rfl⟩
  · rw [hd]
    by_cases hx : s.cur.2 = 0
    · simp [State.setCtxOf, State.ctxOf, other, hx]; rfl
    · simp [State.setCtxOf, State.ctxOf, other, hx]; rfl
  · rw [hd, State.setCtxOf]; split <;> rfl
  · rw [hd, State.setCtxOf]; split <;> exact Nat.le_add_right ..
  · rw [hd, State.setCtxOf]; split <;> rfl
  · show ((s.modCur _).modCtx _).core k = _
    exact (State.core_modCore_other _ _ _ _ hk).trans (State.core_modCore_other _ _ _ _ hk)

end Sys2Proof.Proofs.Steps
end

section
/-! PROOFS. What a scalar register reads and what a write of it does (O9, O10, R42 to R47, R205). -/

namespace Sys2Proof.Proofs.ScalarRegisters

open Sys2Proof.Machine

/-! ### Reads (R42 to R44, R47) -/

theorem readS_zero (s : State) : s.readS 0 = .ok (0, s) := rfl
theorem readS_fb (s : State) : s.readS 60 = .ok (s.fb, s) := rfl
theorem readS_fi (s : State) : s.readS 61 = .ok (s.fi, s) := rfl
theorem readS_stp (s : State) : s.readS 62 = .ok ((s.core s.cur.1).stp, s) := rfl

/-- A register that is neither a port nor one of fixed meaning gives its value. -/
theorem readS_plain (s : State) {r : BitVec 6} (h : 1 ≤ r.toNat ∧ r.toNat ≤ 55 ∨ r = 63) : s.readS r = .ok (s.ctx.s.get 0 r.toNat, s) := by
  have hn : 1 ≤ r.toNat ∧ r.toNat ≤ 55 ∨ r.toNat = 63 := h.imp_right fun h => by rw [h]; rfl
  unfold State.readS
  split
  case h_5 => exact if_neg (by omega)
  all_goals omega

/-- A port register pops its inbound FIFO (R47). -/
theorem readS_port (s : State) {r : BitVec 6} (h : 56 ≤ r.toNat) (h' : r.toNat ≤ 59) : s.readS r =
    match (s.core s.cur.1).inq.get [] (r.toNat - 56) with
    | [] => .error 0x05
    | w :: l => .ok (w, s.modCur (fun c => { c with inq := c.inq.set (r.toNat - 56) l })) := by
  unfold State.readS
  split
  case h_5 => exact (if_pos ⟨h, h'⟩).trans rfl
  all_goals omega

/-! ### Writes (R42, R47) -/

theorem writeS_zero (s : State) (v : Word) : s.writeS 0 v = .ok s := rfl

/-- A register that is no port and can be a destination holds what is written. -/
theorem writeS_plain (s : State) {r : BitVec 6} (v : Word) (h : 1 ≤ r.toNat ∧ r.toNat ≤ 55 ∨ r = 63) :
    s.writeS r v = .ok (s.modCtx (fun k => { k with s := k.s.set r.toNat v })) := by
  have hn : 1 ≤ r.toNat ∧ r.toNat ≤ 55 ∨ r.toNat = 63 := h.imp_right fun h => by rw [h]; rfl
  unfold State.writeS
  dsimp only
  rw [if_neg (by omega), if_neg (by omega)]

/-- A port register pushes what is written behind its outbound FIFO (R47). -/
theorem writeS_port (s : State) {r : BitVec 6} (v : Word) (h : 56 ≤ r.toNat) (h' : r.toNat ≤ 59) : s.writeS r v =
    if 16 ≤ ((s.core s.cur.1).outq.get [] (r.toNat - 56)).length then .error 0x06
    else .ok (s.modCur (fun c => { c with outq := c.outq.set (r.toNat - 56) ((s.core s.cur.1).outq.get [] (r.toNat - 56) ++ [v]) })) := by
  unfold State.writeS
  dsimp only
  rw [if_neg (by omega), if_pos ⟨h, h'⟩]

/-- A write of a scalar register changes the registers of the context or an outbound FIFO of its core, and nothing else. -/
theorem writeS_cases {s t : State} {r : BitVec 6} {v : Word} (h : s.writeS r v = .ok t) :
    t = s ∨ (∃ i q, t = s.modCur (fun c => { c with outq := c.outq.set i q })) ∨
      ∃ i, t = s.modCtx (fun k => { k with s := k.s.set i v }) := by
  unfold State.writeS at h
  dsimp only at h
  split at h
  · exact .inl (Except.ok.inj h).symm
  · split at h
    · split at h
      · cases h
      · exact .inr (.inl ⟨_, _, (Except.ok.inj h).symm⟩)
    · exact .inr (.inr ⟨_, (Except.ok.inj h).symm⟩)

/-! ### The fixed registers (R43, R44) -/

/-- A change of the core that leaves its contexts leaves the context that issues. -/
theorem ctx_modCur (s : State) (g : Core → Core) (h0 : ∀ c, (g c).ctx0 = c.ctx0) (h1 : ∀ c, (g c).ctx1 = c.ctx1) :
    (s.modCur g).ctx = s.ctx := by
  unfold State.ctx
  rw [State.modCur_cur, State.core_modCur, State.ctxOf, State.ctxOf, h0, h1]

theorem fb_eq {s : State} {im : Image} (h : (s.part (s.partOf s.cur.1)).image = some im) :
    s.fb = BitVec.ofNat 64 (0x20000 - 256 * im.frames + 256 * s.ctx.frame) := by
  rw [State.fb, State.carveBase, State.frames, h]

theorem fi_toNat (s : State) : s.fi.toNat = s.ctx.slot % 8 + s.cur.2 % 2 * 8 + s.ctx.frame % 256 * 16 := by
  rw [State.fi, BitVec.toNat_ofNat, Nat.mod_eq_of_lt (by omega)]

/-- Settles O9: each kind of source register. -/
theorem readRegister : Obligations.ReadRegister := by
  intro s
  refine ⟨readS_zero s, readS_fb s, readS_fi s, readS_stp s, fun r hr => readS_plain s hr, fun r h h' hq => ?_, fun r w l h h' hq => ?_,
    fun im => fb_eq, ?_, ?_, ?_⟩
  · rw [readS_port s h h', hq]
  · have hread := readS_port s h h'
    rw [hq] at hread
    refine ⟨_, hread, ?_, fun j hj => ?_, ctx_modCur _ _ (fun _ => rfl) (fun _ => rfl), rfl⟩
    · rw [State.core_modCur]; exact Tbl.get_set_same ..
    · rw [State.core_modCur]; exact Tbl.get_set_other _ _ _ _ _ hj
  all_goals rw [fi_toNat]; omega

/-- Settles O10: each kind of destination register. -/
theorem writeRegister : Obligations.WriteRegister := by
  intro s v
  refine ⟨writeS_zero s v, fun r hr => ?_, fun r h h' hq => ?_, fun r h h' hq => ?_⟩
  · refine ⟨_, writeS_plain s v hr, ?_, fun j hj => ?_, ?_⟩
    · rw [readS_plain _ hr, State.ctx_modCtx, Tbl.get_set_same]
    · rw [State.ctx_modCtx, Tbl.get_set_other _ _ _ _ _ hj]
    · rw [State.ctx_modCtx]
      exact ⟨rfl, rfl, rfl, rfl, rfl, rfl, rfl, rfl, rfl⟩
  · rw [writeS_port s v h h', if_pos hq]
  · have hwrite := writeS_port s v h h'
    rw [if_neg (Nat.not_le.mpr hq)] at hwrite
    refine ⟨_, hwrite, ?_, ctx_modCur _ _ (fun _ => rfl) (fun _ => rfl), rfl⟩
    rw [State.core_modCur]
    exact Tbl.get_set_same ..

end Sys2Proof.Proofs.ScalarRegisters
end

section
/-! PROOFS. Compares, predicates, selection, marks, counters and control transfers (O15 to O19, R100 to R112). -/

namespace Sys2Proof.Proofs.Control

open Sys2Proof.Machine Sys2Proof.Proofs.ScalarRegisters

/-! ### Compares (R100, R101) -/

theorem intCond_of_mem : ∀ x ∈ Claims.conditions, ∀ a y, intCond x.1.toNat a y = x.2 a y := by
  simp only [Claims.conditions, List.forall_mem_cons, List.not_mem_nil, false_implies, implies_true, and_true]
  exact ⟨fun _ _ => rfl, fun _ _ => rfl, fun _ _ => rfl, fun _ _ => rfl, fun _ _ => rfl, fun _ _ => rfl, fun _ _ => rfl, fun _ _ => rfl,
    fun _ _ => rfl, fun _ _ => rfl⟩

theorem cmpOp_ok {f : WForm} {s s1 : State} {a b : Word} (h : s.readAB f = .ok (a, b, s1)) :
    State.cmpOp f s = .ok (s1.writeP f.d.toNat (intCond f.c.toNat a b)) := by rw [State.cmpOp, h]; rfl

theorem cmpiOp_ok {f : WForm} {s s1 : State} {a : Word} (y : Word) (h : s.readS f.a = .ok (a, s1)) :
    State.cmpiOp f y s = .ok (s1.writeP f.d.toNat (intCond f.c.toNat a y)) := by rw [State.cmpiOp, h]; rfl

theorem writeP_zero (s : State) (b : Bool) : s.writeP 0 b = s := rfl

/-- A predicate other than p0 is written in the context alone. -/
theorem writeP_eq (s : State) {n : Nat} (b : Bool) (h0 : 0 < n) (h8 : n < 8) : s.writeP n b =
    s.modCtx (fun k => { k with p := if b then k.p ||| (1#8 <<< n) else k.p &&& ~~~(1#8 <<< n) }) := by
  rw [State.writeP, Nat.mod_eq_of_lt h8, if_neg (Nat.ne_of_gt h0)]

/-- A bit written into the predicates reads back, and the others stay. -/
theorem getLsbD_writeBit (p : BitVec 8) (b : Bool) {n m : Nat} (hm : m < 8) :
    (if b then p ||| (1#8 <<< n) else p &&& ~~~(1#8 <<< n)).getLsbD m = if m = n then b else p.getLsbD m := by
  have hbit : (1#8 <<< n).getLsbD m = decide (m = n) := by
    rw [BitVec.getLsbD_shiftLeft, BitVec.getLsbD_one]
    simp only [hm, decide_true, Bool.true_and, Nat.zero_lt_succ]
    by_cases h : m < n
    · simp [h, Nat.ne_of_lt h]
    · simp only [h, decide_false, Bool.not_false, Bool.true_and, decide_eq_decide]
      omega
  cases b
  case true =>
    rw [if_pos rfl, BitVec.getLsbD_or, hbit]
    by_cases h : m = n <;> simp [h]
  case false =>
    rw [if_neg Bool.false_ne_true, BitVec.getLsbD_and, BitVec.getLsbD_not, hbit]
    by_cases h : m = n <;> simp [h, hm]

theorem readP_writeP (s : State) (b : Bool) {n m : Nat} (h0 : 0 < n) (h8 : n < 8) (hm : m < 8) :
    (s.writeP n b).readP m = if m = n then b else s.readP m := by
  rw [writeP_eq s b h0 h8, State.readP, State.readP, State.ctx_modCtx, Nat.mod_eq_of_lt hm]
  dsimp only
  rw [getLsbD_writeBit _ _ hm]
  by_cases h : m = n
  · simp [h, Nat.ne_of_gt h0]
  · simp [h]

/-- Settles O15: the three compares share their condition, and a predicate is one bit. -/
theorem compares : Obligations.Compares := by
  refine ⟨fun x hx => ?_, fun s n b => ⟨writeP_zero s b, fun h0 h8 => ?_⟩⟩
  · have hcond := intCond_of_mem x hx
    refine ⟨fun f s s1 a b hguard hc hread => ?_, fun f s s1 a hguard hc hread => ?_, fun f s s1 a hguard hc hread => ?_⟩
    all_goals rw [← hcond, ← hc]
    · exact issue_ok hguard (cmpOp_ok hread)
    · exact issue_ok hguard (cmpiOp_ok _ hread)
    · exact issue_ok hguard (cmpiOp_ok (f := f.toW) _ hread)
  · refine ⟨by rw [readP_writeP s b h0 h8 h8, if_pos rfl], fun m hm hne => by rw [readP_writeP s b h0 h8 hm, if_neg hne], ?_, ?_⟩
    · rw [writeP_eq s b h0 h8, State.ctx_modCtx]
    · rw [writeP_eq s b h0 h8]; rfl

/-! ### Predicates, sel and lea (R102 to R104) -/

theorem psetOp_ok {f : WForm} {s s1 : State} {a : Word} (h : s.readS f.a = .ok (a, s1)) :
    State.psetOp f s = .ok (s1.modCtx (fun k => { k with p := a.setWidth 8 &&& 0xFE })) := by rw [State.psetOp, h]; rfl

theorem selOp_ok {f : WForm} {s s1 t : State} {a b : Word} (h : s.readAB f = .ok (a, b, s1))
    (hw : s1.writeS f.d (if s1.readP f.c.toNat then a else b) = .ok t) : State.selOp f s = .ok t := by rw [State.selOp, h]; exact hw

theorem leaOp_ok {f : WForm} {s s1 t : State} {a b i : Word} (h : s.readAB f = .ok (a, b, s1))
    (hw : s1.writeS f.d (a + (b <<< (f.c.toNat % 8)) + i) = .ok t) : State.leaOp f i s = .ok t := by rw [State.leaOp, h]; exact hw

/-- Bits 1 to 7 of the mask that keeps p0 out are set. -/
theorem getLsbD_predMask {n : Nat} (h0 : 0 < n) (h8 : n < 8) : (0xFE : BitVec 8).getLsbD n = true := by
  have : ∀ n : Fin 8, 0 < n.val → (0xFE : BitVec 8).getLsbD n.val = true := by decide
  exact this ⟨n, h8⟩ h0

theorem readP_pset (s : State) (a : Word) {n : Nat} (h0 : 0 < n) (h8 : n < 8) :
    (s.modCtx (fun k => { k with p := a.setWidth 8 &&& 0xFE })).readP n = a.getLsbD n := by
  rw [State.readP, State.ctx_modCtx, Nat.mod_eq_of_lt h8]
  dsimp only
  rw [BitVec.getLsbD_and, getLsbD_predMask h0 h8, BitVec.getLsbD_setWidth]
  simp [h8, Nat.ne_of_gt h0]

/-- pget gathers the eight predicates. -/
theorem getLsbD_pget (s : State) {i : Nat} (h : i < 64) :
    ((s.ctx.p ||| 1).setWidth 64).getLsbD i = (decide (i < 8) && s.readP i) := by
  rw [BitVec.getLsbD_setWidth, BitVec.getLsbD_or, State.readP]
  by_cases h8 : i < 8
  · rw [Nat.mod_eq_of_lt h8, show (1 : BitVec 8).getLsbD i = decide (i = 0) by rw [show (1 : BitVec 8) = 1#8 from rfl, BitVec.getLsbD_one]; simp]
    by_cases h0 : i = 0 <;> simp [h8, h0, h]
  · simp [h8, BitVec.getLsbD_of_ge _ _ (Nat.le_of_not_lt h8)]

/-- The sum of lea (R104). -/
theorem lea_eq (a b i : Word) {c : Nat} {z : Int} (hc : c < 8) (hi : i = BitVec.ofInt 64 z) :
    a + (b <<< (c % 8)) + i = BitVec.ofInt 64 (a.toNat + b.toNat * 2 ^ c + z) := by
  rw [Nat.mod_eq_of_lt hc, hi, BitVec.ofInt_add, BitVec.ofInt_add]
  congr 2
  · rw [BitVec.ofInt_natCast, BitVec.ofNat_toNat, BitVec.setWidth_eq]
  · apply BitVec.eq_of_toNat_eq
    rw [BitVec.toNat_shiftLeft, Nat.shiftLeft_eq]
    exact_mod_cast (BitVec.toNat_ofNat (b.toNat * 2 ^ c) 64).symm

/-- Settles O16: the bodies with their results. -/
theorem predicatesAndSelect : Obligations.PredicatesAndSelect := by
  intro f s hguard u
  refine ⟨issue_ok (body := State.predOp and f) hguard rfl, issue_ok (body := State.predOp or f) hguard rfl,
    issue_ok (body := State.predOp xor f) hguard rfl, issue_ok (body := State.predOp (fun a _ => !a) f) hguard rfl, fun a s1 hread => ?_, fun v t hv hw => ?_,
    fun a b s1 t hread hw => issue_ok hguard (selOp_ok hread hw), fun a b s1 t hc hread hw => ?_, fun g a b s1 t hg hc hread hw => ?_⟩
  · refine ⟨_, issue_ok hguard (psetOp_ok hread), fun n => readP_pset s1 a, ?_, rfl⟩
    rw [State.ctx_modCtx]
  · have hv : v = (u.ctx.p ||| 1).setWidth 64 := BitVec.eq_of_getLsbD_eq fun i hi => by rw [hv i hi, getLsbD_pget u hi]
    rw [hv] at hw
    exact issue_ok hguard hw
  · refine issue_ok hguard (leaOp_ok hread ?_)
    rwa [lea_eq a b f.imm hc rfl]
  · refine issue_ok hg (leaOp_ok hread ?_)
    show s1.writeS g.d (a + (b <<< (g.c.toNat % 8)) + g.imm) = .ok t
    rwa [lea_eq a b g.imm hc rfl]

/-! ### Marks and counters (R105 to R108) -/

/-- The parts of the core that no issue and no write of a register reaches. -/
theorem conflicts_setCtxOf (c : Core) (x : Nat) (k : Ctx) : (State.setCtxOf c x k).conflicts = c.conflicts := by
  unfold State.setCtxOf; split <;> rfl
theorem ready_setCtxOf (c : Core) (x : Nat) (k : Ctx) : (State.setCtxOf c x k).ready = c.ready := by unfold State.setCtxOf; split <;> rfl

theorem conflicts_countIssue (s : State) (len : Nat) :
    ((s.countIssue len).core s.cur.1).conflicts = (s.core s.cur.1).conflicts := by rw [Steps.core_countIssue, conflicts_setCtxOf]

theorem ready_countIssue (s : State) (len : Nat) : ((s.countIssue len).core s.cur.1).ready = (s.core s.cur.1).ready := by
  rw [Steps.core_countIssue, ready_setCtxOf]

theorem conflicts_modCtx (s : State) (g : Ctx → Ctx) : ((s.modCtx g).core s.cur.1).conflicts = (s.core s.cur.1).conflicts := by
  rw [State.modCtx, State.setCtx, State.core_modCore, conflicts_setCtxOf]

theorem conflicts_writeS {s t : State} {r : BitVec 6} {v : Word} (h : s.writeS r v = .ok t) :
    (t.core s.cur.1).conflicts = (s.core s.cur.1).conflicts := by
  obtain rfl | ⟨i, q, rfl⟩ | ⟨i, rfl⟩ := writeS_cases h
  · rfl
  · rw [State.core_modCur]
  · rw [conflicts_modCtx]

/-- Settles O17: the counters that each form reads. -/
theorem marksAndCounters : Obligations.MarksAndCounters := by
  intro f s hguard u
  have hconf : (u.core u.cur.1).conflicts = (s.core s.cur.1).conflicts := conflicts_countIssue s 8
  have hready : (u.core u.cur.1).ready = (s.core s.cur.1).ready := ready_countIssue s 8
  have hissued : u.ctx.issued - 1 = s.ctx.issued := by rw [State.ctx_countIssue]; rfl
  have hrdcnt : ∀ t, State.rdcntOp f u = .ok t → exec (.rdcnt f) s = .next t := fun t h => issue_ok hguard h
  refine ⟨issue_ok hguard rfl, issue_ok hguard rfl, fun g => issue_ok (guardHolds_zero _) rfl, fun g hg => issue_ok hg rfl,
    fun t hw => issue_ok hguard hw, fun t hsel hclr hw => hrdcnt t ?_, fun t hsel hclr hw => ⟨hrdcnt t ?_, ?_⟩, fun t hsel hw => hrdcnt t ?_,
    fun t hsel hw => hrdcnt t ?_⟩
  · rw [State.rdcntOp, hsel, hclr, hconf]; exact hw
  · rw [State.rdcntOp, hsel, hclr, hconf]; exact hw
  · exact (conflicts_writeS hw).trans (by rw [State.modCur_cur, State.core_modCur])
  · rw [State.rdcntOp, hsel, hissued]; exact hw
  · rw [State.rdcntOp, hsel, hready]; exact hw

/-! ### Control transfers (R109 to R112) -/

theorem jump_ok {s : State} {t : Word} (h : Claims.admits s t) : s.jump t = .ok (Claims.goesTo s t) := by
  obtain ⟨h4, hrange⟩ := h
  rw [State.jump, State.checkTarget, decide_eq_true h4, need_true, ok_bind, decide_eq_true hrange, need_true]
  rfl

theorem jump_unaligned {s : State} {t : Word} (h : t.toNat % 4 ≠ 0) : s.jump t = .error 0x03 := by
  rw [State.jump, State.checkTarget, decide_eq_false h, need_false]
  rfl

theorem jump_outside {s : State} {t : Word} (h4 : t.toNat % 4 = 0) (h : t.toNat < s.codeRange.1 ∨ s.codeRange.2 ≤ t.toNat) :
    s.jump t = .error 0x01 := by
  rw [State.jump, State.checkTarget, decide_eq_true h4, need_true, ok_bind, decide_eq_false (by omega), need_false]
  rfl

/-- A displacement counts in parcels from the address of its instruction (R110). -/
theorem displaced_eq (pc i : Word) {z : Int} (h : i = BitVec.ofInt 64 z) : pc + 4 * i = BitVec.ofInt 64 (pc.toInt + 4 * z) := by
  rw [BitVec.ofInt_add, BitVec.ofInt_toInt, h]
  congr 1
  exact (BitVec.ofInt_mul 4 z).symm

theorem ipc_countIssue (s : State) (len : Nat) : (s.countIssue len).ctx.ipc = s.ctx.pc := by rw [State.ctx_countIssue]
theorem pc_countIssue (s : State) (len : Nat) : (s.countIssue len).ctx.pc = s.ctx.pc + BitVec.ofNat 64 len := by rw [State.ctx_countIssue]
theorem s_countIssue (s : State) (len : Nat) : (s.countIssue len).ctx.s = s.ctx.s := by rw [State.ctx_countIssue]

section Displaced

variable {s : State} {len : Nat} {i : Word} {z : Int} (hi : i = BitVec.ofInt 64 z)
include hi

theorem brOp_countIssue : State.brOp i (s.countIssue len) = (s.countIssue len).jump (BitVec.ofInt 64 (s.ctx.pc.toInt + 4 * z)) := by
  rw [State.brOp, ipc_countIssue, displaced_eq _ _ hi]

/-- call writes ln where its target is admitted. -/
theorem callOp_countIssue : State.callOp i (s.countIssue len) = (do
    let t ← (s.countIssue len).jump (BitVec.ofInt 64 (s.ctx.pc.toInt + 4 * z))
    pure (t.modCtx (fun k => { k with s := k.s.set 63 (s.ctx.pc + BitVec.ofNat 64 len) }))) := by
  rw [State.callOp, ipc_countIssue, pc_countIssue, displaced_eq _ _ hi]

theorem callOp_ok (h : Claims.admits (s.countIssue len) (BitVec.ofInt 64 (s.ctx.pc.toInt + 4 * z))) :
    State.callOp i (s.countIssue len) = .ok ((Claims.goesTo (s.countIssue len) (BitVec.ofInt 64 (s.ctx.pc.toInt + 4 * z))).modCtx
      (fun k => { k with s := k.s.set 63 (s.ctx.pc + BitVec.ofNat 64 len) })) := by
  rw [callOp_countIssue hi, jump_ok h]
  rfl

theorem callOp_error {c : Code} (h : (s.countIssue len).jump (BitVec.ofInt 64 (s.ctx.pc.toInt + 4 * z)) = .error c) :
    State.callOp i (s.countIssue len) = .error c := by
  rw [callOp_countIssue hi, h]
  rfl

end Displaced

theorem brxOp_eq {f : WForm} {s s1 : State} {a : Word} (h : s.readS f.a = .ok (a, s1)) : State.brxOp f s = s1.jump a := by
  rw [State.brxOp, h]; rfl

theorem retOp_countIssue (s : State) (len : Nat) : State.retOp (s.countIssue len) = (s.countIssue len).jump (s.ctx.s.get 0 63) := by
  rw [State.retOp, s_countIssue]

/-- Settles O18: each transfer is a jump to its target. -/
theorem control : Obligations.Control := by
  intro f s hguard u v tw
  refine ⟨fun h => issue_ok hguard ?_, fun h => issue_ok hguard (callOp_ok rfl h), fun g hg => ?_, fun a s1 hread h => issue_ok hguard ?_,
    fun h => issue_ok hguard ?_, issue_ok (body := State.endOp) hguard rfl,
    fun g => issue_ok (body := State.endOp) (guardHolds_zero _) rfl, State.ctx_setCtx _ _, rfl, rfl, rfl⟩
  · exact (brOp_countIssue rfl).trans (jump_ok h)
  · exact ⟨fun h => issue_ok hg ((brOp_countIssue rfl).trans (jump_ok h)), fun h => issue_ok hg (callOp_ok rfl h)⟩
  · exact (brxOp_eq hread).trans (jump_ok h)
  · exact (retOp_countIssue s 8).trans (jump_ok h)

/-- Settles O19: a jump to a target that is not admitted faults. -/
theorem controlFaults : Obligations.ControlFaults := by
  intro f s hguard u tw
  simp only [List.forall_mem_cons, List.not_mem_nil, false_implies, implies_true, and_true]
  refine ⟨⟨⟨fun h => issue_error hguard ?_, fun h4 h => issue_error hguard ?_⟩, ⟨fun h => issue_error hguard ?_,
    fun h4 h => issue_error hguard ?_⟩⟩, fun g hg => ⟨⟨fun h => issue_error hg ?_, fun h4 h => issue_error hg ?_⟩,
    ⟨fun h => issue_error hg ?_, fun h4 h => issue_error hg ?_⟩⟩, fun a s1 hread h => issue_error hguard ?_,
    fun a s1 hread h4 h => issue_error hguard ?_, fun h => issue_error hguard ?_, fun h4 h => issue_error hguard ?_⟩
  · exact (brOp_countIssue rfl).trans (jump_unaligned h)
  · exact (brOp_countIssue rfl).trans (jump_outside h4 h)
  · exact callOp_error rfl (jump_unaligned h)
  · exact callOp_error rfl (jump_outside h4 h)
  · exact (brOp_countIssue rfl).trans (jump_unaligned h)
  · exact (brOp_countIssue rfl).trans (jump_outside h4 h)
  · exact callOp_error rfl (jump_unaligned h)
  · exact callOp_error rfl (jump_outside h4 h)
  · exact (brxOp_eq hread).trans (jump_unaligned h)
  · exact (brxOp_eq hread).trans (jump_outside h4 h)
  · exact (retOp_countIssue s 8).trans (jump_unaligned h)
  · exact (retOp_countIssue s 8).trans (jump_outside h4 h)

end Sys2Proof.Proofs.Control
end

section
/-! PROOFS. The float, tapered and spool instructions complete with their results (O20, O21, O23, R113 to R126, R385). -/

namespace Sys2Proof.Proofs.Float

open Sys2Proof.Machine

/-! ### Operands (R113) -/

theorem low_eq (a : Word) : Claims.low a = a.setWidth 32 := (BitVec.setWidth_eq_extractLsb' (by decide)).symm

/-- Sources a, b and c are read in that order (R47). -/
theorem readABC_split {s s2 : State} {f : WForm} {a b c : Word} (h : Claims.readABC s f = .ok (a, b, c, s2)) :
    ∃ s1, s.readAB f = .ok (a, b, s1) ∧ s1.readS f.c = .ok (c, s2) := by
  rw [Claims.readABC] at h
  obtain ⟨⟨a', b', s1⟩, hab, h⟩ := bind_ok h
  obtain ⟨⟨c', s2'⟩, hc, h⟩ := bind_ok h
  cases h
  exact ⟨s1, hab, hc⟩

/-! ### FP32 (R115 to R118) -/

theorem fpBefore_iff (a b : BitVec 32) : fpBefore a b = true ↔ XReal.lt (decodeFp32 a) (decodeFp32 b) = true ∨
    (XReal.eq (decodeFp32 a) (decodeFp32 b) = true ∧ a.msb = true ∧ b.msb = false) := by
  simp [fpBefore, and_assoc]

theorem fpMin_eq (a b : BitVec 32) : fpMin a b = if (decodeFp32 a).isNan then (if (decodeFp32 b).isNan then 0x7FC00000 else b)
    else if (decodeFp32 b).isNan then a
    else if XReal.lt (decodeFp32 b) (decodeFp32 a) ∨ (XReal.eq (decodeFp32 b) (decodeFp32 a) ∧ b.msb = true ∧ a.msb = false) then b else a := by
  rw [fpMin]
  simp only [fpBefore_iff]
  cases (decodeFp32 a).isNan <;> cases (decodeFp32 b).isNan <;> rfl

theorem fpMax_eq (a b : BitVec 32) : fpMax a b = if (decodeFp32 a).isNan then (if (decodeFp32 b).isNan then 0x7FC00000 else b)
    else if (decodeFp32 b).isNan then a
    else if XReal.lt (decodeFp32 a) (decodeFp32 b) ∨ (XReal.eq (decodeFp32 a) (decodeFp32 b) ∧ a.msb = true ∧ b.msb = false) then b else a := by
  rw [fpMax]
  simp only [fpBefore_iff]
  cases (decodeFp32 a).isNan <;> cases (decodeFp32 b).isNan <;> rfl

/-- A result of two FP32 operands: the instruction's body is that of a two-operand operation, with that result. -/
def Float2Body (x : (WForm → Instr) × (BitVec 32 → BitVec 32 → Nat → BitVec 32)) : Prop :=
  ∃ g : BitVec 32 → BitVec 32 → Nat → BitVec 32, (∀ f s, exec (x.1 f) s = issue 8 f.guard s (State.fp2 (g · · (f.fld 14 2)) f)) ∧
    ∀ a b rm, g a b rm = x.2 a b rm

theorem float2Body_of_mem : ∀ x ∈ Claims.float2, Float2Body x := by
  simp only [Claims.float2, List.forall_mem_cons, List.not_mem_nil, false_implies, implies_true, and_true]
  exact ⟨⟨fpAdd, fun _ _ => rfl, fun _ _ _ => rfl⟩, ⟨fpSub, fun _ _ => rfl, fun _ _ _ => rfl⟩, ⟨fpMul, fun _ _ => rfl, fun _ _ _ => rfl⟩,
    ⟨fpDiv, fun _ _ => rfl, fun _ _ _ => rfl⟩, ⟨fun a b _ => fpMin a b, fun _ _ => rfl, fun a b _ => fpMin_eq a b⟩,
    ⟨fun a b _ => fpMax a b, fun _ _ => rfl, fun a b _ => fpMax_eq a b⟩⟩

/-- The same of one FP32 operand. -/
def Float1Body (x : (WForm → Instr) × (BitVec 32 → Nat → BitVec 32)) : Prop :=
  ∃ g : BitVec 32 → Nat → BitVec 32, (∀ f s, exec (x.1 f) s = issue 8 f.guard s (State.fp1 (fun a => (g a (f.fld 14 2)).setWidth 64) f)) ∧
    ∀ a rm, g a rm = x.2 a rm

theorem float1Body_of_mem : ∀ x ∈ Claims.float1, Float1Body x := by
  simp only [Claims.float1, List.forall_mem_cons, List.not_mem_nil, false_implies, implies_true, and_true]
  exact ⟨⟨fpSqrt, fun _ _ => rfl, fun _ _ => rfl⟩, ⟨fun a _ => fpAbs a, fun _ _ => rfl, fun _ _ => rfl⟩,
    ⟨fun a _ => fpNeg a, fun _ _ => rfl, fun _ _ => rfl⟩⟩

section Bodies

variable {f : WForm} {s s1 t : State} {a b : Word}

theorem fp2_ok {g : BitVec 32 → BitVec 32 → BitVec 32} (h : s.readAB f = .ok (a, b, s1))
    (hw : s1.writeS f.d ((g (Claims.low a) (Claims.low b)).setWidth 64) = .ok t) : State.fp2 g f s = .ok t := by
  rw [low_eq, low_eq] at hw
  rw [State.fp2, h]
  exact hw

theorem fp1_ok {g : BitVec 32 → Word} (h : s.readS f.a = .ok (a, s1)) (hw : s1.writeS f.d (g (Claims.low a)) = .ok t) :
    State.fp1 g f s = .ok t := by
  rw [low_eq] at hw
  rw [State.fp1, h]
  exact hw

theorem fcmpOp_ok (h : s.readAB f = .ok (a, b, s1)) : State.fcmpOp f s =
    .ok (s1.writeP f.d.toNat (fpCond f.c.toNat (decodeFp32 (Claims.low a)) (decodeFp32 (Claims.low b)))) := by
  rw [low_eq, low_eq, State.fcmpOp, h]
  rfl

end Bodies

/-- The class bit of an encoding is the one whose class it is in (R117). -/
theorem fpClass_of_mem (p : BitVec 32) : ∀ x ∈ Claims.classes, x.2 (p.getLsbD 31) (p.toNat / 2 ^ 23 % 256) (p.toNat % 2 ^ 23) = true →
    fpClass p = BitVec.ofNat 64 (2 ^ x.1) := by
  have hmsb : p.msb = p.getLsbD 31 := BitVec.msb_eq_getLsbD_last p
  unfold fpClass
  rw [hmsb]
  generalize p.getLsbD 31 = n
  generalize p.toNat / 2 ^ 23 % 256 = e
  generalize p.toNat % 2 ^ 23 = fr
  simp only [Claims.classes, List.forall_mem_cons, List.not_mem_nil, false_implies, implies_true, and_true, Bool.and_eq_true, Bool.not_eq_true',
    beq_iff_eq, bne_iff_ne, decide_eq_true_eq]
  refine ⟨?_, ?_, ?_, ?_, ?_, ?_, ?_, ?_, ?_, ?_⟩
  · rintro ⟨⟨rfl, rfl⟩, rfl⟩; rfl
  · rintro ⟨rfl, h0, h1⟩; rw [if_neg (by omega), if_neg (by omega), if_pos rfl]
  · rintro ⟨⟨rfl, rfl⟩, h⟩; rw [if_neg (by decide), if_pos rfl, if_neg h, if_pos rfl]
  · rintro ⟨⟨rfl, rfl⟩, rfl⟩; rfl
  · rintro ⟨⟨rfl, rfl⟩, rfl⟩; rfl
  · rintro ⟨⟨rfl, rfl⟩, h⟩; rw [if_neg (by decide), if_pos rfl, if_neg h, if_neg Bool.false_ne_true]
  · rintro ⟨rfl, h0, h1⟩; rw [if_neg (by omega), if_neg (by omega), if_neg Bool.false_ne_true]
  · rintro ⟨⟨rfl, rfl⟩, rfl⟩; rfl
  · rintro ⟨⟨rfl, h⟩, hlt⟩; rw [if_pos rfl, if_neg h, if_pos (by omega)]
  · rintro ⟨rfl, hge⟩; rw [if_pos rfl, if_neg (by omega), if_neg (by omega)]

theorem fpCond_of_mem : ∀ x ∈ Claims.floatConds, ∀ a b, fpCond x.1.toNat a b = x.2 a b := by
  simp only [Claims.floatConds, List.forall_mem_cons, List.not_mem_nil, false_implies, implies_true, and_true]
  refine ⟨fun _ _ => rfl, fun a b => ?_, fun _ _ => rfl, fun _ _ => rfl, fun _ _ => rfl, fun _ _ => rfl, fun _ _ => rfl⟩
  show (a.isNan || b.isNan || !(XReal.eq a b)) = !XReal.eq a b
  rw [XReal.eq]
  cases a.isNan <;> cases b.isNan <;> simp

/-- Settles O20: every instruction of the tables has the body of its result. -/
theorem floatResults : Obligations.FloatResults := by
  refine ⟨fun x hx f s s1 t a b hguard hread hwrite => ?_, fun x hx f s s1 t a hguard hread hwrite => ?_,
    fun f s s1 t a b c hguard hread hwrite => ?_, fun x hx f s s1 t a hguard hread hclass hwrite => ?_,
    fun x hx f s s1 a b hguard hc hread => ?_⟩
  · obtain ⟨g, hexec, hresult⟩ := float2Body_of_mem x hx
    rw [← hresult] at hwrite
    rw [hexec]
    exact issue_ok hguard (fp2_ok hread hwrite)
  · obtain ⟨g, hexec, hresult⟩ := float1Body_of_mem x hx
    rw [← hresult] at hwrite
    rw [hexec]
    exact issue_ok hguard (fp1_ok (g := fun a => (g a (f.fld 14 2)).setWidth 64) hread hwrite)
  · obtain ⟨s2, hab, hc⟩ := readABC_split hread
    refine issue_ok (body := State.ffmaOp f) hguard ?_
    rw [low_eq, low_eq, low_eq] at hwrite
    rw [State.ffmaOp, hab, ok_bind]
    dsimp only
    rw [hc]
    exact hwrite
  · rw [← fpClass_of_mem _ x hx hclass] at hwrite
    exact issue_ok hguard (fp1_ok hread hwrite)
  · rw [← fpCond_of_mem x hx, ← hc]
    exact issue_ok hguard (fcmpOp_ok hread)

/-! ### Tapered words (R25, R26, R119, R120) -/

theorem tfWidth_le (t : Nat) : (tfParams t).1 ≤ 32 := by unfold tfParams; split <;> decide
theorem tfWidth_pos (t : Nat) : 0 < (tfParams t).1 := by unfold tfParams; split <;> decide

/-- A tapered code is in the low 32 bits of its register. -/
theorem mod_mod_tfWidth (t v : Nat) : v % 2 ^ 32 % 2 ^ (tfParams t).1 = v % 2 ^ (tfParams t).1 :=
  Nat.mod_mod_of_dvd _ (Nat.pow_dvd_pow 2 (tfWidth_le t))

theorem decTf_low (t v : Nat) : decTf t (v % 2 ^ 32) = decTf t v := by rw [decTf, mod_mod_tfWidth, decTf]

theorem ofNat_mod_width (n v : Nat) : BitVec.ofNat n (v % 2 ^ n) = BitVec.ofNat n v := by
  apply BitVec.eq_of_toNat_eq; rw [BitVec.toNat_ofNat, BitVec.toNat_ofNat, Nat.mod_mod]

theorem ofNat_low (t v : Nat) : BitVec.ofNat (tfParams t).1 (v % 2 ^ 32) = BitVec.ofNat (tfParams t).1 v := by
  rw [← ofNat_mod_width, mod_mod_tfWidth, ofNat_mod_width]

theorem tfInt_low (t : Nat) (a : Word) : tfInt t (a.toNat % 2 ^ 32) = Claims.code t a := by rw [tfInt, ofNat_low, Claims.code]

/-- A code is placed as the integer that it is congruent to. -/
theorem tfPlace_eq {t p : Nat} {i : Int} (h : BitVec.ofNat (tfParams t).1 p = BitVec.ofInt (tfParams t).1 i) : State.tfPlace t p = Claims.place t i := by
  rw [State.tfPlace, tfInt, h, Claims.place]

theorem place_natCast (t p : Nat) : State.tfPlace t p = Claims.place t p := tfPlace_eq (BitVec.ofInt_natCast ..).symm

theorem place_code (t : Nat) (a : Word) : State.tfPlace t (a.toNat % 2 ^ 32) = Claims.place t (Claims.code t a) :=
  tfPlace_eq (by rw [Claims.code, BitVec.ofInt_toInt, ofNat_low])

/-- NaR is the code of the sign bit alone. -/
theorem place_nar (t : Nat) : State.tfPlace t (encTf t .nar) = Claims.place t (-(2 ^ ((tfParams t).1 - 1))) := by
  have hwidths : ∀ n ∈ [8, 16, 32], BitVec.ofNat n (2 ^ (n - 1)) = BitVec.ofInt n (-(2 ^ (n - 1))) := by decide
  have hmem : (tfParams t).1 ∈ [8, 16, 32] := by unfold tfParams; split <;> decide
  exact tfPlace_eq (hwidths _ hmem)

theorem tapered_of_nar {t : Nat} {xs : List XReal} (r : XReal) (h : XReal.nar ∈ xs) :
    Claims.place t (Claims.tapered t xs r) = State.tfPlace t (encTf t .nar) := by
  rw [Claims.tapered, if_pos (List.any_eq_true.mpr ⟨XReal.nar, h, beq_self_eq_true XReal.nar⟩ : xs.any (· == XReal.nar) = true), place_nar]

theorem tapered_of_not_nar {t : Nat} {xs : List XReal} (r : XReal) (h : XReal.nar ∉ xs) :
    Claims.place t (Claims.tapered t xs r) = State.tfPlace t (encTf t r) := by
  rw [Claims.tapered, if_neg, place_natCast]
  rw [List.any_eq_true]
  rintro ⟨x, hx, hnar⟩
  exact h (beq_iff_eq.mp hnar ▸ hx)

theorem place_tfOp2 (t : Nat) (g : XReal → XReal → XReal) (a b : Word) :
    State.tfPlace t (tfOp2 t g (a.toNat % 2 ^ 32) (b.toNat % 2 ^ 32)) =
      Claims.place t (Claims.tapered t [decTf t a.toNat, decTf t b.toNat] (g (decTf t a.toNat) (decTf t b.toNat))) := by
  rw [tfOp2, decTf_low, decTf_low]
  split
  case h_1 h => rw [h, tapered_of_nar _ (by simp)]
  case h_2 h _ => rw [h, tapered_of_nar _ (by simp)]
  case h_3 hx hy => rw [tapered_of_not_nar _ (by simpa using ⟨Ne.symm hx, Ne.symm hy⟩)]

theorem place_tfFma (t : Nat) (a b c : Word) : State.tfPlace t (tfFma t a.toNat b.toNat c.toNat) =
    Claims.place t (Claims.tapered t [decTf t a.toNat, decTf t b.toNat, decTf t c.toNat]
      (XReal.add (XReal.mul (decTf t a.toNat) (decTf t b.toNat)) (decTf t c.toNat) 0)) := by
  rw [tfFma]
  split
  case h_1 h => rw [h, tapered_of_nar _ (by simp)]
  case h_2 h _ => rw [h, tapered_of_nar _ (by simp)]
  case h_3 h _ _ => rw [h, tapered_of_nar _ (by simp)]
  case h_4 hx hy hz => rw [tapered_of_not_nar _ (by simpa using ⟨Ne.symm hx, Ne.symm hy, Ne.symm hz⟩)]

theorem place_sqrt (t : Nat) (a : Word) : State.tfPlace t (encTf t (decTf t (a.toNat % 2 ^ 32)).sqrt) =
    Claims.place t (Claims.tapered t [decTf t a.toNat] (decTf t a.toNat).sqrt) := by
  rw [decTf_low]
  by_cases h : decTf t a.toNat = .nar
  · rw [h, tapered_of_nar _ (by simp)]
    rfl
  · rw [tapered_of_not_nar _ (by simpa using Ne.symm h)]

theorem place_tfNeg (t : Nat) (a : Word) : State.tfPlace t (tfNeg t (a.toNat % 2 ^ 32)) = Claims.place t (-Claims.code t a) := by
  apply tfPlace_eq
  rw [tfNeg, mod_mod_tfWidth, ofNat_mod_width, BitVec.ofInt_neg, Claims.code, BitVec.ofInt_toInt]
  apply BitVec.eq_of_toNat_eq
  rw [BitVec.toNat_neg, BitVec.toNat_ofNat, BitVec.toNat_ofNat]

theorem place_tabs (t : Nat) (a : Word) :
    State.tfPlace t (if tfInt t (a.toNat % 2 ^ 32) < 0 then tfNeg t (a.toNat % 2 ^ 32) else a.toNat % 2 ^ 32) =
      Claims.place t (Claims.code t a).natAbs := by
  rw [tfInt_low]
  split
  case isTrue h => rw [place_tfNeg, Int.ofNat_natAbs_of_nonpos (Int.le_of_lt h)]
  case isFalse h => rw [place_code, Int.natAbs_of_nonneg (Int.not_lt.mp h)]

theorem place_choice (t : Nat) (a b : Word) (p : Prop) [Decidable p] :
    State.tfPlace t (if p then b.toNat % 2 ^ 32 else a.toNat % 2 ^ 32) = Claims.place t (if p then Claims.code t b else Claims.code t a) := by
  split <;> exact place_code ..

/-- A result of two tapered operands: the instruction's body is that of a two-operand operation that places that result. -/
def Tapered2Body (x : (WForm → Instr) × (Nat → Word → Word → Int)) : Prop :=
  ∃ g : Nat → Nat → Nat → Nat, (∀ f s, exec (x.1 f) s = issue 8 f.guard s (State.tf2 g f)) ∧
    ∀ t a b, State.tfPlace t (g t (a.toNat % 2 ^ 32) (b.toNat % 2 ^ 32)) = Claims.place t (x.2 t a b)

theorem tapered2Body_of_mem : ∀ x ∈ Claims.tapered2, Tapered2Body x := by
  simp only [Claims.tapered2, List.forall_mem_cons, List.not_mem_nil, false_implies, implies_true, and_true]
  refine ⟨⟨_, fun _ _ => rfl, fun t a b => place_tfOp2 t _ a b⟩, ⟨_, fun _ _ => rfl, fun t a b => place_tfOp2 t _ a b⟩,
    ⟨_, fun _ _ => rfl, fun t a b => place_tfOp2 t _ a b⟩, ⟨_, fun _ _ => rfl, fun t a b => place_tfOp2 t _ a b⟩,
    ⟨_, fun _ _ => rfl, fun t a b => ?_⟩, ⟨_, fun _ _ => rfl, fun t a b => ?_⟩⟩
  all_goals rw [tfInt_low, tfInt_low, place_choice]

/-- The same of one tapered operand. -/
def Tapered1Body (x : (WForm → Instr) × (Nat → Word → Int)) : Prop :=
  ∃ g : Nat → Nat → Nat, (∀ f s, exec (x.1 f) s = issue 8 f.guard s (State.tf1 g f)) ∧
    ∀ t a, State.tfPlace t (g t (a.toNat % 2 ^ 32)) = Claims.place t (x.2 t a)

theorem tapered1Body_of_mem : ∀ x ∈ Claims.tapered1, Tapered1Body x := by
  simp only [Claims.tapered1, List.forall_mem_cons, List.not_mem_nil, false_implies, implies_true, and_true]
  exact ⟨⟨_, fun _ _ => rfl, place_sqrt⟩, ⟨_, fun _ _ => rfl, place_tabs⟩, ⟨_, fun _ _ => rfl, place_tfNeg⟩⟩

theorem tfCond_of_mem : ∀ x ∈ Claims.taperedConds, ∀ a b, tfCond x.1.toNat a b = x.2 a b := by
  simp only [Claims.taperedConds, List.forall_mem_cons, List.not_mem_nil, false_implies, implies_true, and_true]
  exact ⟨fun _ _ => rfl, fun _ _ => rfl, fun _ _ => rfl, fun _ _ => rfl, fun _ _ => rfl, fun _ _ => rfl⟩

section TaperedBodies

variable {f : WForm} {s s1 t : State} {a b : Word}

theorem tf2_ok {g : Nat → Nat → Nat → Nat} (h : s.readAB f = .ok (a, b, s1))
    (hw : s1.writeS f.d (State.tfPlace (f.fld 14 2) (g (f.fld 14 2) (a.toNat % 2 ^ 32) (b.toNat % 2 ^ 32))) = .ok t) :
    State.tf2 g f s = .ok t := by
  rw [State.tf2, h]
  exact hw

theorem tf1_ok {g : Nat → Nat → Nat} (h : s.readS f.a = .ok (a, s1))
    (hw : s1.writeS f.d (State.tfPlace (f.fld 14 2) (g (f.fld 14 2) (a.toNat % 2 ^ 32))) = .ok t) : State.tf1 g f s = .ok t := by
  rw [State.tf1, h]
  exact hw

theorem tcmpOp_ok (h : s.readAB f = .ok (a, b, s1)) : State.tcmpOp f s =
    .ok (s1.writeP f.d.toNat (tfCond f.c.toNat (Claims.code (f.fld 14 2) a) (Claims.code (f.fld 14 2) b))) := by
  rw [State.tcmpOp, h]
  rfl

end TaperedBodies

/-- Settles O21: every instruction of the tables places its result. -/
theorem taperedResults : Obligations.TaperedResults := by
  refine ⟨fun x hx f s s1 t a b hguard hread hwrite => ?_, fun x hx f s s1 t a hguard hread hwrite => ?_,
    fun f s s1 t a b c hguard hread => ?_, fun x hx f s s1 a b hguard hc hread => ?_⟩
  · obtain ⟨g, hexec, hresult⟩ := tapered2Body_of_mem x hx
    rw [← hresult] at hwrite
    rw [hexec]
    exact issue_ok hguard (tf2_ok hread hwrite)
  · obtain ⟨g, hexec, hresult⟩ := tapered1Body_of_mem x hx
    rw [← hresult] at hwrite
    rw [hexec]
    exact issue_ok hguard (tf1_ok hread hwrite)
  · intro x y z hwrite
    obtain ⟨s2, hab, hc⟩ := readABC_split hread
    refine issue_ok (body := State.tfmaOp f) hguard ?_
    rw [← place_tfFma] at hwrite
    rw [State.tfmaOp, hab, ok_bind]
    dsimp only
    rw [hc]
    exact hwrite
  · rw [← tfCond_of_mem x hx, ← hc]
    exact issue_ok hguard (tcmpOp_ok hread)

/-! ### Spools (R31, R122, R385) -/

theorem spoolMerge_s (p q : Spool) (neg : Bool) :
    (spoolMerge p q neg).s = BitVec.ofInt 160 (p.s.toInt + (if neg then -q.s.toInt else q.s.toInt)) := rfl

/-- A sum that fits in 160 bits is what the word of the spool reads (R30). -/
theorem toInt_ofInt_160 {v : Int} (hlo : -(2 ^ 159) ≤ v) (hhi : v < 2 ^ 159) : (BitVec.ofInt 160 v).toInt = v :=
  BitVec.toInt_ofInt_eq_self (by decide) hlo hhi

theorem spoolPut_nar_iff (p : Spool) (v : Int) (nar : Bool) :
    (spoolPut p v nar).nar = true ↔ p.nar = true ∨ nar = true ∨ v < -(2 ^ 159) ∨ 2 ^ 159 ≤ v := by
  simp only [spoolPut, Bool.or_eq_true, decide_eq_true_eq, or_assoc]

/-- The nearest count of units of 2^-64, ties to even (R31). -/
def nearest (b k : Nat) : Nat := b / 2 ^ k + if 2 ^ k < 2 * (b % 2 ^ k) ∨ 2 * (b % 2 ^ k) = 2 ^ k ∧ b / 2 ^ k % 2 = 1 then 1 else 0

theorem quantise_nearest (neg : Bool) (m : Nat) (e : Int) :
    quantise neg m e false (-64) 0 = nearest (m * 2 ^ (e + 64).toNat) (-(e + 64)).toNat := by
  rw [quantise, nearest, show -64 - e = -(e + 64) by omega, show e - -64 = e + 64 by omega]
  simp only [Bool.and_false, Bool.false_and, Bool.or_false, Bool.not_false, Bool.and_true, Bool.or_eq_true, Bool.and_eq_true,
    decide_eq_true_eq, beq_iff_eq]
  split <;> rfl

theorem spoolAdd_num (p : Spool) (neg : Bool) (m : Nat) (e : Int) : spoolAdd p (.num neg m e false) =
    spoolPut p (p.s.toInt + (if neg then -(nearest (m * 2 ^ (e + 64).toNat) (-(e + 64)).toNat : Int)
      else (nearest (m * 2 ^ (e + 64).toNat) (-(e + 64)).toNat : Int))) false := by
  rw [spoolAdd, quantise_nearest]

section SpoolBodies

variable {f : WForm} {s s1 : State} {a b : Word} (sub : Bool)

theorem spfmaOp_ok (h : s.readAB f = .ok (a, b, s1)) : State.spfmaOp sub f s = .ok (s1.writeY f.d.toNat (spoolAdd (s1.readY f.d.toNat)
    (if sub then (XReal.mul (readFmt (f.fld 14 4) a) (readFmt (f.fld 14 4) b)).neg
      else XReal.mul (readFmt (f.fld 14 4) a) (readFmt (f.fld 14 4) b)))) := by
  rw [State.spfmaOp, h]
  rfl

theorem spaddOp_ok (hfmt : f.fmt ≠ 15) (h : s.readS f.a = .ok (a, s1)) : State.spaddOp sub f s =
    .ok (s1.writeY f.d.toNat (spoolAdd (s1.readY f.d.toNat) (if sub then (readFmt (f.fld 14 4) a).neg else readFmt (f.fld 14 4) a))) := by
  rw [State.spaddOp, if_neg hfmt, h]
  rfl

theorem spaddOp_merge (hfmt : f.fmt = 15) :
    State.spaddOp sub f s = .ok (s.writeY f.d.toNat (spoolMerge (s.readY f.d.toNat) (s.readY f.a.toNat) sub)) := by
  rw [State.spaddOp, if_pos hfmt]

end SpoolBodies

theorem cvtOp_ok {f : WForm} {s s1 t : State} {a : Word} (h : s.readS f.a = .ok (a, s1))
    (hw : s1.writeS f.d (writeFmt (f.fld 14 4) (readFmt (f.fld 18 4) a) (f.fld 22 2)) = .ok t) : State.cvtOp f s = .ok t := by
  rw [State.cvtOp, h]
  exact hw

/-- Settles O23: the bodies with their results, and the sums of the two ways to add. -/
theorem spoolsAndConversion : Obligations.SpoolsAndConversion := by
  intro f s hguard u
  refine ⟨issue_ok (body := State.spzOp f) hguard rfl, fun a b s1 hread => ⟨issue_ok hguard (spfmaOp_ok false hread),
    issue_ok hguard (spfmaOp_ok true hread)⟩, fun a s1 hfmt hread => ⟨issue_ok hguard (spaddOp_ok false hfmt hread),
    issue_ok hguard (spaddOp_ok true hfmt hread)⟩, fun hfmt => ⟨issue_ok hguard (spaddOp_merge false hfmt),
    issue_ok hguard (spaddOp_merge true hfmt)⟩, fun t hwrite => issue_ok (body := State.sprndOp f) hguard hwrite,
    fun a s1 t hread hwrite => issue_ok hguard (cvtOp_ok hread hwrite), fun p q neg => ?_, fun p neg m e => ?_, fun p x hx => ?_⟩
  · intro v
    exact ⟨spoolMerge_s p q neg, fun hlo hhi => toInt_ofInt_160 hlo hhi, spoolPut_nar_iff p v q.nar⟩
  · intro b k t v
    have hadd : spoolAdd p (.num neg m e false) = spoolPut p v false := spoolAdd_num p neg m e
    rw [hadd]
    refine ⟨rfl, ?_⟩
    rw [spoolPut_nar_iff, Bool.false_eq_true, false_or]
  · obtain rfl | rfl | ⟨n, rfl⟩ := hx <;> rfl

end Sys2Proof.Proofs.Float
end

section
/-! PROOFS. The words that the manual writes out (O3), and the values that reset leaves (O60). -/

namespace Sys2Proof.Proofs.FixedValues

open Sys2Proof.Machine

/-- Settles O3: the decoder is run on each list of parcels. -/
theorem decodeWords : Obligations.DecodeWords := by
  refine ⟨?_, ?_, ?_, ?_, ?_, ?_, ?_, ?_, ?_, ?_, ?_, ?_, ?_, ?_, ?_, ?_, ?_, ?_, ?_, ?_, ?_, ?_, ?_, ?_, ?_, ?_, ?_, ?_⟩ <;> rfl

/-- After reset no table is in force, so that no partition exists (R6). -/
theorem partExists_reset (p : Nat) : State.reset.partExists p = false := rfl

/-- Settles O60: every part of the reset state reads its default. -/
theorem resetValues : Obligations.ResetValues := by
  unfold Obligations.ResetValues
  intro s
  have hcore : ∀ c, s.core c = Core.init := fun c => rfl
  refine ⟨rfl, fun a => rfl, rfl, rfl, rfl, rfl, rfl, rfl, rfl, fun c => ?_, fun r => rfl, rfl, fun r => rfl, fun r => rfl, fun r => rfl, rfl,
    partExists_reset, fun i => ⟨rfl, rfl⟩, rfl, rfl, rfl, rfl, rfl, rfl, fun d out => rfl, fun d => rfl, fun c => ⟨rfl, rfl⟩⟩
  rw [hcore]
  exact ⟨rfl, rfl, rfl, rfl, rfl, rfl, rfl, rfl, rfl, rfl, rfl, rfl, fun t i j => rfl, fun d => ⟨rfl, rfl⟩⟩

end Sys2Proof.Proofs.FixedValues
end

section
/-! PROOFS. Spool memory, elementwise vector instructions, spool lanes, compares and masks, and the fault without a grant (O24, O26, O28, O32;
R35, R123, R129 to R138). -/

namespace Sys2Proof.Proofs.Vectors

open Sys2Proof.Machine Sys2Proof.Proofs.Float Sys2Proof.Proofs.LoadStore Sys2Proof.Proofs.VectorMemory

/-! ### Spool loads and stores (R35, R123) -/

/-- A spool's flag and its number lie apart in its word. -/
theorem spoolOfBits_bitsOfSpool (p : Spool) : spoolOfBits (bitsOfSpool p) = p := by
  obtain ⟨n, nar⟩ := p
  have hs : (bitsOfSpool { s := n, nar := nar }).setWidth 160 = n := by
    refine BitVec.eq_of_getLsbD_eq fun i hi => ?_
    rw [BitVec.getLsbD_setWidth, bitsOfSpool, BitVec.getLsbD_or, BitVec.getLsbD_setWidth]
    cases nar
    case false => simp [hi, show i < 256 by omega]
    case true =>
      rw [if_pos rfl, BitVec.getLsbD_shiftLeft]
      simp [hi, show i < 256 by omega]
  have hnar : (bitsOfSpool { s := n, nar := nar }).getLsbD 160 = nar := by
    rw [bitsOfSpool, BitVec.getLsbD_or, BitVec.getLsbD_setWidth]
    cases nar <;> simp
  rw [spoolOfBits, hs, hnar]

section SpoolMemory

variable {f : WForm} {s s1 : State} {a i : Word} (hread : s.readS f.a = .ok (a, s1)) (hcur : s1.cur = s.cur) (hin : Claims.inCore (a + i) 32)
include hread hcur hin

theorem spldOp_ok (hpoison : s1.poisoned (coreKey s.cur.1 (a + i).toNat) 32 = false) : State.spldOp f i s =
    .ok ((s1.saw s1.pipeReader (coreKey s.cur.1 (a + i).toNat) 32).writeY f.d.toNat
      (spoolOfBits (BitVec.ofNat 256 (s1.seenN s1.pipeReader (coreKey s.cur.1 (a + i).toNat) 32)))) := by
  obtain ⟨halign, hbound⟩ := hin
  rw [State.spldOp, hread, ok_bind]
  dsimp only
  rw [decide_eq_true halign, need_true, ok_bind, decide_eq_true hbound, need_true, ok_bind, hcur, hpoison]
  rfl

theorem spstOp_ok (hslots : s1.hitsSlots s.cur.1 (a + i).toNat 32 = false) : State.spstOp f i s =
    .ok (s1.storeN s1.pipeWriter (coreKey s.cur.1 (a + i).toNat) 32 (bitsOfSpool (s1.readY f.d.toNat)).toNat) := by
  obtain ⟨halign, hbound⟩ := hin
  rw [State.spstOp, hread, ok_bind]
  dsimp only
  rw [decide_eq_true halign, need_true, ok_bind, decide_eq_true hbound, need_true, ok_bind, hcur, hslots]
  rfl

end SpoolMemory

/-- Settles O24: both forms share their bodies. -/
theorem spoolMemory : Obligations.SpoolMemory := by
  refine ⟨fun f s s1 a hguard hread => ?_, fun f s s1 a hguard hread => ?_, spoolOfBits_bitsOfSpool⟩
  · intro x hin
    have hcur := readS_cur hread
    exact ⟨fun h => issue_ok hguard (spldOp_ok (i := f.imm) hread hcur hin h), fun h => issue_ok hguard (spstOp_ok (i := f.imm) hread hcur hin h)⟩
  · intro x hin
    have hcur := readS_cur hread
    exact ⟨fun h => issue_ok hguard (spldOp_ok (f := f.toW) (i := f.imm) hread hcur hin h),
      fun h => issue_ok hguard (spstOp_ok (f := f.toW) (i := f.imm) hread hcur hin h)⟩

/-! ### Elements (R131, R132) -/

theorem elemOf_lt (w : Nat) (x : BitVec 32) (e : Nat) : elemOf w x e < 2 ^ w := Nat.mod_lt _ (Nat.two_pow_pos w)

theorem elemInt_eq {w v : Nat} (h : v < 2 ^ w) : elemInt w v = Claims.signed w v := by
  rw [elemInt, BitVec.toInt_eq_toNat_cond, BitVec.toNat_ofNat, Nat.mod_eq_of_lt h, Claims.signed]
  norm_cast

theorem elemRead_eq {f : WForm} {v : Nat} (h : v < 2 ^ f.width) : elemRead f.width f.uBit v = Claims.sel f v := by
  rw [elemRead, Claims.sel, WForm.uBit, elemInt_eq h, Nat.mod_eq_of_lt h]
  simp only [beq_iff_eq]

/-- An element instruction: its body is that of an operation on the elements of a and b, with the operation's result on them. -/
def ElementBody (x : (WForm → Instr) × (WForm → Nat → Nat → Int)) : Prop :=
  ∃ g : WForm → Nat → Nat → Nat → Int, (∀ f s, exec (x.1 f) s = issue 8 f.guard s (State.vecInt f (g f))) ∧
    ∀ f a b, a < 2 ^ f.width → b < 2 ^ f.width → g f f.width a b = x.2 f a b

theorem elementBody_of_mem : ∀ x ∈ Claims.elements, ElementBody x := by
  simp only [Claims.elements, List.forall_mem_cons, List.not_mem_nil, false_implies, implies_true, and_true]
  refine ⟨⟨_, fun _ _ => rfl, fun _ _ _ _ _ => rfl⟩, ⟨_, fun _ _ => rfl, fun _ _ _ _ _ => rfl⟩, ⟨_, fun _ _ => rfl, fun _ _ _ _ _ => rfl⟩,
    ⟨_, fun _ _ => rfl, fun f a b ha hb => ?_⟩, ⟨_, fun _ _ => rfl, fun f a b ha hb => ?_⟩, ⟨_, fun _ _ => rfl, fun f a b ha hb => ?_⟩,
    ⟨_, fun _ _ => rfl, fun _ _ _ _ _ => rfl⟩, ⟨_, fun _ _ => rfl, fun _ _ _ _ _ => rfl⟩, ⟨_, fun _ _ => rfl, fun f a b ha hb => ?_⟩,
    ⟨_, fun _ _ => rfl, fun f a b ha hb => ?_⟩⟩
  · rw [elemRead_eq ha, elemRead_eq hb]
  · rw [elemRead_eq ha, elemRead_eq hb]
  · rw [elemRead_eq ha, elemRead_eq hb]
  · rw [elemInt_eq ha]
  · rw [roundShift, elemRead_eq ha]

/-- A sum gathered from the left is the first summand and the sum of the others. -/
theorem foldl_add_eq_sum (g : Nat → Int) (l : List Nat) (d : Int) : l.foldl (fun acc e => acc + g e) d = d + (l.map g).sum := by
  induction l generalizing d with
  | nil => simp
  | cons e l ih => rw [List.foldl_cons, ih, List.map_cons, List.sum_cons, Int.add_assoc]

theorem dot_eq (f : WForm) (w : Nat) (d a b : BitVec 32) : dot w f.uBit (f.op == 1) d a b =
    BitVec.ofInt 32 (d.toNat + ((List.range (32 / w)).map (fun e =>
      (if f.fld 19 1 = 1 then (Claims.elem w a e : Int) else Claims.signed w (Claims.elem w a e)) *
      (if f.fld 25 4 = 1 then (Claims.elem w b e : Int) else Claims.signed w (Claims.elem w b e)))).sum) := by
  rw [dot, foldl_add_eq_sum]
  congr 4
  funext e
  rw [elemRead, elemRead, elemInt_eq (elemOf_lt w a e), elemInt_eq (elemOf_lt w b e), Nat.mod_eq_of_lt (elemOf_lt w a e),
    Nat.mod_eq_of_lt (elemOf_lt w b e), WForm.uBit, WForm.op]
  simp only [beq_iff_eq]
  rfl

theorem abs_eq (f : WForm) (a : BitVec 32) : laneOf f.width (fun e => (elemInt f.width (elemOf f.width a e)).natAbs) =
    Claims.lane f.width (fun e => (Claims.signed f.width (Claims.elem f.width a e)).natAbs) := by
  rw [Claims.lane]
  congr 1
  funext e
  rw [elemInt_eq (elemOf_lt ..)]
  rfl

theorem sat_eq (f : WForm) (a : BitVec 32) : laneOf f.width (fun e => satElem f.width f.c.toNat f.uBit (elemOf f.width a e)) =
    Claims.lane f.width (fun e => if f.fld 19 1 = 1 then min (Claims.elem f.width a e) (2 ^ f.c.toNat - 1)
      else max (-2 ^ (f.c.toNat - 1)) (min (Claims.signed f.width (Claims.elem f.width a e)) (2 ^ (f.c.toNat - 1) - 1))) := by
  rw [Claims.lane]
  congr 1
  funext e
  have hlt := elemOf_lt f.width a e
  rw [satElem, elemRead, elemRead, if_pos rfl, if_neg Bool.false_ne_true, elemInt_eq hlt, Nat.mod_eq_of_lt hlt, WForm.uBit]
  simp only [beq_iff_eq]
  rfl

theorem clamp_eq (f : WForm) (a b c : BitVec 32) :
    laneOf f.width (fun e => min (max (elemRead f.width f.uBit (elemOf f.width a e)) (elemRead f.width f.uBit (elemOf f.width b e)))
      (elemRead f.width f.uBit (elemOf f.width c e))) =
    Claims.lane f.width (fun e => min (max (Claims.sel f (Claims.elem f.width a e)) (Claims.sel f (Claims.elem f.width b e)))
      (Claims.sel f (Claims.elem f.width c e))) := by
  rw [Claims.lane]
  congr 1
  funext e
  rw [elemRead_eq (elemOf_lt ..), elemRead_eq (elemOf_lt ..), elemRead_eq (elemOf_lt ..)]
  rfl

/-! ### Elementwise instructions (R131 to R135) -/

theorem low32_eq : State.low32 = Claims.low := funext fun a => (low_eq a).symm

/-- An instruction on a and b: its body is that of a two-operand operation with that result. -/
def PairBody (x : (WForm → Instr) × (WForm → BitVec 32 → BitVec 32 → BitVec 32)) : Prop :=
  ∀ f s, exec (x.1 f) s = issue 8 f.guard s (State.vec2 f false State.low32 (fun _ => x.2 f))

theorem bitwiseBody_of_mem : ∀ x ∈ Claims.bitwise, PairBody (x.1, fun _ => x.2) := by
  simp only [Claims.bitwise, List.forall_mem_cons, List.not_mem_nil, false_implies, implies_true, and_true]
  exact ⟨fun _ _ => rfl, fun _ _ => rfl, fun _ _ => rfl⟩

theorem floatingBody_of_mem : ∀ x ∈ Claims.floating, PairBody x := by
  simp only [Claims.floating, List.forall_mem_cons, List.not_mem_nil, false_implies, implies_true, and_true]
  refine ⟨fun _ _ => rfl, fun _ _ => rfl, fun _ _ => rfl, fun _ _ => rfl, fun _ _ => rfl, fun _ _ => rfl, fun _ _ => rfl, fun _ _ => rfl,
    fun _ _ => rfl, fun f s => ?_, fun f s => ?_⟩
  · simp only [← apply_ite (tfLane f.ew)]; rfl
  · simp only [← apply_ite (tfLane f.ew)]; rfl

/-- An instruction that adds to d. -/
def AccumulateBody (x : (WForm → Instr) × (WForm → Word → BitVec 32) × (WForm → BitVec 32 → BitVec 32 → BitVec 32 → BitVec 32)) : Prop :=
  ∃ h : WForm → BitVec 32 → BitVec 32 → BitVec 32 → BitVec 32,
    (∀ f s, exec (x.1 f) s = issue 8 f.guard s (State.vec2 f true (x.2.1 f) (h f))) ∧ ∀ f d a b, h f d a b = x.2.2 f d a b

theorem accumulateBody_of_mem : ∀ x ∈ Claims.accumulate, AccumulateBody x := by
  simp only [Claims.accumulate, List.forall_mem_cons, List.not_mem_nil, false_implies, implies_true, and_true]
  refine ⟨⟨_, fun _ _ => rfl, fun f d a b => ?_⟩, ⟨fun f => dot 8 f.uBit (f.op == 1), fun f s => ?_, fun f d a b => dot_eq f 8 d a b⟩,
    ⟨fun f => dot 16 f.uBit (f.op == 1), fun f s => ?_, fun f d a b => dot_eq f 16 d a b⟩⟩
  · simp only [Claims.lane, Claims.elem, elemOf]; norm_cast
  · rw [← low32_eq]; rfl
  · rw [← low32_eq]; rfl

/-- An instruction on a, b and the vector c. -/
def TernaryBody (x : (WForm → Instr) × (WForm → Word → BitVec 32) × (WForm → BitVec 32 → BitVec 32 → BitVec 32 → BitVec 32)) : Prop :=
  ∃ h : WForm → BitVec 32 → BitVec 32 → BitVec 32 → BitVec 32,
    (∀ f s, exec (x.1 f) s = issue 8 f.guard s (State.vec3 f (x.2.1 f) (h f))) ∧ ∀ f a b c, h f a b c = x.2.2 f a b c

theorem ternaryBody_of_mem : ∀ x ∈ Claims.ternary, TernaryBody x := by
  simp only [Claims.ternary, List.forall_mem_cons, List.not_mem_nil, false_implies, implies_true, and_true]
  refine ⟨⟨_, fun _ _ => rfl, clamp_eq⟩, ⟨fun f a b c => fpFma a b c f.rm, fun f s => ?_, fun _ _ _ _ => rfl⟩,
    ⟨fun f a b c => tfLane f.ew (tfFma f.ew a.toNat b.toNat c.toNat), fun f s => ?_, fun _ _ _ _ => rfl⟩⟩
  · rw [← low32_eq]; rfl
  · rw [← low32_eq]; rfl

/-- An instruction on a alone. -/
def SingleBody (x : (WForm → Instr) × (WForm → BitVec 32 → BitVec 32)) : Prop :=
  ∃ h : WForm → BitVec 32 → BitVec 32, (∀ f s, exec (x.1 f) s = issue 8 f.guard s (State.vec1 f (h f))) ∧ ∀ f a, h f a = x.2 f a

theorem singleBody_of_mem : ∀ x ∈ Claims.single, SingleBody x := by
  simp only [Claims.single, List.forall_mem_cons, List.not_mem_nil, false_implies, implies_true, and_true]
  exact ⟨⟨_, fun _ _ => rfl, abs_eq⟩, ⟨_, fun _ _ => rfl, sat_eq⟩, ⟨fun _ => fpAbs, fun _ _ => rfl, fun _ _ => rfl⟩,
    ⟨fun _ => fpNeg, fun _ _ => rfl, fun _ _ => rfl⟩, ⟨_, fun _ _ => rfl, fun _ _ => rfl⟩, ⟨_, fun _ _ => rfl, fun _ _ => rfl⟩,
    ⟨_, fun _ _ => rfl, fun _ _ => rfl⟩, ⟨_, fun _ _ => rfl, fun _ _ => rfl⟩, ⟨_, fun _ _ => rfl, fun _ _ => rfl⟩⟩

section ElementwiseBodies

variable {f : WForm} {s s1 : State} {b : Word} (hgrant : s.ctx.grant ≠ 0)
include hgrant

theorem vec2_ok {readsD : Bool} {sc : Word → BitVec 32} {h : BitVec 32 → BitVec 32 → BitVec 32 → BitVec 32} (hread : s.readB f = .ok (b, s1)) :
    State.vec2 f readsD sc h s = .ok (s1.elementwise f (State.srcsOf f ++ if readsD then [f.d] else [])
      (fun i => h (s1.readV f.d i).val (s1.readV f.a i).val (Claims.laneB s1 f (sc b) i))) := by
  rw [State.vec2, needGrant_ok hgrant, ok_bind, hread]
  rfl

theorem vec2_pair_ok {g : BitVec 32 → BitVec 32 → BitVec 32} (hread : s.readB f = .ok (b, s1)) :
    State.vec2 f false State.low32 (fun _ => g) s = .ok (s1.elementwise f (State.srcsOf f)
      (fun i => g (s1.readV f.a i).val (Claims.laneB s1 f (Claims.low b) i))) := by
  rw [vec2_ok hgrant hread, if_neg Bool.false_ne_true, List.append_nil, low32_eq]

theorem vec3_ok {sc : Word → BitVec 32} {h : BitVec 32 → BitVec 32 → BitVec 32 → BitVec 32} (hread : s.readB f = .ok (b, s1)) :
    State.vec3 f sc h s = .ok (s1.elementwise f (State.srcsOf f ++ [f.c])
      (fun i => h (s1.readV f.a i).val (Claims.laneB s1 f (sc b) i) (s1.readV f.c i).val)) := by
  rw [State.vec3, needGrant_ok hgrant, ok_bind, hread]
  rfl

theorem vec1_ok {h : BitVec 32 → BitVec 32} :
    State.vec1 f h s = .ok (s.elementwise f [f.a] (fun i => h (s.readV f.a i).val)) := by
  rw [State.vec1, needGrant_ok hgrant]
  rfl

end ElementwiseBodies

theorem grant_countIssue (s : State) (len : Nat) : (s.countIssue len).ctx.grant = s.ctx.grant := by rw [State.ctx_countIssue]

/-- Settles O26: every instruction of the tables has the body of its result. -/
theorem vectorElementwise : Obligations.VectorElementwise := by
  intro f s s1 b hguard hgrant hread
  have hg : (s.countIssue 8).ctx.grant ≠ 0 := by rwa [grant_countIssue]
  refine ⟨fun x hx => ?_, fun x hx => ?_, fun x hx => ?_, fun x hx => ?_, fun x hx => ?_, fun x hx => ?_⟩
  · obtain ⟨g, hexec, hresult⟩ := elementBody_of_mem x hx
    have hlanes : ∀ a c, onElems f.width (g f f.width) a c = Claims.lane f.width (fun e => x.2 f (Claims.elem f.width a e) (Claims.elem f.width c e)) :=
      fun a c => congrArg (laneOf f.width) (funext fun e => hresult f _ _ (elemOf_lt ..) (elemOf_lt ..))
    rw [hexec]
    refine issue_ok hguard ((vec2_ok hg hread).trans ?_)
    simp only [hlanes, Bool.false_eq_true, if_false, List.append_nil]
  · rw [bitwiseBody_of_mem x hx]
    exact issue_ok hguard (vec2_pair_ok hg hread)
  · obtain ⟨h, hexec, hresult⟩ := accumulateBody_of_mem x hx
    rw [hexec]
    refine issue_ok hguard ((vec2_ok hg hread).trans ?_)
    simp only [hresult, if_true]
  · rw [floatingBody_of_mem x hx]
    exact issue_ok hguard (vec2_pair_ok hg hread)
  · obtain ⟨h, hexec, hresult⟩ := ternaryBody_of_mem x hx
    rw [hexec]
    refine issue_ok hguard ((vec3_ok hg hread).trans ?_)
    simp only [hresult]
  · obtain ⟨h, hexec, hresult⟩ := singleBody_of_mem x hx
    rw [hexec]
    refine issue_ok hguard ((vec1_ok hg).trans ?_)
    simp only [hresult]

/-! ### Spool lanes, compares, selection and masks (R135 to R138) -/

section LaneBodies

variable {f : WForm} {s s1 : State} {a b : Word}

theorem ksetOp_ok (hread : s.readS f.a = .ok (a, s1)) : State.ksetOp f s = .ok (s1.writeK f.d.toNat (Claims.low a)) := by
  rw [low_eq, State.ksetOp, hread]
  rfl

theorem kgetOp_eq : State.kgetOp f s = s.writeS f.d (BitVec.ofNat 64 (s.readK f.a.toNat).toNat) := by
  rw [BitVec.ofNat_toNat]
  rfl

variable (hgrant : s.ctx.grant ≠ 0)
include hgrant

theorem vspzOp_ok : State.vspzOp f s = .ok (s.setSpools f.d (fun i => if s.laneOn f.km i then some Spool.zero else none)) := by
  rw [State.vspzOp, needGrant_ok hgrant]
  rfl

theorem vsprndOp_ok : State.vsprndOp f s = .ok (s.setLanes f.d (fun i => if s.laneOn f.km i then
    some { val := (writeFmt (f.fld 25 4) (spoolVal (s.readWsp f.a.toNat i)) (f.fld 23 2)).setWidth 32, tag := false } else none)) := by
  rw [State.vsprndOp, needGrant_ok hgrant]
  rfl

variable (hread : s.readB f = .ok (b, s1))
include hread

theorem vspfmaOp_ok : State.vspfmaOp f s = .ok (s1.setSpools f.d (fun i =>
    if s1.laneOn f.km i ∧ s1.tagged (State.srcsOf f) i = false then
      some (spoolAdd (s1.readWsp f.d.toNat i) (XReal.mul (readFmt (f.fld 25 4) ((s1.readV f.a i).val.setWidth 64))
        (readFmt (f.fld 25 4) (if f.bs then b else (s1.readV f.b i).val.setWidth 64)))) else none)) := by
  rw [State.vspfmaOp, needGrant_ok hgrant, ok_bind, hread, ok_bind]
  dsimp only
  simp only [Bool.and_eq_true, Bool.not_eq_true']
  rfl

theorem vcmpOp_ok {g : BitVec 32 → BitVec 32 → Bool} : State.vcmpOp f g s = .ok (s1.setMask f.d (fun i => if s1.laneOn f.km i then
    some (!(s1.tagged (State.srcsOf f) i) && g (s1.readV f.a i).val (Claims.laneB s1 f (Claims.low b) i)) else none)) := by
  rw [State.vcmpOp, needGrant_ok hgrant, ok_bind, hread, ok_bind, low32_eq]
  rfl

theorem vselOp_ok : State.vselOp f s = .ok (s1.setLanes f.d (fun i => if s1.laneOn f.km i then
    some (if (s1.readK f.c.toNat).getLsbD i then s1.readV f.a i
      else if f.bs then { val := Claims.low b, tag := false } else s1.readV f.b i) else none)) := by
  rw [State.vselOp, needGrant_ok hgrant, ok_bind, hread, ok_bind, low32_eq]
  simp only [apply_ite some]
  rfl

end LaneBodies

/-- Settles O28: the bodies with their results. -/
theorem spoolLanesAndMasks : Obligations.SpoolLanesAndMasks := by
  intro f s hguard u
  refine ⟨issue_ok (body := State.maskOp (· &&& ·) f) hguard rfl, issue_ok (body := State.maskOp (· ||| ·) f) hguard rfl,
    issue_ok (body := State.maskOp (· ^^^ ·) f) hguard rfl, issue_ok (body := State.maskOp (fun a _ => ~~~a) f) hguard rfl,
    fun a s1 hread => issue_ok hguard (ksetOp_ok hread), fun t hwrite => issue_ok hguard (kgetOp_eq.trans hwrite), fun hgrant => ?_⟩
  have hg : u.ctx.grant ≠ 0 := by rwa [grant_countIssue]
  exact ⟨issue_ok hguard (vspzOp_ok hg), issue_ok hguard (vsprndOp_ok hg), fun b s1 hread => ⟨issue_ok hguard (vspfmaOp_ok hg hread),
    issue_ok hguard (vcmpOp_ok hg hread), issue_ok hguard (vcmpOp_ok hg hread), issue_ok hguard (vcmpOp_ok hg hread),
    issue_ok hguard (vselOp_ok hg hread)⟩⟩

/-! ### No grant (R129) -/

/-- A body that looks at the grant before all else. -/
def Gated (body : State → Except Code State) : Prop := ∃ k : State → Except Code State, ∀ s, body s = s.needGrant >>= fun _ => k s

theorem gated_error {body : State → Except Code State} {s : State} (h : Gated body) (hgrant : s.ctx.grant = 0) : body s = .error 0x07 := by
  obtain ⟨k, hk⟩ := h
  rw [hk, State.needGrant, hgrant]
  rfl

theorem gated_of_needLanes : ∀ i ∈ Claims.needLanes, ∀ f : WForm, ∃ body, (∀ s, exec (i f) s = issue 8 f.guard s body) ∧ Gated body := by
  simp only [Claims.needLanes, Claims.elements, Claims.bitwise, Claims.accumulate, Claims.single, Claims.floating, Claims.ternary, Claims.loads,
    Claims.stores, List.map_cons, List.map_nil, List.forall_mem_append, List.forall_mem_cons, List.not_mem_nil, false_implies, implies_true,
    and_true]
  and_intros <;> exact fun f => ⟨_, fun _ => rfl, _, fun _ => rfl⟩

theorem gated_of_forms : ∀ x ∈ Claims.loads ++ Claims.stores, ∀ f : XForm,
    ∃ body, (∀ s, exec (x.2.2 f) s = issue 12 f.guard s body) ∧ Gated body := by
  simp only [Claims.loads, Claims.stores, List.forall_mem_append, List.forall_mem_cons, List.not_mem_nil, false_implies, implies_true, and_true]
  and_intros <;> exact fun f => ⟨_, fun _ => rfl, _, fun _ => rfl⟩

/-- Settles O32: each of these bodies looks at the grant first. -/
theorem noGrant : Obligations.NoGrant := by
  refine ⟨fun i hi f s hguard hgrant => ?_, fun x hx f s hguard hgrant => ?_⟩
  · obtain ⟨body, hexec, hgated⟩ := gated_of_needLanes i hi f
    rw [hexec]
    exact issue_error hguard (gated_error hgated ((grant_countIssue s 8).trans hgrant))
  · obtain ⟨body, hexec, hgated⟩ := gated_of_forms x hx f
    rw [hexec]
    exact issue_error hguard (gated_error hgated ((grant_countIssue s 12).trans hgrant))

end Sys2Proof.Proofs.Vectors
end

section
/-! PROOFS. Lane claims, releases and counts (O25, R127, R128). -/

namespace Sys2Proof.Proofs.LaneClaims

open Sys2Proof.Machine Sys2Proof.Proofs.Vectors

/-! ### Claims served one by one (R128) -/

theorem sum_serveClaims (free : Nat) (l : List (Nat × Nat × Nat)) :
    ((State.serveClaims free l).map (fun y => y.2.2)).sum = min free ((l.map (fun y => y.2.2)).sum) := by
  induction l generalizing free with
  | nil => simp [State.serveClaims]
  | cons y l ih =>
    obtain ⟨c, x, n⟩ := y
    rw [State.serveClaims, List.map_cons, List.sum_cons, ih, List.map_cons, List.sum_cons]
    dsimp only
    omega

theorem claimants_serveClaims (free : Nat) (l : List (Nat × Nat × Nat)) :
    (State.serveClaims free l).map (fun y => (y.1, y.2.1)) = l.map (fun y => (y.1, y.2.1)) := by
  induction l generalizing free with
  | nil => rfl
  | cons y l ih =>
    obtain ⟨c, x, n⟩ := y
    rw [State.serveClaims, List.map_cons, ih, List.map_cons]

theorem serveClaims_le (free : Nat) (l : List (Nat × Nat × Nat)) : ∀ z ∈ (State.serveClaims free l).zip l, z.1.2.2 ≤ z.2.2.2 := by
  induction l generalizing free with
  | nil => simp
  | cons y l ih =>
    obtain ⟨c, x, n⟩ := y
    rw [State.serveClaims, List.zip_cons_cons]
    exact List.forall_mem_cons.mpr ⟨Nat.min_le_left .., ih _⟩

/-! ### The claim of one core alone -/

theorem posOf_lt (cid : Nat) : posOf cid < 8 := Nat.mod_lt _ (by decide)
theorem posOf_le (cid : Nat) : posOf cid ≤ cid := by
  rw [posOf, localX, coreIdx]
  omega

/-- A core is the core of its own place in its cell, and of no other. -/
theorem cellMate_eq_self (cid n : Nat) : cellMate cid n = cid ↔ n = posOf cid := by
  have := posOf_le cid
  rw [cellMate]
  omega

theorem filterMap_ite {α β : Type} (P : α → Prop) [DecidablePred P] (x : β) (l : List α) :
    l.filterMap (fun i => if P i then some x else none) = List.replicate (l.countP (fun i => decide (P i))) x := by
  induction l with
  | nil => rfl
  | cons i l ih =>
    by_cases h : P i
    · rw [List.filterMap_cons_some (by rw [if_pos h]), ih, List.countP_cons_of_pos (by simpa using h), List.replicate_succ]
    · rw [List.filterMap_cons_none (by rw [if_neg h]), ih, List.countP_cons_of_neg (by simpa using h)]

/-- Each place of a cell is met once on the way round from the pointer. -/
theorem countP_rotation (p : Nat) {q : Nat} (hq : q < 8) : (List.range 8).countP (fun i => decide ((p + i) % 8 = q)) = 1 := by
  have hround : ∀ r : Fin 8, ∀ q : Fin 8, (List.range 8).countP (fun i => decide ((r.val + i) % 8 = q.val)) = 1 := by decide
  have hmod : ∀ i, (p + i) % 8 = (p % 8 + i) % 8 := fun i => by omega
  simp only [hmod]
  exact hround ⟨p % 8, Nat.mod_lt _ (by decide)⟩ ⟨q, hq⟩

variable {s : State}

theorem claimants_alone (cell n : Nat) (h : ∀ k, k < 8 → cellMate s.cur.1 k ≠ s.cur.1 → s.claimWith (cellMate s.cur.1 k) = none) :
    s.claimants cell n = [(s.cur.1, s.cur.2, n)] := by
  have hpick : ∀ i, (if cellMate s.cur.1 (((s.cell cell).ptr + i) % 8) = s.cur.1
      then some (cellMate s.cur.1 (((s.cell cell).ptr + i) % 8), s.cur.2, n) else s.claimWith (cellMate s.cur.1 (((s.cell cell).ptr + i) % 8)))
      = if ((s.cell cell).ptr + i) % 8 = posOf s.cur.1 then some (s.cur.1, s.cur.2, n) else none := by
    intro i
    by_cases hi : cellMate s.cur.1 (((s.cell cell).ptr + i) % 8) = s.cur.1
    · rw [if_pos hi, hi, if_pos ((cellMate_eq_self ..).mp hi)]
    · rw [if_neg hi, if_neg (fun he => hi ((cellMate_eq_self ..).mpr he)), h _ (Nat.mod_lt _ (by decide)) hi]
  rw [State.claimants]
  simp only [hpick]
  rw [filterMap_ite, countP_rotation _ (posOf_lt _), List.replicate_one]

/-- A context whose claim is not recorded holds its grant. -/
theorem heldBy_of_unclaimed {cid x : Nat} (h : s.claimOf cid x = none) : s.heldBy cid x = (State.ctxOf (s.core cid) x).grant := by
  rw [State.claimOf, Option.map_eq_none_iff, List.find?_eq_none] at h
  have hnone : (s.cell (cellOf cid)).claims.find?
      (fun y => y.1 == 2 * posOf cid + x && y.2.1 == (State.ctxOf (s.core cid) x).fid && (State.ctxOf (s.core cid) x).busy) = none := by
    rw [List.find?_eq_none]
    exact fun y hy hand => h y hy (Bool.and_eq_true _ _ ▸ hand).1
  rw [State.heldBy]
  simp only [hnone]

/-! ### What an lclaim does to its cell (R128) -/

/-- The claims of the other contexts of a cell that are recorded. -/
def otherClaims (s : State) : List (Nat × Nat × Nat) := (s.cell (cellOf s.cur.1)).claims.filter (fun y => y.1 != 2 * posOf s.cur.1 + s.cur.2)

theorem claimLanes_served {g n : Nat} (h : s.claimOf s.cur.1 s.cur.2 = some g) :
    s.claimLanes n = ({ s.cell (cellOf s.cur.1) with claims := otherClaims s }, g) := by
  rw [State.claimLanes, h]
  rfl

/-- What the claims of a cycle get. -/
def given (s : State) (n : Nat) : List (Nat × Nat × Nat) :=
  State.serveClaims (32 - (s.lanesHeld (cellOf s.cur.1) - ((s.claimants (cellOf s.cur.1) n).map (fun y => s.heldBy y.1 y.2.1)).sum))
    (s.claimants (cellOf s.cur.1) n)
/-- The claims of a cycle that are recorded until their cores issue. -/
def recorded (s : State) (n : Nat) : List (Nat × Nat × Nat) :=
  ((given s n).filter (fun y => y.1 != s.cur.1)).map (fun y => (2 * posOf y.1 + y.2.1, (State.ctxOf (s.core y.1) y.2.1).fid, y.2.2))

theorem claimLanes_first {g n : Nat} {y : Nat × Nat × Nat} (h : s.claimOf s.cur.1 s.cur.2 = none)
    (hg : (given s n).find? (fun y => y.1 == s.cur.1) = some y) (hy : y.2.2 = g) :
    s.claimLanes n = ({ s.cell (cellOf s.cur.1) with
      ptr := (posOf ((s.claimants (cellOf s.cur.1) n).headD (s.cur.1, s.cur.2, 0)).1 + 1) % 8
      claims := (otherClaims s).filter (fun y => !((recorded s n).any (fun z => z.1 == y.1))) ++ recorded s n }, g) := by
  rw [given] at hg
  rw [State.claimLanes, h, recorded, given]
  dsimp only
  rw [hg, ← hy, otherClaims]
  cases s.claimants (cellOf s.cur.1) n <;> rfl

theorem lclaimOp_eq (f : WForm) {x : Cell} {g : Nat} (h : s.claimLanes (8 * f.fld 14 3) = (x, g)) : State.lclaimOp f s =
    ((s.modCtx (fun k => { k with grant := g })).setCell (cellOf s.cur.1) x).writeS f.d (BitVec.ofNat 64 g) := by
  rw [State.lclaimOp, h]

theorem given_alone {n : Nat} (hc : s.claimOf s.cur.1 s.cur.2 = none) (h : s.claimants (cellOf s.cur.1) n = [(s.cur.1, s.cur.2, n)]) :
    given s n = [(s.cur.1, s.cur.2, min n (32 - Claims.lanesOfOthers s (cellOf s.cur.1)))] := by
  rw [given, h, List.map_cons, List.map_nil, List.sum_cons, List.sum_nil, Nat.add_zero, heldBy_of_unclaimed hc]
  rfl

/-- An lclaim that is the only one of its cycle. -/
theorem claimLanes_alone {n : Nat} (hc : s.claimOf s.cur.1 s.cur.2 = none)
    (h : ∀ k, k < 8 → cellMate s.cur.1 k ≠ s.cur.1 → s.claimWith (cellMate s.cur.1 k) = none) :
    s.claimLanes n = ({ s.cell (cellOf s.cur.1) with ptr := (posOf s.cur.1 + 1) % 8, claims := otherClaims s },
      min n (32 - Claims.lanesOfOthers s (cellOf s.cur.1))) := by
  have halone := claimants_alone (cellOf s.cur.1) n h
  have hgiven := given_alone hc halone
  have hrec : recorded s n = [] := by rw [recorded, hgiven, List.filter_cons_of_neg (by simp)]; rfl
  have hfind : (given s n).find? (fun y => y.1 == s.cur.1) = some (s.cur.1, s.cur.2, min n (32 - Claims.lanesOfOthers s (cellOf s.cur.1))) := by
    rw [hgiven]
    simp
  rw [claimLanes_first hc hfind rfl, hrec, halone]
  simp

/-- Settles O25: the three cases of an lclaim, and the claims served in order. -/
theorem laneClaims : Obligations.LaneClaims := by
  refine ⟨fun f s hguard => ?_, fun s cell n => rfl, fun free c x n l => ⟨rfl, rfl⟩,
    fun free l => ⟨sum_serveClaims free l, claimants_serveClaims free l, serveClaims_le free l⟩⟩
  intro u cell me rest
  have hlclaim : ∀ {x g t}, u.claimLanes (8 * f.fld 14 3) = (x, g) →
      ((u.modCtx (fun k => { k with grant := g })).setCell cell x).writeS f.d (BitVec.ofNat 64 g) = .ok t → exec (.lclaim f) s = .next t :=
    fun h hwrite => issue_ok hguard ((lclaimOp_eq f h).trans hwrite)
  refine ⟨fun g t hnone halone hg hwrite => ?_, fun g t hnone => ?_, fun g t hsome hwrite => hlclaim (claimLanes_served hsome) hwrite,
    issue_ok (body := State.lrelOp) hguard rfl, fun t h hwrite => issue_ok (body := State.lcountOp f) hguard ?_,
    fun t h hwrite => issue_ok (body := State.lcountOp f) hguard ?_⟩
  · rw [hg] at hwrite
    exact hlclaim (claimLanes_alone hnone halone) hwrite
  · intro cs given recs hfind hwrite
    exact hlclaim (claimLanes_first hnone hfind rfl) hwrite
  · rw [State.lcountOp, if_pos h, grant_countIssue]
    exact hwrite
  · rw [State.lcountOp, if_neg (by omega)]
    exact hwrite

end Sys2Proof.Proofs.LaneClaims
end

section
/-! PROOFS. Cross-lane instructions, conversion and packing (O29, O30, R139 to R143). -/

namespace Sys2Proof.Proofs.CrossLane

open Sys2Proof.Machine Sys2Proof.Proofs.Float Sys2Proof.Proofs.Lanes Sys2Proof.Proofs.LoadStore Sys2Proof.Proofs.VectorMemory Sys2Proof.Proofs.Vectors

/-! ### The tree and the scan (R142, R143) -/

section Passes

variable {α : Type} (g : α → α → α) (d : α)

theorem length_redPass : ∀ l : List α, (redPass g l).length = (l.length + 1) / 2
  | [] => by simp [redPass]
  | [_] => by simp [redPass]
  | a :: b :: l => by
    rw [redPass, List.length_cons, length_redPass l, List.length_cons, List.length_cons]
    omega

/-- A pass of the tree combines neighbours. -/
theorem getD_redPass : ∀ (l : List α) (i : Nat), 2 * i + 1 < l.length → (redPass g l).getD i d = g (l.getD (2 * i) d) (l.getD (2 * i + 1) d)
  | [], i, h => by simp at h
  | [_], i, h => by simp at h
  | a :: b :: l, 0, _ => rfl
  | a :: b :: l, i + 1, h => by
    rw [redPass, List.getD_cons_succ, getD_redPass l i (by simp only [List.length_cons] at h; omega)]
    rfl

/-- The five passes combine 32 values as the tree does. -/
theorem redTree_eq {l : List α} (h : l.length = 32) : redTree g d l = Claims.tree g (fun i => l.getD i d) := by
  rw [redTree]
  simp (disch := simp [length_redPass, h]) only [getD_redPass]
  rfl

theorem getD_scanPass {step i : Nat} {l : List α} (h : i < l.length) :
    (scanPass g d step l).getD i d = if step ≤ i then g (l.getD (i - step) d) (l.getD i d) else l.getD i d := by
  rw [scanPass, List.getD_eq_getElem?_getD, List.getElem?_map, List.getElem?_range h, Option.map_some, Option.getD_some]
  by_cases hi : i < step
  · rw [if_pos hi, if_neg (Nat.not_le.mpr hi)]
  · rw [if_neg hi, if_pos (Nat.le_of_not_lt hi)]

theorem length_scanPass (step : Nat) (l : List α) : (scanPass g d step l).length = l.length := by rw [scanPass, List.length_map, List.length_range]

/-- The passes of a scan over a list are those over its places. -/
theorem getD_scan (steps : List Nat) {l : List α} {t : Nat → α} (hl : l.length = 32) (ht : ∀ i, i < 32 → l.getD i d = t i) : ∀ i, i < 32 →
    (steps.foldl (fun t s => scanPass g d s t) l).getD i d =
      steps.foldl (fun (t : Nat → α) step => fun i => if step ≤ i then g (t (i - step)) (t i) else t i) t i := by
  induction steps generalizing l t with
  | nil => exact ht
  | cons step steps ih =>
    rw [List.foldl_cons, List.foldl_cons]
    refine ih ((length_scanPass g d step l).trans hl) fun i hi => ?_
    rw [getD_scanPass g d (by omega), ht i hi, ht (i - step) (by omega)]

end Passes

/-! ### Operators (R142) -/

theorem operators_eq : ∀ x ∈ Claims.operators, redIdentity x.1 = x.2.2 ∧ ∀ rm a b, redCombine x.1 rm a b = x.2.1 rm a b := by
  simp only [Claims.operators, List.forall_mem_cons, List.not_mem_nil, false_implies, implies_true, and_true]
  refine ⟨⟨rfl, fun _ _ _ => rfl⟩, ⟨rfl, fun _ _ _ => ?_⟩, ⟨rfl, fun _ _ _ => ?_⟩, ⟨rfl, fun _ _ _ => ?_⟩, ⟨rfl, fun _ _ _ => ?_⟩,
    ⟨rfl, fun _ _ _ => rfl⟩, ⟨rfl, fun _ _ _ => rfl⟩, ⟨rfl, fun _ _ _ => rfl⟩, ⟨rfl, fun _ _ _ => rfl⟩, ⟨rfl, fun _ a b => fpMin_eq a b⟩,
    ⟨rfl, fun _ a b => fpMax_eq a b⟩⟩
  · simp only [redCombine, BitVec.slt_iff_toInt_lt]
  · simp only [redCombine, BitVec.slt_iff_toInt_lt]
  · simp only [redCombine, BitVec.ult_iff_lt, BitVec.lt_def]
  · simp only [redCombine, BitVec.ult_iff_lt, BitVec.lt_def]

/-! ### What the moves give (R141) -/

theorem moveLane_eq (f : WForm) (c : Word) (x : Option (BitVec 32)) : State.moveLane f.ep (State.low32 c) x = Claims.moved f c x := by
  rw [low32_eq, WForm.ep]
  cases x with
  | some v => rfl
  | none =>
    unfold State.moveLane Claims.moved
    generalize f.fld 21 2 = ep
    match ep with
    | 0 => rfl
    | 1 => rfl
    | n + 2 => rw [if_neg (by omega), if_neg (by omega)]; rfl

/-- No FP32 encoding decodes to NaR. -/
theorem decodeFp32_ne_nar (x : BitVec 32) : decodeFp32 x ≠ .nar := by
  rw [decodeFp32]
  split
  · split <;> simp
  · split <;> simp

theorem isNan_iff (x : BitVec 32) : (decodeFp32 x).isNan = true ↔ decodeFp32 x = .nan := by
  have hne := decodeFp32_ne_nar x
  cases h : decodeFp32 x with
  | nan => simp [XReal.isNan]
  | nar => exact absurd h hne
  | inf n => simp [XReal.isNan]
  | num n m e st => simp [XReal.isNan]

theorem redResult_eq (op : Nat) (x : BitVec 32) : redResult op x = Claims.canonical op x := by
  unfold redResult Claims.canonical
  simp only [isNan_iff]
  split
  case h_1 h => rw [if_pos ⟨by decide, by decide, h⟩]; rfl
  case h_2 h => rw [if_pos ⟨by decide, by decide, h⟩]; rfl
  case h_3 h => rw [if_pos ⟨by decide, by decide, h⟩]; rfl
  case h_4 op _ _ h8 h9 h10 =>
    rw [if_neg]
    rintro ⟨hlo, hhi, hnan⟩
    obtain rfl | rfl | rfl : op = 8 ∨ op = 9 ∨ op = 10 := by omega
    · exact h8 rfl hnan
    · exact h9 rfl hnan
    · exact h10 rfl hnan

theorem redValues_eq (s : State) (f : WForm) (c : Word) : s.redValues f (State.low32 c) = Claims.reduced s f c := by
  rw [low32_eq]
  rfl

/-! ### The bodies (R141 to R143) -/

section Bodies

variable {f : WForm} {s s1 s2 t : State} {a b c : Word} (hgrant : s.ctx.grant ≠ 0)
include hgrant

theorem vbcastOp_ok (h : s.readS f.a = .ok (a, s1)) : State.vbcastOp f s =
    .ok (s1.setLanes f.d (fun i => if s1.laneOn f.km i then some { val := Claims.low a, tag := false } else none)) := by
  rw [State.vbcastOp, needGrant_ok hgrant, ok_bind, h, low32_eq]
  rfl

theorem vextOp_eq (hb : s.readS f.b = .ok (b, s1)) (hc : s1.readS f.c = .ok (c, s2)) : State.vextOp f s =
    match Claims.token s2 f.km f.a (b.toNat % 32 : Nat) with
    | some v => s2.writeS f.d (BitVec.ofInt 64 v.toInt)
    | none => if f.fld 21 2 = 2 then s2.writeS f.d (BitVec.ofInt 64 (Claims.low c).toInt) else .ok s2 := by
  rw [State.vextOp, needGrant_ok hgrant, ok_bind, hb, ok_bind]
  dsimp only
  rw [hc, ok_bind, low32_eq]
  rfl

theorem vslideOp_ok (hb : s.readS f.b = .ok (b, s1)) (hc : s1.readS f.c = .ok (c, s2)) : State.vslideOp f s =
    .ok (s2.setLanes f.d (fun i => if s2.laneOn f.km i then Claims.moved f c (Claims.token s2 f.km f.a ((i : Int) + b.toInt)) else none)) := by
  rw [State.vslideOp, needGrant_ok hgrant, ok_bind, hb, ok_bind]
  dsimp only
  rw [hc, ok_bind]
  simp only [moveLane_eq]
  rfl

variable (hread : s.readS f.c = .ok (c, s1))
include hread

theorem vpermOp_ok : State.vpermOp f s = .ok (s1.setLanes f.d (fun i => if s1.laneOn f.km i then
    Claims.moved f c (if (s1.readV f.b i).tag then none else Claims.token s1 f.km f.a ((s1.readV f.b i).val.toNat % 32 : Nat)) else none)) := by
  rw [State.vpermOp, needGrant_ok hgrant, ok_bind, hread, ok_bind]
  simp only [moveLane_eq]
  rfl

theorem vredOp_signed (h : f.fld 25 4 < 8) : State.vredOp f s =
    s1.writeS f.d (BitVec.ofInt 64 (redTree (redCombine (f.fld 25 4) (f.fld 23 2)) 0 (Claims.reduced s1 f c)).toInt) := by
  rw [State.vredOp, needGrant_ok hgrant, ok_bind, hread, ok_bind, WForm.op]
  dsimp only
  rw [if_neg (by omega), if_neg (by omega), redValues_eq]
  rfl

theorem vredOp_float (h : 8 ≤ f.fld 25 4) (h' : f.fld 25 4 ≤ 10) : State.vredOp f s =
    s1.writeS f.d (BitVec.ofNat 64 (redTree (redCombine (f.fld 25 4) (f.fld 23 2)) 0 (Claims.reduced s1 f c)).toNat) := by
  rw [State.vredOp, needGrant_ok hgrant, ok_bind, hread, ok_bind, WForm.op, BitVec.ofNat_toNat]
  dsimp only
  rw [if_neg (by omega), if_pos h, redValues_eq]
  rfl

theorem vredOp_spool (h : f.fld 25 4 = 11) : State.vredOp f s =
    .ok (s1.writeY f.d.toNat (redTree (fun x y => spoolMerge x y false) Spool.zero
      ((List.range 32).map (fun j => if s1.laneOn f.km j then s1.readWsp f.a.toNat j else Spool.zero)))) := by
  rw [State.vredOp, needGrant_ok hgrant, ok_bind, hread, ok_bind, WForm.op]
  dsimp only
  rw [if_pos h]
  rfl

theorem vscanOp_ok : State.vscanOp f s = .ok (s1.setLanes f.d (fun i => if s1.laneOn f.km i then
    (if f.fld 21 2 = 1 ∧ Claims.token s1 f.km f.a (i : Int) = none then some { val := 0, tag := true }
     else some { val := Claims.canonical (f.fld 25 4) ((scanAll (redCombine (f.fld 25 4) (f.fld 23 2)) 0 (Claims.reduced s1 f c)).getD i 0)
                 tag := false }) else none)) := by
  rw [State.vscanOp, needGrant_ok hgrant, ok_bind, hread, ok_bind]
  dsimp only
  rw [redValues_eq]
  simp only [redResult_eq, Option.isNone_iff_eq_none]
  rfl

end Bodies

/-- Settles O30: the passes in their two descriptions, and the bodies. -/
theorem crossLane : Obligations.CrossLane := by
  refine ⟨operators_eq, fun g d l hl => ⟨redTree_eq g d hl, getD_scan g d _ hl fun _ _ => rfl⟩, fun g d l hl => redTree_eq g d hl,
    fun f s hguard hgrant => ?_⟩
  intro u
  have hg : u.ctx.grant ≠ 0 := by rwa [grant_countIssue]
  refine ⟨fun a s1 hread => issue_ok hguard (vbcastOp_ok hg hread), fun b c s1 s2 hb hc => ?_, fun c s1 hread => ?_⟩
  · have hext := vextOp_eq hg hb hc
    refine ⟨fun v t htoken hwrite => issue_ok hguard (hext.trans ?_), fun t htoken hep hwrite => issue_ok hguard (hext.trans ?_),
      fun htoken hep => issue_ok hguard (hext.trans ?_), issue_ok hguard (vslideOp_ok hg hb hc)⟩
    · rw [htoken]; exact hwrite
    · rw [htoken]; exact (if_pos hep).trans hwrite
    · rw [htoken]; exact if_neg hep
  · exact ⟨issue_ok hguard (vpermOp_ok hg hread), fun t h hwrite => issue_ok hguard ((vredOp_signed hg hread h).trans hwrite),
      fun t h h' hwrite => issue_ok hguard ((vredOp_float hg hread h h').trans hwrite),
      fun h => issue_ok hguard (vredOp_spool hg hread h), issue_ok hguard (vscanOp_ok hg hread)⟩

/-! ### Conversion (R139) -/

theorem convLane_eq (f : WForm) (c : Nat) (v : BitVec 32) :
    State.convLane f.vsrc f.vdst f.rm f.sc c v = Claims.laneCode f c (Claims.laneValue f c v) := by
  rw [State.convLane, Claims.laneCode, Claims.laneValue, WForm.sc]
  simp only [isMx, Bool.and_eq_true, beq_iff_eq, decide_eq_true_eq]
  rfl

theorem vcvtOp_ok {f : WForm} {s s1 : State} {c : Word} (hgrant : s.ctx.grant ≠ 0) (hread : s.readS f.c = .ok (c, s1)) :
    State.vcvtOp f s = .ok (s1.elementwise f [f.a] (fun i =>
      Claims.laneCode f (c.toNat % 256) (Claims.laneValue f (c.toNat % 256) (s1.readV f.a i).val))) := by
  rw [State.vcvtOp, needGrant_ok hgrant, ok_bind, hread, ok_bind]
  simp only [convLane_eq]
  rfl

/-! ### Unpacking (R140) -/

theorem packN_dvd (f : WForm) : f.packN ∣ 32 := by
  have hew : f.ew < 4 := Nat.mod_lt _ (by decide)
  have hwidths : ∀ e : Fin 4, 16 >>> e.val ∣ 32 := by decide
  exact hwidths ⟨f.ew, hew⟩

theorem packN_pos (f : WForm) : 0 < f.packN := Nat.pos_of_dvd_of_pos (packN_dvd f) (by decide)

/-- The bit of a lane at which an element of N bits stands. -/
theorem packN_mod (f : WForm) (p : Nat) : f.packN * p % 32 = f.packN * (p % (32 / f.packN)) := by
  conv_lhs => rw [← Nat.mul_div_cancel' (packN_dvd f)]
  exact Nat.mul_mod_mul_left ..

theorem elemRead_packN (f : WForm) (u : Bool) (x : BitVec 32) (e : Nat) : elemRead f.packN u (Claims.elem f.packN x e) =
    if u then (Claims.elem f.packN x e : Int) else Claims.signed f.packN (Claims.elem f.packN x e) := by
  have hlt : Claims.elem f.packN x e < 2 ^ f.packN := elemOf_lt ..
  rw [elemRead, elemInt_eq hlt, Nat.mod_eq_of_lt hlt]

theorem vunpackOp_ok {f : WForm} {s : State} (hgrant : s.ctx.grant ≠ 0) : State.vunpackOp f s =
    .ok (s.setLanes f.d (fun j => if s.laneOn f.km j then
      let n := f.packN
      let p := 32 * f.q + j
      let x := s.readV f.a (p * n / 32)
      (if s.ctx.grant ≤ p * n / 32 ∨ x.tag = true then some { val := 0, tag := true }
       else some { val := BitVec.ofInt 32 (if f.fld 22 1 = 1 then (Claims.elem n x.val (p % (32 / n)) : Int)
         else Claims.signed n (Claims.elem n x.val (p % (32 / n)))), tag := false }) else none)) := by
  rw [State.vunpackOp, needGrant_ok hgrant, ok_bind]
  have helem : ∀ (x : BitVec 32) (p : Nat), x.toNat / 2 ^ (f.packN * p % 32) % 2 ^ f.packN = Claims.elem f.packN x (p % (32 / f.packN)) := by
    intro x p
    rw [packN_mod]
    rfl
  dsimp only
  simp only [helem, elemRead_packN, Bool.or_eq_true, decide_eq_true_eq, beq_iff_eq]
  rfl

/-! ### Packing (R140) -/

section Fields

variable {H y L k n : Nat} (hL : L < 2 ^ k) (hy : y < 2 ^ n)
include hL

theorem field_at : (H * 2 ^ (k + n) + y * 2 ^ k + L) / 2 ^ k % 2 ^ n = y % 2 ^ n := by
  rw [Nat.pow_add, show H * (2 ^ k * 2 ^ n) + y * 2 ^ k + L = L + 2 ^ k * (H * 2 ^ n + y) by ring, Nat.add_mul_div_left _ _ (Nat.two_pow_pos k),
    Nat.div_eq_of_lt hL, Nat.zero_add, Nat.mul_comm, Nat.mul_add_mod]

omit hL in
theorem field_below {j : Nat} (hj : j + n ≤ k) : (H * 2 ^ (k + n) + y * 2 ^ k + L) / 2 ^ j % 2 ^ n = L / 2 ^ j % 2 ^ n := by
  obtain ⟨i, rfl⟩ := Nat.exists_eq_add_of_le hj
  rw [show H * 2 ^ (j + n + i + n) + y * 2 ^ (j + n + i) + L = L + 2 ^ j * (2 ^ n * (H * 2 ^ (i + n) + y * 2 ^ i)) by ring,
    Nat.add_mul_div_left _ _ (Nat.two_pow_pos j), Nat.add_mul_mod_self_left]

include hy

theorem field_above {j : Nat} (hj : k + n ≤ j) : (H * 2 ^ (k + n) + y * 2 ^ k + L) / 2 ^ j = H / 2 ^ (j - (k + n)) := by
  have hlow : y * 2 ^ k + L < 2 ^ (k + n) := by
    rw [Nat.pow_add, Nat.mul_comm (2 ^ k)]
    calc y * 2 ^ k + L < y * 2 ^ k + 2 ^ k := Nat.add_lt_add_left hL _
      _ = (y + 1) * 2 ^ k := (Nat.succ_mul y _).symm
      _ ≤ 2 ^ n * 2 ^ k := Nat.mul_le_mul_right _ hy
  obtain ⟨i, rfl⟩ := Nat.exists_eq_add_of_le hj
  rw [Nat.add_sub_cancel_left, Nat.pow_add 2 (k + n) i, ← Nat.div_div_eq_div_mul,
    show H * 2 ^ (k + n) + y * 2 ^ k + L = y * 2 ^ k + L + 2 ^ (k + n) * H by ring, Nat.add_mul_div_left _ _ (Nat.two_pow_pos _),
    Nat.div_eq_of_lt hlow, Nat.zero_add]

end Fields

/-- Element e of n bits of a number replaced. -/
def setField (n v e x : Nat) : Nat := v - v / 2 ^ (n * e) % 2 ^ n * 2 ^ (n * e) + x % 2 ^ n * 2 ^ (n * e)

/-- A number is what stands above an element, the element and what stands below it. -/
theorem split_field (v k n : Nat) : v = v / 2 ^ (k + n) * 2 ^ (k + n) + v / 2 ^ k % 2 ^ n * 2 ^ k + v % 2 ^ k := by
  have hk := Nat.div_add_mod v (2 ^ k)
  have hn := Nat.div_add_mod (v / 2 ^ k) (2 ^ n)
  rw [Nat.div_div_eq_div_mul, ← Nat.pow_add] at hn
  rw [← hn] at hk
  conv_lhs => rw [← hk]
  ring

theorem setField_eq (n v e x : Nat) : setField n v e x =
    v / 2 ^ (n * e + n) * 2 ^ (n * e + n) + x % 2 ^ n * 2 ^ (n * e) + v % 2 ^ (n * e) := by
  have h := split_field v (n * e) n
  rw [setField]
  omega

theorem elem_setField (n v e x i : Nat) :
    setField n v e x / 2 ^ (n * i) % 2 ^ n = if i = e then x % 2 ^ n else v / 2 ^ (n * i) % 2 ^ n := by
  have hL : v % 2 ^ (n * e) < 2 ^ (n * e) := Nat.mod_lt _ (Nat.two_pow_pos _)
  have hx : x % 2 ^ n < 2 ^ n := Nat.mod_lt _ (Nat.two_pow_pos _)
  have hm : v / 2 ^ (n * e) % 2 ^ n < 2 ^ n := Nat.mod_lt _ (Nat.two_pow_pos _)
  have hv := split_field v (n * e) n
  rw [setField_eq]
  rcases Nat.lt_trichotomy i e with h | h | h
  · have hj : n * i + n ≤ n * e := by rw [← Nat.mul_succ]; exact Nat.mul_le_mul_left n h
    rw [if_neg (Nat.ne_of_lt h), field_below hj]
    conv_rhs => rw [hv]
    rw [field_below hj]
  · rw [if_pos h, h, field_at hL, Nat.mod_mod]
  · have hj : n * e + n ≤ n * i := by rw [← Nat.mul_succ]; exact Nat.mul_le_mul_left n h
    rw [if_neg (Nat.ne_of_gt h), field_above hL hx hj]
    conv_rhs => rw [hv]
    rw [field_above hL hm hj]

/-- An element inside a lane is replaced within the lane. -/
theorem setField_lt {n v e w : Nat} (x : Nat) (hv : v < 2 ^ w) (he : n * e + n ≤ w) : setField n v e x < 2 ^ w := by
  have hL : v % 2 ^ (n * e) < 2 ^ (n * e) := Nat.mod_lt _ (Nat.two_pow_pos _)
  have hx : x % 2 ^ n < 2 ^ n := Nat.mod_lt _ (Nat.two_pow_pos _)
  have hm : v / 2 ^ (n * e) % 2 ^ n < 2 ^ n := Nat.mod_lt _ (Nat.two_pow_pos _)
  have habove := field_above (H := v / 2 ^ (n * e + n)) hL hm he
  rw [← split_field, Nat.div_eq_of_lt hv] at habove
  rw [setField_eq]
  refine (Nat.div_eq_zero_iff_lt (Nat.two_pow_pos w)).mp ?_
  rw [field_above hL hx he, ← habove]

/-- The elements that a lane takes, each with the place of its source. -/
def sources (s : State) (f : WForm) (l : Nat) : List (Nat × Nat) :=
  ((List.range (32 / f.packN)).map (fun e => (e, 32 / f.packN * l + e))).filter
    (fun x => decide (32 * f.q ≤ x.2) && decide (x.2 < 32 * f.q + s.ctx.grant))

theorem mem_sources {s : State} {f : WForm} {l : Nat} {x : Nat × Nat} : x ∈ sources s f l ↔
    x.2 = 32 / f.packN * l + x.1 ∧ x.1 < 32 / f.packN ∧ 32 * f.q ≤ 32 / f.packN * l + x.1 ∧ 32 / f.packN * l + x.1 - 32 * f.q < s.ctx.grant := by
  obtain ⟨e, p⟩ := x
  simp only [sources, List.mem_filter, List.mem_map, List.mem_range, Prod.mk.injEq, Bool.and_eq_true, decide_eq_true_eq]
  constructor
  · rintro ⟨⟨e, he, rfl, rfl⟩, hlo, hhi⟩
    exact ⟨rfl, he, hlo, by omega⟩
  · rintro ⟨rfl, he, hlo, hhi⟩
    exact ⟨⟨e, he, rfl, rfl⟩, hlo, by omega⟩

/-- A lane with the elements of a list replaced, each by what stands at its source. -/
def packed (n : Nat) (g : Nat → Nat) (js : List (Nat × Nat)) (v : Nat) : Nat := js.foldl (fun v x => setField n v x.1 (g x.2)) v

theorem packed_lt {n w : Nat} (g : Nat → Nat) {js : List (Nat × Nat)} (hjs : ∀ x ∈ js, n * x.1 + n ≤ w) {v : Nat} (hv : v < 2 ^ w) :
    packed n g js v < 2 ^ w := by
  induction js generalizing v with
  | nil => exact hv
  | cons x js ih => exact ih (fun y hy => hjs y (List.mem_cons_of_mem _ hy)) (setField_lt _ hv (hjs x List.mem_cons_self))

theorem elem_packed {n c : Nat} (g : Nat → Nat) {js : List (Nat × Nat)} (hjs : ∀ x ∈ js, x.2 = c + x.1) (v i : Nat) :
    packed n g js v / 2 ^ (n * i) % 2 ^ n = if (i, c + i) ∈ js then g (c + i) % 2 ^ n else v / 2 ^ (n * i) % 2 ^ n := by
  induction js generalizing v with
  | nil => simp [packed]
  | cons x js ih =>
    obtain ⟨e, p⟩ := x
    obtain rfl : p = c + e := hjs (e, p) List.mem_cons_self
    rw [packed, List.foldl_cons]
    refine (ih (fun y hy => hjs y (List.mem_cons_of_mem _ hy)) _).trans ?_
    rw [elem_setField]
    by_cases hi : (i, c + i) ∈ js
    · rw [if_pos hi, if_pos (List.mem_cons_of_mem _ hi)]
    · rw [if_neg hi]
      by_cases he : i = e
      · rw [if_pos he, he, if_pos List.mem_cons_self]
      · rw [if_neg he, if_neg]
        rw [List.mem_cons, not_or]
        exact ⟨fun h => he (Prod.mk.inj h).1, hi⟩

/-- What vpack writes into a lane, if it writes one. -/
def packLane (s : State) (f : WForm) (l : Nat) : Option Lane :=
  if s.laneOn f.km l && !(sources s f l).isEmpty then
    (if (sources s f l).any (fun x => (s.readV f.a (x.2 - 32 * f.q)).tag) then State.empty
     else State.full (BitVec.ofNat 32 (packed f.packN (fun p => (s.readV f.a (p - 32 * f.q)).val.toNat) (sources s f l) (s.readV f.d l).val.toNat)))
  else none

theorem vpackOp_ok {f : WForm} {s : State} (hgrant : s.ctx.grant ≠ 0) : State.vpackOp f s = .ok (s.setLanes f.d (packLane s f)) := by
  rw [State.vpackOp, needGrant_ok hgrant, ok_bind]
  rfl

section Packing

variable {s : State} {f : WForm} {l : Nat}

/-- Lane l takes element e (R140). -/
def Takes (s : State) (f : WForm) (l e : Nat) : Prop :=
  e < 32 / f.packN ∧ 32 * f.q ≤ 32 / f.packN * l + e ∧ 32 / f.packN * l + e - 32 * f.q < s.ctx.grant

theorem takes_iff {e : Nat} : Takes s f l e ↔ (e, 32 / f.packN * l + e) ∈ sources s f l := by
  rw [mem_sources]
  exact ⟨fun h => ⟨rfl, h⟩, fun h => h.2⟩

theorem sources_isEmpty (h : ∀ e, ¬Takes s f l e) : (sources s f l).isEmpty = true :=
  List.isEmpty_iff.mpr (List.eq_nil_iff_forall_not_mem.mpr fun x hx => h x.1 (mem_sources.mp hx).2)

theorem sources_not_isEmpty {e : Nat} (h : Takes s f l e) : (sources s f l).isEmpty = false :=
  List.isEmpty_eq_false_iff_exists_mem.mpr ⟨_, takes_iff.mp h⟩

theorem packLane_none (h : s.laneOn f.km l = false ∨ ∀ e, ¬Takes s f l e) : packLane s f l = none := by
  rw [packLane, if_neg]
  rcases h with h | h
  · simp [h]
  · simp [sources_isEmpty h]

theorem packLane_empty {e : Nat} (hon : s.laneOn f.km l = true) (he : Takes s f l e)
    (htag : (s.readV f.a (32 / f.packN * l + e - 32 * f.q)).tag = true) : packLane s f l = some { val := 0, tag := true } := by
  rw [packLane, if_pos (by rw [hon, sources_not_isEmpty he]; rfl), if_pos (List.any_eq_true.mpr ⟨_, takes_iff.mp he, htag⟩)]
  rfl

theorem packLane_full {e : Nat} (hon : s.laneOn f.km l = true) (he : Takes s f l e)
    (htag : ∀ i, Takes s f l i → (s.readV f.a (32 / f.packN * l + i - 32 * f.q)).tag = false) : packLane s f l = some
      { val := BitVec.ofNat 32 (packed f.packN (fun p => (s.readV f.a (p - 32 * f.q)).val.toNat) (sources s f l) (s.readV f.d l).val.toNat)
        tag := false } := by
  rw [packLane, if_pos (by rw [hon, sources_not_isEmpty he]; rfl), if_neg]
  · rfl
  · rw [List.any_eq_true]
    rintro ⟨x, hx, hxtag⟩
    obtain ⟨hp, htakes⟩ := mem_sources.mp hx
    rw [hp, htag x.1 htakes] at hxtag
    exact Bool.false_ne_true hxtag

/-- The elements of a packed lane. -/
theorem elem_packLane (i : Nat) : Claims.elem f.packN
    (BitVec.ofNat 32 (packed f.packN (fun p => (s.readV f.a (p - 32 * f.q)).val.toNat) (sources s f l) (s.readV f.d l).val.toNat)) i =
      if (i, 32 / f.packN * l + i) ∈ sources s f l then (s.readV f.a (32 / f.packN * l + i - 32 * f.q)).val.toNat % 2 ^ f.packN
      else Claims.elem f.packN (s.readV f.d l).val i := by
  have hbound : ∀ x ∈ sources s f l, f.packN * x.1 + f.packN ≤ 32 := by
    intro x hx
    obtain ⟨-, hlt, -⟩ := mem_sources.mp hx
    calc f.packN * x.1 + f.packN = f.packN * (x.1 + 1) := (Nat.mul_succ ..).symm
      _ ≤ f.packN * (32 / f.packN) := Nat.mul_le_mul_left _ hlt
      _ ≤ 32 := Nat.mul_div_le ..
  rw [Claims.elem, BitVec.toNat_ofNat, Nat.mod_eq_of_lt (packed_lt _ hbound (BitVec.isLt _)),
    elem_packed _ (fun x hx => (mem_sources.mp hx).1)]
  rfl

end Packing

/-- Settles O29: a lane that vpack writes, by its elements, and the bodies of the others. -/
theorem convertAndPack : Obligations.ConvertAndPack := by
  intro f s hguard hgrant u
  have hgu : u.ctx.grant = s.ctx.grant := grant_countIssue s 8
  have hg : u.ctx.grant ≠ 0 := by rwa [hgu]
  refine ⟨fun c s1 hread => issue_ok hguard (vcvtOp_ok hg hread), ⟨_, issue_ok hguard (vpackOp_ok hg), packN_dvd f, fun l hl => ?_⟩, ?_⟩
  · have hread := readV_setLanes (s := u) (d := f.d) (packLane u f) hl
    rw [← hgu]
    intro from_ takes
    refine ⟨fun h => ?_, fun hon ⟨e, he, htag⟩ => ?_, fun hon ⟨e, he⟩ htag => ?_⟩
    · rw [hread, packLane_none h]; rfl
    · rw [hread, packLane_empty hon he htag]; rfl
    · rw [hread, packLane_full hon he htag]
      refine ⟨rfl, fun i hi => (elem_packLane i).trans ?_⟩
      exact if_congr takes_iff.symm rfl rfl
  · have hunpack := issue_ok hguard (vunpackOp_ok (f := f) hg)
    rw [hgu] at hunpack
    exact hunpack

end Sys2Proof.Proofs.CrossLane
end

section
/-! PROOFS. What every request of an instruction checks before it leaves (R190, R191, R217, R389), and what the reads of its operands leave. -/

namespace Sys2Proof.Proofs.Requests

open Sys2Proof.Machine Sys2Proof.Proofs.LoadStore Sys2Proof.Proofs.ScalarRegisters

/-! ### Operands (R47) -/

variable {s s1 s2 t : State}

/-- A read of a scalar register leaves the context that issues. -/
theorem readS_ctx {r : BitVec 6} {w : Word} (h : s.readS r = .ok (w, t)) : t.ctx = s.ctx := by
  unfold State.readS at h
  split at h
  case h_5 =>
    split at h
    · split at h
      · cases h
      · cases h
        exact ctx_modCur _ _ (fun _ => rfl) (fun _ => rfl)
    · cases h; rfl
  all_goals (cases h; rfl)

theorem readAB_split {f : WForm} {a b : Word} (h : s.readAB f = .ok (a, b, s2)) : ∃ s1, s.readS f.a = .ok (a, s1) ∧ s1.readS f.b = .ok (b, s2) := by
  obtain ⟨⟨a', s1⟩, ha, h⟩ := bind_ok h
  obtain ⟨⟨b', s2'⟩, hb, h⟩ := bind_ok h
  cases h
  exact ⟨s1, ha, hb⟩

theorem readAB_cur {f : WForm} {a b : Word} (h : s.readAB f = .ok (a, b, s2)) : s2.cur = s.cur := by
  obtain ⟨s1, ha, hb⟩ := readAB_split h
  exact (readS_cur hb).trans (readS_cur ha)

/-- Sources a, b, c and d are read in that order (R47). -/
theorem readABCD_split {f : WForm} {a b c d : Word} {s4 : State} (h : Claims.readABCD s f = .ok (a, b, c, d, s4)) :
    ∃ s1 s2 s3, s.readS f.a = .ok (a, s1) ∧ s1.readS f.b = .ok (b, s2) ∧ s2.readS f.c = .ok (c, s3) ∧ s3.readS f.d = .ok (d, s4) := by
  obtain ⟨⟨a', b', s2⟩, hab, h⟩ := bind_ok h
  obtain ⟨⟨c', s3⟩, hc, h⟩ := bind_ok h
  obtain ⟨⟨d', s4'⟩, hd, h⟩ := bind_ok h
  cases h
  obtain ⟨s1, ha, hb⟩ := readAB_split hab
  exact ⟨s1, s2, s3, ha, hb, hc, hd⟩

theorem readABCD_cur {f : WForm} {a b c d : Word} (h : Claims.readABCD s f = .ok (a, b, c, d, t)) : t.cur = s.cur := by
  obtain ⟨s1, s2, s3, ha, hb, hc, hd⟩ := readABCD_split h
  rw [readS_cur hd, readS_cur hc, readS_cur hb, readS_cur ha]

/-! ### Checks (R190, R191, R217, R389) -/

theorem compSlot_ok {r : BitVec 6} {w : Word} {slot : Option Nat} (h : Claims.Slot s r w slot) : s.compSlot r w = .ok slot := by
  rw [State.compSlot]
  obtain ⟨hr, hslot⟩ | ⟨hr, href, hslot⟩ := h
  · rw [if_pos hr, hslot]
  · rw [if_neg hr, if_pos href, hslot]

theorem asyncRoom_ok (h : Claims.asyncRoom s) : s.asyncRoom = .ok () := by
  rw [State.asyncRoom, decide_eq_true (show s.asyncCount < 4 from h)]
  rfl

theorem splicesTo_ok {die : Nat} {back : Bool} (h : Claims.reaches s die back) : s.splicesTo die back = .ok () := by
  rw [State.splicesTo, State.myPart, h]
  rfl

theorem slotSplices_ok {slot : Option Nat} (h : Claims.slotReaches s slot) : s.slotSplices slot = .ok () := by
  cases slot with
  | none => rfl
  | some r => exact splicesTo_ok (h r rfl)

theorem slotOperand_ok {w : Word} (h : s.srefOk (s.partOf s.cur.1) w.toNat = true) : s.slotOperand w = .ok w.toNat := by
  rw [State.slotOperand, State.myPart, if_pos h]

end Sys2Proof.Proofs.Requests
end

section
/-! PROOFS. The frame, slot and ring instructions complete with their requests (O34, O35, R188 to R203). -/

namespace Sys2Proof.Proofs.FrameInstructions

open Sys2Proof.Machine Sys2Proof.Proofs.LoadStore Sys2Proof.Proofs.Requests

variable {f : WForm} {s t : State} {a b c d : Word} {slot : Option Nat}

/-! ### Allocation (R193) -/

/-- A choice that both its branches hand on to the same rest. -/
theorem ite_bind {α β : Type} (p : Prop) [Decidable p] (x y : Except Code α) (k : α → Except Code β) :
    (if p then x >>= k else y >>= k) = (if p then x else y) >>= k := by split <;> rfl

/-- The parent of a new frame: slot operand d, where the instruction names one. -/
def IsParent (s : State) (f : WForm) (d : Word) (parent : Nat) : Prop :=
  f.d = 0 ∧ parent = 0 ∨ f.d ≠ 0 ∧ s.srefOk (s.partOf s.cur.1) d.toNat = true ∧ parent = d.toNat

theorem parent_ok {parent : Nat} (h : IsParent s f d parent) :
    (if f.d = 0 then pure 0 else s.slotOperand d : Except Code Nat) = .ok parent := by
  obtain ⟨hd, hp⟩ | ⟨hd, href, hp⟩ := h
  · rw [if_pos hd, hp]; rfl
  · rw [if_neg hd, slotOperand_ok href, hp]

/-- An allocation that names a core names one of the partition (R193). -/
def NamesCore (s : State) (f : WForm) (b : Word) : Prop :=
  f.fld 19 2 = 2 → b.toNat < 2 ^ 32 ∧ bits b.toNat 13 15 < 25600 ∧ s.coreIn (s.partOf s.cur.1) (frefCore b.toNat) = true

theorem target_ok (h : NamesCore s f b) :
    (if f.fld 19 2 = 2 then
      (if b.toNat < 2 ^ 32 ∧ bits b.toNat 13 15 < 25600 ∧ s.coreIn (s.partOf s.cur.1) (frefCore b.toNat) = true
        then Except.ok (frefCore b.toNat) else .error 0x12)
    else pure (if f.fld 19 2 = 1 then s.cur.1 else s.place (s.partOf s.cur.1) a.toNat b) : Except Code Nat) =
      .ok (Claims.target s (f.fld 19 2) a b) := by
  rw [Claims.target]
  by_cases hm : f.fld 19 2 = 2
  · rw [if_pos hm, if_pos hm, if_pos (h hm)]
  · rw [if_neg hm, if_neg hm]
    rfl

theorem falloc_ok {parent : Nat} (hread : Claims.readABCD s f = .ok (a, b, c, d, t)) (hslot : Claims.Slot t f.c c slot)
    (hparent : IsParent t f d parent) (hblock : a.toNat < t.blockCount (t.partOf t.cur.1)) (hcore : NamesCore t f b)
    (hreach : Claims.reaches t (dieOf (Claims.target t (f.fld 19 2) a b)) true) (hsplices : Claims.slotReaches t slot)
    (hroom : Claims.asyncRoom t) : State.falloc f s = .ok (Claims.sends t 0x2C 0 (fun v id => v.request (.alloc a.toNat parent)
        (.core (Claims.target t (f.fld 19 2) a b)) (mkFref (Claims.target t (f.fld 19 2) a b) 0)
        { ow := f.fld 14 5, slot := slot, bytes := 8 } id 0 0 0)) := by
  obtain ⟨s1, s2, s3, ha, hb, hc, hd⟩ := readABCD_split hread
  rw [State.falloc, ha, ok_bind]
  dsimp only
  rw [hb, ok_bind]
  dsimp only
  rw [hc, ok_bind]
  dsimp only
  rw [hd, ok_bind]
  dsimp only
  rw [compSlot_ok hslot, ok_bind, ite_bind, parent_ok hparent, ok_bind, State.myPart, decide_eq_true hblock, need_true, ok_bind, ite_bind,
    target_ok hcore, ok_bind, splicesTo_ok hreach, ok_bind, slotSplices_ok hsplices, ok_bind, asyncRoom_ok hroom]
  rfl

/-! ### Frees, armings and signals (R194 to R197) -/

theorem ffree_ok (hread : s.readS f.a = .ok (a, t)) (href : t.frefOpOk (t.partOf t.cur.1) a = true)
    (hreach : Claims.reaches t (bits a.toNat 28 4) false) : State.ffree f s = .ok (t.send (t.notice .free (frameDst a.toNat) a.toNat)) := by
  rw [State.ffree, hread, ok_bind]
  dsimp only
  rw [State.myPart, href, need_true, ok_bind, splicesTo_ok hreach]
  rfl

/-- A slot operand that is valid and can be reached. -/
def Named (s : State) (w : Word) : Prop := s.srefOk (s.partOf s.cur.1) w.toNat = true ∧ Claims.reaches s (bits w.toNat 28 4) false

theorem sarm_ok (hread : s.readAB f = .ok (a, b, t)) (hnamed : Named t a) (hcount : b.toNat < 2 ^ 27) : State.sarm f s =
    .ok (t.send (t.withRelease (t.notice (.arm a.toNat (mkSlot b.toNat (f.fld 15 3) (f.fld 14 1 == 1) true)) (frameDst (srefFref a.toNat))
      (srefFref a.toNat)) f.sem f.scope)) := by
  rw [State.sarm, hread, ok_bind]
  dsimp only
  rw [slotOperand_ok hnamed.1, ok_bind, splicesTo_ok hnamed.2, ok_bind, decide_eq_true hcount]
  rfl

theorem signalTo_ok (hnamed : Named t a) (sem scope val bytes : Nat) (fire : Bool) :
    t.signalTo a sem scope val bytes fire = .ok (Claims.signals t a.toNat val bytes fire sem scope) := by
  rw [State.signalTo, slotOperand_ok hnamed.1, ok_bind, splicesTo_ok hnamed.2]
  rfl

theorem sig_ok (imm : Nat) (hread : s.readS f.a = .ok (a, t)) (hnamed : Named t a) :
    State.sig f imm s = .ok (Claims.signals t a.toNat imm imm false f.sem f.scope) := by
  rw [State.sig, hread]
  exact signalTo_ok hnamed ..

theorem fireSlot_ok (hread : s.readS f.a = .ok (a, t)) (hnamed : Named t a) :
    State.fireSlot f s = .ok (Claims.signals t a.toNat 0 0 true f.sem f.scope) := by
  rw [State.fireSlot, hread]
  exact signalTo_ok hnamed ..

theorem sigv_ok (hread : s.readAB f = .ok (a, b, t)) (hnamed : Named t a) :
    State.sigv f s = .ok (Claims.signals t a.toNat b.toNat b.toNat false f.sem f.scope) := by
  rw [State.sigv, hread]
  exact signalTo_ok hnamed ..

theorem acquiredOnly_eq (n : Nat) : Claims.acquiredOnly n = if n = 0 then 1 else if n = 3 then 2 else n := by
  unfold Claims.acquiredOnly
  split
  case h_1 => rfl
  case h_2 => rfl
  case h_3 h0 h3 => rw [if_neg h0, if_neg h3]

/-- The packet of a sigb without its release (R196, R248). -/
def sigbPacket (t : State) (f : WForm) (a b d : Word) : Packet :=
  { t.notice (.signal a.toNat 1 d.toNat false 0) (frameDst (srefFref a.toNat)) (srefFref a.toNat) with
    sem := if d.toNat = 0 then Claims.acquiredOnly f.sem else f.sem, scope := f.scope, relLo := coreKey t.cur.1 b.toNat, relLen := d.toNat }

theorem sigb_ok {s1 : State} (hread : s.readAB f = .ok (a, b, s1)) (hd : s1.readS f.d = .ok (d, t)) (hnamed : Named t a)
    (hrange : d.toNat = 0 ∨ b.toNat + d.toNat ≤ 0x20000) : State.sigb f s = .ok (t.send { sigbPacket t f a b d with
      rel := decide (0 < d.toNat) && inScope t.cur.1 f.scope (scopeLoc (sigbPacket t f a b d)) && relPending t t.seq (sigbPacket t f a b d) }) := by
  rw [sigbPacket, acquiredOnly_eq, State.sigb, hread, ok_bind]
  dsimp only
  rw [hd, ok_bind]
  dsimp only
  rw [slotOperand_ok hnamed.1, ok_bind, splicesTo_ok hnamed.2, ok_bind, decide_eq_true (show d.toNat = 0 ∨ b.toNat + d.toNat ≤ 2 ^ 17 from hrange)]
  rfl

/-! ### Words of frames (R198, R199) -/

theorem sget_ok {u : State} (hread : s.readS f.a = .ok (a, t)) (href : t.srefOk (t.partOf t.cur.1) a.toNat = true)
    (hcore : frefCore a.toNat = t.cur.1) (hlocal : (t.localOf t.cur.1 (frefName a.toNat)).isSome = true)
    (hwrite : t.writeS f.d (t.readW (t.frameKey t.cur.1 (frefName a.toNat) + 16 + 8 * srefSlot a.toNat)) = .ok u) : State.sget f s = .ok u := by
  rw [State.sget, hread, ok_bind]
  dsimp only
  rw [slotOperand_ok href, ok_bind, hcore, hlocal, beq_self_eq_true, Bool.true_and, need_true, ok_bind]
  exact hwrite

theorem ldf_ok {s1 : State} (hread : s.readS f.a = .ok (a, s1)) (hc : s1.readS f.c = .ok (c, t))
    (href : t.frefOpOk (t.partOf t.cur.1) a = true) (hslot : Claims.Slot t f.c c slot) (hreach : Claims.reaches t (bits a.toNat 28 4) true)
    (hsplices : Claims.slotReaches t slot) (hroom : Claims.asyncRoom t) : State.ldf f s =
      .ok (Claims.sends t 0x2C 8 (fun v id => v.request (.ldf (f.fld 14 5)) (frameDst a.toNat) a.toNat
        { ow := f.fld 19 5, slot := slot, bytes := 8 } id f.ord (t.wordKey (frefCore a.toNat) (frefName a.toNat) (f.fld 14 5)) 8)) := by
  rw [State.ldf, hread, ok_bind]
  dsimp only
  rw [hc, ok_bind]
  dsimp only
  rw [State.myPart, href, need_true, ok_bind, compSlot_ok hslot, ok_bind, splicesTo_ok hreach, ok_bind, slotSplices_ok hsplices, ok_bind,
    asyncRoom_ok hroom]
  rfl

section Stf

variable (hread : s.readAB f = .ok (a, b, t)) (href : t.frefOpOk (t.partOf t.cur.1) a = true)
  (hreach : Claims.reaches t (bits a.toNat 28 4) false)
include hread href hreach

/-- A word of a local frame of the core is stored at once (R199). -/
theorem stf_local (hcore : frefCore a.toNat = t.cur.1) (hname : frefName a.toNat < 4096) : State.stf f s =
    .ok (t.storeN t.pipeWriter (t.localKey t.cur.1 (frefName a.toNat) + 8 * f.fld 14 5) 8 b.toNat) := by
  rw [State.stf, hread, ok_bind]
  dsimp only
  rw [State.myPart, href, need_true, ok_bind, splicesTo_ok hreach, ok_bind, if_pos ⟨hcore, hname⟩, State.stfAt, State.frameKey, if_pos hname, hcore]
  rfl

theorem stf_remote (h : frefCore a.toNat ≠ t.cur.1 ∨ 4096 ≤ frefName a.toNat) : State.stf f s =
    .ok (t.send (t.request (.stf (f.fld 14 5) b) (frameDst a.toNat) a.toNat { ow := 0, slot := none, bytes := 8 } 0 f.ord
      (t.wordKey (frefCore a.toNat) (frefName a.toNat) (f.fld 14 5)) 8)) := by
  rw [State.stf, hread, ok_bind]
  dsimp only
  rw [State.myPart, href, need_true, ok_bind, splicesTo_ok hreach, ok_bind, if_neg (by omega)]
  rfl

end Stf

/-- Settles O34: each instruction passes its checks and sends its request. -/
theorem frameInstructions : Obligations.FrameInstructions := by
  intro f s hguard u
  refine ⟨fun a b c d s1 slot parent hread => ?_, fun a s1 hread => ?_, fun a b s1 hread => ?_, fun a s1 hread => ?_, fun g a s1 hg hread => ?_,
    fun a b d s1 s2 hread hd => ?_, fun a s1 t hread => ?_, fun a c s1 s2 slot hread hc => ?_, fun a b s1 hread => ?_⟩
  · rw [show s.cur = s1.cur from (readABCD_cur hread).symm]
    exact fun hslot hparent hblock hcore hreach hsplices hroom =>
      issue_ok hguard (falloc_ok hread hslot hparent hblock hcore hreach hsplices hroom)
  · rw [show s.cur = s1.cur from (readS_cur hread).symm]
    exact fun href hreach => issue_ok hguard (ffree_ok hread href hreach)
  · exact fun hnamed => ⟨fun hcount => issue_ok hguard (sarm_ok hread hnamed hcount), issue_ok hguard (sigv_ok hread hnamed)⟩
  · exact fun hnamed => ⟨issue_ok hguard (sig_ok _ hread hnamed), issue_ok hguard (fireSlot_ok hread hnamed)⟩
  · exact fun hnamed => issue_ok hg (sig_ok (f := g.toW) _ hread hnamed)
  · rw [show s.cur = s2.cur from ((readS_cur hd).trans (readAB_cur hread)).symm]
    exact fun hnamed hrange => issue_ok hguard (sigb_ok hread hd hnamed hrange)
  · rw [show s.cur = s1.cur from (readS_cur hread).symm]
    exact fun href hcore hlocal hwrite => issue_ok hguard (sget_ok hread href hcore hlocal hwrite)
  · rw [show s.cur = s2.cur from ((readS_cur hc).trans (readS_cur hread)).symm]
    exact fun href hslot hreach hsplices hroom => issue_ok hguard (ldf_ok hread hc href hslot hreach hsplices hroom)
  · rw [show s.cur = s1.cur from (readAB_cur hread).symm]
    exact fun href hreach => ⟨fun hcore hname => issue_ok hguard (stf_local hread href hreach hcore hname),
      fun h => issue_ok hguard (stf_remote hread href hreach h)⟩

/-! ### Rings (R201 to R203) -/

/-- Every ring instruction has the body of its minor. -/
theorem ringBody_of_mem : ∀ x ∈ Claims.rings, ∀ f s, exec (x.2 f) s = issue 8 f.guard s (State.ring x.1 f) := by
  simp only [Claims.rings, List.forall_mem_cons, List.not_mem_nil, false_implies, implies_true, and_true]
  exact ⟨fun _ _ => rfl, fun _ _ => rfl, fun _ _ => rfl, fun _ _ => rfl, fun _ _ => rfl⟩

/-- The scratchpad that a ring's block lies in (R201). -/
def ringSize (clus : Bool) : Nat := if clus then 2 ^ 22 else 2 ^ 17

/-- The buffer that a rinit names is aligned and lies in the scratchpad (R202). -/
def BufferOk (f : WForm) (b d : Word) : Prop :=
  b.toNat % 8 = 0 ∧ 1 ≤ d.toNat ∧ d.toNat ≤ 65535 ∧ b.toNat + d.toNat * (8 * 2 ^ f.fld 20 4) ≤ ringSize (f.fld 19 1 == 1)

/-- The request of a ring instruction (R202). -/
def ringRequestOf (op : Nat) (f : WForm) (a b d : Word) (slot : Option Nat) (cid : Nat) (v : State) (id : Nat) : Packet :=
  let clus := f.fld 19 1 == 1
  let q := v.request (.ring op d.toNat (f.fld 20 4) b) (if clus then .cluster (clidOf cid) else .core cid) v.ctx.fref
    { ow := f.fld 14 5, slot := slot, bytes := 8 } id f.ord (if clus then clusterKey (clidOf cid) a.toNat else coreKey cid a.toNat) 64
  if op = 2 ∨ op = 4 then v.withRelease q 0 (if clus then 2 else 0) else q

theorem ring_ok {op : Nat} (hread : Claims.readABCD s f = .ok (a, b, c, d, t)) (hslot : Claims.Slot t f.c c slot)
    (hsplices : Claims.slotReaches t slot) (hroom : Claims.asyncRoom t) (halign : a.toNat % 64 = 0)
    (hbound : a.toNat + 64 ≤ ringSize (f.fld 19 1 == 1)) (hslots : ((f.fld 19 1 == 1) || !(t.hitsSlots t.cur.1 a.toNat 64)) = true)
    (hbuffer : op = 0 → BufferOk f b d) : State.ring op f s = .ok (Claims.sends t 0x2D op (ringRequestOf op f a b d slot t.cur.1)) := by
  obtain ⟨s1, s2, s3, ha, hb, hc, hd⟩ := readABCD_split hread
  rw [State.ring, ha, ok_bind]
  dsimp only
  rw [hb, ok_bind]
  dsimp only
  rw [hc, ok_bind]
  dsimp only
  rw [hd, ok_bind]
  dsimp only
  rw [compSlot_ok hslot, ok_bind, slotSplices_ok hsplices, ok_bind, asyncRoom_ok hroom, ok_bind, decide_eq_true halign, need_true, ok_bind,
    decide_eq_true (show a.toNat + 64 ≤ if (f.fld 19 1 == 1) = true then 2 ^ 22 else 2 ^ 17 from hbound), need_true, ok_bind, hslots, need_true,
    ok_bind]
  by_cases hop : op = 0
  · obtain ⟨hb8, hlo, hhi, hfits⟩ := hbuffer hop
    rw [if_pos hop, decide_eq_true hb8, need_true, ok_bind, decide_eq_true ⟨hlo, hhi⟩, need_true, ok_bind,
      decide_eq_true (show b.toNat + d.toNat * (8 * 2 ^ f.fld 20 4) ≤ if (f.fld 19 1 == 1) = true then 2 ^ 22 else 2 ^ 17 from hfits)]
    rfl
  · rw [if_neg hop]
    rfl

/-- Settles O35: every ring instruction has the one body. -/
theorem ringInstructions : Obligations.RingInstructions := by
  intro x hx f s s1 a b c d slot hguard hread hslot hsplices hroom clus size halign hbound hslots hbuffer
  have hcur : s1.cur = s.cur := (readABCD_cur hread).trans (State.countIssue_cur s 8)
  have hclus : clus ↔ (f.fld 19 1 == 1) = true := beq_iff_eq.symm
  rw [ringBody_of_mem x hx, ← hcur]
  rw [← hcur] at hslots
  have hsize : size = ringSize (f.fld 19 1 == 1) := if_congr hclus rfl rfl
  rw [hsize] at hbound hbuffer
  have hoff : ((f.fld 19 1 == 1) || !(s1.hitsSlots s1.cur.1 a.toNat 64)) = true := by
    by_cases h : clus
    · rw [hclus.mp h]; rfl
    · rw [hslots h]; simp
  refine (issue_ok hguard (ring_ok hread hslot hsplices hroom halign hbound hoff hbuffer)).trans ?_
  have hrequest : ∀ v id, ringRequestOf x.1 f a b d slot s1.cur.1 v id =
      let q := v.request (.ring x.1 d.toNat (f.fld 20 4) b) (if clus then .cluster (clidOf s1.cur.1) else .core s1.cur.1) v.ctx.fref
        { ow := f.fld 14 5, slot := slot, bytes := 8 } id f.ord
        (if clus then clusterKey (clidOf s1.cur.1) a.toNat else coreKey s1.cur.1 a.toNat) 64
      if x.1 = 2 ∨ x.1 = 4 then v.withRelease q 0 (if clus then 2 else 0) else q := by
    intro v id
    simp only [ringRequestOf, if_congr hclus rfl rfl]
  rw [Claims.sends, Claims.sends, hrequest]

end Sys2Proof.Proofs.FrameInstructions
end

section
/-! PROOFS. The instructions of the matrix node complete with their command (O33, R155 to R166). -/

namespace Sys2Proof.Proofs.MatrixIssue

open Sys2Proof.Machine Sys2Proof.Proofs.LoadStore Sys2Proof.Proofs.Requests Sys2Proof.Proofs.ScalarRegisters Sys2Proof.Proofs.VectorMemory
  Sys2Proof.Proofs.Vectors

/-! ### What a completion leaves (R218) -/

theorem core_congr {s t : State} (h : t.cores = s.cores) (cid : Nat) : t.core cid = s.core cid := by rw [State.core, h, State.core]

theorem cores_finishCmd (s : State) (id outcome progress : Nat) (ext : List Nat) : (s.finishCmd id outcome progress ext).cores = s.cores := by
  unfold State.finishCmd
  split
  · rfl
  · unfold State.dropCmd
    split <;> rfl

theorem cores_complete (s : State) (src : Loc) (i : Issuer) (r : Ret) (cmd progress : Nat) : (s.complete src i r cmd progress).cores = s.cores := by
  rw [State.complete, cores_finishCmd]
  split <;> rfl

theorem cur_finishCmd (s : State) (id outcome progress : Nat) (ext : List Nat) : (s.finishCmd id outcome progress ext).cur = s.cur := by
  unfold State.finishCmd
  split
  · rfl
  · unfold State.dropCmd
    split <;> rfl

theorem cur_complete (s : State) (src : Loc) (i : Issuer) (r : Ret) (cmd progress : Nat) : (s.complete src i r cmd progress).cur = s.cur := by
  rw [State.complete, cur_finishCmd]
  split <;> rfl

/-! ### The command queue (R154, R162) -/

variable {s t : State} {op : MOp}

/-- A command names at most one latch. -/
theorem namesLatch_unique {l m : Nat} (hl : namesLatch l op = true) (hm : namesLatch m op = true) : l = m := by
  cases op with
  | mma t addr n fa fb => exact (beq_iff_eq.mp hl).symm.trans (beq_iff_eq.mp hm)
  | mlb n addr => exact (beq_iff_eq.mp hl).symm.trans (beq_iff_eq.mp hm)
  | mrot n => exact (beq_iff_eq.mp hl).symm.trans (beq_iff_eq.mp hm)
  | mscl tgt addr => exact Nat.succ.inj ((beq_iff_eq.mp hl).symm.trans (beq_iff_eq.mp hm))
  | _ => exact absurd hl Bool.false_ne_true

theorem landingMove_none {cid l : Nat} (h : (s.core cid).landing.get none l = none) : s.landingMove cid l = s := by
  rw [State.landingMove, h]

/-- The two latches are settled in turn. -/
theorem settleLatches_eq (s : State) (op : MOp) : s.settleLatches op =
    if namesLatch 1 op then (if namesLatch 0 op then s.landingMove s.cur.1 0 else s).landingMove
      (if namesLatch 0 op then s.landingMove s.cur.1 0 else s).cur.1 1
    else if namesLatch 0 op then s.landingMove s.cur.1 0 else s := rfl

theorem settleLatches_noLanding (h : Claims.noLanding s op) : s.settleLatches op = s := by
  have h0 : (if namesLatch 0 op then s.landingMove s.cur.1 0 else s) = s := by
    split
    · exact landingMove_none (h 0 (by decide) ‹_›)
    · rfl
  rw [settleLatches_eq, h0]
  split
  · exact landingMove_none (h 1 (by decide) ‹_›)
  · rfl

/-- The latch that a command names is the only one that is settled for it. -/
theorem settleLatches_named {l : Nat} (hl : l < 2) (h : namesLatch l op = true) : s.settleLatches op = s.landingMove s.cur.1 l := by
  have hother : ∀ m, m ≠ l → namesLatch m op = false := fun m hm =>
    Bool.eq_false_iff.mpr fun hn => hm (namesLatch_unique hn h)
  rw [settleLatches_eq]
  obtain rfl | rfl : l = 0 ∨ l = 1 := by omega
  · rw [hother 1 (by decide), if_neg Bool.false_ne_true, if_pos h]
  · rw [hother 0 (by decide), if_neg Bool.false_ne_true, if_pos h]

/-- The core after a tile has moved into its latch (R162). -/
theorem core_landingMove {cid l : Nat} {x : Landing} (hland : (s.core cid).landing.get none l = some x)
    (hfree : ∀ m ∈ (s.core cid).mq, namesLatch l m.op = false) (hdead : (s.core cid).dead = false) (hsaved : (s.core cid).saved = false) :
    (s.landingMove cid l).cur = s.cur ∧ (s.landingMove cid l).core cid = { s.core cid with
      landing := (s.core cid).landing.set l none, latch := (s.core cid).latch.set l x.bytes
      bscale := (s.core cid).bscale.set l x.scales } := by
  have hany : (s.core cid).mq.any (fun m => namesLatch l m.op) = false := List.any_eq_false.mpr fun m hm => by simp [hfree m hm]
  rw [State.landingMove, hland]
  dsimp only
  rw [if_neg (by rw [hany, hdead, hsaved]; decide)]
  exact ⟨cur_complete .., (core_congr (cores_complete ..) cid).trans (State.core_modCore ..)⟩

/-! ### Checks (R155) -/

theorem mRange_ok {x : Word} {align n : Nat} (halign : x.toNat % align = 0) (hbound : x.toNat + n ≤ 0x20000) :
    State.mRange x align n = .ok () := by
  rw [State.mRange, decide_eq_true halign, need_true, ok_bind, decide_eq_true hbound, need_true]

theorem mqRoom_ok (h : Claims.queueRoom s) : s.mqRoom = .ok () := by
  rw [State.mqRoom, decide_eq_true (show (s.core s.cur.1).mq.length < 8 from h), need_true]

theorem mQuiet_ok (h : Claims.queueRoom s) : s.mQuiet op = .ok (Claims.quiet s op) := by
  rw [State.mQuiet, mqRoom_ok h]
  rfl

theorem mAsync_ok {minor bytes : Nat} {slot : Option Nat} (hq : Claims.queueRoom s) (hroom : Claims.asyncRoom s) :
    s.mAsync op minor slot bytes = .ok (Claims.queued s op minor slot bytes) := by
  rw [State.mAsync, mqRoom_ok hq, ok_bind, asyncRoom_ok hroom]
  rfl

/-! ### The bodies (R158 to R166) -/

section Bodies

variable {f : WForm} {a b c imm : Word} {s1 : State} {slot : Option Nat}

theorem msclOp_ok (hread : s.readS f.a = .ok (a, t)) (halign : (a + imm).toNat % 4 = 0) (hbound : (a + imm).toNat + 192 ≤ 0x20000)
    (hq : Claims.queueRoom t) : State.msclOp f imm s = .ok (Claims.quiet t (.mscl (f.c.toNat % 4) (a + imm).toNat)) := by
  rw [State.msclOp, hread, ok_bind]
  dsimp only
  rw [mRange_ok halign hbound, ok_bind, mQuiet_ok hq]

section Slotted

variable (hread : s.readS f.a = .ok (a, s1)) (hc : s1.readS f.c = .ok (c, t)) (hslot : Claims.Slot t f.c c slot) (hq : Claims.queueRoom t)
  (hroom : Claims.asyncRoom t)
include hread hc hslot hq hroom

theorem mlbOp_ok (halign : (a + imm).toNat % 8 = 0) (hbound : (a + imm).toNat + 3072 ≤ 0x20000) :
    State.mlbOp f imm s = .ok (Claims.queued t (.mlb f.d.toNat (a + imm).toNat) 2 slot 1) := by
  rw [State.mlbOp, hread, ok_bind]
  dsimp only
  rw [hc, ok_bind]
  dsimp only
  rw [compSlot_ok hslot, ok_bind, mRange_ok halign hbound, ok_bind, mAsync_ok hq hroom]

theorem mmaOp_ok (halign : (a + imm).toNat % 8 = 0) (hbound : (a + imm).toNat + 3072 ≤ 0x20000) :
    State.mmaOp f imm s = .ok (Claims.queued t (.mma f.d.toNat (a + imm).toNat f.b.toNat (t.tileDesc t.cur.1 f.d.toNat).1
      (t.tileDesc t.cur.1 f.d.toNat).2) 3 slot 1) := by
  rw [State.mmaOp, hread, ok_bind]
  dsimp only
  rw [hc, ok_bind]
  dsimp only
  rw [compSlot_ok hslot, ok_bind, mRange_ok halign hbound, ok_bind, mAsync_ok hq hroom]

end Slotted

theorem mrotOp_ok (hc : s.readS f.c = .ok (c, t)) (hslot : Claims.Slot t f.c c slot) (hnext : ∀ r, slot = some r → frefCore r = t.ringNext)
    (hq : Claims.queueRoom t) (hroom : Claims.asyncRoom t) : State.mrotOp f s = .ok (Claims.queued t (.mrot f.d.toNat) 4 slot 1) := by
  rw [State.mrotOp, hc, ok_bind]
  dsimp only
  rw [compSlot_ok hslot, ok_bind]
  cases slot with
  | none =>
    dsimp only
    rw [need_true, ok_bind, mAsync_ok hq hroom]
  | some r =>
    dsimp only
    rw [beq_iff_eq.mpr (hnext r rfl), need_true, ok_bind, mAsync_ok hq hroom]

/-- A format that a tile of a mode drains to (R164). -/
theorem drainFormat_ok {mode fmt : Nat} (h : mode = 2 → fmt = 7 ∨ fmt = 8) : (mode != 2 || fmt == 7 || fmt == 8) = true := by
  by_cases hm : mode = 2
  · obtain h | h := h hm <;> simp [h]
  · simp [hm]

/-- Where each row signals a slot of its own, each names a valid slot reference (R164). -/
def RowSlots (s : State) (f : WForm) (slot : Option Nat) : Prop :=
  f.fld 28 1 = 1 → ∀ r k, slot = some r → k < f.fld 24 4 + 1 → frefName r + k < 8192 ∧ s.srefOk (s.partOf s.cur.1) (r + k) = true

theorem rowSlots_ok {r : Nat} (h : RowSlots s f (some r)) : (!(f.fld 28 1 == 1) ||
    (List.range f.rows).all (fun k => decide (frefName r + k < 8192) && s.srefOk s.myPart (State.rowRef r k))) = true := by
  by_cases hrow : f.fld 28 1 = 1
  · rw [Bool.or_eq_true]
    refine .inr (List.all_eq_true.mpr fun k hk => ?_)
    obtain ⟨hname, href⟩ := h hrow r k rfl (List.mem_range.mp hk)
    rw [decide_eq_true hname, State.myPart, State.rowRef, href]
    rfl
  · simp [hrow]

theorem mdrainOp_ok (hread : s.readS f.a = .ok (a, s1)) (hc : s1.readS f.c = .ok (c, t)) (hslot : Claims.Slot t f.c c slot)
    (hrows : RowSlots t f slot) (halign : a.toNat % drainSize f.fmt = 0) (hbound : a.toNat + f.rows * 16 * drainSize f.fmt ≤ 0x20000)
    (hslots : t.hitsSlots t.cur.1 a.toNat (f.rows * 16 * drainSize f.fmt) = false) (hfmt : t.tileMode f.d.toNat = 2 → f.fmt = 7 ∨ f.fmt = 8)
    (hq : Claims.queueRoom t) (hroom : Claims.asyncRoom t) : State.mdrainOp f s =
      .ok (Claims.queued t (.mdrain f.d.toNat a.toNat f.fmt (f.fld 18 2) (f.fld 20 4) f.rows (f.fld 28 1 == 1) (f.fld 29 1 == 1)
        (t.tileMode f.d.toNat)) 6 slot (16 * drainSize f.fmt * (if (f.fld 28 1 == 1) = true then 1 else f.rows))) := by
  rw [State.mdrainOp, hread, ok_bind]
  dsimp only
  rw [hc, ok_bind]
  dsimp only
  rw [compSlot_ok hslot, ok_bind, mRange_ok halign hbound, ok_bind, hslots, Bool.not_false, need_true, ok_bind, drainFormat_ok hfmt, need_true,
    ok_bind, mAsync_ok hq hroom]
  cases slot with
  | none =>
    dsimp only
    rw [need_true]
    rfl
  | some r =>
    dsimp only
    rw [rowSlots_ok hrows, need_true]
    rfl

section Mfmt

/-- The descriptor of a tile written (R158). -/
def putDesc (s : State) (f : WForm) : State := s.modCur (fun c => { c with desc := c.desc.set f.d.toNat (f.fmt + 16 * f.fld 18 4) })

theorem mfmtOp_unlisted (h : matMode f.fmt (f.fld 18 4) = none) : State.mfmtOp f s = .error 0x28 := by rw [State.mfmtOp, h]

variable {m : Nat} (h : matMode f.fmt (f.fld 18 4) = some m)
include h

theorem mfmtOp_same (hold : matMode (s.tileDesc s.cur.1 f.d.toNat).1 (s.tileDesc s.cur.1 f.d.toNat).2 = some m) :
    State.mfmtOp f s = .ok (putDesc s f) := by
  rw [State.mfmtOp, h]
  exact if_pos hold

theorem mfmtOp_changed (hold : matMode (s.tileDesc s.cur.1 f.d.toNat).1 (s.tileDesc s.cur.1 f.d.toNat).2 ≠ some m)
    (hq : Claims.queueRoom (putDesc s f)) : State.mfmtOp f s = .ok (Claims.quiet (putDesc s f) (.mclear f.d.toNat m)) := by
  rw [State.mfmtOp, h]
  exact (if_neg hold).trans (mQuiet_ok hq)

end Mfmt

section Mrow

variable (hgrant : s.ctx.grant ≠ 0) (hread : s.readS f.b = .ok (b, t)) (hfmt : t.tileMode f.a.toNat = 2 → f.fmt = 7 ∨ f.fmt = 8)
include hgrant hread hfmt

/-- A row is not read while a queued command names its tile (R166). -/
theorem mrowOp_busy (h : ∃ m ∈ (t.core t.cur.1).mq, namesTile f.a.toNat m.op = true) :
    State.mrowOp f s = .ok (t.writeP f.c.toNat false) := by
  rw [State.mrowOp, needGrant_ok hgrant, ok_bind, hread, ok_bind]
  dsimp only
  rw [drainFormat_ok hfmt, need_true, ok_bind, if_pos (List.any_eq_true.mpr h)]
  rfl

theorem mrowOp_read (h : ∀ m ∈ (t.core t.cur.1).mq, namesTile f.a.toNat m.op = false) : State.mrowOp f s =
    .ok ((t.setLanes f.d (fun j => if j < 16 ∧ j < t.ctx.grant then some { val := BitVec.ofNat 32 (drainWord (t.tileMode f.a.toNat) f.fmt
      (f.fld 18 2) (State.entry (t.core t.cur.1) f.a.toNat (b.toNat % 16) j)), tag := false } else none)).writeP f.c.toNat true) := by
  rw [State.mrowOp, needGrant_ok hgrant, ok_bind, hread, ok_bind]
  dsimp only
  rw [drainFormat_ok hfmt, need_true, ok_bind, if_neg]
  · rfl
  · rw [List.any_eq_true]
    rintro ⟨m, hm, hn⟩
    exact Bool.false_ne_true ((h m hm).symm.trans hn)

end Mrow

end Bodies

/-! ### The statement -/

/-- The loads of the matrix node in a form whose three bodies are these. -/
theorem matrixLoads {f : WForm} {imm : Word} {mscl mlb mma : Instr} {s0 : State}
    (hmscl : ∀ t, State.msclOp f imm s = .ok t → exec mscl s0 = .next t) (hmlb : ∀ t, State.mlbOp f imm s = .ok t → exec mlb s0 = .next t)
    (hmma : ∀ t, State.mmaOp f imm s = .ok t → exec mma s0 = .next t) : Claims.MatrixLoads s f imm mscl mlb mma s0 := by
  refine ⟨fun a s1 hread halign hbound hq => hmscl _ (msclOp_ok hread halign hbound hq),
    fun a c s1 s2 slot hread hc hslot halign hbound hq hroom => ⟨hmlb _ (mlbOp_ok hread hc hslot hq hroom halign hbound), hmma _ ?_⟩⟩
  rw [show s.cur = s2.cur from ((readS_cur hc).trans (readS_cur hread)).symm]
  exact mmaOp_ok hread hc hslot hq hroom halign hbound

/-- The core of a command that has entered the queue. -/
theorem core_quiet (s : State) (op : MOp) : (Claims.quiet s op).core (s.settleLatches op).cur.1 =
    { (s.settleLatches op).core (s.settleLatches op).cur.1 with mq := ((s.settleLatches op).core (s.settleLatches op).cur.1).mq ++
      [{ op := op, seq := (s.settleLatches op).seq, cmd := 0, from_ := (s.settleLatches op).issuer
         ret := { ow := 0, slot := none, bytes := 1 }, fences := (s.settleLatches op).ctx.fences, started := false, rows := 0
         landed := false, src := [], pois := [] }] } := State.core_modCore ..

/-- Settles O33: the queue, the latches and the bodies. -/
theorem matrixIssue : Obligations.MatrixIssue := by
  refine ⟨fun s op hland => ?_, fun s op l x hl hname hland hfree hdead hsaved => ?_, fun f s hguard => ?_, fun f s hguard => ?_, fun f s hguard => ?_⟩
  · intro t
    have hsettle := settleLatches_noLanding hland
    have hcore := core_quiet s op
    rw [hsettle] at hcore
    have ht : t = ({ s with seq := s.seq + 1 } : State).modCur (fun c => { c with mq := c.mq ++
        [{ op := op, seq := s.seq, cmd := 0, from_ := s.issuer, ret := { ow := 0, slot := none, bytes := 1 }, fences := s.ctx.fences
           started := false, rows := 0, landed := false, src := [], pois := [] }] }) := by
      show s.mEnqueue op 0 _ = _
      rw [State.mEnqueue, hsettle]
    refine ⟨?_, ?_, ?_, ?_, ?_, ?_⟩
    · rw [hcore]
    · rw [ht]; exact ctx_modCur _ _ (fun _ => rfl) (fun _ => rfl)
    all_goals rw [ht]; rfl
  · intro c
    have hcore := core_quiet s op
    rw [settleLatches_named hl hname] at hcore
    obtain ⟨hcur, hmoved⟩ := core_landingMove hland hfree hdead hsaved
    rw [hcur, hmoved] at hcore
    rw [show c = _ from hcore]
    exact ⟨Tbl.get_set_same .., Tbl.get_set_same .., Tbl.get_set_same ..⟩
  · exact matrixLoads (fun t h => issue_ok hguard h) (fun t h => issue_ok hguard h) (fun t h => issue_ok hguard h)
  · exact matrixLoads (fun t h => issue_ok hguard h) (fun t h => issue_ok hguard h) (fun t h => issue_ok hguard h)
  · intro u old put
    refine ⟨fun hm => issue_error hguard (mfmtOp_unlisted hm), fun m hm hold => issue_ok hguard (mfmtOp_same hm hold),
      fun m hm hold hq => issue_ok hguard (mfmtOp_changed hm hold ?_), fun hq => issue_ok hguard (mQuiet_ok hq),
      fun c s1 slot hread hslot hnext hq hroom => issue_ok hguard (mrotOp_ok hread hslot hnext hq hroom),
      fun a c s1 s2 slot hread hc hslot => ?_, fun b s1 hgrant hread hfmt => ?_⟩
    · show ((u.modCur _).core u.cur.1).mq.length < 8
      rw [State.core_modCur]
      exact hq
    · intro n sz hrows halign hbound hslots hfmt hq hroom
      have hcur : s2.cur = s.cur := ((readS_cur hc).trans (readS_cur hread)).trans (State.countIssue_cur s 8)
      rw [← hcur] at hrows hslots
      refine (issue_ok hguard (mdrainOp_ok hread hc hslot hrows halign hbound hslots hfmt hq hroom)).trans ?_
      simp only [beq_iff_eq]
      rfl
    · have hg : u.ctx.grant ≠ 0 := by rwa [grant_countIssue]
      have hg1 : s.ctx.grant = s1.ctx.grant := by rw [readS_ctx hread, grant_countIssue]
      rw [show s.cur = s1.cur from (readS_cur hread).symm, hg1]
      exact ⟨fun h => issue_ok hguard (mrowOp_busy hg hread hfmt h), fun h => issue_ok hguard (mrowOp_read hg hread hfmt h)⟩

end Sys2Proof.Proofs.MatrixIssue
end

section
/-! PROOFS. Remote accesses, atomics and fence complete with their request (O39, R217, R223 to R229). -/

namespace Sys2Proof.Proofs.RemoteAccess

open Sys2Proof.Machine Sys2Proof.Proofs.Float Sys2Proof.Proofs.LoadStore Sys2Proof.Proofs.Requests

variable {f : WForm} {s s1 t : State} {a b c d : Word} {slot : Option Nat} {dst : Loc} {key off z : Nat}

/-! ### Checks (R173, R217) -/

theorem remoteCheck_ok (h : Claims.remote s a z dst key off) : s.remoteCheck a z = .ok (dst, key, off) := by
  obtain ⟨hplace, hreach, hroom, -⟩ := h
  rw [State.remoteCheck, State.myPart, hplace]
  dsimp only
  rw [ok_bind, splicesTo_ok hreach, ok_bind, asyncRoom_ok hroom]
  rfl

theorem slotsGuard_ok (h : Claims.clearOf s dst off z) : s.slotsGuard dst off z = true := by
  cases dst with
  | core c => rw [State.slotsGuard, h c rfl]; rfl
  | _ => rfl

/-- The bytes of a width field (R221). -/
theorem widthBytes_fld (n : Nat) : widthBytes n = 8 / 2 ^ n := Nat.shiftRight_eq_div_pow 8 n

/-! ### The bodies (R223 to R227) -/

theorem ldrm_ok (hread : s.readS f.a = .ok (a, s1)) (hc : s1.readS f.c = .ok (c, t)) (hslot : Claims.Slot t f.c c slot)
    (hremote : Claims.remote t a (widthBytes (f.fld 19 2)) dst key off) : State.ldrm f s =
      .ok (Claims.sends t 0x31 0 (fun v id => v.request (.ldrm (widthBytes (f.fld 19 2)) (f.fld 21 1 == 1)) dst v.ctx.fref
        { ow := f.fld 14 5, slot := slot, bytes := 8 } id f.ord key (widthBytes (f.fld 19 2)))) := by
  rw [State.ldrm, hread, ok_bind]
  dsimp only
  rw [hc, ok_bind]
  dsimp only
  rw [compSlot_ok hslot, ok_bind, remoteCheck_ok hremote, ok_bind]
  dsimp only
  rw [decide_eq_true hremote.2.2.2, need_true]
  rfl

theorem strm_ok (hread : s.readAB f = .ok (a, b, s1)) (hc : s1.readS f.c = .ok (c, t)) (hslot : Claims.Slot t f.c c slot)
    (hremote : Claims.remote t a (widthBytes (f.fld 19 2)) dst key off) (hclear : Claims.clearOf t dst off (widthBytes (f.fld 19 2))) :
    State.strm f s = .ok (Claims.sends t 0x31 1 (fun v id => v.withRelease (v.request (.strm (widthBytes (f.fld 19 2)) b) dst v.ctx.fref
      { ow := 0, slot := slot, bytes := widthBytes (f.fld 19 2) } id f.ord key (widthBytes (f.fld 19 2))) (f.fld 22 2) (f.fld 24 3))) := by
  rw [State.strm, hread, ok_bind]
  dsimp only
  rw [hc, ok_bind]
  dsimp only
  rw [compSlot_ok hslot, ok_bind, remoteCheck_ok hremote, ok_bind]
  dsimp only
  rw [decide_eq_true hremote.2.2.2, need_true, ok_bind, slotsGuard_ok hclear, need_true]
  rfl

/-- The bytes of an atomic's word (R225). -/
def atomicBytes (op : Nat) (f : WForm) : Nat := if op = 11 then 32 else if f.fld 19 2 = 0 then 8 else 4

theorem atomicIssue_ok {op : Nat} {w : BitVec 256} (hslot : Claims.Slot t f.c c slot)
    (hremote : Claims.remote t a (atomicBytes op f) dst key off) (hclear : Claims.clearOf t dst off (atomicBytes op f)) :
    State.atomicIssue op f a d c w t = .ok (Claims.sends t 0x32 op (fun v id => v.withRelease { v.request
      (.atomic op (atomicBytes op f) w d []) (v.atomicDst op dst key) v.ctx.fref { ow := f.fld 14 5, slot := slot, bytes := atomicBytes op f }
      id f.ord key (atomicBytes op f) with bulk := op == 11 } (f.fld 21 2) (f.fld 23 3))) := by
  obtain ⟨hplace, hreach, hroom, halign⟩ := hremote
  rw [State.atomicIssue, compSlot_ok hslot, ok_bind, ← atomicBytes]
  dsimp only
  rw [remoteCheck_ok ⟨hplace, hreach, hroom, halign⟩, ok_bind]
  dsimp only
  rw [decide_eq_true halign, need_true, ok_bind, slotsGuard_ok hclear, need_true]
  rfl

/-- Every atomic on a word has the one body (R225). -/
theorem atomicBody_of_mem : ∀ x ∈ Claims.atomics, x.1 < 11 ∧ ∀ f s, exec (x.2 f) s = issue 8 f.guard s (State.atomic x.1 f) := by
  simp only [Claims.atomics, List.forall_mem_cons, List.not_mem_nil, false_implies, implies_true, and_true]
  refine ⟨?_, ?_, ?_, ?_, ?_, ?_, ?_, ?_, ?_, ?_, ?_⟩ <;> exact ⟨by decide, fun _ _ => rfl⟩

theorem atomic_eq {op : Nat} (hread : Claims.readABCD s f = .ok (a, b, c, d, t)) :
    State.atomic op f s = State.atomicIssue op f a d c (b.setWidth 256) t := by
  obtain ⟨⟨a', b', s2⟩, hab, h⟩ := bind_ok hread
  obtain ⟨⟨c', s3⟩, hc, h⟩ := bind_ok h
  obtain ⟨⟨d', s4⟩, hd, h⟩ := bind_ok h
  cases h
  rw [State.atomic, hab, ok_bind]
  dsimp only
  rw [hc, ok_bind]
  dsimp only
  rw [hd, ok_bind]

theorem aspadd_eq (hread : s.readS f.a = .ok (a, s1)) (hc : s1.readS f.c = .ok (c, t)) :
    State.aspadd f s = State.atomicIssue 11 f a 0 c (bitsOfSpool (t.readY f.b.toNat)) t := by
  rw [State.aspadd, hread, ok_bind]
  dsimp only
  rw [hc, ok_bind]

/-! ### What an atomic makes of its word (R226) -/

theorem sgN_eq (n v : Nat) : sgN (n + 1) v = Claims.signed (n + 1) v := by
  have hhalf : v < 2 ^ n ↔ 2 * v < 2 ^ (n + 1) := by rw [Nat.pow_succ]; omega
  rw [sgN, Claims.signed, Nat.add_sub_cancel]
  simp only [hhalf]

/-- The bits of an atomic's word. -/
theorem sgN_word {z : Nat} (hz : z = 4 ∨ z = 8) (v : Nat) : sgN (8 * z) v = Claims.signed (8 * z) v := by
  obtain rfl | rfl := hz
  · exact sgN_eq 31 v
  · exact sgN_eq 63 v

theorem atomicNew_of_mem : ∀ x ∈ Claims.atomicTable, ∀ (z m b d : Nat), z = 4 ∨ z = 8 → m < 2 ^ (8 * z) →
    atomicNew x.1 z m b d = x.2 z m (b % 2 ^ (8 * z)) d := by
  simp only [Claims.atomicTable, List.forall_mem_cons, List.not_mem_nil, false_implies, implies_true, and_true]
  refine ⟨fun z m b d _ _ => rfl, fun z m b d hz _ => ?_, fun z m b d hz _ => ?_, fun z m b d hz _ => ?_, fun z m b d hz _ => ?_,
    fun z m b d _ _ => rfl, fun z m b d _ _ => rfl, fun z m b d _ _ => rfl, fun z m b d _ _ => rfl, fun z m b d _ _ => rfl,
    fun z m b d _ _ => rfl⟩
  · simp only [atomicNew, sgN_word hz]
  · simp only [atomicNew, sgN_word hz]
  · show min m _ = _
    split <;> omega
  · show max m _ = _
    split <;> omega

/-- Settles O39: each access passes its checks and sends its request. -/
theorem remoteAccess : Obligations.RemoteAccess := by
  refine ⟨fun f s s1 s2 a c slot dst key off hguard => ?_, fun f s s1 a b c slot dst key off hguard => ?_,
    fun x hx f s s1 a b c d slot dst key off hguard => ?_, fun f s s1 s2 a c slot dst key off hguard hread hc hslot hremote hclear => ?_,
    fun f s hguard => issue_ok (body := State.fence f) hguard rfl, atomicNew_of_mem⟩
  · rw [← widthBytes_fld]
    intro z hread hc hslot hremote
    exact issue_ok hguard (ldrm_ok hread hc hslot hremote)
  · rw [← widthBytes_fld]
    intro z hread hslot hremote hclear
    obtain ⟨s2, hab, hc⟩ := readABC_split hread
    exact issue_ok hguard (strm_ok hab hc hslot hremote hclear)
  · intro z hread hslot hremote hclear
    obtain ⟨hlt, hexec⟩ := atomicBody_of_mem x hx
    have hz : atomicBytes x.1 f = z := if_neg (by omega)
    have hbulk : (x.1 == 11) = false := beq_eq_false_iff_ne.mpr (by omega)
    rw [← hz] at hremote hclear ⊢
    rw [hexec]
    refine (issue_ok hguard ((atomic_eq hread).trans (atomicIssue_ok hslot hremote hclear))).trans ?_
    rw [hbulk]
    rfl
  · exact issue_ok hguard ((aspadd_eq hread hc).trans (atomicIssue_ok (op := 11) hslot hremote hclear))

end Sys2Proof.Proofs.RemoteAccess
end

section
/-! PROOFS. Paced steps, solver, launch and system instructions complete (O41 to O44, R262 to R265, R276, R277, R292 to R299, R371 to R374). -/

namespace Sys2Proof.Proofs.SystemInstructions

open Sys2Proof.Machine Sys2Proof.Proofs.Float Sys2Proof.Proofs.LoadStore Sys2Proof.Proofs.Requests Sys2Proof.Proofs.Control
  Sys2Proof.Proofs.RemoteAccess

variable {f : WForm} {s s1 t : State} {a b c : Word} {slot : Option Nat}

theorem readABC_cur {f : WForm} {s t : State} {a b c : Word} (h : Claims.readABC s f = .ok (a, b, c, t)) : t.cur = s.cur := by
  obtain ⟨s1, hab, hc⟩ := readABC_split h
  exact (readS_cur hc).trans (readAB_cur hab)

/-! ### Paced steps (R254, R262 to R265) -/

/-- The graph of a firing is paced (R254). -/
theorem pacing_ok {g : Graph} {x : Pace} (hg : s.graphOf s.ctx.inst = some g) (hx : g.pace = some x) : s.pacing = .ok x := by
  rw [State.pacing, hg]
  dsimp only
  rw [hx]

theorem pacing_error (h : ∀ g, s.graphOf s.ctx.inst = some g → g.pace = none) : s.pacing = .error 0x01 := by
  rw [State.pacing]
  cases hg : s.graphOf s.ctx.inst with
  | none => rfl
  | some g =>
    dsimp only
    rw [h g hg]

section Paced

variable {x : Pace} (hpace : s.pacing = .ok x)
include hpace

theorem stepdOp_done (h : (s.core s.cur.1).done = true) : State.stepdOp s = .ok s := by
  rw [State.stepdOp, hpace, ok_bind, if_pos h]
  rfl

theorem stepdOp_waits (h : (s.core s.cur.1).done = false) : State.stepdOp s =
    .ok ({ s with seq := s.seq + 1 }.modCur (fun c => { c with stepds := c.stepds ++ [(s.ctx.fid, s.seq)] })) := by
  rw [State.stepdOp, hpace, ok_bind, if_neg (by rw [h]; exact Bool.false_ne_true)]
  rfl

theorem ldstOp_ok {owner key off : Nat} (hread : Claims.readABC s f = .ok (a, b, c, t)) (hslot : Claims.Slot t f.c c slot)
    (hplace : t.placeOf (t.partOf t.cur.1) a.toNat 1 = some (.core owner, key, off)) (hreach : Claims.reaches t (dieOf owner) true)
    (hroom : Claims.asyncRoom t) (halign : off % widthBytes (f.fld 19 2) = 0)
    (hbound : off + (x.depth - 1) * (8 * 2 ^ f.fld 22 4) + widthBytes (f.fld 19 2) ≤ 0x20000) : State.ldstOp f s =
      .ok (Claims.sends t 0x38 1 (fun v id => v.request
        (.ldst (widthBytes (f.fld 19 2)) (f.fld 21 1 == 1) b.toNat (f.fld 22 4) off) (.core owner) v.ctx.fref
        { ow := f.fld 14 5, slot := slot, bytes := 8 } id f.ord (coreKey owner (off + b.toNat % x.depth * (8 * 2 ^ f.fld 22 4)))
        (widthBytes (f.fld 19 2)))) := by
  obtain ⟨s1, hab, hc⟩ := readABC_split hread
  rw [State.ldstOp, hpace, ok_bind, hab, ok_bind]
  dsimp only
  rw [hc, ok_bind]
  dsimp only
  rw [compSlot_ok hslot, ok_bind, State.myPart, hplace]
  dsimp only
  rw [ok_bind]
  dsimp only
  rw [splicesTo_ok hreach, ok_bind, asyncRoom_ok hroom, ok_bind, decide_eq_true halign, need_true, ok_bind, decide_eq_true hbound]
  rfl

theorem stepqOp_ok (hread : Claims.readABC s f = .ok (a, b, c, t)) (hslot : Claims.Slot t f.c c slot) (hlt : a.toNat < 2 ^ 32)
    (hidx : bits a.toNat 13 15 < 25600) (hin : t.coreIn (t.partOf t.cur.1) (frefCore a.toNat) = true)
    (hreach : Claims.reaches t (dieOf (frefCore a.toNat)) true) (hroom : Claims.asyncRoom t) : State.stepqOp f s =
      .ok (Claims.sends t 0x38 2 (fun v id => { v.notice (.stepq b.toNat) (.core (frefCore a.toNat)) v.ctx.fref with
        ret := { ow := f.fld 14 5, slot := slot, bytes := 8 }, cmd := id })) := by
  obtain ⟨s1, hab, hc⟩ := readABC_split hread
  rw [State.stepqOp, hpace, ok_bind, hab, ok_bind]
  dsimp only
  rw [hc, ok_bind]
  dsimp only
  rw [compSlot_ok hslot, ok_bind, State.myPart, decide_eq_true (And.intro hlt hidx), hin, Bool.true_and, need_true, ok_bind, splicesTo_ok hreach, ok_bind,
    asyncRoom_ok hroom]
  rfl

end Paced

theorem inst_countIssue (s : State) (len : Nat) : (s.countIssue len).ctx.inst = s.ctx.inst := by rw [State.ctx_countIssue]
theorem fid_countIssue (s : State) (len : Nat) : (s.countIssue len).ctx.fid = s.ctx.fid := by rw [State.ctx_countIssue]

/-- Settles O41: the pacing is looked at before all else. -/
theorem pacedSteps : Obligations.PacedSteps := by
  intro f s hguard u
  have hinst : s.ctx.inst = u.ctx.inst := (inst_countIssue s 8).symm
  rw [hinst, show s.cur = u.cur from rfl]
  refine ⟨fun g x hg hx => ?_, fun h => ?_⟩
  · have hpace := pacing_ok hg hx
    refine ⟨fun hdone => issue_ok (body := fun s => State.stepdOp s) hguard (stepdOp_done hpace hdone), fun hdone => ?_,
      fun a b c s1 slot owner key off hread => ?_, fun a b c s1 slot hread => ?_⟩
    · rw [← fid_countIssue s 8]
      exact issue_ok (body := fun s => State.stepdOp s) hguard (stepdOp_waits hpace hdone)
    · rw [show u.cur = s1.cur from (readABC_cur hread).symm, ← widthBytes_fld]
      exact fun hslot hplace hreach hroom halign hbound =>
        issue_ok hguard (ldstOp_ok hpace hread hslot hplace hreach hroom halign hbound)
    · rw [show u.cur = s1.cur from (readABC_cur hread).symm]
      exact fun hslot hlt hidx hin hreach hroom => issue_ok hguard (stepqOp_ok hpace hread hslot hlt hidx hin hreach hroom)
  · have hpace := pacing_error h
    simp only [List.forall_mem_cons, List.not_mem_nil, false_implies, implies_true, and_true]
    refine ⟨issue_error (body := fun s => State.stepdOp s) hguard ?_, issue_error (body := State.ldstOp f) hguard ?_,
      issue_error (body := State.stepqOp f) hguard ?_⟩
    · rw [State.stepdOp, hpace]; rfl
    · rw [State.ldstOp, hpace]; rfl
    · rw [State.stepqOp, hpace]; rfl

/-! ### The solver (R276, R277, R282) -/

theorem imageAddr_ok {n : Nat} (halign : a.toNat % 64 = 0) (hbound : a.toNat + n ≤ 0x20000) : State.imageAddr a n = .ok () := by
  rw [State.imageAddr, decide_eq_true halign, need_true, ok_bind, decide_eq_true hbound, need_true]

theorem sampleOp_ok (h : b.toNat < 32) : State.sampleOp b = .ok b.toNat := by
  rw [State.sampleOp, if_pos h]

theorem sampleOp_error (h : 32 ≤ b.toNat) : State.sampleOp b = .error 0x31 := by
  rw [State.sampleOp, if_neg (Nat.not_lt.mpr h)]

section Solver

/-- A request to the sequencer of the issuing core's cluster (R276). -/
def toSequencer (s : State) (minor : Nat) (body : Body) (r : Ret) : State := Claims.sends s 0x39 minor (fun v id =>
  { v.notice body (.seqr (clidOf s.cur.1)) v.ctx.fref with ret := r, cmd := id })

theorem sqtabOp_ok (hread : s.readS f.a = .ok (a, s1)) (hc : s1.readS f.c = .ok (c, t)) (hslot : Claims.Slot t f.c c slot)
    (hroom : Claims.asyncRoom t) (halign : a.toNat % 64 = 0) (hbound : a.toNat + 384 ≤ 0x20000) : State.sqtabOp f s =
      .ok (toSequencer t 0 (.sqtab a.toNat) { ow := 0, slot := slot, bytes := 1 }) := by
  rw [State.sqtabOp, hread, ok_bind]
  dsimp only
  rw [hc, ok_bind]
  dsimp only
  rw [compSlot_ok hslot, ok_bind, asyncRoom_ok hroom, ok_bind, imageAddr_ok halign hbound]
  rfl

section Sample

variable (hread : Claims.readABC s f = .ok (a, b, c, t)) (hslot : Claims.Slot t f.c c slot) (hroom : Claims.asyncRoom t)
include hread hslot hroom

theorem sqinitOp_eq : State.sqinitOp f s = (do
    let r ← State.sampleOp b
    State.imageAddr a 128
    pure (toSequencer t 1 (.sqinit a.toNat r) { ow := 0, slot := slot, bytes := 1 })) := by
  obtain ⟨s1, hab, hc⟩ := readABC_split hread
  rw [State.sqinitOp, hab, ok_bind]
  dsimp only
  rw [hc, ok_bind]
  dsimp only
  rw [compSlot_ok hslot, ok_bind, asyncRoom_ok hroom]
  rfl

theorem sqinitOp_ok (hb : b.toNat < 32) (halign : a.toNat % 64 = 0) (hbound : a.toNat + 128 ≤ 0x20000) : State.sqinitOp f s =
    .ok (toSequencer t 1 (.sqinit a.toNat b.toNat) { ow := 0, slot := slot, bytes := 1 }) := by
  rw [sqinitOp_eq hread hslot hroom, sampleOp_ok hb, ok_bind, imageAddr_ok halign hbound]
  rfl

theorem sqinitOp_error (hb : 32 ≤ b.toNat) : State.sqinitOp f s = .error 0x31 := by
  rw [sqinitOp_eq hread hslot hroom, sampleOp_error hb]
  rfl

end Sample

section Field

variable (hread : s.readS f.b = .ok (b, s1)) (hc : s1.readS f.c = .ok (c, t)) (hslot : Claims.Slot t f.c c slot) (hroom : Claims.asyncRoom t)
include hread hc hslot hroom

theorem sqrdOp_eq : State.sqrdOp f s = (do
    let r ← State.sampleOp b
    pure (toSequencer t 4 (.sqrd r (f.fld 19 4)) { ow := f.fld 14 5, slot := slot, bytes := 8 })) := by
  rw [State.sqrdOp, hread, ok_bind]
  dsimp only
  rw [hc, ok_bind]
  dsimp only
  rw [compSlot_ok hslot, ok_bind, asyncRoom_ok hroom]
  rfl

theorem sqrdOp_ok (hb : b.toNat < 32) : State.sqrdOp f s =
    .ok (toSequencer t 4 (.sqrd b.toNat (f.fld 19 4)) { ow := f.fld 14 5, slot := slot, bytes := 8 }) := by
  rw [sqrdOp_eq hread hc hslot hroom, sampleOp_ok hb]
  rfl

theorem sqrdOp_error (hb : 32 ≤ b.toNat) : State.sqrdOp f s = .error 0x31 := by
  rw [sqrdOp_eq hread hc hslot hroom, sampleOp_error hb]
  rfl

end Field

theorem sqgoOp_ok (stage : Bool) (hread : s.readS f.b = .ok (b, t)) (hb : b.toNat < 32) : State.sqgoOp stage f s =
    .ok (t.send (t.withRelease (t.notice (if stage then .sqstage b.toNat (f.fld 14 3 + 1) else .sqstep b.toNat) (.seqr (clidOf t.cur.1))
      t.ctx.fref) 3 2)) := by
  rw [State.sqgoOp, hread, ok_bind]
  dsimp only
  rw [sampleOp_ok hb]
  rfl

theorem sqgoOp_error (stage : Bool) (hread : s.readS f.b = .ok (b, t)) (hb : 32 ≤ b.toNat) : State.sqgoOp stage f s = .error 0x31 := by
  rw [State.sqgoOp, hread, ok_bind]
  dsimp only
  rw [sampleOp_error hb]
  rfl

end Solver

/-- Settles O42: each instruction's checks in their order. -/
theorem solverInstructions : Obligations.SolverInstructions := by
  intro f s hguard u go
  have hgo : ∀ {s1 : State}, s1.cur = u.cur → ∀ minor body r, go s1 minor body r = toSequencer s1 minor body r := by
    intro s1 h minor body r
    rw [toSequencer, h]
    rfl
  refine ⟨fun a c s1 s2 slot hread hc hslot hroom halign hbound => ?_, fun a b c s1 slot hread hslot hroom hb halign hbound => ?_,
    fun b c s1 s2 slot hread hc hslot hroom hb => ?_, fun b s1 hread hb => ?_,
    fun a b c s1 slot hread hslot hroom hb => issue_error hguard (sqinitOp_error hread hslot hroom hb),
    fun b c s1 s2 slot hread hc hslot hroom hb => issue_error hguard (sqrdOp_error hread hc hslot hroom hb),
    fun b s1 hread hb => ⟨issue_error hguard (sqgoOp_error true hread hb), issue_error hguard (sqgoOp_error false hread hb)⟩⟩
  · rw [hgo ((readS_cur hc).trans (readS_cur hread))]
    exact issue_ok hguard (sqtabOp_ok hread hc hslot hroom halign hbound)
  · rw [hgo (readABC_cur hread)]
    exact issue_ok hguard (sqinitOp_ok hread hslot hroom hb halign hbound)
  · rw [hgo ((readS_cur hc).trans (readS_cur hread))]
    exact issue_ok hguard (sqrdOp_ok hread hc hslot hroom hb)
  · rw [show s.cur = s1.cur from (readS_cur hread).symm]
    exact ⟨issue_ok hguard (sqgoOp_ok true hread hb), issue_ok hguard (sqgoOp_ok false hread hb)⟩

/-! ### System instructions (R371 to R374) -/

theorem sysReg_of_mem (s : State) : ∀ x ∈ Claims.systemRegisters, s.sysReg x.1 = x.2 s := by
  simp only [Claims.systemRegisters, List.forall_mem_cons, List.not_mem_nil, false_implies, implies_true, and_true, BitVec.ofNat_toNat]
  exact ⟨rfl, rfl, rfl, rfl, rfl, rfl, rfl, rfl, rfl⟩

theorem sysw_ok (hread : s.readS f.a = .ok (a, t)) : State.sysw f s = .ok (t.modCur (fun c =>
    if f.fld 14 12 = 0x20 then { c with eccCe := Claims.low a } else { c with eccUe := Claims.low a })) := by
  rw [State.sysw, hread, low_eq]
  rfl

theorem trapWith_ok {len e : Nat} {g : BitVec 4} (h : guardHolds g s.ctx = true) :
    trapWith len g e s = .next ((s.countIssue len).takeFault 0x3F e) := by
  rw [trapWith, guardHolds_countIssue, if_pos h]

theorem brk_quiet (hread : s.readAB f = .ok (a, b, t)) (h : (t.part (t.partOf t.cur.1)).trace = false) : State.brk f s = .ok t := by
  rw [State.brk, hread, ok_bind]
  dsimp only
  rw [State.myPart, h]
  rfl

theorem brk_traced (hread : s.readAB f = .ok (a, b, t)) (h : (t.part (t.partOf t.cur.1)).trace = true) : State.brk f s = .ok (t.addFault
    { kind := 4, code := 0, part := t.partOf t.cur.1, inst := t.ctx.inst, handle := t.handleOf t.ctx.inst, cid := t.cur.1
      f := frefName t.ctx.fref, w2 := BitVec.ofNat 64 (t.ctx.slot * 2 ^ 32 + t.ctx.fref), w3 := BitVec.ofNat 64 (t.ctx.ipc.toNat % 2 ^ 32)
      rest := [a, b, 0, 0], cmds := [], ext := [], cb := none, own := 0, acts := false }) := by
  rw [State.brk, hread, ok_bind]
  dsimp only
  rw [State.myPart, h]
  rfl

theorem snap_unnamed (hread : s.readS f.c = .ok (c, t)) (h : f.c = 0) : State.snap f s =
    .ok (t.raiseTrig (some (t.partOf t.cur.1)) { ow := f.fld 14 5, slot := none, bytes := if f.fld 14 5 = 0 then 1 else 8 } t.issuer 0
      t.ctx.fences) := by
  rw [State.snap, hread, ok_bind]
  dsimp only
  rw [compSlot_ok (.inl ⟨h, rfl⟩)]
  rfl

theorem snap_named {v : State} {id : Nat} (hread : s.readS f.c = .ok (c, t)) (h : f.c ≠ 0)
    (href : t.srefOk (t.partOf t.cur.1) c.toNat = true) (hroom : Claims.asyncRoom t) (hnew : t.newCmd 0x3E 4 = (v, id)) : State.snap f s =
      .ok (v.raiseTrig (some (v.partOf v.cur.1)) { ow := f.fld 14 5, slot := some c.toNat, bytes := if f.fld 14 5 = 0 then 1 else 8 } v.issuer id
        v.ctx.fences) := by
  rw [State.snap, hread, ok_bind]
  dsimp only
  rw [compSlot_ok (.inr ⟨h, href, rfl⟩), ok_bind, if_neg (by simp), asyncRoom_ok hroom, ok_bind, hnew]
  rfl

theorem readAB_ctx (h : s.readAB f = .ok (a, b, t)) : t.ctx = s.ctx := by
  obtain ⟨s1, ha, hb⟩ := readAB_split h
  exact (readS_ctx hb).trans (readS_ctx ha)

/-- Settles O44: the bodies with their results. -/
theorem systemInstructions : Obligations.SystemInstructions := by
  intro f s hguard u
  refine ⟨fun x hx t hsel hwrite => issue_ok (body := State.sysr f) hguard ?_, fun a s1 hread => ?_, trapWith_ok hguard,
    fun g hg => trapWith_ok hg, fun a b s1 hread => ?_, fun c s1 hread => ?_⟩
  · rw [State.sysr, hsel, sysReg_of_mem u x hx]
    exact hwrite
  · have hsysw : exec (.sysw f) s = _ := issue_ok hguard (sysw_ok hread)
    refine ⟨fun hsel => ?_, fun hsel => ?_⟩
    · simpa only [hsel, if_true] using hsysw
    · simpa only [hsel, Nat.reduceEqDiff, if_false] using hsysw
  · have hctx : s1.ctx = u.ctx := readAB_ctx hread
    have hcur : s1.cur = s.cur := (readAB_cur hread).trans (State.countIssue_cur s 8)
    rw [← hcur]
    refine ⟨fun h => issue_ok hguard (brk_quiet hread h), fun h => (issue_ok hguard (brk_traced hread h)).trans ?_⟩
    rw [hctx, State.ctx_countIssue]
  · have hcur : s1.cur = s.cur := (readS_cur hread).trans (State.countIssue_cur s 8)
    have hfences : s.ctx.fences = s1.ctx.fences := by rw [readS_ctx hread, State.ctx_countIssue]
    rw [← hcur, hfences]
    refine ⟨fun h => issue_ok hguard (snap_unnamed hread h), fun h href hroom v id hnew => ?_⟩
    obtain rfl : v = (s1.newCmd 0x3E 4).1 := by rw [hnew]
    exact issue_ok hguard (snap_named hread h href hroom hnew)

/-! ### Launches (R292 to R299) -/

theorem pkGraph_eq (w : Word) : pkGraph w = w.toNat % 2 ^ 16 := by rw [pkGraph, bits, Nat.shiftRight_zero]
theorem pkArgs_eq (w : Word) : pkArgs w = w.toNat / 2 ^ 16 % 8 := by rw [pkArgs, bits, Nat.shiftRight_eq_div_pow, show 2 ^ 3 = 8 from rfl]

section Launch

variable (hread : s.readS f.a = .ok (a, s1)) (hc : s1.readS f.c = .ok (c, t)) (hslot : Claims.Slot t f.c c slot)
include hread hc hslot

theorem askRecord_ok (minor : Nat) (hhandle : t.handleOk (t.partOf t.cur.1) a = true) (hroom : Claims.asyncRoom t) :
    State.askRecord minor f s = .ok (Claims.sends t 0x3C minor (fun v id =>
      { v.notice (if minor = 1 then .gquery a else .gcan a) (.launch (handleDie a)) v.ctx.fref with
        ret := { ow := f.fld 14 5, slot := slot, bytes := 8 }, cmd := id })) := by
  rw [State.askRecord, hread, ok_bind]
  dsimp only
  rw [hc, ok_bind]
  dsimp only
  rw [compSlot_ok hslot, ok_bind, State.myPart, hhandle, need_true, ok_bind, asyncRoom_ok hroom]
  rfl

variable (halign : a.toNat % 64 = 0) (hbound : a.toNat + 64 ≤ 0x20000) (hpoison : t.poisoned (coreKey t.cur.1 a.toNat) 64 = false)
  (hform : t.malformed (t.partOf t.cur.1) (t.seenW t.pipeReader (coreKey t.cur.1 a.toNat)) = false)
include halign hbound hpoison hform

theorem glaunch_refused_fault (h : t.ctx.limit < t.ctx.depth + 1 ∨ (t.cluster (clidOf t.cur.1)).credit = 0) (hp : f.fld 14 3 = 0) :
    State.glaunch f s = .error 0x30 := by
  rw [State.glaunch, hread, ok_bind]
  dsimp only
  rw [hc, ok_bind]
  dsimp only
  rw [decide_eq_true halign, need_true, ok_bind, decide_eq_true hbound, need_true, ok_bind, hpoison, Bool.not_false, need_true, ok_bind,
    Nat.add_zero, State.myPart, hform, Bool.not_false, need_true, ok_bind, compSlot_ok hslot, ok_bind, if_pos h, hp]
  rfl

theorem glaunch_refused {v : State} (h : t.ctx.limit < t.ctx.depth + 1 ∨ (t.cluster (clidOf t.cur.1)).credit = 0) (hp : f.fld 14 3 ≠ 0)
    (hwrite : ((t.saw t.pipeReader (coreKey t.cur.1 a.toNat) 64).writeP (f.fld 14 3) false).writeS f.d 0 = .ok v) :
    State.glaunch f s = .ok v := by
  rw [State.glaunch, hread, ok_bind]
  dsimp only
  rw [hc, ok_bind]
  dsimp only
  rw [decide_eq_true halign, need_true, ok_bind, decide_eq_true hbound, need_true, ok_bind, hpoison, Bool.not_false, need_true, ok_bind,
    Nat.add_zero, State.myPart, hform, Bool.not_false, need_true, ok_bind, compSlot_ok hslot, ok_bind, if_pos h, bne_iff_ne.mpr hp, need_true]
  exact hwrite

/-- A launch takes a credit and a number of its cluster (R297). -/
def launched (t : State) (key : Nat) (i : Inst) : State :=
  ((t.saw t.pipeReader key 64).modCluster (clidOf t.cur.1) (fun q => { q with
    credit := q.credit - 1, need := q.need || decide (q.credit - 1 < 16), seqno := q.seqno + 1 })).setInst (State.instKey i.part i.handle) i

theorem glaunch_accepted {w : State} (h : t.ctx.depth + 1 ≤ t.ctx.limit) (hcredit : (t.cluster (clidOf t.cur.1)).credit ≠ 0)
    (hwrite : let i := Claims.launchOf t (coreKey t.cur.1 a.toNat) slot
      let v := launched t (coreKey t.cur.1 a.toNat) i
      ((v.send (v.withRelease (v.notice (.launch (State.instKey i.part i.handle)) (.launch (dieOf t.cur.1)) v.ctx.fref) 3 4)).writeP (f.fld 14 3)
        true).writeS f.d i.handle = .ok w) : State.glaunch f s = .ok w := by
  rw [State.glaunch, hread, ok_bind]
  dsimp only
  rw [hc, ok_bind]
  dsimp only
  rw [decide_eq_true halign, need_true, ok_bind, decide_eq_true hbound, need_true, ok_bind, hpoison, Bool.not_false, need_true, ok_bind,
    Nat.add_zero, State.myPart, hform, Bool.not_false, need_true, ok_bind, compSlot_ok hslot, ok_bind, if_neg (by omega),
    pkGraph_eq, pkArgs_eq]
  simp only [Claims.launchOf, Nat.add_zero] at hwrite
  exact hwrite

end Launch

/-- Settles O43: the checks of a launch, and its two ends. -/
theorem launchInstructions : Obligations.LaunchInstructions := by
  intro f s hguard u
  refine ⟨fun a c s2 s1 slot hread hc halign hbound => ?_, fun a c s1 s2 slot hread hc hslot => ?_⟩
  · have hcur : s2.cur = s.cur := ((readS_cur hc).trans (readS_cur hread)).trans (State.countIssue_cur s 8)
    have hctx : s2.ctx = u.ctx := (readS_ctx hc).trans (readS_ctx hread)
    have hdepth : s.ctx.depth = s2.ctx.depth := by rw [hctx, State.ctx_countIssue]
    have hlimit : s.ctx.limit = s2.ctx.limit := by rw [hctx, State.ctx_countIssue]
    rw [← hcur, hdepth, hlimit]
    intro key cl hpoison hform hslot
    exact ⟨fun t hnest hcredit hwrite =>
        issue_ok hguard (glaunch_accepted hread hc hslot halign hbound hpoison hform hnest hcredit hwrite),
      fun h => ⟨fun hp => issue_error hguard (glaunch_refused_fault hread hc hslot halign hbound hpoison hform h hp),
        fun t hp hwrite => issue_ok hguard (glaunch_refused hread hc hslot halign hbound hpoison hform h hp hwrite)⟩⟩
  · rw [show s.cur = s2.cur from ((readS_cur hc).trans (readS_cur hread)).symm]
    exact fun hhandle hroom => ⟨issue_ok hguard (askRecord_ok hread hc hslot 1 hhandle hroom),
      issue_ok hguard (askRecord_ok hread hc hslot 2 hhandle hroom)⟩

end Sys2Proof.Proofs.SystemInstructions
end

section
/-! PROOFS. Tile-walk commands at issue: the checks of a walk, what a command holds, and the elements of a nest (O40; R213 to R215, R230 to R237,
R239). -/

namespace Sys2Proof.Proofs.TileWalks

open Sys2Proof.Machine Sys2Proof.Proofs.LoadStore Sys2Proof.Proofs.ScalarRegisters Sys2Proof.Proofs.Requests Sys2Proof.Proofs.FrameInstructions Sys2Proof.Proofs.RemoteAccess

/-! ### Lookups -/

/-- What stands under an index of a table after it was set there. -/
theorem find_set_same {α : Type} (i : Nat) (v : α) : ∀ t : Tbl α, (t.set i v).find? (fun x => x.1 == i) = some (i, v)
  | [] => by simp [Tbl.set]
  | (k, w) :: t => by
    rw [Tbl.set]
    split
    case isTrue h => simp [h]
    case isFalse h =>
      split
      · simp
      · rw [List.find?_cons_of_neg (by simp [Ne.symm h]), find_set_same i v t]

theorem getD_map_range {α : Type} {n i : Nat} (g : Nat → α) (d : α) (h : i < n) : ((List.range n).map g).getD i d = g i := by
  simp [h]

theorem bits_eq (v lo n : Nat) : bits v lo n = v / 2 ^ lo % 2 ^ n := by rw [bits, Nat.shiftRight_eq_div_pow]

/-! ### Tiles and shapes (R211 to R214, R305) -/

theorem tileOf_eq (x : Tens) (c : List Nat) : tileOf x c =
    (((((c.getD 4 0 / x.t.getD 4 1) * ((x.d.getD 3 1 + x.t.getD 3 1 - 1) / x.t.getD 3 1) + c.getD 3 0 / x.t.getD 3 1) *
        ((x.d.getD 2 1 + x.t.getD 2 1 - 1) / x.t.getD 2 1) + c.getD 2 0 / x.t.getD 2 1) *
        ((x.d.getD 1 1 + x.t.getD 1 1 - 1) / x.t.getD 1 1) + c.getD 1 0 / x.t.getD 1 1) *
        ((x.d.getD 0 1 + x.t.getD 0 1 - 1) / x.t.getD 0 1) + c.getD 0 0 / x.t.getD 0 1,
      (((c.getD 4 0 % x.t.getD 4 1 * x.t.getD 3 1 + c.getD 3 0 % x.t.getD 3 1) * x.t.getD 2 1 + c.getD 2 0 % x.t.getD 2 1) * x.t.getD 1 1 +
        c.getD 1 0 % x.t.getD 1 1) * x.t.getD 0 1 + c.getD 0 0 % x.t.getD 0 1) := by
  simp only [tileOf, List.foldl_cons, List.foldl_nil, Nat.zero_mul, Nat.zero_add, cdiv]

/-- The exponent of P, by format (R213). -/
def pageExp (fmt : Nat) : Nat := [16, 15, 14, 13, 14, 15, 16, 15, 14, 16, 16, 16, 16, 17, 11].getD fmt 0

theorem pageElems_eq_pow : ∀ fmt < 15, pageElems fmt = 2 ^ pageExp fmt := by decide

theorem pageElems_greatest : ∀ fmt < 15, pageElems fmt * elemBits fmt ≤ 2 ^ 19 ∧ 2 ^ 19 < 2 * pageElems fmt * elemBits fmt := by decide

theorem pow2AtLeast_pow (n : Nat) : ∀ k i, i ≤ Nat.clog 2 n → Nat.clog 2 n ≤ i + k → pow2AtLeast n k (2 ^ i) = 2 ^ Nat.clog 2 n
  | 0, i, hlo, hhi => by rw [pow2AtLeast, Nat.le_antisymm hlo hhi]
  | k + 1, i, hlo, hhi => by
    rw [pow2AtLeast, ← Nat.pow_succ']
    split
    case isTrue h => rw [Nat.le_antisymm hlo (Nat.clog_le_of_le_pow h)]
    case isFalse h =>
      have hlt : i < Nat.clog 2 n := (Nat.lt_clog_iff_pow_lt (by decide)).mpr (by omega)
      exact pow2AtLeast_pow n k (i + 1) hlt (by omega)

theorem pow2AtLeast_eq {n : Nat} (h : n ≤ 2 ^ 33) : pow2AtLeast n 33 1 = 2 ^ Nat.clog 2 n :=
  pow2AtLeast_pow n 33 0 (Nat.zero_le _) ((Nat.zero_add 33).symm ▸ Nat.clog_le_of_le_pow h)

/-- R214: the extent of the shape along k is the least power of two that covers it, or what the extents below leave of P. -/
theorem defaultShape_getD : ∀ (d : List Nat) (left k : Nat), k < d.length → (defaultShape d left).getD k 1 =
    min (pow2AtLeast (d.getD k 1) 33 1) (left / ((List.range k).map (fun j => (defaultShape d left).getD j 1)).prod)
  | x :: d, left, 0, _ => by simp [defaultShape]
  | x :: d, left, k + 1, h => by
    have ih := defaultShape_getD d (left / min (pow2AtLeast x 33 1) left) k (Nat.lt_of_succ_lt_succ h)
    rw [List.range_succ_eq_map, List.map_cons, List.prod_cons, List.map_map, ← Nat.div_div_eq_div_mul]
    exact ih

theorem tensOf_d (d : List Word) (k : Nat) (hk : k < 5) :
    (tensOf d).d.getD k 1 = (d.getD (1 + k / 2) 0).toNat / 2 ^ (32 * (k % 2)) % 2 ^ 32 + 1 := by
  interval_cases k <;> simp only [tensOf, bits_eq] <;> rfl

theorem tensOf_fmt (d : List Word) : (tensOf d).fmt = (d.getD 0 0).toNat / 2 ^ 16 % 16 := bits_eq _ _ _

theorem tensOf_t_of_shape (d : List Word) (k : Nat) (hk : k < 5) (h : (d.getD 0 0).toNat / 2 ^ 21 % 2 = 1) :
    (tensOf d).t.getD k 1 = 2 ^ ((d.getD 0 0).toNat / 2 ^ (32 + 5 * k) % 32) := by
  simp only [tensOf, bits_eq, Nat.pow_one]
  rw [if_pos h, getD_map_range _ _ hk]
  rfl

theorem tensOf_t_of_default (d : List Word) (k : Nat) (hk : k < 5) (h : (d.getD 0 0).toNat / 2 ^ 21 % 2 = 0) :
    (tensOf d).t.getD k 1 = min (2 ^ Nat.clog 2 ((tensOf d).d.getD k 1))
      (pageElems (tensOf d).fmt / ((List.range k).map (fun j => (tensOf d).t.getD j 1)).prod) := by
  have ht : (tensOf d).t = defaultShape (tensOf d).d (pageElems (tensOf d).fmt) := by
    simp only [tensOf, bits_eq]
    rw [if_neg (by omega)]
  have hd := tensOf_d d k hk
  rw [ht, defaultShape_getD _ _ _ hk, pow2AtLeast_eq (by omega)]

/-! ### Elements of a nest (R215, R234) -/

theorem nestIdx_getD : ∀ (l : List Nat) (e j : Nat), j < l.length →
    (nestIdx l e).getD j 0 = e / ((List.range j).map (fun m => l.getD m 0)).prod % l.getD j 0
  | n :: l, e, 0, _ => by simp [nestIdx]
  | n :: l, e, j + 1, h => by
    have ih := nestIdx_getD l (e / n) j (Nat.lt_of_succ_lt_succ h)
    rw [List.range_succ_eq_map, List.map_cons, List.prod_cons, List.map_map, ← Nat.div_div_eq_div_mul]
    exact ih

theorem counts_getD (l : List Level) (j : Nat) : (l.map (·.n)).getD j 0 = (l.getD j default).n := by
  rw [List.getD_eq_getElem?_getD, List.getElem?_map, List.getD_eq_getElem?_getD]
  cases l[j]? <;> rfl

/-- The index of a level of a walk (R215). -/
theorem levelIdx_getD (w : Walk) (e j : Nat) (h : j < w.levels.length) : (nestIdx (w.levels.map (·.n)) e).getD j 0 =
    e / ((List.range j).map (fun m => (w.levels.getD m default).n)).prod % (w.levels.getD j default).n := by
  rw [nestIdx_getD _ _ _ (by rwa [List.length_map]), counts_getD]
  simp only [counts_getD]

theorem sum_range_five (g : Nat → Int) : ((List.range 5).map g).sum = g 0 + g 1 + g 2 + g 3 + g 4 := by
  rw [show List.range 5 = [0, 1, 2, 3, 4] from rfl]
  simp only [List.map_cons, List.map_nil, List.sum_cons, List.sum_nil]
  omega

section Nest

variable (w : Walk) (e : Nat) (h5 : w.levels.length = 5)
include h5

theorem strideOf_eq : strideOf w e = ((List.range 5).map (fun j =>
    ((e / ((List.range j).map (fun m => (w.levels.getD m default).n)).prod % (w.levels.getD j default).n : Nat) : Int) *
      (w.levels.getD j default).stride)).sum := by
  rw [strideOf]
  simp only [sum_range_five]
  rw [levelIdx_getD w e 0 (by omega), levelIdx_getD w e 1 (by omega), levelIdx_getD w e 2 (by omega), levelIdx_getD w e 3 (by omega),
    levelIdx_getD w e 4 (by omega)]

theorem coordsOf_eq (k : Nat) (hk : k < 5) (h3 : w.kind ≠ 3) (h4 : w.kind ≠ 4) : (coordsOf w e).getD k 0 = w.origin.getD k 0 +
    ((List.range 5).map (fun j =>
      ((e / ((List.range j).map (fun m => (w.levels.getD m default).n)).prod % (w.levels.getD j default).n : Nat) : Int) *
        (w.levels.getD j default).steps.getD k 0)).sum := by
  rw [coordsOf, getD_map_range _ _ hk, stepIdx, if_neg (by omega)]
  simp only [sum_range_five]
  rw [levelIdx_getD w e 0 (by omega), levelIdx_getD w e 1 (by omega), levelIdx_getD w e 2 (by omega), levelIdx_getD w e 3 (by omega),
    levelIdx_getD w e 4 (by omega)]

theorem coordsOf_rows (k : Nat) (hk : k < 5) (h : w.kind = 3 ∨ w.kind = 4) : (coordsOf w e).getD k 0 = w.origin.getD k 0 +
    ((e / 1 % (w.levels.getD 0 default).n : Nat) : Int) * (w.levels.getD 0 default).steps.getD k 0 +
    ((w.idx.getD (e / ((List.range 1).map (fun m => (w.levels.getD m default).n)).prod % (w.levels.getD 1 default).n) 0 : Nat) : Int) *
      (w.levels.getD 1 default).steps.getD k 0 := by
  rw [coordsOf, getD_map_range _ _ hk, stepIdx, if_pos h, sum_range_five, levelIdx_getD w e 0 (by omega), levelIdx_getD w e 1 (by omega)]
  simp only [List.getD_cons_zero, List.getD_cons_succ, List.getD_nil, Int.natCast_zero, Int.zero_mul, Int.add_zero, Int.add_assoc]
  rfl

end Nest

/-! ### The checks of a walk (R232, R236, R237) -/

theorem need_then {α : Type} {b : Bool} {c : Code} {k : Unit → Except Code α} {r : Except Code α} (h : b = true) (hk : k () = r) :
    (need b c >>= k) = r := by rw [h, need_true, ok_bind, hk]

variable {s t : State} {k : Nat} {w : Walk} {dst : Loc} {off size : Nat}

theorem descBad_eq_false (h : Claims.descriptorFits s k) : s.descBad k = false := by
  obtain ⟨hhead, hfive, htail, hlevels⟩ := h
  have hall : (List.range 5).any (fun j => s.descN (k + 32 + 40 * j + 28) 4 / 2 != 0 || s.descN (k + 32 + 40 * j) 4 == 0) = false := by
    rw [List.any_eq_false]
    intro j hj
    obtain ⟨hres, hcount⟩ := hlevels j (List.mem_range.mp hj)
    simp only [State.descN, hres, bne_self_eq_false, Bool.false_or, beq_iff_eq]
    exact hcount
  dsimp only at hhead hfive htail
  rw [State.descBad, hall, State.descN, State.descN, State.descN, hhead, hfive, htail]
  rfl

theorem unit_eq (h : Claims.unitRun w) : ((w.levels.getD 0 default).steps.getD 0 0 == 1 &&
    (List.range 4).all (fun i => (w.levels.getD 0 default).steps.getD (i + 1) 0 == 0)) = true := by
  obtain ⟨hone, hrest⟩ := h
  rw [hone, Bool.and_eq_true, List.all_eq_true]
  exact ⟨rfl, fun i hi => beq_iff_eq.mpr (hrest i (List.mem_range.mp hi))⟩

theorem walkCheck_ok (h : Claims.walkFits s k w dst off size) : s.walkCheck k w dst off size = .ok () := by
  obtain ⟨hdesc, htid, hstid, hres, hcoord, hscale, hoff, hstride, hlo, hhi, hslots, hpoison, hsig, hsub, hrows, hquant⟩ := h
  unfold State.walkCheck
  refine need_then (by rw [descBad_eq_false hdesc]; rfl) (need_then ?declared (need_then ?reserved ?_))
  case declared =>
    rw [htid, Bool.true_and, Bool.or_eq_true, bne_iff_ne]
    exact Decidable.not_or_of_imp hstid
  case reserved =>
    rw [Bool.or_eq_true, beq_iff_eq, Bool.and_eq_true, beq_iff_eq, beq_iff_eq]
    exact Decidable.or_iff_not_imp_left.mpr hres
  refine need_then ?coords (need_then ?scale (need_then ?align (need_then ?inside (need_then ?slots (need_then ?poison (need_then ?signals ?_))))))
  case coords =>
    rw [List.all_eq_true]
    intro c hc
    rw [Bool.and_eq_true, decide_eq_true_eq, decide_eq_true_eq]
    exact hcoord c (List.mem_range.mp hc)
  case scale =>
    rw [Bool.or_eq_true, bne_iff_ne, List.all_eq_true]
    exact Decidable.not_or_of_imp fun hk c hc => decide_eq_true (hscale hk c (List.mem_range.mp hc))
  case align =>
    rw [Bool.and_eq_true, decide_eq_true_eq, List.all_eq_true]
    exact ⟨hoff, fun l hl => by rw [Bool.or_eq_true, beq_iff_eq, beq_iff_eq]; exact hstride l hl⟩
  case inside =>
    rw [Bool.and_eq_true, decide_eq_true_eq, decide_eq_true_eq]
    exact ⟨hlo, by simpa only [bne_iff_ne, Bool.and_eq_true] using hhi⟩
  case slots =>
    cases dst with
    | core c =>
      by_cases hk : w.kind = 0 ∨ w.kind = 2 ∨ w.kind = 3
      · have hclear : (List.range (walkElems w)).any (s.elemHits c off w (tensOf (s.descOf w.from_.part w.tid)).fmt) = false :=
          List.any_eq_false.mpr fun e he => by rw [hslots hk c rfl e (List.mem_range.mp he)]; exact Bool.false_ne_true
        simp only [hclear, Bool.not_false, Bool.or_true]
      · have hreads : (w.kind == 0 || w.kind == 2 || w.kind == 3) = false := by simpa [not_or, and_assoc] using hk
        simp only [hreads, Bool.not_false, Bool.true_or]
    | _ => rfl
  case poison => rw [hpoison]; rfl
  case signals =>
    rw [List.all_eq_true]
    intro l hl
    cases hs : l.sig with
    | false => rfl
    | true =>
      have := hsig l hl hs
      rw [Bool.not_true, Bool.false_or]
      split
      case isTrue hk => rw [if_pos hk] at this; simpa [and_assoc] using this
      case isFalse hk => rw [if_neg hk] at this; exact this
  refine need_then ?subByte (need_then ?rows ?quant)
  case subByte =>
    by_cases hk : w.kind = 5
    · rw [hk]; rfl
    · cases hb : subByte (tensOf (s.descOf w.from_.part w.tid)).fmt with
      | false => rw [Bool.not_false, Bool.or_true, Bool.true_or]
      | true =>
        obtain ⟨hunit, hzero, hstart, hend⟩ := hsub hk hb
        simp only [unit_eq hunit, Bool.true_and, hzero, beq_self_eq_true, hstart, decide_true, Bool.or_eq_true, decide_eq_true_eq, beq_iff_eq]
        exact .inr hend
  case rows =>
    by_cases hk : w.kind = 3 ∨ w.kind = 4
    · obtain ⟨hcount, hones⟩ := hrows hk
      rw [hcount, Bool.or_eq_true, beq_self_eq_true, Bool.true_and, List.all_eq_true]
      exact .inr (fun j hj => beq_iff_eq.mpr (hones j (List.mem_range.mp hj)))
    · obtain ⟨h3, h4⟩ := not_or.mp hk
      rw [bne_iff_ne.mpr h3, bne_iff_ne.mpr h4]
      rfl
  case quant =>
    have hq : ((w.kind != 5 || (decide (9 ≤ w.qfmt ∧ w.qfmt ≤ 13) && w.qfmt == (tensOf (s.descOf w.from_.part w.tid)).fmt &&
        ((w.levels.getD 0 default).steps.getD 0 0 == 1 && (List.range 4).all (fun i => (w.levels.getD 0 default).steps.getD (i + 1) 0 == 0)) &&
        decide (w.origin.getD 0 0 % 32 = 0) && (decide ((w.levels.getD 0 default).n % 32 = 0) ||
          w.origin.getD 0 0 + (w.levels.getD 0 default).n == (tensOf (s.descOf w.from_.part w.tid)).d.getD 0 1)))) = true := by
      by_cases hk : w.kind = 5
      · obtain ⟨hge, hle, hfmt, hunit, hstart, hend⟩ := hquant hk
        rw [unit_eq hunit, decide_eq_true ⟨hge, hle⟩, decide_eq_true hstart, beq_iff_eq.mpr hfmt, Bool.or_eq_true, Bool.true_and, Bool.true_and,
          Bool.true_and, Bool.true_and, Bool.or_eq_true, decide_eq_true_eq, beq_iff_eq]
        exact .inr hend
      · rw [bne_iff_ne.mpr hk]; rfl
    rw [hq]
    rfl

theorem multicastOk_ok {d : Word} {slot : Option Nat} (h : Claims.rectangleFits s w d dst slot) : s.multicastOk w d dst slot = .ok () := by
  obtain ⟨hd, ⟨c, rfl, hw, hh, hx, hy⟩, hin, hframe⟩ := h
  unfold State.multicastOk
  refine need_then (decide_eq_true hd) (need_then ?inside ?frame)
  case inside =>
    dsimp only
    rw [decide_eq_true (show _ ∧ _ from ⟨hw, hh, hx, hy⟩), Bool.true_and, List.all_eq_true]
    exact fun t ht => hin t (List.mem_range.mp ht)
  case frame =>
    cases slot with
    | none => rfl
    | some r => dsimp only; rw [decide_eq_true (hframe r rfl)]; rfl

/-! ### Commands at issue (R230, R231, R233, R239) -/

/-- Source d of a twmc is its rectangle; the other walks have none (R236). -/
theorem walkIssue_ok {kind : Nat} {f : WForm} {s1 s2 s3 : State} {a b c d : Word} {slot : Option Nat} {key : Nat}
    (ha : s.readS f.a = .ok (a, s1)) (hb : s1.readS f.b = .ok (b, s2)) (hc : s2.readS f.c = .ok (c, s3))
    (hd : if kind = 2 then s3.readS f.d = .ok (d, t) else d = 0 ∧ t = s3) (hslot : Claims.Slot t f.c c slot)
    (hplace : t.placeOf (t.partOf t.cur.1) b.toNat 1 = some (dst, key, off)) (hreach : Claims.reaches t (locDie dst) true)
    (hroom : Claims.asyncRoom t) (halign : a.toNat % 64 = 0) (hbound : a.toNat + 256 ≤ 0x20000)
    (hrect : kind = 2 → Claims.rectangleFits t (t.walkOf kind f a b d slot) d dst slot)
    (hfits : Claims.walkFits t (coreKey t.cur.1 a.toNat) (t.walkOf kind f a b d slot) dst off (t.levelSize dst)) :
    State.walkIssue kind f s =
      .ok ((t.saw t.pipeReader (coreKey t.cur.1 a.toNat) 256).queueWalk kind (t.walkOf kind f a b d slot)) := by
  have hd' : (if kind = 2 then s3.readS f.d else pure (0, s3)) = .ok (d, t) := by
    split
    case isTrue h => rwa [if_pos h] at hd
    case isFalse h => rw [if_neg h] at hd; obtain ⟨rfl, rfl⟩ := hd; rfl
  have hmulti (m : Unit → Except Code State) :
      (if kind = 2 then t.multicastOk (t.walkOf kind f a b d slot) d dst slot >>= m else m ()) = m () := by
    split
    case isTrue h => rw [multicastOk_ok (hrect h), ok_bind]
    case isFalse => rfl
  rw [State.walkIssue, ha, ok_bind]
  dsimp only
  rw [hb, ok_bind]
  dsimp only
  rw [hc, ok_bind]
  dsimp only
  rw [ite_bind, hd', ok_bind]
  dsimp only
  rw [compSlot_ok hslot, ok_bind, remoteCheck_ok ⟨hplace, hreach, hroom, Nat.mod_one _⟩, ok_bind]
  dsimp only
  rw [decide_eq_true halign, need_true, ok_bind, decide_eq_true hbound, need_true, ok_bind, hmulti, walkCheck_ok hfits]
  rfl

/-- Every walk has the one body (R231). -/
theorem walkBody_of_mem : ∀ x ∈ Claims.walks, ∀ f s, exec (x.2 f) s = issue 8 f.guard s (State.walkIssue x.1 f) := by
  simp only [Claims.walks, List.forall_mem_cons, List.not_mem_nil, false_implies, implies_true, and_true]
  exact ⟨fun _ _ => rfl, fun _ _ => rfl, fun _ _ => rfl, fun _ _ => rfl, fun _ _ => rfl, fun _ _ => rfl⟩

theorem twcan_ok {f : WForm} {s1 : State} {a c : Word} {tgt slot : Option Nat} (ha : s.readS f.a = .ok (a, s1)) (hc : s1.readS f.c = .ok (c, t))
    (htgt : Claims.Slot t f.a a tgt) (hslot : Claims.Slot t f.c c slot) : State.twcan f s =
      .ok (t.send { t.notice (.twcan (tgt.getD (2 ^ 64))) (.cluster (clidOf t.cur.1)) t.ctx.fref with
        ret := { ow := f.fld 14 5, slot := slot, bytes := 8 } }) := by
  rw [State.twcan, ha, ok_bind]
  dsimp only
  rw [hc, ok_bind]
  dsimp only
  rw [compSlot_ok htgt, ok_bind, compSlot_ok hslot]
  rfl

/-! ### What a command holds (R230, R231) -/

theorem sg32_eq (v : Nat) : sg32 v = (BitVec.ofNat 32 v).toInt := by
  rw [sg32, sgN, BitVec.toInt_eq_toNat_cond, BitVec.toNat_ofNat]
  split <;> split <;> omega

theorem walkOf_level (s : State) (kind : Nat) (f : WForm) (a b d : Word) (slot : Option Nat) {i : Nat} (hi : i < 5) :
    (s.walkOf kind f a b d slot).levels.getD i default = s.levelAt (coreKey s.cur.1 a.toNat) i := getD_map_range _ _ hi

theorem levelAt_step (s : State) (k j : Nat) {i : Nat} (hi : i < 5) :
    (s.levelAt k j).steps.getD i 0 = (BitVec.ofNat 32 (s.seenN s.pipeReader (k + (40 + 40 * j + 4 * i)) 4)).toInt := by
  rw [State.levelAt, getD_map_range _ _ hi, sg32_eq, State.descN, show k + 32 + 40 * j + 8 + 4 * i = k + (40 + 40 * j + 4 * i) by omega]

theorem walkOf_fields (s : State) (kind : Nat) (f : WForm) (a b d : Word) (slot : Option Nat) :
    let w := s.walkOf kind f a b d slot
    let word := fun n z => s.seenN s.pipeReader (coreKey s.cur.1 a.toNat + n) z
    w.kind = kind ∧ w.tid = word 0 8 % 2 ^ 16 ∧ w.stid = word 0 8 / 2 ^ 16 % 2 ^ 16 ∧ w.qfmt = word 0 8 / 2 ^ 32 % 16 ∧ w.base = b.toNat ∧
      (∀ i, i < 5 → w.origin.getD i 0 = word (8 + 4 * i) 4 ∧ (let l := w.levels.getD i default
        l.n = word (32 + 40 * i) 4 ∧ l.stride = (BitVec.ofNat 32 (word (36 + 40 * i) 4)).toInt ∧
        (∀ k, k < 5 → l.steps.getD k 0 = (BitVec.ofNat 32 (word (40 + 40 * i + 4 * k) 4)).toInt) ∧ l.sig = (word (32 + 40 * i + 28) 4 % 2 == 1) ∧
        l.sref = word (32 + 40 * i + 32) 8)) ∧
      (kind = 3 ∨ kind = 4 → ∀ j, j ≤ f.fld 14 5 → w.idx.getD j 0 = (s.ctx.s.get 0 (f.d.toNat + j)).toNat) ∧
      (kind = 2 → w.width = d.toNat % 2 ^ 16 ∧ w.height = d.toNat / 2 ^ 16 % 2 ^ 16) ∧ w.ret.slot = slot ∧ w.from_ = s.issuer := by
  intro w word
  have hhead (lo n m : Nat) (hm : 2 ^ n = m) : bits (s.descN (coreKey s.cur.1 a.toNat) 8) lo n = word 0 8 / 2 ^ lo % m := by
    rw [bits_eq, hm, State.descN]
    simp only [word, Nat.add_zero]
  refine ⟨rfl, (hhead 0 16 _ rfl).trans (by rw [Nat.pow_zero, Nat.div_one]), hhead 16 16 _ rfl, hhead 32 4 _ (by decide), rfl, fun i hi => ⟨?origin, ?level⟩, fun h j hj => ?idx,
    fun _ => ⟨(bits_eq _ _ _).trans (by rw [Nat.pow_zero, Nat.div_one]), bits_eq _ _ _⟩, rfl, rfl⟩
  case origin =>
    rw [show w.origin.getD i 0 = s.descN (coreKey s.cur.1 a.toNat + 8 + 4 * i) 4 from getD_map_range _ _ hi, Nat.add_assoc]
    rfl
  case level =>
    rw [walkOf_level s kind f a b d slot hi]
    have hb (n : Nat) : coreKey s.cur.1 a.toNat + 32 + 40 * i + n = coreKey s.cur.1 a.toNat + (32 + 40 * i + n) := by omega
    refine ⟨?_, ?_, fun k hk => levelAt_step s _ i hk, ?_, ?_⟩
    · simp only [State.levelAt, State.descN, word, Nat.add_assoc]
    · simp only [State.levelAt, State.descN, sg32_eq, word, hb, show 32 + 40 * i + 4 = 36 + 40 * i by omega]
    · simp only [State.levelAt, State.descN, word, hb]
    · simp only [State.levelAt, State.descN, word, hb]
  case idx =>
    rw [show w.idx = _ from if_pos h]
    exact getD_map_range _ _ (Nat.lt_succ_of_le hj)

theorem queueWalk_eq (s : State) (kind : Nat) (w : Walk) : let t := s.queueWalk kind w
    ((t.cluster (clidOf s.cur.1)).walkq = (s.cluster (clidOf s.cur.1)).walkq ++ [s.seq + 1]) ∧ t.walk (s.seq + 1) = some { w with cmd := s.seq } ∧
      t.ctx = s.ctx ∧ t.net = s.net ∧ t.faults = s.faults := by
  refine ⟨?_, ?_, rfl, rfl, rfl⟩
  · exact congrArg Cluster.walkq (State.cluster_modCluster _ _ _)
  · exact congrArg (Option.map Prod.snd) (find_set_same (s.seq + 1) { w with cmd := s.seq } s.walks)

/-- Settles O40: the checks of a walk, its command, and the elements of a nest. -/
theorem tileWalks : Obligations.TileWalks := by
  refine ⟨?issue, walkOf_fields, tileOf_eq, ?page, ?shape, ?nest, ?cancel, queueWalk_eq⟩
  case issue =>
    intro x hx f s s1 s2 s3 s4 a b c d slot dst key off hguard ha hb hc hd hslot
    have hcur : s4.cur = s.cur := by
      have h3 : s3.cur = s.cur := (((readS_cur hc).trans (readS_cur hb)).trans (readS_cur ha)).trans (State.countIssue_cur s 8)
      split at hd
      · exact (readS_cur hd).trans h3
      · rw [hd.2, h3]
    rw [← hcur]
    intro hplace hreach hroom halign hbound w hrect hfits
    rw [walkBody_of_mem x hx]
    exact issue_ok hguard (walkIssue_ok ha hb hc hd hslot hplace hreach hroom halign hbound hrect hfits)
  case page => exact fun fmt h => ⟨⟨_, pageElems_eq_pow fmt h⟩, pageElems_greatest fmt h⟩
  case shape => exact fun d k hk => ⟨tensOf_t_of_default d k hk, tensOf_t_of_shape d k hk, tensOf_d d k hk, tensOf_fmt d⟩
  case nest =>
    intro w e h5 l i sum
    refine ⟨fun k hk h3 h4 => ?_, fun k hk h => ?_, ?_⟩
    · rw [coordsOf_eq w e h5 k hk h3 h4, sum_range_five]
    · exact coordsOf_rows w e h5 k hk h
    · rw [strideOf_eq w e h5, sum_range_five]
  case cancel =>
    intro f s s1 s2 a c tgt slot hguard ha hc htgt hslot
    rw [show s.cur = s2.cur from (((readS_cur hc).trans (readS_cur ha)).trans (State.countIssue_cur s 8)).symm]
    exact issue_ok hguard (twcan_ok ha hc htgt hslot)

end Sys2Proof.Proofs.TileWalks
end

section
/-! PROOFS. What a slot unit changes: frame headers, the slots of a new frame and of a freed one, and the conditions that every request at a unit
shares (R171, R172, R193, R194). -/

namespace Sys2Proof.Proofs.Slots

open Sys2Proof.Machine Sys2Proof.Proofs.Words Sys2Proof.Proofs.Signals

/-! ### Packets that have arrived -/

variable {s t u : State}

/-- What an event answers, by the state that it leads to. -/
theorem next_congr (h : t = u) : (Host.Outcome.next t : Out) = .next u := by rw [h]

theorem coreOpen_of_opened {cid : Nat} (h : Claims.opened s cid) : s.coreOpen cid = true := by
  obtain ⟨hdead, hsaved⟩ := h
  rw [State.coreOpen, hdead, hsaved]
  rfl

/-- Nothing is bound to a party that no write is released to. -/
theorem bindTo_none (x : Party) {q : Older → Bool} (h : ∀ e, q e = false) : s.bindTo x q = s := by
  simp only [State.bindTo, h, Bool.false_eq_true, if_false, List.map_id']

theorem gatherAt_nil (s : State) (cid f k : Nat) : s.gatherAt cid f k [] = s := bindTo_none _ fun _ => rfl

section Drop

variable (s : State) (k cid f a n : Nat)

theorem frameKey_dropPacket : (s.dropPacket k).frameKey cid f = s.frameKey cid f := rfl
theorem spillKey_dropPacket : (s.dropPacket k).spillKey cid f = s.spillKey cid f := rfl
theorem residentOf_dropPacket : (s.dropPacket k).residentOf cid f = s.residentOf cid f := rfl
theorem readW_dropPacket : (s.dropPacket k).readW a = s.readW a := rfl
theorem poisoned_dropPacket : (s.dropPacket k).poisoned a n = s.poisoned a n := rfl

end Drop

/-! ### Reads of memory behind writes -/

theorem memReadN_congr {m m' : List Host.Cell} : ∀ (n k : Nat), (∀ i, k ≤ i → i < k + n → memRead m i = memRead m' i) → memReadN m k n = memReadN m' k n
  | 0, _, _ => rfl
  | n + 1, k, h => by
    rw [memReadN, memReadN, h k (Nat.le_refl k) (by omega), memReadN_congr n (k + 1) fun i hi hn => h i (by omega) (by omega)]

/-- A word reads the same where its bytes are the same. -/
theorem readW_congr {a : Nat} (h : ∀ i, a ≤ i → i < a + 8 → t.byte i = s.byte i) : t.readW a = s.readW a := by
  rw [State.readW, State.readW, State.readN, State.readN, memReadN_congr 8 a h]

theorem readW_writeW_other {a k : Nat} {w : Word} (h : a + 8 ≤ k ∨ k + 8 ≤ a) : (s.writeW k w).readW a = s.readW a :=
  readW_congr fun i _ _ => byte_writeN_other (by omega)

/-! ### Frame headers (R171) -/

theorem mkHdr_toNat (cb : Nat) (alloc copy : Bool) (async home : Nat) : (mkHdr cb alloc copy async home).toNat =
    cb % 2 ^ 16 + (if alloc then 2 ^ 16 else 0) + (if copy then 2 ^ 17 else 0) + async % 8 * 2 ^ 20 + home % 4096 * 2 ^ 32 := by
  rw [mkHdr, BitVec.toNat_ofNat]
  apply Nat.mod_eq_of_lt
  cases alloc <;> cases copy <;> simp <;> omega

theorem hdrCb_mkHdr (cb : Nat) (alloc copy : Bool) (async home : Nat) : hdrCb (mkHdr cb alloc copy async home) = cb % 2 ^ 16 := by
  rw [hdrCb, mkHdr_toNat, bits, Nat.shiftRight_zero]
  cases alloc <;> cases copy <;> simp <;> omega

theorem hdrAlloc_mkHdr (cb : Nat) (alloc copy : Bool) (async home : Nat) : hdrAlloc (mkHdr cb alloc copy async home) = alloc := by
  rw [hdrAlloc, BitVec.getLsbD, mkHdr_toNat, Nat.testBit_eq_decide_div_mod_eq]
  cases alloc <;> cases copy <;> simp <;> omega

/-! ### What the slots of a frame change -/

/-- The bytes, marks and queues that slots lo to hi of frame f of a core, from a key on, may change; owners and instances stay. -/
structure SlotsOnly (base cid f lo hi : Nat) (s t : State) : Prop where
  bytes : ∀ a, a < base + 8 * lo ∨ base + 8 * hi ≤ a → t.byte a = s.byte a
  marks : ∀ j, j < lo ∨ hi ≤ j → (8 * f + j ∈ (t.core cid).marks ↔ 8 * f + j ∈ (s.core cid).marks)
  ready : (s.core cid).ready ⊆ (t.core cid).ready
  fill : (s.core cid).fill ⊆ (t.core cid).fill
  owners : (t.core cid).owners = (s.core cid).owners
  insts : t.insts = s.insts

section

variable {base cid f lo mid hi : Nat}

/-- An update that leaves memory, the cores and the instances. -/
theorem SlotsOnly.of_eq (hmem : t.mem = s.mem) (hcores : t.cores = s.cores) (hinsts : t.insts = s.insts) : SlotsOnly base cid f lo hi s t where
  bytes _ _ := by rw [State.byte, State.byte, hmem]
  marks _ _ := by rw [State.core, State.core, hcores]
  ready := by rw [State.core, State.core, hcores]; exact List.Subset.refl _
  fill := by rw [State.core, State.core, hcores]; exact List.Subset.refl _
  owners := by rw [State.core, State.core, hcores]
  insts := hinsts

theorem SlotsOnly.trans (hst : SlotsOnly base cid f lo mid s t) (htu : SlotsOnly base cid f mid hi t u) (hlm : lo ≤ mid) (hmh : mid ≤ hi) :
    SlotsOnly base cid f lo hi s u where
  bytes a ha := (htu.bytes a (by omega)).trans (hst.bytes a (by omega))
  marks j hj := (htu.marks j (by omega)).trans (hst.marks j (by omega))
  ready := List.Subset.trans hst.ready htu.ready
  fill := List.Subset.trans hst.fill htu.fill
  owners := htu.owners.trans hst.owners
  insts := htu.insts.trans hst.insts

/-- Two changes of the same slots. -/
theorem SlotsOnly.andThen (hst : SlotsOnly base cid f lo hi s t) (htu : SlotsOnly base cid f lo hi t u) : SlotsOnly base cid f lo hi s u where
  bytes a ha := (htu.bytes a ha).trans (hst.bytes a ha)
  marks j hj := (htu.marks j hj).trans (hst.marks j hj)
  ready := List.Subset.trans hst.ready htu.ready
  fill := List.Subset.trans hst.fill htu.fill
  owners := htu.owners.trans hst.owners
  insts := htu.insts.trans hst.insts

variable {k : Nat}

theorem SlotsOnly.writeW (w : Word) : SlotsOnly base cid f k (k + 1) s (s.writeW (base + 8 * k) w) where
  bytes a ha := byte_writeN_other (by omega)
  marks _ _ := Iff.rfl
  ready := List.Subset.refl _
  fill := List.Subset.refl _
  owners := rfl
  insts := rfl

theorem SlotsOnly.enqueue (level : Nat) (image : Bool) : SlotsOnly base cid f k (k + 1) s (s.enqueue cid f k level image) where
  bytes _ _ := rfl
  marks j hj := by
    have hcore : (s.hand (.slot cid f k) (.entry cid f k)).core cid = s.core cid := rfl
    have hjk : 8 * f + j < 8 * f + k ∨ 8 * f + k < 8 * f + j := by omega
    have hne : 8 * f + j ≠ 8 * f + k := by omega
    have hmem : 8 * f + j ∈ ((s.core cid).marks.filter (· < 8 * f + k)) ++ (8 * f + k) :: (s.core cid).marks.filter (8 * f + k < ·) ↔
        8 * f + j ∈ (s.core cid).marks := by
      simp only [List.mem_append, List.mem_cons, List.mem_filter, decide_eq_true_eq, hne, false_or, ← and_or_left, hjk, and_true]
    rw [State.enqueue, State.core_modCore]
    cases image <;> exact hmem
  ready := by
    obtain ⟨-, hready, hfill⟩ := enqueue_core s cid f k level image
    cases image with
    | false => rw [(hready rfl).1]; exact List.subset_append_left _ _
    | true => rw [(hfill rfl).2]; exact List.Subset.refl _
  fill := by
    obtain ⟨-, hready, hfill⟩ := enqueue_core s cid f k level image
    cases image with
    | false => rw [(hready rfl).2]; exact List.Subset.refl _
    | true => rw [(hfill rfl).1]; exact List.subset_append_left _ _
  owners := by
    have hcore : (s.hand (.slot cid f k) (.entry cid f k)).core cid = s.core cid := rfl
    cases image <;> simp [State.enqueue, hcore]
  insts := rfl

theorem SlotsOnly.reachZero (image : Bool) : SlotsOnly base cid f k (k + 1) s (s.reachZero cid f k (base + 8 * k) image) := by
  unfold State.reachZero
  dsimp only
  split
  · exact .writeW _
  · split
    · exact .of_eq rfl rfl rfl
    · exact (SlotsOnly.writeW _).andThen (.enqueue _ _)

theorem SlotsOnly.signalSlot (image : Bool) (sigs : List Sig) : SlotsOnly base cid f k (k + 1) s (s.signalSlot cid f k (base + 8 * k) image sigs) := by
  by_cases hne : sigs = []
  · subst hne
    exact .of_eq rfl rfl rfl
  rw [signalSlot_eq hne]
  dsimp only
  split
  · obtain ⟨rs, heq, -, -⟩ := foldl_slotFault (cid := cid) (f := f) (k := k) 0x11 (fun g => g :: sigs.erase g) sigs.length
      (sumOf (s.readW (base + 8 * k)) sigs) sigs s
    rw [heq]
    exact .of_eq rfl rfl rfl
  · split
    · exact (SlotsOnly.writeW _).andThen (.of_eq rfl rfl rfl)
    · split
      · exact (SlotsOnly.writeW _).andThen (.reachZero _)
      · exact .writeW _

/-- An arming, with the signals of its cycle, changes its slot and the queues alone. -/
theorem SlotsOnly.armSlot (image : Bool) (w : Word) (sigs : List Sig) :
    SlotsOnly base cid f k (k + 1) s (s.armSlot cid f k (base + 8 * k) image w sigs) := by
  unfold State.armSlot
  dsimp only
  split
  · split
    · exact (SlotsOnly.writeW _).andThen (.reachZero _)
    · exact ((SlotsOnly.writeW _).andThen (.reachZero _)).andThen (.of_eq rfl rfl rfl)
  · exact (SlotsOnly.writeW _).andThen (.signalSlot _ _)

end

/-! ### Arming a slot (R175, R195) -/

section

variable {cid f k key : Nat} {image : Bool} {w : Word}

theorem armSlot_armed (h : slArmed w = false ∨ slCount w ≠ 0) : s.armSlot cid f k key image w [] = s.writeW key w := by
  unfold State.armSlot
  rw [if_neg (by rintro ⟨harm, hcount⟩; rcases h with h | h <;> simp_all)]
  rfl

/-- A slot that is armed with count 0 disarms and is queued at once, where its mark is clear and its instance goes on (R175, R180). -/
theorem armSlot_zero (hw : memWf s.mem = true) (harm : slArmed w = true) (hcount : slCount w = 0) (hstop : s.stopping (s.ownerOf cid f) = false)
    (hmark : 8 * f + k ∉ (s.core cid).marks) : s.armSlot cid f k key image w [] =
      ((s.writeW key w).writeW key (mkSlot 0 (slPrio w) (slByte w) false)).enqueue cid f k (slPrio w) image := by
  unfold State.armSlot
  rw [if_pos ⟨harm, hcount⟩]
  have hread : (s.writeW key w).readW key = w := readW_writeW_same hw
  have hstop' : (s.writeW key w).stopping ((s.writeW key w).ownerOf cid f) = false := hstop
  have hmark' : ((s.writeW key w).core cid).marks.contains (8 * f + k) = false :=
    (List.contains_eq_mem _ _).trans (decide_eq_false hmark)
  simp only [List.filter_nil, List.isEmpty_nil, if_true, State.reachZero, hread, hstop', hmark', Bool.false_eq_true, if_false]

end

/-! ### The slots of a new frame (R193) -/

section Frame

variable (cid f base : Nat) (image : Bool) (word : Nat → Word) (sigs : Nat → List Sig)

/-- The first n slots of a frame armed, in their order. -/
def armSlots (t : State) (n : Nat) : State := (List.range n).foldl (fun u k => u.armSlot cid f k (base + 8 * k) image (word k) (sigs k)) t

variable {cid f base image word sigs}

theorem armSlots_succ (t : State) (n : Nat) : armSlots cid f base image word sigs t (n + 1) =
    (armSlots cid f base image word sigs t n).armSlot cid f n (base + 8 * n) image (word n) (sigs n) := by
  rw [armSlots, List.range_succ, List.foldl_append]
  rfl

theorem armSlots_only (t : State) {n m : Nat} (h : n ≤ m) :
    SlotsOnly base cid f n m (armSlots cid f base image word sigs t n) (armSlots cid f base image word sigs t m) := by
  induction m, h using Nat.le_induction with
  | base => exact .of_eq rfl rfl rfl
  | succ m hnm ih =>
    rw [armSlots_succ]
    exact ih.trans (.armSlot _ _ _) hnm (Nat.le_succ m)

theorem memWf_armSlots (hw : memWf t.mem = true) : ∀ n, memWf (armSlots cid f base image word sigs t n).mem = true
  | 0 => hw
  | n + 1 => by rw [armSlots_succ]; exact wf_armSlot _ _ _ _ _ _ _ _ (memWf_armSlots hw n)

/-- What slot k of a new frame reads, once it and the later slots are armed. -/
theorem armSlots_readW {k : Nat} (hk : k < 8) : (armSlots cid f base image word sigs t 8).readW (base + 8 * k) =
    (armSlots cid f base image word sigs t (k + 1)).readW (base + 8 * k) :=
  readW_congr fun _ hlo hhi => (armSlots_only t (Nat.succ_le_of_lt hk)).bytes _ (.inl (by omega))

theorem armSlots_armed (hw : memWf t.mem = true) {k : Nat} (hk : k < 8) (hsigs : sigs k = []) (h : slArmed (word k) = false ∨ slCount (word k) ≠ 0) :
    (armSlots cid f base image word sigs t 8).readW (base + 8 * k) = word k := by
  rw [armSlots_readW hk, armSlots_succ, hsigs, armSlot_armed h, readW_writeW_same (memWf_armSlots hw k)]

theorem armSlots_zero (hw : memWf t.mem = true) {k : Nat} (hk : k < 8) (hsigs : sigs k = []) (harm : slArmed (word k) = true)
    (hcount : slCount (word k) = 0) (hstop : t.stopping (t.ownerOf cid f) = false) (hmark : 8 * f + k ∉ (t.core cid).marks) :
    (armSlots cid f base image word sigs t 8).readW (base + 8 * k) = mkSlot 0 (slPrio (word k)) (slByte (word k)) false ∧
      { level := slPrio (word k), f := f, slot := k } ∈ (if image then ((armSlots cid f base image word sigs t 8).core cid).fill
        else ((armSlots cid f base image word sigs t 8).core cid).ready) := by
  have hbefore : SlotsOnly base cid f 0 k t (armSlots cid f base image word sigs t k) := armSlots_only t (Nat.zero_le k)
  have hafter : SlotsOnly base cid f (k + 1) 8 (armSlots cid f base image word sigs t (k + 1)) (armSlots cid f base image word sigs t 8) :=
    armSlots_only t (Nat.succ_le_of_lt hk)
  have hstop' : (armSlots cid f base image word sigs t k).stopping ((armSlots cid f base image word sigs t k).ownerOf cid f) = false := by
    rw [State.stopping, State.inst, State.ownerOf, hbefore.insts, hbefore.owners]
    exact hstop
  have hwf := memWf_armSlots (cid := cid) (f := f) (base := base) (image := image) (word := word) (sigs := sigs) hw k
  have heq := (armSlots_succ (cid := cid) (f := f) (base := base) (image := image) (word := word) (sigs := sigs) t k)
  rw [hsigs, armSlot_zero hwf harm hcount hstop' (by rwa [hbefore.marks k (.inr (Nat.le_refl k))])] at heq
  obtain ⟨-, hready, hfill⟩ := enqueue_core (((armSlots cid f base image word sigs t k).writeW (base + 8 * k) (word k)).writeW (base + 8 * k)
    (mkSlot 0 (slPrio (word k)) (slByte (word k)) false)) cid f k (slPrio (word k)) image
  rw [← heq] at hready hfill
  refine ⟨?_, ?_⟩
  · rw [armSlots_readW hk, heq, enqueue_readW, readW_writeW_same (memWf_writeW hwf)]
  · cases image with
    | false => exact hafter.ready (by rw [(hready rfl).1]; simp)
    | true => exact hafter.fill (by rw [(hfill rfl).1]; simp)

end Frame

/-! ### The slots of a freed frame (R194) -/

/-- The first n slots of a frame set to 0. -/
def clearSlots (base : Nat) (t : State) (n : Nat) : State := (List.range n).foldl (fun u j => u.writeW (base + 8 * j) 0) t

theorem clearSlots_succ (base : Nat) (t : State) (n : Nat) : clearSlots base t (n + 1) = (clearSlots base t n).writeW (base + 8 * n) 0 := by
  rw [clearSlots, List.range_succ, List.foldl_append]
  rfl

theorem byte_clearSlots {base a : Nat} : ∀ n, a < base ∨ base + 8 * n ≤ a → (clearSlots base t n).byte a = t.byte a
  | 0, _ => rfl
  | n + 1, h => by rw [clearSlots_succ]; exact (byte_writeN_other (by omega)).trans (byte_clearSlots n (by omega))

theorem memWf_clearSlots {base : Nat} (hw : memWf t.mem = true) : ∀ n, memWf (clearSlots base t n).mem = true
  | 0 => hw
  | n + 1 => by rw [clearSlots_succ]; exact memWf_writeW (memWf_clearSlots hw n)

theorem readW_clearSlots {base j : Nat} (hw : memWf t.mem = true) : ∀ n, j < n → (clearSlots base t n).readW (base + 8 * j) = 0
  | n + 1, h => by
    rw [clearSlots_succ]
    by_cases hj : j = n
    · rw [hj, readW_writeW_same (memWf_clearSlots hw n)]
    · rw [readW_writeW_other (by omega), readW_clearSlots hw n (by omega)]

theorem clearFrame_eq (s : State) (key : Nat) : s.clearFrame key = clearSlots (key + 16)
    (s.writeW key (mkHdr (hdrCb (s.readW key)) false (hdrCopy (s.readW key)) (hdrAsync (s.readW key)) (hdrHome (s.readW key)))) 8 := rfl

end Sys2Proof.Proofs.Slots
end

section
/-! PROOFS. What a slot unit, and a die agent for the spilled frames, do with each request that has arrived (O48, R175, R192 to R199, R219). -/

namespace Sys2Proof.Proofs.FrameRequests

open Sys2Proof.Machine Sys2Proof.Proofs.Words Sys2Proof.Proofs.Slots

variable {s : State} {k cid : Nat} {p : Packet}

/-! ### Signals (R175, R186, R192) -/

section Signals

variable {f j : Nat} {ks : List Nat} {sigs : List Sig}

theorem signalArrival_held (hsigs : s.sigsOf (.core cid) (mkSref cid f j) ks = some sigs) (hheld : s.heldLocal cid f = true) :
    s.signalArrival cid f j ks = s := by
  rw [State.signalArrival, hsigs]
  dsimp only
  rw [hheld, Bool.or_true, if_pos rfl]

theorem signalArrival_eq (hne : ks ≠ []) (hopen : Claims.opened s cid) (hj : j < 8) (hlocal : (s.localOf cid f).isSome = true)
    (hsigs : s.sigsOf (.core cid) (mkSref cid f j) ks = some sigs) (hheld : s.heldLocal cid f = false) : s.signalArrival cid f j ks =
      ((s.gatherAt cid (s.nameAt cid f) j ks).takeAll ks).signalSlot cid (s.nameAt cid f) j (s.slotKey cid f j) false sigs := by
  have hempty : ks.isEmpty = false := by simpa using hne
  have hnone : (s.localOf cid f).isNone = false := by rw [← Option.not_isSome, hlocal]; rfl
  rw [State.signalArrival, hsigs]
  dsimp only
  rw [hempty, coreOpen_of_opened hopen, decide_eq_false (by omega), hheld, hnone]
  rfl

theorem nameAt_spilled (h : 4096 ≤ f) : s.nameAt cid f = f := if_neg (by omega)

theorem nameAt_local (h : f < 4096) (hcopy : hdrCopy (s.readW (s.localKey cid f)) = false) : s.nameAt cid f = f := by
  rw [State.nameAt, if_pos h]
  dsimp only
  rw [hcopy]
  rfl

theorem nameAt_copy (h : f < 4096) (hcopy : hdrCopy (s.readW (s.localKey cid f)) = true)
    (hres : s.residentOf cid (hdrHome (s.readW (s.localKey cid f))) = some f) : s.nameAt cid f = 4096 + hdrHome (s.readW (s.localKey cid f)) := by
  rw [State.nameAt, if_pos h]
  dsimp only
  rw [hcopy, hres, beq_self_eq_true, Bool.true_and, if_pos rfl]

theorem takePkt_signal {r v b so : Nat} {fire : Bool} (hp : s.packet k = some p) (hbody : p.body = .signal r v b fire so) :
    s.takePkt k = s.dropPacket k := by
  rw [State.takePkt, hp]
  dsimp only
  rw [hbody]

theorem takePkt_reply {v : Word} {poison : Bool} (hp : s.packet k = some p) (hbody : p.body = .reply v poison) :
    s.takePkt k = ((s.dropPacket k).writeReply p.from_.cid p.from_.fref p.ret.ow v poison).endCmd k p := by
  rw [State.takePkt, hp]
  dsimp only
  rw [hbody]

theorem keepFor_unlisted {cmd : Nat} (q : Older → Bool) (h : ∀ r ∈ s.faults, ∀ x ∈ r.cmds, x.1 ≠ cmd) : s.keepFor cmd q = s := by
  rw [State.keepFor, if_neg]
  simp only [List.any_eq_true, beq_iff_eq, not_exists, not_and]
  exact h

theorem keepFor_listed {cmd : Nat} (q : Older → Bool) (h : ∃ r ∈ s.faults, ∃ x ∈ r.cmds, x.1 = cmd) :
    s.keepFor cmd q = s.bindTo (.cmd cmd) q := by
  rw [State.keepFor, if_pos]
  simpa only [List.any_eq_true, beq_iff_eq] using h

theorem sigsOf_one {n v b so : Nat} {fire : Bool} (harr : Claims.arrived s k p) (hdst : p.dst = .core cid) (hord : s.inOrder k [k] = true)
    (hname : s.srefAt n = s.srefAt (mkSref cid f j)) (hbody : p.body = .signal n v b fire so) :
    s.sigsOf (.core cid) (mkSref cid f j) [k] = some [{ val := v, bytes := b, fire := fire, from_ := p.from_, source := so }] := by
  obtain ⟨hp, hmay⟩ := harr
  have hsig : s.sigOfPkt (.core cid) (mkSref cid f j) k = some { val := v, bytes := b, fire := fire, from_ := p.from_, source := so } := by
    rw [State.sigOfPkt, hp]
    dsimp only
    rw [hbody]
    dsimp only
    rw [if_pos ⟨hname, hdst, hmay⟩]
  have hone : ([k].eraseDups == [k]) = true := by simp [List.eraseDups_cons]
  rw [State.sigsOf, State.sigsWith, List.nil_append, hone, List.all_cons, hord, List.all_nil, Bool.and_self, Bool.and_self, if_pos rfl, List.mapM_cons, hsig]
  rfl

end Signals

/-! ### Allocations (R182, R193) -/

section Allocations

variable {cb parent f : Nat}

theorem frameTurn_local (h : f < 4096) : s.frameTurn cid f = some s := if_pos h
theorem frameTurn_spilled (h : 4096 ≤ f) : s.frameTurn cid f = s.imageTurn cid (f - 4096) := if_neg (by omega)

theorem gatherFrame_nil (s : State) (cid f : Nat) : s.gatherFrame cid f [] = s.freshFrame cid f := by
  rw [State.gatherFrame]
  simp only [List.filter_nil, gatherAt_nil]
  rfl

theorem sigsTo_nil (s : State) (cid f : Nat) : s.sigsTo cid f [] = [] := rfl

section Arrived

variable (harr : Claims.arrived s k p) (hdst : p.dst = .core cid) (hopen : Claims.opened s cid) (hord : s.inOrder k [] = true)
  (hbody : p.body = .alloc cb parent)
include harr hdst hopen hord hbody

theorem allocationRequest_eq : s.allocationRequest k [] = match s.takeFrame cid with
    | none => (s.dropPacket k).failCmd p.cmd 0x13 0 []
    | some f => match s.frameTurn cid f with
      | none => s
      | some u => ((u.freshFrame cid f).dropPacket k).allocAt cid f p cb parent [] := by
  obtain ⟨hp, hmay⟩ := harr
  rw [State.allocationRequest, hp]
  dsimp only
  rw [hbody, hdst]
  dsimp only
  rw [hmay, coreOpen_of_opened hopen, hord]
  simp only [List.filter_nil, List.eraseDups_nil, List.all_nil, Bool.not_true, Bool.or_self, Bool.false_eq_true, if_false, gatherFrame_nil, sigsTo_nil]
  rfl

theorem allocationRequest_waits (htake : s.takeFrame cid = some f) (hturn : s.frameTurn cid f = none) : s.allocationRequest k [] = s := by
  rw [allocationRequest_eq harr hdst hopen hord hbody, htake]
  dsimp only
  rw [hturn]

theorem allocationRequest_full (htake : s.takeFrame cid = none) : s.allocationRequest k [] = (s.dropPacket k).failCmd p.cmd 0x13 0 [] := by
  rw [allocationRequest_eq harr hdst hopen hord hbody, htake]

theorem allocationRequest_taken {i : Inst} {u : State} (htake : s.takeFrame cid = some f) (hinst : s.inst p.from_.inst = some i)
    (hturn : s.frameTurn cid f = some u) : s.allocationRequest k [] =
      (((u.freshFrame cid f).dropPacket k).writeFrame cid f cb (BitVec.ofNat 64 parent) { inst := p.from_.inst, depth := i.depth, limit := i.limit }
        []).sendReply (if f < 4096 then .core cid else .agent (dieOf cid)) p (BitVec.ofNat 64 (mkFref cid f)) false := by
  have hinst' : ((u.freshFrame cid f).dropPacket k).inst p.from_.inst = some i := by
    rw [State.frameTurn_diesOnly hturn]
    exact hinst
  rw [allocationRequest_eq harr hdst hopen hord hbody, htake]
  dsimp only
  rw [hturn]
  dsimp only
  rw [State.allocAt, hinst']

end Arrived

/-- The signals of an allocation's cycle wait with it where one of them would overtake an earlier request of its core (R192). -/
theorem allocationRequest_disordered {j : Nat} {same : List Nat} (hp : s.packet k = some p) (hdst : p.dst = .core cid)
    (hbody : p.body = .alloc cb parent) (htake : s.takeFrame cid = some f) (hj : j ∈ same) (hsig : (s.sigsTo cid f [j]).length = 1)
    (hord : s.inOrder j (k :: (same.filter (fun j => (s.sigsTo cid f [j]).length == 1)).eraseDups) = false) : s.allocationRequest k same = s := by
  have hused : ((same.filter (fun j => (s.sigsTo cid f [j]).length == 1)).eraseDups.all
      (fun j => s.inOrder j (k :: (same.filter (fun j => (s.sigsTo cid f [j]).length == 1)).eraseDups))) = false := by
    rw [List.all_eq_false]
    exact ⟨j, List.mem_eraseDups.mpr (List.mem_filter.mpr ⟨hj, beq_iff_eq.mpr hsig⟩), by rw [hord]; exact Bool.false_ne_true⟩
  rw [State.allocationRequest, hp]
  dsimp only
  rw [hbody, hdst]
  dsimp only
  split
  · rfl
  · rw [htake]
    dsimp only
    rw [hused]
    rfl

/-- A new frame with its header, word 1 and owner, before its slots are armed (R193). -/
def frameStart (s : State) (cid f cb : Nat) (parent : Word) (o : Own) : State :=
  ((s.writeW (s.frameKey cid f) (mkHdr cb true false 0 0)).writeW (s.frameKey cid f + 8) parent).modCore cid (fun c => { c with
    owners := c.owners.set f o, late := c.late.filter (fun x => x.2 != f) })

section NewFrame

variable (s : State) (cid f cb : Nat) (parent : Word) (o : Own) (sigs : List (Nat × Sig))

theorem core_frameStart : (frameStart s cid f cb parent o).core cid =
    { s.core cid with owners := (s.core cid).owners.set f o, late := (s.core cid).late.filter (fun x => x.2 != f) } := by
  rw [frameStart, State.core_modCore]
  simp only [State.core, State.writeW_cores]

theorem mem_frameStart : (frameStart s cid f cb parent o).mem =
    ((s.writeW (s.frameKey cid f) (mkHdr cb true false 0 0)).writeW (s.frameKey cid f + 8) parent).mem := rfl

theorem insts_frameStart : (frameStart s cid f cb parent o).insts = s.insts := rfl

theorem readW_frameStart (a : Nat) : (frameStart s cid f cb parent o).readW a =
    ((s.writeW (s.frameKey cid f) (mkHdr cb true false 0 0)).writeW (s.frameKey cid f + 8) parent).readW a := by
  rw [State.readW, State.readN, mem_frameStart]
  rfl

theorem memWf_frameStart (hw : memWf s.mem = true) : memWf (frameStart s cid f cb parent o).mem = true := by
  rw [mem_frameStart]
  exact memWf_writeW (memWf_writeW hw)

theorem byte_frameStart {a : Nat} (ha : a < s.frameKey cid f ∨ s.frameKey cid f + 16 ≤ a) : (frameStart s cid f cb parent o).byte a = s.byte a :=
  (byte_writeN_other (s := s.writeW (s.frameKey cid f) _) (by omega)).trans (byte_writeN_other (by omega))

theorem writeFrame_eq : s.writeFrame cid f cb parent o sigs =
    armSlots cid f (s.frameKey cid f + 16) (decide (4096 ≤ f)) (State.templateOf (s.part (s.partOf cid)).image cb)
      (fun k => (sigs.filter (fun x => x.1 == k)).map (·.2)) (frameStart s cid f cb parent o) 8 := rfl

theorem writeFrame_only : SlotsOnly (s.frameKey cid f + 16) cid f 0 8 (frameStart s cid f cb parent o) (s.writeFrame cid f cb parent o sigs) := by
  rw [writeFrame_eq]
  exact armSlots_only _ (Nat.zero_le 8)

theorem writeFrame_start {a : Nat} (ha : a + 8 ≤ s.frameKey cid f + 16) :
    (s.writeFrame cid f cb parent o sigs).readW a = (frameStart s cid f cb parent o).readW a :=
  readW_congr fun i _ _ => (writeFrame_only s cid f cb parent o sigs).bytes i (.inl (by omega))

theorem writeFrame_byte {a : Nat} (ha : a < s.frameKey cid f ∨ s.frameKey cid f + 80 ≤ a) :
    (s.writeFrame cid f cb parent o sigs).byte a = s.byte a :=
  ((writeFrame_only s cid f cb parent o sigs).bytes a (by omega)).trans (byte_frameStart s cid f cb parent o (by omega))

theorem writeFrame_owner : ((s.writeFrame cid f cb parent o sigs).core cid).owners.get o f = o := by
  rw [(writeFrame_only s cid f cb parent o sigs).owners, core_frameStart, Tbl.get_set_same]

variable (hw : memWf s.mem = true)
include hw

theorem writeFrame_header : (s.writeFrame cid f cb parent o sigs).readW (s.frameKey cid f) = mkHdr cb true false 0 0 := by
  rw [writeFrame_start s cid f cb parent o sigs (by omega)]
  rw [readW_frameStart, readW_writeW_other (by omega), readW_writeW_same hw]

theorem writeFrame_parent : (s.writeFrame cid f cb parent o sigs).readW (s.frameKey cid f + 8) = parent := by
  rw [writeFrame_start s cid f cb parent o sigs (by omega), readW_frameStart, readW_writeW_same (memWf_writeW hw)]

/-- Slot k of a new frame takes template k of its codeblock (R172, R193). -/
theorem writeFrame_armed {k : Nat} (hk : k < 8) (h : slArmed (State.templateOf (s.part (s.partOf cid)).image cb k) = false ∨
    slCount (State.templateOf (s.part (s.partOf cid)).image cb k) ≠ 0) : (s.writeFrame cid f cb parent o []).readW (s.frameKey cid f + 16 + 8 * k) =
      State.templateOf (s.part (s.partOf cid)).image cb k := by
  rw [writeFrame_eq]
  exact armSlots_armed (memWf_frameStart s cid f cb parent o hw) hk rfl h

/-- A slot whose template is armed with count 0 enters its queue at once (R175). -/
theorem writeFrame_zero {k : Nat} (hk : k < 8) (harm : slArmed (State.templateOf (s.part (s.partOf cid)).image cb k) = true)
    (hcount : slCount (State.templateOf (s.part (s.partOf cid)).image cb k) = 0) (hstop : s.stopping o.inst = false)
    (hmark : (s.core cid).marks.contains (8 * f + k) = false) :
    let w := State.templateOf (s.part (s.partOf cid)).image cb k
    let t := s.writeFrame cid f cb parent o []
    t.readW (s.frameKey cid f + 16 + 8 * k) = mkSlot 0 (slPrio w) (slByte w) false ∧
      { level := slPrio w, f := f, slot := k } ∈ (if 4096 ≤ f then (t.core cid).fill else (t.core cid).ready) := by
  have hstop' : (frameStart s cid f cb parent o).stopping ((frameStart s cid f cb parent o).ownerOf cid f) = false := by
    rw [State.ownerOf, core_frameStart, Tbl.get_set_same, State.stopping, State.inst]
    rw [insts_frameStart]
    exact hstop
  have hmark' : 8 * f + k ∉ ((frameStart s cid f cb parent o).core cid).marks := by
    rw [core_frameStart]
    simpa using hmark
  dsimp only
  rw [writeFrame_eq]
  simpa only [decide_eq_true_eq] using armSlots_zero (base := s.frameKey cid f + 16) (image := decide (4096 ≤ f))
    (word := State.templateOf (s.part (s.partOf cid)).image cb) (sigs := fun k => (([] : List (Nat × Sig)).filter (fun x => x.1 == k)).map (·.2))
    (memWf_frameStart s cid f cb parent o hw) hk rfl harm hcount hstop' hmark'

end NewFrame

end Allocations

/-! ### Armings and frees (R194, R195) -/

section Armings

variable {r : Nat} {w : Word}

theorem armingRequest_held (hp : s.packet k = some p) (hdst : p.dst = .core cid) (hbody : p.body = .arm r w)
    (hheld : s.heldLocal cid (frefName r) = true) : s.armingRequest k [] = s := by
  rw [State.armingRequest, hp]
  dsimp only
  rw [hbody, hdst]
  dsimp only
  rw [hheld, show s.sigsWith (.core cid) r [k] [] = some [] from rfl]
  dsimp only
  rw [Bool.or_true, if_pos rfl]

theorem armingRequest_eq (harr : Claims.arrived s k p) (hdst : p.dst = .core cid) (hopen : Claims.opened s cid) (hord : s.inOrder k [] = true)
    (hbody : p.body = .arm r w) (hlocal : (s.localOf cid (frefName r)).isSome = true) (hheld : s.heldLocal cid (frefName r) = false) :
    s.armingRequest k [] = ((s.passArming cid (s.nameAt cid (frefName r)) (srefSlot r) k p).dropPacket k).armAt cid
      (s.nameAt cid (frefName r)) false p r w [] := by
  obtain ⟨hp, hmay⟩ := harr
  rw [State.armingRequest, hp]
  dsimp only
  rw [hbody, hdst]
  dsimp only
  rw [show s.sigsWith (.core cid) r [k] [] = some [] from rfl]
  dsimp only
  rw [hmay, coreOpen_of_opened hopen, hord, hheld, ← Option.not_isSome, hlocal, gatherAt_nil]
  rfl

/-- An arming of an allocated frame writes the slot word (R195). -/
theorem armAt_allocated {t : State} {f : Nat} (h : hdrAlloc (t.readW (t.frameKey cid f)) = true) :
    t.armAt cid f false p r w [] = t.armSlot cid f (srefSlot r) (t.slotKey cid f (srefSlot r)) false w [] := by
  rw [State.armAt, h, if_pos rfl]

/-- An arming of a frame that is not allocated is a fault of its issuer (R388). -/
theorem armAt_freed {t : State} {f : Nat} (h : hdrAlloc (t.readW (t.frameKey cid f)) = false) :
    t.armAt cid f false p r w [] = t.faultRequest p.from_ 0x12 := by
  rw [State.armAt, h]
  rfl

end Armings

section Frees

variable {f : Nat} {t : State}

theorem freeRequest_held (hp : s.packet k = some p) (hdst : p.dst = .core cid) (hbody : p.body = .free)
    (hheld : s.heldLocal cid (frefName p.target) = true) : s.freeRequest k = s := by
  rw [State.freeRequest, hp]
  dsimp only
  rw [hbody, hdst]
  dsimp only
  rw [hheld, Bool.not_true, Bool.and_false]
  rfl

theorem freeRequest_eq (harr : Claims.arrived s k p) (hdst : p.dst = .core cid) (hopen : Claims.opened s cid) (hord : s.inOrder k [] = true)
    (hbody : p.body = .free) (hheld : s.heldLocal cid (frefName p.target) = false) :
    s.freeRequest k = (s.dropPacket k).freeAt cid (s.nameAt cid (frefName p.target)) p := by
  obtain ⟨hp, hmay⟩ := harr
  rw [State.freeRequest, hp]
  dsimp only
  rw [hbody, hdst]
  dsimp only
  rw [hmay, coreOpen_of_opened hopen, hord, hheld]
  rfl

theorem freeAt_refused (h : hdrAlloc (t.readW (t.frameKey cid f)) = false ∨ hdrAsync (t.readW (t.frameKey cid f)) ≠ 0) :
    t.freeAt cid f p = t.faultRequest p.from_ 0x12 := by
  rw [State.freeAt]
  exact if_pos h

variable (halloc : hdrAlloc (t.readW (t.frameKey cid f)) = true) (hasync : hdrAsync (t.readW (t.frameKey cid f)) = 0)
include halloc hasync

/-- A frame in one place is cleared there. -/
theorem freeAt_one (h : f < 4096 ∨ t.frameKey cid f = t.spillKey cid (f - 4096)) :
    t.freeAt cid f p = (t.clearFrame (t.frameKey cid f)).discardFreed cid := by
  rw [State.freeAt, if_neg (by rw [halloc, hasync]; simp)]
  split
  · rfl
  · rw [if_pos (h.resolve_left ‹_›)]

/-- With a resident copy its image is cleared too, and the copy's index waits (R194). -/
theorem freeAt_copy {j : Nat} (hf : 4096 ≤ f) (hkey : t.frameKey cid f ≠ t.spillKey cid (f - 4096)) (hres : t.residentOf cid (f - 4096) = some j) :
    t.freeAt cid f p = (((t.clearFrame (t.frameKey cid f)).clearFrame (t.spillKey cid (f - 4096))).modCore cid (fun c => { c with
      late := (j, f) :: c.late })).discardFreed cid := by
  rw [State.freeAt, if_neg (by rw [halloc, hasync]; simp), if_neg (by omega), if_neg hkey, hres]
  rfl

end Frees

theorem clearFrame_spec (s : State) (key : Nat) (hw : memWf s.mem = true) : let t := s.clearFrame key
    hdrAlloc (t.readW key) = false ∧ hdrCb (t.readW key) = hdrCb (s.readW key) ∧ (∀ j, j < 8 → t.readW (key + 16 + 8 * j) = 0) ∧
      t.readW (key + 8) = s.readW (key + 8) ∧ ∀ a, (a < key ∨ key + 80 ≤ a) → t.byte a = s.byte a := by
  have hbelow {a : Nat} (ha : a + 8 ≤ key + 16) : (s.clearFrame key).readW a =
      (s.writeW key (mkHdr (hdrCb (s.readW key)) false (hdrCopy (s.readW key)) (hdrAsync (s.readW key)) (hdrHome (s.readW key)))).readW a := by
    rw [clearFrame_eq]
    exact readW_congr fun i _ _ => byte_clearSlots 8 (by omega)
  have hcb : hdrCb (s.readW key) % 2 ^ 16 = hdrCb (s.readW key) := Nat.mod_mod _ _
  refine ⟨?_, ?_, fun j hj => ?_, ?_, fun a ha => ?_⟩
  · rw [hbelow (by omega), readW_writeW_same hw, hdrAlloc_mkHdr]
  · rw [hbelow (by omega), readW_writeW_same hw, hdrCb_mkHdr, hcb]
  · rw [clearFrame_eq, readW_clearSlots (memWf_writeW hw) 8 hj]
  · rw [hbelow (by omega), readW_writeW_other (by omega)]
  · rw [clearFrame_eq, byte_clearSlots 8 (by omega)]
    exact byte_writeN_other (by omega)

/-! ### Operand words (R199) -/

section Operands

variable (harr : Claims.arrived s k p) (hdst : p.dst = .core cid) (hopen : Claims.opened s cid)
include harr hdst hopen

theorem stfRequest_eq {u : Nat} {v : Word} (hbody : p.body = .stf u v) :
    s.stfRequest k = (s.dropPacket k).stfAt (writerOf k p) cid (frefName p.target) u v := by
  obtain ⟨hp, hmay⟩ := harr
  rw [State.stfRequest, hp]
  dsimp only
  rw [hbody, hdst]
  dsimp only
  rw [hmay, coreOpen_of_opened hopen]
  rfl

theorem ldfRequest_eq {u : Nat} (hbody : p.body = .ldf u) (hord : s.inOrder k [] = true) :
    s.ldfRequest k = (s.dropPacket k).ldfAt k cid (frefName p.target) u (.core cid) p := by
  obtain ⟨hp, hmay⟩ := harr
  rw [State.ldfRequest, hp]
  dsimp only
  rw [hbody, hdst]
  dsimp only
  rw [hmay, coreOpen_of_opened hopen, hord]
  rfl

end Operands

theorem ldfAt_clean {t : State} {f u : Nat} {src : Loc} (h : t.poisoned (t.frameKey cid f + 8 * u) 8 = false) : t.ldfAt k cid f u src p =
    (t.saw (readerOf k p) (t.frameKey cid f + 8 * u) 8).sendReply src p (t.seenW (readerOf k p) (t.frameKey cid f + 8 * u)) false := by
  rw [State.ldfAt, h]
  rfl

theorem ldfAt_poisoned {t : State} {f u : Nat} {src : Loc} (h : t.poisoned (t.frameKey cid f + 8 * u) 8 = true) :
    t.ldfAt k cid f u src p = t.failCmd p.cmd 0x21 0 [] := by
  rw [State.ldfAt, h, if_pos rfl]

/-! ### Replies (R219) -/

section Replies

/-- What is kept for a handler leaves all but what reads may pass. -/
theorem keepFor_eq (s : State) (cmd : Nat) (q : Older → Bool) : s.keepFor cmd q = { s with older := (s.keepFor cmd q).older } := by
  unfold State.keepFor
  split <;> rfl

theorem frameKey_keepFor (s : State) (cmd : Nat) (q : Older → Bool) (cid f : Nat) : (s.keepFor cmd q).frameKey cid f = s.frameKey cid f := by
  rw [keepFor_eq]
  rfl

variable {v : Word}

theorem replyArrival_held (hp : s.packet k = some p) (hdst : p.dst = .core cid) (hbody : p.body = .reply v false) (hheld : s.replyHeld p = true) :
    s.replyArrival k [] = s := by
  rw [State.replyArrival, hp]
  dsimp only
  rw [hbody, hdst]
  dsimp only
  rw [hheld, Bool.not_true, Bool.and_false]
  rfl

/-- A reply's word, written into the operand word of its frame (R219). -/
theorem writeReply_clean (t : State) (fref ow : Nat) : t.writeReply cid fref ow v false =
    if ow = 0 then t else t.writeW (t.frameKey cid (frefName fref) + 8 * ow) v := rfl

theorem replyArrival_eq (harr : Claims.arrived s k p) (hdst : p.dst = .core cid) (hopen : Claims.opened s cid) (hbody : p.body = .reply v false)
    (hheld : s.replyHeld p = false) : s.replyArrival k [] =
      (State.completeAt (if p.ret.ow = 0 then (s.keepFor p.cmd (fun e => e.bound.contains (.cover k))).dropPacket k else
        ((s.keepFor p.cmd (fun e => e.bound.contains (.cover k))).dropPacket k).writeW
          (s.frameKey cid (frefName p.from_.fref) + 8 * p.ret.ow) v) k cid p.from_ p.ret []).finishCmd p.cmd 0 1 [] := by
  obtain ⟨hp, hmay⟩ := harr
  have hkey : ((s.keepFor p.cmd (fun e => e.bound.contains (.cover k))).dropPacket k).frameKey cid (frefName p.from_.fref) =
      s.frameKey cid (frefName p.from_.fref) := frameKey_keepFor _ _ _ _ _
  rw [State.replyArrival, hp]
  dsimp only
  rw [hbody, hdst]
  dsimp only
  rw [hmay, coreOpen_of_opened hopen, hheld, writeReply_clean, hkey]
  rfl

theorem completeAt_none {t : State} {i : Issuer} {r : Ret} (h : r.slot = none) : t.completeAt k cid i r [] = t := by
  rw [State.completeAt, h]

/-- The signal to a slot of another core is sent (R218). -/
theorem completeAt_remote {t : State} {i : Issuer} {r : Ret} {x : Nat} (h : r.slot = some x) (hcore : frefCore x ≠ cid) :
    t.completeAt k cid i r [] = (t.hand (.cover k) (.cover t.seq)).sendSignal (.core cid) i x 1 r.bytes 1 := by
  rw [State.completeAt, h]
  exact if_neg fun hx => hcore hx.1

theorem replyHeld_iff : s.replyHeld p = true ↔
    4096 ≤ frefName p.from_.fref ∧ s.inWriteBack p.from_.cid (frefName p.from_.fref - 4096) = true := by
  rw [State.replyHeld, Bool.and_eq_true, decide_eq_true_eq]

end Replies

/-! ### Spilled frames (R183, R186, R330) -/

section Spilled

variable {d : Nat} (harr : Claims.arrived s k p) (hdst : p.dst = .agent d) (hname : 4096 ≤ frefName p.target)
  (hback : s.inWriteBack (frefCore p.target) (frefName p.target - 4096) = false) (hopen : Claims.opened s (frefCore p.target))
include harr hdst hname hback hopen

theorem spilledRequestApply_forwarded (hres : (s.residentOf (frefCore p.target) (frefName p.target - 4096)).isSome = true) :
    s.spilledRequestApply k = s.setPacket k { p with src := .agent d, dst := .core (frefCore p.target) } := by
  obtain ⟨hp, hmay⟩ := harr
  obtain ⟨hdead, hsaved⟩ := hopen
  rw [State.spilledRequestApply, hp]
  dsimp only
  rw [hdst]
  dsimp only
  rw [hmay, hback, hdead, hsaved, hres, decide_eq_false (by omega)]
  rfl

theorem spilledRequestApply_image (hres : (s.residentOf (frefCore p.target) (frefName p.target - 4096)).isSome = false) :
    s.spilledRequestApply k = match s.imageRead (frefCore p.target) (frefName p.target - 4096) with
      | none => s
      | some t => ((t.gatherRequest k (frefCore p.target) (frefName p.target) p).dropPacket k).applyFrameRequest k (frefCore p.target)
          (frefName p.target) true (.agent d) p := by
  obtain ⟨hp, hmay⟩ := harr
  obtain ⟨hdead, hsaved⟩ := hopen
  rw [State.spilledRequestApply, hp]
  dsimp only
  rw [hdst]
  dsimp only
  rw [hmay, hback, hdead, hsaved, ← Option.not_isSome, hres, decide_eq_false (by omega)]
  rfl

end Spilled

/-- Settles O48: what a slot unit and a die agent do with each request. -/
theorem frameRequests : Obligations.FrameRequests := by
  refine ⟨?signals, fun s cid f => ⟨nameAt_spilled, nameAt_local, nameAt_copy⟩,
    fun s k p hp => ⟨fun _ _ _ _ _ => takePkt_signal hp, fun _ _ => takePkt_reply hp⟩, fun _ _ _ => rfl,
    fun s cmd q => ⟨keepFor_unlisted q, keepFor_listed q⟩, fun _ _ _ _ _ _ _ _ _ _ _ => sigsOf_one, ?alloc,
    fun s cid f => ⟨frameTurn_local, frameTurn_spilled⟩, ?disordered,
    ?frame, ?arm, fun _ _ _ _ _ _ _ hne => armSlot_armed (.inr hne), ?free, clearFrame_spec, ?operand, ?reply, ?spilled⟩
  case signals =>
    intro s cid f k ks sigs hne hopen hk hlocal hsigs
    exact ⟨fun hheld => next_congr (signalArrival_held hsigs hheld),
      fun hheld => next_congr (signalArrival_eq hne hopen hk hlocal hsigs hheld)⟩
  case alloc =>
    intro s k cid cb parent p harr hdst hopen hord hbody
    exact ⟨fun f htake hturn => next_congr (allocationRequest_waits harr hdst hopen hord hbody htake hturn),
      fun f i u htake hinst hturn => next_congr (allocationRequest_taken harr hdst hopen hord hbody htake hinst hturn),
      fun htake => next_congr (allocationRequest_full harr hdst hopen hord hbody htake)⟩
  case disordered =>
    exact fun s k cid cb parent f j p same harr hdst hbody htake hj hsig hord =>
      next_congr (allocationRequest_disordered harr.1 hdst hbody htake hj hsig hord)
  case frame =>
    intro s cid f cb parent o sigs hw t key
    refine ⟨writeFrame_header s cid f cb parent o sigs hw, writeFrame_parent s cid f cb parent o sigs hw,
      writeFrame_owner s cid f cb parent o sigs, fun a => writeFrame_byte s cid f cb parent o sigs, fun hsigs k hk => ?_⟩
    subst hsigs
    exact ⟨writeFrame_armed s cid f cb parent o hw hk, writeFrame_zero s cid f cb parent o hw hk⟩
  case arm =>
    intro s k cid r w p harr hdst hopen hord hbody hlocal f key
    refine ⟨fun hheld => next_congr (armingRequest_held harr.1 hdst hbody hheld), fun hheld halloc => next_congr ?_,
      fun hheld halloc => next_congr ?_⟩
    · exact (armingRequest_eq harr hdst hopen hord hbody hlocal hheld).trans (armAt_allocated halloc)
    · exact (armingRequest_eq harr hdst hopen hord hbody hlocal hheld).trans (armAt_freed halloc)
  case free =>
    intro s k cid p harr hdst hopen hord hbody f key img h
    refine ⟨fun hheld => next_congr (freeRequest_held harr.1 hdst hbody hheld), fun hheld hrefused => next_congr ?_,
      fun hheld halloc hasync => ⟨fun hone => next_congr ?_, fun hf hkey j hres => next_congr ?_⟩⟩
    · rw [freeRequest_eq harr hdst hopen hord hbody hheld, freeAt_refused]
      rwa [frameKey_dropPacket, readW_dropPacket]
    · rw [freeRequest_eq harr hdst hopen hord hbody hheld, freeAt_one, frameKey_dropPacket]
      · rwa [frameKey_dropPacket, readW_dropPacket]
      · rwa [frameKey_dropPacket, readW_dropPacket]
      · rwa [frameKey_dropPacket, spillKey_dropPacket]
    · rw [freeRequest_eq harr hdst hopen hord hbody hheld, freeAt_copy _ _ hf _ ((residentOf_dropPacket s k _ _).trans hres),
        frameKey_dropPacket, spillKey_dropPacket]
      · rwa [frameKey_dropPacket, readW_dropPacket]
      · rwa [frameKey_dropPacket, readW_dropPacket]
      · rwa [frameKey_dropPacket, spillKey_dropPacket]
  case operand =>
    intro s k cid u v p harr hdst hopen key
    refine ⟨fun hbody => next_congr (stfRequest_eq harr hdst hopen hbody), fun hbody hord hclean => next_congr ?_,
      fun hbody hord hpoison => next_congr ?_⟩
    · rw [ldfRequest_eq harr hdst hopen hbody hord, ldfAt_clean, frameKey_dropPacket]
      · rfl
      · rwa [frameKey_dropPacket, poisoned_dropPacket]
    · rw [ldfRequest_eq harr hdst hopen hbody hord, ldfAt_poisoned]
      rwa [frameKey_dropPacket, poisoned_dropPacket]
  case reply =>
    intro s k cid v p harr hdst hopen hbody key u w held
    have hfree (h : ¬held) : s.replyHeld p = false := Bool.eq_false_iff.mpr fun hr => h (replyHeld_iff.mp hr)
    refine ⟨fun h => next_congr (replyArrival_held harr.1 hdst hbody (replyHeld_iff.mpr h)), fun h hslot => next_congr ?_,
      fun x h hslot hcore => next_congr ?_⟩
    · rw [replyArrival_eq harr hdst hopen hbody (hfree h), completeAt_none hslot]
    · rw [replyArrival_eq harr hdst hopen hbody (hfree h), completeAt_remote hslot hcore]
  case spilled =>
    intro s k d p harr hdst hname cid i hback hopen
    refine ⟨fun hres => next_congr (spilledRequestApply_forwarded harr hdst hname hback hopen hres), fun hres => ⟨fun hread =>
      next_congr ?_, fun t hread => ?_⟩⟩
    · rw [spilledRequestApply_image harr hdst hname hback hopen hres, hread]
    · have hdies : t = { s with dies := t.dies } := State.imageRead_diesOnly hread
      refine ⟨(congrArg State.mem hdies :), (congrArg State.cores hdies :), (congrArg State.net hdies :), (congrArg State.older hdies :), next_congr ?_⟩
      rw [spilledRequestApply_image harr hdst hname hback hopen hres, hread]

end Sys2Proof.Proofs.FrameRequests
end

section
/-! PROOFS. Dispatch, fills and write-backs (O49, R37, R41, R179 to R187). -/

namespace Sys2Proof.Proofs.Firings

open Sys2Proof.Machine Sys2Proof.Proofs.Words Sys2Proof.Proofs.Lanes Sys2Proof.Proofs.Slots

variable {s t : State} {cid : Nat}

/-! ### What stays where a core's queues change -/

theorem byte_modCore (s : State) (cid : Nat) (g : Core → Core) (a : Nat) : (s.modCore cid g).byte a = s.byte a := rfl

theorem mem_modCore (s : State) (cid : Nat) (g : Core → Core) : (s.modCore cid g).mem = s.mem := rfl

theorem modCore_modCore (s : State) (cid : Nat) (g h : Core → Core) : (s.modCore cid g).modCore cid h = s.modCore cid (fun c => h (g c)) := by
  rw [State.modCore, State.core_modCore, State.modCore, State.setCore, State.setCore, Tbl.set_set]
  rfl

/-- The name of a frame leads to the same bytes while memory, the partitions and a core's firings and write-backs stay (R183, R186). -/
theorem frameKey_congr (hmem : t.mem = s.mem) (hparts : t.parts = s.parts) (hmgmt : t.mgmt = s.mgmt) (hwback : (t.core cid).wback = (s.core cid).wback)
    (h0 : (t.core cid).ctx0 = (s.core cid).ctx0) (h1 : (t.core cid).ctx1 = (s.core cid).ctx1) (f : Nat) : t.frameKey cid f = s.frameKey cid f := by
  simp only [State.frameKey, State.localKey, State.residentOf, State.spillKey, State.carveBase, State.frames, State.partOf, State.liveRegion,
    State.overflowPtr, State.shares, State.part, State.readW, State.readN, hmem, hparts, hmgmt, hwback, h0, h1]

/-! ### Entries of freed frames (R194) -/

theorem purge_subset (live : Ready → Bool) : ∀ (l : List Ready) (seen : List Nat), purge live seen l ⊆ l
  | [], _ => List.Subset.refl _
  | e :: l, seen => by
    rw [purge]
    split
    · exact List.cons_subset_cons e (purge_subset live l _)
    · exact List.Subset.trans (purge_subset live l _) (List.subset_cons_self e l)

theorem mem_purge {live : Ready → Bool} {e : Ready} (hlive : live e = true) : ∀ (l : List Ready) (seen : List Nat), e ∈ l → e ∈ purge live seen l
  | a :: l, seen, h => by
    rw [purge]
    split
    case isTrue =>
      rcases List.mem_cons.mp h with rfl | h
      · exact List.mem_cons_self
      · exact List.mem_cons_of_mem _ (mem_purge hlive l _ h)
    case isFalse hdead =>
      rcases List.mem_cons.mp h with rfl | h
      · simp [hlive] at hdead
      · exact mem_purge hlive l _ h

theorem purge_live {live : Ready → Bool} : ∀ (l : List Ready) (seen : List Nat), (∀ e ∈ l, live e = true) → purge live seen l = l
  | [], _, _ => rfl
  | e :: l, seen, h => by
    rw [purge, h e List.mem_cons_self, Bool.true_or, if_pos rfl, purge_live l _ fun a ha => h a (List.mem_cons_of_mem _ ha)]

/-- Of the entries of different firings that a purge leaves, less others that are not live, the first of a level is live. -/
theorem purge_head_live {live other : Ready → Bool} (hother : ∀ e, live e = true → other e = true) : ∀ (l : List Ready) (seen : List Nat) (n : Nat)
    (e : Ready), l.Nodup → n ∉ seen → levelHead (l.filter (fun x => (purge live seen l).contains x && other x)) n = some e → live e = true
  | a :: l, seen, n, e, hnodup, hseen, hhead => by
    obtain ⟨hal, hnodup⟩ := List.nodup_cons.mp hnodup
    rw [purge, levelHead] at hhead
    split at hhead
    case isTrue hkeep =>
      have htail : l.filter (fun x => (a :: purge live (a.level :: seen) l).contains x && other x) =
          l.filter (fun x => (purge live (a.level :: seen) l).contains x && other x) :=
        List.filter_congr fun x hx => by
          have hxa : (x == a) = false := beq_eq_false_iff_ne.mpr fun h => hal (h ▸ hx)
          rw [List.contains_cons, hxa, Bool.false_or]
      by_cases hlevel : a.level = n
      · have hlive : live a = true := by
          rw [Bool.or_eq_true, List.contains_iff_mem] at hkeep
          exact hkeep.resolve_right (hlevel ▸ hseen)
        rw [List.filter_cons_of_pos (by simp [hother a hlive]), List.find?_cons_of_pos (by simp [hlevel])] at hhead
        exact Option.some.inj hhead ▸ hlive
      · refine purge_head_live hother l (a.level :: seen) n e hnodup (by simp [Ne.symm hlevel, hseen]) ?_
        rw [levelHead, ← htail]
        rw [List.filter_cons] at hhead
        split at hhead
        · rwa [List.find?_cons_of_neg (by simp [hlevel])] at hhead
        · exact hhead
    case isFalse =>
      have hgone : (purge live seen l).contains a = false := by
        rw [List.contains_eq_mem, decide_eq_false]
        exact fun h => hal (purge_subset live l seen h)
      rw [List.filter_cons_of_neg (by rw [hgone]; simp)] at hhead
      exact purge_head_live hother l seen n e hnodup hseen hhead

section Discard

theorem core_forget (s : State) (cid : Nat) (gone : List Ready) : (s.forget cid gone).core cid = { s.core cid with
    ready := (s.core cid).ready.filter (fun e => !(gone.contains e))
    fill := (s.core cid).fill.filter (fun e => !(gone.contains e))
    marks := (s.core cid).marks.filter (fun m => !(gone.any (fun e => 8 * e.f + e.slot == m))) } := by
  cases gone with
  | nil => simp [State.forget]
  | cons e l => rw [State.forget, List.isEmpty_cons, if_neg Bool.false_ne_true, State.core_modCore]

/-- Nothing but the queues and marks of a core changes where entries leave it. -/
theorem forget_eq (s : State) (cid : Nat) (gone : List Ready) : ∃ c, s.forget cid gone = s ∨ s.forget cid gone = s.setCore cid c := by
  unfold State.forget
  split
  · exact ⟨default, .inl rfl⟩
  · exact ⟨_, .inr rfl⟩

/-- The entries of freed frames that stand first (R194). -/
def goneOf (s : State) (cid : Nat) : List Ready :=
  (s.readyOf cid).filter (fun e => !((purge (s.entryLive cid) [] (s.readyOf cid)).contains e)) ++
    (s.core cid).fill.takeWhile (fun e => !(s.entryLive cid e))

theorem discardFreed_closed (h : (s.core cid).dead = true ∨ (s.core cid).saved = true) : s.discardFreed cid = s := by
  rw [State.discardFreed]
  exact if_pos (Bool.or_eq_true_iff.mpr h)

theorem discardFreed_opened (h : Claims.opened s cid) : s.discardFreed cid = s.forget cid (goneOf s cid) := by
  obtain ⟨hdead, hsaved⟩ := h
  rw [State.discardFreed, hdead, hsaved]
  rfl

theorem opened_or (s : State) (cid : Nat) : ((s.core cid).dead = true ∨ (s.core cid).saved = true) ∨ Claims.opened s cid := by
  rw [Claims.opened]
  cases (s.core cid).dead <;> cases (s.core cid).saved <;> simp

/-- A discard leaves all but the queues and marks of its core. -/
theorem discardFreed_eq (s : State) (cid : Nat) : ∃ c, s.discardFreed cid = s ∨ s.discardFreed cid = s.setCore cid c := by
  rcases opened_or s cid with h | h
  · exact ⟨default, .inl (discardFreed_closed h)⟩
  · rw [discardFreed_opened h]
    exact forget_eq s cid _

theorem discardFreed_core (s : State) (cid : Nat) : ∃ ready fill marks, (s.discardFreed cid).core cid =
    { s.core cid with ready := ready, fill := fill, marks := marks } := by
  rcases opened_or s cid with h | h
  · rw [discardFreed_closed h]
    exact ⟨_, _, _, rfl⟩
  · rw [discardFreed_opened h, core_forget]
    exact ⟨_, _, _, rfl⟩

theorem live_not_gone {e : Ready} (hlive : s.entryLive cid e = true) : (goneOf s cid).contains e = false := by
  rw [List.contains_eq_mem, decide_eq_false_iff_not, goneOf, List.mem_append, List.mem_filter]
  rintro (⟨hmem, hpurge⟩ | hfill)
  · have := mem_purge hlive _ [] hmem
    rw [← List.contains_iff_mem] at this
    rw [this] at hpurge
    cases hpurge
  · have := List.mem_takeWhile_imp hfill
    rw [hlive] at this
    cases this

/-- A queue of live entries stays. -/
theorem discardFreed_live (h : ∀ r ∈ (s.core cid).ready ++ (s.core cid).fill, s.entryLive cid r = true) : s.discardFreed cid = s := by
  rcases opened_or s cid with hclosed | hopen
  · exact discardFreed_closed hclosed
  · have hready : ∀ e ∈ s.readyOf cid, s.entryLive cid e = true := fun e he =>
      h e (List.mem_append_left _ (List.mem_of_mem_filter he))
    have hgone : goneOf s cid = [] := by
      rw [List.eq_nil_iff_forall_not_mem]
      intro e he
      have hlive : s.entryLive cid e = true := by
        rcases List.mem_append.mp he with he | he
        · exact hready e (List.mem_of_mem_filter he)
        · exact h e (List.mem_append_right _ (List.takeWhile_subset _ he))
      have := live_not_gone hlive
      rw [List.contains_eq_mem, decide_eq_false_iff_not] at this
      exact this he
    rw [discardFreed_opened hopen, hgone]
    rfl

theorem mem_discardFreed {e : Ready} (hmem : e ∈ (s.core cid).ready ++ (s.core cid).fill) (hlive : s.entryLive cid e = true) :
    e ∈ ((s.discardFreed cid).core cid).ready ++ ((s.discardFreed cid).core cid).fill := by
  rcases opened_or s cid with h | h
  · rwa [discardFreed_closed h]
  · have hstay : (!(goneOf s cid).contains e) = true := by rw [live_not_gone hlive]; rfl
    rw [discardFreed_opened h, core_forget]
    exact (List.mem_append.mp hmem).elim (fun hr => List.mem_append_left _ (List.mem_filter.mpr ⟨hr, hstay⟩))
      (fun hf => List.mem_append_right _ (List.mem_filter.mpr ⟨hf, hstay⟩))

/-- The first entry of a level that a discard leaves is live (R194). -/
theorem discardFreed_head_live (hnodup : (s.core cid).ready.Nodup) (hopen : Claims.opened s cid) {n : Nat} {e : Ready}
    (hhead : levelHead ((s.discardFreed cid).readyOf cid) n = some e) : s.entryLive cid e = true := by
  have hother : ∀ e, s.entryLive cid e = true → (!((s.core cid).fill.takeWhile (fun e => !(s.entryLive cid e))).contains e) = true := by
    intro e hlive
    rw [Bool.not_eq_true', List.contains_eq_mem, decide_eq_false_iff_not]
    intro he
    have := List.mem_takeWhile_imp he
    rw [hlive] at this
    cases this
  have hleft : (s.discardFreed cid).readyOf cid = (s.readyOf cid).filter (fun x =>
      (purge (s.entryLive cid) [] (s.readyOf cid)).contains x && !((s.core cid).fill.takeWhile (fun e => !(s.entryLive cid e))).contains x) := by
    have howner (f : Nat) : (s.discardFreed cid).stopping ((s.discardFreed cid).ownerOf cid f) = s.stopping (s.ownerOf cid f) := by
      have hinsts : (s.discardFreed cid).insts = s.insts := by obtain ⟨c, h | h⟩ := discardFreed_eq s cid <;> rw [h]; rfl
      obtain ⟨r, l, m, hcore⟩ := discardFreed_core s cid
      rw [State.ownerOf, hcore, State.stopping, State.inst, hinsts]
      rfl
    rw [State.readyOf]
    simp only [howner]
    rw [discardFreed_opened hopen, core_forget]
    dsimp only
    rw [List.filter_filter, State.readyOf, List.filter_filter]
    refine List.filter_congr fun x hx => ?_
    cases hstop : s.stopping (s.ownerOf cid x.f) with
    | true => rw [Bool.not_true, Bool.false_and, Bool.and_false]
    | false =>
      have hin : x ∈ s.readyOf cid := List.mem_filter.mpr ⟨hx, by rw [hstop]; rfl⟩
      rw [Bool.not_false, Bool.true_and, Bool.and_true, goneOf]
      have hgone : ((s.readyOf cid).filter (fun e => !((purge (s.entryLive cid) [] (s.readyOf cid)).contains e))).contains x =
          !((purge (s.entryLive cid) [] (s.readyOf cid)).contains x) := by
        rw [List.contains_eq_mem, Bool.eq_iff_iff, decide_eq_true_eq, List.mem_filter]
        exact and_iff_right hin
      rw [List.contains_append, hgone, Bool.not_or, Bool.not_not]
      rfl
  rw [hleft] at hhead
  exact purge_head_live hother _ [] n e (hnodup.filter _) List.not_mem_nil hhead

end Discard

/-! ### The entry that a dispatch takes (R181) -/

theorem topLevel_eq_some {l : List Ready} {g : Nat} (hg : ∃ r ∈ l, r.level = g) : ∀ n, g < n → (∀ r ∈ l, r.level < n → r.level ≤ g) →
    topLevel l n = some g
  | n + 1, hlt, htop => by
    rw [topLevel]
    split
    case isTrue hany =>
      obtain ⟨r, hr, hlevel⟩ := List.any_eq_true.mp hany
      have := htop r hr
      rw [beq_iff_eq] at hlevel
      rw [show n = g by omega]
    case isFalse hnone =>
      obtain ⟨r, hr, hlevel⟩ := hg
      have hne : n ≠ g := fun h => hnone (List.any_eq_true.mpr ⟨r, hr, beq_iff_eq.mpr (hlevel.trans h.symm)⟩)
      exact topLevel_eq_some ⟨r, hr, hlevel⟩ n (by omega) fun x hx hxn => htop x hx (by omega)

theorem topLevel_eq_none {l : List Ready} : ∀ n, (∀ r ∈ l, n ≤ r.level) → topLevel l n = none
  | 0, _ => rfl
  | n + 1, h => by
    rw [topLevel, if_neg, topLevel_eq_none n fun r hr => (Nat.le_succ n).trans (h r hr)]
    intro hany
    obtain ⟨r, hr, hlevel⟩ := List.any_eq_true.mp hany
    have := h r hr
    rw [beq_iff_eq] at hlevel
    omega

theorem topLevel_ne_none {l : List Ready} {r : Ready} (hr : r ∈ l) : ∀ n, r.level < n → ∃ g, topLevel l n = some g
  | n + 1, h => by
    rw [topLevel]
    split
    · exact ⟨_, rfl⟩
    case isFalse hnone =>
      have hne : r.level ≠ n := fun h => hnone (List.any_eq_true.mpr ⟨r, hr, beq_iff_eq.mpr h⟩)
      exact topLevel_ne_none hr n (by omega)

section Choose

variable {l : List Ready} {starve h : Nat} {e : Ready} (hh : h < 8) (hsome : ∃ r ∈ l, r.level = h) (htop : ∀ r ∈ l, r.level ≤ h)
include hh hsome htop

/-- The highest level alone. -/
theorem choose_alone (he : l.find? (fun r => r.level == h) = some e) (hall : ∀ r ∈ l, r.level = h) : choose l starve = some (e, 0) := by
  rw [choose, topLevel_eq_some hsome 8 hh fun r hr _ => htop r hr]
  dsimp only
  rw [topLevel_eq_none h fun r hr => (hall r hr).ge]
  dsimp only
  rw [levelHead, he]
  rfl

/-- The highest level over another, which starves. -/
theorem choose_over (he : l.find? (fun r => r.level == h) = some e) (hother : ∃ r ∈ l, r.level ≠ h) (hstarve : starve ≠ 64) :
    choose l starve = some (e, starve + 1) := by
  obtain ⟨r, hr, hne⟩ := hother
  obtain ⟨g, hg⟩ := topLevel_ne_none hr h (Nat.lt_of_le_of_ne (htop r hr) hne)
  rw [choose, topLevel_eq_some hsome 8 hh fun r hr _ => htop r hr]
  dsimp only
  rw [hg]
  dsimp only
  rw [if_neg hstarve, levelHead, he]
  rfl

/-- The level below, which has starved for 64 dispatches. -/
theorem choose_starved {g : Nat} (hg : ∃ r ∈ l, r.level = g) (hlt : g < h) (hbelow : ∀ r ∈ l, r.level ≤ g ∨ r.level = h)
    (he : l.find? (fun r => r.level == g) = some e) : choose l 64 = some (e, 0) := by
  rw [choose, topLevel_eq_some hsome 8 hh fun r hr _ => htop r hr]
  dsimp only
  rw [topLevel_eq_some hg h hlt fun r hr hrh => (hbelow r hr).resolve_right (by omega)]
  dsimp only
  rw [if_pos rfl, levelHead, he]
  rfl

end Choose

/-! ### Dispatch (R37, R41, R180) -/

theorem settlePace_settled (h : s.paceSettled cid = true) : s.settlePace cid = s := by
  rw [State.paceSettled, Option.isNone_iff_eq_none] at h
  rw [State.settlePace, h]

theorem dispatch_stopped {x : Nat} (hpace : s.paceSettled cid = true) (h : s.stopped cid = true ∨ (s.core cid).saved = true) :
    s.dispatch cid x = s.discardFreed cid := by
  have hmay : (s.discardFreed cid).mayDispatch cid = false := by
    obtain ⟨r, l, m, hcore⟩ := discardFreed_core s cid
    have hstop : (s.discardFreed cid).stopped cid = s.stopped cid := by
      obtain ⟨c, heq | heq⟩ := discardFreed_eq s cid <;> rw [heq]
      rfl
    rw [State.mayDispatch, hstop, hcore]
    dsimp only
    rcases h with h | h <;> simp [h]
  rw [State.dispatch, settlePace_settled hpace]
  rw [hmay]
  rfl

/-- The mark of the slot that a dispatch takes is cleared, and the slot is queued anew where it is ripe (R180). -/
theorem unmark_eq {f k : Nat} {key : Nat} (hkey : (s.modCore cid (fun c => { c with marks := c.marks.filter (fun m => m != 8 * f + k) })).slotKey
    cid f k = key) : s.unmark cid f k =
      let t := s.modCore cid (fun c => { c with marks := c.marks.filter (fun m => m != 8 * f + k) })
      if slArmed (s.readW key) = true ∧ slCount (s.readW key) = 0 then t.reachZero cid f k key false else t := by
  rw [State.unmark]
  dsimp only
  rw [hkey]
  rfl

section Taken

variable {x j st : Nat} {e : Ready}

/-- What a dispatch takes off the queue before the slot is looked at. -/
def taken (s : State) (cid : Nat) (e : Ready) (st : Nat) : State :=
  (s.hand (.entry cid e.f e.slot) (.firing s.seq)).modCore cid (fun c => { c with
    ready := c.ready.erase e, starve := st, marks := c.marks.filter (fun m => m != 8 * e.f + e.slot) })

theorem core_taken (s : State) (cid : Nat) (e : Ready) (st : Nat) : (taken s cid e st).core cid = { s.core cid with
    ready := (s.core cid).ready.erase e, starve := st, marks := (s.core cid).marks.filter (fun m => m != 8 * e.f + e.slot) } :=
  State.core_modCore ..

theorem slotKey_taken (s : State) (cid : Nat) (e : Ready) (st : Nat) : (taken s cid e st).slotKey cid e.f e.slot = s.slotKey cid e.f e.slot := by
  rw [State.slotKey, State.slotKey, frameKey_congr (t := taken s cid e st) (s := s) rfl rfl rfl]
  all_goals rw [core_taken]

theorem dispatch_eq (hmay : s.mayDispatch cid = true) (hx : x = 0 ∨ x = 1 ∧ (s.core cid).ctx0.busy = true)
    (hfree : (State.ctxOf (s.core cid) x).busy = false)
    (hready : ∀ r ∈ (s.core cid).ready, s.entryLive cid r = true ∧ s.stopping (s.ownerOf cid r.f) = false)
    (hfill : ∀ r ∈ (s.core cid).fill, s.entryLive cid r = true) (hchoose : choose (s.core cid).ready (s.core cid).starve = some (e, st))
    (hlocal : s.localOf cid e.f = some j) : s.dispatch cid x =
      ((if slArmed (s.readW (s.slotKey cid e.f e.slot)) = true ∧ slCount (s.readW (s.slotKey cid e.f e.slot)) = 0 then
          (taken s cid e st).reachZero cid e.f e.slot (s.slotKey cid e.f e.slot) false else taken s cid e st).discardFreed cid).startFiring cid x j e := by
  have hpace : s.paceSettled cid = true := by
    rw [State.mayDispatch] at hmay
    simp only [Bool.and_eq_true] at hmay
    exact hmay.1.2
  have hlive : ∀ r ∈ (s.core cid).ready ++ (s.core cid).fill, s.entryLive cid r = true := fun r hr =>
    (List.mem_append.mp hr).elim (fun h => (hready r h).1) (hfill r)
  have hqueue : s.readyOf cid = (s.core cid).ready := List.filter_eq_self.mpr fun r hr => by rw [(hready r hr).2]; rfl
  have hctx : (x != 0 && !(x == 1 && (s.core cid).ctx0.busy)) = false := by
    rcases hx with rfl | ⟨rfl, hbusy⟩
    · rfl
    · rw [hbusy]; rfl
  have hunmark : ((s.hand (.entry cid e.f e.slot) (.firing s.seq)).modCore cid (fun c => { c with ready := c.ready.erase e, starve := st })).modCore cid
      (fun c => { c with marks := c.marks.filter (fun m => m != 8 * e.f + e.slot) }) = taken s cid e st := modCore_modCore ..
  rw [State.dispatch, settlePace_settled hpace, discardFreed_live hlive]
  rw [hmay, hfree, hctx, hqueue, hchoose]
  dsimp only
  rw [hlocal]
  dsimp only
  rw [unmark_eq (by rw [hunmark, slotKey_taken]), hunmark]
  rfl

end Taken

/-- The context of a new firing (R41). -/
def firingCtx (s : State) (cid j : Nat) (e : Ready) : Ctx :=
  let o := (s.core cid).owners.get { inst := 0, depth := 0, limit := 0 } e.f
  { Ctx.init with
    busy := true, pc := BitVec.ofNat 64 (s.entryAddr (s.partOf cid) (hdrCb (s.readW (s.localKey cid j))) e.slot), fid := s.seq
    fref := mkFref cid e.f, frame := j, slot := e.slot, inst := o.inst, depth := o.depth, limit := o.limit }

theorem startFiring_eq (s : State) (cid x j : Nat) (e : Ready) : s.startFiring cid x j e =
    ({ s with seq := s.seq + 1 }.modCore cid (fun c => State.setCtxOf c x (firingCtx s cid j e))).modPart (s.partOf cid) (fun q => { q with
      quiesced := false }) := rfl

theorem core_modPart (s : State) (p c : Nat) (g : Part → Part) : (s.modPart p g).core c = s.core c := rfl

theorem startFiring_ctx (s : State) (cid x j : Nat) (e : Ready) : State.ctxOf ((s.startFiring cid x j e).core cid) x = firingCtx s cid j e := by
  rw [startFiring_eq, core_modPart, State.core_modCore, State.ctxOf, State.setCtxOf]
  split <;> rfl

theorem startFiring_core_other (s : State) {c cid : Nat} (x j : Nat) (e : Ready) (h : c ≠ cid) : (s.startFiring cid x j e).core c = s.core c := by
  rw [startFiring_eq, core_modPart, State.core_modCore_other _ _ _ _ h]
  rfl

/-! ### Fills and write-backs (R185, R186) -/

section Copies

theorem natOfBytes_byte : ∀ (bs : List Byte) (i : Nat) (h : i < bs.length), BitVec.ofNat 8 (State.natOfBytes bs / 256 ^ i) = bs[i]
  | b :: bs, 0, _ => by
    apply BitVec.eq_of_toNat_eq
    have := b.isLt
    rw [BitVec.toNat_ofNat, State.natOfBytes, Nat.pow_zero, Nat.div_one, List.getElem_cons_zero]
    omega
  | b :: bs, i + 1, h => by
    have hb := b.isLt
    have hdiv : State.natOfBytes (b :: bs) / 256 ^ (i + 1) = State.natOfBytes bs / 256 ^ i := by
      rw [Nat.pow_succ', ← Nat.div_div_eq_div_mul, State.natOfBytes]
      congr 1
      omega
    rw [hdiv, natOfBytes_byte bs i (Nat.lt_of_succ_lt_succ h), List.getElem_cons_succ]

/-- The poison of a copied range leaves the bytes. -/
theorem mem_foldl_addPoison {α : Type} (p : α → Bool) (key : α → Nat) : ∀ (l : List α) (s : State),
    (l.foldl (fun u i => if p i then u.addPoison (key i) 8 else u) s).mem = s.mem
  | [], _ => rfl
  | i :: l, s => by
    rw [List.foldl_cons, mem_foldl_addPoison p key l]
    split <;> rfl

theorem mem_copyRange (s : State) (dst src n : Nat) :
    (s.copyRange dst src n).mem = memWriteN s.mem dst n (State.natOfBytes (s.readBytes src n)) := by
  have hlen : (s.readBytes src n).length = n := by rw [State.readBytes, List.length_map, List.length_range]
  have hwrite : ((s.publish src n).writeBytes dst (s.readBytes src n)).mem = memWriteN s.mem dst (s.readBytes src n).length
      (State.natOfBytes (s.readBytes src n)) := rfl
  exact (mem_foldl_addPoison ..).trans (hwrite.trans (by rw [hlen]))

theorem byte_copyRange {dst src n a : Nat} (hw : memWf s.mem = true) (ha : a < n) : (s.copyRange dst src n).byte (dst + a) = s.byte (src + a) := by
  rw [State.byte, mem_copyRange, memRead_memWriteN_same _ _ _ _ hw (by omega) (by omega), Nat.add_sub_cancel_left,
    natOfBytes_byte _ _ (by rwa [State.readBytes, List.length_map, List.length_range])]
  simp [State.readBytes]

theorem byte_copyRange_other {dst src n a : Nat} (ha : a < dst ∨ dst + n ≤ a) : (s.copyRange dst src n).byte a = s.byte a := by
  rw [State.byte, mem_copyRange, memRead_memWriteN_other _ _ _ _ _ ha]
  rfl

theorem cores_foldl_addPoison {α : Type} (p : α → Bool) (key : α → Nat) : ∀ (l : List α) (s : State),
    (l.foldl (fun u i => if p i then u.addPoison (key i) 8 else u) s).cores = s.cores
  | [], _ => rfl
  | i :: l, s => by
    rw [List.foldl_cons, cores_foldl_addPoison p key l]
    split <;> rfl

theorem core_copyRange (s : State) (dst src n c : Nat) : (s.copyRange dst src n).core c = s.core c :=
  congrArg (fun l => Tbl.get Core.init l c) (cores_foldl_addPoison ..)

theorem memWf_copyRange {dst src n : Nat} (hw : memWf s.mem = true) : memWf (s.copyRange dst src n).mem = true := by
  rw [mem_copyRange]
  exact memWf_memWriteN _ _ _ hw

end Copies

section Fill

variable {e : Ready} {l : List Ready}

section

variable (hopen : Claims.opened (s.discardFreed cid) cid) (hfill : ((s.discardFreed cid).core cid).fill = e :: l)
  (hfilling : ((s.discardFreed cid).core cid).filling = none)
include hopen hfill hfilling

theorem fillStart_eq : s.fillStart cid =
    let u := s.discardFreed cid
    if u.inWriteBack cid (e.f - 4096) = true then u
    else if (u.residentOf cid (e.f - 4096)).isSome = true then
      (u.modCore cid (fun c => { c with
        fill := l, ready := c.ready ++ [{ e with level := slPrio (u.readW (u.slotKey cid e.f e.slot)) }] })).discardFreed cid
    else match u.freeLocal cid with
      | none => u
      | some j => (u.modCore cid (fun c => { c with fill := l, filling := some (j, e) })).discardFreed cid := by
  obtain ⟨hdead, hsaved⟩ := hopen
  rw [State.fillStart]
  dsimp only
  rw [hfill, hfilling]
  dsimp only
  rw [hdead, hsaved]
  rfl

end

theorem opened_discardFreed (h : Claims.opened s cid) : Claims.opened (s.discardFreed cid) cid := by
  obtain ⟨r, f, m, hcore⟩ := discardFreed_core s cid
  rw [Claims.opened, hcore]
  exact h

end Fill

section Saved

variable {j : Nat} (hsaved : (s.core cid).saved = true)
include hsaved

theorem fillStart_saved : s.fillStart cid = s := by
  rw [State.fillStart, discardFreed_closed (.inr hsaved)]
  split
  · rw [if_pos (by rw [hsaved]; simp)]
  · rfl

theorem fillComplete_saved : s.fillComplete cid = s := by
  rw [State.fillComplete, hsaved]
  cases (s.core cid).filling <;> rfl

theorem writeBackStart_saved : s.writeBackStart cid j = s := by
  rw [State.writeBackStart]
  rw [hsaved, if_neg (by simp)]

theorem writeBackComplete_saved : s.writeBackComplete cid j = s := by
  rw [State.writeBackComplete]
  rw [hsaved, if_neg (by simp)]

end Saved

section FillComplete

variable {e : Ready} {j : Nat} (hfilling : (s.core cid).filling = some (j, e)) (hsaved : (s.core cid).saved = false)
include hfilling hsaved

theorem fillComplete_waits (h : s.imageRead cid (e.f - 4096) = none) : s.fillComplete cid = s := by
  rw [State.fillComplete, hfilling, hsaved]
  dsimp only
  rw [h]

theorem fillComplete_eq {u : State} (h : s.imageRead cid (e.f - 4096) = some u) : s.fillComplete cid = u.filled cid := by
  rw [State.fillComplete, hfilling, hsaved]
  dsimp only
  rw [h]

/-- The end of a fill: a resident copy of the image stands in the local frame, and its entry is queued. -/
theorem filled_eq (halloc : hdrAlloc (s.readW (s.spillKey cid (e.f - 4096))) = true) : s.filled cid =
    (((s.modCore cid (fun c => { c with filling := none })).copyRange (s.localKey cid j) (s.spillKey cid (e.f - 4096)) 256).writeW (s.localKey cid j)
      (mkHdr (hdrCb (s.readW (s.spillKey cid (e.f - 4096)))) true true (hdrAsync (s.readW (s.spillKey cid (e.f - 4096)))) (e.f - 4096))).modCore cid
        (fun c => { c with ready := c.ready ++ [{ e with level := slPrio (s.readW (s.spillKey cid (e.f - 4096) + 16 + 8 * e.slot)) }] }) := by
  rw [State.filled]
  dsimp only
  rw [hfilling, hsaved]
  dsimp only
  rw [halloc]
  rfl

theorem filled_spec (hw : memWf s.mem = true) (halloc : hdrAlloc (s.readW (s.spillKey cid (e.f - 4096))) = true) :
    let img := s.spillKey cid (e.f - 4096)
    let key := s.localKey cid j
    let t := s.filled cid
    (t.core cid).filling = none ∧ t.readW key = mkHdr (hdrCb (s.readW img)) true true (hdrAsync (s.readW img)) (e.f - 4096) ∧
      (∀ a, 8 ≤ a → a < 256 → t.byte (key + a) = s.byte (img + a)) ∧ (∀ a, (a < key ∨ key + 256 ≤ a) → t.byte a = s.byte a) ∧
      (t.core cid).ready = (s.core cid).ready ++ [{ e with level := slPrio (s.readW (img + 16 + 8 * e.slot)) }] := by
  intro img key t
  let v := (s.modCore cid (fun c => { c with filling := none })).copyRange key img 256
  let h := mkHdr (hdrCb (s.readW img)) true true (hdrAsync (s.readW img)) (e.f - 4096)
  have ht : t = (v.writeW key h).modCore cid
      (fun c => { c with ready := c.ready ++ [{ e with level := slPrio (s.readW (img + 16 + 8 * e.slot)) }] }) := filled_eq hfilling hsaved halloc
  have hcore : (v.writeW key h).core cid = { s.core cid with filling := none } := by
    have hv : v.core cid = { s.core cid with filling := none } := (core_copyRange _ _ _ _ _).trans (State.core_modCore ..)
    rw [State.core, State.writeW_cores]
    exact hv
  have hv : memWf v.mem = true := memWf_copyRange hw
  have hbyte (a : Nat) : t.byte a = (v.writeW key h).byte a := by rw [ht, byte_modCore]
  refine ⟨?_, ?_, fun a h8 h256 => ?_, fun a ha => ?_, ?_⟩
  · rw [ht, State.core_modCore, hcore]
  · rw [readW_congr fun i _ _ => hbyte i, readW_writeW_same hv]
  · rw [hbyte]
    exact (byte_writeN_other (by omega)).trans (byte_copyRange hw h256)
  · rw [hbyte]
    exact (byte_writeN_other (by omega)).trans (byte_copyRange_other ha)
  · rw [ht, State.core_modCore, hcore]

end FillComplete

section WriteBack

variable {j : Nat}

theorem writeBackStart_eq (hj : j < s.frames (s.partOf cid)) (hcopy : hdrCopy (s.readW (s.localKey cid j)) = true)
    (halloc : hdrAlloc (s.readW (s.localKey cid j)) = true) (hasync : hdrAsync (s.readW (s.localKey cid j)) = 0) (hopen : Claims.opened s cid)
    (h0 : (s.core cid).ctx0.busy = true → (s.core cid).ctx0.frame ≠ j) (h1 : (s.core cid).ctx1.busy = true → (s.core cid).ctx1.frame ≠ j)
    (hready : ∀ e ∈ (s.core cid).ready, e.f ≠ 4096 + hdrHome (s.readW (s.localKey cid j))) (hback : j ∉ (s.core cid).wback)
    (hnet : ∀ x ∈ s.net, x.2.dst = .core cid → frefCore x.2.target = cid → frefName x.2.target ≠ 4096 + hdrHome (s.readW (s.localKey cid j))) :
    s.writeBackStart cid j = s.modCore cid (fun c => { c with wback := c.wback ++ [j] }) := by
  obtain ⟨hdead, hsaved⟩ := hopen
  have hctx {k : Ctx} (h : k.busy = true → k.frame ≠ j) : (k.busy && k.frame == j) = false := by
    rw [Bool.and_eq_false_imp]
    exact fun hb => beq_eq_false_iff_ne.mpr (h hb)
  have hnone : (s.core cid).ready.any (fun e => e.f == 4096 + hdrHome (s.readW (s.localKey cid j))) = false :=
    List.any_eq_false.mpr fun e he => by rw [beq_iff_eq]; exact hready e he
  have hidle : s.net.any (fun x => x.2.dst == .core cid && frefName x.2.target == 4096 + hdrHome (s.readW (s.localKey cid j)) &&
      frefCore x.2.target == cid) = false :=
    List.any_eq_false.mpr fun x hx => by
      simp only [Bool.and_eq_true, beq_iff_eq]
      exact fun ⟨⟨hdst, hname⟩, hcore⟩ => hnet x hx hdst hcore hname
  have hwback : (s.core cid).wback.contains j = false := (List.contains_eq_mem _ _).trans (decide_eq_false hback)
  rw [State.writeBackStart]
  rw [decide_eq_true hj, hcopy, halloc, hasync, hctx h0, hctx h1, hnone, hwback, hdead, hsaved, hidle]
  rfl

theorem writeBackComplete_waits (h : s.imageTurn cid (hdrHome (s.readW (s.localKey cid j))) = none) : s.writeBackComplete cid j = s := by
  rw [State.writeBackComplete]
  split
  · rw [h]
  · rfl

theorem writeBackComplete_eq {u : State} (hj : j ∈ (s.core cid).wback) (hsaved : (s.core cid).saved = false)
    (h : s.imageTurn cid (hdrHome (s.readW (s.localKey cid j))) = some u) : s.writeBackComplete cid j = u.writtenBack cid j := by
  rw [State.writeBackComplete]
  rw [if_pos (by rw [hsaved]; simpa using hj), h]

theorem writtenBack_eq (s : State) (cid j : Nat) : let key := s.localKey cid j
    let img := s.spillKey cid (hdrHome (s.readW key))
    s.writtenBack cid j = clearSlots (key + 16) ((((s.copyRange img key 256).writeW img (mkHdr (hdrCb (s.readW key)) true false 0 0)).writeW key
      (mkHdr (hdrCb (s.readW key)) false false 0 0)).modCore cid (fun c => { c with wback := c.wback.filter (· != j) })) 8 := rfl

theorem cores_clearSlots (base : Nat) (t : State) : ∀ n, (clearSlots base t n).cores = t.cores
  | 0 => rfl
  | n + 1 => by rw [clearSlots_succ, State.writeW_cores, cores_clearSlots base t n]

/-- The end of a write-back: the image stands in the place of the copy, whose local frame is free (R186). -/
theorem writtenBack_spec (hw : memWf s.mem = true) : let key := s.localKey cid j
    let img := s.spillKey cid (hdrHome (s.readW key))
    let t := s.writtenBack cid j
    (img + 256 ≤ key ∨ key + 256 ≤ img) →
    (t.core cid).wback = (s.core cid).wback.filter (· != j) ∧
      t.readW img = mkHdr (hdrCb (s.readW key)) true false 0 0 ∧ (∀ a, 8 ≤ a → a < 256 → t.byte (img + a) = s.byte (key + a)) ∧
      hdrAlloc (t.readW key) = false ∧ (∀ k, k < 8 → t.readW (key + 16 + 8 * k) = 0) := by
  intro key img t hapart
  let v := s.copyRange img key 256
  let w := (v.writeW img (mkHdr (hdrCb (s.readW key)) true false 0 0)).writeW key (mkHdr (hdrCb (s.readW key)) false false 0 0)
  let u := w.modCore cid (fun c => { c with wback := c.wback.filter (· != j) })
  have ht : t = clearSlots (key + 16) u 8 := writtenBack_eq s cid j
  have hwf : memWf (v.writeW img (mkHdr (hdrCb (s.readW key)) true false 0 0)).mem = true := memWf_writeW (memWf_copyRange hw)
  have hbyte (a : Nat) (ha : a < key + 16 ∨ key + 80 ≤ a) : t.byte a = w.byte a := by
    rw [ht, byte_clearSlots 8 (by omega), byte_modCore]
  refine ⟨?_, ?_, fun a h8 h256 => ?_, ?_, fun k hk => ?_⟩
  · have hcore : t.core cid = u.core cid := by rw [ht, State.core, cores_clearSlots]; rfl
    have hw' : w.core cid = s.core cid := by
      rw [State.core, State.writeW_cores, State.writeW_cores]
      exact core_copyRange ..
    rw [hcore, State.core_modCore, hw']
  · rw [readW_congr fun i _ _ => hbyte i (by omega), readW_writeW_other (by omega), readW_writeW_same (memWf_copyRange hw)]
  · rw [hbyte _ (by omega)]
    exact (byte_writeN_other (by omega)).trans ((byte_writeN_other (by omega)).trans (byte_copyRange hw h256))
  · rw [readW_congr fun i _ _ => hbyte i (by omega), readW_writeW_same hwf, hdrAlloc_mkHdr]
  · rw [ht, readW_clearSlots (by rw [mem_modCore]; exact memWf_writeW hwf) 8 hk]

end WriteBack

/-- Settles O49: dispatch, fills and write-backs. -/
theorem firingsAndFills : Obligations.FiringsAndFills := by
  refine ⟨fun s cid x hpace h => next_congr (dispatch_stopped hpace h), fun s cid => discardFreed_closed, fun s cid => discardFreed_live,
    ?discard, ?dispatch, ?start, fun l starve h hh hsome htop => ⟨fun e => choose_alone hh hsome htop, fun e => choose_over hh hsome htop,
      fun g e => choose_starved hh hsome htop⟩, fun _ _ => rfl, ?fill, fun s cid j hsaved => ⟨next_congr (fillStart_saved hsaved),
      next_congr (fillComplete_saved hsaved), next_congr (writeBackStart_saved hsaved), next_congr (writeBackComplete_saved hsaved)⟩, ?filled,
    ?back, ?backDone⟩
  case discard =>
    intro s cid t
    have hfields : t.mem = s.mem ∧ t.net = s.net ∧ t.faults = s.faults ∧ ∀ c, c ≠ cid → t.core c = s.core c := by
      obtain ⟨d, h | h⟩ := discardFreed_eq s cid
      · rw [show t = s from h]
        exact ⟨rfl, rfl, rfl, fun _ _ => rfl⟩
      · rw [show t = _ from h]
        exact ⟨rfl, rfl, rfl, fun c hc => State.core_setCore_other _ _ _ _ hc⟩
    obtain ⟨hmem, hnet, hfaults, hcores⟩ := hfields
    exact ⟨hmem, hnet, hfaults, hcores, fun r => mem_discardFreed, fun hnodup hopen n e => discardFreed_head_live hnodup hopen⟩
  case dispatch =>
    intro s cid x j st e hmay hx hfree hready hfill hchoose hlocal key u
    have heq := dispatch_eq hmay hx hfree hready hfill hchoose hlocal
    refine ⟨fun h => next_congr ?_, fun harm hcount => next_congr ?_⟩
    · rw [heq, if_neg (by rintro ⟨harm, hcount⟩; exact h.elim (fun h => by rw [h] at harm; cases harm) (fun h => h hcount))]
      rfl
    · rw [heq, if_pos ⟨harm, hcount⟩]
      rfl
  case start => exact fun s cid x j e => ⟨startFiring_ctx s cid x j e, rfl, rfl, rfl, fun c hc => startFiring_core_other s x j e hc⟩
  case fill =>
    intro s cid e l u hopen hfill hfilling
    have heq := fillStart_eq (opened_discardFreed hopen) hfill hfilling
    dsimp only at heq
    refine ⟨fun h => next_congr ?_, fun h hres => ⟨fun hnone => next_congr ?_, fun j hsome => next_congr ?_⟩, fun h hres => next_congr ?_⟩
    · rw [heq, if_pos h]
    · rw [heq, if_neg (by rw [h]; simp), if_neg (by rw [hres]; simp), State.freeLocal, hnone]
    · rw [heq, if_neg (by rw [h]; simp), if_neg (by rw [hres]; simp), State.freeLocal, hsome]
    · rw [heq, if_neg (by rw [h]; simp), if_pos hres]
  case filled =>
    intro s cid j e hfilling hsaved hw img key
    refine ⟨fun h => next_congr (fillComplete_waits hfilling hsaved h), fun u hread halloc _ => ?_⟩
    have hu : u = { s with dies := u.dies } := State.imageRead_diesOnly hread
    refine ⟨_, next_congr (fillComplete_eq hfilling hsaved hread), ?_⟩
    rw [hu]
    exact filled_spec (s := { s with dies := u.dies }) hfilling hsaved hw halloc
  case back =>
    intro s cid j c h f hj hcopy halloc hasync hdead hsaved h0 h1 hready hback hnet
    exact next_congr (writeBackStart_eq hj hcopy halloc hasync ⟨hdead, hsaved⟩ h0 h1 hready hback hnet)
  case backDone =>
    intro s cid j hj hsaved hw key img
    refine ⟨fun h => next_congr (writeBackComplete_waits h), fun u hturn hapart => ?_⟩
    have hu : u = { s with dies := u.dies } := State.imageTurn_diesOnly hturn
    refine ⟨_, next_congr (writeBackComplete_eq hj hsaved hturn), ?_⟩
    rw [hu]
    exact writtenBack_spec (s := { s with dies := u.dies }) hw hapart

end Sys2Proof.Proofs.Firings
end

section
/-! PROOFS. Matrix commands at work (O50, R46, R152 to R167). -/

namespace Sys2Proof.Proofs.MatrixAtWork

open Sys2Proof.Machine Sys2Proof.Proofs.Slots

variable {s : State} {cid m : Nat} {x : MCmd}

/-! ### Start (R154, R162) -/

/-- A command that has started has read its source words (R154). -/
def startedCmd (s : State) (cid m : Nat) (x : MCmd) : State :=
  let k := coreKey cid (8 * (sourceWords x.op).1)
  let n := (sourceWords x.op).2
  (s.saw (State.matReader x) k (8 * n)).modMcmd cid m (fun y => { y with
    started := true, src := s.seenBytes (State.matReader x) k (8 * n), pois := (List.range n).filter (fun i => s.poisoned (k + 8 * i) 8) })

section

variable (hnew : x.started = false) (hfences : x.fences = []) (hopen : Claims.opened s cid) (hfree : ∀ y ∈ (s.core cid).mq, mBlocks y x = false)
include hnew hfences hopen hfree

theorem not_matrixStart_waits : ¬(x.started || !x.fences.isEmpty || (s.core cid).dead || (s.core cid).saved ||
    (s.core cid).mq.any (fun y => mBlocks y x)) = true := by
  obtain ⟨hdead, hsaved⟩ := hopen
  have hblocks : (s.core cid).mq.any (fun y => mBlocks y x) = false := List.any_eq_false.mpr fun y hy => by rw [hfree y hy]; exact Bool.false_ne_true
  rw [hnew, hfences, hdead, hsaved, hblocks]
  exact Bool.false_ne_true

variable (hcmd : s.mcmd cid m = some x)
include hcmd

theorem matrixStart_quiet (hop : ∀ l, x.op ≠ .mrot l) : s.matrixStart cid m = startedCmd s cid m x := by
  rw [State.matrixStart, hcmd]
  dsimp only
  rw [if_neg (not_matrixStart_waits hnew hfences hopen hfree)]
  split
  case h_1 l h => exact absurd h (hop l)
  case h_2 => rfl

/-- The packet that carries a latch to the next core of the cell ring (R162). -/
def tilePacket (s : State) (cid m l : Nat) (x : MCmd) : Packet :=
  { State.packetOf (.tile l (State.latchBytes (s.core cid) l) (State.latchScales (s.core cid) l) m) (.core cid)
      (.core (cellMate cid ((posOf cid + 1) % 8))) x.from_.fref x.from_ with ret := x.ret, cmd := x.cmd }

theorem matrixStart_mrot {l : Nat} (hop : x.op = .mrot l) : s.matrixStart cid m =
    ((startedCmd s cid m x).send (tilePacket s cid m l x)).setPacket (startedCmd s cid m x).seq
      { tilePacket s cid m l x with gen := (startedCmd s cid m x).mgmt.gen, pos := .ready } := by
  rw [State.matrixStart, hcmd]
  dsimp only
  rw [if_neg (not_matrixStart_waits hnew hfences hopen hfree)]
  split
  case h_1 l' h =>
    rw [hop] at h
    cases h
    rfl
  case h_2 h => exact absurd hop (h l)

end

/-- A packet that is sent and stands at its target at once. -/
theorem net_send_setPacket (s : State) (p q : Packet) : ((s.send p).setPacket s.seq q).net = s.net.set s.seq q := Tbl.set_set ..

/-! ### Finish (R154, R156, R167) -/

section Finish

/-- The aligned words of a source hold its bytes. -/
theorem sourceKey_add (cid : Nat) (op : MOp) (j : Nat) : coreKey cid (8 * (sourceWords op).1) + ((mSource op).1 % 8 + j) =
    coreKey cid (mSource op).1 + j := by
  rw [show (sourceWords op).1 = (mSource op).1 / 8 from rfl, coreKey, coreKey, space, space]
  omega

variable (hnew : ∀ i, i < (sourceWords x.op).2 → s.readsOld x (coreKey cid (8 * (sourceWords x.op).1)) i = false)
include hnew

theorem notOld_getD (i : Nat) : ((List.range (sourceWords x.op).2).map (fun i =>
    s.readsOld x (coreKey cid (8 * (sourceWords x.op).1)) i)).getD i false = false := by
  by_cases hi : i < (sourceWords x.op).2
  · simpa [hi] using hnew i hi
  · simp [hi]

/-- A source none of whose words is read as it stood before. -/
theorem sourceOf_eq : s.sourceOf cid x = (s.readBytes (coreKey cid (mSource x.op).1) (mSource x.op).2,
    (List.range (sourceWords x.op).2).any (fun i => s.poisoned (coreKey cid (8 * (sourceWords x.op).1) + 8 * i) 8)) := by
  rw [State.sourceOf]
  simp only [notOld_getD hnew, Bool.false_eq_true, if_false, sourceKey_add]
  rfl

theorem sourceSeen_eq : s.sourceSeen cid x = (List.range (sourceWords x.op).2).foldl (fun (t : State) i =>
    t.publish (coreKey cid (8 * (sourceWords x.op).1) + 8 * i) 8) s := by
  have hseen : s.sourceSeen cid x = (List.range (sourceWords x.op).2).foldl (fun (t : State) i =>
      if s.readsOld x (coreKey cid (8 * (sourceWords x.op).1)) i then t else t.publish (coreKey cid (8 * (sourceWords x.op).1) + 8 * i) 8) s := rfl
  rw [hseen]
  refine List.foldl_ext _ _ s fun t i hi => ?_
  rw [hnew i (List.mem_range.mp hi)]
  rfl

variable (hcmd : s.mcmd cid m = some x) (hstarted : x.started = true) (hdone : s.matrixDone cid x = true) (hopen : Claims.opened s cid)
include hcmd hstarted hdone hopen

theorem matrixFinish_eq : s.matrixFinish cid m =
    let t := ((List.range (sourceWords x.op).2).foldl (fun (t : State) i => t.publish (coreKey cid (8 * (sourceWords x.op).1) + 8 * i) 8) s).dropMcmd
      cid m
    if (List.range (sourceWords x.op).2).any (fun i => s.poisoned (coreKey cid (8 * (sourceWords x.op).1) + 8 * i) 8) = true then
      t.faultFor x.from_ x.cmd 0x21
    else (t.matrixEffect cid x (s.readBytes (coreKey cid (mSource x.op).1) (mSource x.op).2)).matrixComplete cid x := by
  obtain ⟨hdead, hsaved⟩ := hopen
  rw [State.matrixFinish, hcmd]
  dsimp only
  rw [hstarted, hdone, hdead, hsaved, sourceOf_eq hnew, sourceSeen_eq hnew]
  rfl

end Finish

/-! ### Effects (R151 to R153, R158 to R163) -/

section Effects

theorem get_foldl_set {α : Type} (d : α) (base : Nat) (v : Nat → α) (tb : Tbl α) : ∀ n m, m < n →
    ((List.range n).foldl (fun (tb : Tbl α) k => tb.set (base + k) (v k)) tb).get d (base + m) = v m
  | n + 1, m, h => by
    rw [List.range_succ, List.foldl_append, List.foldl_cons, List.foldl_nil]
    by_cases hm : m = n
    · rw [hm, Tbl.get_set_same]
    · rw [Tbl.get_set_other _ _ _ _ _ (by omega), get_foldl_set d base v tb n m (by omega)]

theorem get_filter_out {α : Type} (d : α) (p : Nat × α → Bool) (i : Nat) : ∀ t : Tbl α, (∀ v, p (i, v) = false) → Tbl.get d (t.filter p) i = d
  | [], _ => rfl
  | (k, v) :: t, h => by
    rw [List.filter_cons]
    split
    case isTrue hk =>
      rw [Tbl.get, if_neg (fun hik => by rw [← hik, h v] at hk; cases hk), get_filter_out d p i t h]
    case isFalse => exact get_filter_out d p i t h

/-- Entry (i, j) of a tile after mma (R152, R153). -/
theorem mmaTile_get (c : Core) (t l fa fb i j : Nat) (bs : List Byte) (hi : i < 16) (hj : j < 16) :
    (State.mmaTile c t l fa fb bs).get Spool.zero (256 * t + 16 * i + j) = mmaEntry ((matMode fa fb).getD 0) (State.entry c t i j)
      (matRow fa (slice192 bs i) (slice12 c.ascale i)) (matRow fb (slice192 (c.latch.get [] l) j) (slice12 (c.bscale.get [] l) j)) := by
  have hrow : (16 * i + j) / 16 = i := by omega
  have hcol : (16 * i + j) % 16 = j := by omega
  rw [State.mmaTile, Nat.add_assoc, get_foldl_set _ _ _ _ _ _ (by omega), hrow, hcol]
  simp [hi, hj, State.entry, Nat.add_assoc]

variable (s : State) (cid : Nat) (x : MCmd) (bs : List Byte)

theorem matrixEffect_eq : ∃ tiles latch ascale bscale, s.matrixEffect cid x bs = s ∨ s.matrixEffect cid x bs =
    s.setCore cid { s.core cid with tiles := tiles, latch := latch, ascale := ascale, bscale := bscale } := by
  unfold State.matrixEffect
  split
  case h_3 tgt addr h =>
    rw [State.modCore]
    split
    · exact ⟨_, _, _, _, .inr rfl⟩
    · exact ⟨_, _, _, _, .inr rfl⟩
  case h_6 => exact ⟨default, default, default, default, .inl rfl⟩
  all_goals exact ⟨_, _, _, _, .inr rfl⟩

theorem matrixEffect_frame : (s.matrixEffect cid x bs).mem = s.mem ∧ (s.matrixEffect cid x bs).net = s.net ∧
    (s.matrixEffect cid x bs).faults = s.faults ∧ ((s.matrixEffect cid x bs).core cid).mq = (s.core cid).mq := by
  obtain ⟨tiles, latch, ascale, bscale, h | h⟩ := matrixEffect_eq s cid x bs
  · rw [h]
    exact ⟨rfl, rfl, rfl, rfl⟩
  · rw [h]
    exact ⟨rfl, rfl, rfl, by rw [State.core_setCore]⟩

variable {s cid x bs}

theorem matrixEffect_mma {t a l fa fb i j : Nat} (h : x.op = .mma t a l fa fb) (hi : i < 16) (hj : j < 16) :
    State.entry ((s.matrixEffect cid x bs).core cid) t i j = mmaEntry ((matMode fa fb).getD 0) (State.entry (s.core cid) t i j)
      (matRow fa (slice192 bs i) (slice12 (s.core cid).ascale i))
      (matRow fb (slice192 ((s.core cid).latch.get [] l) j) (slice12 ((s.core cid).bscale.get [] l) j)) := by
  rw [State.matrixEffect, h]
  dsimp only
  rw [State.core_modCore, State.entry, mmaTile_get _ _ _ _ _ _ _ _ hi hj]

theorem matrixEffect_mlb {l a : Nat} (h : x.op = .mlb l a) : ((s.matrixEffect cid x bs).core cid).latch.get [] l = bs := by
  rw [State.matrixEffect, h]
  dsimp only
  rw [State.core_modCore, Tbl.get_set_same]

theorem matrixEffect_mscl_a {a : Nat} (h : x.op = .mscl 0 a) : ((s.matrixEffect cid x bs).core cid).ascale = bs := by
  rw [State.matrixEffect, h]
  dsimp only
  rw [State.core_modCore]
  rfl

theorem matrixEffect_mscl_b {n a : Nat} (h : x.op = .mscl (n + 1) a) : ((s.matrixEffect cid x bs).core cid).bscale.get [] n = bs := by
  rw [State.matrixEffect, h]
  dsimp only
  rw [State.core_modCore, if_neg (Nat.succ_ne_zero n), Nat.add_sub_cancel, Tbl.get_set_same]

theorem zeroTile_get (tb : Tbl Spool) (t i j : Nat) (hi : i < 16) (hj : j < 16) :
    (State.zeroTile tb t).get Spool.zero (256 * t + 16 * i + j) = Spool.zero :=
  get_filter_out _ _ _ _ fun v => by
    rw [bne_eq_false_iff_eq]
    dsimp only
    omega

theorem matrixEffect_zero {t mode i j : Nat} (h : x.op = .mzero t mode ∨ x.op = .mclear t mode) (hi : i < 16) (hj : j < 16) :
    State.entry ((s.matrixEffect cid x bs).core cid) t i j = Spool.zero := by
  rcases h with h | h
  all_goals
    rw [State.matrixEffect, h]
    dsimp only
    rw [State.core_modCore, State.entry, zeroTile_get _ _ _ _ hi hj]

end Effects

/-! ### Rows of a drain (R164, R165) -/

section Drain

variable {t addr fmt rm row0 n mode : Nat} {row clr : Bool}

/-- A row of a drain written, its entries cleared under .clr, and counted (R164). -/
def drainedRow (s : State) (cid m t addr fmt rm row0 mode : Nat) (clr : Bool) (x : MCmd) : State :=
  let sz := drainSize fmt
  let key := coreKey cid (addr + x.rows * 16 * sz)
  let u := State.clearWritten (s.noted (State.matWriter x x.rows) key (16 * sz) ((List.range 16).foldl (fun (u : State) j =>
    u.writeN (coreKey cid (addr + x.rows * 16 * sz + j * sz)) sz (drainWord mode fmt rm (State.entry (s.core cid) t (row0 + x.rows) j) % 2 ^ (8 * sz)))
    s)) [(8 * key, 8 * (16 * sz))]
  (if clr then u.modCore cid (fun c => { c with tiles := c.tiles.filter (fun e => e.1 / 16 != 16 * t + (row0 + x.rows)) }) else u).modMcmd
    cid m (fun y => { y with rows := y.rows + 1 })

variable (hcmd : s.mcmd cid m = some x) (hop : x.op = .mdrain t addr fmt rm row0 n row clr mode) (hstarted : x.started = true) (hrows : x.rows < n)
  (hdead : (s.core cid).dead = false)
include hcmd hop hstarted hrows hdead

theorem mdrainRow_eq : s.mdrainRow cid m =
    let w := drainedRow s cid m t addr fmt rm row0 mode clr x
    match x.ret.slot with
    | some ref => if row && decide (x.rows + 1 < n) then
        (w.bindTo (.cover w.seq) (fun e => State.byMcmd x e && e.tag == x.rows)).sendSignal (.core cid) x.from_ (State.rowRef ref x.rows) 1 x.ret.bytes 1
      else w
    | none => w := by
  rw [State.mdrainRow, hcmd]
  dsimp only
  rw [hop]
  dsimp only
  rw [hstarted, decide_eq_true hrows, hdead]
  rfl

/-- A row that is not signalled, or whose signal is the command's completion. -/
theorem mdrainRow_silent (h : row = false ∨ x.ret.slot = none ∨ x.rows + 1 = n) :
    s.mdrainRow cid m = drainedRow s cid m t addr fmt rm row0 mode clr x := by
  rw [mdrainRow_eq hcmd hop hstarted hrows hdead]
  dsimp only
  split
  case h_1 ref hslot =>
    have hsilent : (row && decide (x.rows + 1 < n)) = false := by
      rcases h with h | h | h
      · rw [h]; rfl
      · rw [h] at hslot; cases hslot
      · rw [decide_eq_false (by omega), Bool.and_false]
    rw [hsilent]
    rfl
  case h_2 => rfl

theorem mdrainRow_signalled {r : Nat} (hrow : row = true) (hslot : x.ret.slot = some r) (hmore : x.rows + 1 < n) : s.mdrainRow cid m =
    let w := drainedRow s cid m t addr fmt rm row0 mode clr x
    (w.bindTo (.cover w.seq) (fun e => e.by_ == 3 && e.num == x.seq && e.tag == x.rows)).sendSignal (.core cid) x.from_ (r + x.rows) 1 x.ret.bytes 1 := by
  rw [mdrainRow_eq hcmd hop hstarted hrows hdead]
  dsimp only
  rw [hslot, hrow, decide_eq_true hmore]
  rfl

end Drain

/-! ### Tiles on the cell ring (R162) -/

theorem mrotLands_eq {k l rc sc : Nat} {bs scales : List Byte} {p : Packet} (hp : s.packet k = some p) (hbody : p.body = .tile l bs scales m)
    (hdst : p.dst = .core rc) (hsrc : p.src = .core sc) (hempty : (s.core rc).landing.get none l = none) (hopen : Claims.opened s rc)
    (hfirst : ∀ y ∈ s.net, y.1 < k → y.2.dst = .core rc → ∀ bs sc m, y.2.body ≠ .tile l bs sc m) : s.mrotLands k =
      ((s.dropPacket k).modCore rc (fun c => { c with
        landing := c.landing.set l (some { bytes := bs, scales := scales, cmd := p.cmd, from_ := p.from_, ret := p.ret }) })).modMcmd sc m
          (fun y => { y with landed := true }) := by
  obtain ⟨hdead, hsaved⟩ := hopen
  have hnone : s.net.any (fun y => decide (y.1 < k) && y.2.dst == .core rc && (match y.2.body with | .tile l' _ _ _ => l' == l | _ => false)) = false := by
    rw [List.any_eq_false]
    intro y hy
    rw [Bool.and_eq_true, Bool.and_eq_true, decide_eq_true_eq, beq_iff_eq]
    rintro ⟨⟨hlt, hyd⟩, hbody⟩
    split at hbody
    case h_1 l' b c d h =>
      rw [beq_iff_eq] at hbody
      exact hfirst y hy hlt hyd b c d (hbody ▸ h)
    case h_2 => cases hbody
  rw [State.mrotLands, hp]
  dsimp only
  rw [hbody, hdst, hsrc]
  dsimp only
  rw [hempty, hdead, hsaved]
  exact if_pos (congrArg (fun older => true && !older && true && true) hnone)

theorem landingMove_eq {l : Nat} {y : Landing} (hland : (s.core cid).landing.get none l = some y) (hopen : Claims.opened s cid)
    (hfree : ∀ m ∈ (s.core cid).mq, namesLatch l m.op = false) : s.landingMove cid l = (s.modCore cid (fun c => { c with
      landing := c.landing.set l none, latch := c.latch.set l y.bytes, bscale := c.bscale.set l y.scales })).complete (.core cid) y.from_ y.ret
        y.cmd 1 := by
  obtain ⟨hdead, hsaved⟩ := hopen
  have hnamed : (s.core cid).mq.any (fun m => namesLatch l m.op) = false :=
    List.any_eq_false.mpr fun m hm => by rw [hfree m hm]; exact Bool.false_ne_true
  rw [State.landingMove, hland]
  dsimp only
  rw [hnamed, hdead, hsaved]
  rfl

/-! ### Neighbour ports (R46) -/

section Ports

variable {dir : Nat} {w : Word} {q : List Word}

theorem settledCore_iff (s : State) (c : Nat) : s.settledCore c = true ↔
    s.partOf c ≠ 64 ∧ (dieOf c, quarterOf (clusOf c)) ∉ (s.part (s.partOf c)).clearing := by
  rw [State.settledCore, Bool.and_eq_true, bne_iff_ne, Bool.not_eq_true', List.contains_eq_mem, decide_eq_false_iff_not]

variable (hout : (s.core cid).outq.get [] dir = w :: q)
include hout

theorem portWordArrival_waits (h : (s.core (neighbour cid dir)).dead = true ∨ 16 ≤ ((s.core (neighbour cid dir)).inq.get [] (opposite dir)).length ∨
    (s.core cid).saved = true ∨ s.settledCore cid = false ∨ s.settledCore (neighbour cid dir) = false) : s.portWordArrival cid dir = s := by
  rw [State.portWordArrival]
  dsimp only
  rw [hout]
  dsimp only
  rw [if_pos (by tauto)]

theorem portWordArrival_eq (hdir : dir < 4) (hroom : ((s.core (neighbour cid dir)).inq.get [] (opposite dir)).length < 16)
    (hdead : (s.core (neighbour cid dir)).dead = false) (hsaved : (s.core cid).saved = false) (hc : s.settledCore cid = true)
    (hn : s.settledCore (neighbour cid dir) = true) : s.portWordArrival cid dir =
      (s.modCore cid (fun c => { c with outq := c.outq.set dir q })).modCore (neighbour cid dir) (fun c => { c with
        inq := c.inq.set (opposite dir) ((s.core (neighbour cid dir)).inq.get [] (opposite dir) ++ [w]) }) := by
  rw [State.portWordArrival]
  dsimp only
  rw [hout]
  dsimp only
  rw [if_neg]
  rw [hdead, hsaved, hc, hn]
  simp only [Bool.false_eq_true, reduceCtorEq, or_false]
  omega

end Ports

/-- Settles O50: matrix commands, tiles on the cell ring and port words. -/
theorem matrixAtWork : Obligations.MatrixAtWork := by
  refine ⟨?start, ?finish, fun s cid x bs => ⟨fun t a l fa fb i j => matrixEffect_mma, fun l a => matrixEffect_mlb, fun a => matrixEffect_mscl_a,
    fun n a => matrixEffect_mscl_b, fun t mode i j => matrixEffect_zero, matrixEffect_frame s cid x bs⟩, ?drain, ?lands, ?move, ?port⟩
  case start =>
    intro s cid m x hcmd hnew hfences hopen hfree k n t
    refine ⟨fun hop => next_congr (matrixStart_quiet hnew hfences hopen hfree hcmd hop), fun l hop => ?_⟩
    exact ⟨_, _, next_congr (matrixStart_mrot hnew hfences hopen hfree hcmd hop), net_send_setPacket _ _ _, rfl, rfl, rfl, rfl, rfl, rfl, rfl, rfl,
      rfl, rfl⟩
  case finish =>
    intro s cid m x hcmd hstarted hdone hopen k n t hnew
    have heq := matrixFinish_eq hnew hcmd hstarted hdone hopen
    refine ⟨fun hclean => next_congr ?_, fun ⟨i, hi, hpoison⟩ => next_congr ?_⟩
    · rw [heq]
      exact if_neg (by simpa using hclean)
    · rw [heq]
      exact if_pos (List.any_eq_true.mpr ⟨i, List.mem_range.mpr hi, hpoison⟩)
  case drain =>
    intro s cid m t addr fmt rm row0 n mode row clr x hcmd hop hstarted hrows hdead sz key u w
    exact ⟨fun h => next_congr (mdrainRow_silent hcmd hop hstarted hrows hdead h),
      fun r hrow hslot hmore => next_congr (mdrainRow_signalled hcmd hop hstarted hrows hdead hrow hslot hmore)⟩
  case lands =>
    intro s k l rc sc m bs sc8 p hp hbody hdst hsrc hempty hopen hfirst
    exact next_congr (mrotLands_eq hp hbody hdst hsrc hempty hopen hfirst)
  case move => exact fun s cid l x hland hopen hfree => next_congr (landingMove_eq hland hopen hfree)
  case port =>
    intro s cid dir w q hdir hout n r settled
    have hsettled (c : Nat) : ¬settled c ↔ s.settledCore c = false := by rw [← Bool.not_eq_true, settledCore_iff]
    refine ⟨fun h => next_congr (portWordArrival_waits hout ?_), fun hroom hdead hsaved hc hn hne =>
      ⟨_, next_congr (portWordArrival_eq hout hdir hroom hdead hsaved ((settledCore_iff s cid).mpr hc) ((settledCore_iff s n).mpr hn)), ?_, ?_, rfl, rfl,
        fun c hcc hcn => ?_⟩⟩
    · rwa [← hsettled, ← hsettled]
    · rw [State.core_modCore_other _ _ _ _ hne.symm, State.core_modCore, Tbl.get_set_same]
    · rw [State.core_modCore, Tbl.get_set_same]
    · rw [State.core_modCore_other _ _ _ _ hcn, State.core_modCore_other _ _ _ _ hcc]

end Sys2Proof.Proofs.MatrixAtWork
end

section
/-! PROOFS. Memory requests at their owner (O51): the clause on merged requests is refuted. The model holds a part back by where the bytes of an
earlier access of its firing lie now (R183, R186, R241), the statement by where they lay when it was issued. -/

namespace Sys2Proof.Proofs.MemoryRequests

open Sys2Proof.Machine

/-- Who issues in the counterexample. -/
def issuer : Issuer := { fref := 0, cid := 0, fid := 7, pc := 0, inst := 0, part := 0 }

/-- An outbound access of the counterexample that has arrived at its target. -/
def access (body : Body) (dst : Loc) (ord lo : Nat) : Packet :=
  { State.packetOf body (.core 0) dst 0 issuer with ord := ord, outb := true, lo := lo, len := 8, pos := .ready }

/-- Operand word 10 of local frame 0 of core 0 stands at 0x10050. A stf to it (packet 3) was issued while the frame's bytes lay elsewhere; a later
atomic of the same firing on these bytes (packet 4) is the one part of a merged request (packet 5). -/
def site : State := { (default : State) with
  seq := 6
  net := [(3, access (.stf 10 0) (.core 0) 1 0), (4, access (.atomic 0 8 0 0 []) (.dieSpad 0 0) 0 0x10050),
    (5, access (.atomic 0 8 0 0 [4]) (.dieSpad 0 0) 0 0x10050)] }

/-- The stf is not performed, so that the merged request waits. -/
theorem site_waits : site.mergedAtomicApply 5 = site := by decide +kernel

/-- No earlier access of the part's firing is of its order class or was issued for its bytes. -/
theorem site_unblocked : ∀ y ∈ site.partsOf [4], ∀ q ∈ site.net, q.1 < y.1 → q.2.outb = true → q.2.from_.fid = y.2.from_.fid →
    (q.2.ord = y.2.ord ∨ overlaps q.2.lo q.2.len y.2.lo y.2.len = true) → [4].contains q.1 = true := by decide +kernel

/-- The parts applied send nothing. -/
theorem site_parts_seq : ((site.dropPacket 5).applyParts (site.partsOf [4])).1.seq = 6 := by decide +kernel

/-- Refutes O51: a merged request waits for an earlier access to bytes that lie in its word now, whatever bytes that access was issued for. -/
theorem not_memoryRequests : ¬ Obligations.MemoryRequests := by
  rintro ⟨-, -, -, -, -, -, -, -, -, -, -, hmerged, -⟩
  obtain ⟨happly, -⟩ := hmerged site 5 0 8 0 0 [4] (access (.atomic 0 8 0 0 [4]) (.dieSpad 0 0) 0 0x10050) (by decide +kernel) rfl rfl rfl
    (List.cons_ne_nil 4 []) site_unblocked
  obtain ⟨q, -, -, hnext⟩ := happly (by decide +kernel) (by decide) _ _ rfl
  have hstate : site.mergedAtomicApply 5 = (((site.dropPacket 5).applyParts (site.partsOf [4])).1.publish 0x10050 8).send q :=
    Host.Outcome.next.inj hnext
  rw [site_waits] at hstate
  have hseq : 6 = ((site.dropPacket 5).applyParts (site.partsOf [4])).1.seq + 1 := congrArg State.seq hstate
  rw [site_parts_seq] at hseq
  cases hseq

end Sys2Proof.Proofs.MemoryRequests
end

section
/-! PROOFS. Walks, translations and copies at work (O52, R233 to R240, R308 to R312). -/

namespace Sys2Proof.Proofs.WalksAtWork

open Sys2Proof.Machine Sys2Proof.Proofs.Slots

variable {s : State} {n : Nat} {w : Walk}

/-! ### Start (R233) -/

theorem freeEngine_eq {clid e : Nat} (he : e < 4) (hfree : ∀ x ∈ s.walks, x.2.engine = e → clidOf x.2.from_.cid ≠ clid)
    (hbusy : ∀ d, d < e → ∃ x ∈ s.walks, x.2.engine = d ∧ clidOf x.2.from_.cid = clid) : s.freeEngine clid = some e := by
  rw [State.freeEngine, List.find?_range_eq_some]
  refine ⟨?_, List.mem_range.mpr he, fun d hd => ?_⟩
  · simpa using hfree
  · simpa using hbusy d hd

theorem walkStart_eq {clid e : Nat} (hhead : (s.cluster clid).walkq.find? s.walkMayStart = some n) (hw : s.walk n = some w)
    (he : s.freeEngine clid = some e) : s.walkStart clid n =
      (s.setWalk n { w with engine := e }).modCluster clid (fun q => { q with walkq := q.walkq.filter (· != n) }) := by
  rw [State.walkStart, hhead, he, hw]
  exact if_pos rfl

/-! ### The entries of a translation (R306, R308 to R310) -/

section Entries

variable {tid tl choice ra a old : Nat} {x : Tens} {r e : Word}

theorem pageEntry_outside (h : State.rootAddr x tl = none) : s.pageEntry n w tid x tl 0 = .error (s, 0x22) := by
  simp only [State.pageEntry, h]

/-- The entries that choice reads are those of the pair `old` of the words that they have had; pair 0 is the newest (R310). -/
def picks (s : State) (w : Walk) (tid tl choice old : Nat) : Prop :=
  (choice = 0 ∧ old = 0) ∨ choice = (s.cachedFor (dieOf w.from_.cid) w.from_.part tid tl).length + old + 1

theorem pageEntry_kept {c : Cached} {k : Nat} (h : (s.cachedFor (dieOf w.from_.cid) w.from_.part tid tl)[k]? = some c) :
    s.pageEntry n w tid x tl (k + 1) = .ok (s, some c) := by
  simp only [State.pageEntry, Nat.add_sub_cancel, h]

variable (hroot : State.rootAddr x tl = some ra)
include hroot

theorem pageEntry_rootWaits (hwait : s.entryWaits w ra = true) : s.pageEntry n w tid x tl 0 = .ok (s, none) := by
  simp only [State.pageEntry, hroot, hwait, if_true]

theorem pageEntry_rootAsked (hopen : s.entryWaits w ra = false) (h : s.tableEntry n w ra = none) :
    s.pageEntry n w tid x tl 0 = .ok (s.askTable n w ra, none) := by
  simp only [State.pageEntry, hroot, hopen, h, Bool.false_eq_true, if_false]

variable (hopen : s.entryWaits w ra = false) (hr : s.tableEntry n w ra = some r)
include hopen hr

theorem pageEntry_badRoot (h : s.leafAddr w.from_.part r tl = none) : s.pageEntry n w tid x tl 0 = .error (s.sawEntry n w ra, 0x22) := by
  simp only [State.pageEntry, hroot, hopen, hr, Bool.false_eq_true, if_false]
  rw [show 0 - 1 - _ = 0 by omega]
  simp [State.versions, h]

theorem pageEntry_reads (hpick : picks s w tid tl choice old)
    (hleaf : s.leafAddr w.from_.part ((s.versions w.from_.part ra r).getD (old % 16) r) tl = some a)
    (hopen' : s.entryWaits w a = false) (he : s.tableEntry n w a = some e) : s.pageEntry n w tid x tl choice =
      .ok (Claims.sawBoth s n w ra a, some { part := w.from_.part, tid := tid, tile := tl, addr := a, word := (s.versions w.from_.part a e).getD (old / 16) e }) := by
  have hold : choice - 1 - (s.cachedFor (dieOf w.from_.cid) w.from_.part tid tl).length = old := by
    rcases hpick with ⟨rfl, rfl⟩ | rfl <;> omega
  rw [← hold] at hleaf ⊢
  rcases hpick with ⟨rfl, rfl⟩ | rfl
  · simp only [State.pageEntry, hroot, hopen, hr, hleaf, hopen', he, Bool.false_eq_true, if_false]
    rfl
  · have hnone : (s.cachedFor (dieOf w.from_.cid) w.from_.part tid tl)[
        (s.cachedFor (dieOf w.from_.cid) w.from_.part tid tl).length + old]? = none := List.getElem?_eq_none (by omega)
    simp only [State.pageEntry, Nat.add_sub_cancel, hnone] at hleaf ⊢
    simp only [hroot, hopen, hr, hleaf, hopen', he, Bool.false_eq_true, if_false]
    rfl

end Entries

/-! ### What a translation does (R308, R309) -/

/-- What is left of a translation once it knows its page entry. -/
def translated (n tile : Nat) (w : Walk) : Except (State × Code) (State × Option Cached) → State
  | .error (t, c) => t.walkFault n w c
  | .ok (t, none) => t
  | .ok (t, some c) => t.translate n tile w c

theorem walkTranslation_eq {tile : Nat} (choice : Nat) (hw : s.walk n = some w) (hengine : w.engine ≠ 4) (hstop : w.stop = false)
    (hnew : ∀ t ∈ w.trans, t.tile ≠ tile) (htouch : s.walkTouches w tile = true)
    (hquiet : ∀ x ∈ s.net, State.isTable x.2 n = true → s.tableReady x.2 = false)
    (hlease : s.leased w.from_.inst (s.tileTens w tile).1 (s.tileTens w tile).2.2 (State.writesTensor w) = true) :
    s.walkTranslation n tile choice =
      translated n tile w (s.pageEntry n w (s.tileTens w tile).1 (s.tileTens w tile).2.1 (s.tileTens w tile).2.2 choice) := by
  have hnone : s.net.find? (fun x => State.isTable x.2 n && s.tableReady x.2) = none := by
    simpa [List.find?_eq_none] using hquiet
  have htrans : w.trans.any (fun t => t.tile == tile) = false := by simpa using hnew
  rw [State.walkTranslation, hnone]
  dsimp only
  rw [hw]
  dsimp only
  rw [if_neg (by rw [htrans, htouch, hlease, hstop]; simpa using hengine)]
  rfl

/-- The request that asks a channel for a page (R309, R344). -/
def pageRequest (w : Walk) (n tile page : Nat) : HbmReq :=
  { ch := page / 2 ^ 16 % 32, quarter := quarterOf (clusOf w.from_.cid), walk := n, tile := tile }

/-- A walk that has translated a tile by the entry c. -/
def withPage (w : Walk) (tile page : Nat) (repl : Bool) (c : Cached) : Walk :=
  { w with trans := w.trans ++ [{ tile := tile, page := page, repl := repl, started := false }], tabs := w.tabs.erase c.addr }

theorem translate_invalid {c : Cached} (h : s.pageOf w.from_.part c.word = none) (tile : Nat) : s.translate n tile w c = s.walkFault n w 0x22 := by
  rw [State.translate]
  dsimp only
  rw [h]

section Page

variable {c : Cached} {pg page : Nat} {repl : Bool} (h : s.pageOf w.from_.part c.word = some (pg, repl))
  (hpage : page = if repl then dieOf w.from_.cid * 2 ^ 36 + pg % 2 ^ 36 else pg)
include h hpage

theorem translate_here (hown : page / 2 ^ 36 = dieOf w.from_.cid) (tile : Nat) : s.translate n tile w c =
    ((s.setWalk n (withPage w tile page repl c)).keepEntry (dieOf w.from_.cid) c).modDie (dieOf w.from_.cid)
      (fun d => { d with hbmq := d.hbmq ++ [pageRequest w n tile page] }) := by
  subst hpage
  rw [State.translate]
  dsimp only
  rw [h]
  exact if_pos hown

theorem translate_there (hown : page / 2 ^ 36 ≠ dieOf w.from_.cid) (tile : Nat) : s.translate n tile w c =
    ((s.setWalk n (withPage w tile page repl c)).keepEntry (dieOf w.from_.cid) c).send
      { State.packetOf (.pageAsk n tile) (.core w.from_.cid) (State.pageLoc page) w.from_.fref w.from_ with bulk := true } := by
  subst hpage
  rw [State.translate]
  dsimp only
  rw [h]
  exact if_neg hown

end Page

/-! A walker that keeps an entry changes the cache of its die alone (R309, R310). -/

theorem keepEntry_field {α : Type} {f : State → α} (hf : ∀ (s : State) ds, f { s with dies := ds } = f s) (s : State) (d : Nat) (c : Cached) :
    f (s.keepEntry d c) = f s := by
  unfold State.keepEntry
  split
  · rfl
  · exact hf _ _

theorem keepEntry_hbmq (s : State) (d e : Nat) (c : Cached) : ((s.keepEntry d c).die e).hbmq = (s.die e).hbmq := by
  unfold State.keepEntry
  split
  · rfl
  · by_cases h : e = d
    · subst h
      rw [State.die_modDie]
    · rw [State.die_modDie_other _ _ _ _ h]

theorem keepEntry_unpinned {c : Cached} (h : s.pins c.part c.tid c.tile = 0) (d : Nat) : s.keepEntry d c = s := by
  rw [State.keepEntry, if_pos h]

theorem keepEntry_pinned {c : Cached} (h : s.pins c.part c.tid c.tile ≠ 0) (d : Nat) : ((s.keepEntry d c).die d).cache.head? = some c := by
  rw [State.keepEntry, if_neg h, State.die_modDie]
  dsimp only
  rw [trimPort, if_pos rfl]
  rfl

theorem walk_setWalk (s : State) (n : Nat) (w : Walk) : (s.setWalk n w).walk n = some w := by
  rw [State.walk, State.setWalk, Proofs.TileWalks.find_set_same]
  rfl

/-- A translated tile: the walk has its page, and the request for the page has left (R309, R318, R344). -/
structure Translates (s t : State) (n tile : Nat) (w : Walk) (c : Cached) (page : Nat) (repl : Bool) : Prop where
  walk : t.walk n = some (withPage w tile page repl c)
  here : page / 2 ^ 36 = dieOf w.from_.cid → t.net = s.net ∧
    (t.die (dieOf w.from_.cid)).hbmq = (s.die (dieOf w.from_.cid)).hbmq ++ [pageRequest w n tile page]
  there : page / 2 ^ 36 ≠ dieOf w.from_.cid → (∀ d, (t.die d).hbmq = (s.die d).hbmq) ∧
    t.net = (s.send { State.packetOf (.pageAsk n tile) (.core w.from_.cid) (State.pageLoc page) w.from_.fref w.from_ with bulk := true }).net
  unpinned : s.pins c.part c.tid c.tile = 0 → (t.die (dieOf w.from_.cid)).cache = (s.die (dieOf w.from_.cid)).cache
  pinned : s.pins c.part c.tid c.tile ≠ 0 → (t.die (dieOf w.from_.cid)).cache.head? = some c
  mem : t.mem = s.mem
  older : t.older = s.older

theorem translates {c : Cached} {pg page : Nat} {repl : Bool} (h : s.pageOf w.from_.part c.word = some (pg, repl))
    (hpage : page = if repl then dieOf w.from_.cid * 2 ^ 36 + pg % 2 ^ 36 else pg) (tile : Nat) :
    Translates s (s.translate n tile w c) n tile w c page repl := by
  let v := s.setWalk n (withPage w tile page repl c)
  let u := v.keepEntry (dieOf w.from_.cid) c
  have hwalk : u.walk n = some (withPage w tile page repl c) :=
    (keepEntry_field (f := fun u => State.walk u n) (fun _ _ => rfl) v _ c).trans (walk_setWalk s n _)
  have hnet : u.net = s.net := keepEntry_field (f := State.net) (fun _ _ => rfl) v _ c
  have hmem : u.mem = s.mem := keepEntry_field (f := State.mem) (fun _ _ => rfl) v _ c
  have holder : u.older = s.older := keepEntry_field (f := State.older) (fun _ _ => rfl) v _ c
  have hsent (q : Packet) : (u.send q).net = (s.send q).net := keepEntry_field (f := fun u => (State.send u q).net) (fun _ _ => rfl) v _ c
  have hq (d : Nat) : (u.die d).hbmq = (s.die d).hbmq := keepEntry_hbmq v _ _ _
  have hunpinned (hp : s.pins c.part c.tid c.tile = 0) : (u.die (dieOf w.from_.cid)).cache = (s.die (dieOf w.from_.cid)).cache :=
    (congrArg (fun t => (State.die t (dieOf w.from_.cid)).cache) (keepEntry_unpinned (s := v) hp (dieOf w.from_.cid)) :)
  have hpinned (hp : s.pins c.part c.tid c.tile ≠ 0) : (u.die (dieOf w.from_.cid)).cache.head? = some c := keepEntry_pinned (s := v) hp _
  by_cases hown : page / 2 ^ 36 = dieOf w.from_.cid
  · rw [translate_here h hpage hown]
    refine ⟨hwalk, fun _ => ⟨hnet, ?_⟩, fun hne => absurd hown hne, fun hp => ?_, fun hp => ?_, hmem, holder⟩
    · rw [State.die_modDie, ← hq]
    · rw [State.die_modDie, ← hunpinned hp]
    · rw [State.die_modDie, ← hpinned hp]
  · rw [translate_there h hpage hown]
    exact ⟨hwalk, fun h => absurd h hown, fun _ => ⟨hq, hsent _⟩, hunpinned, hpinned, hmem, holder⟩

/-! ### Addresses and channels (R306, R308, R344) -/

theorem rootAddr_iff (x : Tens) (tile a : Nat) : State.rootAddr x tile = some a ↔ tile / 4096 < x.nroot ∧ a = x.root + 8 * (tile / 4096) := by
  rw [State.rootAddr]
  split
  · simp only [reduceCtorEq, false_iff, not_and]
    omega
  · simp only [Option.some.injEq]
    omega

theorem leafAddr_iff (s : State) (p tile a : Nat) (e : Word) : s.leafAddr p e tile = some a ↔
    e.toNat % 2 = 1 ∧ e.toNat / 2 % 2 ^ 14 = 0 ∧ e.toNat / 2 ^ 40 = 0 ∧ s.hbmIn p (e.toNat / 2 ^ 15 * 2 ^ 15) = true ∧
      a = e.toNat / 2 ^ 15 * 2 ^ 15 + 8 * (tile % 4096) := by
  have hv := e.isLt
  rw [State.leafAddr]
  simp only [Proofs.TileWalks.bits_eq, Nat.pow_zero, Nat.div_one, Nat.pow_one]
  rw [show e.toNat / 2 ^ 40 % 2 ^ 24 = e.toNat / 2 ^ 40 by omega]
  by_cases hhigh : e.toNat / 2 ^ 40 = 0
  · rw [show e.toNat / 2 ^ 15 % 2 ^ 25 = e.toNat / 2 ^ 15 by omega]
    split
    next h => simp only [Option.some.injEq, h, true_and, eq_comm]
    next h =>
      simp only [reduceCtorEq, false_iff]
      tauto
  · simp only [hhigh, false_and, and_false, if_false, reduceCtorEq]

theorem pageOf_iff (s : State) (p a : Nat) (e : Word) (repl : Bool) : s.pageOf p e = some (a, repl) ↔
    e.toNat % 2 = 1 ∧ e.toNat / 8 % 2 ^ 13 = 0 ∧ e.toNat / 2 ^ 40 = 0 ∧ s.hbmIn p a = true ∧
      a = e.toNat / 2 ^ 16 % 16 * 2 ^ 36 + e.toNat / 2 ^ 20 * 2 ^ 16 ∧ (repl = true ↔ e.toNat / 2 % 2 = 1) := by
  have hv := e.isLt
  rw [State.pageOf]
  simp only [Proofs.TileWalks.bits_eq, Nat.pow_zero, Nat.div_one, Nat.pow_one]
  rw [show e.toNat / 2 ^ 40 % 2 ^ 24 = e.toNat / 2 ^ 40 by omega]
  by_cases hhigh : e.toNat / 2 ^ 40 = 0
  · rw [show e.toNat / 2 ^ 20 % 2 ^ 20 = e.toNat / 2 ^ 20 by omega]
    split
    next h =>
      obtain ⟨hvalid, hreserved, -, hin⟩ := h
      simp only [Option.some.injEq, Prod.mk.injEq]
      constructor
      · rintro ⟨rfl, rfl⟩
        exact ⟨hvalid, hreserved, hhigh, hin, rfl, beq_iff_eq⟩
      · rintro ⟨-, -, -, -, rfl, hrepl⟩
        exact ⟨rfl, Bool.eq_iff_iff.mpr (beq_iff_eq.trans hrepl.symm)⟩
    next h =>
      simp only [reduceCtorEq, false_iff]
      rintro ⟨hvalid, hreserved, -, hin, rfl, -⟩
      exact h ⟨hvalid, hreserved, hhigh, hin⟩
  · simp only [hhigh, false_and, and_false, if_false, reduceCtorEq]

theorem entryWaits_iff (s : State) (w : Walk) (a : Nat) : s.entryWaits w a = true ↔
    a / 2 ^ 36 = dieOf w.from_.cid ∧ s.channelOpen (a / 2 ^ 36) (a / 2 ^ 16 % 32) (a % 2 ^ 36 / 2 ^ 34) = false := by
  simp [State.entryWaits, State.addrOpen]

theorem channelFor_hbm {p : Packet} {d ch : Nat} (h : p.dst = .hbm d ch) :
    s.channelFor p = s.channelOpen d ch (s.shareQ p.from_.part d) := by
  rw [State.channelFor, h]

theorem channelFor_elsewhere {p : Packet} (h : ∀ d ch, p.dst ≠ .hbm d ch) : s.channelFor p = true := by
  rw [State.channelFor]
  split
  next d ch hdst => exact absurd hdst (h d ch)
  next => rfl

theorem tableReady_iff (s : State) (p : Packet) : s.tableReady p = true ↔
    p.pos = .ready ∧ ∀ n a, p.body = .tableRead n a → s.channelFor p = true := by
  rw [State.tableReady, Bool.and_eq_true, beq_iff_eq]
  refine and_congr_right fun _ => ?_
  split
  next n a hbody => exact ⟨fun h _ _ _ => h, fun h => h n a hbody⟩
  next hbody => exact ⟨fun _ n a h => absurd h (hbody n a), fun _ => rfl⟩

theorem movesReady_iff {p : Packet} {m stage tile : Nat} {es : List Elem} (h : p.body = .moves m stage tile es) (s : State) (n : Nat) :
    s.movesReady n p = true ↔ m = n ∧ p.pos = .ready ∧ (stage = 1 ∨ s.locOpen p.dst = true ∧ s.channelFor p = true) := by
  rw [State.movesReady, h]
  simp [and_assoc]

theorem migrating_iff (s : State) (a len : Nat) : s.migrating a len = true ↔
    ∃ x ∈ s.parts, x.2.mig.state = 1 ∧ x.2.mig.held = true ∧ overlaps x.2.mig.src 65536 a len = true := by
  simp [State.migrating, and_assoc]

/-! ### Table packets that have arrived (R309, R318, R344) -/

section Tables

variable {k a : Nat} {p : Packet} (hp : s.net.find? (fun x => State.isTable x.2 n && s.tableReady x.2) = some (k, p))
include hp

theorem walkTranslation_arrive (tile choice : Nat) : s.walkTranslation n tile choice = s.tableArrive k p := by
  rw [State.walkTranslation, hp]

theorem walkTranslation_read {c : Nat} (hbody : p.body = .tableRead n a) (hsrc : p.src = .core c)
    (hw : s.walks.find? (fun x => x.1 == n) = some (n, w)) : s.walkTranslation n 0 0 =
      ((s.dropPacket k).saw (State.walkReader n w) (hbmKey a) 8).send
        { State.packetOf (.tableWord n a (s.seenW (State.walkReader n w) (hbmKey a))) p.dst p.src p.from_.fref p.from_ with bulk := true, len := 8 } := by
  have hreader : s.tableReader n p = State.walkReader n w := by rw [State.tableReader, hsrc, hw]
  rw [walkTranslation_arrive hp, State.tableArrive, hbody]
  dsimp only
  rw [hreader]

theorem walkTranslation_ask {d ch tile : Nat} (hbody : p.body = .pageAsk n tile) (hdst : p.dst = .hbm d ch) : s.walkTranslation n 0 0 =
    (s.dropPacket k).modDie d (fun x => { x with
      hbmq := x.hbmq ++ [{ ch := ch, quarter := quarterOf (clusOf p.from_.cid), walk := n, tile := tile }] }) := by
  rw [walkTranslation_arrive hp, State.tableArrive, hbody]
  dsimp only
  rw [hdst]
  rfl

theorem walkTranslation_word {v : Word} (hbody : p.body = .tableWord n a v) (hw : s.walk n = some w) :
    s.walkTranslation n 0 0 = (s.dropPacket k).setWalk n { w with tabs := w.tabs.set a v } := by
  rw [walkTranslation_arrive hp, State.tableArrive, hbody]
  dsimp only
  rw [hw]

end Tables

theorem askTable_eq {ra : Nat} (hnone : ∀ y ∈ s.net, State.isTable y.2 n = false) (hroom : s.inFlight (dieOf w.from_.cid) (State.portOf ra) < 64) :
    s.askTable n w ra = s.send { State.packetOf (.tableRead n ra) (.core w.from_.cid) (State.pageLoc ra) w.from_.fref w.from_ with bulk := true } := by
  rw [State.askTable]
  refine if_neg ?_
  rw [Bool.or_eq_true, decide_eq_true_eq, List.any_eq_true]
  rintro (⟨y, hy, h⟩ | h)
  · rw [hnone y hy] at h
    cases h
  · omega

end Sys2Proof.Proofs.WalksAtWork
end

section
/-! PROOFS. The moves of a walk at the engine, its source and its destination (O52, R234 to R237). -/

namespace Sys2Proof.Proofs.WalkMoves

open Sys2Proof.Machine Sys2Proof.Proofs.Slots Sys2Proof.Proofs.WalksAtWork

variable {s : State} {n m : Nat} {w : Walk}

/-! ### A group starts (R234, R311, R355) -/

/-- Leases of the walk's instance cover every tile that a move touches (R311). -/
def Covered (s : State) (w : Walk) (e : Nat) : Prop :=
  ∀ tl ∈ s.moveTiles w e, s.leased w.from_.inst (s.tileTens w tl).1 (s.tileTens w tl).2.2 (State.writesTensor w) = true
/-- The bound ports of every replicated page that a move writes are live (R355). -/
def PortsLive (s : State) (w : Walk) (e : Nat) : Prop :=
  ∀ tl ∈ s.moveTiles w e, ∀ r, State.pageReady w tl = some r → r.repl = true → State.writesTensor w = true →
    ∀ i ∈ s.boundPorts w.from_.part, i ∈ s.mgmt.up ∧ i ∈ s.mgmt.back

theorem portLive_iff (s : State) (i : Nat) : s.portLive i = true ↔ i ∈ s.mgmt.up ∧ i ∈ s.mgmt.back := by
  simp [State.portLive]

theorem covered_iff (s : State) (w : Walk) (e : Nat) : Covered s w e ↔ (s.moveTiles w e).all (fun tl =>
    s.leased w.from_.inst (s.tileTens w tl).1 (s.tileTens w tl).2.2 (State.writesTensor w)) = true := List.all_eq_true.symm

theorem portsLive_iff (s : State) (w : Walk) (e : Nat) : PortsLive s w e ↔ (s.moveTiles w e).all (fun tl => match State.pageReady w tl with
    | some r => !(r.repl && State.writesTensor w) || (s.boundPorts w.from_.part).all s.portLive
    | none => true) = true := by
  rw [List.all_eq_true]
  refine forall_congr' fun tl => forall_congr' fun _ => ?_
  cases State.pageReady w tl with
  | none => simp
  | some r => cases hr : r.repl <;> cases State.writesTensor w <;> simp [hr, portLive_iff]

theorem need_fails {α : Type} {b : Bool} {c : Code} {k : Unit → Except Code α} (h : ¬b = true) : (need b c >>= k) = .error c := by
  rw [need, if_neg h]
  rfl

section Check

variable (hstop : w.stop = false) (hmove : m < walkTargets w * walkElems w) (hnew : m ∉ w.going)
include hstop hmove hnew

theorem move_admitted : ¬(w.stop || decide (walkTargets w * walkElems w ≤ m) || w.going.contains m) = true := by
  simp only [hstop, Bool.false_or, Bool.or_eq_true, decide_eq_true_eq, List.contains_iff_mem, not_or]
  exact ⟨by omega, hnew⟩

theorem moveCheck_uncovered (h : ¬Covered s w (m % walkElems w)) : s.moveCheck w m = .error 0x20 :=
  (if_neg (move_admitted hstop hmove hnew)).trans (need_fails (mt (covered_iff s w _).mpr h))

theorem moveCheck_dark (hc : Covered s w (m % walkElems w)) (h : ¬PortsLive s w (m % walkElems w)) : s.moveCheck w m = .error 0x38 :=
  (if_neg (move_admitted hstop hmove hnew)).trans
    (Proofs.TileWalks.need_then ((covered_iff s w _).mp hc) (need_fails (mt (portsLive_iff s w _).mpr h)))

theorem moveCheck_starts (hc : Covered s w (m % walkElems w)) (hl : PortsLive s w (m % walkElems w))
    (hpages : ∀ tl ∈ s.moveTiles w (m % walkElems w), (State.pageReady w tl).isSome = true)
    (hheld : State.writesTensor w = true → ∀ tl ∈ s.moveTiles w (m % walkElems w), s.pageHeld w tl = false)
    (horder : subByte (s.walkTens w).fmt = true → w.kind ≠ 5 → m % walkElems w ≠ 0 → m - 1 ∈ w.going) : s.moveCheck w m = .ok true := by
  refine (if_neg (move_admitted hstop hmove hnew)).trans (Proofs.TileWalks.need_then ((covered_iff s w _).mp hc)
    (Proofs.TileWalks.need_then ((portsLive_iff s w _).mp hl) (congrArg Except.ok ?_)))
  have hready : (s.moveTiles w (m % walkElems w)).all (fun tl => (State.pageReady w tl).isSome) = true := List.all_eq_true.mpr hpages
  have hfree : (State.writesTensor w && (s.moveTiles w (m % walkElems w)).any (s.pageHeld w)) = false := by
    rw [Bool.and_eq_false_imp]
    intro hwrites
    simpa using hheld hwrites
  have hturn : (!(subByte (s.walkTens w).fmt) || w.kind == 5 || m % walkElems w == 0 || w.going.contains (m - 1)) = true := by
    simp only [Bool.or_eq_true, Bool.not_eq_true', beq_iff_eq, List.contains_iff_mem]
    by_cases hsub : subByte (s.walkTens w).fmt = true
    · have := horder hsub
      tauto
    · exact .inl (.inl (.inl (by simpa using hsub)))
  rw [hready, hfree, hturn]
  rfl

end Check

/-- The packet that asks a source for a group of moves (R234, R320). -/
def askMoves (w : Walk) (n tl : Nat) (l : Loc) (es : List Nat) : Packet :=
  State.movesPacket n w 0 tl (.core w.from_.cid) l (es.map (fun x => { move := x, val := 0, pois := [] })) 0

/-- What a walk's move does with the first of its packets that has arrived, or without one (R234, R235). -/
def moveWith (s : State) (n : Nat) (ms : List Nat) : Option (Nat × Packet) → State
  | some (k, p) => s.movesArrive k p
  | none => match s.walk n with
    | none => s
    | some w => if w.engine = 4 then s else s.startMoves n w ms

theorem walkMove_eq (s : State) (n : Nat) (ms : List Nat) :
    s.walkMove n ms = moveWith s n ms (s.net.find? (fun x => Claims.nextMoves s n ms x.2)) := rfl

section Starting

variable {ms : List Nat} (hw : s.walk n = some w) (hengine : w.engine ≠ 4) (hquiet : ∀ x ∈ s.net, s.movesReady n x.2 = false)
include hw hengine hquiet

theorem walkMove_starting : s.walkMove n ms = s.startMoves n w ms := by
  have hnone : s.net.find? (fun x => Claims.nextMoves s n ms x.2) = none := by
    rw [List.find?_eq_none]
    intro x hx
    rw [Claims.nextMoves, hquiet x hx]
    exact Bool.false_ne_true
  rw [walkMove_eq, hnone, moveWith, hw]
  exact if_neg hengine

theorem walkMove_fails {c : Code} (h : s.moveCheck w m = .error c) :
    s.walkMove n (m :: ms) = (s.dropWalk n w).failCmd w.cmd c (walkProgress w) (walkExt w) := by
  rw [walkMove_starting hw hengine hquiet, State.startMoves]
  dsimp only
  rw [h]
  rfl

theorem walkMove_asks {tl : Nat} {l : Loc} {es : List Nat} (h : s.moveCheck w m = .ok true) (htl : (s.moveTiles w (m % walkElems w)).head? = some tl)
    (hes : es = if w.kind = 5 then (blockOf w m).2 else
      s.gather tl (m / walkElems w) (s.spadLoc w (m / walkElems w) (m % walkElems w)) w (2048 / elemBits (s.walkTens w).fmt) (m :: ms))
    (hl : (if State.writesTensor w then s.spadLoc w (m / walkElems w) (m % walkElems w)
      else (State.pageReady w tl).map (fun r => State.pageLoc r.page)) = some l) : s.walkMove n (m :: ms) =
        (s.setWalk n { w with going := es.foldl (fun g x => insertNat x g) w.going }).send (askMoves w n tl l es) := by
  have hhead : (s.moveTiles w (m % walkElems w)).headD 0 = tl := by rw [List.headD_eq_head?_getD, htl]; rfl
  subst hes
  rw [walkMove_starting hw hengine hquiet, State.startMoves]
  dsimp only
  rw [h]
  dsimp only
  rw [hhead, hl]
  rfl

end Starting

/-! ### A group that has arrived (R234, R237) -/

section Arriving

variable {k tile : Nat} {p : Packet} {ms : List Nat} {es : List Elem} {y : Elem} (hw : s.walk n = some w) (hstop : w.stop = false)
  (hp : s.net.find? (fun x => Claims.nextMoves s n ms x.2) = some (k, p))

theorem walkMove_arrives (hp : s.net.find? (fun x => Claims.nextMoves s n ms x.2) = some (k, p)) : s.walkMove n ms = s.movesArrive k p := by
  rw [walkMove_eq, hp]
  rfl

include hw hstop hp

theorem walkMove_read (hbody : p.body = .moves n 0 tile es) : s.walkMove n ms = s.movesRead k n p w tile es := by
  rw [walkMove_arrives hp, State.movesArrive, hbody]
  dsimp only
  rw [hw]
  dsimp only
  rw [if_neg (by rw [hstop]; exact Bool.false_ne_true)]
  rfl

theorem walkMove_pass (hbody : p.body = .moves n 1 tile es) : s.walkMove n ms = s.movesPass k n w tile es := by
  rw [walkMove_arrives hp, State.movesArrive, hbody]
  dsimp only
  rw [hw]
  dsimp only
  rw [if_neg (by rw [hstop]; exact Bool.false_ne_true)]
  rfl

theorem walkMove_write (hbody : p.body = .moves n 2 tile es) : s.walkMove n ms = s.movesWrite k n w tile es := by
  rw [walkMove_arrives hp, State.movesArrive, hbody]
  dsimp only
  rw [hw]
  dsimp only
  rw [if_neg (by rw [hstop]; exact Bool.false_ne_true)]
  rfl

end Arriving

section Single

variable {k tile : Nat} {p : Packet} {y : Elem} (hy : y.move = m)
include hy

/-- The elements of one move as its source answers them, and what the walk has latched (R147, R220). -/
def answered (s : State) (k n : Nat) (w : Walk) (tile : Nat) (p : Packet) (m nb : Nat) (r : Walk × Nat × List Bool) : State :=
  (((s.sawLatched n w r.1).dropPacket k).setWalk n r.1).send
    (State.movesPacket n w 1 tile p.dst (.core w.from_.cid) [{ move := m, val := r.2.1, pois := r.2.2 }] ((1 * nb + 7) / 8))

theorem movesRead_spad (hwrites : State.writesTensor w = true) : s.movesRead k n p w tile [y] =
    answered s k n w tile p m (spadBits w (s.walkTens w).fmt) (s.readElem n w (s.spadKey w (m / walkElems w) (m % walkElems w))
      (spadBit w (s.walkTens w).fmt (m % walkElems w)) (spadBits w (s.walkTens w).fmt)) := by
  subst hy
  exact if_pos hwrites

theorem movesRead_page {tr : Trans} (hwrites : State.writesTensor w = false) (hpage : State.pageReady w tile = some tr)
    (hdst : State.pageLoc tr.page = p.dst) : s.movesRead k n p w tile [y] =
    answered s k n w tile p m (elemBits (s.walkTens w).fmt) (s.readElem n w (s.pagePlace w tr (m % walkElems w)).1
      (s.pagePlace w tr (m % walkElems w)).2 (elemBits (s.walkTens w).fmt)) := by
  subst hy
  rw [State.movesRead]
  dsimp only
  rw [if_neg (by rw [hwrites]; exact Bool.false_ne_true), hpage]
  exact if_pos hdst

theorem movesPass_next {l : Loc} {ys : List Elem} (hkind : w.kind ≠ 5)
    (hl : (if State.writesTensor w then (State.pageReady w tile).map (fun r => State.pageLoc r.page)
      else s.spadLoc w (m / walkElems w) (m % walkElems w)) = some l) : s.movesPass k n w tile (y :: ys) =
        (s.dropPacket k).send (State.movesPacket n w 2 tile (.core w.from_.cid) l (y :: ys)
          (((y :: ys).length * elemBits (s.walkTens w).fmt + 7) / 8)) := by
  subst hy
  rw [State.movesPass]
  dsimp only
  rw [if_neg hkind]
  split
  next hwrites =>
    rw [if_pos hwrites] at hl
    rw [hl]
  next hreads =>
    rw [if_neg hreads] at hl
    rw [hl]

omit hy in
theorem movesPass_poisoned (hkind : w.kind = 5) (hpoison : ∃ b ∈ y.pois, b = true) : s.movesPass k n w tile [y] =
    ((s.dropPacket k).dropWalk n w).failCmd w.cmd 0x21 (walkProgress w) (walkExt w) := by
  rw [State.movesPass]
  dsimp only
  rw [if_pos hkind]
  refine if_pos ?_
  simpa using hpoison

omit hy in
theorem not_any_poisoned (hclean : ∀ b ∈ y.pois, b = false) : y.pois.any id = false := by simpa using hclean

omit hy in
theorem carryPoison_clean {pois : List Bool} (hclean : ∀ b ∈ pois, b = false) (s : State) (key len : Nat) : s.carryPoison key len pois = s := by
  rw [State.carryPoison]
  split
  · rw [if_neg (by simpa using hclean)]
  · have hnone (i : Nat) : pois.getD i false = false := by
      by_cases hi : i < pois.length
      · rw [List.getD_eq_getElem _ _ hi]
        exact hclean _ (List.getElem_mem hi)
      · exact List.getD_eq_default _ _ (by omega)
    simp only [hnone, Bool.false_eq_true, if_false, List.foldl_fixed]

theorem putAll_single {nb : Nat} (hbits : 8 ≤ nb) (hclean : ∀ b ∈ y.pois, b = false) (s : State) (n : Nat) (w : Walk) (key off : Nat) :
    s.putAll n w nb [(key, off, y)] = (s.noted (State.walkWriter n w m) (key + off / 8) (spanOfBits off nb)
      (s.writeN (key + off / 8) (nb / 8) y.val)).clearWritten [(8 * key + off, nb)] := by
  subst hy
  have hput : s.putElem n w key off nb y = s.noted (State.walkWriter n w y.move) (key + off / 8) (spanOfBits off nb)
      (s.writeN (key + off / 8) (nb / 8) y.val) := by
    rw [State.putElem, if_neg (by omega), carryPoison_clean hclean]
  have hleft : cleanAfter [] (8 * key + off) nb (y.pois.any id) = [(8 * key + off, nb)] := by
    rw [cleanAfter, not_any_poisoned hclean]
    rfl
  calc s.putAll n w nb [(key, off, y)]
    _ = (s.putElem n w key off nb y).clearWritten (cleanAfter [] (8 * key + off) nb (y.pois.any id)) := rfl
    _ = _ := by rw [hput, hleft]

omit hy in
theorem movesWrite_whole (hbits : 8 ≤ elemBits (s.walkTens w).fmt) (es : List Elem) : s.movesWrite k n w tile es =
    if State.writesTensor w then (match State.pageReady w tile with | none => s | some r => s.writeTensor k n w tile r es)
    else s.writeSpad k n w es := by
  refine if_neg ?_
  rw [show subByte (s.walkTens w).fmt = false from decide_eq_false (by omega)]
  simp

theorem movesWrite_page {tr : Trans} (hwrites : State.writesTensor w = true) (htile : tile < 2 ^ 24) (hpage : State.pageReady w tile = some tr)
    (hrepl : tr.repl = false) (hbits : 8 ≤ elemBits (s.walkTens w).fmt) (hlast : s.written w 0 m = false) (hclean : ∀ b ∈ y.pois, b = false) :
    let nb := elemBits (s.walkTens w).fmt
    let pl := s.pagePlace w tr m
    let u := (s.dropPacket k).keepOlds (tr.page + pl.2 / 8) (spanOfBits pl.2 nb)
    s.movesWrite k n w tile [y] = ((u.noted (State.walkWriter n w m) (pl.1 + pl.2 / 8) (spanOfBits pl.2 nb) (u.writeN (pl.1 + pl.2 / 8) (nb / 8)
        y.val)).clearWritten [(8 * pl.1 + pl.2, nb)]).setWalk n { w with moved := insertNat m w.moved } := by

  intro nb pl u
  rw [movesWrite_whole hbits, if_pos hwrites, hpage]
  dsimp only
  have hlast' : (!(s.written w 0 y.move)) = true := by rw [hy, hlast]; rfl
  have hlive : (inOrderOfMoves [y]).filter (fun y => !(s.written w 0 y.move)) = [y] := by
    exact List.filter_cons_of_pos (p := fun y : Elem => !(s.written w 0 y.move)) (l := []) hlast'
  have hscale : decide (2 ^ 24 ≤ tile) = false := decide_eq_false (by omega)
  rw [State.writeTensor]
  simp only [hscale, hlive, hrepl, Bool.false_and, Bool.false_eq_true, if_false, List.map_cons, List.map_nil, List.foldl_cons, List.foldl_nil]
  rw [putAll_single hy hbits hclean, hy]
  rfl

theorem movesWrite_spad (hwrites : State.writesTensor w = false) (hbits : 8 ≤ elemBits (s.walkTens w).fmt)
    (hlast : s.written w (m / walkElems w) (m % walkElems w) = false) (hclean : ∀ b ∈ y.pois, b = false) :
    let nb := elemBits (s.walkTens w).fmt
    let key := s.spadKey w (m / walkElems w) (m % walkElems w)
    let off := spadBit w (s.walkTens w).fmt (m % walkElems w)
    let u := s.dropPacket k
    s.movesWrite k n w tile [y] = ((u.noted (State.walkWriter n w m) (key + off / 8) (spanOfBits off nb) (u.writeN (key + off / 8) (nb / 8)
        y.val)).clearWritten [(8 * key + off, nb)]).setWalk n { w with moved := insertNat m w.moved } := by
  intro nb key off u
  have hlast' : (!(s.written w (y.move / walkElems w) (y.move % walkElems w))) = true := by rw [hy, hlast]; rfl
  have hlive : (inOrderOfMoves [y]).filter (fun y => !(s.written w (y.move / walkElems w) (y.move % walkElems w))) = [y] :=
    List.filter_cons_of_pos (p := fun y : Elem => !(s.written w (y.move / walkElems w) (y.move % walkElems w))) (l := []) hlast'
  rw [movesWrite_whole hbits, if_neg (by rw [hwrites]; exact Bool.false_ne_true), State.writeSpad, hlive, List.map_cons, List.map_nil, putAll_single hy hbits hclean, List.foldl_cons, List.foldl_nil, hy]

end Single

/-! ### One aligned word read once (R147, R207, R220) -/

/-- A value of z bytes at a multiple of z lies in one aligned word. -/
theorem aligned_within_word {key z : Nat} (hz : z ∈ [1, 2, 4, 8]) (hkey : key % z = 0) : 0 < z ∧ key % 8 + z ≤ 8 := by
  simp only [List.mem_cons, List.not_mem_nil, or_false] at hz
  rcases hz with rfl | rfl | rfl | rfl <;> omega

theorem two_pow_eight_mul (i : Nat) : 2 ^ (8 * i) = 256 ^ i := Nat.pow_mul 2 8 i

theorem latchWord_first (hbuf : w.buf = []) (s : State) (n k : Nat) : s.latchWord n w k =
    ({ w with buf := [(k, (s.seenW (State.walkReader n w) k, s.poisoned k 8))] }, (s.seenW (State.walkReader n w) k, s.poisoned k 8)) := by
  rw [State.latchWord, hbuf]
  rfl

theorem readElem_word {key z : Nat} (hbuf : w.buf = []) (hz : z ∈ [1, 2, 4, 8]) (hkey : key % z = 0) (s : State) (n : Nat) :
    s.readElem n w key 0 (8 * z) = ({ w with buf := [(key / 8 * 8, (s.seenW (State.walkReader n w) (key / 8 * 8), s.poisoned (key / 8 * 8) 8))] },
      (s.seenW (State.walkReader n w) (key / 8 * 8)).toNat / 256 ^ (key % 8) % 256 ^ z, [s.poisoned (key / 8 * 8) 8]) := by
  obtain ⟨hpos, hfit⟩ := aligned_within_word hz hkey
  have hone : (key + 0 / 8 + spanOfBits 0 (8 * z) + 7) / 8 - (key + 0 / 8) / 8 = 1 := by rw [spanOfBits]; omega
  have hbit : (key + 0 / 8) % 8 * 8 + 0 % 8 = 8 * (key % 8) := by omega
  rw [State.readElem]
  dsimp only
  rw [hone, hbit]
  simp only [List.range_one, List.map_cons, List.map_nil, List.foldl_cons, List.foldl_nil, List.foldr_cons, List.foldr_nil, Nat.zero_div,
    Nat.add_zero, Nat.mul_zero, latchWord_first hbuf, List.nil_append, Proofs.TileWalks.bits_eq, two_pow_eight_mul]

end Sys2Proof.Proofs.WalkMoves
end

section
/-! PROOFS. How a walk ends, and what its copies take (O52, R236, R239, R250, R312, R355, R389). -/

namespace Sys2Proof.Proofs.WalkEnds

open Sys2Proof.Machine Sys2Proof.Proofs.Slots Sys2Proof.Proofs.WalksAtWork Sys2Proof.Proofs.WalkMoves

variable {s : State} {n : Nat} {w : Walk}

/-! ### Signals (R236, R389) -/

theorem scalesDone_iff (w : Walk) (es : List Nat) : State.scalesDone w es = true ↔
    (w.kind = 5 → ∀ e ∈ es, (blockOf w e).1 = e → e ∈ w.scaled) := by
  rw [State.scalesDone, Bool.or_eq_true, bne_iff_ne, List.all_eq_true]
  simp only [Bool.or_eq_true, bne_iff_ne, List.contains_iff_mem, ne_eq, ← imp_iff_not_or]

/-- Run r of level j of a walk has ended for a target: its elements are moved and copied, with the scales of a twq (R236, R250). -/
def RunEnded (w : Walk) (j r t : Nat) : Prop :=
  w.copies = 0 ∧ (∀ e ∈ State.runElems w j r, t * walkElems w + e ∈ w.moved) ∧ State.scalesDone w (State.runElems w j r) = true

section Run

variable {j r t : Nat} (hw : s.walk n = some w) (hengine : w.engine ≠ 4) (hstop : w.stop = false) (hj : j < 5) (ht : t < walkTargets w)
  (hsig : (w.levels.getD j default).sig = true) (hrun : (r + 1) * (State.runElems w j r).length ≤ walkElems w) (hnew : (j, r, t) ∉ w.sent)
include hw

theorem dimensionEndSignal_waits (h : w.copies ≠ 0 ∨ ∃ e ∈ State.runElems w j r, t * walkElems w + e ∉ w.moved) :
    s.dimensionEndSignal n j r t = s := by
  rw [State.dimensionEndSignal, hw]
  refine if_neg ?_
  simp only [Bool.and_eq_true, beq_iff_eq, List.all_eq_true, List.contains_iff_mem]
  rintro ⟨⟨⟨⟨-, hcopies⟩, -⟩, hmoved⟩, -⟩
  rcases h with h | ⟨e, he, hnot⟩
  · exact h hcopies
  · exact hnot (hmoved e he)

include hengine hstop hj ht hsig hrun hnew

theorem dimensionEndSignal_ends (h : RunEnded w j r t) : s.dimensionEndSignal n j r t =
    ((s.setWalk n { w with sent := w.sent ++ [(j, r, t)] }).bindTo (.cover s.seq) (fun e => State.byWalk n e &&
      (State.runElems w j r).contains (e.tag - t * walkElems w) && decide (t * walkElems w ≤ e.tag))).sendSignal (.core w.from_.cid) w.from_
      (State.targetSref w t (w.levels.getD j default).sref) 1 (s.bytesOf w (State.runElems w j r).length) 1 := by
  obtain ⟨hcopies, hmoved, hscales⟩ := h
  rw [State.dimensionEndSignal, hw]
  refine if_pos ?_
  simp only [Bool.and_eq_true, bne_iff_ne, Bool.not_eq_true', decide_eq_true_eq, beq_iff_eq, List.all_eq_true, List.contains_iff_mem]
  exact ⟨⟨⟨⟨⟨⟨⟨⟨⟨hengine, hstop⟩, hj⟩, hsig⟩, ht⟩, hrun⟩, hcopies⟩, by simpa using hnew⟩, hmoved⟩, hscales⟩

end Run

/-- A walk's final signal to its slot, where it names one (R236, R389). -/
def finalSent (s : State) (n : Nat) (w : Walk) : State :=
  match w.ret.slot with
  | some r => (s.bindTo (.cover s.seq) (State.byWalk n)).sendSignal (.core w.from_.cid) w.from_ (State.targetSref w w.finals r) 1
      (s.bytesOf w (walkElems w)) 1
  | none => s

/-- A walk has nothing left to do but its final signal. -/
structure Done (s : State) (w : Walk) : Prop where
  engine : w.engine ≠ 4
  stop : w.stop = false
  moved : w.moved.length = walkTargets w * walkElems w
  scales : State.scalesDone w (List.range (walkElems w)) = true
  copies : w.copies = 0
  sent : State.allSent w = true
  out : w.finals = 0 → s.signalsOut w = false

theorem finalSignal_eq (hw : s.walk n = some w) (h : Done s w) : s.finalSignal n =
    if w.finals + 1 = walkTargets w then ((finalSent s n w).dropWalk n w).finishCmd w.cmd 0 (walkElems w) (walkExt w)
    else (finalSent s n w).setWalk n { w with finals := w.finals + 1 } := by
  rw [State.finalSignal, hw]
  refine if_pos ?_
  obtain ⟨hengine, hstop, hmoved, hscales, hcopies, hsent, hout⟩ := h
  simp only [Bool.and_eq_true, Bool.or_eq_true, bne_iff_ne, Bool.not_eq_true', decide_eq_true_eq, beq_iff_eq]
  refine ⟨⟨⟨⟨⟨⟨hengine, hstop⟩, hmoved⟩, hscales⟩, hcopies⟩, hsent⟩, ?_⟩
  rcases Nat.eq_zero_or_pos w.finals with h0 | hpos
  · exact .inr (hout h0)
  · exact .inl hpos

theorem finalSignal_waits (hw : s.walk n = some w) (hfirst : w.finals = 0) (hout : s.signalsOut w = true) : s.finalSignal n = s := by
  rw [State.finalSignal, hw]
  refine if_neg ?_
  simp [hfirst, hout]

/-! ### Cancellation (R239) -/

section Cancel

variable {k r : Nat} {p : Packet}

/-- The walks that a twcan names. -/
def named (s : State) (p : Packet) (r : Nat) : Tbl Walk :=
  s.walks.filter (fun x => x.2.from_.fref == p.from_.fref && x.2.ret.slot.getD (2 ^ 64) == r)
/-- The walks that a twcan names are stopped (R239). -/
def cancelled (s : State) (k : Nat) (p : Packet) (r : Nat) : State :=
  (named s p r).foldl (fun u x => (u.dropWalk x.1 x.2).finishCmd x.2.cmd 3 (walkProgress x.2) (walkExt x.2)) (s.dropPacket k)

theorem replyHeld_core (s : State) (p : Packet) : s.replyHeld p = true ↔
    4096 ≤ frefName p.from_.fref ∧ s.inWriteBack p.from_.cid (frefName p.from_.fref - 4096) = true := by
  rw [State.replyHeld, Bool.and_eq_true, decide_eq_true_eq]

variable (hp : s.packet k = some p) (hpos : p.pos = .ready) (hfences : p.fences = []) (hbody : p.body = .twcan r)
include hp hbody

theorem twcanComplete_waits (hdead : (s.core p.from_.cid).dead = false) (hheld : s.replyHeld p = true) : s.twcanComplete k = s := by
  rw [State.twcanComplete, hp]
  dsimp only
  rw [hbody]
  refine if_pos ?_
  rw [hdead, hheld]
  simp

include hpos hfences

omit hp hbody in
theorem twcan_served (hserved : (s.core p.from_.cid).dead = true ∨ s.replyHeld p = false) :
    ¬(p.pos != .ready || !p.fences.isEmpty || (!(s.core p.from_.cid).dead && s.replyHeld p)) = true := by
  rw [hpos, hfences]
  rcases hserved with h | h <;> simp [h]

theorem twcanComplete_stops (hserved : (s.core p.from_.cid).dead = true ∨ s.replyHeld p = false)
    (hcopies : ∃ x ∈ named s p r, x.2.copies ≠ 0) :
    s.twcanComplete k = (named s p r).foldl (fun u x => u.setWalk x.1 { x.2 with stop := true }) s := by
  rw [State.twcanComplete, hp]
  dsimp only
  rw [hbody]
  refine (if_neg (twcan_served hpos hfences hserved)).trans (if_pos ?_)
  obtain ⟨x, hx, hwaits⟩ := hcopies
  exact List.any_eq_true.mpr ⟨x, hx, bne_iff_ne.mpr hwaits⟩

variable (hcopies : ∀ x ∈ named s p r, x.2.copies = 0)
include hcopies

theorem twcanComplete_dead (hdead : (s.core p.from_.cid).dead = true) : s.twcanComplete k = (cancelled s k p r).refuseOne p := by
  rw [State.twcanComplete, hp]
  dsimp only
  rw [hbody]
  refine (if_neg (twcan_served hpos hfences (.inl hdead))).trans ((if_neg ?_).trans (if_pos hdead))
  exact fun h => absurd (List.any_eq_true.mp h) (by simpa [named] using hcopies)

theorem twcanComplete_eq (hdead : (s.core p.from_.cid).dead = false) (hheld : s.replyHeld p = false) : s.twcanComplete k =
    (((cancelled s k p r).bindTo (.cover k) (fun e => (named s p r).any (fun x => State.byWalk x.1 e))).writeReply p.from_.cid p.from_.fref p.ret.ow
      (BitVec.ofNat 64 (named s p r).length) false).completeAt k p.from_.cid p.from_ p.ret [] := by
  rw [State.twcanComplete, hp]
  dsimp only
  rw [hbody]
  refine (if_neg (twcan_served hpos hfences (.inr hheld))).trans ((if_neg ?_).trans (if_neg ?_))
  · exact fun h => absurd (List.any_eq_true.mp h) (by simpa [named] using hcopies)
  · rw [hdead]
    exact Bool.false_ne_true

end Cancel

/-! ### Copies (R250, R312, R344, R355) -/

section Replica

variable {k a : Nat} {bs : List Byte} {poison : Bool} {p : Packet}

/-- No earlier replicated write to the word of a packet waits at its end (R250). -/
def FirstOfWord (s : State) (k : Nat) (p : Packet) : Prop :=
  ∀ x ∈ s.net, x.1 < k → x.2.dst = p.dst → x.2.lo / 8 = p.lo / 8 → ∀ b cs po m, x.2.body ≠ .replica b cs po m

/-- An earlier replicated write to the word of a packet waits at its end. -/
def behind (s : State) (k : Nat) (p : Packet) : Bool :=
  s.net.any (fun x => decide (x.1 < k) && x.2.dst == p.dst && (match x.2.body with | .replica .. => true | _ => false) && x.2.lo / 8 == p.lo / 8)

theorem not_behind (h : FirstOfWord s k p) : behind s k p = false := by
  refine List.any_eq_false.mpr fun x hx => ?_
  simp only [Bool.and_eq_true, decide_eq_true_eq, beq_iff_eq]
  rintro ⟨⟨⟨hlt, hdst⟩, hreplica⟩, hword⟩
  split at hreplica
  next b cs po m hbody => exact h x hx hlt hdst hword b cs po m hbody
  next => cases hreplica

/-- What a copy holds once it has taken a write. -/
def copied (s : State) (k a : Nat) (bs : List Byte) (poison : Bool) : State :=
  let u := ((s.dropPacket k).keepOlds a bs.length).writeBytes (hbmKey a) bs
  if poison then u.addPoison (hbmKey a) bs.length else u

theorem foldl_field {α β : Type} {f : State → α} {g : State → β → State} (h : ∀ t x, f (g t x) = f t) (l : List β) (s : State) :
    f (l.foldl g s) = f s := by
  induction l generalizing s with
  | nil => rfl
  | cons x l ih => exact (ih _).trans (h s x)

/-- Software's write of a pinned entry changes the partitions alone (R310). -/
theorem keepOlds_field {α : Type} {f : State → α} (hf : ∀ (s : State) ps, f { s with parts := ps } = f s) (s : State) (a len : Nat) :
    f (s.keepOlds a len) = f s := by
  refine foldl_field (fun t j => foldl_field (fun u x => ?_) _ _) _ _
  split
  · exact hf _ _
  · rfl

theorem walk_copied (s : State) (k a : Nat) (bs : List Byte) (poison : Bool) (n : Nat) : (copied s k a bs poison).walk n = s.walk n := by
  unfold copied
  dsimp only
  have hkeep : ((s.dropPacket k).keepOlds a bs.length).walk n = s.walk n := keepOlds_field (f := fun u => State.walk u n) (fun _ _ => rfl) _ _ _
  split <;> exact hkeep

/-- The copy of a replicated write is held by a migration; the peer's copy at a port is not (R315, R355). -/
def heldAt (s : State) (p : Packet) (a len : Nat) : Bool := match p.dst with | .port _ => false | _ => s.migrating a len
/-- The copy is at a port that has ceased to be live (R355). -/
def lostAt (s : State) (p : Packet) : Bool := match p.dst with | .port i => !(s.portLive i) | _ => false
/-- The module once the copy has been taken; at a port it is the peer's. -/
def taken (s : State) (k : Nat) (p : Packet) (a : Nat) (bs : List Byte) (poison : Bool) : State :=
  match p.dst with | .port _ => s.dropPacket k | _ => copied s k a bs poison
/-- The writer's walk waits for one copy less, or ends where the port was lost. -/
def oneLess (n : Nat) (lost : Bool) (t : State) : State :=
  match t.walk n with
  | some w => if lost && !w.stop then t.walkFault n w 0x38 else t.setWalk n { w with copies := w.copies - 1 }
  | none => t

section Inland

variable (hdst : ∀ i, p.dst ≠ .port i)
include hdst

theorem heldAt_inland : heldAt s p a bs.length = s.migrating a bs.length := by
  rw [heldAt]
  split
  next i h => exact absurd h (hdst i)
  next => rfl

theorem lostAt_inland : lostAt s p = false := by
  rw [lostAt]
  split
  next i h => exact absurd h (hdst i)
  next => rfl

theorem taken_inland : taken s k p a bs poison = copied s k a bs poison := by
  rw [taken]
  split
  next i h => exact absurd h (hdst i)
  next => rfl

end Inland

section Port

variable {i : Nat} (hdst : p.dst = .port i)
include hdst

theorem heldAt_port : heldAt s p a bs.length = false := by rw [heldAt, hdst]
theorem lostAt_port : lostAt s p = !(s.portLive i) := by rw [lostAt, hdst]
theorem taken_port : taken s k p a bs poison = s.dropPacket k := by rw [taken, hdst]

end Port

theorem oneLess_counts {t : State} (hw : t.walk n = some w) : oneLess n false t = t.setWalk n { w with copies := w.copies - 1 } := by
  rw [oneLess, hw]
  rfl

theorem oneLess_fails {t : State} (hw : t.walk n = some w) (hstop : w.stop = false) :
    oneLess n true t = (t.dropWalk n w).failCmd w.cmd 0x38 (walkProgress w) (walkExt w) := by
  rw [oneLess, hw]
  dsimp only
  rw [hstop]
  rfl

variable (hp : s.packet k = some p) (hbody : p.body = .replica a bs poison n)
include hp hbody

theorem replicaWriteApply_eq : s.replicaWriteApply k =
    if p.pos == .ready && !(behind s k p) && s.channelFor p && !(heldAt s p a bs.length) then
      oneLess n (lostAt s p) (taken s k p a bs poison) else s := by
  rw [State.replicaWriteApply, hp]
  dsimp only
  rw [hbody]
  rfl

theorem replicaWriteApply_channelShut (h : s.channelFor p = false) : s.replicaWriteApply k = s := by
  rw [replicaWriteApply_eq hp hbody, h, Bool.and_false]
  rfl

theorem replicaWriteApply_migrating (hdst : ∀ i, p.dst ≠ .port i) (h : s.migrating a bs.length = true) : s.replicaWriteApply k = s := by
  rw [replicaWriteApply_eq hp hbody, heldAt_inland hdst, h, Bool.not_true, Bool.and_false]
  rfl

theorem replicaWriteApply_taken (hpos : p.pos = .ready) (hfirst : FirstOfWord s k p) (hopen : s.channelFor p = true)
    (hfree : heldAt s p a bs.length = false) : s.replicaWriteApply k = oneLess n (lostAt s p) (taken s k p a bs poison) := by
  rw [replicaWriteApply_eq hp hbody, hpos, not_behind hfirst, hopen, hfree]
  rfl

end Replica

/-- The reads of two table entries change only what may still be read of earlier values (R250). -/
theorem sawBoth_eq (s : State) (n : Nat) (w : Walk) (ra a : Nat) :
    Claims.sawBoth s n w ra a = { s with older := (Claims.sawBoth s n w ra a).older } := by
  unfold Claims.sawBoth
  dsimp only
  split <;> split <;> rfl

/-- An entry that the walk has not received lies on another die, whose channel it does not wait for (R318). -/
theorem entryWaits_of_remote {a : Nat} (h : s.tableEntry n w a = none) : s.entryWaits w a = false := by
  have hremote : a / 2 ^ 36 ≠ dieOf w.from_.cid := by
    intro hown
    rw [State.tableEntry, if_pos hown] at h
    cases h
  rw [State.entryWaits, beq_false_of_ne hremote, Bool.false_and]

/-- Settles O52: walks, translations and copies at work. -/
theorem walksAtWork : Obligations.WalksAtWork := by
  refine ⟨?start, ?translation, fun s p tile x e => ⟨rootAddr_iff x tile, fun a => leafAddr_iff s p tile a e, fun a repl => pageOf_iff s p a e repl⟩,
    fun _ _ _ _ => rfl, entryWaits_iff, ?channels, ?tables, ?asks, ?moves, fun s n w key z hbuf hz hkey => readElem_word hbuf hz hkey s n,
    ?runs, ?final, fun s n w hw hfirst hout => next_congr (finalSignal_waits hw hfirst hout), ?cancel, ?copy, migrating_iff⟩
  case start =>
    intro s clid n e w hhead hw he hfree hbusy
    exact next_congr (walkStart_eq hhead hw (freeEngine_eq he hfree hbusy))
  case translation =>
    intro s n tile choice w hw hengine hstop hnew htouch hquiet x own p lost used hlease
    have heq := walkTranslation_eq choice hw hengine hstop hnew htouch hquiet hlease
    have huses (c : Cached) (v : State) (h : used c v) : s.walkTranslation n tile choice = v.translate n tile w c ∧
        v = { s with older := v.older } := by
      rcases h with ⟨⟨ra, r, a, hroot, hopen, hr, hleaf, hopen', he, hc, rfl⟩, hchoice⟩ | ⟨k, rfl, hkept, rfl⟩ |
        ⟨k, ra, r, a, e, hchoice, hroot, hopen, hr, hleaf, hopen', he, rfl, rfl⟩
      · have hentry := pageEntry_reads (tid := x.1) hroot hopen hr (.inl ⟨hchoice, rfl⟩) hleaf hopen' he
        exact ⟨(heq.trans (congrArg (translated n tile w) hentry)).trans (congrArg ((Claims.sawBoth s n w ra a).translate n tile w) hc.symm),
          sawBoth_eq s n w ra a⟩
      · exact ⟨heq.trans (congrArg (translated n tile w) (pageEntry_kept hkept)), rfl⟩
      · exact ⟨heq.trans (congrArg (translated n tile w) (pageEntry_reads hroot hopen hr (.inr (hchoice.trans (Nat.add_right_comm _ 1 k))) hleaf hopen' he)),
          sawBoth_eq s n w ra a⟩
    refine ⟨?outside, ?badRoot, ?waits, ?invalid, ?page, ?ask⟩
    case outside =>
      rintro rfl hroot
      exact next_congr (heq.trans (congrArg (translated n tile w) (pageEntry_outside hroot)))
    case badRoot =>
      rintro ra r rfl hroot hopen hr hleaf
      exact next_congr (heq.trans (congrArg (translated n tile w) (pageEntry_badRoot hroot hopen hr hleaf)))
    case waits =>
      rintro ra rfl hroot hwait
      exact next_congr (heq.trans (congrArg (translated n tile w) (pageEntry_rootWaits hroot hwait)))
    case invalid =>
      intro c v hu hpage
      obtain ⟨hv, hframe⟩ := huses c v hu
      refine next_congr (hv.trans (translate_invalid ?_ tile))
      rw [hframe]
      exact hpage
    case page =>
      intro c v pg repl hu hentry page
      obtain ⟨hv, hframe⟩ := huses c v hu
      have hentry' : v.pageOf w.from_.part c.word = some (pg, repl) := by rw [hframe]; exact hentry
      obtain ⟨hwalk, hhere, hthere, hunpinned, hpinned, hmem, holder⟩ := translates hentry' rfl tile
      have hnet : v.net = s.net := (congrArg State.net hframe :)
      have hdie (d : Nat) : v.die d = s.die d := (congrArg (fun u => State.die u d) hframe :)
      have hpins : v.pins c.part c.tid c.tile = s.pins c.part c.tid c.tile := (congrArg (fun u => State.pins u c.part c.tid c.tile) hframe :)
      have hsend (q : Packet) : (v.send q).net = (s.send q).net := (congrArg (fun u => (State.send u q).net) hframe :)
      simp only [hdie, hpins, hnet, hsend] at hhere hthere hunpinned hpinned
      exact ⟨_, next_congr hv, hwalk, hhere, fun h => ⟨(hthere h).1, _, rfl, rfl, rfl, rfl, (hthere h).2⟩, hunpinned, hpinned,
        hmem.trans (congrArg State.mem hframe :), holder⟩
    case ask =>
      rintro ra rfl hroot hnone hquiet' hroom
      have hopen : s.entryWaits w ra = false := entryWaits_of_remote hnone
      exact ⟨_, rfl, rfl, rfl, rfl, next_congr ((heq.trans (congrArg (translated n tile w) (pageEntry_rootAsked hroot hopen hnone))).trans
        (askTable_eq hquiet' hroom))⟩
  case channels =>
    exact fun s p => ⟨tableReady_iff s p, fun d ch h => channelFor_hbm h, channelFor_elsewhere,
      fun n m stage tile es h => movesReady_iff h s n⟩
  case tables =>
    intro s n k a v p hp
    exact ⟨fun w c hbody hsrc hw => ⟨_, rfl, rfl, rfl, next_congr (walkTranslation_read hp hbody hsrc hw)⟩,
      fun c d ch tile hbody _ hdst => next_congr (walkTranslation_ask hp hbody hdst),
      fun w hbody hw => next_congr (walkTranslation_word hp hbody hw)⟩
  case asks =>
    intro s n m ms w hw hengine hstop hmove hnew hquiet e t tiles wr covered live
    refine ⟨fun h => next_congr (walkMove_fails hw hengine hquiet (moveCheck_uncovered hstop hmove hnew h)),
      fun hc h => next_congr (walkMove_fails hw hengine hquiet (moveCheck_dark hstop hmove hnew hc h)), ?_⟩
    intro hc hl hpages hheld horder tl htl unit es l hsrc
    exact ⟨_, rfl, rfl, rfl, rfl, next_congr (walkMove_asks hw hengine hquiet (moveCheck_starts hstop hmove hnew hc hl hpages hheld horder) htl rfl hsrc)⟩
  case moves =>
    intro s n k tile m w p ms y hw hstop hp hy t e fmt nb
    refine ⟨fun hbody hwrites => ⟨_, rfl, rfl, rfl, next_congr ((walkMove_read hw hstop hp hbody).trans (movesRead_spad hy hwrites))⟩,
      fun tr hbody hreads hpage hdst => ⟨_, rfl, rfl, rfl, next_congr ((walkMove_read hw hstop hp hbody).trans (movesRead_page hy hreads hpage hdst))⟩,
      fun l ys hbody hkind hl => ⟨_, rfl, rfl, next_congr ((walkMove_pass hw hstop hp hbody).trans (movesPass_next hy hkind hl))⟩,
      fun hbody hkind hpoison => next_congr ((walkMove_pass hw hstop hp hbody).trans (movesPass_poisoned hkind hpoison)),
      fun tr hbody hwrites htile hpage hrepl hbits hlast hclean => next_congr ((walkMove_write hw hstop hp hbody).trans
        (movesWrite_page hy hwrites htile hpage hrepl hbits hlast hclean)),
      fun hbody hreads hbits hlast hclean => next_congr ((walkMove_write hw hstop hp hbody).trans (movesWrite_spad hy hreads hbits hlast hclean))⟩
  case runs =>
    intro s n j r t w hw hengine hstop hj ht l es hsig hrun hnew
    exact ⟨fun hcopies hmoved hscales => next_congr (dimensionEndSignal_ends hw hengine hstop hj ht hsig hrun hnew
      ⟨hcopies, hmoved, (scalesDone_iff w es).mpr hscales⟩), fun h => next_congr (dimensionEndSignal_waits hw h)⟩
  case final =>
    intro s n w hw hengine hstop hmoved hcopies hsent hscales hout u
    have heq := finalSignal_eq hw ⟨hengine, hstop, hmoved, hscales, hcopies, hsent, hout⟩
    have hu : finalSent s n w = u := by
      rw [finalSent]
      cases h : w.ret.slot with
      | none => simp only [u, h]
      | some r =>
        simp only [u, h]
        rfl
    rw [hu] at heq
    exact ⟨fun hlast => next_congr (heq.trans (if_pos hlast)), fun hmore => next_congr (heq.trans (if_neg hmore))⟩
  case cancel =>
    intro s k r p hp hpos hfences hbody held hit t
    have hheld : ¬held → s.replyHeld p = false := fun h => by rw [← Bool.not_eq_true, replyHeld_core]; exact h
    refine ⟨fun hdead h => next_congr (twcanComplete_waits hp hbody hdead ((replyHeld_core s p).mpr h)),
      fun hcopies hdead h => next_congr (twcanComplete_eq hp hpos hfences hbody hcopies hdead (hheld h)),
      fun hcopies hdead => next_congr (twcanComplete_dead hp hpos hfences hbody hcopies hdead),
      fun hcopies h => next_congr (twcanComplete_stops hp hpos hfences hbody (h.imp_right hheld) hcopies)⟩
  case copy =>
    intro s k a n bs poison p w hp hpos hbody hw hfirst u
    refine ⟨fun h => next_congr (replicaWriteApply_channelShut hp hbody h),
      fun hdst h => next_congr (replicaWriteApply_migrating hp hbody hdst h), fun hopen hfree => ⟨fun hdst => next_congr ?_, fun i hdst hup hback =>
      next_congr ?_, fun i hdst hdown hstop => next_congr ?_⟩⟩
    · have hhome : s.migrating a bs.length = false := hfree.resolve_left fun ⟨i, hi⟩ => hdst i hi
      rw [replicaWriteApply_taken hp hbody hpos hfirst hopen ((heldAt_inland hdst).trans hhome), lostAt_inland hdst, taken_inland hdst]
      exact oneLess_counts ((walk_copied s k a bs poison n).trans hw)
    · rw [replicaWriteApply_taken hp hbody hpos hfirst hopen (heldAt_port hdst), lostAt_port hdst, taken_port hdst,
        (portLive_iff s i).mpr ⟨hup, hback⟩]
      exact oneLess_counts hw
    · have hlost : s.portLive i = false := by
        rw [← Bool.not_eq_true, portLive_iff]
        tauto
      rw [replicaWriteApply_taken hp hbody hpos hfirst hopen (heldAt_port hdst), lostAt_port hdst, taken_port hdst, hlost]
      exact oneLess_fails hw hstop

end Sys2Proof.Proofs.WalkEnds
end

section
/-! PROOFS. Paced steps at work (O53, R254 to R266). -/

namespace Sys2Proof.Proofs.PacedSteps

open Sys2Proof.Machine Sys2Proof.Proofs.Slots Sys2Proof.Proofs.Firings

variable {s : State} {cid k : Nat} {p : Packet}

/-! ### Finishing a step (R256, R263) -/

theorem stepdDone_eq {fid n : Nat} (hopen : Claims.opened s cid) (hsettled : s.paceSettled cid = true) (hnew : (s.core cid).done = false)
    (hstepd : (fid, n) ∈ (s.core cid).stepds) (hdone : s.unperformed fid cid n = false) : s.stepdDone cid fid =
      (((s.passStep cid fid).modCore cid (fun c => { c with done := true, stepds := [] })).sendNotices cid).serveHeld cid := by
  obtain ⟨hdead, hsaved⟩ := hopen
  refine (if_neg ?_).trans (if_pos ?_)
  · rw [hdead, hsaved, hnew, hsettled]
    exact Bool.false_ne_true
  · exact List.any_eq_true.mpr ⟨(fid, n), hstepd, by simp [hdone]⟩

theorem olderAt_bindTo (s : State) (x : Party) (q : Older → Bool) (a : Nat) :
    (s.bindTo x q).olderAt a = (s.olderAt a).map (fun e => if q e then { e with bound := x :: e.bound } else e) := by
  rw [State.olderAt, State.olderAt, State.bindTo, List.filter_map]
  congr 1
  refine List.filter_congr fun e _ => ?_
  rw [Function.comp_apply]
  split <;> rfl

theorem olderAt_passStep {fid n : Nat} (hstepd : (s.core cid).stepds = [(fid, n)]) (hdone : s.unperformed fid cid n = false) (a : Nat) :
    (s.passStep cid fid).olderAt a = (s.olderAt a).map (fun e => if e.fid = fid ∧ e.by_ ≤ 1 ∧ e.num ≤ n ∨ e.bound.contains (.firing fid) = true then
      { e with bound := .step cid (s.core cid).stp.toNat :: e.bound } else e) := by
  have hlast : (((s.core cid).stepds.filter (fun x => x.1 == fid && !(s.unperformed fid cid x.2))).map (·.2)).foldl max 0 = n := by
    rw [hstepd, List.filter_cons_of_pos (by simp [hdone])]
    exact Nat.zero_max n
  rw [State.passStep, hlast, olderAt_bindTo]
  refine List.map_congr_left fun e _ => if_congr ?_ rfl rfl
  rw [Bool.or_eq_true, Bool.and_eq_true, Bool.and_eq_true, beq_iff_eq, decide_eq_true_eq, decide_eq_true_eq, and_assoc]

theorem not_answers (q : Packet) : (!(State.answers q)) = (match q.body with | .reply .. => false | .oldValues _ => false | _ => true) := by
  rw [State.answers]
  cases q.body <;> rfl

/-! ### Advancing (R257) -/

section Advance

variable {x : Pace} (hpace : (s.core cid).pace = some x)
include hpace

theorem mayAdvance_eq : s.mayAdvance cid = ((s.core cid).done && !(s.core cid).ctx0.busy && !(s.core cid).ctx1.busy && !(s.core cid).dead &&
    !(s.core cid).saved && s.paceSettled cid &&
    (s.atOffsets (s.partOf cid) cid x.dep).all (fun q => decide ((s.core cid).stp.toNat + 1 ≤ finCount ((s.core cid).known.get (0, false) q))) &&
    (s.atOffsets (s.partOf cid) cid x.watch).all
      (fun q => decide ((s.core cid).stp.toNat + 3 ≤ finCount ((s.core cid).known.get (0, false) q) + x.depth))) := by
  rw [State.mayAdvance]
  dsimp only
  rw [hpace]

theorem stepAdvance_advances (hopen : Claims.opened s cid) (hsettled : s.paceSettled cid = true) (hdone : (s.core cid).done = true)
    (hidle0 : (s.core cid).ctx0.busy = false) (hidle1 : (s.core cid).ctx1.busy = false)
    (hdep : ∀ q ∈ s.atOffsets (s.partOf cid) cid x.dep, (s.core cid).stp.toNat + 1 ≤ finCount ((s.core cid).known.get (0, false) q))
    (hwatch : ∀ q ∈ s.atOffsets (s.partOf cid) cid x.watch,
      (s.core cid).stp.toNat + 3 ≤ finCount ((s.core cid).known.get (0, false) q) + x.depth) : s.stepAdvance cid =
        (((s.modPart (s.partOf cid) (fun q => { q with quiesced := false })).modCore cid (fun c => { c with stp := c.stp + 1, done := false })).sendNotices
          cid).serveHeld cid := by
  obtain ⟨hdead, hsaved⟩ := hopen
  refine if_pos ?_
  rw [mayAdvance_eq hpace, hdead, hsaved, hsettled, hdone, hidle0, hidle1]
  simp only [Bool.not_false, Bool.true_and, Bool.and_eq_true, List.all_eq_true, decide_eq_true_eq]
  exact ⟨hdep, hwatch⟩

theorem stepAdvance_waits (h : (s.core cid).done = false ∨ ∃ q ∈ s.atOffsets (s.partOf cid) cid x.dep,
    finCount ((s.core cid).known.get (0, false) q) < (s.core cid).stp.toNat + 1) : s.stepAdvance cid = s := by
  refine if_neg ?_
  rw [mayAdvance_eq hpace]
  simp only [Bool.and_eq_true, List.all_eq_true, decide_eq_true_eq]
  rintro ⟨⟨⟨⟨⟨⟨⟨hdone, -⟩, -⟩, -⟩, -⟩, -⟩, hdep⟩, -⟩
  rcases h with h | ⟨q, hq, hlt⟩
  · rw [h] at hdone
    cases hdone
  · exact absurd (hdep q hq) (by omega)

end Advance

/-! ### Requests at a step unit (R256, R260 to R266) -/

/-- A core's step unit serves what has arrived (R254, R352, R368). -/
theorem serves {owner : Nat} (harrived : Claims.arrived s k p) (hopen : Claims.opened s owner) (hsettled : s.paceSettled owner = true) :
    (mayApply s k p && s.coreOpen owner && s.paceSettled owner) = true := by
  obtain ⟨-, hmay⟩ := harrived
  rw [hmay, coreOpen_of_opened hopen, hsettled]
  rfl

/-- What a core knows once a notice has come: the larger finished count (R256). -/
def knows (src : Nat) (stp : Word) (done : Bool) (c : Core) : Core :=
  if finCount (c.known.get (0, false) src) < finCount (stp, done) then { c with known := c.known.set src (stp, done) } else c

theorem stepNotice_eq {src : Nat} {stp : Word} {done : Bool} (harrived : Claims.arrived s k p) (hdst : p.dst = .core cid)
    (hopen : Claims.opened s cid) (hbody : p.body = .notice src stp done) (hsettled : s.paceSettled cid = true) :
    s.stepNotice k = (s.dropPacket k).modCore cid (knows src stp done) := by
  have hserves := serves harrived hopen hsettled
  obtain ⟨hp, -⟩ := harrived
  have hdropped : (s.dropPacket k).settlePace cid = s.dropPacket k := settlePace_settled hsettled
  rw [State.stepNotice, hp]
  dsimp only
  rw [hbody, hdst]
  dsimp only
  rw [settlePace_settled hsettled, hdropped]
  exact if_pos hserves

theorem finished_iff (c : Core) (q : Nat) : State.finished c q = true ↔ q < finCount (c.stp, c.done) := by
  rw [State.finished, finCount]
  cases c.done with
  | false => simp
  | true =>
    simp
    omega

section Ldst

variable {owner z q es off D : Nat} {u : Bool} (harrived : Claims.arrived s k p) (hdst : p.dst = .core owner) (hopen : Claims.opened s owner)
  (hsettled : s.paceSettled owner = true) (hbody : p.body = .ldst z u q es off)
include harrived hdst hopen hsettled hbody

theorem ldstRequest_unknown (hdepth : s.depthOf p = none) : s.ldstRequest k = s.discard k p := by
  have hserves := serves harrived hopen hsettled
  obtain ⟨hp, -⟩ := harrived
  rw [State.ldstRequest, hp]
  dsimp only
  rw [hbody, hdst]
  dsimp only
  rw [settlePace_settled hsettled]
  refine (if_pos hserves).trans ?_
  rw [hdepth]

variable (hdepth : s.depthOf p = some D)
include hdepth

theorem ldstRequest_eq : s.ldstRequest k = if !(State.finished (s.core owner) q) then s.mustWait owner k p
    else if q + D ≤ (s.core owner).stp.toNat then (s.dropPacket k).failCmd p.cmd 0x18 0 [] else s.answerLdst k p owner D := by
  have hserves := serves harrived hopen hsettled
  obtain ⟨hp, -⟩ := harrived
  rw [State.ldstRequest, hp]
  dsimp only
  rw [hbody, hdst]
  dsimp only
  rw [settlePace_settled hsettled]
  refine (if_pos hserves).trans ?_
  rw [hdepth]

theorem ldstRequest_early (h : finCount ((s.core owner).stp, (s.core owner).done) ≤ q) : s.ldstRequest k = s.mustWait owner k p := by
  rw [ldstRequest_eq harrived hdst hopen hsettled hbody hdepth, if_pos]
  rw [Bool.not_eq_true', ← Bool.not_eq_true, finished_iff]
  omega

theorem ldstRequest_finished (h : q < finCount ((s.core owner).stp, (s.core owner).done)) : s.ldstRequest k =
    if q + D ≤ (s.core owner).stp.toNat then (s.dropPacket k).failCmd p.cmd 0x18 0 [] else s.answerLdst k p owner D := by
  rw [ldstRequest_eq harrived hdst hopen hsettled hbody hdepth, if_neg]
  rw [(finished_iff _ q).mpr h]
  exact Bool.false_ne_true

end Ldst

theorem stepqRequest_eq {owner q : Nat} (harrived : Claims.arrived s k p) (hdst : p.dst = .core owner) (hopen : Claims.opened s owner)
    (hsettled : s.paceSettled owner = true) (hbody : p.body = .stepq q) : s.stepqRequest k =
      if q ≤ (s.core owner).stp.toNat then s.answerStepq k p owner q else s.mustWait owner k p := by
  have hserves := serves harrived hopen hsettled
  obtain ⟨hp, -⟩ := harrived
  rw [State.stepqRequest, hp]
  dsimp only
  rw [hbody, hdst]
  dsimp only
  rw [settlePace_settled hsettled]
  exact if_pos hserves

section Waiting

variable (owner : Nat)

theorem mustWait_ended (h : s.stopping p.from_.inst = true) : s.mustWait owner k p = (s.dropPacket k).finishCmd p.cmd 0 0 [] := if_pos h

theorem mustWait_held (h : s.stopping p.from_.inst = false) (hroom : (s.core owner).heldq.length < 64) : s.mustWait owner k p =
    (s.setPacket k { p with pos := .kept }).modCore owner (fun c => { c with heldq := c.heldq ++ [k] }) :=
  (if_neg (by rw [State.endedRequest, h]; exact Bool.false_ne_true)).trans (if_pos hroom)

theorem mustWait_returned (h : s.stopping p.from_.inst = false) (hfull : 64 ≤ (s.core owner).heldq.length) :
    s.mustWait owner k p = s.setPacket k { p with pos := .returned } :=
  (if_neg (by rw [State.endedRequest, h]; exact Bool.false_ne_true)).trans (if_neg (by omega))

end Waiting

theorem answerLdst_eq {z q es off : Nat} {u : Bool} (hbody : p.body = .ldst z u q es off) (s : State) (owner D : Nat) :
    let key := coreKey owner (off + q % D * (8 * 2 ^ es))
    let r := State.stepReader k p owner q
    s.answerLdst k p owner D = (((s.dropPacket k).saw r key z).bindTo (.cover s.seq) (fun e => e.bound.contains (.step owner q))).sendReply p.dst p
      (extend z u (s.seenN r key z)) (s.poisoned key z) := by
  intro key r
  rw [State.answerLdst, hbody]

/-! ### The deferred pacing record (R254) -/

section Settle

variable {x : Option Pace} (hnext : (s.core cid).nextPace = some x)
include hnext

theorem settlePace_waits (h : (s.core cid).ctx0.busy = true ∨ (s.core cid).ctx1.busy = true) : s.settlePace cid = s := by
  rw [State.settlePace, hnext]
  exact if_pos (by rw [Bool.or_eq_true]; exact h)

theorem settlePace_takesEffect (h0 : (s.core cid).ctx0.busy = false) (h1 : (s.core cid).ctx1.busy = false) : s.settlePace cid =
    (s.unbind (fun y => match y with | .step c _ => c == cid | _ => false)).modCore cid (fun c => { c with
      stp := 0, done := false, known := [], stepds := [], pace := x, nextPace := none }) := by
  rw [State.settlePace, hnext]
  refine (if_neg ?_).trans rfl
  rw [h0, h1]
  exact Bool.false_ne_true

end Settle

/-- Settles O53: paced steps at work. -/
theorem stepsAtWork : Obligations.StepsAtWork := by
  refine ⟨fun s cid fid n hopen hsettled hnew hstepd hdone => next_congr (stepdDone_eq hopen hsettled hnew hstepd hdone),
    fun s cid fid n a hstepd hdone => olderAt_passStep hstepd hdone a, ?unperformed,
    fun s cid x hpace hopen hsettled hdone h0 h1 hdep hwatch => next_congr (stepAdvance_advances hpace hopen hsettled hdone h0 h1 hdep hwatch),
    fun s cid x hpace h => next_congr (stepAdvance_waits hpace h), ?notice, ?ldst, ?stepq, ?unknown,
    fun s cid x hnext => ⟨settlePace_waits hnext, settlePace_takesEffect hnext⟩, ?resend⟩
  case unperformed =>
    intro s fid cid n
    rw [State.unperformed]
    simp only [not_answers] <;> rfl
  case notice =>
    intro s k cid src stp done p harrived hdst hopen hbody hsettled old
    have heq := stepNotice_eq harrived hdst hopen hbody hsettled
    refine ⟨fun h => next_congr (heq.trans ?_), fun h => next_congr (heq.trans ?_)⟩
    · exact congrArg ((s.dropPacket k).setCore cid) (if_pos h)
    · exact congrArg ((s.dropPacket k).setCore cid) (if_neg (Nat.not_lt.mpr h))
  case ldst =>
    intro s k owner z q es off D u p harrived hdst hopen hsettled hbody hdepth c f key r
    have hearly := ldstRequest_early harrived hdst hopen hsettled hbody hdepth
    have hfinished := ldstRequest_finished harrived hdst hopen hsettled hbody hdepth
    exact ⟨fun h hfresh => next_congr ((hfinished h).trans ((if_neg (Nat.not_le.mpr hfresh)).trans (answerLdst_eq hbody s owner D))),
      fun h hstale => next_congr ((hfinished h).trans (if_pos hstale)),
      fun h hended => next_congr ((hearly h).trans (mustWait_ended owner hended)),
      fun h hlive hroom => next_congr ((hearly h).trans (mustWait_held owner hlive hroom)),
      fun h hlive hfull => next_congr ((hearly h).trans (mustWait_returned owner hlive hfull))⟩
  case stepq =>
    intro s k owner q p harrived hdst hopen hbody hsettled c
    have heq := stepqRequest_eq harrived hdst hopen hsettled hbody
    exact ⟨fun h => next_congr (heq.trans (if_pos h)),
      fun h hended => next_congr (heq.trans ((if_neg (Nat.not_le.mpr h)).trans (mustWait_ended owner hended))),
      fun h hlive hroom => next_congr (heq.trans ((if_neg (Nat.not_le.mpr h)).trans (mustWait_held owner hlive hroom)))⟩
  case unknown =>
    intro s k owner z q es off u p harrived hdst hopen hsettled hbody hdepth
    exact next_congr (ldstRequest_unknown harrived hdst hopen hsettled hbody hdepth)
  case resend =>
    intro s k p hp hpos
    refine next_congr ?_
    rw [State.stepResend, hp]
    exact if_pos hpos

end Sys2Proof.Proofs.PacedSteps
end

section
/-! PROOFS. The solver sequencer at work (O54, R267 to R277). -/

namespace Sys2Proof.Proofs.Sequencer

open Sys2Proof.Machine Sys2Proof.Proofs.Slots

variable {s : State} {k clid r : Nat} {p : Packet}

/-! ### Service (R267, R270) -/

section Serve

variable (hp : s.packet k = some p) (hdst : p.dst = .seqr clid) (hturn : s.seqrTurn k clid p = true)
include hp hdst hturn

section Tableau

variable {addr : Nat} (hbody : p.body = .sqtab addr)
include hbody

theorem sqtabServe_busy (h : ∃ x ∈ (s.cluster clid).recs, x.2.st = 2 ∨ x.2.st = 3) :
    s.sqtabServe k = (s.dropPacket k).failCmd p.cmd 0x31 0 [] := by
  rw [State.sqtabServe, hp]
  dsimp only
  rw [hbody, hdst]
  refine (if_pos hturn).trans (if_pos ?_)
  simpa using h

variable (hidle : ∀ x ∈ (s.cluster clid).recs, x.2.st ≠ 2 ∧ x.2.st ≠ 3) (hclean : s.poisoned (coreKey p.from_.cid addr) 384 = false)
include hidle hclean

theorem sqtabServe_takes {tb : Tableau} (h : s.tableauAt (State.imageReader k p) (coreKey p.from_.cid addr) = some tb) : s.sqtabServe k =
    (((s.dropPacket k).saw (State.imageReader k p) (coreKey p.from_.cid addr) 384).modCluster clid (fun c => { c with tab := some tb })).complete
      p.dst p.from_ p.ret p.cmd 1 := by
  rw [State.sqtabServe, hp]
  dsimp only
  rw [hbody, hdst]
  refine (if_pos hturn).trans ((if_neg ?_).trans ((if_neg ?_).trans ?_))
  · simpa using hidle
  · rw [hclean]
    exact Bool.false_ne_true
  · rw [h]

theorem sqtabServe_refuses (h : s.tableauAt (State.imageReader k p) (coreKey p.from_.cid addr) = none) : s.sqtabServe k =
    ((s.dropPacket k).saw (State.imageReader k p) (coreKey p.from_.cid addr) 384).failCmd p.cmd 0x31 0 [] := by
  rw [State.sqtabServe, hp]
  dsimp only
  rw [hbody, hdst]
  refine (if_pos hturn).trans ((if_neg ?_).trans ((if_neg ?_).trans ?_))
  · simpa using hidle
  · rw [hclean]
    exact Bool.false_ne_true
  · rw [h]

end Tableau

section Init

variable {addr : Nat} (hbody : p.body = .sqinit addr r)
include hbody

theorem sqinitServe_untabled (h : (s.cluster clid).tab = none) : s.sqinitServe k = (s.dropPacket k).failCmd p.cmd 0x31 0 [] := by
  rw [State.sqinitServe, hp]
  dsimp only
  rw [hbody, hdst]
  refine (if_pos hturn).trans ?_
  rw [h]

theorem sqinitServe_busy {tb : Tableau} (htab : (s.cluster clid).tab = some tb) (h : (s.sample clid r).st = 2 ∨ (s.sample clid r).st = 3) :
    s.sqinitServe k = (s.dropPacket k).failCmd p.cmd 0x31 0 [] := by
  rw [State.sqinitServe, hp]
  dsimp only
  rw [hbody, hdst]
  refine (if_pos hturn).trans ?_
  rw [htab]
  exact if_pos h

theorem sqinitServe_takes {tb : Tableau} {x : Sample} (htab : (s.cluster clid).tab = some tb)
    (hidle : ¬((s.sample clid r).st = 2 ∨ (s.sample clid r).st = 3)) (hclean : s.poisoned (coreKey p.from_.cid addr) 128 = false)
    (h : s.sampleAt (State.imageReader k p) (coreKey p.from_.cid addr) tb.s p.from_.part p.from_ = .ok x) : s.sqinitServe k =
      (((s.dropPacket k).saw (State.imageReader k p) (coreKey p.from_.cid addr) 128).setSample clid r x).complete p.dst p.from_ p.ret p.cmd 1 := by
  rw [State.sqinitServe, hp]
  dsimp only
  rw [hbody, hdst]
  refine (if_pos hturn).trans ?_
  rw [htab]
  refine (if_neg hidle).trans ((if_neg ?_).trans ?_)
  · rw [hclean]
    exact Bool.false_ne_true
  · rw [h]

end Init

theorem sqstepServe_eq (hbody : p.body = .sqstep r) : s.sqstepServe k = if (s.sample clid r).st = 1 then
    ((s.dropPacket k).passSample k clid r p).setSample clid r { s.sample clid r with st := 2, stage := 1, forming := true, from_ := p.from_ }
    else (s.dropPacket k).faultRequest p.from_ 0x31 := by
  rw [State.sqstepServe, hp]
  dsimp only
  rw [hbody, hdst]
  exact if_pos hturn

theorem sqstageServe_eq {i : Nat} {tb : Tableau} (hbody : p.body = .sqstage r i) (htab : (s.cluster clid).tab = some tb) : s.sqstageServe k =
    if (s.sample clid r).st = 2 ∧ (s.sample clid r).stage = i then
      (if i < tb.s then
        ((s.dropPacket k).passSample k clid r p).setSample clid r { s.sample clid r with stage := i + 1, forming := true, from_ := p.from_ }
      else ((s.dropPacket k).passSample k clid r p).setSample clid r { s.sample clid r with st := 3, stage := 0, from_ := p.from_ })
    else (s.dropPacket k).faultRequest p.from_ 0x31 := by
  rw [State.sqstageServe, hp]
  dsimp only
  rw [hbody, hdst]
  refine (if_pos hturn).trans ?_
  rw [htab]
  rfl

theorem sqrdServe_eq {sel : Nat} (hbody : p.body = .sqrd r sel) : s.sqrdServe k =
    (s.dropPacket k).sendReply p.dst p (State.sqField (s.sample clid r) sel) false := by
  rw [State.sqrdServe, hp]
  dsimp only
  rw [hbody, hdst]
  exact if_pos hturn

end Serve

/-! ### Forming and judging (R271 to R275) -/

section Work

variable {tb : Tableau} (htab : (s.cluster clid).tab = some tb)
include htab

theorem stageFormed_poisoned (hforming : (s.sample clid r).forming = true)
    (h : s.stagePoison clid (s.sample clid r) ((s.sample clid r).stage - 1) = true) :
    s.stageFormed clid r = s.seqrFault clid r (s.sample clid r) 0x21 := by
  rw [State.stageFormed]
  dsimp only
  rw [htab]
  exact (if_pos hforming).trans (if_pos h)

/-- The record of a formed stage: its time stands (R271). -/
def formed (tb : Tableau) (x : Sample) : Sample :=
  { x with forming := false, ts := roundFp32 (XReal.add (decodeFp32 x.t) (XReal.mul (decodeFp32 (tb.c.getD (x.stage - 1) 0)) (decodeFp32 x.h)) 0) 0 }

theorem stageFormed_eq {x : Sample} (hx : s.sample clid r = x) (hforming : x.forming = true)
    (h : s.stagePoison clid x (x.stage - 1) = false) : s.stageFormed clid r =
      (((s.sawArrays clid r x (x.stage - 1)).putArray clid x.za (s.formArray clid r x
        ((List.range (x.stage - 1)).map (fun j => tb.a.getD (7 * (x.stage - 1) + j) 0)))).setSample clid r (formed tb x)).seqrSignal clid (formed tb x) 0 := by
  subst hx
  rw [State.stageFormed]
  dsimp only
  rw [htab]
  exact (if_pos hforming).trans (if_neg (by rw [h]; exact Bool.false_ne_true))

theorem stepDecision_poisoned (hjudged : (s.sample clid r).st = 3) (h : s.stagePoison clid (s.sample clid r) tb.s = true) :
    s.stepDecision clid r = s.seqrFault clid r (s.sample clid r) 0x21 := by
  rw [State.stepDecision]
  dsimp only
  rw [htab]
  refine (if_neg ?_).trans (if_pos h)
  rw [hjudged]
  exact Bool.false_ne_true

/-- The error of a judged step (R272). -/
def stepError (s : State) (clid r : Nat) (tb : Tableau) (x : Sample) : BitVec 32 :=
  errNorm x.n ((List.range x.n).map (fun e => errRatio x.atol x.rtol ((s.arrayAt clid r x.ya x.n).getD e 0) ((s.formArray clid r x tb.b).getD e 0)
    ((s.formArray clid r x tb.bh).getD e 0)))
/-- The arrays of a judged step: w stands (R271). -/
def judgedArrays (s : State) (clid r : Nat) (tb : Tableau) (x : Sample) : State :=
  (s.sawArrays clid r x tb.s).putArray clid x.wa (s.formArray clid r x tb.b)
/-- The step that the controller proposes (R272). -/
def proposed (tb : Tableau) (x : Sample) (err : BitVec 32) : BitVec 32 := fpMul x.h (stepFactor tb err) 0
/-- A rejected step of a held record (R273). -/
def rejected (x : Sample) (err h : BitVec 32) (last : Bool) : Sample :=
  { x with h := h, last := last, err := err, nrej := State.satCount x.nrej, st := 1 }
/-- The accepted last step of a record without history (R273). -/
def ended (x : Sample) (err h : BitVec 32) (last : Bool) : Sample :=
  { x with h := h, last := last, err := err, ya := x.wa, wa := x.ya, t := x.tend, nacc := State.satCount x.nacc, st := 4 }

section Decision

variable {x : Sample} (hx : s.sample clid r = x) (hjudged : x.st = 3) (hclean : s.stagePoison clid x tb.s = false)
include hx hjudged hclean

theorem stepDecision_rejected (hreject : XReal.le (decodeFp32 (stepError s clid r tb x)) (XReal.ofInt 1) = false) {last : Bool} {h : BitVec 32}
    (hlast : last = endTest x.t x.t (proposed tb x (stepError s clid r tb x)) x.tend)
    (hh : h = if last then fpSub x.tend x.t 0 else proposed tb x (stepError s clid r tb x)) (hzero : (decodeFp32 h).isZero = false)
    (hfin : fin32 h = true) (hhold : x.hold = true) : s.stepDecision clid r =
      ((judgedArrays s clid r tb x).setSample clid r (rejected x (stepError s clid r tb x) h last)).seqrSignal clid
        (rejected x (stepError s clid r tb x) h last) 2 := by
  subst hlast
  subst hh
  rw [State.stepDecision, hx, htab]
  refine (if_neg (by rw [hjudged]; exact Bool.false_ne_true)).trans ((if_neg (by rw [hclean]; exact Bool.false_ne_true)).trans ?_)
  unfold proposed stepError at *
  dsimp only
  rw [hreject]
  simp only [Bool.false_and, Bool.not_false, Bool.true_and, Bool.false_eq_true, if_false]
  refine (if_neg ?_).trans ?_
  · rw [hzero, hfin]
    exact Bool.false_ne_true
  · rw [if_pos hhold]
    rfl

theorem stepDecision_ends (haccept : XReal.le (decodeFp32 (stepError s clid r tb x)) (XReal.ofInt 1) = true) (hl : x.last = true) (hnh : x.nh = 0)
    (heq : XReal.eq (decodeFp32 x.tend) (decodeFp32 x.tend) = true) {last : Bool} {h : BitVec 32}
    (hlast : last = endTest x.t x.tend (proposed tb x (stepError s clid r tb x)) x.tend)
    (hh : h = if last then fpSub x.tend x.tend 0 else proposed tb x (stepError s clid r tb x)) : s.stepDecision clid r =
      ((judgedArrays s clid r tb x).setSample clid r (ended x (stepError s clid r tb x) h last)).seqrSignal clid
        (ended x (stepError s clid r tb x) h last) 3 := by
  subst hlast
  subst hh
  rw [State.stepDecision, hx, htab]
  refine (if_neg (by rw [hjudged]; exact Bool.false_ne_true)).trans ((if_neg (by rw [hclean]; exact Bool.false_ne_true)).trans ?_)
  unfold proposed stepError at *
  dsimp only
  rw [haccept]
  simp only [Bool.true_and, hl, heq, Bool.not_true, Bool.false_and, Bool.false_eq_true, if_false, if_true]
  rw [State.exchange, if_pos hnh]
  rfl

end Decision

end Work

/-- Settles O54: the solver sequencer at work. -/
theorem solverAtWork : Obligations.SolverAtWork := by
  refine ⟨?serve, ?work⟩
  case serve =>
    intro s k clid p hp hdst hturn t rd
    refine ⟨fun addr hbody => ⟨fun hidle hclean => ⟨fun tb h => ?_, fun h => ?_⟩, fun h => ?_⟩, fun addr r hbody => ⟨fun h => ?_, fun tb x htab h2 h3 hclean h => ?_⟩,
      fun r hbody => ?_, fun r i tb hbody htab => ?_, fun r sel hbody => next_congr (sqrdServe_eq hp hdst hturn hbody)⟩
    · exact next_congr (sqtabServe_takes hp hdst hturn hbody hidle hclean h)
    · exact next_congr (sqtabServe_refuses hp hdst hturn hbody hidle hclean h)
    · exact next_congr (sqtabServe_busy hp hdst hturn hbody h)
    · cases htab : (s.cluster clid).tab with
      | none => exact next_congr (sqinitServe_untabled hp hdst hturn hbody htab)
      | some tb =>
        rw [htab] at h
        exact next_congr (sqinitServe_busy hp hdst hturn hbody htab (h.resolve_left (Option.some_ne_none tb)))
    · exact next_congr (sqinitServe_takes hp hdst hturn hbody htab (not_or.mpr ⟨h2, h3⟩) hclean h)
    · have heq := sqstepServe_eq hp hdst hturn hbody
      exact ⟨fun h => next_congr (heq.trans (if_pos h)), fun h => next_congr (heq.trans (if_neg h))⟩
    · have heq := sqstageServe_eq hp hdst hturn hbody htab
      exact ⟨fun hst hstage hi => next_congr (heq.trans ((if_pos ⟨hst, hstage⟩).trans (if_pos hi))),
        fun hst hstage hi => next_congr (heq.trans ((if_pos ⟨hst, hstage⟩).trans (if_neg (Nat.not_lt.mpr hi)))),
        fun h => next_congr (heq.trans (if_neg (by rw [not_and_or]; exact h)))⟩
  case work =>
    intro s clid r tb htab x
    refine ⟨fun hforming hclean => next_congr (stageFormed_eq htab rfl hforming hclean),
      fun hforming hpoison => next_congr (stageFormed_poisoned htab hforming hpoison),
      fun hjudged hpoison => next_congr (stepDecision_poisoned htab hjudged hpoison), ?rejected, ?ended⟩
    case rejected =>
      intro hjudged hclean y w yh err h0 hreject last h hzero hfin hhold
      exact next_congr (stepDecision_rejected htab rfl hjudged hclean hreject rfl rfl hzero hfin hhold)
    case ended =>
      intro hjudged hclean hl hnh y w yh err h0 haccept heq last
      exact next_congr (stepDecision_ends htab rfl hjudged hclean haccept hl hnh heq rfl rfl)

end Sys2Proof.Proofs.Sequencer
end

section
/-! PROOFS. Launches at work (O55): the clause on the start of a root frame is refuted. The model writes the arguments where the name of the taken frame
led before the frame was written, the statement where it leads afterwards; they differ where a local frame has a number of 4,096 or more, which no
carve-out holds but a state may have. -/

namespace Sys2Proof.Proofs.LaunchStart

open Sys2Proof.Machine Sys2Proof.Proofs.Words Sys2Proof.Proofs.Slots Sys2Proof.Proofs.FrameRequests

variable {s : State} {cid f : Nat}

/-! ### Where the name of a frame leads (R183, R186) -/

theorem localKey_aligned (s : State) (cid i : Nat) : s.localKey cid i % 256 = 0 := by
  rw [State.localKey, State.carveBase, coreKey, space]
  omega

theorem spillKey_above (s : State) (cid i : Nat) : 3 * 2 ^ 60 ≤ s.spillKey cid i := Nat.le_add_right _ _

theorem frameKey_aligned_or_above (hf : 4096 ≤ f) : s.frameKey cid f % 256 = 0 ∨ 3 * 2 ^ 60 ≤ s.frameKey cid f := by
  rw [State.frameKey, if_neg (by omega)]
  split
  · exact .inl (localKey_aligned s cid _)
  · exact .inr (spillKey_above s cid _)

/-- A resident copy has a header that says so (R171, R186). -/
theorem hdrCopy_of_resident {i j : Nat} (h : s.residentOf cid i = some j) : hdrCopy (s.readW (s.localKey cid j)) = true := by
  have hj := List.find?_some h
  simp only [Bool.and_eq_true] at hj
  exact hj.1.1.1

theorem residentOf_lt {i j : Nat} (h : s.residentOf cid i = some j) : j < s.frames (s.partOf cid) :=
  List.mem_range.mp (List.mem_of_find?_eq_some h)

theorem localKey_below (s : State) (cid i : Nat) : s.localKey cid i ≤ cid * 2 ^ 17 + 0x20000 + 256 * i := by
  rw [State.localKey, State.carveBase, coreKey, space]
  omega

/-- The name of a spilled frame does not lead to a local frame whose header is no copy's. -/
theorem frameKey_ne {key : Nat} (hf : 4096 ≤ f) (hkey : key < 3 * 2 ^ 60) (hcopy : hdrCopy (s.readW key) = false) : s.frameKey cid f ≠ key := by
  rw [State.frameKey, if_neg (by omega)]
  split
  next j hj =>
    rintro rfl
    rw [hdrCopy_of_resident hj] at hcopy
    cases hcopy
  next =>
    have := spillKey_above s cid (f - 4096)
    omega

theorem frameKey_resident {j : Nat} (hf : 4096 ≤ f) (h : s.residentOf cid (f - 4096) = some j) : s.frameKey cid f = s.localKey cid j := by
  rw [State.frameKey, if_neg (by omega), h]

/-- Local frame j is the resident copy of spilled frame i, as far as it can be told without the frames below it (R186). -/
def residentAt (s : State) (cid i j : Nat) : Bool :=
  hdrCopy (s.readW (s.localKey cid j)) && hdrHome (s.readW (s.localKey cid j)) == i && !((s.core cid).wback.contains j) &&
    (hdrAlloc (s.readW (s.localKey cid j)) || hdrAsync (s.readW (s.localKey cid j)) != 0 || ((s.core cid).ctx0.busy && (s.core cid).ctx0.frame == j) ||
      ((s.core cid).ctx1.busy && (s.core cid).ctx1.frame == j))

theorem residentOf_isSome {i j n : Nat} (hframes : s.frames (s.partOf cid) = n) (hj : j < n) (h : residentAt s cid i j = true) :
    (s.residentOf cid i).isSome = true := by
  rw [State.residentOf, hframes, List.find?_isSome]
  exact ⟨j, List.mem_range.mpr hj, h⟩

/-- The lowest free local frame is taken where no frame waits on the fill list for one (R182). -/
theorem takeFrame_first {n : Nat} (hframes : s.frames (s.partOf cid) = n + 2) (hbusy : ∀ i, i < n → s.localFree cid i = false)
    (hfree : s.localFree cid n = true) (hwaiting : (s.waitingFrames cid).length = 0) : s.takeFrame cid = some n := by
  have hnone : (List.range n).filter (s.localFree cid) = [] :=
    List.filter_eq_nil_iff.mpr fun i hi => by rw [hbusy i (List.mem_range.mp hi)]; exact Bool.false_ne_true
  rw [State.takeFrame, hframes, hwaiting, List.range_succ, List.range_succ, List.append_assoc, List.filter_append, hnone, List.singleton_append,
    List.filter_cons_of_pos hfree]
  rfl

/-! ### The start of the root core's frame (R287, R291) -/

theorem castAt_root {d k : Nat} {i : Inst} {g : Graph} {r : State} (hi : s.inst k = some i) (hstate : i.state = 1) (hnew : i.started = false)
    (hcast : d ∉ i.cast) (hd : ∃ x ∈ s.shares i.part, x.1 = d) (hg : s.graphOf k = some g) (hcopy : i.copy = [])
    (hroot : dieOf (s.place i.part g.root i.key) = d) (hlive : i.stopping = 0) (hturn : s.rootTurn i (s.place i.part g.root i.key) = some r) :
    s.castAt d k = r.startRoot k { i with cast := i.cast ++ [d] } (s.place i.part g.root i.key) g.root := by
  rw [State.castAt, hi]
  dsimp only
  refine (if_neg ?_).trans ?_
  · have hshare : (s.shares i.part).any (fun x => x.1 == d) = true := List.any_eq_true.mpr (by simpa using hd)
    rw [hstate, hnew, hcopy, hshare]
    simpa using hcast
  · rw [hg]
    dsimp only
    rw [if_neg (by simpa using hroot), if_neg (by simpa using hlive), hturn]

/-- The module with a frame taken and written for the root of an instance (R182, R193). -/
def rooted (s : State) (k cid f cb : Nat) (i : Inst) : State :=
  ((s.setInst k i).freshFrame cid f).writeFrame cid f cb (BitVec.ofNat 64 (i.comp.getD 0)) { inst := k, depth := i.depth, limit := i.limit } []
/-- The arguments of an instance written behind the slots of the frame at a key (R287). -/
def withArgs (t : State) (key : Nat) (l : List Word) : State :=
  (List.range l.length).foldl (fun v j => v.writeW (key + 80 + 8 * j) (l.getD j 0)) t
/-- The fire of slot 0 that starts an instance (R287). -/
def firstSignal (k : Nat) (i : Inst) : Sig := { val := 0, bytes := 0, fire := true, from_ := State.agentIssuer i.part k, source := 3 }
/-- Slot 0 of the root's frame fires, and passes what the launch passes (R292). -/
def fired (u : State) (k cid f key : Nat) (i : Inst) : State :=
  (u.bindTo (.slot cid f 0) (fun e => e.bound.contains (.inst k))).signalSlot cid f 0 key (decide (4096 ≤ f)) [firstSignal k i]

theorem startRoot_takes {k cb : Nat} {i : Inst} (hdead : (s.core cid).dead = false) (htake : s.takeFrame cid = some f) : s.startRoot k i cid cb =
    fired (withArgs (rooted s k cid f cb { i with started := true }) (s.frameKey cid f) i.args) k cid f (s.slotKey cid f 0) i := by
  rw [State.startRoot, hdead, htake]
  rfl

/-- A signal to slot 0 leaves a word that lies off the slot. -/
theorem readW_fired {u : State} {k key a : Nat} {i : Inst} (h : a + 8 ≤ key ∨ key + 8 ≤ a) : (fired u k cid f key i).readW a = u.readW a :=
  readW_congr fun j _ _ => (SlotsOnly.signalSlot (base := key) (s := u.bindTo (.slot cid f 0) _) (k := 0) (decide (4096 ≤ f)) _).bytes j (by omega)

theorem withArgs_single (t : State) (key : Nat) (v : Word) : withArgs t key [v] = t.writeW (key + 80) v := rfl

/-! ### Where the arguments go -/

section Arguments

variable {r : State} {k cb : Nat} {i : Inst} {v : Word}

theorem freshFrame_eq (s : State) (cid f : Nat) : s.freshFrame cid f = { s with older := (s.freshFrame cid f).older } := rfl

theorem frameKey_older (s : State) (k cid f : Nat) (i : Inst) (l : List Older) :
    ({ s.setInst k i with older := l } : State).frameKey cid f = s.frameKey cid f :=
  Firings.frameKey_congr (s := s) rfl rfl rfl rfl rfl rfl f

theorem frameKey_freshFrame (s : State) (k cid f : Nat) (i : Inst) : ((s.setInst k i).freshFrame cid f).frameKey cid f = s.frameKey cid f := by
  rw [freshFrame_eq]
  exact frameKey_older s k cid f i _

theorem memWf_rooted (hw : memWf r.mem = true) : memWf (rooted r k cid f cb i).mem = true := by
  rw [rooted]
  exact wf_writeFrame _ _ _ _ _ _ _ (wf_freshFrame _ _ _ hw)

theorem rooted_header (hw : memWf r.mem = true) : (rooted r k cid f cb i).readW (r.frameKey cid f) = mkHdr cb true false 0 0 := by
  have h := writeFrame_header ((r.setInst k i).freshFrame cid f) cid f cb (BitVec.ofNat 64 (i.comp.getD 0))
    { inst := k, depth := i.depth, limit := i.limit } [] (wf_freshFrame _ _ _ hw)
  rwa [frameKey_freshFrame] at h

theorem rooted_arguments : (rooted r k cid f cb i).readW (r.frameKey cid f + 80) = r.readW (r.frameKey cid f + 80) := by
  refine readW_congr fun j hj _ => ?_
  rw [rooted, writeFrame_byte _ cid f cb _ _ _ (.inr (by rw [frameKey_freshFrame]; exact hj))]
  rfl

theorem hdrCopy_mkHdr (cb : Nat) : hdrCopy (mkHdr cb true false 0 0) = false := by
  rw [hdrCopy, BitVec.getLsbD, mkHdr_toNat, Nat.testBit_eq_decide_div_mod_eq]
  simp
  omega

/-- What was written at the old place of the frame stands there. -/
theorem args_at_old_key (hw : memWf r.mem = true) :
    (fired (withArgs (rooted r k cid f cb i) (r.frameKey cid f) [v]) k cid f (r.slotKey cid f 0) i).readW (r.frameKey cid f + 80) = v := by
  have hslot : r.slotKey cid f 0 = r.frameKey cid f + 16 := rfl
  rw [hslot, readW_fired (.inr (by omega)), withArgs_single, readW_writeW_same (memWf_rooted hw)]

/-- Written at another place, they leave the old one. -/
theorem args_elsewhere {t : State} {key slot a : Nat} (hkey : a + 8 ≤ key + 80 ∨ key + 88 ≤ a) (hslot : a + 8 ≤ slot ∨ slot + 8 ≤ a) :
    (fired (withArgs t key [v]) k cid f slot i).readW a = t.readW a := by
  rw [readW_fired hslot, withArgs_single, readW_writeW_other (by omega)]

/-- Written at the new place of the frame, they leave the old one. -/
theorem args_at_new_key {t u : State} (hw : memWf r.mem = true) (hf : 4096 ≤ f) (haligned : r.frameKey cid f % 256 = 0)
    (hbelow : r.frameKey cid f < 2 ^ 61) (ht : t = rooted r k cid f cb i) (hu : u = withArgs t (t.frameKey cid f) [v]) :
    (fired u k cid f (u.slotKey cid f 0) i).readW (r.frameKey cid f + 80) = r.readW (r.frameKey cid f + 80) := by
  have hne : t.frameKey cid f ≠ r.frameKey cid f := frameKey_ne hf (by omega) (by rw [ht, rooted_header hw, hdrCopy_mkHdr])
  have hkey := frameKey_aligned_or_above (s := t) (cid := cid) hf
  have hslot : (u.slotKey cid f 0) % 256 = 16 ∨ 3 * 2 ^ 60 ≤ u.slotKey cid f 0 := by
    have hslot : u.slotKey cid f 0 = u.frameKey cid f + 16 := rfl
    have := frameKey_aligned_or_above (s := u) (cid := cid) hf
    omega
  generalize u.slotKey cid f 0 = slot at *
  rw [hu, args_elsewhere (by omega) (by omega), ht, rooted_arguments]

end Arguments

/-- Where the statement puts the arguments: the frame's name as it leads once the frame is written. -/
def stated (r : State) (k cid f cb : Nat) (i : Inst) : State :=
  let t := rooted r k cid f cb i
  let u := withArgs t (t.frameKey cid f) i.args
  fired u k cid f (u.slotKey cid f 0) i

theorem castAt_stated (h : Obligations.LaunchesAtWork) {d k : Nat} {i : Inst} {g : Graph} {r : State} (hi : s.inst k = some i)
    (hstate : i.state = 1) (hnew : i.started = false) (hcast : d ∉ i.cast) (hd : ∃ x ∈ s.shares i.part, x.1 = d) (hg : s.graphOf k = some g)
    (hcopy : i.copy = []) (hplace : s.place i.part g.root i.key = cid) (hroot : dieOf cid = d) (hlive : i.stopping = 0)
    (hturn : s.rootTurn i cid = some r) (hdead : (s.core cid).dead = false) (htake : s.takeFrame cid = some f) :
    s.castAt d k = stated r k cid f g.root { i with cast := i.cast ++ [d], started := true } := by
  subst hplace
  obtain ⟨-, -, -, -, -, -, -, -, -, hcasts, -⟩ := h
  obtain ⟨-, -, -, -, hstarts⟩ := hcasts s d k f i g hi hstate hnew hcast hd hg hcopy
  exact Host.Outcome.next.inj (hstarts r hroot hlive hturn hdead htake)

/-! ### A carve-out of 4,098 frames -/

/-- A graph whose root codeblock is placed by the hash. -/
def graph : Graph :=
  { root := 0, codeLo := 0, codeHi := 0, depth := 0, policy := none, pace := none, tensors := [], leases := [], sections := [], splices := [] }
/-- A running instance of it with one argument, which its first launch agent has yet to start. -/
def launch : Inst :=
  { part := 0, handle := 0, graph := 0, key := 0, args := [1], depth := 0, limit := 0, comp := none, state := 1, reason := 0, arrived := true
    cast := [], credit := false, die := 0, quarter := 4, stopping := 0, waiters := [], record := 0, tag := 0, host := false, ended := 0
    started := false, copy := [] }
/-- Partition 0 holds die 0. On core 0 the local frames of a list are being written back, local frame 4,096 is free, and local frame 4,097 is
the resident copy of spilled frame 0, which the number 4,096 names too. -/
def siteWith (held : List Nat) : State := { (default : State) with
  mem := [(256 * 4097 + 2, 3)]
  cores := [(0, { Core.init with wback := held })]
  mgmt := { (default : State).mgmt with ok := true, region := [(0, 0x4000)] }
  parts := [(0, { Part.init with image := some { frames := 4098, code := [], blocks := [], graphs := [graph], descs := [], splices := [] } })]
  insts := [(0, launch)] }

/-- The local frames below 4,096 are being written back, so that 4,096 is the first free one. -/
def site : State := siteWith (List.range 4096)

theorem site_wback (held : List Nat) : ((siteWith held).core 0).wback = held := rfl

theorem site_frames : site.frames (site.partOf 0) = 4096 + 2 := by decide +kernel

theorem site_idle : (site.waitingFrames 0).length = 0 := by decide +kernel

/-- Local frame 4,097 is a resident copy of spilled frame 0. -/
theorem site_copy : residentAt site 0 0 4097 = true := by decide +kernel

theorem site_free : site.localFree 0 4096 = true := by decide +kernel

theorem site_busy {i : Nat} (h : i < 4096) : site.localFree 0 i = false := by
  have hwback : (site.core 0).wback.contains i = true := by
    rw [site, site_wback]
    exact List.contains_iff_mem.mpr (List.mem_range.mpr h)
  rw [State.localFree, hwback]
  simp only [Bool.not_true, Bool.and_false, Bool.false_and]

theorem site_takes : site.takeFrame 0 = some 4096 :=
  takeFrame_first site_frames (fun _ => site_busy) site_free site_idle

theorem site_resident : (site.residentOf 0 0).isSome = true := residentOf_isSome site_frames (by decide) site_copy

theorem site_turn : ((site.agentTurn (.core 0)).bind (fun t => t.frameTurn 0 4096)).isSome = true := by decide +kernel

theorem site_rootTurn : site.rootTurn launch 0 = (site.agentTurn (.core 0)).bind (fun t => t.frameTurn 0 4096) := by
  have hdead : (site.core 0).dead = false := by decide +kernel
  rw [State.rootTurn, hdead, site_takes]
  rfl

theorem readW_zero {a : Nat} (h : ∀ i, a ≤ i → i < a + 8 → s.byte i = 0) : s.readW a = 0 :=
  (readW_congr (s := { s with mem := [] }) h).trans rfl

/-- Only the byte that makes local frame 4,097 a copy is not 0. -/
theorem site_byte {a : Nat} (h : a ≠ 256 * 4097 + 2) : site.byte a = 0 := by
  have hmem : site.mem = [(256 * 4097 + 2, 3)] := rfl
  rw [State.byte, hmem, memRead, if_neg h]
  rfl

theorem rootTurn_diesOnly {r : State} (h : (s.agentTurn (.core cid)).bind (fun t => t.frameTurn cid f) = some r) : DiesOnly s r :=
  DiesOnly.bind h (fun _ => State.takeTurn_diesOnly) (fun _ => State.frameTurn_diesOnly)

section Turn

variable {ds : Tbl Die}

theorem takeFrame_dies (s : State) (cid : Nat) : ({ s with dies := ds } : State).takeFrame cid = s.takeFrame cid := rfl
theorem frameKey_dies (s : State) (cid f : Nat) : ({ s with dies := ds } : State).frameKey cid f = s.frameKey cid f := rfl

end Turn

/-- The root core of the launch. -/
theorem site_place : site.place launch.part graph.root launch.key = 0 := by decide +kernel

/-- The taken frame's number leads to the copy of spilled frame 0. -/
theorem site_key : site.frameKey 0 4096 % 256 = 0 ∧ site.frameKey 0 4096 < 2 ^ 61 := by
  obtain ⟨j, hj⟩ := Option.isSome_iff_exists.mp site_resident
  have hlt := residentOf_lt hj
  have hbelow := localKey_below site 0 j
  rw [site_frames] at hlt
  rw [frameKey_resident (Nat.le_refl 4096) hj]
  exact ⟨localKey_aligned site 0 j, by omega⟩

/-- Refutes O55: the arguments of a launch go where the taken frame's name led before the frame was written. -/
theorem not_launchesAtWork : ¬ Obligations.LaunchesAtWork := by
  intro hob
  obtain ⟨r, hr⟩ := Option.isSome_iff_exists.mp site_turn
  have hturn : site.rootTurn launch 0 = some r := site_rootTurn.trans hr
  have hdies : r = { site with dies := r.dies } := rootTurn_diesOnly hr
  have hdead : (site.core 0).dead = false := by decide +kernel
  have hinst : site.inst 0 = some launch := by decide +kernel
  have hgraph : site.graphOf 0 = some graph := by decide +kernel
  have hshare : ∃ x ∈ site.shares 0, x.1 = 0 := by decide +kernel
  have hstated := castAt_stated hob hinst rfl rfl List.not_mem_nil hshare hgraph rfl site_place rfl rfl hturn hdead site_takes
  have hmodel : site.castAt 0 0 = r.startRoot 0 { launch with cast := launch.cast ++ [0] } 0 graph.root := by
    have h := castAt_root (r := r) hinst rfl rfl List.not_mem_nil hshare hgraph rfl
    rw [site_place] at h
    exact h rfl rfl hturn
  have hkey : r.frameKey 0 4096 = site.frameKey 0 4096 := by rw [hdies]; exact frameKey_dies site 0 4096
  have htake : r.takeFrame 0 = some 4096 := by rw [hdies, takeFrame_dies]; exact site_takes
  have hcore : (r.core 0).dead = false := by rw [hdies]; exact hdead
  have hmem : r.mem = site.mem := (congrArg State.mem hdies :)
  have hwf : memWf r.mem = true := by rw [hmem]; decide +kernel
  obtain ⟨haligned, hbelow⟩ := site_key
  rw [← hkey] at haligned hbelow
  rw [startRoot_takes hcore htake] at hmodel
  have hold : (site.castAt 0 0).readW (r.frameKey 0 4096 + 80) = 1 := by
    rw [hmodel]
    exact args_at_old_key hwf
  have hnew : (site.castAt 0 0).readW (r.frameKey 0 4096 + 80) = r.readW (r.frameKey 0 4096 + 80) := by
    rw [hstated]
    exact args_at_new_key hwf (Nat.le_refl 4096) haligned hbelow rfl rfl
  have hzero : r.readW (r.frameKey 0 4096 + 80) = 0 := readW_zero fun a ha hb => by
    rw [State.byte, hmem]
    exact site_byte (by omega)
  rw [hold, hzero] at hnew
  exact absurd hnew (by decide)

end Sys2Proof.Proofs.LaunchStart
end

section
/-! PROOFS. Module service and host accesses (O58, in part: R9, R347 to R349, R375 to R381). -/

namespace Sys2Proof.Proofs.Service

open Sys2Proof.Machine Sys2Proof.Proofs.Slots Sys2Proof.Proofs.TileWalks

variable {s t : State}

/-! ### Module reset (R376) -/

/-- The module's registers behind a boot from a slot, with the cause for which the active slot was passed over. -/
def bootedFrom (s : State) (slot cause : Nat) : Module :=
  let img := s.slotImage slot
  { { Module.init with ok := false, floor := s.mgmt.floor, active := s.mgmt.active } with
    ok := true, slot := slot, cause := cause, ver := BitVec.ofNat 32 (fieldOf img 8 4), repairRaw := repairBytes img
    repair := repairMap (repairBytes img), digest := fitBytes 64 (img.drop 64) }

theorem bootedFrom_fields (s : State) (slot cause : Nat) : (bootedFrom s slot cause).ok = true ∧ (bootedFrom s slot cause).slot = slot ∧
    (bootedFrom s slot cause).cause = cause ∧ (bootedFrom s slot cause).ver = BitVec.ofNat 32 (fieldOf (s.slotImage slot) 8 4) ∧
    (bootedFrom s slot cause).floor = s.mgmt.floor ∧ (bootedFrom s slot cause).active = s.mgmt.active := by
  unfold bootedFrom
  exact ⟨rfl, rfl, rfl, rfl, rfl, rfl⟩

theorem mgmt_moduleReset (s : State) : s.moduleReset.mgmt =
    let a := s.mgmt.active % 2
    let ca := imageCause (s.slotImage a) s.mgmt.floor.toNat
    if ca = 0 then bootedFrom s a 0
    else if imageCause (s.slotImage s.otherSlot) s.mgmt.floor.toNat = 0 then bootedFrom s s.otherSlot ca
    else { Module.init with ok := false, floor := s.mgmt.floor, active := s.mgmt.active, cause := ca } := by
  unfold State.moduleReset bootedFrom
  dsimp only

theorem mgmt_moduleReset_active (h : imageCause (s.slotImage (s.mgmt.active % 2)) s.mgmt.floor.toNat = 0) :
    s.moduleReset.mgmt = bootedFrom s (s.mgmt.active % 2) 0 := (mgmt_moduleReset s).trans (if_pos h)

theorem mgmt_moduleReset_other (h : imageCause (s.slotImage (s.mgmt.active % 2)) s.mgmt.floor.toNat ≠ 0)
    (ho : imageCause (s.slotImage (1 - s.mgmt.active % 2)) s.mgmt.floor.toNat = 0) :
    s.moduleReset.mgmt = bootedFrom s (1 - s.mgmt.active % 2) (imageCause (s.slotImage (s.mgmt.active % 2)) s.mgmt.floor.toNat) :=
  (mgmt_moduleReset s).trans ((if_neg h).trans (if_pos ho))

theorem mgmt_moduleReset_none (h : imageCause (s.slotImage (s.mgmt.active % 2)) s.mgmt.floor.toNat ≠ 0)
    (ho : imageCause (s.slotImage (1 - s.mgmt.active % 2)) s.mgmt.floor.toNat ≠ 0) :
    s.moduleReset.mgmt = { Module.init with ok := false, floor := s.mgmt.floor, active := s.mgmt.active,
                                            cause := imageCause (s.slotImage (s.mgmt.active % 2)) s.mgmt.floor.toNat } :=
  (mgmt_moduleReset s).trans ((if_neg h).trans (if_neg ho))

theorem moduleReset_refused (h : imageCause (s.slotImage (s.mgmt.active % 2)) s.mgmt.floor.toNat ≠ 0)
    (ho : imageCause (s.slotImage (1 - s.mgmt.active % 2)) s.mgmt.floor.toNat ≠ 0) : s.moduleReset.mgmt.ok = false ∧
      s.moduleReset.mgmt.cause = imageCause (s.slotImage (s.mgmt.active % 2)) s.mgmt.floor.toNat := by
  rw [mgmt_moduleReset_none h ho]
  constructor <;> dsimp only

/-- What a module reset empties, whatever it boots. -/
theorem moduleReset_empties (s : State) : s.moduleReset.net = [] ∧ s.moduleReset.parts = [] ∧ s.moduleReset.insts = [] ∧
    s.moduleReset.faults = [] ∧ s.moduleReset.walks = [] ∧ s.moduleReset.cmds = [] ∧ s.moduleReset.dies = [] ∧ s.moduleReset.mem = s.mem := by
  unfold State.moduleReset
  exact ⟨rfl, rfl, rfl, rfl, rfl, rfl, rfl, rfl⟩

/-! ### Freit's commands (R379, R380) -/

theorem freitStart_busy (h : s.mgmt.cmd ≠ 0) (n : Nat) (work : State → State × Nat) :
    s.freitStart n work = s.modMgmt (fun m => { m with busyErr := true }) := if_pos (bne_iff_ne.mpr h)

theorem freitStart_idle (h : s.mgmt.cmd = 0) (n : Nat) {work : State → State × Nat} {r : Nat} (hwork : work s = (t, r)) :
    s.freitStart n work = t.modMgmt (fun m => { m with cmd := n, resNext := r }) := by
  refine (if_neg ?_).trans ?_
  · simp [h]
  · rw [hwork]

theorem activateSlot_accepted (h : imageCause (s.slotImage (1 - s.mgmt.active % 2)) s.mgmt.floor.toNat = 0) :
    s.activateSlot = (s.modMgmt (fun m => { m with active := 1 - s.mgmt.active % 2 }), 0) :=
  if_neg (bne_iff_ne.not.mpr (not_not.mpr h))

theorem activateSlot_refused (h : imageCause (s.slotImage (1 - s.mgmt.active % 2)) s.mgmt.floor.toNat ≠ 0) : s.activateSlot = (s, 1) :=
  if_pos (bne_iff_ne.mpr h)

theorem sawMailbox_eq (s : State) (n : Nat) : s.sawMailbox n = { s with older := (s.sawMailbox n).older } := by
  unfold State.sawMailbox
  generalize s.mailboxWalk _ _ = l
  induction l generalizing s with
  | nil => rfl
  | cons a l ih => exact ih _

section Load

variable {header img : List Byte} (hdata : s.mailboxData 64 = some header) (hok : headerOk header = true)
  (himg : s.mailboxData (fieldOf header 16 8) = some img)
include hdata hok himg

theorem loadImage_accepted (hc : imageCause img s.mgmt.floor.toNat = 0) : s.loadImage = (State.writeBytes { s with
    mem := memClear s.mem (freitKey (1 - s.mgmt.active % 2) 0) (2 ^ 64), older := (s.sawMailbox (fieldOf header 16 8)).older }
    (freitKey (1 - s.mgmt.active % 2) 0) img, 0) := by
  rw [State.loadImage, hdata]
  dsimp only
  rw [hok, himg]
  refine (if_neg (by simp)).trans ((if_neg (bne_iff_ne.not.mpr (not_not.mpr hc))).trans ?_)
  rw [sawMailbox_eq]
  rfl

theorem loadImage_refused (hc : imageCause img s.mgmt.floor.toNat ≠ 0) : s.loadImage = (s.sawMailbox (fieldOf header 16 8), 1) := by
  rw [State.loadImage, hdata]
  dsimp only
  rw [hok, himg]
  exact (if_neg (by simp)).trans (if_pos (bne_iff_ne.mpr hc))

end Load

theorem mailboxPages_congr (hmem : t.mem = s.mem) : ∀ n a, t.mailboxPages n a = s.mailboxPages n a
  | 0, _ => rfl
  | n + 1, a => by
    have hw : t.readW (hbmKey (a + 4088)) = s.readW (hbmKey (a + 4088)) := readW_congr fun i _ _ => congrArg (memRead · i) hmem
    rw [State.mailboxPages, State.mailboxPages, hw]
    simp only [mailboxPages_congr hmem n]

theorem mailboxPages_sawMailbox (n k a : Nat) : (s.sawMailbox k).mailboxPages n a = s.mailboxPages n a :=
  mailboxPages_congr (by rw [sawMailbox_eq]) n a

theorem writeQuote_written {nonce : List Byte} {ps : List Nat} (hdata : s.mailboxData 32 = some nonce)
    (hps : s.mailboxPages (State.mailboxSpan (64 + (s.quoteBytes nonce).length)) s.mgmt.mbox.toNat = some ps) :
    s.writeQuote = ((s.sawMailbox 32).writeMailbox ps (s.quoteBytes nonce), 0) := by
  rw [State.writeQuote, hdata]
  dsimp only
  rw [State.putQuote, mailboxPages_sawMailbox, show (s.sawMailbox 32).mgmt = s.mgmt by rw [sawMailbox_eq], hps]

theorem writeQuote_tooShort {nonce : List Byte} (hdata : s.mailboxData 32 = some nonce)
    (hps : s.mailboxPages (State.mailboxSpan (64 + (s.quoteBytes nonce).length)) s.mgmt.mbox.toNat = none) :
    s.writeQuote = (s.sawMailbox 32, 2) := by
  rw [State.writeQuote, hdata]
  dsimp only
  rw [State.putQuote, mailboxPages_sawMailbox, show (s.sawMailbox 32).mgmt = s.mgmt by rw [sawMailbox_eq], hps]

/-- The pages that a read of the mailbox delivers are those that it has gone through. -/
theorem mem_mailboxWalk : ∀ {n a : Nat} {ps : List Nat}, s.mailboxPages n a = some ps → ∀ x ∈ ps, x ∈ s.mailboxWalk n a
  | 0, _, _, h, x, hx => by
    cases h
    exact absurd hx List.not_mem_nil
  | n + 1, a, ps, h, x, hx => by
    rw [State.mailboxPages] at h
    rw [State.mailboxWalk]
    split at h
    · cases h
    next hgood =>
      rw [if_neg hgood]
      split at h
      · cases h
        exact List.mem_cons.mpr (.inl (List.mem_singleton.mp hx))
      · dsimp only at h
        split at h
        · cases h
        · obtain ⟨qs, hqs, rfl⟩ := Option.map_eq_some_iff.mp h
          rcases List.mem_cons.mp hx with rfl | hx
          · exact List.mem_cons_self
          · exact List.mem_cons_of_mem _ (mem_mailboxWalk hqs x hx)

/-- What is published page by page leaves no older byte of any of the pages, and adds none. -/
theorem mem_older_publishPages {e : Older} : ∀ (l : List Nat) (s : State),
    e ∈ (l.foldl (fun t a => t.publish (hbmKey a) 4096) s).older ↔ e ∈ s.older ∧ ∀ a ∈ l, overlaps e.key 8 (hbmKey a) 4096 = false
  | [], s => by simp
  | a :: l, s => by
    rw [List.foldl_cons, mem_older_publishPages l, State.publish, List.mem_filter]
    simp [and_assoc]

/-! ### Host accesses (R347 to R349) -/

theorem hostAligned_of {off n : Nat} (hn : n = 1 ∨ n = 2 ∨ n = 4 ∨ n = 8) (ha : off % n = 0) : State.hostAligned off n = true := by
  rcases hn with rfl | rfl | rfl | rfl <;> simp [State.hostAligned, ha]

theorem hostReadTurn_none {a : Nat} (h : s.hostTurn a = none) : s.hostReadTurn a = none := by
  rw [State.hostReadTurn, State.agentRead]
  exact Option.bind_eq_none_iff.mpr fun t ht => absurd (h.symm.trans ht) nofun

section Device

variable {off n : Nat} (hal : State.hostAligned off n = true) (hoff : off < 2 ^ 40) (hok : s.mgmt.ok = true) (hw : s.hostWaits off = false)
include hal hoff hok hw

theorem hostWrite_device (v : Word) : s.hostWrite 2 off n v = if s.inSaveArea off || s.migrating off n then s else
    match s.hostTurn off with
    | none => s
    | some t => t.deviceWrite off n v.toNat := by
  rw [State.hostWrite, hal, hw]
  exact (if_neg (by simp)).trans ((if_neg (by simp)).trans (if_pos ⟨rfl, hoff, hok⟩))

theorem hostRead_device : s.hostRead 2 off n = if s.inSaveArea off then { s with hostData := (0, false) } else
    match s.hostReadTurn off with
    | none => s
    | some t => { (match s.descAt off with | some _ => t | none => t.saw State.hostReader (hbmKey off) n) with
        hostData := (BitVec.ofNat 64 (s.deviceRead off n).1, (s.deviceRead off n).2) } := by
  rw [State.hostRead, hal, hw]
  exact (if_neg (by simp)).trans ((if_neg (by simp)).trans ((if_pos ⟨rfl, hoff, hok⟩).trans (if_neg Bool.false_ne_true)))

end Device

theorem hostTurn_diesOnly {a : Nat} (h : s.hostTurn a = some t) : DiesOnly s t := State.agentAccess_diesOnly h
theorem descAt_turn {a b : Nat} (h : s.hostTurn a = some t) : t.descAt b = s.descAt b := by
  rw [show t = { s with dies := t.dies } from hostTurn_diesOnly h]
  rfl

theorem descWord_turn {a p tid j : Nat} (h : s.hostTurn a = some t) : t.descWord p tid j = s.descWord p tid j := by
  rw [show t = { s with dies := t.dies } from hostTurn_diesOnly h]
  rfl

theorem deviceWrite_memory {a n v : Nat} (h : s.descAt a = none) :
    s.deviceWrite a n v = (s.keepOlds a n).writeN (hbmKey a) n (v % 2 ^ (8 * n)) := by
  rw [State.deviceWrite, h]

theorem deviceWrite_descriptor {a n v p tid j : Nat} (h : s.descAt a = some (p, tid, j)) : s.deviceWrite a n v =
    s.modPart p (fun q => { q with descs := q.descs.set tid ((List.range 8).map (fun i =>
      if i = j then BitVec.ofNat 64 (setBits (s.descWord p tid i).toNat (8 * (a % 8)) (8 * n) v) else s.descWord p tid i)) }) := by
  rw [State.deviceWrite, h]

theorem descWord_tid {p tid : Nat} (h : tid < 65536) : (s.descWord p tid 0).toNat % 2 ^ 16 = tid := by
  rw [State.descWord, if_pos rfl, BitVec.toNat_ofNat, setBits, bits_eq]
  omega

theorem setBits_whole {old v : Nat} (ho : old < 2 ^ 64) (hv : v < 2 ^ 64) : setBits old 0 (8 * 8) v = v := by
  rw [setBits, bits_eq]
  omega

theorem heldReg_lt {off : Nat} (h : s.readReg off < 2 ^ 64) : s.heldReg off < 2 ^ 64 := by
  rw [State.heldReg]
  split
  · exact BitVec.isLt _
  · exact h

theorem hostWrite_register {off n : Nat} (hal : State.hostAligned off n = true) (hoff : off < 2 ^ 24) (v : Word) : s.hostWrite 0 off n v =
    s.writeReg (off / 8 * 8) (BitVec.ofNat 64 (setBits (if State.clearsOnes (off / 8 * 8) then 0 else s.heldReg (off / 8 * 8)) (8 * (off % 8)) (8 * n) v.toNat)) := by
  rw [State.hostWrite, hal]
  exact (if_neg (by simp)).trans (if_pos ⟨rfl, decide_eq_true hoff⟩)

theorem hostWrite_wholeRegister {off : Nat} (hal : off % 8 = 0) (hoff : off < 2 ^ 24) (hr : s.readReg off < 2 ^ 64) (v : Word) :
    s.hostWrite 0 off 8 v = s.writeReg off v := by
  rw [hostWrite_register (hostAligned_of (by simp) hal) hoff, show off / 8 * 8 = off by omega, hal, Nat.mul_zero,
    setBits_whole _ v.isLt, BitVec.ofNat_toNat, BitVec.setWidth_eq]
  split
  · exact Nat.two_pow_pos 64
  · exact heldReg_lt hr

theorem hostRead_wholeRegister {off : Nat} (hal : off % 8 = 0) (hoff : off < 2 ^ 24) (hr : s.readReg off < 2 ^ 64) :
    s.hostRead 0 off 8 = { s with hostData := (BitVec.ofNat 64 (s.readReg off), false) } := by
  rw [State.hostRead, hostAligned_of (by simp) hal]
  refine (if_neg (by simp)).trans ((if_pos ⟨rfl, decide_eq_true hoff⟩).trans ?_)
  rw [show off / 8 * 8 = off by omega, hal, bits_eq, Nat.mul_zero, Nat.pow_zero, Nat.div_one, Nat.mod_eq_of_lt hr]

theorem plainModule_region {d : Nat} (h : d < 16) (v : Word) :
    s.plainModule (0x100 + 8 * d) v = s.modMgmt (fun m => { m with regionSh := m.regionSh.set d v }) := by
  refine (if_neg (by omega)).trans ((if_pos (by omega)).trans ?_)
  rw [show (0x100 + 8 * d - 0x100) / 8 = d by omega]

theorem writeReg_region {d : Nat} (h : d < 16) (v : Word) : s.writeReg (0x100 + 8 * d) v = s.plainModule (0x100 + 8 * d) v :=
  (if_pos (by omega)).trans ((if_neg (by omega)).trans ((if_neg (by omega)).trans ((if_neg (by omega)).trans (if_neg (by omega)))))

/-- A 32-bit write of a region table entry keeps the upper half of the shadow entry. -/
theorem hostWrite_region {d : Nat} (h : d < 16) (v : Word) : s.hostWrite 0 (0x100 + 8 * d) 4 v = s.modMgmt (fun m =>
    { m with regionSh := m.regionSh.set d (BitVec.ofNat 64 (setBits (m.regionSh.get 0 d).toNat 0 32 v.toNat)) }) := by
  have hclears : State.clearsOnes (0x100 + 8 * d) = false := by
    simp only [State.clearsOnes, Bool.or_eq_false_iff, Bool.and_eq_false_iff, beq_eq_false_iff_ne, decide_eq_false_iff_not]
    omega
  have hheld : s.heldReg (0x100 + 8 * d) = (s.mgmt.regionSh.get 0 d).toNat := by
    refine (if_pos (by omega)).trans ?_
    rw [show (0x100 + 8 * d - 0x100) / 8 = d by omega]
  rw [hostWrite_register (hostAligned_of (by simp) (by omega)) (by omega), show (0x100 + 8 * d) / 8 * 8 = 0x100 + 8 * d by omega, hclears,
    if_neg Bool.false_ne_true, hheld, show (0x100 + 8 * d) % 8 = 0 by omega, writeReg_region h, plainModule_region h]
  rfl

theorem plainWrite_module {off : Nat} (h : off < 0x10000) (v : Word) : s.plainWrite off v = s.plainModule off v := if_neg (by omega)

theorem plainWrite_faTail {p : Nat} (hp : p < 64) (hok : s.mgmt.ok = true) (hex : s.partExists p = true) (v : Word) :
    s.plainWrite (0x100000 + 0x10000 * p + 0x618) v = s.modPart p (fun t => { t with faTail := v.setWidth 32 }) := by
  refine (if_pos (by omega)).trans ((if_pos hok).trans ?_)
  rw [show (0x100000 + 0x10000 * p + 0x618 - 0x100000) / 0x10000 = p by omega,
    show (0x100000 + 0x10000 * p + 0x618 - 0x100000) % 0x10000 = 0x618 by omega, State.plainPart, hex]
  rfl

/-! ### Packets for a saved core (R352) -/

theorem savedPacketApply_eq {n cid : Nat} {p : Packet} (hp : s.packet n = some p) (hdst : p.dst = .core cid) (hs : (s.core cid).saved = true) :
    s.savedPacketApply n = ((s.modCore cid (fun c => { c with saved := false })).applyPacket cid n p).modCore cid (fun c => { c with saved := true }) := by
  rw [State.savedPacketApply, hp]
  dsimp only
  rw [hdst]
  exact if_pos hs

/-! ### Turns of the agents (R330 to R332, R344) -/

theorem takeTurn_alone {die out input : Nat} (hrsv : dieRsv s.mgmt.region die = false) (hnone : ∀ x ∈ s.net, s.asks die out x.2 = false) :
    s.takeTurn die out input = some (s.granted die out input) := by
  have hasking : s.asking die out = [] := List.filter_eq_nil_iff.mpr fun x hx => by simp [hnone x hx]
  refine if_pos ?_
  rw [State.ownsCycle, hrsv, hasking]
  simp

theorem channelOpen_reserved {d ch q : Nat} (h : dieRsv s.mgmt.region d = true) : s.channelOpen d ch q = true ↔
    (isSplit (s.mgmt.region.get 0 d) = true → (s.die d).hcyc.get 0 ch % 128 / 32 = q) ∧ (s.die d).hcyc.get 0 ch % 32 + Config.freeBeats ch ≤ 32 := by
  rw [State.channelOpen, h]
  cases isSplit (s.mgmt.region.get 0 d) <;> simp

end Sys2Proof.Proofs.Service
end

section
/-! PROOFS. A packet's way through the fabric (O58, in part: R317 to R333, R344). -/

namespace Sys2Proof.Proofs.FabricWay

open Sys2Proof.Machine

variable {s : State} {k a b x y port : Nat} {p : Packet}

theorem onTorus_cores (hsrc : p.src = .core a) (hdst : p.dst = .core b) (hne : a ≠ b) : State.onTorus p = some (a, b) := by
  rw [State.onTorus, hsrc, hdst]
  exact if_neg hne

/-- The queue of a VC of a link. -/
def queue (s : State) (x y port v : Nat) : List Nat := (s.link (linkKey x y port)).q.get [] v

/-! ### Routers (R325) -/

/-- What a router hop leaves: the packet stands at the end of the queue of the output port and VC that its route gives. -/
def hopped (s : State) (k a b x y inp vc : Nat) (q : Packet) : State :=
  let r := s.routePort q a b x y vc
  let ov := if State.onControl q = true ∧ (State.edgeEntry x y r.1).isSome = true then r.2 + 32 else r.2
  let l := s.link (linkKey x y r.1)
  { s with
    net := s.net.set k { q with pos := .link x y inp vc r.1 ov 0 }
    links := s.links.set (linkKey x y r.1) { l with q := l.q.set ov (l.q.get [] ov ++ [k]) } }

theorem routerHop_sender (hp : s.packet k = some p) (htorus : State.onTorus p = some (a, b)) (hdie : dieOf a = dieOf b) (hpos : p.pos = .sender)
    (hrel : p.rel = false) (hfences : p.fences = []) : s.routerHop k =
      hopped s k a b (modX a) (modY a) 4 (s.vcBase { p with gen := s.mgmt.gen }) { p with gen := s.mgmt.gen } := by
  have hheld : State.heldAtSender p = false := by rw [State.heldAtSender, hrel, hfences]; rfl
  rw [State.routerHop, hp]
  dsimp only
  rw [htorus]
  dsimp only
  rw [hpos]
  refine (if_pos ⟨hdie, hheld⟩).trans ?_
  simp only [Bool.and_eq_true]
  rfl

theorem routerHop_router {inp vc : Nat} (hp : s.packet k = some p) (htorus : State.onTorus p = some (a, b)) (hpos : p.pos = .router x y inp vc) :
    s.routerHop k = hopped s k a b x y inp vc p := by
  rw [State.routerHop, hp]
  dsimp only
  rw [htorus]
  dsimp only
  rw [hpos]
  dsimp only
  simp only [Bool.and_eq_true]
  rfl

theorem mem_queue_hopped (s : State) (k a b x y inp vc : Nat) (q : Packet) : let r := s.routePort q a b x y vc
    let ov := if State.onControl q = true ∧ (State.edgeEntry x y r.1).isSome = true then r.2 + 32 else r.2
    k ∈ queue (hopped s k a b x y inp vc q) x y r.1 ov := by
  intro r ov
  rw [queue, State.link, hopped, Tbl.get_set_same]
  dsimp only
  rw [Tbl.get_set_same]
  exact List.mem_append_right _ (List.mem_singleton.mpr rfl)

/-! ### Links (R323, R327) -/

/-- One entry of a list has a value under f: the first value is that one. -/
theorem head_filterMap_only {α β : Type} {f : α → Option β} {l : List α} {z : β} (hmem : ∃ i ∈ l, f i = some z)
    (honly : ∀ i ∈ l, ∀ w, f i = some w → w = z) : (l.filterMap f).head? = some z := by
  obtain ⟨i, hi, hz⟩ := hmem
  cases h : (l.filterMap f).head? with
  | none =>
    have hnil := List.head?_eq_none_iff.mp h
    exact absurd (List.mem_filterMap.mpr ⟨i, hi, hz⟩) (hnil ▸ List.not_mem_nil)
  | some w =>
    obtain ⟨j, hj, hw⟩ := List.mem_filterMap.mp (List.mem_of_mem_head? h)
    rw [honly j hj w hw]

theorem vcHead_empty {v : Nat} (h : queue s x y port v = []) : s.vcHead x y port v = none := by
  rw [queue] at h
  rw [State.vcHead, h]

/-- The head of a queue may send where the die edge lets it through and it ends its way, holds its slot or finds one free. -/
theorem vcHead_may {v inp vc sent : Nat} {l : List Nat} (hq : queue s x y port v = k :: l) (hp : s.packet k = some p) (htorus : State.onTorus p = some (a, b))
    (hpos : p.pos = .link x y inp vc port v sent) (hopen : s.edgeOpen p x y port = true)
    (hroom : sent ≠ 0 ∨ routerAt x y port = (modX b, modY b) ∨ 0 < s.freeSlots x y port v) : s.vcHead x y port v = some (k, p) := by
  rw [queue] at hq
  rw [State.vcHead, hq]
  dsimp only
  rw [hp]
  dsimp only
  rw [htorus, hpos, hopen]
  dsimp only
  refine if_pos ?_
  simp only [Bool.true_and, Bool.or_eq_true, beq_iff_eq, decide_eq_true_eq]
  rcases hroom with h | h | h
  · exact .inl (.inr (Nat.pos_of_ne_zero h))
  · exact .inl (.inl h)
  · exact .inr h

theorem groupHead_only {v base : Nat} {z : Nat × Packet} (hq : ∀ u, u ≠ v → queue s x y port u = []) (hv : s.vcHead x y port v = some z)
    {w : Nat × Nat × Packet} (h : s.groupHead x y port base = some w) : w = (v, z) := by
  obtain ⟨u, -, hu⟩ := List.mem_filterMap.mp (List.mem_of_mem_head? h)
  by_cases huv : u = v
  · rw [huv, hv] at hu
    exact (Option.some.inj hu).symm
  · rw [vcHead_empty (hq u huv)] at hu
    cases hu

/-- Where one queue alone holds packets, a cycle that serves its group serves its head. -/
theorem orderHead_only {v base : Nat} {z : Nat × Packet} {order : List Nat} (hq : ∀ u, u ≠ v → queue s x y port u = [])
    (hv : s.vcHead x y port v = some z) (hbase : base ∈ order) (hgroup : v ∈ [base + 1, base + 9, base]) :
    (order.filterMap (s.groupHead x y port)).head? = some (v, z) := by
  have hhead : s.groupHead x y port base = some (v, z) := by
    refine head_filterMap_only ⟨v, hgroup, by rw [hv]; rfl⟩ fun u _ w hw => ?_
    by_cases huv : u = v
    · rw [huv, hv] at hw
      exact (Option.some.inj hw).symm
    · rw [vcHead_empty (hq u huv)] at hw
      cases hw
  exact head_filterMap_only ⟨base, hbase, hhead⟩ fun _ _ _ => groupHead_only hq hv

theorem sendFlit_idle {order : List Nat} (h : ∀ base ∈ order, ∀ v ∈ [base + 1, base + 9, base], queue s x y port v = []) :
    s.sendFlit x y port order = s := by
  have hnone : order.filterMap (s.groupHead x y port) = [] := by
    refine List.filterMap_eq_nil_iff.mpr fun base hb => ?_
    rw [State.groupHead, List.filterMap_eq_nil_iff.mpr fun v hv => by rw [vcHead_empty (h base hb v hv)]; rfl]
    rfl
  rw [State.sendFlit, hnone]
  rfl

/-- A flit that is not its packet's last leaves. -/
theorem sendFlit_more {v v' inp vc port' sent : Nat} {order : List Nat} (hhead : (order.filterMap (s.groupHead x y port)).head? = some (v, k, p))
    (hpos : p.pos = .link x y inp vc port' v' sent) (hmore : sent + 1 < flitsOf p) :
    s.sendFlit x y port order = s.setPacket k { p with pos := .link x y inp vc port' v' (sent + 1) } := by
  rw [State.sendFlit, hhead]
  dsimp only
  rw [hpos]
  exact if_pos hmore

/-- The packet of a link has left it: its queue goes on, and the packet stands at a position. -/
def leftLink (s : State) (x y port v k : Nat) (q : Packet) : State :=
  let l := s.link (linkKey x y port)
  { s with net := s.net.set k q, links := s.links.set (linkKey x y port) { l with q := l.q.set v ((l.q.get [] v).drop 1) } }

section LastFlit

variable {v v' inp vc port' sent : Nat} {order : List Nat} (hhead : (order.filterMap (s.groupHead x y port)).head? = some (v, k, p))
  (hpos : p.pos = .link x y inp vc port' v' sent) (htorus : State.onTorus p = some (a, b)) (hlast : flitsOf p ≤ sent + 1)
include hhead hpos htorus hlast

theorem sendFlit_last : s.sendFlit x y port order = leftLink s x y port v k { p with
    pos := if (routerAt x y port == (modX b, modY b)) = true then (if p.splice = 64 then .ready else .ingress)
      else .router (routerAt x y port).1 (routerAt x y port).2 (opposite port) (v' % 32) } := by
  rw [State.sendFlit, hhead]
  dsimp only
  rw [hpos]
  refine (if_neg (Nat.not_lt.mpr hlast)).trans ?_
  rw [htorus]
  rfl

theorem sendFlit_arrives (hthere : routerAt x y port = (modX b, modY b)) : s.sendFlit x y port order =
    leftLink s x y port v k { p with pos := if p.splice = 64 then .ready else .ingress } := by
  rw [sendFlit_last hhead hpos htorus hlast, if_pos (beq_iff_eq.mpr hthere)]

theorem sendFlit_goesOn (hthere : routerAt x y port ≠ (modX b, modY b)) : s.sendFlit x y port order = leftLink s x y port v k
    { p with pos := .router (routerAt x y port).1 (routerAt x y port).2 (opposite port) (v' % 32) } := by
  rw [sendFlit_last hhead hpos htorus hlast, if_neg (beq_iff_eq.not.mpr hthere)]

end LastFlit

theorem queue_leftLink {v : Nat} {q : Packet} (u : Nat) :
    queue (leftLink s x y port v k q) x y port u = if u = v then (queue s x y port v).drop 1 else queue s x y port u := by
  rw [queue, State.link, leftLink, Tbl.get_set_same]
  dsimp only
  split
  next h => rw [h, Tbl.get_set_same]; rfl
  next h => exact Tbl.get_set_other _ _ _ _ _ h

/-- A cycle of a link has passed, to a count. -/
def cycled (s : State) (key n : Nat) : State := { s with links := s.links.set key { s.link key with cyc := n } }

@[simp] theorem link_cycled (s : State) (key n : Nat) : (cycled s key n).link key = { s.link key with cyc := n } := Tbl.get_set_same ..
theorem queue_cycled (s : State) (x y port n v : Nat) : queue (cycled s (linkKey x y port) n) x y port v = queue s x y port v := by
  rw [queue, link_cycled]
  rfl

theorem linkFlitSend_inDie (hedge : State.edgeEntry x y port = none) : s.linkFlitSend x y port =
    cycled (s.sendFlit x y port (State.linkOrder (s.linkRsv x y port) (s.link (linkKey x y port)).cyc)) (linkKey x y port)
      ((s.link (linkKey x y port)).cyc + 1 + Config.freeWait s.tick) := by
  rw [State.linkFlitSend, hedge]
  rfl

/-- The groups that a cycle of the wavelengths of a link serves are among the four without the control wavelength. -/
theorem linkOrder_groups (r : Bool) (c : Nat) : ∀ base ∈ State.linkOrder r c, base ∈ [0, 2, 4, 6] := by
  intro base h
  unfold State.linkOrder at h
  split at h
  · split at h <;> simp at h ⊢ <;> omega
  · split at h
    · simp at h ⊢; omega
    · split at h <;> simp at h ⊢ <;> omega
theorem rsmOrder_groups (c : Nat) : ∀ base ∈ State.rsmOrder c, base ∈ [0, 2, 4, 6] := by
  intro base h
  unfold State.rsmOrder at h
  split at h <;> simp at h ⊢ <;> omega
theorem shared_mem_linkOrder (r : Bool) (c : Nat) : 0 ∈ State.linkOrder r c ∧ 2 ∈ State.linkOrder r c := by
  unfold State.linkOrder
  split
  · split <;> simp
  · split
    · simp
    · split <;> simp

/-- A VC of the shared groups is in one that every cycle of a link serves. -/
theorem sharedGroup {v : Nat} (h : v ∈ [0, 1, 2, 3, 9, 11]) (r : Bool) (c : Nat) :
    ∃ base ∈ State.linkOrder r c, v ∈ [base + 1, base + 9, base] := by
  have hg : v ∈ [0 + 1, 0 + 9, 0] ∨ v ∈ [2 + 1, 2 + 9, 2] := by
    simp only [List.mem_cons, List.not_mem_nil, or_false] at h ⊢
    omega
  rcases hg with hg | hg
  · exact ⟨0, (shared_mem_linkOrder r c).1, hg⟩
  · exact ⟨2, (shared_mem_linkOrder r c).2, hg⟩

theorem controlGroup {v : Nat} (h : v ∈ [32, 33, 36, 37, 41, 45]) : ∃ base ∈ [32, 36], v ∈ [base + 1, base + 9, base] := by
  simp only [List.mem_cons, List.not_mem_nil, or_false] at h
  rcases h with rfl | rfl | rfl | rfl | rfl | rfl <;> decide

/-- Nothing stands in a VC of the wavelengths beside the control one: they send nothing. -/
theorem sendFlit_groups_idle (h : ∀ v, v < 16 → queue s x y port v = []) {order : List Nat} (ho : ∀ base ∈ order, base ∈ [0, 2, 4, 6]) :
    s.sendFlit x y port order = s := by
  refine sendFlit_idle fun base hb v hv => h v ?_
  have hb := ho base hb
  simp only [List.mem_cons, List.not_mem_nil, or_false] at hb hv
  omega

/-- On a die edge, where the other wavelengths have nothing to send, a cycle is that of the control wavelength. -/
theorem linkFlitSend_control {i : Nat} (hedge : State.edgeEntry x y port = some i)
    (hidle : ∀ v, v < 16 → queue (s.sendFlit x y port [32, 36]) x y port v = []) : s.linkFlitSend x y port =
      cycled (s.sendFlit x y port [32, 36]) (linkKey x y port) ((s.link (linkKey x y port)).cyc + 1 + Config.freeWait s.tick) := by
  rw [State.linkFlitSend, hedge]
  dsimp only [Option.isSome]
  rw [if_pos rfl, sendFlit_groups_idle hidle (rsmOrder_groups _), sendFlit_groups_idle hidle (linkOrder_groups _ _),
    sendFlit_groups_idle hidle fun base hb => linkOrder_groups _ _ base (List.mem_of_mem_take hb), ite_self]
  rfl

/-- A link with nothing to send lets its cycle pass. -/
theorem linkFlitSend_empty (h : ∀ v, queue s x y port v = []) : s.linkFlitSend x y port =
    cycled s (linkKey x y port) ((s.link (linkKey x y port)).cyc + 1 + Config.freeWait s.tick) := by
  have hidle : ∀ order, s.sendFlit x y port order = s := fun order => sendFlit_idle fun _ _ v _ => h v
  cases hedge : State.edgeEntry x y port with
  | none => rw [linkFlitSend_inDie hedge, hidle]
  | some i => rw [linkFlitSend_control hedge (by simp only [hidle, h, implies_true]), hidle]

/-! ### Splices (R319, R320) -/

/-- Where a packet stands that has taken its entry: in its router, or on its way between the dies. -/
def entered (s : State) (p : Packet) (g : BitVec 4) : Pos :=
  match State.onTorus p with | some (a, _) => .router (modX a) (modY a) 4 (s.vcBase { p with gen := g }) | none => .crossing

theorem hasEntry_eq {i : Nat} {e : SpliceSt} (hsplice : s.spliceOf p = some i)
    (hentry : (s.part p.from_.part).splices.find? (fun x => x.1 == i) = some (i, e)) : s.hasEntry p = decide (e.held < e.depth) := by
  rw [State.hasEntry, hsplice]
  dsimp only
  rw [hentry]

section Egress

variable {i : Nat} {e : SpliceSt} (hp : s.packet k = some p) (hat : State.atController p = true) (hdies : locDie p.src ≠ locDie p.dst)
  (hsplice : s.spliceOf p = some i) (hentry : (s.part p.from_.part).splices.find? (fun x => x.1 == i) = some (i, e))
include hp hat hdies hsplice hentry

theorem spliceEgressEnter_full (hfull : e.depth ≤ e.held) : s.spliceEgressEnter k =
    if p.pos = .sender then s.setPacket k { p with pos := .egress, gen := s.mgmt.gen } else s := by
  rw [State.spliceEgressEnter, hp]
  dsimp only
  rw [hasEntry_eq hsplice hentry, hat]
  exact (if_neg (by simpa using hdies)).trans (if_pos (by simpa using hfull))

theorem spliceEgressEnter_enters (hroom : e.held < e.depth) (hwhole : ∀ op z b d, p.body ≠ .atomic op z b d []) : s.spliceEgressEnter k =
    (s.setPacket k { p with pos := entered s p (if p.pos = .sender then s.mgmt.gen else p.gen), splice := i,
                            gen := if p.pos = .sender then s.mgmt.gen else p.gen }).modPart p.from_.part (fun t =>
      { t with splices := t.splices.set i { e with held := e.held + 1, order := e.order ++ [k] } }) := by
  have htake : s.spliceEgressEnter k = s.takeEntry k p := by
    rw [State.spliceEgressEnter, hp]
    dsimp only
    rw [hasEntry_eq hsplice hentry, hat]
    refine (if_neg (by simpa using hdies)).trans ((if_neg (by simpa using hroom)).trans ?_)
    split
    next hbody => exact absurd hbody (hwhole _ _ _ _)
    next => rfl
  rw [htake, State.takeEntry, hsplice]
  dsimp only
  rw [hentry]
  simp only [beq_iff_eq]
  exact if_pos hroom

end Egress

section Ingress

variable {d i : Nat} {e : SpliceSt} {l : List Nat} (hi : i ≠ 64) (hentry : (s.part d).splices.find? (fun x => x.1 == i) = some (i, e))
  (horder : e.order = k :: l) (hp : s.packet k = some p)
include hi hentry horder hp

theorem spliceIngressDeliver_eq : s.spliceIngressDeliver d i = if p.pos == .ingress || (p.pos == .crossing && s.crossOpen p) then
    (s.deliver k p).modPart d (fun u => { u with splices := u.splices.set i { e with held := e.held - 1, order := l } }) else s := by
  rw [State.spliceIngressDeliver, if_neg hi, hentry]
  dsimp only
  rw [horder]
  dsimp only
  rw [hp]

theorem spliceIngressDeliver_delivers (h : p.pos = .ingress ∨ p.pos = .crossing ∧ s.crossOpen p = true) : s.spliceIngressDeliver d i =
    (s.deliver k p).modPart d (fun u => { u with splices := u.splices.set i { e with held := e.held - 1, order := l } }) :=
  (spliceIngressDeliver_eq hi hentry horder hp).trans (if_pos (by simpa using h))

theorem spliceIngressDeliver_waits (h : p.pos ≠ .ingress) (hc : p.pos ≠ .crossing) : s.spliceIngressDeliver d i = s :=
  (spliceIngressDeliver_eq hi hentry horder hp).trans (if_neg (by simp [h, hc]))

end Ingress

/-! ### Crossbars (R330 to R332) -/

/-- A packet that an output has granted: at its unit, or in the link controller of its way. -/
def grantedPacket (s : State) (d : Nat) (p : Packet) : Packet :=
  { p with pos := if locDie p.dst = d then .ready else .egress, gen := if p.pos == .sender then s.mgmt.gen else p.gen }

/-- The input that stands first in an output's order among those that ask is granted. -/
theorem crossbarGrant_first {d out i : Nat} {l m : List Nat} (horder : State.inputOrder (s.die d) out = l ++ i :: m)
    (hbefore : ∀ x ∈ s.asking d out, s.inputOf x.2 out ∉ l)
    (hhead : ((s.asking d out).filter (fun x => s.inputOf x.2 out == i)).head? = some (k, p)) :
    s.crossbarGrant d out = (s.setPacket k (grantedPacket s d p)).granted d out i := by
  have hfind : (s.asking d out).find? (fun x => s.inputOf x.2 out == i) = some (k, p) := by rw [← List.head?_filter, hhead]
  have hinput : (State.inputOrder (s.die d) out).find? (fun i => (s.asking d out).any (fun x => s.inputOf x.2 out == i)) = some i := by
    rw [horder, List.find?_append, List.find?_eq_none.mpr, Option.none_or, List.find?_cons_of_pos]
    · exact List.any_eq_true.mpr ⟨(k, p), List.mem_of_find?_eq_some hfind, List.find?_some (p := fun x : Nat × Packet => s.inputOf x.2 out == i) hfind⟩
    · intro j hj hany
      obtain ⟨x, hx, hxj⟩ := List.any_eq_true.mp hany
      exact hbefore x hx (beq_iff_eq.mp hxj ▸ hj)
  rw [State.crossbarGrant, hinput]
  dsimp only
  rw [hfind]
  rfl

/-- An output that nobody asks for lets its cycle pass. -/
theorem crossbarGrant_idle {d out : Nat} (h : s.asking d out = []) : s.crossbarGrant d out =
    s.modDie d (fun e => { e with xcyc := e.xcyc.set out (e.xcyc.get 0 out + 1 + Config.freeWait s.tick) }) := by
  rw [State.crossbarGrant, h, List.find?_eq_none.mpr fun i _ => by simp]

theorem inputOrder_unset {d : Die} {out : Nat} (h : ∀ o, d.xbar.find? (fun x => x.1 == out) ≠ some (out, o)) :
    State.inputOrder d out = List.range 104 := by
  have hnone : d.xbar.find? (fun x => x.1 == out) = none := by
    cases hf : d.xbar.find? (fun x => x.1 == out) with
    | none => rfl
    | some x =>
      have hx : x.1 = out := beq_iff_eq.mp (List.find?_some (p := fun x : Nat × List Nat => x.1 == out) hf)
      exact absurd (hf.trans (by rw [← hx])) (h x.2)
  rw [State.inputOrder, hnone]

theorem mem_asking {d out : Nat} (z : Nat × Packet) :
    z ∈ s.asking d out ↔ z ∈ s.net ∧ s.asks d out z.2 = true ∧ s.ownsCycle d out (s.turnOf d z.2) = true := by
  rw [State.asking, List.mem_filter, Bool.and_eq_true]

theorem ownsCycle_unreserved {d out o : Nat} (h : dieRsv s.mgmt.region d = false) : s.ownsCycle d out o = true := by
  rw [State.ownsCycle, h]
  rfl

theorem ownsCycle_split {d out o : Nat} (h : dieRsv s.mgmt.region d = true) (hsplit : isSplit (s.mgmt.region.get 0 d) = true)
    (hshared : State.sharedOutput out = true) :
    s.ownsCycle d out o = true ↔ if (s.die d).xcyc.get 0 out % 5 = 4 then o = 4 else o = (s.die d).xcyc.get 0 out % 5 := by
  rw [State.ownsCycle, h, hsplit, hshared]
  split
  · simp
  · simp only [Bool.not_true, Bool.false_or, Bool.and_eq_true, bne_iff_ne, beq_iff_eq]
    omega

theorem ownsCycle_whole {d out o : Nat} (h : dieRsv s.mgmt.region d = true) (hsplit : isSplit (s.mgmt.region.get 0 d) = false) :
    s.ownsCycle d out o = true ↔ ((s.die d).xcyc.get 0 out % 5 = 4 ↔ o = 4) := by
  rw [State.ownsCycle, h, hsplit]
  split
  next hc => simp [hc]
  next hc => simp [hc]

/-! ### The channels of the HBM4 stack (R344) -/

/-- The first request that a channel may start leaves its queue, and its translation is started. -/
theorem hbmRequestStart_starts {d ch : Nat} {r : HbmReq} {w : Walk}
    (hfind : (s.die d).hbmq.find? (fun x => x.ch == ch && s.channelOpen d ch x.quarter) = some r) (hwalk : s.walk r.walk = some w) :
    s.hbmRequestStart d ch = ((s.modDie d (fun e => { e with hcyc := e.hcyc.set ch (e.hcyc.get 0 ch + 1 + Config.freeWait s.tick) })).modDie d
      (fun e => { e with hbmq := e.hbmq.erase r })).setWalk r.walk
        { w with trans := w.trans.map (fun x => if x.tile = r.tile then { x with started := true } else x) } := by
  rw [State.hbmRequestStart]
  dsimp only
  rw [hfind]
  dsimp only
  split
  next h => exact absurd (h.symm.trans hwalk) nofun
  next v h => rw [Option.some.inj (h.symm.trans hwalk)]

@[simp] theorem die_setWalk (s : State) (n : Nat) (w : Walk) (d : Nat) : (s.setWalk n w).die d = s.die d := rfl

theorem hbmRequestStart_idle {d ch : Nat} (h : ∀ r ∈ (s.die d).hbmq, r.ch = ch → s.channelOpen d ch r.quarter = false) :
    s.hbmRequestStart d ch = s.modDie d (fun e => { e with hcyc := e.hcyc.set ch (e.hcyc.get 0 ch + 1 + Config.freeWait s.tick) }) := by
  have hnone : (s.die d).hbmq.find? (fun x => x.ch == ch && s.channelOpen d ch x.quarter) = none :=
    List.find?_eq_none.mpr fun r hr hgood => by
      obtain ⟨hch, hopen⟩ := Bool.and_eq_true_iff.mp hgood
      exact absurd ((h r hr (beq_iff_eq.mp hch)).symm.trans hopen) Bool.false_ne_true
  rw [State.hbmRequestStart]
  dsimp only
  rw [hnone]

end Sys2Proof.Proofs.FabricWay
end

section
/-! PROOFS. Module service, host accesses and the fabric (O58). -/

namespace Sys2Proof.Proofs.ServiceAndFabric

open Sys2Proof.Machine Sys2Proof.Proofs.Slots Sys2Proof.Proofs.Service Sys2Proof.Proofs.FabricWay

variable {s : State} {k a b x y port v : Nat} {p : Packet}

/-- What one flit of the only queue of a link that holds packets does, within a die. -/
theorem linkFlitSend_served {l : List Nat} {inp vc sent : Nat} (hedge : State.edgeEntry x y port = none) (hv : v ∈ [0, 1, 2, 3, 9, 11])
    (hq : ∀ u, u ≠ v → queue s x y port u = []) (hk : queue s x y port v = k :: l) (hp : s.packet k = some p)
    (htorus : State.onTorus p = some (a, b)) (hpos : p.pos = .link x y inp vc port v sent)
    (hroom : sent ≠ 0 ∨ routerAt x y port = (modX b, modY b) ∨ 0 < s.freeSlots x y port v) : ∃ order n, (s.link (linkKey x y port)).cyc < n ∧
      (order.filterMap (s.groupHead x y port)).head? = some (v, k, p) ∧
      s.linkFlitSend x y port = cycled (s.sendFlit x y port order) (linkKey x y port) n := by
  have hopen : s.edgeOpen p x y port = true := by rw [State.edgeOpen, hedge]
  obtain ⟨base, hbase, hgroup⟩ := sharedGroup hv (s.linkRsv x y port) (s.link (linkKey x y port)).cyc
  exact ⟨_, _, by omega, orderHead_only hq (vcHead_may hk hp htorus hpos hopen hroom) hbase hgroup, linkFlitSend_inDie hedge⟩

/-- The packet of a step notice leaves a die edge on the control wavelength. -/
theorem linkFlitSend_notice {l : List Nat} {i src inp vc : Nat} {stp : Word} {done : Bool} {q : Packet} (hedge : State.edgeEntry x y port = some i)
    (hv : v ∈ [32, 33, 36, 37, 41, 45]) (hq : ∀ u, u ≠ v → queue s x y port u = []) (hk : queue s x y port v = k :: l)
    (hp : s.packet k = some p) (htorus : State.onTorus p = some (a, b)) (hbody : p.body = .notice src stp done)
    (hpos : p.pos = .link x y inp vc port v 0) (hroom : routerAt x y port = (modX b, modY b) ∨ 0 < s.freeSlots x y port v)
    (hsend : ∀ order, (order.filterMap (s.groupHead x y port)).head? = some (v, k, p) →
      s.sendFlit x y port order = leftLink s x y port v k q) : ∃ n, s.linkFlitSend x y port = cycled (leftLink s x y port v k q) (linkKey x y port) n := by
  have hopen : s.edgeOpen p x y port = true := by
    rw [State.edgeOpen, hedge]
    exact if_pos (by rw [State.onControl, hbody])
  obtain ⟨base, hbase, hgroup⟩ := controlGroup hv
  have hleft := hsend [32, 36] (orderHead_only hq (vcHead_may hk hp htorus hpos hopen (.inr hroom)) hbase hgroup)
  refine ⟨_, (linkFlitSend_control hedge fun u hu => ?_).trans (by rw [hleft])⟩
  have huv : u ≠ v := by
    simp only [List.mem_cons, List.not_mem_nil, or_false] at hv
    omega
  rw [hleft, queue_leftLink, if_neg huv, hq u huv]

theorem queue_left {l : List Nat} {q : Packet} (hk : queue s x y port v = k :: l) (n : Nat) :
    queue (cycled (leftLink s x y port v k q) (linkKey x y port) n) x y port v = l := by
  rw [queue_cycled, queue_leftLink, if_pos rfl, hk]
  rfl

/-- Settles O58: each clause by the equation of its event, the mailbox and the fabric by the lemmas of the two parts before. -/
theorem serviceAndFabric : Obligations.ServiceAndFabric := by
  refine ⟨?_, ?_, ?_, ?_, ?_, ?_, ?_, ?_, ?_, ?_, ?_, ?_, ?_, ?_, ?_, ?_, ?_, ?_, ?_, ?_, ?_, ?_, ?_, ?_⟩
  · -- module reset
    intro s a img
    refine ⟨fun h => ?_, fun h ho => ?_, fun h ho => ?_⟩
    · refine ⟨s.moduleReset, rfl, ?_⟩
      rw [mgmt_moduleReset_active h]
      obtain ⟨hok, hslot, hcause, hver, hfloor, hactive⟩ := bootedFrom_fields s a 0
      exact ⟨hok, hslot, hcause, hver, hfloor, hactive, moduleReset_empties s⟩
    · refine ⟨s.moduleReset, rfl, ?_⟩
      rw [mgmt_moduleReset_other h ho]
      obtain ⟨hok, hslot, hcause, -⟩ := bootedFrom_fields s (1 - a) (imageCause img s.mgmt.floor.toNat)
      exact ⟨hok, hslot, hcause⟩
    · exact ⟨s.moduleReset, rfl, moduleReset_refused h ho⟩
  · -- a command while another runs, and its end
    intro s h t
    exact ⟨next_congr (freitStart_busy h 1 _), next_congr (freitStart_busy h 2 _), next_congr (freitStart_busy h 3 _),
      next_congr (freitStart_busy h 4 _), next_congr (if_neg h)⟩
  · -- Freit's commands
    intro s h
    refine ⟨next_congr (freitStart_idle (t := s.raiseFloor.1) h 3 rfl), ⟨fun hc => next_congr (freitStart_idle h 2 (activateSlot_accepted hc)),
      fun hc => next_congr (freitStart_idle h 2 (activateSlot_refused hc))⟩, fun header img hdata hok himg => ⟨fun hc => ?_, fun hc => ?_⟩,
      fun nonce hdata => ⟨fun ps hps => ?_, fun hps => ?_⟩⟩
    · exact next_congr (freitStart_idle h 1 (loadImage_accepted hdata hok himg hc))
    · exact next_congr (freitStart_idle h 1 (loadImage_refused hdata hok himg hc))
    · exact next_congr (freitStart_idle h 4 (writeQuote_written hdata hps))
    · exact next_congr (freitStart_idle h 4 (writeQuote_tooShort hdata hps))
  · -- what Freit has read
    intro s n
    exact ⟨sawMailbox_eq s n, fun e he => ((mem_older_publishPages _ s).mp he).1,
      fun ps hps a ha e he => ((mem_older_publishPages _ s).mp he).2 a (mem_mailboxWalk hps a ha)⟩
  · -- host accesses to device memory
    intro s off n v hn ha hoff hok hw
    have hal := hostAligned_of hn ha
    have hwrite := hostWrite_device hal hoff hok hw v
    have hread := hostRead_device hal hoff hok hw
    refine ⟨fun hsave ht => ⟨?_, ?_⟩, fun hmig => ?_, fun t hsave hmig hd ht => ?_, fun t hsave hd ht => ?_, fun p tid j t hsave hmig hd ht => ?_,
      fun p tid j t hsave hd ht => ?_, fun hsave => ⟨?_, ?_⟩⟩
    · refine next_congr (hwrite.trans ?_)
      rw [ht]
      exact ite_self _
    · refine next_congr (hread.trans ((if_neg (by simp [hsave])).trans ?_))
      rw [hostReadTurn_none ht]
    · exact next_congr (hwrite.trans (if_pos (by simp [hmig])))
    · refine next_congr (hwrite.trans ((if_neg (by simp [hsave, hmig])).trans ?_))
      rw [ht]
      exact deviceWrite_memory ((descAt_turn ht).trans hd)
    · refine next_congr (hread.trans ((if_neg (by simp [hsave])).trans ?_))
      rw [ht, State.deviceRead, hd]
    · refine next_congr (hwrite.trans ((if_neg (by simp [hsave, hmig])).trans ?_))
      rw [ht]
      refine (deviceWrite_descriptor ((descAt_turn ht).trans hd)).trans ?_
      simp only [descWord_turn ht]
    · refine next_congr (hread.trans ((if_neg (by simp [hsave])).trans ?_))
      rw [ht, State.deviceRead, hd]
    · exact next_congr (hwrite.trans (if_pos (by simp [hsave])))
    · exact next_congr (hread.trans (if_pos hsave))
  · exact fun s p tid h => descWord_tid h
  · exact fun s t die out input => ⟨fun h => (State.takeTurn_some h).2, takeTurn_alone⟩
  · -- the turns of the agents
    intro s a input cid i out img
    exact ⟨fun h => if_neg (by simp [h]), fun h => if_pos h, rfl, rfl, rfl, rfl, rfl, rfl⟩
  · -- the channels
    intro s a d ch q
    exact ⟨rfl, fun h => by rw [State.channelOpen, h]; rfl, channelOpen_reserved⟩
  · -- a grant
    intro s die out input t
    have hdie : t.die die = _ := State.die_modDie s die _
    refine ⟨rfl, rfl, rfl, rfl, ?_, ?_⟩
    · rw [hdie]
      exact Tbl.get_set_same ..
    · rw [hdie]
      exact (by omega : (s.die die).xcyc.get 0 out < _).trans_eq (Tbl.get_set_same ..).symm
  · exact fun s off v hal hoff hr => ⟨next_congr (hostWrite_wholeRegister hal hoff hr v), next_congr (hostRead_wholeRegister hal hoff hr)⟩
  · exact fun s d v hd => next_congr (hostWrite_region hd v)
  · -- registers without a row of their own
    intro s off v
    exact ⟨fun h => next_congr (plainWrite_module h v), rfl,
      fun d hd => next_congr ((plainWrite_module (by omega) v).trans (plainModule_region hd v)), fun p hp hok hex => next_congr (plainWrite_faTail hp hok hex v)⟩
  · exact fun s n cid p hp hdst hs => next_congr (savedPacketApply_eq hp hdst hs)
  · -- a packet leaves its core
    intro s k a b p hp hsrc hdst hne hdie hpos hrel hfences
    exact ⟨_, next_congr (routerHop_sender hp (onTorus_cores hsrc hdst hne) hdie hpos hrel hfences), rfl, mem_queue_hopped .., rfl, rfl⟩
  · -- a packet leaves a router
    intro s k a b x y inp vc p hp hsrc hdst hne hpos
    exact ⟨_, _, next_congr (routerHop_router hp (onTorus_cores hsrc hdst hne) hpos), rfl, rfl, mem_queue_hopped .., rfl, rfl⟩
  · -- a flit within a die
    intro s x y port v k a b inp vc sent l p hedge hv key hq hk hp hsrc hdst hne hpos
    have htorus := onTorus_cores hsrc hdst hne
    refine ⟨fun hmore hroom => ?_, fun hlast hthere => ?_, fun hlast hthere hroom => ?_⟩
    · obtain ⟨order, n, hn, hhead, heq⟩ := linkFlitSend_served hedge hv hq hk hp htorus hpos hroom
      rw [sendFlit_more hhead hpos hmore] at heq
      refine ⟨_, next_congr heq, rfl, ?_, ?_, rfl⟩
      · rw [link_cycled]
        rfl
      · rw [link_cycled]
        exact hn
    · obtain ⟨order, n, -, hhead, heq⟩ := linkFlitSend_served hedge hv hq hk hp htorus hpos (.inr (.inl hthere))
      rw [sendFlit_arrives hhead hpos htorus hlast hthere] at heq
      exact ⟨_, next_congr heq, rfl, queue_left hk n, rfl⟩
    · obtain ⟨order, n, -, hhead, heq⟩ := linkFlitSend_served hedge hv hq hk hp htorus hpos (hroom.imp_right .inr)
      rw [sendFlit_goesOn hhead hpos htorus hlast hthere] at heq
      have hvc : v % 32 = v := by
        simp only [List.mem_cons, List.not_mem_nil, or_false] at hv
        omega
      rw [hvc] at heq
      exact ⟨_, next_congr heq, rfl, queue_left hk n, rfl⟩
  · -- a step notice over a die edge
    intro s x y port i v k a b inp vc src stp done l p hedge hv key hq hk hp hsrc hdst hne hbody hbulk hpos
    have htorus := onTorus_cores hsrc hdst hne
    have hlast : flitsOf p ≤ 0 + 1 := by rw [flitsOf, hbulk]; exact le_rfl
    refine ⟨fun hthere hsplice => ?_, fun hthere hroom => ?_⟩
    · obtain ⟨n, heq⟩ := linkFlitSend_notice hedge hv hq hk hp htorus hbody hpos (.inl hthere)
        fun order hhead => sendFlit_arrives hhead hpos htorus hlast hthere
      rw [if_pos hsplice] at heq
      exact ⟨_, next_congr heq, rfl, queue_left hk n, rfl⟩
    · obtain ⟨n, heq⟩ := linkFlitSend_notice hedge hv hq hk hp htorus hbody hpos (.inr hroom)
        fun order hhead => sendFlit_goesOn hhead hpos htorus hlast hthere
      exact ⟨_, next_congr heq, rfl, queue_left hk n, rfl⟩
  · -- a link with nothing to send
    intro s x y port h
    refine ⟨_, next_congr (linkFlitSend_empty h), rfl, ?_, ?_, rfl⟩
    · rw [link_cycled]
    · rw [link_cycled]
      exact Nat.lt_of_lt_of_le (Nat.lt_succ_self _) (Nat.le_add_right _ _)
  · -- into a splice
    intro s k i e p hp hat hdies hwhole hsplice hentry
    refine ⟨fun hfull => next_congr (spliceEgressEnter_full hp hat hdies hsplice hentry hfull), fun hroom => ⟨_, _,
      next_congr (spliceEgressEnter_enters hp hat hdies hsplice hentry hroom hwhole), rfl, rfl, rfl, rfl, ?_⟩⟩
    rw [State.part_modPart]
    rfl
  · exact fun s p i k e q l hi hentry horder hp => ⟨fun h => next_congr (spliceIngressDeliver_delivers hi hentry horder hp h),
      fun h hc => next_congr (spliceIngressDeliver_waits hi hentry horder hp h hc)⟩
  · -- a crossbar's cycle
    intro s d out
    refine ⟨fun l m i k p horder hbefore hhead => ⟨_, _, next_congr (crossbarGrant_first horder hbefore hhead), rfl, fun h => if_pos h,
      fun h => if_neg h, rfl, ?_, rfl⟩, fun h => ⟨_, next_congr (crossbarGrant_idle h), rfl, rfl⟩, inputOrder_unset, mem_asking,
      fun o => ⟨ownsCycle_unreserved, ownsCycle_split, ownsCycle_whole⟩⟩
    rw [State.granted, State.die_modDie]
    refine (Tbl.get_set_same ..).trans ?_
    rw [← horder]
    rfl
  · -- a channel starts a request
    intro s d ch r w hfind hwalk
    refine ⟨_, next_congr (hbmRequestStart_starts hfind hwalk), ?_, rfl, rfl, rfl⟩
    rw [die_setWalk, State.die_modDie, State.die_modDie]
  · -- a channel that may start none
    intro s d ch h
    refine ⟨_, next_congr (hbmRequestStart_idle h), ?_, ?_, rfl, rfl, rfl⟩
    · rw [State.die_modDie]
    · rw [State.die_modDie]
      exact (by omega : (s.die d).hcyc.get 0 ch < _).trans_eq (Tbl.get_set_same ..).symm

end Sys2Proof.Proofs.ServiceAndFabric
end

section
/-! PROOFS. Fault records and their settlement (O57, in part: R360 to R363). -/

namespace Sys2Proof.Proofs.FaultRecords

open Sys2Proof.Machine Sys2Proof.Proofs.Words Sys2Proof.Proofs.Slots

variable {s u v : State} {r : FaultRec} {n : Nat}

/-! ### Writing a record (R362) -/

section RecordWrite

variable (hr : s.faults[n]? = some r)
include hr

theorem faultRecordWrite_unfinished (h : ∃ c ∈ r.cmds, c.2 = none) : s.faultRecordWrite n = s := by
  obtain ⟨c, hc, hnone⟩ := h
  rw [State.faultRecordWrite, hr]
  exact if_pos (List.any_eq_true.mpr ⟨c, hc, by rw [hnone]; rfl⟩)

theorem faultRecordWrite_noTurn (ht : s.faultTurn r.part = none) : s.faultRecordWrite n = s := by
  rw [State.faultRecordWrite, hr]
  dsimp only
  rw [ht]
  exact ite_self _

end RecordWrite

/-- The state in which a record is settled: it has left the list, and its own command's count has fallen. -/
def recordTaken (s u : State) (n : Nat) (r : FaultRec) : State :=
  let t := { u with faults := s.faults.eraseIdx n }
  if r.own = 0 then t else t.dropCmd r.own

theorem faultTurn_diesOnly {p : Nat} (h : s.faultTurn p = some u) : DiesOnly s u := by
  rw [State.faultTurn] at h
  split at h
  · exact State.dieAgentTurn_diesOnly h
  · cases h
    exact DiesOnly.refl s

theorem faultRecordWrite_eq (hr : s.faults[n]? = some r) (ht : s.faultTurn r.part = some u) (hfinal : ∀ c ∈ r.cmds, c.2.isSome = true) :
    s.faultRecordWrite n = match (recordTaken s u n r).handlerTurn r with
      | none => s
      | some v => v.settleFault r := by
  have hfaults : u.faults = s.faults := by rw [show u = { s with dies := u.dies } from faultTurn_diesOnly ht]
  have hsome : ¬ r.cmds.any (fun c => c.2.isNone) = true := fun h => by
    obtain ⟨c, hc, hnone⟩ := List.any_eq_true.mp h
    have hc := hfinal c hc
    rw [Option.isNone_iff_eq_none.mp hnone] at hc
    cases hc
  rw [State.faultRecordWrite, hr]
  dsimp only
  rw [if_neg hsome, ht]
  dsimp only
  rw [hfaults]
  rfl

/-! ### The fault area (R330, R346, R360) -/

theorem faultTurn_unaccepted {p : Nat} (h : (s.part p).faBaseOk = false ∨ (s.part p).faLogOk = false) : s.faultTurn p = some s := by
  refine if_neg ?_
  rw [Bool.and_eq_true]
  rintro ⟨hb, hl⟩
  rcases h with h | h
  · exact Bool.false_ne_true (h.symm.trans hb)
  · exact Bool.false_ne_true (h.symm.trans hl)

theorem writeFault_lost {action : Nat} (h : (s.part r.part).faBaseOk = false ∨ (s.part r.part).faLogOk = false ∨
    2 ^ (s.part r.part).faLog < ((s.part r.part).faHead - (s.part r.part).faTail).toNat + 1 + (State.extRecords r).length) :
    s.writeFault r action = s.modPart r.part (fun x => { x with faLost := x.faLost + 1 }) := by
  refine if_pos ?_
  simp only [Bool.or_eq_true, Bool.not_eq_true', Bool.and_eq_false_iff, decide_eq_true_eq]
  rwa [or_assoc]

/-- The first n words of a list written from a key on. -/
def wordsFrom (key : Nat) (l : List Word) (s : State) (n : Nat) : State := (List.range n).foldl (fun t j => t.writeW (key + 8 * j) (l.getD j 0)) s

theorem wordsFrom_succ (key : Nat) (l : List Word) (s : State) (n : Nat) :
    wordsFrom key l s (n + 1) = (wordsFrom key l s n).writeW (key + 8 * n) (l.getD n 0) := by
  rw [wordsFrom, wordsFrom, List.range_succ, List.foldl_append]
  rfl

theorem memWf_wordsFrom {key : Nat} {l : List Word} (hw : memWf s.mem = true) : ∀ n, memWf (wordsFrom key l s n).mem = true
  | 0 => hw
  | n + 1 => by
    rw [wordsFrom_succ]
    exact memWf_writeW (memWf_wordsFrom hw n)

theorem readW_wordsFrom {key j : Nat} {l : List Word} (hw : memWf s.mem = true) : ∀ n, j < n → (wordsFrom key l s n).readW (key + 8 * j) = l.getD j 0
  | n + 1, h => by
    rw [wordsFrom_succ]
    by_cases hj : j = n
    · rw [hj, readW_writeW_same (memWf_wordsFrom hw n)]
    · rw [readW_writeW_other (by omega), readW_wordsFrom hw n (by omega)]

theorem byte_wordsFrom {key a : Nat} {l : List Word} : ∀ n, a < key ∨ key + 8 * n ≤ a → (wordsFrom key l s n).byte a = s.byte a
  | 0, _ => rfl
  | n + 1, h => by
    rw [wordsFrom_succ]
    exact (byte_writeN_other (by omega)).trans (byte_wordsFrom n (by omega))

theorem wordsFrom_field {α : Type} {f : State → α} (hf : ∀ (s : State) k w, f (s.writeW k w) = f s) (key : Nat) (l : List Word) (s : State) :
    ∀ n, f (wordsFrom key l s n) = f s
  | 0 => rfl
  | n + 1 => by rw [wordsFrom_succ, hf, wordsFrom_field hf key l s n]

/-- Eight words from a key on: they read back, and all else stays. -/
theorem eightWords (key : Nat) (l : List Word) (hw : memWf s.mem = true) : (∀ j, j < 8 → (wordsFrom key l s 8).readW (key + 8 * j) = l.getD j 0) ∧
    (∀ a, (a < key ∨ key + 64 ≤ a) → (wordsFrom key l s 8).byte a = s.byte a) ∧ (wordsFrom key l s 8).cores = s.cores ∧
    (wordsFrom key l s 8).net = s.net ∧ (wordsFrom key l s 8).parts = s.parts :=
  ⟨fun _ hj => readW_wordsFrom hw 8 hj, fun _ ha => byte_wordsFrom 8 (by omega), wordsFrom_field (f := State.cores) (fun _ _ _ => rfl) key l s 8,
    wordsFrom_field (f := State.net) (fun _ _ _ => rfl) key l s 8, wordsFrom_field (f := State.parts) (fun _ _ _ => rfl) key l s 8⟩

theorem readW_modPart (s : State) (p : Nat) (g : Part → Part) (k : Nat) : (s.modPart p g).readW k = s.readW k := by
  rw [State.readW, State.readN, State.modPart_mem]
  rfl
theorem byte_modPart (s : State) (p : Nat) (g : Part → Part) (k : Nat) : (s.modPart p g).byte k = s.byte k := rfl

/-- Eight words that stand at a partition's head, which has moved on. -/
theorem recordedIn (key : Nat) (l : List Word) (p : Nat) (hw : memWf s.mem = true) :
    (((wordsFrom key l s 8).modPart p (fun x => { x with faHead := x.faHead + 1 })).part p).faHead = (s.part p).faHead + 1 ∧
    (∀ j, j < 8 → ((wordsFrom key l s 8).modPart p (fun x => { x with faHead := x.faHead + 1 })).readW (key + 8 * j) = l.getD j 0) ∧
    (∀ a, (a < key ∨ key + 64 ≤ a) → ((wordsFrom key l s 8).modPart p (fun x => { x with faHead := x.faHead + 1 })).byte a = s.byte a) ∧
    ((wordsFrom key l s 8).modPart p (fun x => { x with faHead := x.faHead + 1 })).cores = s.cores ∧
    ((wordsFrom key l s 8).modPart p (fun x => { x with faHead := x.faHead + 1 })).net = s.net := by
  obtain ⟨hread, hbyte, hcores, hnet, hparts⟩ := eightWords key l hw
  have hpart : (wordsFrom key l s 8).part p = s.part p := congrArg (fun ps => Tbl.get Part.init ps p) hparts
  refine ⟨?_, fun j hj => ?_, fun a ha => ?_, ?_, ?_⟩
  · rw [State.part_modPart, hpart]
  · rw [readW_modPart, hread j hj]
  · rw [byte_modPart, hbyte a ha]
  · rw [State.modPart_cores, hcores]
  · rw [State.modPart_net, hnet]

theorem hbmKey_add {a j : Nat} (h : a + j < 2 ^ 40) : hbmKey (a + j) = hbmKey a + j := by
  rw [hbmKey, hbmKey, Nat.mod_eq_of_lt h, Nat.mod_eq_of_lt (by omega), space, space, Nat.add_assoc]

section Written

variable {action : Nat} (hbase : (s.part r.part).faBaseOk = true) (hlog : (s.part r.part).faLogOk = true) (hext : State.extRecords r = [])
  (hroom : ((s.part r.part).faHead - (s.part r.part).faTail).toNat + 1 ≤ 2 ^ (s.part r.part).faLog)
  (hend : (s.part r.part).faBase.toNat + 64 * 2 ^ (s.part r.part).faLog ≤ 2 ^ 40)
include hbase hlog hext hroom hend

/-- A record without extensions, for which there is room: its words stand at the head, and the head moves on. -/
theorem writeFault_written : s.writeFault r action = (wordsFrom
    (hbmKey ((s.part r.part).faBase.toNat + 64 * ((s.part r.part).faHead.toNat % 2 ^ (s.part r.part).faLog)))
    (State.recordWords r action (s.part r.part).faHead) s 8).modPart r.part (fun x => { x with faHead := x.faHead + 1 }) := by
  have hlt := Nat.mod_lt (s.part r.part).faHead.toNat (Nat.two_pow_pos (s.part r.part).faLog)
  have hfits : ¬ (!((s.part r.part).faBaseOk && (s.part r.part).faLogOk) || decide (2 ^ (s.part r.part).faLog <
      ((s.part r.part).faHead - (s.part r.part).faTail).toNat + 1 + ([] : List (List Word)).length)) = true := by
    rw [hbase, hlog]
    simpa using hroom
  rw [State.writeFault, hext, if_neg hfits, State.putRecords, State.putRecords, wordsFrom]
  refine congrArg (fun t => State.modPart t r.part _) (List.foldl_ext _ _ _ fun t j hj => ?_)
  have hj := List.mem_range.mp hj
  rw [hbmKey_add (by omega)]

theorem writeFault_spec (hw : memWf s.mem = true) :
    let key := hbmKey ((s.part r.part).faBase.toNat + 64 * ((s.part r.part).faHead.toNat % 2 ^ (s.part r.part).faLog))
    let t := s.writeFault r action
    (t.part r.part).faHead = (s.part r.part).faHead + 1 ∧
      (∀ j, j < 8 → t.readW (key + 8 * j) = (State.recordWords r action (s.part r.part).faHead).getD j 0) ∧
      (∀ a, (a < key ∨ key + 64 ≤ a) → t.byte a = s.byte a) ∧ t.cores = s.cores ∧ t.net = s.net := by
  dsimp only
  rw [writeFault_written hbase hlog hext hroom hend]
  exact recordedIn _ _ r.part hw

end Written

/-! ### Policies (R363) -/

theorem handlerTurn_none (h : s.handlerFrame r = none) : s.handlerTurn r = some s := by rw [State.handlerTurn, h]

/-- What a handler's frame tells: the live instance's policy names it, and it is free. -/
theorem handlerFrame_some {cb cid f : Nat} (h : s.handlerFrame r = some (cb, cid, f)) :
    cid = s.handlerCore r cb ∧ s.takeFrame cid = some f ∧ (s.graphOf r.inst).bind (·.policy) = some cb := by
  unfold State.handlerFrame at h
  split at h
  next i cb' hi hcb =>
    dsimp only at h
    split at h
    · cases h
    · obtain ⟨f', hf, heq⟩ := Option.map_eq_some_iff.mp h
      cases heq
      exact ⟨rfl, hf, hcb⟩
  · cases h

section Settle

variable {i : Inst} (hi : s.inst r.inst = some i) (hacts : r.acts = true)
include hi hacts

theorem settleFault_ended (h : i.state ≠ 1 ∨ i.stopping ≠ 0) : s.settleFault r = s.writeFault r 2 := by
  rw [State.settleFault, hi]
  dsimp only
  rw [hacts]
  refine (if_neg (by simp)).trans (if_pos ?_)
  simpa only [Bool.or_eq_true, bne_iff_ne] using h

variable (hlive : i.state = 1) (hgoing : i.stopping = 0)
include hlive hgoing

theorem settleFault_live : s.settleFault r = match s.handlerFrame r with
    | none => (s.writeFault r 0).stopInst r.inst 1
    | some (cb, cid, f) => (s.fireHandler r cb cid f).writeFault r 1 := by
  rw [State.settleFault, hi]
  dsimp only
  rw [hacts, hlive, hgoing]
  rfl

theorem settleFault_stops (h : s.handlerFrame r = none) : s.settleFault r = (s.writeFault r 0).stopInst r.inst 1 := by
  rw [settleFault_live hi hacts hlive hgoing, h]

omit hacts hlive hgoing in
theorem handlerFrame_noPolicy (h : (s.graphOf r.inst).bind (·.policy) = none) : s.handlerFrame r = none := by
  rw [State.handlerFrame, hi, h]

theorem handlerFrame_policy {cb : Nat} (h : (s.graphOf r.inst).bind (·.policy) = some cb) : s.handlerFrame r =
    if r.code == 0x20 || r.cb == some cb || (s.core (s.handlerCore r cb)).dead then none
    else (s.takeFrame (s.handlerCore r cb)).map (fun f => (cb, s.handlerCore r cb, f)) := by
  rw [State.handlerFrame, hi, h]
  dsimp only
  rw [hacts, hlive, hgoing]
  rfl

theorem settleFault_fires {cb f : Nat} (h : (s.graphOf r.inst).bind (·.policy) = some cb) (hcode : r.code ≠ 0x20) (hcb : r.cb ≠ some cb)
    (hdead : (s.core (s.handlerCore r cb)).dead = false) (hf : s.takeFrame (s.handlerCore r cb) = some f) :
    s.settleFault r = (s.fireHandler r cb (s.handlerCore r cb) f).writeFault r 1 := by
  have hframe : s.handlerFrame r = some (cb, s.handlerCore r cb, f) := by
    rw [handlerFrame_policy hi hacts hlive hgoing h, hf, if_neg (by simpa [hcb, hdead] using hcode)]
    rfl
  rw [settleFault_live hi hacts hlive hgoing, hframe]

end Settle

/-! ### Commands that end (R191, R238, R362) -/

/-- A command's end changes the records, the commands and its frame's header. -/
theorem dropCmd_field {α : Type} {f : State → α} (hw : ∀ (s : State) k w, f (s.writeW k w) = f s)
    (hc : ∀ (s : State) fs cs, f { s with faults := fs, cmds := cs } = f s) (s : State) (id : Nat) : f (s.dropCmd id) = f s := by
  unfold State.dropCmd
  split
  · rfl
  · exact (hw _ _ _).trans (hc s _ _)

theorem finishCmd_field {α : Type} {f : State → α} (hw : ∀ (s : State) k w, f (s.writeW k w) = f s)
    (hc : ∀ (s : State) fs cs, f { s with faults := fs, cmds := cs } = f s) (s : State) (id outcome progress : Nat) (ext : List Nat) :
    f (s.finishCmd id outcome progress ext) = f s := by
  unfold State.finishCmd
  split
  · rfl
  · exact (dropCmd_field hw hc _ _).trans (hc s _ _)

theorem failCmd_field {α : Type} {f : State → α} (hf : ∀ (s : State) fs cs, f { s with faults := fs, cmds := cs } = f s)
    (s : State) (id : Nat) (code : BitVec 8) (progress : Nat) (ext : List Nat) : f (s.failCmd id code progress ext) = f s := by
  unfold State.failCmd
  split
  · rfl
  · exact hf s _ _

end Sys2Proof.Proofs.FaultRecords
end

section
/-! PROOFS. Snapshots, gating, quiescence, dead cores and soft errors (O57, in part: R345, R365 to R373). -/

namespace Sys2Proof.Proofs.FaultWork

open Sys2Proof.Machine Sys2Proof.Proofs.FaultRecords Sys2Proof.Proofs.TileWalks

variable {s t : State} {n : Nat} {g : Trig} {b : SnapBlock}

/-! ### Triggers (R370, R373) -/

theorem enterRoot_enters (h : s.trigs.find? (fun x => x.1 == n) = some (n, g)) (hfences : g.fences = []) (hroot : g.root = 0) :
    s.enterRoot n = { s with
      mgmt := { s.mgmt with snapSeq := s.mgmt.snapSeq + 1 }
      trigs := s.trigs.set n { g with seq := s.mgmt.snapSeq + 1, root := s.seq }
      seq := s.seq + 1 } := by
  rw [State.enterRoot, h]
  dsimp only
  rw [hfences, hroot]
  exact if_pos (by decide)

theorem enterRoot_waits (h : s.trigs.find? (fun x => x.1 == n) = some (n, g)) (hfences : g.fences ≠ []) : s.enterRoot n = s := by
  rw [State.enterRoot, h]
  refine if_neg ?_
  rw [List.isEmpty_eq_false_iff.mpr hfences]
  exact Bool.false_ne_true

/-- A trigger without fences enters the root as it is raised. -/
theorem raiseTrig_enters (s : State) (part : Option Nat) (r : Ret) (i : Issuer) (cmd : Nat) : s.raiseTrig part r i cmd [] = { s with
    mgmt := { s.mgmt with snapSeq := s.mgmt.snapSeq + 1 }
    trigs := s.trigs.set s.seq { seq := s.mgmt.snapSeq + 1, part := part, reached := [], ret := r, from_ := i, cmd := cmd, root := s.seq + 1 }
    seq := s.seq + 2 } := by
  rw [State.raiseTrig, enterRoot_enters (find_set_same ..) rfl rfl]
  dsimp only
  rw [Tbl.set_set]

section FenceRelease

variable (hp : s.packet n = none) (hw : s.walks.find? (fun x => x.1 == n) = none) (ht : s.trigs.find? (fun x => x.1 == n) = some (n, g))
include hp hw ht

theorem fenceRelease_trig : s.fenceRelease n =
    ({ s with trigs := s.trigs.set n { g with fences := s.fencesLeft g.from_ g.fences } } : State).enterRoot n := by
  rw [State.fenceRelease, hp]
  dsimp only
  rw [hw]
  dsimp only
  rw [ht]

theorem fenceRelease_enters (hroot : g.root = 0) (hleft : s.fencesLeft g.from_ g.fences = []) : s.fenceRelease n = { s with
    mgmt := { s.mgmt with snapSeq := s.mgmt.snapSeq + 1 }, seq := s.seq + 1
    trigs := s.trigs.set n { g with fences := [], seq := s.mgmt.snapSeq + 1, root := s.seq } } := by
  rw [fenceRelease_trig hp hw ht, enterRoot_enters (g := { g with fences := s.fencesLeft g.from_ g.fences }) (find_set_same ..) hleft hroot]
  dsimp only
  rw [Tbl.set_set, hleft]

theorem fenceRelease_waits (hleft : s.fencesLeft g.from_ g.fences ≠ []) : s.fenceRelease n =
    { s with trigs := s.trigs.set n { g with fences := s.fencesLeft g.from_ g.fences } } := by
  rw [fenceRelease_trig hp hw ht, enterRoot_waits (g := { g with fences := s.fencesLeft g.from_ g.fences }) (find_set_same ..) hleft]

end FenceRelease

theorem snapshotTriggerArrival_reset (h : s.mgmt.ok = false) : s.snapshotTriggerArrival n b = s := by
  rw [State.snapshotTriggerArrival]
  split
  · rfl
  · exact if_pos (by simp [h])

section Arrival

variable (ht : s.trigs.find? (fun x => x.1 == n) = some (n, g))
include ht

theorem snapshotTriggerArrival_latches (hok : s.mgmt.ok = true) (hhit : s.trigHits g.part b = true) (hnew : b ∉ g.reached) (hroot : g.root ≠ 0)
    (hfirst : ∀ x ∈ s.trigs, x.2.root ≠ 0 → x.2.root < g.root → s.trigHits x.2.part b = true → b ∈ x.2.reached) :
    s.snapshotTriggerArrival n b = { s.latch g.seq b with trigs := (s.latch g.seq b).trigs.set n { g with reached := b :: g.reached } } := by
  have hnone : s.trigs.any (fun x => x.2.root != 0 && decide (x.2.root < g.root) && s.trigHits x.2.part b && !(x.2.reached.contains b)) = false := by
    refine List.any_eq_false.mpr fun x hx hbad => ?_
    simp only [Bool.and_eq_true, bne_iff_ne, decide_eq_true_eq, Bool.not_eq_true', List.contains_eq_mem, decide_eq_false_iff_not] at hbad
    obtain ⟨⟨⟨hx0, hlt⟩, hx1⟩, hx2⟩ := hbad
    exact hx2 (hfirst x hx hx0 hlt hx1)
  rw [State.snapshotTriggerArrival, ht]
  refine if_neg ?_
  rw [hnone, hok, hhit]
  simp [hnew, hroot]

theorem snapshotTriggerArrival_waits (h : g.root = 0 ∨ ∃ x ∈ s.trigs, x.2.root ≠ 0 ∧ x.2.root < g.root ∧ s.trigHits x.2.part b = true ∧
    b ∉ x.2.reached) : s.snapshotTriggerArrival n b = s := by
  rw [State.snapshotTriggerArrival, ht]
  refine if_pos ?_
  rcases h with h | ⟨x, hx, h0, hlt, hhit, hnew⟩
  · simp [h]
  · refine Bool.or_eq_true_iff.mpr (.inr (List.any_eq_true.mpr ⟨x, hx, ?_⟩))
    simp [h0, hlt, hhit, hnew]

omit ht in
/-- A block's latch changes nothing but its own snapshot: no trigger, no byte and no packet. -/
theorem latch_frame (s : State) (q : BitVec 16) (b : SnapBlock) : (s.latch q b).trigs = s.trigs ∧ (s.latch q b).mem = s.mem ∧
    (s.latch q b).net = s.net := by
  cases b <;> exact ⟨rfl, rfl, rfl⟩

theorem snapComplete_waits (h : ∃ b ∈ s.trigBlocks g.part, b ∉ g.reached) : s.snapComplete n = s := by
  obtain ⟨b, hb, hnew⟩ := h
  rw [State.snapComplete, ht]
  refine if_pos ?_
  rw [Bool.not_eq_true', List.all_eq_false]
  exact ⟨b, hb, by simpa using hnew⟩

theorem snapComplete_all (h : ∀ b ∈ s.trigBlocks g.part, b ∈ g.reached) : s.snapComplete n =
    if g.part.isNone || (g.ret.ow = 0 && g.ret.slot.isNone) then { s with trigs := s.trigs.erase n } else
      State.sendReply { s with trigs := s.trigs.erase n } (.agent (dieOf g.from_.cid))
        { State.packetOf .free (.agent (dieOf g.from_.cid)) (.core g.from_.cid) g.from_.fref g.from_ with ret := g.ret, cmd := g.cmd }
        (g.seq.setWidth 64) false := by
  rw [State.snapComplete, ht]
  refine if_neg ?_
  rw [Bool.not_eq_true', Bool.not_eq_false, List.all_eq_true]
  intro b hb
  simpa using h b hb

end Arrival

/-! ### Gating and quiescence (R367, R369) -/

theorem cellGate_gates {cell : Nat} (hlt : cell < 51200) (hidle : s.cellIdle cell = true) (hgate : (s.part (s.cellPart cell)).gate = true)
    (hex : s.partExists (s.cellPart cell) = true) (hrsv : dieRsv s.mgmt.region (cell / 3200) = false) :
    s.cellGate cell = s.setCell cell { s.cell cell with gated := true } := if_pos (by simp [hlt, hidle, hgate, hex, hrsv])

theorem cellGate_stands {cell : Nat} (h : s.cellIdle cell = false ∨ dieRsv s.mgmt.region (cell / 3200) = true) : s.cellGate cell = s := by
  refine if_neg ?_
  rcases h with h | h <;> simp [h]

theorem foldl_addFault {α : Type} (rec : α → FaultRec) (l : List α) (s : State) :
    l.foldl (fun u x => u.addFault (rec x)) s = { s with faults := s.faults ++ l.map rec } := by
  induction l generalizing s with
  | nil => rw [List.map_nil, List.append_nil]; rfl
  | cons x l ih =>
    rw [List.foldl_cons, ih, List.map_cons]
    simp [State.addFault]

/-- The kind-5 record of a live instance (R369). -/
def quietRecord (s : State) (p : Nat) (x : Nat × Inst) : FaultRec :=
  { kind := 5, code := 0, part := p, inst := x.1, handle := x.2.handle, cid := x.2.die * 25600, f := 8192
    w2 := BitVec.ofNat 64 ((s.armedSlots x.1).tail.foldl min ((s.armedSlots x.1).headD 0))
    w3 := BitVec.ofNat 64 ((s.armedSlots x.1).length % 2 ^ 32 + s.keptRequests x.1 * 2 ^ 32)
    rest := [0, 0, 0, 0], cmds := [], ext := [], cb := none, own := 0, acts := false }

section Quiescence

variable {p : Nat} (hex : s.partExists p = true)
include hex

theorem quiescence_moving (h : s.quiet p = false) : s.quiescence p = s.modPart p (fun q => { q with quiesced := false }) := by
  rw [State.quiescence, hex, h]
  rfl

theorem quiescence_recorded (h : s.quiet p = true) (hq : (s.part p).quiesced = true) : s.quiescence p = s := by
  rw [State.quiescence, hex, h, hq]
  rfl

theorem quiescence_records (h : s.quiet p = true) (hq : (s.part p).quiesced = false) : s.quiescence p =
    State.modPart { s with faults := s.faults ++ (s.insts.filter (fun x => x.2.part == p && x.2.state == 1)).map (quietRecord s p) } p
      (fun q => { q with quiesced := true }) := by
  rw [State.quiescence, hex, h, hq, ← foldl_addFault]
  rfl

end Quiescence

/-! ### Records of instances (R361) -/

/-- The kind-3 record of an instance. -/
def instRecord (i : Inst) (k cid f : Nat) (code : Code) : FaultRec :=
  { kind := 3, code := code, part := i.part, inst := k, handle := i.handle, cid := cid, f := f, w2 := BitVec.ofNat 64 (mkFref cid f)
    w3 := 0, rest := [], cmds := [], ext := [], cb := none, own := 0, acts := true }

theorem instFault_known {i : Inst} {k cid f : Nat} {code : Code} (h : s.inst k = some i) :
    s.instFault k cid f code = s.addFault (instRecord i k cid f code) := by
  rw [State.instFault, h]
  rfl

/-- One record for each entry of a list of known instances. -/
theorem foldl_instFault {code : Code} : ∀ (l : List (Nat × Nat × Nat)) (s : State), (∀ y ∈ l, (s.inst y.1).isSome = true) →
    ∃ rs, l.foldl (fun t y => t.instFault y.1 y.2.1 y.2.2 code) s = { s with faults := s.faults ++ rs } ∧
      rs.map (fun r => (r.inst, r.cid, r.f)) = l ∧ ∀ r ∈ rs, r.kind = 3 ∧ r.code = code
  | [], s, _ => ⟨[], by rw [List.append_nil]; rfl, rfl, by simp⟩
  | y :: l, s, h => by
    obtain ⟨i, hi⟩ := Option.isSome_iff_exists.mp (h y List.mem_cons_self)
    obtain ⟨rs, heq, hmap, hrs⟩ := foldl_instFault l (s.addFault (instRecord i y.1 y.2.1 y.2.2 code)) fun z hz => h z (List.mem_cons_of_mem _ hz)
    refine ⟨instRecord i y.1 y.2.1 y.2.2 code :: rs, ?_, ?_, ?_⟩
    · rw [List.foldl_cons, instFault_known hi, heq]
      simp [State.addFault]
    · rw [List.map_cons, hmap]
      rfl
    · rintro r hr
      rcases List.mem_cons.mp hr with rfl | hr
      · exact ⟨rfl, rfl⟩
      · exact hrs r hr

/-- An instance with a frame on a core is one of the machine's. -/
theorem instsOn_known {cid : Nat} {x : Nat × Nat} (h : x ∈ s.instsOn cid) : (s.inst x.1).isSome = true := by
  obtain ⟨k, -, hk⟩ := List.mem_filterMap.mp h
  split at hk
  · cases hk
  · split at hk
    next hsome => cases hk; exact hsome
    · cases hk

/-- The records of the instances with a frame on a core, in a state that knows the same instances. -/
theorem foldl_instsOn {cid : Nat} {code : Code} (hinsts : t.insts = s.insts) : ∃ rs,
    (s.instsOn cid).foldl (fun u x => u.instFault x.1 cid x.2 code) t = { t with faults := t.faults ++ rs } ∧
      rs.map (fun r => (r.inst, r.f)) = s.instsOn cid ∧ ∀ r ∈ rs, r.kind = 3 ∧ r.code = code := by
  obtain ⟨rs, heq, hmap, hrs⟩ := foldl_instFault (code := code) ((s.instsOn cid).map (fun x => (x.1, cid, x.2))) t fun y hy => by
    obtain ⟨x, hx, rfl⟩ := List.mem_map.mp hy
    rw [State.inst, hinsts]
    exact instsOn_known hx
  refine ⟨rs, ?_, ?_, hrs⟩
  · rw [← heq, List.foldl_map]
  · have h := congrArg (List.map (fun y => (y.1, y.2.2))) hmap
    rw [List.map_map, List.map_map] at h
    exact h.trans (List.map_id _)

/-- Each instance that the list names has its record. -/
theorem record_of_mem {rs : List FaultRec} {l : List (Nat × Nat)} {x : Nat × Nat} (hmap : rs.map (fun r => (r.inst, r.f)) = l) (hx : x ∈ l) :
    ∃ r ∈ rs, r.inst = x.1 ∧ r.f = x.2 := by
  rw [← hmap] at hx
  obtain ⟨r, hr, rfl⟩ := List.mem_map.mp hx
  exact ⟨r, hr, rfl, rfl⟩

/-! ### Dead cores (R345, R368) -/

/-- What a reset leaves of a core. -/
def killed (c : Core) : Core := { c with dead := true, ctx0 := Ctx.init, ctx1 := Ctx.init, mq := [], heldq := [], stepds := [], landing := [] }

/-- A core's reset ends commands and refuses what it held: of the units it changes that core alone. -/
theorem killCore_field {α : Type} {f : State → α} (hw : ∀ (s : State) k w, f (s.writeW k w) = f s)
    (hc : ∀ (s : State) fs cs, f { s with faults := fs, cmds := cs } = f s) (hp : ∀ (s : State) p g, f (s.modPart p g) = f s)
    (hn : ∀ (s : State) k, f (s.dropPacket k) = f s) (s : State) (cid : Nat) : f (s.killCore cid) = f (s.modCore cid killed) := by
  have hfail : ∀ (t : State) (id : Nat), f (t.failCmd id 0x38 0 []) = f t := fun t id => failCmd_field hc t id 0x38 0 []
  rw [State.killCore, WalkEnds.foldl_field (f := f)]
  · have hlanding : ∀ t : State, f ((s.core cid).landing.foldl (fun t l => match l.2 with | some x => t.failCmd x.cmd 0x38 0 [] | none => t) t) = f t :=
      fun t => WalkEnds.foldl_field (f := f) (fun t l => by
        split
        · exact hfail _ _
        · rfl) _ t
    have hmq : ∀ t : State, f ((s.core cid).mq.foldl (fun t m => t.finishCmd m.cmd 0 (State.drained m) []) t) = f t :=
      fun t => WalkEnds.foldl_field (f := f) (fun t m => finishCmd_field hw hc t m.cmd 0 (State.drained m) []) _ t
    split
    · exact (hlanding _).trans (hmq _)
    · exact (hp _ _ _).trans ((hlanding _).trans (hmq _))
  · intro t k
    split
    · exact (hfail _ _).trans (hn _ _)
    · rfl

theorem cores_killCore (s : State) (cid : Nat) : (s.killCore cid).cores = (s.modCore cid killed).cores :=
  killCore_field (f := State.cores) (fun _ _ _ => rfl) (fun _ _ _ => rfl) (fun _ _ _ => rfl) (fun _ _ => rfl) s cid
theorem insts_killCore (s : State) (cid : Nat) : (s.killCore cid).insts = s.insts :=
  killCore_field (f := State.insts) (fun _ _ _ => rfl) (fun _ _ _ => rfl) (fun _ _ _ => rfl) (fun _ _ => rfl) s cid
theorem clusters_killCore (s : State) (cid : Nat) : (s.killCore cid).clusters = s.clusters :=
  killCore_field (f := State.clusters) (fun _ _ _ => rfl) (fun _ _ _ => rfl) (fun _ _ _ => rfl) (fun _ _ => rfl) s cid

theorem core_killCore_same (s : State) (cid : Nat) : (s.killCore cid).core cid = killed (s.core cid) := by
  rw [State.core, cores_killCore]
  exact State.core_modCore ..
theorem core_killCore_other {cid c : Nat} (h : c ≠ cid) : (s.killCore cid).core c = s.core c := by
  rw [State.core, cores_killCore]
  exact State.core_modCore_other _ _ _ _ h

/-- The cores from a number on, n of them, with those reset that run. -/
def killAll (base : Nat) (s : State) (n : Nat) : State :=
  (List.range n).foldl (fun t i => if (t.core (base + i)).dead then t else t.killCore (base + i)) s

theorem killAll_succ (base : Nat) (s : State) (n : Nat) : killAll base s (n + 1) =
    if ((killAll base s n).core (base + n)).dead then killAll base s n else (killAll base s n).killCore (base + n) := by
  rw [killAll, List.range_succ, List.foldl_append]
  rfl

theorem insts_killAll (base : Nat) (s : State) : ∀ n, (killAll base s n).insts = s.insts
  | 0 => rfl
  | n + 1 => by
    rw [killAll_succ]
    split
    · exact insts_killAll base s n
    · rw [insts_killCore, insts_killAll base s n]

theorem core_killAll_outside {base c : Nat} : ∀ n, c < base ∨ base + n ≤ c → (killAll base s n).core c = s.core c
  | 0, _ => rfl
  | n + 1, h => by
    rw [killAll_succ]
    split
    · exact core_killAll_outside n (by omega)
    · rw [core_killCore_other (by omega), core_killAll_outside n (by omega)]

theorem core_killAll_inside {base i : Nat} : ∀ n, i < n →
    (killAll base s n).core (base + i) = if (s.core (base + i)).dead then s.core (base + i) else killed (s.core (base + i))
  | n + 1, h => by
    rw [killAll_succ]
    by_cases hi : i = n
    · rw [hi, core_killAll_outside n (by omega)]
      split
      · exact core_killAll_outside n (by omega)
      · rw [core_killCore_same, core_killAll_outside n (by omega)]
    · have hbefore := core_killAll_inside (base := base) n (by omega : i < n)
      split
      · exact hbefore
      · rw [core_killCore_other (by omega), hbefore]

/-- A list kept to its first entry for each key. -/
def firstOf (l : List (Nat × Nat × Nat)) : List (Nat × Nat × Nat) :=
  l.foldl (fun l y => if l.any (fun z => z.1 == y.1) then l else l ++ [y]) []

theorem foldl_first_mem : ∀ (l acc : List (Nat × Nat × Nat)), let r := l.foldl (fun l y => if l.any (fun z => z.1 == y.1) then l else l ++ [y]) acc
    (∀ z ∈ r, z ∈ acc ∨ z ∈ l) ∧ (∀ z ∈ acc, z ∈ r) ∧ ∀ y ∈ l, ∃ z ∈ r, z.1 = y.1
  | [], acc => ⟨fun z hz => .inl hz, fun z hz => hz, by simp⟩
  | y :: l, acc => by
    obtain ⟨hsub, hacc, hkeys⟩ := foldl_first_mem l (if acc.any (fun z => z.1 == y.1) then acc else acc ++ [y])
    refine ⟨fun z hz => ?_, fun z hz => hacc z ?_, fun x hx => ?_⟩
    · rcases hsub z hz with h | h
      · split at h
        · exact .inl h
        · rcases List.mem_append.mp h with h | h
          · exact .inl h
          · exact .inr (List.mem_cons.mpr (.inl (List.mem_singleton.mp h)))
      · exact .inr (List.mem_cons_of_mem _ h)
    · split
      · exact hz
      · exact List.mem_append_left _ hz
    · rcases List.mem_cons.mp hx with rfl | hx
      · by_cases hany : acc.any (fun z => z.1 == x.1) = true
        · obtain ⟨z, hz, hk⟩ := List.any_eq_true.mp hany
          exact ⟨z, hacc z (by rw [if_pos hany]; exact hz), beq_iff_eq.mp hk⟩
        · exact ⟨x, hacc x (by rw [if_neg hany]; exact List.mem_append_right _ (List.mem_singleton.mpr rfl)), rfl⟩
      · exact hkeys x hx

theorem mem_firstOf {l : List (Nat × Nat × Nat)} {z : Nat × Nat × Nat} (h : z ∈ firstOf l) : z ∈ l :=
  ((foldl_first_mem l []).1 z h).resolve_left List.not_mem_nil
theorem key_firstOf {l : List (Nat × Nat × Nat)} {y : Nat × Nat × Nat} (h : y ∈ l) : ∃ z ∈ firstOf l, z.1 = y.1 := (foldl_first_mem l []).2.2 y h

/-- The instances with frames on the running cores of a die. -/
def onDie (s : State) (d : Nat) : List (Nat × Nat × Nat) :=
  (s.cores.filter (fun x => dieOf x.1 == d && !x.2.dead)).flatMap (fun x => (s.instsOn x.1).map (fun y => (y.1, x.1, y.2)))

theorem thermalTrip_eq {d : Nat} (hd : d < 16) (hok : s.mgmt.ok = true) : s.thermalTrip d =
    ((firstOf (onDie s d)).foldl (fun t y => t.instFault y.1 y.2.1 y.2.2 0x38) (killAll (d * 25600) s 25600)).modDie d (fun x => { x with trip := true }) :=
  if_neg (by simp [hok, hd])

theorem onDie_known {d : Nat} {y : Nat × Nat × Nat} (h : y ∈ onDie s d) : (s.inst y.1).isSome = true := by
  obtain ⟨x, -, hx⟩ := List.mem_flatMap.mp h
  obtain ⟨z, hz, rfl⟩ := List.mem_map.mp hx
  exact instsOn_known hz

/-- What a table gives for a key is the default, or stands in it under the key. -/
theorem get_default_or_mem {α : Type} (d : α) (i : Nat) : ∀ t : Tbl α, t.get d i = d ∨ (i, t.get d i) ∈ t
  | [] => .inl rfl
  | (k, v) :: t => by
    rw [Tbl.get]
    split
    next h => exact .inr (h ▸ List.mem_cons_self)
    next => exact (get_default_or_mem d i t).imp_right (List.mem_cons_of_mem _)

/-- An instance with a frame on a running core of a die is on the die's list. -/
theorem mem_onDie {d c : Nat} {x : Nat × Nat} (hdie : dieOf c = d) (halive : (s.core c).dead = false) (hx : x ∈ s.instsOn c) :
    (x.1, c, x.2) ∈ onDie s d := by
  rcases get_default_or_mem Core.init c s.cores with hcore | hmem
  · have hnil : s.instsOn c = [] := by
      rw [State.instsOn, show s.core c = Core.init from hcore]
      rfl
    rw [hnil] at hx
    cases hx
  · refine List.mem_flatMap.mpr ⟨_, List.mem_filter.mpr ⟨hmem, ?_⟩, List.mem_map.mpr ⟨x, hx, rfl⟩⟩
    rw [show s.cores.get Core.init c = s.core c from rfl, hdie, halive]
    simp

theorem mem_insertNat (x : Nat) : ∀ l : List Nat, x ∈ insertNat x l
  | [] => List.mem_singleton.mpr rfl
  | y :: l => by
    rw [insertNat]
    split
    · exact List.mem_cons_self
    · split
      next h => exact h ▸ List.mem_cons_self
      · exact List.mem_cons_of_mem _ (mem_insertNat x l)

/-- The marks of a failed core: its own, and that of the spare that stands at its position (R378). -/
def marked (s : State) (cid : Nat) : State :=
  let t0 := s.modCore cid (fun c => { c with bad := true })
  if State.hardwareAt s.mgmt.repair cid = 8 then t0 else
    t0.modCluster (clidOf cid) (fun k => { k with bad := insertNat (State.hardwareAt s.mgmt.repair cid) k.bad })

theorem coreReset_eq {cid : Nat} (h : cid < 409600) : s.coreReset cid = if (s.core cid).dead || !s.mgmt.ok then marked s cid else
    (s.instsOn cid).foldl (fun t x => t.instFault x.1 cid x.2 0x38) ((marked s cid).killCore cid) := if_neg (by omega)

theorem marked_field {α : Type} {f : State → α} (hcore : ∀ (s : State) c g, f (s.modCore c g) = f s) (hclus : ∀ (s : State) k g, f (s.modCluster k g) = f s)
    (s : State) (cid : Nat) : f (marked s cid) = f s := by
  rw [marked]
  split
  · exact hcore _ _ _
  · exact (hclus _ _ _).trans (hcore _ _ _)

theorem cores_marked (s : State) (cid : Nat) : (marked s cid).cores = (s.modCore cid (fun c => { c with bad := true })).cores := by
  rw [marked]
  split <;> rfl
theorem core_marked_same (s : State) (cid : Nat) : (marked s cid).core cid = { s.core cid with bad := true } := by
  rw [State.core, cores_marked]
  exact State.core_modCore ..
theorem core_marked_other {cid c : Nat} (h : c ≠ cid) : (marked s cid).core c = s.core c := by
  rw [State.core, cores_marked]
  exact State.core_modCore_other _ _ _ _ h

theorem spare_marked {cid : Nat} (h : State.hardwareAt s.mgmt.repair cid ≠ 8) :
    State.hardwareAt s.mgmt.repair cid ∈ ((marked s cid).cluster (clidOf cid)).bad := by
  rw [marked, if_neg h, State.cluster_modCluster]
  exact mem_insertNat _ _

end Sys2Proof.Proofs.FaultWork
end

section
/-! PROOFS. Faults, snapshots, gating and errors at work (O57). -/

namespace Sys2Proof.Proofs.FaultsAtWork

open Sys2Proof.Machine Sys2Proof.Proofs.Words Sys2Proof.Proofs.Slots Sys2Proof.Proofs.FaultRecords Sys2Proof.Proofs.FaultWork

variable {s : State} {k c n key : Nat} {p : Packet}

/-! ### Refusals (R368) -/

section Refused

variable (hp : s.packet k = some p) (hc : State.targetCid p = some c) (hpos : p.pos = .ready) (hdead : (s.core c).dead = true)
include hp hc hpos hdead

theorem packetRefused_one (hmoves : ∀ n st tl es, p.body ≠ .moves n st tl es) (hatomic : ∀ op z b d x xs, p.body ≠ .atomic op z b d (x :: xs))
    (htile : ∀ l bs sc m, p.body ≠ .tile l bs sc m) : s.packetRefused k = (s.dropPacket k).refuseOne p := by
  rw [State.packetRefused, hp]
  dsimp only
  rw [hc]
  refine (if_pos (by simp [hpos, hdead])).trans ?_
  split
  next h => exact absurd h (hmoves _ _ _ _)
  next h => exact absurd h (hatomic _ _ _ _ _ _)
  next h => exact absurd h (htile _ _ _ _)
  next => rfl

theorem packetRefused_moves {m st tl : Nat} {es : List Elem} {w : Walk} (hbody : p.body = .moves m st tl es) (hw : s.walk m = some w) :
    s.packetRefused k = ((s.dropPacket k).dropWalk m w).failCmd w.cmd 0x38 (walkProgress w) (walkExt w) := by
  rw [State.packetRefused, hp]
  dsimp only
  rw [hc]
  refine (if_pos (by simp [hpos, hdead])).trans ?_
  rw [hbody]
  dsimp only
  rw [hw]
  rfl

theorem packetRefused_merged {op z x : Nat} {b : BitVec 256} {d : Word} {xs : List Nat} (hbody : p.body = .atomic op z b d (x :: xs)) :
    s.packetRefused k = (s.partsOf (x :: xs)).foldl (fun t y => (t.dropPacket y.1).refuseOne y.2) (s.dropPacket k) := by
  rw [State.packetRefused, hp]
  dsimp only
  rw [hc]
  refine (if_pos (by simp [hpos, hdead])).trans ?_
  rw [hbody]

theorem packetRefused_tile {l m a : Nat} {bs sc : List Byte} (hbody : p.body = .tile l bs sc m) (hsrc : p.src = .core a) :
    s.packetRefused k = ((s.dropPacket k).dropMcmd a m).refuseOne p := by
  rw [State.packetRefused, hp]
  dsimp only
  rw [hc]
  refine (if_pos (by simp [hpos, hdead])).trans ?_
  rw [hbody, hsrc]

end Refused

/-! ### Latches (R370, R383) -/

section Latches

variable {q : BitVec 16} {d i e : Nat}

theorem snap_latch_core : ((s.latch q (.core c)).core c).snap = State.coreSnap (s.core c) q := congrArg Core.snap (State.core_modCore s c _)

theorem snap_latch_dieAgent : ((s.latch q (.dieAgent d)).die d).snaps.get Snap.init 0 = s.blockSnap q (.dieAgent d) := by
  rw [State.latch, State.die_modDie]
  exact Tbl.get_set_same ..
theorem snap_latch_launchAgent : ((s.latch q (.launchAgent d)).die d).snaps.get Snap.init 1 = s.blockSnap q (.launchAgent d) := by
  rw [State.latch, State.die_modDie]
  exact Tbl.get_set_same ..
theorem snap_latch_power : ((s.latch q (.power d)).die d).snaps.get Snap.init 2 = s.blockSnap q (.power d) := by
  rw [State.latch, State.die_modDie]
  exact Tbl.get_set_same ..
theorem snap_latch_link : ((s.latch q (.link d i)).die d).snaps.get Snap.init (8 + i) = s.blockSnap q (.link d i) := by
  rw [State.latch, State.die_modDie]
  exact Tbl.get_set_same ..
theorem snap_latch_engine : ((s.latch q (.engine k e)).cluster k).snaps.get Snap.init e = s.blockSnap q (.engine k e) := by
  rw [State.latch, State.cluster_modCluster]
  exact Tbl.get_set_same ..
theorem snap_latch_sequencer : ((s.latch q (.sequencer k)).cluster k).snaps.get Snap.init 4 = s.blockSnap q (.sequencer k) := by
  rw [State.latch, State.cluster_modCluster]
  exact Tbl.get_set_same ..

/-- A block's snapshot has the trigger's number and is valid. -/
theorem latched_of {x : Snap} {b : SnapBlock} (h : x = s.blockSnap q b) : x.seq = q ∧ x.valid = true := h ▸ ⟨rfl, rfl⟩

end Latches

/-! ### Soft errors (R365, R366) -/

/-- The state in which a core has counted an uncorrectable error. -/
def ueCounted (s : State) (cid : Nat) : State := s.modCore cid (fun c => { c with eccUe := State.satUp c.eccUe })

theorem uncorrectableError_owner (hok : s.mgmt.ok = true) (cid f : Nat) : s.uncorrectableError cid f true =
    if (s.instsOn cid).any (fun x => x.1 == s.ownerOf cid f) then (ueCounted s cid).instFault (s.ownerOf cid f) cid f 0x21 else ueCounted s cid :=
  if_neg (by simp [hok])

theorem uncorrectableError_all (hok : s.mgmt.ok = true) (cid f : Nat) : s.uncorrectableError cid f false =
    (s.instsOn cid).foldl (fun u x => u.instFault x.1 cid x.2 0x21) (ueCounted s cid) := if_neg (by simp [hok])

theorem uncorrectableError_reset (hok : s.mgmt.ok = false) (cid f : Nat) (o : Bool) : s.uncorrectableError cid f o = s := if_pos hok

theorem softError_reset (hok : s.mgmt.ok = false) (key n : Nat) : s.softError key n = s := if_pos (.inr (.inr hok))

section CoreWord

variable (hok : s.mgmt.ok = true) (hkey : key < 2 ^ 60)
include hok hkey

theorem softError_core (hn : n ≠ 0) : s.softError key n =
    let w := key / 8 * 8
    let cid := w % 2 ^ 60 / 2 ^ 17
    if n = 1 then s.modCore cid (fun c => { c with eccCe := State.satUp c.eccCe }) else
      match s.slotFrame cid (w % 2 ^ 60 % 2 ^ 17) with
      | some f => (s.uncorrectableError cid f true).addPoison w 8
      | none => (ueCounted s cid).addPoison w 8 := by
  unfold State.softError
  refine (if_neg ?_).trans ?_
  · rw [hok]
    simp only [Bool.true_eq_false, or_false]
    omega
  · rw [show key / 8 * 8 / 2 ^ 60 = 0 by omega]
    rfl

end CoreWord

/-- A die's count of a soft error. -/
def dieCounted (s : State) (d n : Nat) : State :=
  s.modDie d (fun x => if n = 1 then { x with eccCe := State.satUp x.eccCe } else { x with eccUe := State.satUp x.eccUe })

theorem dieCounted_many {d : Nat} (hn : n ≠ 1) : dieCounted s d n = s.modDie d (fun x => { x with eccUe := State.satUp x.eccUe }) := by
  rw [dieCounted]
  simp only [if_neg hn]

/-- The die of a word outside the core scratchpads. -/
def wordDie (key : Nat) : Nat :=
  let off := key / 8 * 8 % 2 ^ 60
  if key / 2 ^ 60 = 1 then off / 2 ^ 22 / 100 else if key / 2 ^ 60 = 2 then off / 2 ^ 28 else off / 2 ^ 36

theorem softError_die (hok : s.mgmt.ok = true) (hlo : 2 ^ 60 ≤ key) (hhi : key < 4 * 2 ^ 60) (hn : n ≠ 0) : s.softError key n =
    if n = 1 then dieCounted s (wordDie key) n else (dieCounted s (wordDie key) n).addPoison (key / 8 * 8) 8 := by
  unfold State.softError
  refine (if_neg ?_).trans ?_
  · rw [hok]
    simp only [Bool.true_eq_false, or_false]
    omega
  · have hzone : key / 8 * 8 / 2 ^ 60 = key / 2 ^ 60 := by omega
    have hcases : key / 2 ^ 60 = 1 ∨ key / 2 ^ 60 = 2 ∨ key / 2 ^ 60 = 3 := by omega
    rw [hzone, wordDie]
    rcases hcases with h | h | h <;> rw [h] <;> rfl

/-! ### Resets (R345, R368) -/

theorem thermalTrip_reset (hok : s.mgmt.ok = false) (d : Nat) : s.thermalTrip d = s := if_pos (.inr hok)


theorem core_recorded (u : State) (fs : List FaultRec) (d c : Nat) (g : Die → Die) : (State.modDie { u with faults := fs } d g).core c = u.core c := rfl

/-- A thermal trip: the die's mark, its cores dead, a record for each instance on them, and every other core as it was. -/
theorem thermalTrip_spec {d : Nat} (hd : d < 16) (hok : s.mgmt.ok = true) : ((s.thermalTrip d).die d).trip = true ∧
    (∀ i, i < 25600 → let c := d * 25600 + i
      ((s.thermalTrip d).core c).dead = true ∧ ((s.core c).dead = false → ((s.thermalTrip d).core c).ctx0 = Ctx.init ∧
        ((s.thermalTrip d).core c).ctx1 = Ctx.init ∧ ∀ x ∈ s.instsOn c, ∃ r ∈ (s.thermalTrip d).faults, r.kind = 3 ∧ r.code = 0x38 ∧ r.inst = x.1)) ∧
    ∀ c, dieOf c ≠ d → (s.thermalTrip d).core c = s.core c := by
  obtain ⟨rs, heq, hmap, hrs⟩ := foldl_instFault (code := 0x38) (firstOf (onDie s d)) (killAll (d * 25600) s 25600) fun y hy => by
    rw [State.inst, insts_killAll]
    exact onDie_known (mem_firstOf hy)
  rw [thermalTrip_eq hd hok, heq]
  refine ⟨by rw [State.die_modDie], ?_, fun c hc => ?_⟩
  · intro i hi c
    have hin := core_killAll_inside (s := s) (base := d * 25600) 25600 hi
    rw [core_recorded]
    refine ⟨?_, fun halive => ⟨?_, ?_, fun x hx => ?_⟩⟩
    · rw [hin]
      split
      next h => exact h
      next => rfl
    · rw [hin, if_neg (by simp [c] at halive; simp [halive])]
      rfl
    · rw [hin, if_neg (by simp [c] at halive; simp [halive])]
      rfl
    · have hdie : dieOf c = d := by rw [dieOf]; omega
      obtain ⟨z, hz, hkey⟩ := key_firstOf (mem_onDie hdie halive hx)
      rw [← hmap] at hz
      obtain ⟨r, hr, rfl⟩ := List.mem_map.mp hz
      exact ⟨r, List.mem_append_right _ hr, (hrs r hr).1, (hrs r hr).2, hkey⟩
  · rw [core_recorded]
    refine core_killAll_outside _ ?_
    rw [dieOf] at hc
    omega

theorem coreReset_spec {cid : Nat} (hcid : cid < 409600) (halive : (s.core cid).dead = false) (hok : s.mgmt.ok = true) :
    ((s.coreReset cid).core cid).dead = true ∧ ((s.coreReset cid).core cid).ctx0 = Ctx.init ∧ ((s.coreReset cid).core cid).ctx1 = Ctx.init ∧
    ((s.coreReset cid).core cid).mq = [] ∧ ((s.coreReset cid).core cid).bad = true ∧
    (∀ h, h = State.hardwareAt s.mgmt.repair cid → h ≠ 8 → h ∈ ((s.coreReset cid).cluster (clidOf cid)).bad) ∧
    (∀ x ∈ s.instsOn cid, ∃ r ∈ (s.coreReset cid).faults, r.kind = 3 ∧ r.code = 0x38 ∧ r.inst = x.1 ∧ r.f = x.2) ∧
    ∀ c, c ≠ cid → (s.coreReset cid).core c = s.core c := by
  have hinsts : ((marked s cid).killCore cid).insts = s.insts := (insts_killCore _ _).trans (marked_field (fun _ _ _ => rfl) (fun _ _ _ => rfl) s cid)
  obtain ⟨rs, heq, hmap, hrs⟩ := foldl_instsOn (cid := cid) (code := 0x38) hinsts
  rw [coreReset_eq hcid, halive, hok, if_neg (by decide), heq]
  have hcore : ∀ c, State.core { (marked s cid).killCore cid with faults := ((marked s cid).killCore cid).faults ++ rs } c =
      ((marked s cid).killCore cid).core c := fun _ => rfl
  have hsame : ((marked s cid).killCore cid).core cid = killed { s.core cid with bad := true } := by rw [core_killCore_same, core_marked_same]
  refine ⟨?_, ?_, ?_, ?_, ?_, fun h heq hne => ?_, fun x hx => ?_, fun c hc => ?_⟩
  any_goals rw [hcore, hsame]; rfl
  · rw [State.cluster]
    dsimp only
    rw [clusters_killCore, heq]
    exact spare_marked (heq ▸ hne)
  · obtain ⟨r, hr, hinst, hf⟩ := record_of_mem hmap hx
    exact ⟨r, List.mem_append_right _ hr, (hrs r hr).1, (hrs r hr).2, hinst, hf⟩
  · rw [hcore, core_killCore_other hc, core_marked_other hc]

/-- Settles O57: each clause by the equation of its event; a record's words by the eight writes at the head, and the records of dead cores
by the list of the instances with a frame on them. -/
theorem faultsAtWork : Obligations.FaultsAtWork := by
  refine ⟨?_, ?_, ?_, ?_, ?_, ?_, ?_, ?_, ?_, ?_, ?_, ?_, ?_, ?_, ?_, ?_, ?_⟩
  · -- the write of a record
    intro s n r hr
    refine ⟨fun u ht hfinal => ?_, fun ht => next_congr (faultRecordWrite_noTurn hr ht),
      fun h => next_congr (faultRecordWrite_unfinished hr h)⟩
    intro t t'
    refine ⟨fun hnone => next_congr ?_, fun v hsome => next_congr ?_⟩
    · rw [faultRecordWrite_eq hr ht hfinal, show (recordTaken s u n r).handlerTurn r = none from hnone]
    · rw [faultRecordWrite_eq hr ht hfinal, show (recordTaken s u n r).handlerTurn r = some v from hsome]
  · -- the turn at the fault area
    intro s p q a
    refine ⟨faultTurn_unaccepted, fun hb hl => ?_⟩
    exact if_pos (by rw [hb, hl]; rfl)
  · -- the handler's turn
    intro s r
    refine ⟨handlerTurn_none, fun cb cid f h => ⟨?_, handlerFrame_some h⟩⟩
    rw [State.handlerTurn, h]
  · -- policies
    intro s r i hi hacts
    refine ⟨settleFault_ended hi hacts, fun hlive hgoing => ⟨fun h => ?_, fun cb h hor => ?_, fun cb f h hcode hcb hdead hf => ?_, fun cb h hor => ?_⟩⟩
    · exact settleFault_stops hi hacts hlive hgoing (handlerFrame_noPolicy hi h)
    · refine settleFault_stops hi hacts hlive hgoing ((handlerFrame_policy hi hacts hlive hgoing h).trans (if_pos ?_))
      rcases hor with hor | hor <;> simp [hor]
    · exact settleFault_fires hi hacts hlive hgoing h hcode hcb hdead hf
    · refine settleFault_stops hi hacts hlive hgoing ((handlerFrame_policy hi hacts hlive hgoing h).trans ?_)
      rcases hor with hor | hor
      · exact if_pos (by simp [hor])
      · rw [hor]
        exact ite_self _
  · -- the fault area
    exact fun s r action => ⟨writeFault_lost, fun hbase hlog hext hroom hw hend => writeFault_spec hbase hlog hext hroom hend hw⟩
  · -- a trigger of the host
    intro s v
    exact ⟨fun h => next_congr (if_neg (Bool.eq_false_iff.mp h)), fun h => ⟨_, rfl, rfl, rfl, rfl, rfl,
      next_congr ((if_pos h).trans (raiseTrig_enters s none _ _ 0))⟩⟩
  · exact fun s n g hp hw ht hroot => ⟨fun h => next_congr (fenceRelease_enters hp hw ht hroot h), fun h => next_congr (fenceRelease_waits hp hw ht h)⟩
  · -- while every die stays in reset
    intro s n cid f w b o hok
    refine ⟨next_congr (snapshotTriggerArrival_reset hok), next_congr (thermalTrip_reset hok n), next_congr (uncorrectableError_reset hok cid f o),
      next_congr (softError_reset hok n w), fun hcid => ⟨marked s cid, next_congr ((coreReset_eq hcid).trans (if_pos (by simp [hok]))), core_marked_same s cid,
      marked_field (f := State.faults) (fun _ _ _ => rfl) (fun _ _ _ => rfl) s cid, marked_field (f := State.mem) (fun _ _ _ => rfl) (fun _ _ _ => rfl) s cid,
      fun c hc => core_marked_other hc⟩⟩
  · -- a trigger reaches a block
    intro s n b g hok ht hhit hnew
    refine ⟨fun hroot hfirst => ?_, fun h => next_congr (snapshotTriggerArrival_waits ht h)⟩
    obtain ⟨htrigs, hmem, hnet⟩ := latch_frame s g.seq b
    refine ⟨_, next_congr (snapshotTriggerArrival_latches ht hok hhit hnew hroot hfirst), by rw [htrigs], hmem, hnet, ?_, ?_, ?_⟩
    · rintro c rfl
      exact snap_latch_core
    · intro d x
      refine ⟨?_, ?_, ?_, ?_⟩
      · rintro rfl
        exact latched_of snap_latch_dieAgent
      · rintro rfl
        exact latched_of snap_latch_launchAgent
      · rintro rfl
        exact latched_of snap_latch_power
      · rintro i rfl
        exact latched_of snap_latch_link
    · intro c x
      refine ⟨?_, ?_⟩
      · rintro e rfl
        exact latched_of snap_latch_engine
      · rintro rfl
        exact latched_of snap_latch_sequencer
  · -- a trigger's end
    intro s n g ht
    refine ⟨fun hall => ⟨fun h => next_congr ((snapComplete_all ht hall).trans (if_pos ?_)), fun hpart hret => ⟨_, next_congr ((snapComplete_all ht hall).trans (if_neg ?_)),
      rfl, rfl, rfl, rfl⟩⟩, fun h => next_congr (snapComplete_waits ht h)⟩
    · rcases h with h | ⟨h0, h1⟩
      · simp [h]
      · simp [h0, h1]
    · simp only [Bool.or_eq_true, Option.isNone_iff_eq_none, Bool.and_eq_true, decide_eq_true_eq]
      rintro (h | ⟨h0, h1⟩)
      · exact hpart h
      · exact hret.elim (absurd h0) (absurd h1)
  · exact fun s cell hlt => ⟨fun hidle hgate hex hrsv => next_congr (cellGate_gates hlt hidle hgate hex hrsv), fun h => next_congr (cellGate_stands h),
      fun h => next_congr (if_pos h)⟩
  · -- quiescence
    intro s p hex
    refine ⟨fun h hq => ⟨_, _, next_congr (quiescence_records hex h hq), rfl, ?_, ?_, ?_, rfl, rfl⟩, fun h hq => next_congr (quiescence_recorded hex h hq),
      fun h => next_congr (quiescence_moving hex h)⟩
    · rw [State.part_modPart]
    · rw [List.map_map]
      rfl
    · intro r hr
      obtain ⟨x, -, rfl⟩ := List.mem_map.mp hr
      exact ⟨rfl, rfl, rfl⟩
  · exact fun s d hd hok => ⟨s.thermalTrip d, rfl, thermalTrip_spec hd hok⟩
  · exact fun s cid hcid halive hok => ⟨s.coreReset cid, rfl, coreReset_spec hcid halive hok⟩
  · -- refusals
    intro s k c p hp hc hpos hdead
    refine ⟨fun hmoves hatomic htile => ⟨fun hcmd => ?_, fun hcmd => ?_⟩, fun m st tl es w hbody hw => next_congr (packetRefused_moves hp hc hpos hdead hbody hw),
      fun op z b d x xs hbody => next_congr (packetRefused_merged hp hc hpos hdead hbody),
      fun l bs sc m a hbody hsrc => next_congr (packetRefused_tile hp hc hpos hdead hbody hsrc)⟩
    · exact next_congr ((packetRefused_one hp hc hpos hdead hmoves hatomic htile).trans (if_neg hcmd))
    · exact ⟨_, next_congr ((packetRefused_one hp hc hpos hdead hmoves hatomic htile).trans (if_pos hcmd)), rfl, rfl, rfl, rfl⟩
  · -- uncorrectable errors
    intro s cid f hok k t
    refine ⟨fun hnone => next_congr ((uncorrectableError_owner hok cid f).trans (if_neg ?_)), fun i hsome hi => ?_, ?_⟩
    · intro hany
      obtain ⟨x, hx, hk⟩ := List.any_eq_true.mp hany
      exact hnone x hx (beq_iff_eq.mp hk)
    · obtain ⟨x, hx, hk⟩ := hsome
      have hany : (s.instsOn cid).any (fun x => x.1 == s.ownerOf cid f) = true := List.any_eq_true.mpr ⟨x, hx, beq_iff_eq.mpr hk⟩
      exact ⟨_, next_congr ((uncorrectableError_owner hok cid f).trans ((if_pos hany).trans (instFault_known (s := ueCounted s cid) hi))),
        rfl, rfl, rfl, rfl, rfl, rfl, rfl⟩
    · obtain ⟨rs, heq, hmap, hrs⟩ := foldl_instsOn (s := s) (t := ueCounted s cid) (cid := cid) (code := 0x21) rfl
      exact ⟨_, rs, next_congr ((uncorrectableError_all hok cid f).trans heq), rfl, rfl, rfl, hmap, hrs⟩
  · -- soft errors
    intro s key n hok w off cid up
    refine ⟨fun hkey => next_congr ((softError_core hok hkey one_ne_zero).trans (if_pos rfl)), fun hkey hn hf => next_congr ((softError_core hok hkey (by omega)).trans ((if_neg (by omega)).trans ?_)),
      fun f hkey hn hf => ⟨_, rfl, next_congr ((softError_core hok hkey (by omega)).trans ((if_neg (by omega)).trans ?_))⟩,
      fun hlo hhi => ⟨next_congr ((softError_die hok hlo hhi one_ne_zero).trans (if_pos rfl)),
        fun hn => next_congr ((softError_die hok hlo hhi (by omega)).trans ((if_neg (by omega)).trans ?_))⟩⟩
    · rw [hf]
      rfl
    · rw [hf]
    · exact congrArg (State.addPoison · w 8) (dieCounted_many (by omega))

end Sys2Proof.Proofs.FaultsAtWork
end

section
/-! PROOFS. Commits of the region table and the clearing of shares (O56, in part: R6, R338 to R341). -/

namespace Sys2Proof.Proofs.Commits

open Sys2Proof.Machine Sys2Proof.Proofs.WalkEnds Sys2Proof.Proofs.FaultRecords

variable {s t : State} {p a c : Nat} {sh : List (Nat × Nat)}

/-! ### Tables and memory under a filter or a map -/

theorem Tbl.get_filter_keys {α : Type} (d : α) (p : Nat → Bool) (i : Nat) (h : p i = true) : ∀ t : Tbl α, Tbl.get d (t.filter (fun x => p x.1)) i = t.get d i
  | [] => rfl
  | (k, v) :: t => by
    rw [List.filter_cons]
    by_cases hik : i = k
    · rw [if_pos (hik ▸ h), Tbl.get, Tbl.get, if_pos hik, if_pos hik]
    · rw [Tbl.get, if_neg hik]
      split
      · rw [Tbl.get, if_neg hik, get_filter_keys d p i h t]
      · exact get_filter_keys d p i h t

theorem Tbl.get_map_values {α : Type} (d : α) (g : Nat → α → α) (i : Nat) (hd : g i d = d) : ∀ t : Tbl α,
    Tbl.get d (t.map (fun x => (x.1, g x.1 x.2))) i = g i (t.get d i)
  | [] => hd.symm
  | (k, v) :: t => by
    rw [List.map_cons, Tbl.get, Tbl.get]
    split
    next h => rw [h]
    next => exact get_map_values d g i hd t

theorem memRead_filter (p : Nat → Bool) (i : Nat) : ∀ l : List Host.Cell, memRead (l.filter (fun c => p c.1)) i = if p i then memRead l i else 0
  | [] => by
    rw [List.filter_nil, memRead]
    exact (ite_self _).symm
  | (k, v) :: l => by
    rw [List.filter_cons]
    have ih := memRead_filter p i l
    by_cases hik : i = k
    · have hhead : memRead ((k, v) :: l) i = v := if_pos hik
      rw [hhead]
      by_cases h : p i = true
      · rw [if_pos (hik ▸ h), if_pos h]
        exact if_pos hik
      · rw [if_neg (hik ▸ h), ih, if_neg h, if_neg h]
    · rw [memRead, if_neg hik]
      split
      · rw [memRead, if_neg hik, ih]
      · exact ih

/-! ### The clearing of R6 -/

theorem byte_clearShares (s : State) (sh : List (Nat × Nat)) (a : Nat) :
    (s.clearShares sh).byte a = if State.keyInQuarters sh a = true then 0 else s.byte a := by
  refine (memRead_filter (fun k => !(State.keyInQuarters sh k)) a s.mem).trans ?_
  cases State.keyInQuarters sh a <;> rfl

theorem poison_clearShares (s : State) (sh : List (Nat × Nat)) (a : Nat) :
    (s.clearShares sh).poison.contains a = if State.keyInQuarters sh a = true then false else s.poison.contains a := by
  show (s.poison.filter (fun k => !(State.keyInQuarters sh k))).contains a = _
  rw [Bool.eq_iff_iff, List.contains_iff_mem, List.mem_filter]
  cases State.keyInQuarters sh a <;> simp

/-- What the clearing leaves of a core: its contexts, its counters and its marks. -/
def clearedCore (x : Core) : Core :=
  { Core.init with ctx0 := x.ctx0, ctx1 := x.ctx1, last := x.last, cyc := x.cyc, dead := x.dead, bad := x.bad }

theorem core_clearShares (s : State) (sh : List (Nat × Nat)) (c : Nat) :
    (s.clearShares sh).core c = if inShares sh c = true then clearedCore (s.core c) else s.core c := by
  have hmap : (s.clearShares sh).cores = s.cores.map (fun x => (x.1, if inShares sh x.1 = true then clearedCore x.2 else x.2)) := by
    refine List.map_congr_left fun x _ => ?_
    by_cases h : inShares sh x.1 = true
    · exact (if_pos h).trans (by rw [if_pos h]; rfl)
    · exact (if_neg h).trans (by rw [if_neg h])
  rw [State.core, hmap]
  refine Tbl.get_map_values Core.init (fun k x => if inShares sh k = true then clearedCore x else x) c ?_ s.cores
  exact ite_self _

theorem core_clearShares_in (h : inShares sh c = true) : ((s.clearShares sh).core c).ready = [] ∧ ((s.clearShares sh).core c).tiles = [] ∧
    ((s.clearShares sh).core c).stp = 0 := by
  rw [core_clearShares, if_pos h]
  exact ⟨rfl, rfl, rfl⟩
theorem core_clearShares_out (h : inShares sh c = false) : (s.clearShares sh).core c = s.core c := by
  rw [core_clearShares, if_neg (Bool.eq_false_iff.mp h)]

theorem mem_gainedShares (s : State) (kept : Bool) (y : Nat × Nat) : y ∈ s.gainedShares kept ↔ (∃ x ∈ s.parts, y ∈ x.2.clearing) ∧
    (kept = true ↔ s.mgmt.drain = true ∧ keepsHolders (s.mgmt.regionOld.get 0 y.1) (s.mgmt.region.get 0 y.1) = false) := by
  rw [State.gainedShares, List.mem_filter, List.mem_flatMap, State.diesKept]
  refine and_congr_right fun _ => ?_
  cases kept <;> cases s.mgmt.drain <;> cases keepsHolders (s.mgmt.regionOld.get 0 y.1) (s.mgmt.region.get 0 y.1) <;> decide

/-! ### What evicting a partition leaves: the module's registers -/

theorem mgmt_finishCmd (s : State) (id outcome progress : Nat) (ext : List Nat) : (s.finishCmd id outcome progress ext).mgmt = s.mgmt :=
  finishCmd_field (f := State.mgmt) (fun _ _ _ => rfl) (fun _ _ _ => rfl) s id outcome progress ext

theorem mgmt_interrupt (s : State) (p : Nat) : (s.interrupt p).mgmt = s.mgmt := by
  rw [State.interrupt]
  split <;> rfl

theorem mgmt_writeRecord (s : State) (p addr : Nat) (handle tag : Word) (reason : Nat) : (s.writeRecord p addr handle tag reason).mgmt = s.mgmt := by
  rw [State.writeRecord]
  split
  · rfl
  · refine (mgmt_interrupt _ _).trans ?_
    simp only [State.writeW_mgmt]

theorem mgmt_dropHeld (s : State) (k : Nat) : (s.dropHeld k).mgmt = s.mgmt := by
  rw [State.dropHeld]
  refine (foldl_field (f := State.mgmt) (fun t n => ?_) _ _).trans rfl
  split
  · exact mgmt_finishCmd ..
  · rfl

theorem mgmt_stopInst (s : State) (k n : Nat) : (s.stopInst k n).mgmt = s.mgmt := by
  rw [State.stopInst]
  split
  · rfl
  · split
    · rfl
    · exact mgmt_dropHeld _ _

theorem mgmt_makeRoom {d : Nat} (h : s.makeRoom p d = some t) : t.mgmt = s.mgmt := by
  rw [State.makeRoom] at h
  split at h
  · cases h
    rfl
  · obtain ⟨x, -, rfl⟩ := Option.map_eq_some_iff.mp h
    rfl

theorem mgmt_endRecord (s : State) (k : Nat) (i : Inst) (reason : Nat) : (s.endRecord k i reason).mgmt = s.mgmt := by
  rw [State.endRecord]
  split
  · split
    next h => exact (mgmt_makeRoom h :)
    · rfl
  · rfl

theorem mgmt_endInst (s : State) (k : Nat) (i : Inst) (reason : Nat) : (s.endInst k i reason).mgmt = s.mgmt := by
  unfold State.endInst
  extract_lets s1 s2 s3 s4
  have h1 : s1.mgmt = s.mgmt := mgmt_endRecord s k i reason
  have h2 : s2.mgmt = s1.mgmt := by
    dsimp only [s2]
    split <;> rfl
  have h3 : s3.mgmt = s2.mgmt := by
    dsimp only [s3]
    split
    · exact mgmt_writeRecord ..
    · rfl
  have h4 : s4.mgmt = s3.mgmt := by
    dsimp only [s4]
    split <;> rfl
  refine (foldl_field (f := State.mgmt) (fun t n => ?_) _ _).trans (h4.trans (h3.trans (h2.trans h1)))
  split <;> rfl

theorem mgmt_badEntry (s : State) (p : Nat) : (s.badEntry p).mgmt = s.mgmt := (mgmt_writeRecord ..).trans rfl

theorem mgmt_evict (s : State) (p : Nat) : (s.evict p).mgmt = s.mgmt := by
  unfold State.evict
  extract_lets mine s1 s2 waiting s3 s4
  have h1 : s1.mgmt = s.mgmt := foldl_field (f := State.mgmt) (fun t x => by
    split
    · exact mgmt_stopInst ..
    · rfl) _ _
  have h2 : s2.mgmt = s1.mgmt := foldl_field (f := State.mgmt) (fun t x => by
    split
    · exact mgmt_endInst ..
    · rfl) _ _
  have h3 : s3.mgmt = s2.mgmt := foldl_field (f := State.mgmt) (fun t x => by
    dsimp only
    split
    · exact mgmt_badEntry ..
    · exact (mgmt_writeRecord ..).trans rfl) _ _
  have h4 : s4.mgmt = s.mgmt := h3.trans (h2.trans h1)
  split
  · exact (mgmt_interrupt ..).trans h4
  · exact h4

theorem mgmt_commitPart (s : State) (p : Nat) : (s.commitPart p).mgmt = s.mgmt := by
  unfold State.commitPart
  extract_lets old gained lost s1
  have h1 : s1.mgmt = s.mgmt := by
    dsimp only [s1]
    split
    · rfl
    · exact mgmt_evict s p
  split
  · exact h1
  · exact h1

/-- What is not a partition's own state stays where the partition loses nothing. -/
theorem commitPart_field {α : Type} {f : State → α} (hf : ∀ (s : State) p g, f (s.modPart p g) = f s) (s : State) (p : Nat)
    (h : quartersLost s.mgmt.regionOld s.mgmt.region p = []) : f (s.commitPart p) = f s := by
  unfold State.commitPart
  extract_lets old gained lost s1
  have h1 : s1 = s := if_pos (List.isEmpty_iff.mpr h)
  rw [h1]
  split
  · rfl
  · exact hf ..

/-! ### The commit (R338, R339) -/

/-- The tables of a commit, before the partitions take notice. -/
def retabled (s : State) : State :=
  (List.range 16).foldl (fun t d => t.modDie d (fun x => { x with drained := false })) (s.modMgmt (fun m => { m with
    gen := m.gen + 1, drain := true, region := m.regionSh, regionOld := m.region, conn := m.connSh, connOld := m.conn }))

theorem retabled_field {α : Type} {f : State → α} (hf : ∀ (s : State) d g, f (s.modDie d g) = f s) (s : State) : f (retabled s) =
    f (s.modMgmt (fun m => { m with
      gen := m.gen + 1, drain := true, region := m.regionSh, regionOld := m.region, conn := m.connSh, connOld := m.conn })) :=
  foldl_field (fun _ _ => hf ..) _ _

theorem foldl_mgmt (l : List Nat) (s : State) : (l.foldl State.commitPart s).mgmt = s.mgmt :=
  foldl_field (f := State.mgmt) mgmt_commitPart l s

theorem foldl_commitPart_field {α : Type} {f : State → α} (hf : ∀ (s : State) p g, f (s.modPart p g) = f s) : ∀ (l : List Nat) (s : State),
    (∀ p ∈ l, quartersLost s.mgmt.regionOld s.mgmt.region p = []) → f (l.foldl State.commitPart s) = f s
  | [], _, _ => rfl
  | p :: l, s, h => by
    rw [List.foldl_cons, foldl_commitPart_field hf l (s.commitPart p) fun q hq => by
      rw [mgmt_commitPart]
      exact h q (List.mem_cons_of_mem _ hq)]
    exact commitPart_field hf s p (h p List.mem_cons_self)

/-- The state of a commit before the gained shares are cleared. -/
def committed (s : State) : State := (List.range 64).foldl State.commitPart (retabled s)

section Commit

variable {v : Word} (hv : v.getLsbD 0 = true) (hok : s.mgmt.ok = true)
include hv hok

theorem commit_busy (hdrain : s.mgmt.drain = true) : s.commit v = s.modMgmt (fun m => { m with cbusy := true }) := by
  rw [State.commit, hv, hok, hdrain]
  rfl

variable (hdrain : s.mgmt.drain = false)
include hdrain

theorem commit_bad (hbad : tablesOk s.mgmt = false) : s.commit v = s.modMgmt (fun m => { m with cbad := true }) := by
  rw [State.commit, hv, hok, hdrain, hbad]
  rfl

theorem commit_accepted (hgood : tablesOk s.mgmt = true) : s.commit v = (committed s).clearShares ((committed s).gainedShares false) := by
  rw [State.commit, hv, hok, hdrain, hgood]
  rfl

end Commit

theorem mgmt_committed (s : State) : (committed s).mgmt = { s.mgmt with
    gen := s.mgmt.gen + 1, drain := true, region := s.mgmt.regionSh, regionOld := s.mgmt.region, conn := s.mgmt.connSh, connOld := s.mgmt.conn } :=
  (foldl_mgmt _ _).trans (retabled_field (f := State.mgmt) (fun _ _ _ => rfl) s)

/-- A commit by which nobody loses a quarter leaves what is no partition's and no die's own. -/
theorem committed_field {α : Type} {f : State → α} (hp : ∀ (s : State) p g, f (s.modPart p g) = f s) (hd : ∀ (s : State) d g, f (s.modDie d g) = f s)
    (hm : ∀ (s : State) g, f (s.modMgmt g) = f s) (h : ∀ p, p < 64 → quartersLost s.mgmt.region s.mgmt.regionSh p = []) : f (committed s) = f s := by
  refine (foldl_commitPart_field hp _ _ fun p hlt => ?_).trans ((retabled_field hd s).trans (hm ..))
  rw [retabled_field (f := State.mgmt) (fun _ _ _ => rfl) s]
  exact h p (List.mem_range.mp hlt)

end Sys2Proof.Proofs.Commits
end

section
/-! PROOFS. The end of a draining commit (O56, in part: R6, R339, R341). -/

namespace Sys2Proof.Proofs.Drains

open Sys2Proof.Machine Sys2Proof.Proofs.WalkEnds Sys2Proof.Proofs.Commits

variable {s t : State} {d p a : Nat}

/-! ### Reports (R339) -/

theorem foldl_field_of_mem {α β : Type} {f : State → α} {g : State → β → State} : ∀ (l : List β) (s : State), (∀ t, ∀ x ∈ l, f (g t x) = f t) →
    f (l.foldl g s) = f s
  | [], _, _ => rfl
  | x :: l, s, h => (foldl_field_of_mem l (g s x) fun t y hy => h t y (List.mem_cons_of_mem _ hy)).trans (h s x List.mem_cons_self)

/-- A die's report. -/
def reported (s : State) (d : Nat) : State := s.modDie d (fun x => { x with drained := true })

section Report

variable (hdrain : s.mgmt.drain = true) (hok : s.mgmt.ok = true)
include hdrain hok

omit hdrain hok in
theorem drainMessage_early (hold : s.oldPacketOn d = true) : s.drainMessage d = s := if_pos (by simp [hold])

theorem drainMessage_reports (hnew : s.oldPacketOn d = false) : s.drainMessage d =
    if (List.range 16).all (fun e => ((reported s d).die e).drained && !((reported s d).oldPacketOn e)) && (reported s d).losersDone then
      (reported s d).retire else reported s d := if_neg (by simp [hdrain, hok, hnew])

theorem drainMessage_first {e : Nat} (hnew : s.oldPacketOn d = false) (he : e < 16) (hne : e ≠ d) (hundone : (s.die e).drained = false) :
    s.drainMessage d = reported s d := by
  refine (drainMessage_reports hdrain hok hnew).trans (if_neg ?_)
  rw [Bool.and_eq_true, List.all_eq_true]
  rintro ⟨hall, -⟩
  have h := hall e (List.mem_range.mpr he)
  rw [reported, State.die_modDie_other _ _ _ _ hne, hundone] at h
  cases h

theorem drainMessage_last (hnew : ∀ e, e < 16 ∨ e = d → s.oldPacketOn e = false) (hdone : ∀ e, e < 16 → e ≠ d → (s.die e).drained = true)
    (hinsts : ∀ x ∈ s.insts, x.2.state ≠ 1) (hlosers : ∀ p, p < 64 → quartersLost s.mgmt.regionOld s.mgmt.region p ≠ [] →
      (∀ x ∈ s.net, x.2.from_.part ≠ p) ∧ ∀ y ∈ s.trigs, y.2.part ≠ some p) : s.drainMessage d = (reported s d).retire := by
  refine (drainMessage_reports hdrain hok (hnew d (.inr rfl))).trans (if_pos (Bool.and_eq_true_iff.mpr ⟨List.all_eq_true.mpr fun e he => ?_, ?_⟩))
  · have hlt := List.mem_range.mp he
    have hpacket : (reported s d).oldPacketOn e = false := hnew e (.inl hlt)
    have hdrained : ((reported s d).die e).drained = true := by
      by_cases hed : e = d
      · rw [hed, reported, State.die_modDie]
      · rw [reported, State.die_modDie_other _ _ _ _ hed]
        exact hdone e hlt hed
    rw [hpacket, hdrained]
    rfl
  · refine List.all_eq_true.mpr fun p hp => ?_
    rw [Bool.or_eq_true, List.isEmpty_iff]
    by_cases hlost : quartersLost s.mgmt.regionOld s.mgmt.region p = []
    · exact .inl hlost
    · obtain ⟨hnet, htrigs⟩ := hlosers p (List.mem_range.mp hp) hlost
      refine .inr ?_
      rw [Bool.and_eq_true, Bool.and_eq_true, Bool.not_eq_true', Bool.not_eq_true', Bool.not_eq_true']
      refine ⟨⟨List.any_eq_false.mpr fun x hx => ?_, List.any_eq_false.mpr fun x hx => ?_⟩, List.any_eq_false.mpr fun y hy => ?_⟩
      · have h := hinsts x hx
        simp [h]
      · have h := hnet x hx
        simp [h]
      · have h := htrigs y hy
        simp [h]

end Report

/-! ### The code stores of gained shares (R6, R284) -/

theorem loadCode_field {α : Type} {f : State → α} (hf : ∀ (s : State) m, f { s with mem := m } = f s) (s : State) (ks : List Nat)
    (code : List (BitVec 32)) : f (s.loadCode ks code) = f s :=
  foldl_field (fun _ _ => foldl_field (fun v _ => hf v _) _ _) ks s

theorem freshCode_field {α : Type} {f : State → α} (hf : ∀ (s : State) m, f { s with mem := m } = f s) (s : State) : f s.freshCode = f s := by
  rw [State.freshCode]
  refine (foldl_field (f := f) (fun t x => ?_) _ _).trans (hf ..)
  split
  · exact loadCode_field hf ..
  · rfl

theorem byte_loadCode (s : State) {ks : List Nat} {code : List (BitVec 32)}
    (h : ∀ k ∈ ks, ∀ j, j < code.length → a < codeKey k (4 * j) ∨ codeKey k (4 * j) + 4 ≤ a) : (s.loadCode ks code).byte a = s.byte a :=
  foldl_field_of_mem (f := fun u => State.byte u a) _ _ fun _ k hk => foldl_field_of_mem (f := fun u => State.byte u a) _ _ fun _ j hj =>
    memRead_memWriteN_other 4 _ _ _ _ (h k hk j (List.mem_range.mp hj))

theorem die_lt_of_mem_partDies {r : Tbl Word} {x : Nat × Nat} (h : x ∈ partDies r p) : x.1 < 16 := by
  obtain ⟨e, he, hx⟩ := List.mem_flatMap.mp h
  have hlt := List.mem_range.mp he
  dsimp only at hx
  split at hx
  · obtain ⟨q, -, rfl⟩ := List.mem_map.mp hx
    exact hlt
  · split at hx
    · rw [List.mem_singleton.mp hx]
      exact hlt
    · exact absurd hx List.not_mem_nil

theorem die_lt_of_mem_shares {x : Nat × Nat} (h : x ∈ s.shares p) : x.1 < 16 := by
  rw [State.shares] at h
  split at h
  · exact die_lt_of_mem_partDies h
  · exact die_lt_of_mem_partDies h

theorem cluster_lt {k : Nat} (h : s.clusterIn p k = true) : k < 1600 := by
  obtain ⟨x, hx, hk⟩ := List.any_eq_true.mp h
  have hlt := die_lt_of_mem_shares hx
  rw [beq_iff_eq.mp (Bool.and_eq_true_iff.mp hk).1] at hlt
  omega

/-- A byte outside the gained code stores keeps its value where no image's code runs past such a store's own part. -/
theorem byte_freshCode (s : State) (hout : State.codeInQuarters (s.parts.flatMap (fun x => x.2.clearing)) a = false)
    (h : ∀ x ∈ s.parts, ∀ im, x.2.image = some im → ∀ k, State.clusterOfQuarters x.2.clearing k = true → k < 1600 → ∀ j, j < im.code.length →
      a < codeKey k (4 * j) ∨ codeKey k (4 * j) + 4 ≤ a) : s.freshCode.byte a = s.byte a := by
  rw [State.freshCode]
  refine (foldl_field_of_mem (f := fun u => State.byte u a) _ _ fun t x hx => ?_).trans ?_
  · split
    next im him =>
      refine byte_loadCode t fun k hk j hj => ?_
      obtain ⟨hk, hquarter⟩ := List.mem_filter.mp hk
      obtain ⟨e, -, hk⟩ := List.mem_flatMap.mp hk
      exact h x hx im him k hquarter (cluster_lt (List.mem_filter.mp hk).2) j hj
    · rfl
  · refine (memRead_filter (fun k => !(State.codeInQuarters (s.parts.flatMap (fun x => x.2.clearing)) k)) a s.mem).trans ?_
    rw [hout]
    rfl

/-- Without an image the gained code stores are empty. -/
theorem byte_freshCode_empty (s : State) (himages : ∀ x ∈ s.parts, x.2.image = none)
    (hin : State.codeInQuarters (s.parts.flatMap (fun x => x.2.clearing)) a = true) : s.freshCode.byte a = 0 := by
  rw [State.freshCode]
  refine (foldl_field_of_mem (f := fun u => State.byte u a) _ _ fun t x hx => ?_).trans ?_
  · rw [himages x hx]
  · refine (memRead_filter (fun k => !(State.codeInQuarters (s.parts.flatMap (fun x => x.2.clearing)) k)) a s.mem).trans ?_
    rw [hin]
    rfl

theorem codeKey_ge (k off : Nat) : 4 * 2 ^ 60 ≤ codeKey k off := by
  rw [codeKey, space]
  omega

theorem codeInQuarters_of_lt {sh : List (Nat × Nat)} (h : a / 2 ^ 60 < 4) : State.codeInQuarters sh a = false := by
  refine Bool.and_eq_false_iff.mpr (.inl ?_)
  rw [beq_eq_false_iff_ne]
  omega

/-- The word of a code store lies in its cluster's quarter. -/
theorem codeInQuarters_codeKey {sh : List (Nat × Nat)} {k off : Nat} (hk : k < 1600) (hoff : off < 2 ^ 19)
    (h : State.clusterOfQuarters sh k = true) : State.codeInQuarters sh (codeKey k off) = true := by
  have hkey : codeKey k off % 2 ^ 60 / 2 ^ 19 = k := by
    rw [codeKey, space]
    omega
  have hspace : codeKey k off / 2 ^ 60 = 4 := by
    rw [codeKey, space]
    omega
  rw [State.codeInQuarters, hkey, hspace]
  exact h

/-- A code word of an image of 131,072 words lies in the gained code stores. -/
theorem outside_codeWord {sh : List (Nat × Nat)} {k j n : Nat} (hk : k < 1600) (hin : State.clusterOfQuarters sh k = true) (hlen : n ≤ 131072) (hj : j < n)
    (hout : State.codeInQuarters sh a = false) : a < codeKey k (4 * j) ∨ codeKey k (4 * j) + 4 ≤ a := by
  by_contra hbad
  have ha : a = codeKey k (a - codeKey k 0) := by
    have hge : codeKey k (4 * j) = codeKey k 0 + 4 * j := by rw [codeKey, codeKey, space, space]; omega
    have hsub : codeKey k (a - codeKey k 0) = codeKey k 0 + (a - codeKey k 0) := by rw [codeKey, codeKey, space, space]; omega
    omega
  have hoff : a - codeKey k 0 < 2 ^ 19 := by
    have hge : codeKey k (4 * j) = codeKey k 0 + 4 * j := by rw [codeKey, codeKey, space, space]; omega
    omega
  rw [ha, codeInQuarters_codeKey hk hoff hin] at hout
  cases hout

theorem codeInQuarters_mono {sh l : List (Nat × Nat)} (hsub : ∀ y ∈ sh, y ∈ l) (h : State.codeInQuarters sh a = true) : State.codeInQuarters l a = true := by
  obtain ⟨hspace, hmem⟩ := Bool.and_eq_true_iff.mp h
  exact Bool.and_eq_true_iff.mpr ⟨hspace, List.contains_iff_mem.mpr (hsub _ (List.contains_iff_mem.mp hmem))⟩

/-! ### The partitions that stay (R339, R341) -/

/-- A partition whose array of descriptors has another place where its own is lost. -/
def placedDescs (s : State) (p : Nat) (x : Part) : Part := match x.descBase with
  | some b => if s.hbmIn p b then x else { x with descBase := some (s.descPlace p (Config.descBase s.tick)) }
  | none => x
/-- A partition with the registers that still lie in it. -/
def keptBases (s : State) (p : Nat) (x : Part) : Part := { x with
  faBaseOk := x.faBaseOk && s.hbmIn p x.faBase.toNat
  spillBase := x.spillBase.filter (fun y => (s.shares p).any (fun z => z.1 == y.1) && s.spillFits p y.1 y.2.toNat x.spill) }

theorem part_freshDescs (s : State) (p : Nat) : s.freshDescs.part p = placedDescs s p (s.part p) :=
  Tbl.get_map_values Part.init (placedDescs s) p rfl s.parts
theorem part_freshBases (s : State) (p : Nat) : s.freshBases.part p = keptBases s p (s.part p) :=
  Tbl.get_map_values Part.init (keptBases s) p rfl s.parts

theorem shares_congr (h : t.mgmt = s.mgmt) (p : Nat) : t.shares p = s.shares p := by
  rw [State.shares, State.shares, State.liveRegion, State.liveRegion, h]
theorem hbmIn_congr (h : t.mgmt = s.mgmt) (p a : Nat) : t.hbmIn p a = s.hbmIn p a := by rw [State.hbmIn, State.hbmIn, shares_congr h]
theorem spillFits_congr (h : t.mgmt = s.mgmt) (p d base frames : Nat) : t.spillFits p d base frames = s.spillFits p d base frames := by
  rw [State.spillFits, State.spillFits, State.spillBytes, State.spillBytes, State.shareOf, State.shareOf, shares_congr h]
theorem keptBases_congr (h : t.mgmt = s.mgmt) (p : Nat) (x : Part) : keptBases t p x = keptBases s p x := by
  rw [keptBases, keptBases, hbmIn_congr h, shares_congr h]
  simp only [spillFits_congr h]

theorem keptBases_placedDescs (s t : State) (p : Nat) (x : Part) : (keptBases t p (placedDescs s p x)).faBaseOk = (keptBases t p x).faBaseOk ∧
    (keptBases t p (placedDescs s p x)).spillBase = (keptBases t p x).spillBase := by
  rw [placedDescs]
  split
  · split
    · exact ⟨rfl, rfl⟩
    · exact ⟨rfl, rfl⟩
  · exact ⟨rfl, rfl⟩

/-- The state of a drain's end before the code stores are filled anew. -/
def untabled (s : State) : State :=
  let u := (s.clearShares (s.gainedShares true)).modMgmt (fun m => { m with drain := false, regionOld := [], connOld := [] })
  { u with
    parts := u.parts.filter (fun x => u.partExists x.1)
    insts := u.insts.filter (fun x => u.partExists x.2.part)
    faults := u.faults.filter (fun r => u.partExists r.part) }

theorem retire_eq (s : State) : s.retire = (untabled s).freshCode.freshDescs.freshBases := rfl

/-- What the end of a drain does to all but memory and partitions, it does before the code stores are filled. -/
theorem retire_field {α : Type} {f : State → α} (hm : ∀ (s : State) m, f { s with mem := m } = f s) (hp : ∀ (s : State) ps, f { s with parts := ps } = f s)
    (s : State) : f s.retire = f (untabled s) := by
  rw [retire_eq]
  exact (hp ..).trans ((hp ..).trans (freshCode_field hm _))

theorem mgmt_retire (s : State) : s.retire.mgmt = { s.mgmt with drain := false, regionOld := [], connOld := [] } :=
  retire_field (f := State.mgmt) (fun _ _ => rfl) (fun _ _ => rfl) s

theorem faults_retire (s : State) : s.retire.faults = s.faults.filter (fun r => s.partExists r.part) :=
  retire_field (f := State.faults) (fun _ _ => rfl) (fun _ _ => rfl) s

theorem core_retire (s : State) (c : Nat) : s.retire.core c = (s.clearShares (s.gainedShares true)).core c :=
  retire_field (f := fun u => State.core u c) (fun _ _ => rfl) (fun _ _ => rfl) s

theorem poison_retire (s : State) : s.retire.poison = (s.clearShares (s.gainedShares true)).poison :=
  retire_field (f := State.poison) (fun _ _ => rfl) (fun _ _ => rfl) s

theorem byte_retire (s : State) (a : Nat) : s.retire.byte a = (untabled s).freshCode.byte a := rfl

theorem parts_untabled (s : State) : (untabled s).parts = s.parts.filter (fun x => s.partExists x.1) := rfl

theorem part_retire (hex : s.retire.partExists p = true) : (s.retire.part p).faBaseOk = ((s.part p).faBaseOk && s.retire.hbmIn p (s.part p).faBase.toNat) ∧
    (s.retire.part p).spillBase = (s.part p).spillBase.filter (fun y => (s.retire.shares p).any (fun z => z.1 == y.1) &&
      s.retire.spillFits p y.1 y.2.toNat (s.part p).spill) := by
  have hold : s.partExists p = true := by
    rw [State.partExists, mgmt_retire] at hex
    exact hex
  have hpart : (untabled s).freshCode.part p = s.part p :=
    (freshCode_field (f := fun u => State.part u p) (fun _ _ => rfl) _).trans (Tbl.get_filter_keys Part.init s.partExists p hold s.parts)
  have hfinal : s.retire.part p = keptBases s.retire p (placedDescs (untabled s).freshCode p (s.part p)) := by
    rw [retire_eq, part_freshBases, part_freshDescs, hpart]
    exact keptBases_congr (t := (untabled s).freshCode.freshDescs) (s := (untabled s).freshCode.freshDescs.freshBases) rfl _ _
  obtain ⟨hfa, hspill⟩ := keptBases_placedDescs (untabled s).freshCode s.retire p (s.part p)
  rw [hfinal]
  exact ⟨hfa, hspill⟩

/-! ### Memory behind a drain's end (R6) -/

theorem byte_retire_cleared (hin : State.keyInQuarters (s.gainedShares true) a = true) (hspace : a / 2 ^ 60 < 4) : s.retire.byte a = 0 := by
  rw [byte_retire, byte_freshCode _ (codeInQuarters_of_lt hspace) fun _ _ _ _ k _ _ j _ => .inl ?_]
  · exact (byte_clearShares s (s.gainedShares true) a).trans (if_pos hin)
  · have hge := codeKey_ge k (4 * j)
    omega

theorem byte_retire_kept (hcode : ∀ x ∈ s.parts, ∀ im, x.2.image = some im → im.code.length ≤ 131072)
    (hout : State.codeInQuarters (s.parts.flatMap (fun x => x.2.clearing)) a = false) (hkept : State.keyInQuarters (s.gainedShares true) a = false) :
    s.retire.byte a = s.byte a := by
  have hsub : ∀ x ∈ (untabled s).parts, x ∈ s.parts := fun x hx => (List.mem_filter.mp (parts_untabled s ▸ hx)).1
  have hall : ∀ sh : List (Nat × Nat), (∀ y ∈ sh, y ∈ s.parts.flatMap (fun x => x.2.clearing)) → State.codeInQuarters sh a = false := fun sh h => by
    by_contra hbad
    exact Bool.eq_false_iff.mp hout (codeInQuarters_mono h (Bool.eq_true_of_not_eq_false hbad))
  rw [byte_retire, byte_freshCode]
  · exact (byte_clearShares s (s.gainedShares true) a).trans (if_neg (Bool.eq_false_iff.mp hkept))
  · refine hall _ fun y hy => ?_
    obtain ⟨x, hx, hy⟩ := List.mem_flatMap.mp hy
    exact List.mem_flatMap.mpr ⟨x, hsub x hx, hy⟩
  · intro x hx im him k hk hlt j hj
    exact outside_codeWord hlt hk (hcode x (hsub x hx) im him) hj (hall _ fun y hy => List.mem_flatMap.mpr ⟨x, hsub x hx, hy⟩)

theorem byte_retire_empty {x : Nat × Part} (himages : ∀ x ∈ s.parts, x.2.image = none) (hx : x ∈ s.parts) (hex : s.partExists x.1 = true)
    (hin : State.codeInQuarters x.2.clearing a = true) : s.retire.byte a = 0 := by
  refine (byte_retire s a).trans (byte_freshCode_empty _ (fun y hy => himages y (List.mem_filter.mp (parts_untabled s ▸ hy)).1) ?_)
  exact codeInQuarters_mono (fun y hy => List.mem_flatMap.mpr ⟨x, List.mem_filter.mpr ⟨hx, hex⟩, hy⟩) hin

end Sys2Proof.Proofs.Drains
end

section
/-! PROOFS. Migrations (O56, in part: R313 to R315). -/

namespace Sys2Proof.Proofs.Migrations

open Sys2Proof.Machine Sys2Proof.Proofs.Words Sys2Proof.Proofs.Slots Sys2Proof.Proofs.Commits

variable {s t u : State} {p k stage off : Nat} {bs : List Byte} {pois : List Nat} {q : Packet}

/-- A packet with the next stage hands the migration on. -/
theorem handsOn_of {v : State} {src a : Nat} {o : Out} (h : o = .next (v.migSend p src a stage off bs pois)) :
    Claims.handsOn v p src a stage off bs pois o := by
  refine ⟨_, ?_, ?_, ?_, ?_, h⟩ <;> rfl

/-! ### The start (R313) -/

section Go

variable {v : Word} (hex : s.partExists p = true) (hv : v.getLsbD 0 = true)
include hex hv

omit hex hv in
theorem migGo_busy (h : (s.part p).mig.state = 1) : s.migGo p v = s := if_pos (by simp [h])

theorem migGo_idle (h : (s.part p).mig.state ≠ 1) : s.migGo p v =
    match State.rootAddr (tensOf (s.descOf p (s.part p).mig.tid)) (s.part p).mig.tile with
    | none => s.modPart p (fun t => { t with mig := { (s.part p).mig with state := 3, cause := 1, npois := 0 } })
    | some ra => (s.modPart p (fun t => { t with mig := { (s.part p).mig with
        state := 1, cause := 0, npois := 0, run := (s.part p).mig.tile, entry := ra, src := 0
        dest := (s.part p).mig.dst * 2 ^ 36 + (s.part p).mig.page * 2 ^ 16, held := false } })).migSend p ra ra 0 0 [] [] := by
  refine (if_neg ?_).trans rfl
  simp [hex, hv, h]

end Go

/-! ### The stages (R314, R315; log entry 72) -/

/-- The work of a stage, on the state without the packet that asked for it. -/
def stageWork (t : State) (p stage off : Nat) (bs : List Byte) (pois : List Nat) (copied : Bool) : Option State :=
  match stage with
  | 0 => t.migRoot p
  | 1 => t.migEntry p
  | 2 => t.migRead p off copied
  | 3 => t.migWrite p off bs pois
  | 4 => t.migFinish p
  | _ => t.migAbort p

theorem migrationComplete_none (copied : Bool) (h : ∀ x ∈ s.net, State.migHere p x.2 = false) : s.migrationComplete p copied = s := by
  rw [State.migrationComplete, List.find?_eq_none.mpr fun x hx => by simp [h x hx]]

theorem migrationComplete_stage (copied : Bool) (hfind : s.net.find? (fun x => State.migHere p x.2) = some (k, q))
    (hbody : q.body = .migrate stage off bs pois) :
    s.migrationComplete p copied = (stageWork (s.dropPacket k) p stage off bs pois copied).getD s := by
  rw [State.migrationComplete, hfind]
  dsimp only
  rw [hbody]
  rfl

section Root

variable (hread : t.agentRead (t.part p).mig.entry 101 = some u)
include hread

theorem migRoot_stops (hleaf : t.leafAddr p (t.readW (hbmKey (t.part p).mig.entry)) (t.part p).mig.run = none) :
    t.migRoot p = some (Claims.stops (u.publish (hbmKey (t.part p).mig.entry) 8) p 1) := by
  rw [State.migRoot, hread]
  refine congrArg some ?_
  rw [hleaf]
  rfl

theorem migRoot_leads {a : Nat} (hleaf : t.leafAddr p (t.readW (hbmKey (t.part p).mig.entry)) (t.part p).mig.run = some a) :
    t.migRoot p = some (((u.publish (hbmKey (t.part p).mig.entry) 8).modPart p (fun q => { q with mig := { q.mig with entry := a } })).migSend
      p (t.part p).mig.entry a 1 0 [] []) := by
  rw [State.migRoot, hread]
  refine congrArg some ?_
  rw [hleaf]

theorem migEntry_noPage (hpage : t.pageOf p (t.readW (hbmKey (t.part p).mig.entry)) = none) :
    t.migEntry p = some (Claims.stops (u.publish (hbmKey (t.part p).mig.entry) 8) p 1) := by
  rw [State.migEntry, hread]
  refine congrArg some ?_
  dsimp only
  rw [hpage]
  rfl

theorem migEntry_page {pg : Nat} {repl : Bool} (hpage : t.pageOf p (t.readW (hbmKey (t.part p).mig.entry)) = some (pg, repl)) :
    t.migEntry p = some (if !(t.hbmIn p (t.part p).mig.dest) then Claims.stops (u.publish (hbmKey (t.part p).mig.entry) 8) p 2
      else if repl then Claims.stops (u.publish (hbmKey (t.part p).mig.entry) 8) p 3
      else if pg = (t.part p).mig.dest then Claims.stops (u.publish (hbmKey (t.part p).mig.entry) 8) p 4
      else (((u.publish (hbmKey (t.part p).mig.entry) 8).writeW (hbmKey (t.part p).mig.entry)
          (t.readW (hbmKey (t.part p).mig.entry) ||| 4)).modPart p (fun q => { q with mig := { q.mig with src := pg, held := true } })).migSend
        p (t.part p).mig.entry pg 2 0 [] []) := by
  rw [State.migEntry, hread]
  refine congrArg some ?_
  dsimp only
  rw [hpage]
  rfl

end Root

theorem migRoot_waits (h : t.agentRead (t.part p).mig.entry 101 = none) : t.migRoot p = none := by
  rw [State.migRoot, h]
  rfl
theorem migEntry_waits (h : t.agentRead (t.part p).mig.entry 101 = none) : t.migEntry p = none := by
  rw [State.migEntry, h]
  rfl

theorem migRead_pending {copied : Bool} (h : t.writesPending (t.part p).mig.src = true) : t.migRead p off copied = none := if_pos h

section Read

variable (h : t.writesPending (t.part p).mig.src = false)
include h

theorem migRead_aborts : t.migRead p off false = some (t.migSend p (t.part p).mig.src (t.part p).mig.entry 5 0 [] []) :=
  (if_neg (Bool.eq_false_iff.mp h)).trans (if_pos rfl)

theorem migRead_done (hoff : 65536 ≤ off) : t.migRead p off true = some (t.migSend p (t.part p).mig.src (t.part p).mig.entry 4 0 [] []) :=
  (if_neg (Bool.eq_false_iff.mp h)).trans ((if_neg (by simp)).trans (if_pos hoff))

theorem migRead_piece (hoff : off < 65536) : t.migRead p off true = (t.agentRead (t.part p).mig.src 101).map (fun u =>
    (u.publish (hbmKey ((t.part p).mig.src + off)) 256).migSend p (t.part p).mig.src (t.part p).mig.dest 3 off
      (t.readBytes (hbmKey ((t.part p).mig.src + off)) 256)
      ((List.range 32).filter (fun j => t.poisoned (hbmKey ((t.part p).mig.src + off) + 8 * j) 8))) :=
  (if_neg (Bool.eq_false_iff.mp h)).trans ((if_neg (by simp)).trans (if_neg (by omega)))

end Read

theorem migWrite_eq : t.migWrite p off bs pois = (t.dieAgentTurn (t.part p).mig.dest).map (fun u =>
    ((pois.foldl (fun v j => v.addPoison (hbmKey ((t.part p).mig.dest + off) + 8 * j) 8) (u.writeBytes (hbmKey ((t.part p).mig.dest + off)) bs)).modPart p
      (fun q => { q with mig := { q.mig with npois := min (q.mig.npois + pois.length) 65535 } })).migSend p (t.part p).mig.dest (t.part p).mig.src 2
        (off + 256) [] []) := rfl

theorem migAbort_eq : t.migAbort p = (t.dieAgentTurn (t.part p).mig.entry).map (fun u =>
    Claims.stops (u.writeW (hbmKey (t.part p).mig.entry) (t.readW (hbmKey (t.part p).mig.entry) &&& ~~~(4 : Word))) p 0) := rfl

/-! ### The entry at the destination (R315) -/

/-- The page entry that names the destination. -/
def movedEntry (m : Mig) : Word := BitVec.ofNat 64 (1 + m.dest / 2 ^ 36 * 2 ^ 16 + m.dest / 2 ^ 16 % 2 ^ 20 * 2 ^ 20)
/-- A walk without its translations to the page that has moved. -/
def flushed (m : Mig) (w : Walk) : Walk := { w with trans := w.trans.filter (fun t => t.page != m.src), tabs := w.tabs.erase m.entry }
/-- A packet with the word of an entry takes the new one. -/
def freshWord (m : Mig) (q : Packet) : Packet := match q.body with
  | .tableWord n a _ => if a = m.entry then { q with body := .tableWord n a (movedEntry m) } else q
  | _ => q
/-- What the last stage leaves, after the die agent's turn. -/
def finished (p : Nat) (m : Mig) (u : State) : State :=
  let t := u.writeW (hbmKey m.entry) (movedEntry m)
  ({ t with
    dies := t.dies.map (fun (x : Nat × Die) => (x.1, { x.2 with cache := x.2.cache.filter (fun y => y.addr != m.entry) }))
    walks := t.walks.map (fun (x : Nat × Walk) => (x.1, flushed m x.2))
    net := t.net.map (fun (x : Nat × Packet) => (x.1, freshWord m x.2)) } : State).modPart p (fun q => { q with
      olds := q.olds.filter (fun y => y.1 != m.entry), mig := { q.mig with state := 2, held := false } })

theorem migFinish_eq : t.migFinish p = (t.dieAgentTurn (t.part p).mig.entry).map (finished p (t.part p).mig) := rfl

theorem readW_of_mem (h : t.mem = s.mem) (a : Nat) : t.readW a = s.readW a := by rw [State.readW, State.readW, State.readN, State.readN, h]

theorem mem_finished (m : Mig) (u : State) : (finished p m u).mem = (u.writeW (hbmKey m.entry) (movedEntry m)).mem := rfl

theorem readW_finished {m : Mig} (hw : memWf u.mem = true) : (finished p m u).readW (hbmKey m.entry) = movedEntry m := by
  rw [readW_of_mem (mem_finished m u)]
  exact readW_writeW_same hw

theorem byte_finished {m : Mig} {a : Nat} (h : a < hbmKey m.entry ∨ hbmKey m.entry + 8 ≤ a) : (finished p m u).byte a = u.byte a :=
  (congrArg (memRead · a) (mem_finished m u)).trans (byte_writeN_other h)

theorem mig_finished (m : Mig) (u : State) : ((finished p m u).part p).mig = { (u.part p).mig with state := 2, held := false } :=
  congrArg Part.mig (State.part_modPart _ p _)

theorem page_finished {m : Mig} {x : Nat × Walk} {r : Trans} (hx : x ∈ (finished p m u).walks) (hr : r ∈ x.2.trans) : r.page ≠ m.src := by
  obtain ⟨y, -, rfl⟩ := List.mem_map.mp hx
  exact bne_iff_ne.mp (List.mem_filter.mp hr).2

theorem cache_finished {m : Mig} {d : Nat} {c : Cached} (hc : c ∈ ((finished p m u).die d).cache) : c.addr ≠ m.entry := by
  have hdie : (finished p m u).die d = { u.die d with cache := (u.die d).cache.filter (fun y => y.addr != m.entry) } :=
    Tbl.get_map_values Die.init (fun _ x => { x with cache := x.cache.filter (fun y => y.addr != m.entry) }) d rfl u.dies
  rw [hdie] at hc
  exact bne_iff_ne.mp (List.mem_filter.mp hc).2

end Sys2Proof.Proofs.Migrations
end

section
/-! PROOFS. A partition's registers, pre-emption and the optical ports (O56, in part: R184, R335, R349 to R355, R360). -/

namespace Sys2Proof.Proofs.PartitionRegisters

open Sys2Proof.Machine Sys2Proof.Proofs.WalkEnds Sys2Proof.Proofs.TileWalks Sys2Proof.Proofs.Commits Sys2Proof.Proofs.Drains
  Sys2Proof.Proofs.WalksAtWork

variable {s t u : State} {p d i j cid : Nat} {v : Word}

theorem bits_low13 (n : Nat) : bits n 0 13 = n % 8192 := by
  rw [bits_eq]
  omega

/-! ### Spill regions (R184) -/

section Spill

variable (hex : s.partExists p = true) (hlive : s.anyLive p = false)
include hex hlive

theorem spillFrames_accepted (hmax : v.toNat % 8192 ≤ 4096)
    (hfits : ∀ x ∈ (s.part p).spillBase, s.spillFits p x.1 x.2.toNat (v.toNat % 8192) = true) :
    s.spillFrames p v = s.modPart p (fun t => { t with spill := v.toNat % 8192 }) := by
  have hall : (s.part p).spillBase.all (fun x => s.spillFits p x.1 x.2.toNat (v.toNat % 8192)) = true := List.all_eq_true.mpr hfits
  rw [State.spillFrames, bits_low13, hex, hlive, hall]
  exact (if_neg (by decide)).trans (if_neg (by simpa using hmax))

omit hlive in
theorem spillFrames_tooMany (hmax : 4096 < v.toNat % 8192) : s.spillFrames p v = s.modPart p (fun t => { t with spillErr := true }) := by
  rw [State.spillFrames, bits_low13, hex]
  exact (if_neg (by decide)).trans (if_pos (by simp [hmax]))

omit hlive in
theorem spillBase_elsewhere (hdie : ∀ x ∈ s.shares p, x.1 ≠ d) : s.spillBase p d v = s.modPart p (fun t => { t with spillErr := true }) := by
  have hnone : (s.shares p).any (fun x => x.1 == d) = false := List.any_eq_false.mpr fun x hx => by simpa using hdie x hx
  rw [State.spillBase, hex, hnone]
  exact (if_neg (by decide)).trans (if_pos rfl)

theorem spillBase_accepted (hdie : ∃ x ∈ s.shares p, x.1 = d) (halign : v.toNat % 2 ^ 40 % 4096 = 0) (hon : v.toNat % 2 ^ 40 / 2 ^ 36 = d)
    (hfits : s.spillFits p d (v.toNat % 2 ^ 40) (s.part p).spill = true) :
    s.spillBase p d v = s.modPart p (fun t => { t with spillBase := t.spillBase.set d (BitVec.ofNat 64 (v.toNat % 2 ^ 40)) }) := by
  have hn : bits v.toNat 0 40 = v.toNat % 2 ^ 40 := by rw [bits_eq, Nat.pow_zero, Nat.div_one]
  have hany : (s.shares p).any (fun x => x.1 == d) = true := by
    obtain ⟨x, hx, hxd⟩ := hdie
    exact List.any_eq_true.mpr ⟨x, hx, beq_iff_eq.mpr hxd⟩
  rw [State.spillBase, hn, hex, hany, hlive, halign, hon, hfits]
  exact (if_neg (by decide)).trans (if_neg (by simp))

end Spill

/-! ### Ordered-reduction registers (R335) -/

section Ord

variable (hj : s.ordIndex p d i = some j)
include hj

theorem ordAddr_eq : s.ordAddr p d i v = if (s.ordAt d j).armed = true then s else s.setOrd d j { s.ordAt d j with addr := v } := by
  rw [State.ordAddr, hj]
theorem ordN_eq : s.ordN p d i v = if (s.ordAt d j).armed = true then s else s.setOrd d j { s.ordAt d j with n := v.toNat % 8192 } := by
  rw [State.ordN, hj, bits_low13]

theorem ordArm_arm {key : Nat} (hv : v.getLsbD 13 = true) (hkey : s.ordWord d j (s.ordAt d j).addr = some key) : s.ordArm p d i v =
    if (s.ordAt d j).armed || (s.ordAt d j).n == 0 || (s.ordAt d j).addr.toNat % 4 != 0 || (s.armedFor d key).isSome then s
    else s.setOrd d j { s.ordAt d j with armed := true } := by
  rw [State.ordArm, hj]
  refine (if_pos hv).trans ?_
  dsimp only
  rw [hkey]

/-- The entry that a round with nothing collected leaves. -/
def emptied (s : State) (d j : Nat) : State := s.modDie d (fun x => { x with ord := x.ord.set j { s.ordAt d j with got := [] } })

omit hj in
theorem orderedRound_empty (h : (s.ordAt d j).got = []) : s.orderedRound d j = emptied s d j := by
  rw [State.ordAt] at h
  rw [State.orderedRound, h]
  rfl

theorem ordArm_disarm (hv : v.getLsbD 13 = false) (harmed : (s.ordAt d j).armed = true) (hgot : (s.ordAt d j).got = []) : s.ordArm p d i v =
    ((emptied s d j).setOrd d j { (emptied s d j).ordAt d j with armed := false }).modPart p (fun q => { q with quiesced := false }) := by
  rw [State.ordArm, hj]
  refine (if_neg (Bool.eq_false_iff.mp hv)).trans ((if_pos harmed).trans ?_)
  rw [orderedRound_empty hgot]

omit hj in
theorem ordAt_emptied (hgot : (s.ordAt d j).got = []) : (emptied s d j).ordAt d j = s.ordAt d j := by
  rw [State.ordAt, emptied, State.die_modDie]
  refine (Tbl.get_set_same ..).trans ?_
  rw [← hgot]

end Ord

/-! ### Pre-emption (R349 to R353) -/

theorem preempt_accepted (hex : s.partExists p = true) (hstate : s.partState p = 0) (hrsv : partRsv s.mgmt.region p = false)
    (hbase : ∀ x ∈ s.shares p, ((s.part p).saveBase.get 0 x.1).toNat / 2 ^ 36 = x.1 ∧ ((s.part p).saveBase.get 0 x.1).toNat % 2 ^ 16 = 0) :
    s.preempt p = s.modPart p (fun t => { t with state := 1 }) := by
  have hall : (s.shares p).all (fun x => ((s.part p).saveBase.get 0 x.1).toNat / 2 ^ 36 == x.1 && ((s.part p).saveBase.get 0 x.1).toNat % 2 ^ 16 == 0) =
      true := List.all_eq_true.mpr fun x hx => by
    obtain ⟨hd, ha⟩ := hbase x hx
    rw [hd, ha]
    simp
  rw [State.preempt, hex, hstate, hrsv]
  dsimp only
  rw [hall]
  rfl

theorem preempt_refused (hex : s.partExists p = true) (h : s.partState p ≠ 0 ∨ partRsv s.mgmt.region p = true) :
    s.preempt p = s.modPart p (fun t => { t with refused := true }) := by
  rw [State.preempt, hex]
  refine (if_neg (by decide)).trans (if_pos ?_)
  rcases h with h | h <;> simp [h]

theorem resume_accepted (hex : s.partExists p = true) (hstate : s.partState p = 3) (hrsv : partRsv s.mgmt.region p = false)
    (hsaved : s.shares p = (s.part p).savedAs) : s.resume p = s.modPart p (fun t => { t with state := 4 }) := by
  rw [State.resume, hex, hstate, hrsv, hsaved]
  exact (if_neg (by decide)).trans (if_neg (by simp))

theorem resume_refused (hex : s.partExists p = true)
    (h : s.partState p ≠ 3 ∨ partRsv s.mgmt.region p = true ∨ s.shares p ≠ (s.part p).savedAs) :
    s.resume p = s.modPart p (fun t => { t with refused := true }) := by
  rw [State.resume, hex]
  refine (if_neg (by decide)).trans (if_pos ?_)
  rcases h with h | h | h <;> simp [h]

/-- A core's save, with the partition in the state of saving. -/
def saving (s : State) (p cid : Nat) : State := (s.modCore cid (fun c => { c with saved := true })).modPart p (fun t => { t with state := 2 })

theorem coreSave_unquiet (hquiet : s.coreQuiet cid = false) : s.coreSave cid = s := if_pos (by simp [hquiet])

theorem coreSave_eq (hin : s.coreIn (s.partOf cid) cid = true) (hstate : (s.part (s.partOf cid)).state = 1 ∨ (s.part (s.partOf cid)).state = 2)
    (hsaved : (s.core cid).saved = false) (hquiet : s.coreQuiet cid = true) : s.coreSave cid =
    if ((saving s (s.partOf cid) cid).cores.filter (fun x => x.2.saved && (saving s (s.partOf cid) cid).coreIn (s.partOf cid) x.1)).length =
        (saving s (s.partOf cid) cid).partSize (s.partOf cid) then
      match (saving s (s.partOf cid) cid).saveTurns (s.partOf cid) with
      | none => s
      | some u => ((u.writeSaveAreas (s.partOf cid)).modPart (s.partOf cid) (fun t => { t with state := 3, savedAs := s.shares (s.partOf cid) })).interrupt
          (s.partOf cid)
    else saving s (s.partOf cid) cid := by
  refine (if_neg ?_).trans rfl
  rcases hstate with h | h <;> simp [hin, h, hsaved, hquiet]

theorem foldl_bind_diesOnly {α : Type} {g : State → α → Option State} (hg : ∀ t x w, g t x = some w → DiesOnly t w) : ∀ (l : List α) (o : Option State),
    l.foldl (fun o x => o.bind (fun t => g t x)) o = some u → ∃ t, o = some t ∧ DiesOnly t u
  | [], _, h => ⟨u, h, DiesOnly.refl u⟩
  | x :: l, o, h => by
    obtain ⟨w, hw, hwu⟩ := foldl_bind_diesOnly hg l _ h
    obtain ⟨t, ht, htw⟩ := Option.bind_eq_some_iff.mp hw
    exact ⟨t, ht, (hg t x w htw).trans hwu⟩

theorem saveTurns_diesOnly (h : s.saveTurns p = some u) : DiesOnly s u := by
  obtain ⟨t, ht, htu⟩ := foldl_bind_diesOnly (fun t x w hw => State.dieAgentTurn_diesOnly hw) _ _ h
  cases ht
  exact htu

/-- The save areas take bytes, and nothing else changes. -/
theorem writeSaveAreas_field {α : Type} {f : State → α} (hf : ∀ (s : State) k n w, f (s.writeN k n w) = f s) (s : State) (p : Nat) :
    f (s.writeSaveAreas p) = f s := foldl_field (fun _ _ => foldl_field (fun _ _ => hf ..) _ _) _ _

theorem byte_writeSaveAreas {a : Nat} (h : ∀ x ∈ s.shares p, ∀ i, i < s.saveSize p → a ≠ hbmKey (((s.part p).saveBase.get 0 x.1).toNat + i)) :
    (s.writeSaveAreas p).byte a = s.byte a :=
  foldl_field_of_mem (f := fun u => State.byte u a) _ _ fun _ x hx => foldl_field_of_mem (f := fun u => State.byte u a) _ _ fun _ i hi => by
    have hne := h x hx i (List.mem_range.mp hi)
    exact Words.byte_writeN_other (by omega)

/-- What the last core's save leaves, behind the agents' turns. -/
def savedLast (u : State) (p : Nat) (sh : List (Nat × Nat)) : State :=
  ((u.writeSaveAreas p).modPart p (fun t => { t with state := 3, savedAs := sh })).interrupt p

theorem interrupt_field {α : Type} {f : State → α} (hf : ∀ (s : State) m, f { s with msi := m } = f s) (s : State) (p : Nat) : f (s.interrupt p) = f s := by
  rw [State.interrupt]
  split
  · exact hf s _
  · rfl

theorem savedLast_field {α : Type} {f : State → α} (hm : ∀ (s : State) m, f { s with msi := m } = f s) (hp : ∀ (s : State) p g, f (s.modPart p g) = f s)
    (hw : ∀ (s : State) k n w, f (s.writeN k n w) = f s) (u : State) (p : Nat) (sh : List (Nat × Nat)) : f (savedLast u p sh) = f u :=
  (interrupt_field hm _ p).trans ((hp ..).trans (writeSaveAreas_field hw u p))

theorem part_savedLast (u : State) (p : Nat) (sh : List (Nat × Nat)) : (savedLast u p sh).part p = { u.part p with state := 3, savedAs := sh } := by
  refine (interrupt_field (f := fun t => State.part t p) (fun _ _ => rfl) _ p).trans ?_
  rw [State.part_modPart]
  have h := writeSaveAreas_field (f := fun t => State.part t p) (fun _ _ _ _ => rfl) u p
  rw [h]

theorem msi_savedLast (u : State) (p : Nat) (sh : List (Nat × Nat)) :
    (savedLast u p sh).msi = if (u.part p).cint then (1 + p) :: u.msi else u.msi := by
  have hpart := writeSaveAreas_field (f := fun t => State.part t p) (fun _ _ _ _ => rfl) u p
  have hmsi := writeSaveAreas_field (f := State.msi) (fun _ _ _ _ => rfl) u p
  rw [savedLast, State.interrupt, State.part_modPart, hpart]
  split
  · exact congrArg _ hmsi
  · exact hmsi

theorem coreRestore_eq (hin : s.coreIn (s.partOf cid) cid = true) (hstate : (s.part (s.partOf cid)).state = 4) (hsaved : (s.core cid).saved = true) :
    s.coreRestore cid = match s.agentRead ((s.part (s.partOf cid)).saveBase.get 0 (dieOf cid)).toNat 101 with
      | none => s
      | some u =>
        if (u.modCore cid (fun c => { c with saved := false })).cores.any (fun x => x.2.saved && (u.modCore cid (fun c => { c with saved := false })).coreIn
            (s.partOf cid) x.1) then u.modCore cid (fun c => { c with saved := false })
        else ((u.modCore cid (fun c => { c with saved := false })).modPart (s.partOf cid) (fun t => { t with state := 0 })).interrupt (s.partOf cid) := by
  refine (if_neg ?_).trans rfl
  simp [hin, hstate, hsaved]

theorem mem_set_other {α : Type} {x : Nat × α} {i : Nat} {w : α} (hne : x.1 ≠ i) : ∀ {l : Tbl α}, x ∈ l → x ∈ l.set i w
  | (k, y) :: l, h => by
    rw [Tbl.set]
    split
    next hik =>
      rcases List.mem_cons.mp h with rfl | h
      · exact absurd hik.symm hne
      · exact List.mem_cons_of_mem _ h
    next =>
      split
      · exact List.mem_cons_of_mem _ h
      · rcases List.mem_cons.mp h with rfl | h
        · exact List.mem_cons_self
        · exact List.mem_cons_of_mem _ (mem_set_other hne h)

/-- Another core of the partition that is still saved stands in the machine. -/
theorem any_saved {e : Nat} (hne : e ≠ cid) (hsaved : (u.core e).saved = true) (hin : u.coreIn p e = true) :
    (u.modCore cid (fun c => { c with saved := false })).cores.any (fun x => x.2.saved &&
      (u.modCore cid (fun c => { c with saved := false })).coreIn p x.1) = true := by
  rcases FaultWork.get_default_or_mem Core.init e u.cores with hcore | hmem
  · rw [show u.core e = Core.init from hcore] at hsaved
    cases hsaved
  · refine List.any_eq_true.mpr ⟨(e, u.core e), mem_set_other hne hmem, ?_⟩
    rw [Bool.and_eq_true]
    exact ⟨hsaved, hin⟩

/-! ### Optical ports (R354, R355) -/

section Port

variable (hi : i < 32)
include hi

theorem portEntryWrite_clears (hv : v.getLsbD 0 = false) : s.portEntryWrite i 0 v =
    s.modMgmt (fun m => { m with ports := m.ports.set i (v &&& 0x0FFFFFFF, (s.mgmt.ports.get (0, 0) i).2) }) := by
  refine (if_neg (by omega)).trans ((if_pos rfl).trans ?_)
  rw [hv]
  rfl

theorem portEntryWrite_sets (hv : v.getLsbD 0 = true) : s.portEntryWrite i 0 v =
    if !((s.mgmt.ports.get (0, 0) i).1.getLsbD 0) && s.partExists (v.toNat / 2 % 64) && (s.shares (v.toNat / 2 % 64)).any (fun x => x.1 == v.toNat / 128 % 16)
    then s.modMgmt (fun m => { m with ports := m.ports.set i (v &&& 0x0FFFFFFF, (s.mgmt.ports.get (0, 0) i).2) }) else s := by
  refine (if_neg (by omega)).trans ((if_pos rfl).trans ?_)
  rw [hv, bits_eq, bits_eq]
  rfl

theorem portEntryWrite_second : s.portEntryWrite i 1 v =
    s.modMgmt (fun m => { m with ports := m.ports.set i ((s.mgmt.ports.get (0, 0) i).1, v &&& 0x7FFFFFFFF) }) :=
  (if_neg (by omega)).trans ((if_neg one_ne_zero).trans (if_pos rfl))

theorem opticalLinkState_eq (a b : Bool) : s.opticalLinkState i a b = s.modMgmt (fun m => { m with
    up := if a then insertNat i m.up else m.up.filter (· != i)
    back := if b then insertNat i m.back else m.back.filter (· != i) }) := if_neg (by omega)

end Port

end Sys2Proof.Proofs.PartitionRegisters
end

section
/-! PROOFS. Commits, partition registers and pre-emption (O56). -/

namespace Sys2Proof.Proofs.PartitionsAtWork

open Sys2Proof.Machine Sys2Proof.Proofs.Slots Sys2Proof.Proofs.WalkEnds Sys2Proof.Proofs.Commits Sys2Proof.Proofs.Drains
  Sys2Proof.Proofs.Migrations Sys2Proof.Proofs.PartitionRegisters

variable {s t u : State} {p d k i : Nat} {v : Word}

/-- A commit that is accepted: the tables change hands, and what is gained is clear (R6, R338, R339). -/
theorem commit_spec (hv : v.getLsbD 0 = true) (hok : s.mgmt.ok = true) (hdrain : s.mgmt.drain = false) (hgood : tablesOk s.mgmt = true) :
    ∃ t, exec (.commit v) s = .next t ∧ t.mgmt.gen = s.mgmt.gen + 1 ∧ t.mgmt.drain = true ∧
      t.mgmt.region = s.mgmt.regionSh ∧ t.mgmt.regionOld = s.mgmt.region ∧ t.mgmt.conn = s.mgmt.connSh ∧ t.mgmt.connOld = s.mgmt.conn ∧
      t.mgmt.regionSh = s.mgmt.regionSh ∧ t.mgmt.connSh = s.mgmt.connSh ∧
      (∀ a, State.keyInQuarters (t.gainedShares false) a = true → t.byte a = 0 ∧ t.poison.contains a = false) ∧
      (∀ c, inShares (t.gainedShares false) c = true → (t.core c).ready = [] ∧ (t.core c).tiles = [] ∧ (t.core c).stp = 0) ∧
      ((∀ p, p < 64 → quartersLost s.mgmt.region s.mgmt.regionSh p = []) →
        (∀ a, State.keyInQuarters (t.gainedShares false) a = false → t.byte a = s.byte a) ∧
        ∀ c, inShares (t.gainedShares false) c = false → t.core c = s.core c) := by
  have hgained : ((committed s).clearShares ((committed s).gainedShares false)).gainedShares false = (committed s).gainedShares false := rfl
  have hmgmt : ((committed s).clearShares ((committed s).gainedShares false)).mgmt = _ := mgmt_committed s
  refine ⟨_, next_congr (commit_accepted hv hok hdrain hgood), ?_⟩
  rw [hgained, hmgmt]
  refine ⟨rfl, rfl, rfl, rfl, rfl, rfl, rfl, rfl, fun a ha => ⟨?_, ?_⟩, fun c hc => core_clearShares_in hc, fun hnobody => ⟨fun a ha => ?_, fun c hc => ?_⟩⟩
  · rw [byte_clearShares, if_pos ha]
  · rw [poison_clearShares, if_pos ha]
  · rw [byte_clearShares, if_neg (Bool.eq_false_iff.mp ha)]
    exact committed_field (f := fun u => State.byte u a) (fun _ _ _ => rfl) (fun _ _ _ => rfl) (fun _ _ => rfl) hnobody
  · rw [core_clearShares_out hc]
    exact committed_field (f := fun u => State.core u c) (fun _ _ _ => rfl) (fun _ _ _ => rfl) (fun _ _ => rfl) hnobody

/-- What the end of a drain leaves (R6, R339, R341). -/
theorem retire_spec (s : State) : s.retire.mgmt.drain = false ∧ s.retire.mgmt.regionOld = [] ∧
    (∀ r ∈ s.retire.faults, r ∈ s.faults ∧ partDies s.mgmt.region r.part ≠ []) ∧
    s.retire.mgmt.region = s.mgmt.region ∧ s.retire.mgmt.gen = s.mgmt.gen ∧
    (∀ c, inShares (s.gainedShares true) c = true → (s.retire.core c).ready = [] ∧ (s.retire.core c).tiles = [] ∧ (s.retire.core c).stp = 0) ∧
    (∀ c, inShares (s.gainedShares true) c = false → s.retire.core c = s.core c) ∧
    (∀ a, State.keyInQuarters (s.gainedShares true) a = true → s.retire.poison.contains a = false ∧ (a / 2 ^ 60 < 4 → s.retire.byte a = 0)) ∧
    (∀ a, State.keyInQuarters (s.gainedShares true) a = false → s.retire.poison.contains a = s.poison.contains a) := by
  rw [mgmt_retire]
  refine ⟨rfl, rfl, fun r hr => ?_, rfl, rfl, fun c hc => ?_, fun c hc => ?_, fun a ha => ⟨?_, byte_retire_cleared ha⟩, fun a ha => ?_⟩
  · rw [faults_retire] at hr
    obtain ⟨hr, hex⟩ := List.mem_filter.mp hr
    obtain ⟨-, hne⟩ := Bool.and_eq_true_iff.mp hex
    exact ⟨hr, List.isEmpty_eq_false_iff.mp (by simpa using hne)⟩
  · rw [core_retire]
    exact core_clearShares_in hc
  · rw [core_retire]
    exact core_clearShares_out hc
  · rw [poison_retire, poison_clearShares, if_pos ha]
  · rw [poison_retire, poison_clearShares, if_neg (Bool.eq_false_iff.mp ha)]

/-- A stage of a migration, of which the packet has been found. -/
theorem exec_migrationComplete {stage off : Nat} {bs : List Byte} {pois : List Nat} {q : Packet}
    (hfind : s.net.find? (fun x => State.migHere p x.2) = some (k, q)) (hbody : q.body = .migrate stage off bs pois) :
    (stageWork (s.dropPacket k) p stage off bs pois (!(Config.copyAborts s.tick)) = none → exec (.migrationComplete p) s = .next s) ∧
    ∀ t, stageWork (s.dropPacket k) p stage off bs pois (!(Config.copyAborts s.tick)) = some t → exec (.migrationComplete p) s = .next t := by
  have heq := migrationComplete_stage (!(Config.copyAborts s.tick)) hfind hbody
  refine ⟨fun h => next_congr (heq.trans ?_), fun t h => next_congr (heq.trans ?_)⟩ <;> rw [h] <;> rfl

theorem field_diesOnly {α : Type} {f : State → α} (hf : ∀ (s : State) ds, f { s with dies := ds } = f s) (h : DiesOnly s u) : f u = f s :=
  (congrArg f h).trans (hf s _)

theorem bits_low5 (n : Nat) : bits n 0 5 = n % 32 := by
  rw [TileWalks.bits_eq]
  omega

/-- What the save of a partition's last core leaves (R350). -/
theorem savedLast_spec {cid : Nat} {w : State} (hw : (saving s p cid).saveTurns p = some w) :
    let t := savedLast w p (s.shares p)
    (t.part p).state = 3 ∧ (t.part p).savedAs = s.shares p ∧ t.core cid = { s.core cid with saved := true } ∧
      t.msi = (if (s.part p).cint then (1 + p) :: s.msi else s.msi) ∧ t.net = s.net ∧ t.cmds = s.cmds ∧ t.insts = s.insts ∧
      ∀ a, (∀ x ∈ s.shares p, ∀ j, j < s.saveSize p → a ≠ hbmKey (((s.part p).saveBase.get 0 x.1).toNat + j)) → t.byte a = s.byte a := by
  have hdies : DiesOnly (saving s p cid) w := saveTurns_diesOnly hw
  have hmgmt : w.mgmt = s.mgmt := (field_diesOnly (f := State.mgmt) (fun _ _ => rfl) hdies :)
  have hpart : w.part p = { s.part p with state := 2 } := (field_diesOnly (f := (fun u => State.part u p)) (fun _ _ => rfl) hdies :).trans (State.part_modPart _ p _)
  have hcore : w.core cid = { s.core cid with saved := true } := (field_diesOnly (f := (fun u => State.core u cid)) (fun _ _ => rfl) hdies :).trans (State.core_modCore s cid (fun c => { c with saved := true }))
  have hsize : w.saveSize p = s.saveSize p := by rw [State.saveSize, State.saveSize, shares_congr hmgmt]
  dsimp only
  rw [part_savedLast, msi_savedLast, hpart]
  refine ⟨rfl, rfl, ?_, congrArg (fun m => if (s.part p).cint = true then (1 + p) :: m else m) (field_diesOnly (f := State.msi) (fun _ _ => rfl) hdies :), ?_, ?_, ?_, fun a ha => ?_⟩
  · exact (savedLast_field (f := fun u => State.core u cid) (fun _ _ => rfl) (fun _ _ _ => rfl) (fun _ _ _ _ => rfl) w p _).trans hcore
  · exact (savedLast_field (f := State.net) (fun _ _ => rfl) (fun _ _ _ => rfl) (fun _ _ _ _ => rfl) w p _).trans (field_diesOnly (f := State.net) (fun _ _ => rfl) hdies :)
  · exact (savedLast_field (f := State.cmds) (fun _ _ => rfl) (fun _ _ _ => rfl) (fun _ _ _ _ => rfl) w p _).trans (field_diesOnly (f := State.cmds) (fun _ _ => rfl) hdies :)
  · exact (savedLast_field (f := State.insts) (fun _ _ => rfl) (fun _ _ _ => rfl) (fun _ _ _ _ => rfl) w p _).trans (field_diesOnly (f := State.insts) (fun _ _ => rfl) hdies :)
  · refine (interrupt_field (f := fun u => State.byte u a) (fun _ _ => rfl) _ p).trans ?_
    refine (byte_writeSaveAreas (s := w) fun x hx j hj => ?_).trans (field_diesOnly (f := (fun u => State.byte u a)) (fun _ _ => rfl) hdies :)
    rw [hpart]
    exact ha x (shares_congr hmgmt p ▸ hx) j (hsize ▸ hj)

/-- A peer's write on the partition's only die. -/
theorem peerReplicaWrite_lands {addr : Nat} {bs : List Byte} {p d : Nat} (hp : p = (s.mgmt.ports.get (0, 0) i).1.toNat / 2 % 64)
    (hd : d = (s.mgmt.ports.get (0, 0) i).1.toNat / 128 % 16)
    (hv : (s.mgmt.ports.get (0, 0) i).1.getLsbD 0 = true) (hup : i ∈ s.mgmt.up) (hback : i ∈ s.mgmt.back)
    (hex : s.partExists p = true) (hclear : (s.part p).clearing = []) (hbs : bs ≠ []) (hfits : addr % 2 ^ 36 + bs.length ≤ 2 ^ 36)
    (hdies : ∀ x ∈ s.shares p, x.1 = d) (hbusy : s.replicaBusy p addr bs.length = false)
    (hmig : s.migrating (d * 2 ^ 36 + addr % 2 ^ 36) bs.length = false) : s.peerReplicaWrite i addr bs [] =
      let t := (s.keepOlds (d * 2 ^ 36 + addr % 2 ^ 36) bs.length).writeBytes (hbmKey (d * 2 ^ 36 + addr % 2 ^ 36)) bs
      if s.srefOk p (s.mgmt.ports.get (0, 0) i).2.toNat then
        (t.modPart p (fun q => { q with quiesced := false })).sendSignal (.agent d)
          { fref := 0, cid := d * 25600, fid := 0, pc := 0, inst := 0, part := p } (s.mgmt.ports.get (0, 0) i).2.toNat 1 bs.length 4
      else t := by
  have hpb : bits (s.mgmt.ports.get (0, 0) i).1.toNat 1 6 = p := (TileWalks.bits_eq ..).trans hp.symm
  have hdb : bits (s.mgmt.ports.get (0, 0) i).1.toNat 7 4 = d := (TileWalks.bits_eq ..).trans hd.symm
  have hlive : s.portLive i = true := (WalkMoves.portLive_iff s i).mpr ⟨hup, hback⟩
  have hothers : ((s.shares p).map (·.1)).filter (· != d) = [] := List.filter_eq_nil_iff.mpr fun e he => by
    obtain ⟨x, hx, rfl⟩ := List.mem_map.mp he
    simp [hdies x hx]
  have hempty : bs.isEmpty = false := List.isEmpty_eq_false_iff.mpr hbs
  rw [State.peerReplicaWrite, hpb, hdb]
  refine (if_neg ?_).trans ?_
  · have hroom : decide (2 ^ 36 < addr % 2 ^ 36 + bs.length) = false := decide_eq_false (Nat.not_lt.mpr hfits)
    rw [hv, hlive, hex, hclear, hempty, hmig, hbusy, hroom]
    decide
  · rw [hothers]
    rfl

theorem peerReplicaWrite_waits {addr : Nat} {bs : List Byte} {p d : Nat} (hp : p = (s.mgmt.ports.get (0, 0) i).1.toNat / 2 % 64)
    (hd : d = (s.mgmt.ports.get (0, 0) i).1.toNat / 128 % 16) (h : i ∉ s.mgmt.up ∨ i ∉ s.mgmt.back ∨ (s.part p).clearing ≠ [] ∨
      s.migrating (d * 2 ^ 36 + addr % 2 ^ 36) bs.length = true) : s.peerReplicaWrite i addr bs [] = s := by
  have hpb : bits (s.mgmt.ports.get (0, 0) i).1.toNat 1 6 = p := (TileWalks.bits_eq ..).trans hp.symm
  have hdb : bits (s.mgmt.ports.get (0, 0) i).1.toNat 7 4 = d := (TileWalks.bits_eq ..).trans hd.symm
  rw [State.peerReplicaWrite, hpb, hdb]
  refine if_pos ?_
  rcases h with h | h | h | h
  · have hlive : s.portLive i = false := Bool.eq_false_iff.mpr fun hl => h ((WalkMoves.portLive_iff s i).mp hl).1
    simp [hlive]
  · have hlive : s.portLive i = false := Bool.eq_false_iff.mpr fun hl => h ((WalkMoves.portLive_iff s i).mp hl).2
    simp [hlive]
  · simp [h]
  · rw [h]
    simp

/-- Settles O56: each conjunct is the model's event, taken apart by what it finds; a migration goes by its stage. -/
theorem partitionsAtWork : Obligations.PartitionsAtWork := by
  unfold Obligations.PartitionsAtWork
  refine ⟨?_, mem_gainedShares, ?_, ?_, ?_, ?_, ?_, ?_, ?_, ?_, ?_, ?_, fun _ _ => rfl, ?_, ?_⟩
  · exact fun s v hv hok => ⟨fun hd => next_congr (commit_busy hv hok hd), fun hd hbad => next_congr (commit_bad hv hok hd hbad), commit_spec hv hok⟩
  · refine fun s d hdrain hok => ⟨fun h => next_congr (drainMessage_early h), fun e he hne hnew hundone =>
      next_congr (drainMessage_first hdrain hok hnew he hne hundone), fun hnew hdone hinsts hlosers =>
      ⟨_, next_congr (drainMessage_last hdrain hok hnew hdone hinsts hlosers), ?_⟩⟩
    obtain ⟨hnodrain, hold, hfaults, hregion, hgen, hcoreIn, hcoreOut, hin, hout⟩ := retire_spec (reported s d)
    exact ⟨hnodrain, hold, hfaults, hregion, hgen, hcoreIn, hcoreOut, hin, hout, fun p hex => part_retire hex,
      fun hc a ha hk => byte_retire_kept hc ha hk, fun him x hx hex a ha => byte_retire_empty him hx hex ha⟩
  · refine fun s p hclear => ⟨fun hd => next_congr (if_neg ?_), fun hd => next_congr (if_pos ?_)⟩
    · simp [hclear, hd]
    · simp [hd]
  · exact fun s p d v hex hlive => ⟨fun hmax hfits => next_congr (spillFrames_accepted hex hlive hmax hfits),
      fun hmax => next_congr (spillFrames_tooMany hex hmax), fun hdie => next_congr (spillBase_elsewhere hex hdie),
      fun hdie ha hon hfits => next_congr (spillBase_accepted hex hlive hdie ha hon hfits)⟩
  · refine fun s p v hex hv => ⟨fun h => next_congr (migGo_busy h), fun h hroot => next_congr ((migGo_idle hex hv h).trans (by rw [hroot])),
      fun ra h hroot => handsOn_of (next_congr ((migGo_idle hex hv h).trans (by rw [hroot])))⟩
  · exact fun s p h => next_congr (migrationComplete_none _ h)
  · intro s p k stage off bs pois q hfind hbody
    obtain ⟨hwait, hnext⟩ := exec_migrationComplete hfind hbody
    refine ⟨fun hstage hread => ?_, ?_, ?_, fun hstage hpend => ?_, fun hstage hfree => ⟨fun habort => ?_, fun hcopies hoff => ?_, fun hcopies hoff =>
      ⟨fun hread => ?_, fun u hread => ?_⟩⟩, fun hstage => ⟨fun hturn => ?_, fun u hturn => ?_⟩, fun hstage hturn => ?_, fun u hstage hturn => ?_,
      fun u hstage hturn => ?_⟩
    · rcases hstage with rfl | rfl
      · exact hwait (migRoot_waits hread)
      · exact hwait (migEntry_waits hread)
    · rintro u rfl hread
      exact ⟨fun hleaf => hnext _ (migRoot_stops hread hleaf), fun a hleaf => handsOn_of (hnext _ (migRoot_leads hread hleaf))⟩
    · rintro u rfl hread
      refine ⟨fun hpage => hnext _ (migEntry_noPage hread hpage), fun pg repl hpage => ?_⟩
      have hout : ∀ b, s.hbmIn p (s.part p).mig.dest = b → (!((s.dropPacket k).hbmIn p (s.part p).mig.dest)) = !b := fun b hb => congrArg _ hb
      have hgo := hnext _ (migEntry_page hread hpage)
      refine ⟨fun hdest => hgo.trans (congrArg _ (if_pos (hout false hdest))), fun hdest hrepl => ?_, fun hdest hrepl hsame => ?_, fun hdest hrepl hne => ?_⟩
      · exact hgo.trans (congrArg _ ((if_neg (Bool.eq_false_iff.mp (hout true hdest))).trans (if_pos hrepl)))
      · exact hgo.trans (congrArg _ ((if_neg (Bool.eq_false_iff.mp (hout true hdest))).trans ((if_neg (Bool.eq_false_iff.mp hrepl)).trans (if_pos hsame))))
      · exact handsOn_of (hgo.trans (congrArg _ ((if_neg (Bool.eq_false_iff.mp (hout true hdest))).trans
          ((if_neg (Bool.eq_false_iff.mp hrepl)).trans (if_neg hne)))))
    · subst hstage
      exact hwait (migRead_pending hpend)
    · subst hstage
      refine handsOn_of (hnext _ ?_)
      rw [habort]
      exact migRead_aborts hfree
    · subst hstage
      refine handsOn_of (hnext _ ?_)
      rw [hcopies]
      exact migRead_done hfree hoff
    · subst hstage
      refine hwait ?_
      rw [hcopies]
      exact (migRead_piece (t := s.dropPacket k) hfree hoff).trans (congrArg (Option.map _) hread)
    · subst hstage
      refine handsOn_of (hnext _ ?_)
      rw [hcopies]
      exact (migRead_piece (t := s.dropPacket k) hfree hoff).trans (congrArg (Option.map _) hread)
    · subst hstage
      exact hwait (migWrite_eq.trans (congrArg (Option.map _) hturn))
    · subst hstage
      exact handsOn_of (hnext _ (migWrite_eq.trans (congrArg (Option.map _) hturn)))
    · rcases hstage with rfl | rfl
      · exact hwait (migFinish_eq.trans (congrArg (Option.map _) hturn))
      · exact hwait (migAbort_eq.trans (congrArg (Option.map _) hturn))
    · subst hstage
      have hdies : DiesOnly (s.dropPacket k) u := State.dieAgentTurn_diesOnly hturn
      have hmem : u.mem = s.mem := (field_diesOnly (f := State.mem) (fun _ _ => rfl) hdies :)
      have hparts : u.parts = s.parts := (field_diesOnly (f := State.parts) (fun _ _ => rfl) hdies :)
      refine ⟨_, hnext _ (migFinish_eq.trans (congrArg (Option.map _) hturn)), (mig_finished _ u).trans ?_,
        fun hw => ⟨readW_finished (hmem ▸ hw), fun a ha => (byte_finished ha).trans (congrArg (memRead · a) hmem)⟩,
        fun x hx r hr => page_finished hx hr, fun d c hc => cache_finished hc, (field_diesOnly (f := State.cores) (fun _ _ => rfl) hdies :)⟩
      rw [State.part, hparts]
      rfl
    · subst hstage
      exact hnext _ (migAbort_eq.trans (congrArg (Option.map _) hturn))
  · intro s p d i j v hj
    refine ⟨fun h => next_congr ((ordAddr_eq hj).trans (if_neg (Bool.eq_false_iff.mp h))), fun h => ⟨next_congr ((ordAddr_eq hj).trans (if_pos h)),
      next_congr ((ordN_eq hj).trans (if_pos h))⟩, fun h => next_congr ((ordN_eq hj).trans (if_neg (Bool.eq_false_iff.mp h))),
      fun key hv harmed hn ha hkey => ⟨fun hfree => ?_, fun htaken => ?_⟩, fun hv harmed hgot => ⟨_, next_congr (ordArm_disarm hj hv harmed hgot), ?_, rfl, rfl⟩⟩
    · refine next_congr ((ordArm_arm hj hv hkey).trans (if_neg ?_))
      have harmed : (s.ordAt d j).armed = false := harmed
      have hn : (s.ordAt d j).n ≠ 0 := hn
      have ha : (s.ordAt d j).addr.toNat % 4 = 0 := ha
      simp [harmed, hn, ha, hfree]
    · refine next_congr ((ordArm_arm hj hv hkey).trans (if_pos ?_))
      simp [Option.isSome_iff_ne_none.mpr htaken]
    · have hentry : (((emptied s d j).setOrd d j { (emptied s d j).ordAt d j with armed := false }).die d).ord.get Ord.init j =
          { (emptied s d j).ordAt d j with armed := false } := by
        rw [State.setOrd, State.die_modDie]
        exact Tbl.get_set_same ..
      refine hentry.trans ?_
      rw [ordAt_emptied hgot]
      rfl
  · refine fun s p v hex => ⟨fun ha hin => next_congr ?_, fun hlow hhigh => next_congr ?_, fun h => next_congr ?_⟩
    · rw [State.faBase, TileWalks.bits_eq, Nat.pow_zero, Nat.div_one]
      exact if_pos (by rw [hex, ha, hin]; rfl)
    · rw [State.faLog, bits_low5]
      exact if_pos (by simp [hex, hlow, hhigh])
    · rw [State.faLog, bits_low5]
      refine if_neg ?_
      rw [Bool.and_eq_true, Bool.and_eq_true, decide_eq_true_eq, decide_eq_true_eq]
      omega
  · exact fun s p hex => ⟨fun hstate hrsv hbase => next_congr (preempt_accepted hex hstate hrsv hbase), fun h => next_congr (preempt_refused hex h),
      fun hstate hrsv hsaved => next_congr (resume_accepted hex hstate hrsv hsaved), fun h => next_congr (resume_refused hex h)⟩
  · intro s cid e p hin
    refine ⟨fun hstate hsaved hquiet => ⟨fun hlen => ?_, fun hlen => ⟨fun hturns => ?_, fun hturns => ?_⟩⟩,
      fun _ hquiet => next_congr (coreSave_unquiet hquiet), fun hstate hsaved => ⟨fun hread => ?_, fun r hread => ⟨fun hne hother hwithin => ?_, fun hall => ?_⟩⟩⟩
    · exact next_congr ((coreSave_eq hin hstate hsaved hquiet).trans (if_neg hlen))
    · exact next_congr ((coreSave_eq hin hstate hsaved hquiet).trans ((if_pos hlen).trans (by rw [show (saving s (s.partOf cid) cid).saveTurns (s.partOf cid) = none from hturns])))
    · obtain ⟨w, hw⟩ := Option.ne_none_iff_exists'.mp hturns
      exact ⟨_, next_congr ((coreSave_eq hin hstate hsaved hquiet).trans ((if_pos hlen).trans (by rw [show (saving s (s.partOf cid) cid).saveTurns (s.partOf cid) = some w from hw]; rfl))), savedLast_spec hw⟩
    · exact next_congr ((coreRestore_eq hin hstate hsaved).trans (by rw [hread]))
    · refine next_congr ((coreRestore_eq hin hstate hsaved).trans ?_)
      rw [hread]
      have hmgmt : r.mgmt = s.mgmt := (field_diesOnly (f := State.mgmt) (fun _ _ => rfl) (State.agentRead_diesOnly hread) :)
      have hcore : r.core e = s.core e := (field_diesOnly (f := (fun u => State.core u e)) (fun _ _ => rfl) (State.agentRead_diesOnly hread) :)
      refine if_pos (any_saved hne (hcore ▸ hother) ?_)
      rw [State.coreIn, shares_congr hmgmt]
      exact hwithin
    · refine next_congr ((coreRestore_eq hin hstate hsaved).trans ?_)
      rw [hread]
      have hparts : r.parts = s.parts := (field_diesOnly (f := State.parts) (fun _ _ => rfl) (State.agentRead_diesOnly hread) :)
      refine (if_neg ?_).trans ?_
      · rw [Bool.not_eq_true, List.any_eq_false]
        intro x hx hboth
        obtain ⟨hsaved, hwithin⟩ := Bool.and_eq_true_iff.mp hboth
        exact Bool.eq_false_iff.mp (hall x hx hwithin) hsaved
      · rw [State.interrupt, State.part_modPart, State.part, State.modCore_parts, hparts]
        rfl
  · refine fun s i v hi => ⟨fun hv => next_congr (portEntryWrite_clears hi hv), fun hv h => next_congr ((portEntryWrite_sets hi hv).trans (if_neg ?_)),
      fun hv he hex hdie => next_congr ((portEntryWrite_sets hi hv).trans (if_pos ?_)), next_congr (portEntryWrite_second hi),
      fun a b => next_congr (opticalLinkState_eq hi a b)⟩
    · rcases h with h | h | h
      · rw [h]
        simp
      · simp [h]
      · have hnone : (s.shares (v.toNat / 2 % 64)).any (fun x => x.1 == v.toNat / 128 % 16) = false := List.any_eq_false.mpr fun x hx => by
          simpa using h x hx
        simp [hnone]
    · obtain ⟨x, hx, hxd⟩ := hdie
      have hany : (s.shares (v.toNat / 2 % 64)).any (fun x => x.1 == v.toNat / 128 % 16) = true :=
        List.any_eq_true.mpr ⟨x, hx, beq_iff_eq.mpr hxd⟩
      rw [he, hex, hany]
      rfl
  · intro s i addr bs e p d
    refine ⟨fun hv hup hback hex hclear hbs hfits hdies hbusy hmig => ⟨fun hs => next_congr ?_, fun hs => next_congr ?_⟩,
      fun h => next_congr (peerReplicaWrite_waits rfl rfl h)⟩
    · exact (peerReplicaWrite_lands rfl rfl hv hup hback hex hclear hbs hfits hdies hbusy hmig).trans (if_pos hs)
    · exact (peerReplicaWrite_lands rfl rfl hv hup hback hex hclear hbs hfits hdies hbusy hmig).trans (if_neg (Bool.eq_false_iff.mp hs))

end Sys2Proof.Proofs.PartitionsAtWork
end
